-- ==== Sys2Proof/Word.lean ====
section
/-! DEFINITION. The word types of the Hjelari 7160 (R3) and the plainest facts about them. -/

namespace Sys2Proof

/-- A byte (R3). -/
abbrev Byte := BitVec 8
/-- A word of 32 bits (R3). -/
abbrev Word := BitVec 32
/-- A dword of 64 bits (R3). -/
abbrev DWord := BitVec 64
/-- A quad of 128 bits (R3). -/
abbrev Quad := BitVec 128
/-- A 56-bit virtual address (R15). -/
abbrev VAddr := BitVec 56

end Sys2Proof
end

