-- ==== Sys2Proof/Syntax.lean ====
section
/-! DEFINITION. The instruction words and the machine steps of the Hjelari 7160, one constructor for each row of the
opcode table: 203 instructions with their decoded operands (chapter 3: formats R60-R65, MOD fields R71), then the 103
operations and events of the part (chapter 95). The numbers that say where such a step takes place, named in its comment,
stand in `State.args` (Sys2Proof/Machine/State.lean) when it is executed. -/

namespace Sys2Proof

/-- An input port of an instruction (R65). -/
inductive PortSel where
  | a | b | c
deriving DecidableEq, Repr

/-- A 9-bit target, decoded (R65): nothing, a port of instruction `k`, a 32-bit live-out write of slot `s`, or a
64-bit live-out write of slots `s` and `s + 1`. -/
inductive Target where
  | none
  | port (p : PortSel) (k : BitVec 6)
  | live (s : BitVec 6)
  | pairLive (s : BitVec 6)
deriving DecidableEq, Repr

/-- The integer types of MOD [23:21] (R71, R156). -/
inductive IntTy where
  | i32 | n32 | i64 | n64 | i16x4 | n16x4
deriving DecidableEq, Repr

/-- The integer MOD field (R71): type, saturate, invert b, zero. -/
structure IntMod where
  ty : IntTy
  sat : Bool
  invb : Bool
  z : Bool
deriving DecidableEq, Repr

/-- The MOD field of `lea` (R163). -/
structure LeaMod where
  ty : IntTy
  scale : BitVec 3
deriving DecidableEq, Repr

/-- The floating-point types of MOD [23:21] (R71). -/
inductive FpTy where
  | f32 | f64 | f16x2 | bf16x2
deriving DecidableEq, Repr

/-- The floating-point MOD field (R71): type, flush inputs, flush results, negate b. -/
structure FpMod where
  ty : FpTy
  ftzi : Bool
  ftzo : Bool
  negb : Bool
deriving DecidableEq, Repr

/-- The four rounding modes (R9, R177), in the order of their codes. -/
inductive Rnd where
  | rne | rtz | rup | rdn
deriving DecidableEq, Repr

/-- The MOD field of `fround` (R198). -/
structure FroundMod where
  ty : FpTy
  ftzi : Bool
  rnd : Rnd
deriving DecidableEq, Repr

/-- The conversion formats, in the order of their codes (R71). -/
inductive CvtFmt where
  | f64 | f32 | f16 | bf16 | e4m3 | e5m2 | i32 | n32 | i64 | n64
deriving DecidableEq, Repr

/-- The conversion MOD field (R71): destination and rounding. -/
structure CvtMod where
  dest : CvtFmt
  rnd : Rnd
deriving DecidableEq, Repr

/-- The access sizes of MOD [23:21] (R71). -/
inductive Size where
  | b8 | b16 | b32 | b64 | b128
deriving DecidableEq, Repr

/-- The scopes other than none of MOD [20:18] (R71). -/
inductive Scope where
  | group | cluster | device | system
deriving DecidableEq, Repr

/-- The kinds of `fence` (R230). -/
inductive FenceKind where
  | acq | rel | ar | sc
deriving DecidableEq, Repr

/-- What a barrier instruction names (R282). -/
inductive BarRef where
  | named (n : BitVec 4)
  | stage (n : BitVec 1)
  | rope
deriving DecidableEq, Repr

/-- The instructions and the machine steps. -/
inductive Instr where
  /-- `read` (R138). -/
  | read (s : BitVec 6) (t1 t0 : Target)
  /-- `read.d` (R138). -/
  | readD (s : BitVec 6) (t1 t0 : Target)
  /-- `lit` (R138). -/
  | lit (s : BitVec 6) (t1 t0 : Target)
  /-- `lit.d` (R138). -/
  | litD (s : BitVec 6) (t1 t0 : Target)
  /-- `const` (R138). -/
  | const (imm : BitVec 15) (t0 : Target)
  /-- `mov` (R140). -/
  | mov (w : Bool) (t1 t0 : Target)
  /-- `gate` (R140). -/
  | gate (w : Bool) (t1 t0 : Target)
  /-- `gaten` (R140). -/
  | gaten (w : Bool) (t1 t0 : Target)
  /-- `sel` (R140). -/
  | sel (w : Bool) (t1 t0 : Target)
  /-- `pick` (R140). -/
  | pick (w : Bool) (t1 t0 : Target)
  /-- `pair` (R140). -/
  | pair (t1 t0 : Target)
  /-- `split` (R140). -/
  | split (t1 t0 : Target)
  /-- `sink` (R140). -/
  | sink (w : Bool)
  /-- `isnull` (R140). -/
  | isnull (w : Bool) (t1 t0 : Target)
  /-- `id` (R138). -/
  | id (s : BitVec 6) (t1 t0 : Target)
  /-- `br` (R113). -/
  | br (off : BitVec 24)
  /-- `brc` (R113). -/
  | brc (off : BitVec 24)
  /-- `brcn` (R113). -/
  | brcn (off : BitVec 24)
  /-- `brx` (R113). -/
  | brx
  /-- `call` (R113). -/
  | call (off : BitVec 24)
  /-- `callc` (R113). -/
  | callc (off : BitVec 24)
  /-- `callx` (R113). -/
  | callx
  /-- `ret` (R113). -/
  | ret
  /-- `exit` (R113). -/
  | exit
  /-- `exitc` (R113). -/
  | exitc
  /-- `add` (R160). -/
  | add (m : IntMod) (t1 t0 : Target)
  /-- `sub` (R160). -/
  | sub (m : IntMod) (t1 t0 : Target)
  /-- `addi` (R166). -/
  | addi (imm : BitVec 15) (t0 : Target)
  /-- `mul` (R160). -/
  | mul (m : IntMod) (t1 t0 : Target)
  /-- `mulhi` (R160). -/
  | mulhi (m : IntMod) (t1 t0 : Target)
  /-- `mulw` (R161). -/
  | mulw (m : IntMod) (t1 t0 : Target)
  /-- `mad` (R160). -/
  | mad (m : IntMod) (t1 t0 : Target)
  /-- `div` (R160). -/
  | div (m : IntMod) (t1 t0 : Target)
  /-- `rem` (R160). -/
  | rem (m : IntMod) (t1 t0 : Target)
  /-- `min` (R160). -/
  | min (m : IntMod) (t1 t0 : Target)
  /-- `max` (R160). -/
  | max (m : IntMod) (t1 t0 : Target)
  /-- `abs` (R160). -/
  | abs (m : IntMod) (t1 t0 : Target)
  /-- `neg` (R160). -/
  | neg (m : IntMod) (t1 t0 : Target)
  /-- `and` (R160). -/
  | and (m : IntMod) (t1 t0 : Target)
  /-- `or` (R160). -/
  | or (m : IntMod) (t1 t0 : Target)
  /-- `xor` (R160). -/
  | xor (m : IntMod) (t1 t0 : Target)
  /-- `andn` (R160). -/
  | andn (m : IntMod) (t1 t0 : Target)
  /-- `not` (R160). -/
  | not (m : IntMod) (t1 t0 : Target)
  /-- `shl` (R160). -/
  | shl (m : IntMod) (t1 t0 : Target)
  /-- `shr` (R160). -/
  | shr (m : IntMod) (t1 t0 : Target)
  /-- `sar` (R160). -/
  | sar (m : IntMod) (t1 t0 : Target)
  /-- `rotl` (R160). -/
  | rotl (m : IntMod) (t1 t0 : Target)
  /-- `rotr` (R160). -/
  | rotr (m : IntMod) (t1 t0 : Target)
  /-- `clz` (R160). -/
  | clz (m : IntMod) (t1 t0 : Target)
  /-- `ctz` (R160). -/
  | ctz (m : IntMod) (t1 t0 : Target)
  /-- `popc` (R160). -/
  | popc (m : IntMod) (t1 t0 : Target)
  /-- `brev` (R160). -/
  | brev (m : IntMod) (t1 t0 : Target)
  /-- `bswap` (R160). -/
  | bswap (m : IntMod) (t1 t0 : Target)
  /-- `bfx` (R162). -/
  | bfx (m : IntMod) (t1 t0 : Target)
  /-- `bfi` (R162). -/
  | bfi (m : IntMod) (t1 t0 : Target)
  /-- `lea` (R163). -/
  | lea (m : LeaMod) (t1 t0 : Target)
  /-- `absdiff` (R160). -/
  | absdiff (m : IntMod) (t1 t0 : Target)
  /-- `setp.eq` (R164). -/
  | setpEq (m : IntMod) (t1 t0 : Target)
  /-- `setp.ne` (R164). -/
  | setpNe (m : IntMod) (t1 t0 : Target)
  /-- `setp.lt` (R164). -/
  | setpLt (m : IntMod) (t1 t0 : Target)
  /-- `setp.le` (R164). -/
  | setpLe (m : IntMod) (t1 t0 : Target)
  /-- `setp.gt` (R164). -/
  | setpGt (m : IntMod) (t1 t0 : Target)
  /-- `setp.ge` (R164). -/
  | setpGe (m : IntMod) (t1 t0 : Target)
  /-- `pand` (R165). -/
  | pand (t1 t0 : Target)
  /-- `por` (R165). -/
  | por (t1 t0 : Target)
  /-- `pxor` (R165). -/
  | pxor (t1 t0 : Target)
  /-- `pnot` (R165). -/
  | pnot (t1 t0 : Target)
  /-- `andi` (R166). -/
  | andi (imm : BitVec 15) (t0 : Target)
  /-- `shli` (R166). -/
  | shli (imm : BitVec 15) (t0 : Target)
  /-- `shri` (R166). -/
  | shri (imm : BitVec 15) (t0 : Target)
  /-- `muli` (R166). -/
  | muli (imm : BitVec 15) (t0 : Target)
  /-- `setpi.eq` (R166). -/
  | setpiEq (imm : BitVec 15) (t0 : Target)
  /-- `setpi.lt` (R166). -/
  | setpiLt (imm : BitVec 15) (t0 : Target)
  /-- `fadd` (R193). -/
  | fadd (m : FpMod) (t1 t0 : Target)
  /-- `fmul` (R193). -/
  | fmul (m : FpMod) (t1 t0 : Target)
  /-- `ffma` (R193). -/
  | ffma (m : FpMod) (t1 t0 : Target)
  /-- `fmin` (R194). -/
  | fmin (m : FpMod) (t1 t0 : Target)
  /-- `fmax` (R194). -/
  | fmax (m : FpMod) (t1 t0 : Target)
  /-- `fabs` (R195). -/
  | fabs (m : FpMod) (t1 t0 : Target)
  /-- `fneg` (R195). -/
  | fneg (m : FpMod) (t1 t0 : Target)
  /-- `fcopysign` (R195). -/
  | fcopysign (m : FpMod) (t1 t0 : Target)
  /-- `fsetp.eq` (R196). -/
  | fsetpEq (m : FpMod) (t1 t0 : Target)
  /-- `fsetp.ne` (R196). -/
  | fsetpNe (m : FpMod) (t1 t0 : Target)
  /-- `fsetp.lt` (R196). -/
  | fsetpLt (m : FpMod) (t1 t0 : Target)
  /-- `fsetp.le` (R196). -/
  | fsetpLe (m : FpMod) (t1 t0 : Target)
  /-- `fsetp.un` (R196). -/
  | fsetpUn (m : FpMod) (t1 t0 : Target)
  /-- `fclass` (R197). -/
  | fclass (m : FpMod) (t1 t0 : Target)
  /-- `fdiv` (R193). -/
  | fdiv (m : FpMod) (t1 t0 : Target)
  /-- `fsqrt` (R193). -/
  | fsqrt (m : FpMod) (t1 t0 : Target)
  /-- `frcp` (R199). -/
  | frcp (m : FpMod) (t1 t0 : Target)
  /-- `frsq` (R199). -/
  | frsq (m : FpMod) (t1 t0 : Target)
  /-- `fex2` (R199). -/
  | fex2 (m : FpMod) (t1 t0 : Target)
  /-- `flg2` (R199). -/
  | flg2 (m : FpMod) (t1 t0 : Target)
  /-- `fsin` (R199). -/
  | fsin (m : FpMod) (t1 t0 : Target)
  /-- `fcos` (R199). -/
  | fcos (m : FpMod) (t1 t0 : Target)
  /-- `ftanh` (R199). -/
  | ftanh (m : FpMod) (t1 t0 : Target)
  /-- `fround` (R198). -/
  | fround (m : FroundMod) (t1 t0 : Target)
  /-- `fdot2` (R193). -/
  | fdot2 (m : FpMod) (t1 t0 : Target)
  /-- `cvt.f64` (R203). -/
  | cvtF64 (m : CvtMod) (t1 t0 : Target)
  /-- `cvt.f32` (R203). -/
  | cvtF32 (m : CvtMod) (t1 t0 : Target)
  /-- `cvt.f16` (R203). -/
  | cvtF16 (m : CvtMod) (t1 t0 : Target)
  /-- `cvt.bf16` (R203). -/
  | cvtBf16 (m : CvtMod) (t1 t0 : Target)
  /-- `cvt.e4m3` (R203). -/
  | cvtE4m3 (m : CvtMod) (t1 t0 : Target)
  /-- `cvt.e5m2` (R203). -/
  | cvtE5m2 (m : CvtMod) (t1 t0 : Target)
  /-- `cvt.i32` (R203). -/
  | cvtI32 (m : CvtMod) (t1 t0 : Target)
  /-- `cvt.n32` (R203). -/
  | cvtN32 (m : CvtMod) (t1 t0 : Target)
  /-- `cvt.i64` (R203). -/
  | cvtI64 (m : CvtMod) (t1 t0 : Target)
  /-- `cvt.n64` (R203). -/
  | cvtN64 (m : CvtMod) (t1 t0 : Target)
  /-- `cvt.pk` (R204). -/
  | cvtPk (m : CvtMod) (t1 t0 : Target)
  /-- `cvt.ch` (R205). -/
  | cvtCh (m : CvtMod) (t1 t0 : Target)
  /-- `ld` (R226). -/
  | ld (z : Size) (t1 t0 : Target)
  /-- `lds` (R226). -/
  | lds (z : Size) (t1 t0 : Target)
  /-- `ld.acq` (R226). -/
  | ldAcq (z : Size) (p : Scope) (t1 t0 : Target)
  /-- `ldd` (R227). -/
  | ldd (z : Size) (t1 t0 : Target)
  /-- `ldnc` (R226). -/
  | ldnc (z : Size) (t1 t0 : Target)
  /-- `st` (R228). -/
  | st (z : Size) (t1 : Target)
  /-- `st.rel` (R228). -/
  | stRel (z : Size) (p : Scope) (t1 : Target)
  /-- `stnc` (R228). -/
  | stnc (z : Size) (t1 : Target)
  /-- `prefetch` (R229). -/
  | prefetch (l2 : Bool) (t1 : Target)
  /-- `fence` (R230). -/
  | fence (k : FenceKind) (p : Scope) (t1 : Target)
  /-- `fence.eng` (R258). -/
  | fenceEng (t1 : Target)
  /-- `cinv` (R231). -/
  | cinv (t1 : Target)
  /-- `cwb` (R231). -/
  | cwb (t1 : Target)
  /-- `probe` (R232). -/
  | probe (t1 t0 : Target)
  /-- `aadd` (R269). -/
  | aadd (z : Size) (t1 t0 : Target)
  /-- `aadd.ar` (R269). -/
  | aaddAr (z : Size) (p : Scope) (t1 t0 : Target)
  /-- `amin` (R269). -/
  | amin (z : Size) (t1 t0 : Target)
  /-- `amin.ar` (R269). -/
  | aminAr (z : Size) (p : Scope) (t1 t0 : Target)
  /-- `amax` (R269). -/
  | amax (z : Size) (t1 t0 : Target)
  /-- `amax.ar` (R269). -/
  | amaxAr (z : Size) (p : Scope) (t1 t0 : Target)
  /-- `aminn` (R269). -/
  | aminn (z : Size) (t1 t0 : Target)
  /-- `amaxn` (R269). -/
  | amaxn (z : Size) (t1 t0 : Target)
  /-- `aand` (R269). -/
  | aand (z : Size) (t1 t0 : Target)
  /-- `aand.ar` (R269). -/
  | aandAr (z : Size) (p : Scope) (t1 t0 : Target)
  /-- `aor` (R269). -/
  | aor (z : Size) (t1 t0 : Target)
  /-- `aor.ar` (R269). -/
  | aorAr (z : Size) (p : Scope) (t1 t0 : Target)
  /-- `axor` (R269). -/
  | axor (z : Size) (t1 t0 : Target)
  /-- `axor.ar` (R269). -/
  | axorAr (z : Size) (p : Scope) (t1 t0 : Target)
  /-- `axchg` (R269). -/
  | axchg (z : Size) (t1 t0 : Target)
  /-- `axchg.ar` (R269). -/
  | axchgAr (z : Size) (p : Scope) (t1 t0 : Target)
  /-- `acas` (R269). -/
  | acas (z : Size) (t1 t0 : Target)
  /-- `acas.ar` (R269). -/
  | acasAr (z : Size) (p : Scope) (t1 t0 : Target)
  /-- `ainc` (R269). -/
  | ainc (z : Size) (t1 t0 : Target)
  /-- `adec` (R269). -/
  | adec (z : Size) (t1 t0 : Target)
  /-- `aaddb` (R269). -/
  | aaddb (z : Size) (t1 t0 : Target)
  /-- `aaddb.ar` (R269). -/
  | aaddbAr (z : Size) (p : Scope) (t1 t0 : Target)
  /-- `afadd` (R269). -/
  | afadd (z : Size) (t1 t0 : Target)
  /-- `afadd2` (R269). -/
  | afadd2 (z : Size) (t1 t0 : Target)
  /-- `afmin` (R269). -/
  | afmin (z : Size) (t1 t0 : Target)
  /-- `afmax` (R269). -/
  | afmax (z : Size) (t1 t0 : Target)
  /-- `ared.add` (R269). -/
  | aredAdd (z : Size) (t1 : Target)
  /-- `ared.fadd` (R269). -/
  | aredFadd (z : Size) (t1 : Target)
  /-- `ared.min` (R269). -/
  | aredMin (z : Size) (t1 : Target)
  /-- `ared.max` (R269). -/
  | aredMax (z : Size) (t1 : Target)
  /-- `ared.or` (R269). -/
  | aredOr (z : Size) (t1 : Target)
  /-- `ared.and` (R269). -/
  | aredAnd (z : Size) (t1 : Target)
  /-- `bar.wait` (R283). -/
  | barWait (num : BitVec 4) (off : BitVec 20)
  /-- `bar.arrive` (R282). -/
  | barArrive (b : BarRef) (t1 : Target)
  /-- `bar.drop` (R282). -/
  | barDrop (b : BarRef) (t1 : Target)
  /-- `bar.init` (R282). -/
  | barInit (b : BarRef) (t1 t0 : Target)
  /-- `stg.expect` (R282). -/
  | stgExpect (arr stg : Bool) (t1 : Target)
  /-- `stg.wait` (R283). -/
  | stgWait (num : BitVec 4) (off : BitVec 20)
  /-- `waitp` (R281). -/
  | waitp (num : BitVec 4) (off : BitVec 20)
  /-- `rope.wait` (R283). -/
  | ropeWait (off : BitVec 20)
  /-- `cpy` (R297). -/
  | cpy (ch : BitVec 4) (t1 t0 : Target)
  /-- `cpy.coll` (R299). -/
  | cpyColl (ch : BitVec 4) (t1 t0 : Target)
  /-- `cwptr` (R297). -/
  | cwptr (acq : Bool) (ch : BitVec 4) (t1 t0 : Target)
  /-- `cchan` (R297). -/
  | cchan (ch : BitVec 4) (t1 t0 : Target)
  /-- `mma` (R306). -/
  | mma (t1 : Target)
  /-- `macc.ld` (R317). -/
  | maccLd (f : Bool) (t1 : Target)
  /-- `macc.st` (R317). -/
  | maccSt (f : Bool) (t1 : Target)
  /-- `mgang` (R318). -/
  | mgang (t1 t0 : Target)
  /-- `mchan` (R318). -/
  | mchan (t1 t0 : Target)
  /-- `twin` (R332). -/
  | twin (t1 : Target)
  /-- `tload` (R332). -/
  | tload (f : Bool) (t1 : Target)
  /-- `tlaunch` (R332). -/
  | tlaunch (f : Bool) (t1 : Target)
  /-- `tcap` (R332). -/
  | tcap (t1 : Target)
  /-- `trst` (R332). -/
  | trst (t1 : Target)
  /-- `tcode` (R332). -/
  | tcode (t1 t0 : Target)
  /-- `tval` (R332). -/
  | tval (t1 t0 : Target)
  /-- `abegin` (R336). -/
  | abegin (off : BitVec 24)
  /-- `acommit` (R343). -/
  | acommit (off : BitVec 24)
  /-- `aabort` (R354). -/
  | aabort (t1 : Target)
  /-- `astat` (R354). -/
  | astat (t1 t0 : Target)
  /-- `apin` (R354). -/
  | apin (t1 t0 : Target)
  /-- `hspawn` (R383). -/
  | hspawn (t1 t0 : Target)
  /-- `hgain.add` (R371). -/
  | hgainAdd (t1 t0 : Target)
  /-- `hgain.max` (R371). -/
  | hgainMax (t1 t0 : Target)
  /-- `hgain.set` (R371). -/
  | hgainSet (t1 t0 : Target)
  /-- `hdep` (R369). -/
  | hdep (t1 t0 : Target)
  /-- `hdone` (R384). -/
  | hdone
  /-- `hresid` (R385). -/
  | hresid (t1 t0 : Target)
  /-- `hself` (R386). -/
  | hself (t1 t0 : Target)
  /-- `trap` (R424). -/
  | trap (code : BitVec 15)
  /-- `brk` (R424). -/
  | brk (code : BitVec 15)
  /-- `eret` (R425). -/
  | eret (f : Bool)
  /-- `sysrd` (R427). -/
  | sysrd (s : BitVec 6) (t1 t0 : Target)
  /-- `syswr` (R427). -/
  | syswr (s : BitVec 6) (t1 : Target)
  /-- `cfginv` (R428). -/
  | cfginv (t1 : Target)
  /-- `cairn` (R429). -/
  | cairn (code : BitVec 15) (t0 : Target)
  /-- `tsc` (R430). -/
  | tsc (t1 t0 : Target)
  /-- `nop` (R430). -/
  | nop
  /-- `halt` (R426). -/
  | halt
  /-- TAKE_RECORD (R390); arguments: q. -/
  | takeRecord
  /-- LAUNCH_START (R393); arguments: q. -/
  | launchStart
  /-- QUEUE_ENABLE (R389); arguments: q, ctx. -/
  | queueEnable
  /-- QUEUE_DISABLE (R389); arguments: q. -/
  | queueDisable
  /-- PLACE_UNIT (R398). -/
  | placeUnit
  /-- TIME_SLICE_EXPIRY (R400); arguments: core, g. -/
  | timeSliceExpiry
  /-- MIGRATE_GROUP (R39); arguments: core, g, dst. -/
  | migrateGroup
  /-- DIE_MODE_CHANGE_DONE (R213); arguments: die. -/
  | dieModeChangeDone
  /-- BIN_HEADER_RETURN (R101); arguments: core, bin. -/
  | binHeaderReturn
  /-- CONFIG_START (R105); arguments: core. -/
  | configStart
  /-- CONFIG_COMPLETE (R106); arguments: core. -/
  | configComplete
  /-- ADMIT_THREAD (R107); arguments: core. -/
  | admitThread
  /-- FORCED_CLOSURE (R109); arguments: core. -/
  | forcedClosure
  /-- BIN_SEAL (R110); arguments: core. -/
  | binSeal
  /-- QUIESCENCE_SET (R134); arguments: core, ctx. -/
  | quiescenceSet
  /-- WALK_COMPLETE (R218); arguments: die, asp, vpn. -/
  | walkComplete
  /-- SQUASHED_END (R133); arguments: core, slot. -/
  | squashedEnd
  /-- LOAD_RETURN (R226); arguments: core, slot, idx. -/
  | loadReturn
  /-- DEFERRED_FILL (R147); arguments: core, slot, pos. -/
  | deferredFill
  /-- SFU_RETURN (R200); arguments: core, slot, idx. -/
  | sfuReturn
  /-- ATOMIC_TILE_PERFORM (R265); arguments: die, tile. -/
  | atomicTilePerform
  /-- ATOMIC_RETURN (R268); arguments: core, slot, idx. -/
  | atomicReturn
  /-- ERET_RECORD_RETURN (R425); arguments: core, slot. -/
  | eretRecordReturn
  /-- BLOCK_COMMIT (R132); arguments: core, slot. -/
  | blockCommit
  /-- LIVE_WRITE_PERFORM (R144); arguments: core. -/
  | liveWritePerform
  /-- STORE_SEND (R241); arguments: core, slot. -/
  | storeSend
  /-- STORE_ACKNOWLEDGE (R241); arguments: core, slot, pos. -/
  | storeAcknowledge
  /-- THREAD_RETIRE (R41); arguments: core, slot. -/
  | threadRetire
  /-- GROUP_RETIRE (R43); arguments: core, g. -/
  | groupRetire
  /-- GRID_RETIRE (R45); arguments: grid. -/
  | gridRetire
  /-- BARRIER_TIMEOUT (R279); arguments: core, g, bar. -/
  | barrierTimeout
  /-- ROPE_PHASE_COMPLETE (R280); arguments: grid, rope. -/
  | ropePhaseComplete
  /-- CHANNEL_WAIT_TIMEOUT (R281); arguments: core, slot. -/
  | channelWaitTimeout
  /-- ENGINE_PORT_ACCEPT (R189); arguments: core. -/
  | enginePortAccept
  /-- COPY_RUN_ISSUE (R289); arguments: core, ch. -/
  | copyRunIssue
  /-- COPY_RUN_PERFORMED (R290); arguments: core, ch, pos. -/
  | copyRunPerformed
  /-- MATRIX_STEP (R307); arguments: core. -/
  | matrixStep
  /-- MMA_COMPLETE (R306); arguments: core, ac. -/
  | mmaComplete
  /-- MACC_COMPLETE (R317); arguments: core, ac. -/
  | maccComplete
  /-- GANG_ROUND_COMPLETE (R311); arguments: die, grid, rope. -/
  | gangRoundComplete
  /-- LATCH_TIMEOUT (R312); arguments: core, slot. -/
  | latchTimeout
  /-- TEMPORAL_COMMAND_START (R329); arguments: core. -/
  | temporalCommandStart
  /-- TEMPORAL_COMMAND_COMPLETE (R329); arguments: core. -/
  | temporalCommandComplete
  /-- TLAUNCH_ATTEMPT_END (R325); arguments: core, mismatch. -/
  | tlaunchAttemptEnd
  /-- TICK_REPLAN (R326); arguments: core, tick, margin. -/
  | tickReplan
  /-- TEMPORAL_ARRAY_RESET (R326); arguments: core. -/
  | temporalArrayReset
  /-- COMMIT_ENGINE_START (R343); arguments: core. -/
  | commitEngineStart
  /-- LINE_LOCK_GRANTED (R344); arguments: core. -/
  | lineLockGranted
  /-- SERIAL_TOKEN_GRANT (R348); arguments: die. -/
  | serialTokenGrant
  /-- HEAP_OPERATION_APPLY (R365); arguments: die. -/
  | heapOperationApply
  /-- HEAP_REPLY (R383); arguments: core, slot, idx. -/
  | heapReply
  /-- HEAP_POP (R366); arguments: die. -/
  | heapPop
  /-- TASK_THREAD_CREATE (R368); arguments: die. -/
  | taskThreadCreate
  /-- HEAP_LEND (R367); arguments: die, handle. -/
  | heapLend
  /-- RESID_INCLUSION (R373); arguments: grid. -/
  | residInclusion
  /-- HEAP_TOL_EFFECT (R374); arguments: grid. -/
  | heapTolEffect
  /-- SETTLE_POP_STOP (R376); arguments: grid. -/
  | settlePopStop
  /-- HEAP_DRAIN (R377); arguments: grid. -/
  | heapDrain
  /-- DRAIN_COMPLETE (R379); arguments: grid. -/
  | drainComplete
  /-- FAULT_RECORD_PERFORMED (R405); arguments: core, slot. -/
  | faultRecordPerformed
  /-- REPLAY_COMMAND (R466); arguments: report. -/
  | replayCommand
  /-- NEXT_COMMAND (R466); arguments: report. -/
  | nextCommand
  /-- KILL_COMMAND (R466); arguments: report. -/
  | killCommand
  /-- RESUME_COMMAND (R466); arguments: report. -/
  | resumeCommand
  /-- TLB_INVALIDATE (R219); arguments: ctx, vpn, count. -/
  | tlbInvalidate
  /-- TLB_INVALIDATE_DONE (R219). -/
  | tlbInvalidateDone
  /-- SAVE_START (R414); arguments: core, g. -/
  | saveStart
  /-- SCRATCH_SAVE_PASS (R415); arguments: core, g. -/
  | scratchSavePass
  /-- SAVE_COMPLETE (R415); arguments: core, g. -/
  | saveComplete
  /-- GROUP_RESTORE (R416); arguments: core, g. -/
  | groupRestore
  /-- PREEMPT_LIMIT_EXPIRY (R417); arguments: core, g. -/
  | preemptLimitExpiry
  /-- GROUP_DISCARD (R418); arguments: core, g. -/
  | groupDiscard
  /-- DEBUG_HALT (R419); arguments: core, g. -/
  | debugHalt
  /-- CFGINV_PERFORM (R428); arguments: core, slot, idx. -/
  | cfginvPerform
  /-- DIRECTORY_TRANSACTION (R433); arguments: die. -/
  | directoryTransaction
  /-- PROBE_ANSWER (R433); arguments: die. -/
  | probeAnswer
  /-- GRANULE_FLUSH (R436); arguments: granule. -/
  | granuleFlush
  /-- GRANULE_RECLASSIFY (R436); arguments: granule. -/
  | granuleReclassify
  /-- HOST_SNOOP (R442); arguments: port, line, write. -/
  | hostSnoop
  /-- LINK_FAIL (R439); arguments: a, b. -/
  | linkFail
  /-- PEER_TIMEOUT (R445); arguments: core, slot, write, idx. -/
  | peerTimeout
  /-- HEARTBEAT_MISS (R446); arguments: die. -/
  | heartbeatMiss
  /-- AGENT_DEAD (R447); arguments: agent. -/
  | agentDead
  /-- LATE_MESSAGE (R447); arguments: die. -/
  | lateMessage
  /-- IO_DIE_FAILOVER (R448). -/
  | ioDieFailover
  /-- MODULE_RESET (R448). -/
  | moduleReset
  /-- BRING_UP (R467); arguments: absent. -/
  | bringUp
  /-- TRACE_ACCEPT (R457); arguments: die. -/
  | traceAccept
  /-- SAMPLER_WRITE (R459); arguments: core, period. -/
  | samplerWrite
  /-- SAMPLE_TAKE (R459); arguments: core. -/
  | sampleTake
  /-- ENERGY_UPDATE (R462); arguments: die. -/
  | energyUpdate
  /-- VOLTAGE_REPLAN (R464); arguments: die. -/
  | voltageReplan
  /-- THERMAL_HOLD_START (R468); arguments: die, temp. -/
  | thermalHoldStart
  /-- THERMAL_HOLD_END (R468); arguments: die, temp. -/
  | thermalHoldEnd
  /-- THERMAL_SHUTDOWN (R468); arguments: die. -/
  | thermalShutdown
  /-- TSC_CORRECTION (R451); arguments: die, forward, back. -/
  | tscCorrection
  /-- ATTESTATION_QUOTE (R469). -/
  | attestationQuote
  /-- COUNTER_CLEAR (R449); arguments: counter, place. -/
  | counterClear
  /-- MGMT_REGISTER_WRITE (R465); arguments: reg, place, value. -/
  | mgmtRegisterWrite
  /-- PIPELINED_OPERATION_EMIT (R123); arguments: core, slot, idx. -/
  | pipelinedOperationEmit
  /-- DIE_TLB_HIT (R217); arguments: core, asp, vpn. -/
  | dieTlbHit
  /-- COMPLETION_TIMEOUT (R223); arguments: core, slot, write, idx. -/
  | completionTimeout
  /-- AGENT_BROUGHT_BACK_UP (R446); arguments: agent. -/
  | agentBroughtBackUp
deriving DecidableEq, Repr

end Sys2Proof
end

