-- ==== Sys2Proof/Machine/Number.lean ====
section
/-! DEFINITION. Number formats and rounding (chapter 9): floating-point values as exact dyadic numbers, the rounding
helpers of R177 and R178, exact sums and products, and the ex8 block format (R183-R186). Patterns are natural numbers. -/

namespace Sys2Proof.Machine

/-- Read the low `w` bits of a number as two's complement. -/
def sextNat (w x : Nat) : Int := let y := x % 2 ^ w; if y < 2 ^ (w - 1) then (y : Int) else (y : Int) - 2 ^ w

/-- The low `w` bits of an integer. -/
def lowBits (w : Nat) (x : Int) : Nat := (x % (2 ^ w : Int)).toNat

/-- R171: a floating-point format: widths of E and M, bias, and whether it has infinities. -/
structure FFmt where
  e : Nat
  m : Nat
  bias : Int
  hasInf : Bool
deriving DecidableEq, Repr

def fmtF64 : FFmt := ⟨11, 52, 1023, true⟩
def fmtF32 : FFmt := ⟨8, 23, 127, true⟩
def fmtF16 : FFmt := ⟨5, 10, 15, true⟩
def fmtBf16 : FFmt := ⟨8, 7, 127, true⟩
def fmtE5m2 : FFmt := ⟨5, 2, 15, true⟩
def fmtE4m3 : FFmt := ⟨4, 3, 7, false⟩

/-- The width of a format. -/
def FFmt.width (f : FFmt) : Nat := 1 + f.e + f.m
/-- The pattern of the sign bit. -/
def FFmt.signBit (f : FFmt) : Nat := 2 ^ (f.e + f.m)
/-- R173: the canonical NaN. -/
def FFmt.canonNaN (f : FFmt) : Nat :=
  if f.hasInf then (2 ^ f.e - 1) * 2 ^ f.m + 2 ^ (f.m - 1) else (2 ^ f.e - 1) * 2 ^ f.m + (2 ^ f.m - 1)
/-- R173: plus infinity (of a format that has one). -/
def FFmt.inf (f : FFmt) : Nat := (2 ^ f.e - 1) * 2 ^ f.m
/-- R173: the largest finite value. -/
def FFmt.maxFinite (f : FFmt) : Nat :=
  if f.hasInf then (2 ^ f.e - 1) * 2 ^ f.m - 1 else (2 ^ f.e - 1) * 2 ^ f.m + (2 ^ f.m - 2)
/-- A pattern with a sign. -/
def FFmt.withSign (f : FFmt) (neg : Bool) (x : Nat) : Nat := if neg then f.signBit + x else x
/-- The sign bit of a pattern. -/
def FFmt.neg (f : FFmt) (x : Nat) : Bool := x / f.signBit % 2 == 1
/-- The exponent of the last place of a subnormal. -/
def FFmt.kMin (f : FFmt) : Int := 1 - f.bias - (f.m : Int)

/-- An exact value: NaN, an infinity, or `(-1)^neg * m * 2^e`; `m = 0` is a zero with its sign. -/
inductive FpNum where
  | nan
  | inf (neg : Bool)
  | fin (neg : Bool) (m : Nat) (e : Int)
deriving DecidableEq, Repr

/-- R172: the value of a pattern. -/
def FFmt.value (f : FFmt) (x : Nat) : FpNum :=
  let neg := f.neg x
  let E := x / 2 ^ f.m % 2 ^ f.e
  let M := x % 2 ^ f.m
  if E = 0 then .fin neg M f.kMin
  else if E = 2 ^ f.e - 1 ∧ f.hasInf then (if M = 0 then .inf neg else .nan)
  else if E = 2 ^ f.e - 1 ∧ M = 2 ^ f.m - 1 ∧ ¬ f.hasInf then .nan
  else .fin neg (2 ^ f.m + M) ((E : Int) - f.bias - f.m)

/-- R172: is the pattern a NaN? -/
def FFmt.isNaN (f : FFmt) (x : Nat) : Bool := f.value x == .nan
/-- R172: is the pattern a subnormal? -/
def FFmt.isSubnormal (f : FFmt) (x : Nat) : Bool := x / 2 ^ f.m % 2 ^ f.e == 0 && x % 2 ^ f.m != 0

/-- The quotient of a shift to the right, rounded under a mode; `neg` is the sign of the whole. -/
def shiftRound (mode : Rnd) (neg : Bool) (m d : Nat) : Nat :=
  let q := m / 2 ^ d
  let r := m % 2 ^ d
  let up : Bool :=
    match mode with
    | .rne => decide (2 * r > 2 ^ d) || (decide (2 * r = 2 ^ d) && q % 2 == 1)
    | .rtz => false
    | .rup => r != 0 && !neg
    | .rdn => r != 0 && neg
  if up then q + 1 else q

/-- R177 step 1: the member of F′ for a nonzero magnitude, as `(M', k)` of value `M' * 2^k`. -/
def FFmt.toGrid (f : FFmt) (mode : Rnd) (neg : Bool) (m : Nat) (e : Int) : Nat × Int :=
  let p : Int := f.m + 1
  let k := max ((Nat.log2 m : Int) + 1 + e - p) f.kMin
  if k ≤ e then (m * 2 ^ (e - k).toNat, k)
  else
    let q := shiftRound mode neg m (k - e).toNat
    if q = 2 ^ (f.m + 1) then (2 ^ f.m, k + 1) else (q, k)

/-- R177 step 2: does a member of F′ exceed the largest finite value? -/
def FFmt.over (f : FFmt) (g : Nat × Int) : Bool :=
  let top := f.maxFinite
  let kMax : Int := ((top / 2 ^ f.m : Nat) : Int) - f.bias - f.m
  let mMax := 2 ^ f.m + top % 2 ^ f.m
  decide (g.2 > kMax) || (decide (g.2 = kMax) && decide (g.1 > mMax))

/-- The pattern, without sign, of a member of F′ that is finite in the format. -/
def FFmt.ofGrid (f : FFmt) (g : Nat × Int) : Nat :=
  if g.1 < 2 ^ f.m then g.1 else ((g.2 - f.kMin).toNat + 1) * 2 ^ f.m + (g.1 - 2 ^ f.m)

/-- R177 step 2: the result on overflow. -/
def FFmt.overflow (f : FFmt) (mode : Rnd) (neg : Bool) : Nat :=
  let toInf : Bool :=
    match mode with
    | .rne => true
    | .rtz => false
    | .rup => !neg
    | .rdn => neg
  f.withSign neg (if f.hasInf && toInf then f.inf else f.maxFinite)

/-- R177: `round`. (DEDUCED, log entry 51.) -/
def FFmt.round (f : FFmt) (mode : Rnd) (x : FpNum) : Nat :=
  match x with
  | .nan => f.canonNaN
  | .inf neg => f.withSign neg (if f.hasInf then f.inf else f.maxFinite)
  | .fin neg 0 _ => f.withSign neg 0
  | .fin neg m e =>
    let g := f.toGrid mode neg m e
    if f.over g then f.overflow mode neg else f.withSign neg (f.ofGrid g)

/-- R178: `round_sat`, with its flag. -/
def FFmt.roundSat (f : FFmt) (mode : Rnd) (x : FpNum) : Nat × Bool :=
  match x with
  | .nan => (f.canonNaN, false)
  | .inf neg => if f.hasInf then (f.withSign neg f.inf, false) else (f.withSign neg f.maxFinite, true)
  | .fin neg 0 _ => (f.withSign neg 0, false)
  | .fin neg m e =>
    let g := f.toGrid mode neg m e
    if f.over g then (f.withSign neg f.maxFinite, true) else (f.withSign neg (f.ofGrid g), false)

/-- R179: a subnormal read as a zero of its sign. -/
def FFmt.flush (f : FFmt) (on : Bool) (x : Nat) : Nat :=
  if on && f.isSubnormal x then f.withSign (f.neg x) 0 else x

/-! Exact arithmetic -/

/-- The signed integer of a finite value at an exponent not above its own. -/
def alignTo (e0 : Int) (neg : Bool) (m : Nat) (e : Int) : Int :=
  let v : Int := (m * 2 ^ (e - e0).toNat : Nat)
  if neg then -v else v

/-- An exact product; an infinity times zero is NaN (R193). -/
def FpNum.mul : FpNum → FpNum → FpNum
  | .nan, _ => .nan
  | _, .nan => .nan
  | .inf a, .inf b => .inf (a != b)
  | .inf a, .fin b m _ => if m = 0 then .nan else .inf (a != b)
  | .fin a m _, .inf b => if m = 0 then .nan else .inf (a != b)
  | .fin a m e, .fin b n f => .fin (a != b) (m * n) (e + f)

/-- The value with its sign inverted. -/
def FpNum.negate : FpNum → FpNum
  | .nan => .nan
  | .inf a => .inf (!a)
  | .fin a m e => .fin (!a) m e

/-- The value times a power of two (R188). -/
def FpNum.scale (k : Int) : FpNum → FpNum
  | .fin a m e => .fin a m (e + k)
  | x => x

/-- Is the value a NaN? -/
def FpNum.isNaN : FpNum → Bool
  | .nan => true
  | _ => false

/-- The least exponent of the finite terms. -/
def leastExp : List FpNum → Int
  | [] => 0
  | .fin _ _ e :: t => match t with | [] => e | _ => min e (leastExp t)
  | _ :: t => leastExp t

/-- The exact sum of the finite terms, at an exponent. -/
def sumAt (e0 : Int) : List FpNum → Int
  | [] => 0
  | .fin n m e :: t => alignTo e0 n m e + sumAt e0 t
  | _ :: t => sumAt e0 t

/-- Every term is a zero of the given sign. -/
def allZeros (neg : Bool) (ts : List FpNum) : Bool :=
  ts.all fun t => match t with | .fin n m _ => m == 0 && n == neg | _ => false

/-- R190, R193: the exact sum of several terms; the sign of a zero sum is that of R175 under the mode. -/
def sumNum (mode : Rnd) (ts : List FpNum) : FpNum :=
  if ts.any FpNum.isNaN then .nan
  else
    let p := ts.contains (.inf false)
    let n := ts.contains (.inf true)
    if p && n then .nan else if p then .inf false else if n then .inf true
    else
      let e0 := leastExp ts
      let v := sumAt e0 ts
      if v = 0 then .fin (if allZeros true ts then true else if allZeros false ts then false else mode == .rdn) 0 0
      else .fin (decide (v < 0)) v.natAbs e0

/-- A quotient that rounds as the exact one does: 130 bits of it, and a last bit that is set when it is not exact. -/
def quotient (a b : Nat) : Nat × Int :=
  let j := 130 + Nat.log2 b
  let n := a * 2 ^ j
  (2 * (n / b) + (if n % b = 0 then 0 else 1), -(j : Int) - 1)

/-- R193: division, with its special operands. -/
def FpNum.div : FpNum → FpNum → FpNum
  | .nan, _ => .nan
  | _, .nan => .nan
  | .inf _, .inf _ => .nan
  | .inf a, .fin b _ _ => .inf (a != b)
  | .fin a _ _, .inf b => .fin (a != b) 0 0
  | .fin a m e, .fin b n f =>
    if n = 0 then (if m = 0 then .nan else .inf (a != b))
    else if m = 0 then .fin (a != b) 0 0
    else let q := quotient m n; .fin (a != b) q.1 (q.2 + e - f)

/-- The integer square root, bit by bit from bit `i - 1` down. -/
def isqrtFrom (n : Nat) : Nat → Nat → Nat
  | 0, r => r
  | i + 1, r => isqrtFrom n i (if (r + 2 ^ i) * (r + 2 ^ i) ≤ n then r + 2 ^ i else r)

/-- The integer square root. -/
def isqrt (n : Nat) : Nat := isqrtFrom n (Nat.log2 n / 2 + 1) 0

/-- A root that rounds as the exact one does: `m * 2^e` is brought to an even exponent and at least 260 bits. -/
def rootOf (m : Nat) (e : Int) : Nat × Int :=
  let odd : Nat := (e % 2).toNat
  let n := m * 2 ^ (odd + 260)
  let r := isqrt n
  (2 * r + (if r * r = n then 0 else 1), (e - odd - 260) / 2 - 1)

/-- R193: the square root, with its special operands. -/
def FpNum.sqrt : FpNum → FpNum
  | .nan => .nan
  | .inf false => .inf false
  | .inf true => .nan
  | .fin n 0 _ => .fin n 0 0
  | .fin true _ _ => .nan
  | .fin false m e => let r := rootOf m e; .fin false r.1 r.2

/-- R199: 1 / a. -/
def FpNum.rcp (a : FpNum) : FpNum := FpNum.div (.fin false 1 0) a

/-- R199: 1 / √a, with the special values of `frsq`. -/
def FpNum.rsq : FpNum → FpNum
  | .fin n 0 _ => .inf n
  | .fin true _ _ => .nan
  | .fin false m e =>
    -- 1/√(m·2^e) = √(2^(-e)/m), from a quotient of 600 bits
    let q := 2 ^ (600 + Nat.log2 m) / m
    let s : Nat := if 2 ^ (600 + Nat.log2 m) % m = 0 then 0 else 1
    let r := rootOf (2 * q + s) (-(600 + (Nat.log2 m : Int)) - 1 - e)
    .fin false r.1 r.2
  | .inf false => .fin false 0 0
  | .inf true => .nan
  | .nan => .nan

/-- Order of two values that are not NaN: is the first below the second? Zeros are equal (R196). -/
def FpNum.lt : FpNum → FpNum → Bool
  | .nan, _ => false
  | _, .nan => false
  | .inf a, .inf b => a && !b
  | .inf a, .fin _ _ _ => a
  | .fin _ _ _, .inf b => !b
  | .fin a m e, .fin b n f => let e0 := min e f; decide (alignTo e0 a m e < alignTo e0 b n f)

/-- Are two values that are not NaN equal (R196)? -/
def FpNum.eq (x y : FpNum) : Bool := !x.isNaN && !y.isNaN && !x.lt y && !y.lt x

/-- The integer that a rounding mode selects from a finite value (R198, R203). -/
def intOf (mode : Rnd) (neg : Bool) (m : Nat) (e : Int) : Int :=
  let v : Nat := if 0 ≤ e then m * 2 ^ e.toNat else shiftRound mode neg m (-e).toNat
  if neg then -(v : Int) else v

/-! ex8 blocks -/

/-- Bits `[hi:lo]` of a number. -/
def bitsOf (x hi lo : Nat) : Nat := x / 2 ^ lo % 2 ^ (hi + 1 - lo)

/-- R185, TAB 0: the difference that a code gives and the bits it takes, from the stream at a position. -/
def ex8Code (s : Nat) : Int × Nat :=
  if s % 2 = 0 then (0, 1)
  else if s / 2 % 2 = 0 then ((if s / 4 % 2 = 0 then 1 else -1), 3)
  else if s / 4 % 2 = 0 then ((if s / 8 % 2 = 0 then 2 else -2), 4)
  else (sextNat 5 (s / 8), 8)

/-- R185: the exponent fields of `n` elements from a stream, and the bits their codes take. -/
def ex8Exps (tab base : Nat) : Nat → Nat → List Int × Nat
  | 0, _ => ([], 0)
  | n + 1, s =>
    let c : Int × Nat := if tab = 0 then (let d := ex8Code s; ((base : Int) + d.1, d.2)) else (((s % 16 : Nat) : Int), 4)
    let r := ex8Exps tab base n (s / 2 ^ c.2)
    (c.1 :: r.1, c.2 + r.2)

/-- R184: the length field of a header. -/
def ex8Len (header : Nat) : Nat := header % 512

/-- R184: the words of a block with a given length. -/
def ex8Words (len : Nat) : Nat := (len + 31) / 32

/-- The elements whose sign and fraction stand in nibbles and whose exponents are listed, as e4m3 patterns. -/
def ex8Patterns (s : Nat) : Nat → List Int → List Nat
  | _, [] => []
  | i, x :: t =>
    let nib := bitsOf s (19 + 4 * i) (16 + 4 * i)
    (nib / 8 * 128 + x.toNat * 8 + nib % 8) :: ex8Patterns s (i + 1) t

/-- R183-R186: the 32 elements of a block as e4m3 patterns, from its stream as a number; none on a format error. -/
def ex8Decode (s : Nat) : Option (List Nat) :=
  let base := bitsOf s 15 12
  let tab := bitsOf s 11 9
  let len := bitsOf s 8 0
  let r := ex8Exps tab base 32 (s / 2 ^ 144)
  if tab ≥ 2 then none
  else if r.1.any (fun x => decide (x < 0) || decide (x > 15)) then none
  else if len ≠ 144 + r.2 then none
  else some (ex8Patterns s 0 r.1)

end Sys2Proof.Machine
end

