-- ==== Sys2Proof/WellFormed.lean ====
section
/-! DEFINITION. Which instructions are well formed as words: the MOD values, slots and numbers that R62, R63, R71, R72
and the instruction descriptions accept, and the even slot of a 64-bit live-out target (R65). -/

namespace Sys2Proof

/-- R65: a 64-bit live-out target names an even slot. -/
def Target.ok : Target → Bool
  | .pairLive s => s.toNat % 2 == 0
  | _ => true

/-- Every integer type (R160, column "all"). -/
def IntTy.all (_ : IntTy) : Bool := true
/-- The one-lane integer types (R160, R161, R162, R164). -/
def IntTy.scalar : IntTy → Bool
  | .i16x4 | .n16x4 => false
  | _ => true
/-- The signed integer types (R160, `abs`). -/
def IntTy.isSigned : IntTy → Bool
  | .i32 | .i64 | .i16x4 => true
  | _ => false

/-- R72, R158: the type is accepted, and a flag is set only where it is accepted. -/
def IntMod.ok (m : IntMod) (tys : IntTy → Bool) (sat invb z : Bool) : Bool :=
  tys m.ty && (sat || !m.sat) && (invb || !m.invb) && (z || !m.z)

/-- R163: index types i32 to n64 and scales 0 to 4. -/
def LeaMod.ok (m : LeaMod) : Bool := m.ty.scalar && decide (m.scale.toNat ≤ 4)

/-- Every floating-point type (R191, "all four"). -/
def FpTy.all (_ : FpTy) : Bool := true
/-- f32 and f64 (R191). -/
def FpTy.wide : FpTy → Bool
  | .f32 | .f64 => true
  | _ => false
/-- The types of the special functions (R191). -/
def FpTy.sfu : FpTy → Bool
  | .f64 => false
  | _ => true
/-- The packed types (R191, `fdot2`). -/
def FpTy.packed : FpTy → Bool
  | .f16x2 | .bf16x2 => true
  | _ => false

/-- R72, R191: the type is accepted, and a flag is set only where it is accepted. -/
def FpMod.ok (m : FpMod) (tys : FpTy → Bool) (ftzi ftzo negb : Bool) : Bool :=
  tys m.ty && (ftzi || !m.ftzi) && (ftzo || !m.ftzo) && (negb || !m.negb)

/-- Is the conversion format an integer format (R202)? -/
def CvtFmt.isInt : CvtFmt → Bool
  | .i32 | .n32 | .i64 | .n64 => true
  | _ => false

/-- R202: a conversion from a floating-point format accepts every destination and rounding. -/
def CvtMod.okFloat (_ : CvtMod) : Bool := true
/-- R202: from an integer format to an integer format the rounding field is 00. -/
def CvtMod.okInt (m : CvtMod) : Bool := !m.dest.isInt || decide (m.rnd = .rne)
/-- R204: the destinations of `cvt.pk`. -/
def CvtMod.okPk (m : CvtMod) : Bool :=
  match m.dest with
  | .f16 | .bf16 | .e4m3 | .e5m2 => true
  | _ => false
/-- R205: the destinations of `cvt.ch`. -/
def CvtMod.okCh (m : CvtMod) : Bool :=
  match m.dest with
  | .f64 | .f32 | .f16 | .bf16 => true
  | _ => false

/-- b8 to b128 (R226, R228). -/
def Size.any (_ : Size) : Bool := true
/-- b8 to b64 (R227). -/
def Size.upTo64 : Size → Bool
  | .b128 => false
  | _ => true
/-- b32 and b64 (R267). -/
def Size.word : Size → Bool
  | .b32 | .b64 => true
  | _ => false
/-- b32, b64 and b128 (R267, `acas`). -/
def Size.casOk : Size → Bool
  | .b32 | .b64 | .b128 => true
  | _ => false
/-- b32 (R267, `afadd2`). -/
def Size.only32 : Size → Bool
  | .b32 => true
  | _ => false

/-- R63: any slot. -/
def slotAny (_ : BitVec 6) : Bool := true
/-- R63: an even slot. -/
def slotEven (s : BitVec 6) : Bool := s.toNat % 2 == 0
/-- R63, R64: an `id` selector, 0 to 10. -/
def slotSelector (s : BitVec 6) : Bool := decide (s.toNat ≤ 10)
/-- R63, R421: an assigned system-register index, 0 to 24. -/
def slotSysreg (s : BitVec 6) : Bool := decide (s.toNat ≤ 24)
/-- R62: a stage barrier, 0 or 1. -/
def stageNumOk (n : BitVec 4) : Bool := decide (n.toNat ≤ 1)
/-- R282: `bar.arrive` and `bar.drop` name a named or a stage barrier. -/
def BarRef.okArrive : BarRef → Bool
  | .rope => false
  | _ => true
/-- R282: `bar.init` also names the rope barrier. -/
def BarRef.okInit (_ : BarRef) : Bool := true

/-- The instruction is a machine step and has no word. -/
def Instr.isStep : Instr → Bool
  | .takeRecord => true
  | .launchStart => true
  | .queueEnable => true
  | .queueDisable => true
  | .placeUnit => true
  | .timeSliceExpiry => true
  | .migrateGroup => true
  | .dieModeChangeDone => true
  | .binHeaderReturn => true
  | .configStart => true
  | .configComplete => true
  | .admitThread => true
  | .forcedClosure => true
  | .binSeal => true
  | .quiescenceSet => true
  | .walkComplete => true
  | .squashedEnd => true
  | .loadReturn => true
  | .deferredFill => true
  | .sfuReturn => true
  | .atomicTilePerform => true
  | .atomicReturn => true
  | .eretRecordReturn => true
  | .blockCommit => true
  | .liveWritePerform => true
  | .storeSend => true
  | .storeAcknowledge => true
  | .threadRetire => true
  | .groupRetire => true
  | .gridRetire => true
  | .barrierTimeout => true
  | .ropePhaseComplete => true
  | .channelWaitTimeout => true
  | .enginePortAccept => true
  | .copyRunIssue => true
  | .copyRunPerformed => true
  | .matrixStep => true
  | .mmaComplete => true
  | .maccComplete => true
  | .gangRoundComplete => true
  | .latchTimeout => true
  | .temporalCommandStart => true
  | .temporalCommandComplete => true
  | .tlaunchAttemptEnd => true
  | .tickReplan => true
  | .temporalArrayReset => true
  | .commitEngineStart => true
  | .lineLockGranted => true
  | .serialTokenGrant => true
  | .heapOperationApply => true
  | .heapReply => true
  | .heapPop => true
  | .taskThreadCreate => true
  | .heapLend => true
  | .residInclusion => true
  | .heapTolEffect => true
  | .settlePopStop => true
  | .heapDrain => true
  | .drainComplete => true
  | .faultRecordPerformed => true
  | .replayCommand => true
  | .nextCommand => true
  | .killCommand => true
  | .resumeCommand => true
  | .tlbInvalidate => true
  | .tlbInvalidateDone => true
  | .saveStart => true
  | .scratchSavePass => true
  | .saveComplete => true
  | .groupRestore => true
  | .preemptLimitExpiry => true
  | .groupDiscard => true
  | .debugHalt => true
  | .cfginvPerform => true
  | .directoryTransaction => true
  | .probeAnswer => true
  | .granuleFlush => true
  | .granuleReclassify => true
  | .hostSnoop => true
  | .linkFail => true
  | .peerTimeout => true
  | .heartbeatMiss => true
  | .agentDead => true
  | .lateMessage => true
  | .ioDieFailover => true
  | .moduleReset => true
  | .bringUp => true
  | .traceAccept => true
  | .samplerWrite => true
  | .sampleTake => true
  | .energyUpdate => true
  | .voltageReplan => true
  | .thermalHoldStart => true
  | .thermalHoldEnd => true
  | .thermalShutdown => true
  | .tscCorrection => true
  | .attestationQuote => true
  | .counterClear => true
  | .mgmtRegisterWrite => true
  | .pipelinedOperationEmit => true
  | .dieTlbHit => true
  | .completionTimeout => true
  | .agentBroughtBackUp => true
  | _ => false

/-- The instruction is well formed as a word of a block. A machine step has no word and no condition. -/
def Instr.wf : Instr → Bool
  | .read s t1 t0 => slotAny s && t1.ok && t0.ok
  | .readD s t1 t0 => slotEven s && t1.ok && t0.ok
  | .lit s t1 t0 => slotAny s && t1.ok && t0.ok
  | .litD s t1 t0 => slotAny s && t1.ok && t0.ok
  | .const _ t0 => t0.ok
  | .mov _ t1 t0 => t1.ok && t0.ok
  | .gate _ t1 t0 => t1.ok && t0.ok
  | .gaten _ t1 t0 => t1.ok && t0.ok
  | .sel _ t1 t0 => t1.ok && t0.ok
  | .pick _ t1 t0 => t1.ok && t0.ok
  | .pair t1 t0 => t1.ok && t0.ok
  | .split t1 t0 => t1.ok && t0.ok
  | .sink _ => true
  | .isnull _ t1 t0 => t1.ok && t0.ok
  | .id s t1 t0 => slotSelector s && t1.ok && t0.ok
  | .br _ => true
  | .brc _ => true
  | .brcn _ => true
  | .brx => true
  | .call _ => true
  | .callc _ => true
  | .callx => true
  | .ret => true
  | .exit => true
  | .exitc => true
  | .add m t1 t0 => m.ok IntTy.all true true true && t1.ok && t0.ok
  | .sub m t1 t0 => m.ok IntTy.all true true true && t1.ok && t0.ok
  | .addi _ t0 => t0.ok
  | .mul m t1 t0 => m.ok IntTy.all true false false && t1.ok && t0.ok
  | .mulhi m t1 t0 => m.ok IntTy.all false false false && t1.ok && t0.ok
  | .mulw m t1 t0 => m.ok IntTy.scalar false false false && t1.ok && t0.ok
  | .mad m t1 t0 => m.ok IntTy.all true false false && t1.ok && t0.ok
  | .div m t1 t0 => m.ok IntTy.scalar true false false && t1.ok && t0.ok
  | .rem m t1 t0 => m.ok IntTy.scalar false false false && t1.ok && t0.ok
  | .min m t1 t0 => m.ok IntTy.all false false false && t1.ok && t0.ok
  | .max m t1 t0 => m.ok IntTy.all false false false && t1.ok && t0.ok
  | .abs m t1 t0 => m.ok IntTy.isSigned true false false && t1.ok && t0.ok
  | .neg m t1 t0 => m.ok IntTy.all true false false && t1.ok && t0.ok
  | .and m t1 t0 => m.ok IntTy.all false true true && t1.ok && t0.ok
  | .or m t1 t0 => m.ok IntTy.all false true true && t1.ok && t0.ok
  | .xor m t1 t0 => m.ok IntTy.all false true true && t1.ok && t0.ok
  | .andn m t1 t0 => m.ok IntTy.all false false true && t1.ok && t0.ok
  | .not m t1 t0 => m.ok IntTy.all false false false && t1.ok && t0.ok
  | .shl m t1 t0 => m.ok IntTy.all true false false && t1.ok && t0.ok
  | .shr m t1 t0 => m.ok IntTy.all false false false && t1.ok && t0.ok
  | .sar m t1 t0 => m.ok IntTy.all false false false && t1.ok && t0.ok
  | .rotl m t1 t0 => m.ok IntTy.all false false false && t1.ok && t0.ok
  | .rotr m t1 t0 => m.ok IntTy.all false false false && t1.ok && t0.ok
  | .clz m t1 t0 => m.ok IntTy.all false false false && t1.ok && t0.ok
  | .ctz m t1 t0 => m.ok IntTy.all false false false && t1.ok && t0.ok
  | .popc m t1 t0 => m.ok IntTy.all false false false && t1.ok && t0.ok
  | .brev m t1 t0 => m.ok IntTy.all false false false && t1.ok && t0.ok
  | .bswap m t1 t0 => m.ok IntTy.all false false false && t1.ok && t0.ok
  | .bfx m t1 t0 => m.ok IntTy.scalar false false false && t1.ok && t0.ok
  | .bfi m t1 t0 => m.ok IntTy.scalar false false false && t1.ok && t0.ok
  | .lea m t1 t0 => m.ok && t1.ok && t0.ok
  | .absdiff m t1 t0 => m.ok IntTy.all false false false && t1.ok && t0.ok
  | .setpEq m t1 t0 => m.ok IntTy.scalar false false true && t1.ok && t0.ok
  | .setpNe m t1 t0 => m.ok IntTy.scalar false false true && t1.ok && t0.ok
  | .setpLt m t1 t0 => m.ok IntTy.scalar false false true && t1.ok && t0.ok
  | .setpLe m t1 t0 => m.ok IntTy.scalar false false true && t1.ok && t0.ok
  | .setpGt m t1 t0 => m.ok IntTy.scalar false false true && t1.ok && t0.ok
  | .setpGe m t1 t0 => m.ok IntTy.scalar false false true && t1.ok && t0.ok
  | .pand t1 t0 => t1.ok && t0.ok
  | .por t1 t0 => t1.ok && t0.ok
  | .pxor t1 t0 => t1.ok && t0.ok
  | .pnot t1 t0 => t1.ok && t0.ok
  | .andi _ t0 => t0.ok
  | .shli _ t0 => t0.ok
  | .shri _ t0 => t0.ok
  | .muli _ t0 => t0.ok
  | .setpiEq _ t0 => t0.ok
  | .setpiLt _ t0 => t0.ok
  | .fadd m t1 t0 => m.ok FpTy.all true true true && t1.ok && t0.ok
  | .fmul m t1 t0 => m.ok FpTy.all true true true && t1.ok && t0.ok
  | .ffma m t1 t0 => m.ok FpTy.all true true true && t1.ok && t0.ok
  | .fmin m t1 t0 => m.ok FpTy.all true false true && t1.ok && t0.ok
  | .fmax m t1 t0 => m.ok FpTy.all true false true && t1.ok && t0.ok
  | .fabs m t1 t0 => m.ok FpTy.all false false false && t1.ok && t0.ok
  | .fneg m t1 t0 => m.ok FpTy.all false false false && t1.ok && t0.ok
  | .fcopysign m t1 t0 => m.ok FpTy.all false false true && t1.ok && t0.ok
  | .fsetpEq m t1 t0 => m.ok FpTy.wide true false true && t1.ok && t0.ok
  | .fsetpNe m t1 t0 => m.ok FpTy.wide true false true && t1.ok && t0.ok
  | .fsetpLt m t1 t0 => m.ok FpTy.wide true false true && t1.ok && t0.ok
  | .fsetpLe m t1 t0 => m.ok FpTy.wide true false true && t1.ok && t0.ok
  | .fsetpUn m t1 t0 => m.ok FpTy.wide true false true && t1.ok && t0.ok
  | .fclass m t1 t0 => m.ok FpTy.all true false false && t1.ok && t0.ok
  | .fdiv m t1 t0 => m.ok FpTy.wide true true true && t1.ok && t0.ok
  | .fsqrt m t1 t0 => m.ok FpTy.wide true true false && t1.ok && t0.ok
  | .frcp m t1 t0 => m.ok FpTy.sfu true true false && t1.ok && t0.ok
  | .frsq m t1 t0 => m.ok FpTy.sfu true true false && t1.ok && t0.ok
  | .fex2 m t1 t0 => m.ok FpTy.sfu true true false && t1.ok && t0.ok
  | .flg2 m t1 t0 => m.ok FpTy.sfu true true false && t1.ok && t0.ok
  | .fsin m t1 t0 => m.ok FpTy.sfu true true false && t1.ok && t0.ok
  | .fcos m t1 t0 => m.ok FpTy.sfu true true false && t1.ok && t0.ok
  | .ftanh m t1 t0 => m.ok FpTy.sfu true true false && t1.ok && t0.ok
  | .fround _ t1 t0 => t1.ok && t0.ok
  | .fdot2 m t1 t0 => m.ok FpTy.packed true true true && t1.ok && t0.ok
  | .cvtF64 m t1 t0 => CvtMod.okFloat m && t1.ok && t0.ok
  | .cvtF32 m t1 t0 => CvtMod.okFloat m && t1.ok && t0.ok
  | .cvtF16 m t1 t0 => CvtMod.okFloat m && t1.ok && t0.ok
  | .cvtBf16 m t1 t0 => CvtMod.okFloat m && t1.ok && t0.ok
  | .cvtE4m3 m t1 t0 => CvtMod.okFloat m && t1.ok && t0.ok
  | .cvtE5m2 m t1 t0 => CvtMod.okFloat m && t1.ok && t0.ok
  | .cvtI32 m t1 t0 => CvtMod.okInt m && t1.ok && t0.ok
  | .cvtN32 m t1 t0 => CvtMod.okInt m && t1.ok && t0.ok
  | .cvtI64 m t1 t0 => CvtMod.okInt m && t1.ok && t0.ok
  | .cvtN64 m t1 t0 => CvtMod.okInt m && t1.ok && t0.ok
  | .cvtPk m t1 t0 => CvtMod.okPk m && t1.ok && t0.ok
  | .cvtCh m t1 t0 => CvtMod.okCh m && t1.ok && t0.ok
  | .ld z t1 t0 => Size.any z && t1.ok && t0.ok
  | .lds z t1 t0 => Size.any z && t1.ok && t0.ok
  | .ldAcq z _ t1 t0 => Size.any z && t1.ok && t0.ok
  | .ldd z t1 t0 => Size.upTo64 z && t1.ok && t0.ok
  | .ldnc z t1 t0 => Size.any z && t1.ok && t0.ok
  | .st z t1 => Size.any z && t1.ok
  | .stRel z _ t1 => Size.any z && t1.ok
  | .stnc z t1 => Size.any z && t1.ok
  | .prefetch _ t1 => t1.ok
  | .fence _ _ t1 => t1.ok
  | .fenceEng t1 => t1.ok
  | .cinv t1 => t1.ok
  | .cwb t1 => t1.ok
  | .probe t1 t0 => t1.ok && t0.ok
  | .aadd z t1 t0 => Size.word z && t1.ok && t0.ok
  | .aaddAr z _ t1 t0 => Size.word z && t1.ok && t0.ok
  | .amin z t1 t0 => Size.word z && t1.ok && t0.ok
  | .aminAr z _ t1 t0 => Size.word z && t1.ok && t0.ok
  | .amax z t1 t0 => Size.word z && t1.ok && t0.ok
  | .amaxAr z _ t1 t0 => Size.word z && t1.ok && t0.ok
  | .aminn z t1 t0 => Size.word z && t1.ok && t0.ok
  | .amaxn z t1 t0 => Size.word z && t1.ok && t0.ok
  | .aand z t1 t0 => Size.word z && t1.ok && t0.ok
  | .aandAr z _ t1 t0 => Size.word z && t1.ok && t0.ok
  | .aor z t1 t0 => Size.word z && t1.ok && t0.ok
  | .aorAr z _ t1 t0 => Size.word z && t1.ok && t0.ok
  | .axor z t1 t0 => Size.word z && t1.ok && t0.ok
  | .axorAr z _ t1 t0 => Size.word z && t1.ok && t0.ok
  | .axchg z t1 t0 => Size.word z && t1.ok && t0.ok
  | .axchgAr z _ t1 t0 => Size.word z && t1.ok && t0.ok
  | .acas z t1 t0 => Size.casOk z && t1.ok && t0.ok
  | .acasAr z _ t1 t0 => Size.casOk z && t1.ok && t0.ok
  | .ainc z t1 t0 => Size.word z && t1.ok && t0.ok
  | .adec z t1 t0 => Size.word z && t1.ok && t0.ok
  | .aaddb z t1 t0 => Size.word z && t1.ok && t0.ok
  | .aaddbAr z _ t1 t0 => Size.word z && t1.ok && t0.ok
  | .afadd z t1 t0 => Size.word z && t1.ok && t0.ok
  | .afadd2 z t1 t0 => Size.only32 z && t1.ok && t0.ok
  | .afmin z t1 t0 => Size.word z && t1.ok && t0.ok
  | .afmax z t1 t0 => Size.word z && t1.ok && t0.ok
  | .aredAdd z t1 => Size.word z && t1.ok
  | .aredFadd z t1 => Size.word z && t1.ok
  | .aredMin z t1 => Size.word z && t1.ok
  | .aredMax z t1 => Size.word z && t1.ok
  | .aredOr z t1 => Size.word z && t1.ok
  | .aredAnd z t1 => Size.word z && t1.ok
  | .barWait _ _ => true
  | .barArrive b t1 => BarRef.okArrive b && t1.ok
  | .barDrop b t1 => BarRef.okArrive b && t1.ok
  | .barInit b t1 t0 => BarRef.okInit b && t1.ok && t0.ok
  | .stgExpect _ _ t1 => t1.ok
  | .stgWait num _ => stageNumOk num
  | .waitp _ _ => true
  | .ropeWait _ => true
  | .cpy _ t1 t0 => t1.ok && t0.ok
  | .cpyColl _ t1 t0 => t1.ok && t0.ok
  | .cwptr _ _ t1 t0 => t1.ok && t0.ok
  | .cchan _ t1 t0 => t1.ok && t0.ok
  | .mma t1 => t1.ok
  | .maccLd _ t1 => t1.ok
  | .maccSt _ t1 => t1.ok
  | .mgang t1 t0 => t1.ok && t0.ok
  | .mchan t1 t0 => t1.ok && t0.ok
  | .twin t1 => t1.ok
  | .tload _ t1 => t1.ok
  | .tlaunch _ t1 => t1.ok
  | .tcap t1 => t1.ok
  | .trst t1 => t1.ok
  | .tcode t1 t0 => t1.ok && t0.ok
  | .tval t1 t0 => t1.ok && t0.ok
  | .abegin _ => true
  | .acommit _ => true
  | .aabort t1 => t1.ok
  | .astat t1 t0 => t1.ok && t0.ok
  | .apin t1 t0 => t1.ok && t0.ok
  | .hspawn t1 t0 => t1.ok && t0.ok
  | .hgainAdd t1 t0 => t1.ok && t0.ok
  | .hgainMax t1 t0 => t1.ok && t0.ok
  | .hgainSet t1 t0 => t1.ok && t0.ok
  | .hdep t1 t0 => t1.ok && t0.ok
  | .hdone => true
  | .hresid t1 t0 => t1.ok && t0.ok
  | .hself t1 t0 => t1.ok && t0.ok
  | .trap _ => true
  | .brk _ => true
  | .eret _ => true
  | .sysrd s t1 t0 => slotSysreg s && t1.ok && t0.ok
  | .syswr s t1 => slotSysreg s && t1.ok
  | .cfginv t1 => t1.ok
  | .cairn _ t0 => t0.ok
  | .tsc t1 t0 => t1.ok && t0.ok
  | .nop => true
  | .halt => true
  | .takeRecord => true
  | .launchStart => true
  | .queueEnable => true
  | .queueDisable => true
  | .placeUnit => true
  | .timeSliceExpiry => true
  | .migrateGroup => true
  | .dieModeChangeDone => true
  | .binHeaderReturn => true
  | .configStart => true
  | .configComplete => true
  | .admitThread => true
  | .forcedClosure => true
  | .binSeal => true
  | .quiescenceSet => true
  | .walkComplete => true
  | .squashedEnd => true
  | .loadReturn => true
  | .deferredFill => true
  | .sfuReturn => true
  | .atomicTilePerform => true
  | .atomicReturn => true
  | .eretRecordReturn => true
  | .blockCommit => true
  | .liveWritePerform => true
  | .storeSend => true
  | .storeAcknowledge => true
  | .threadRetire => true
  | .groupRetire => true
  | .gridRetire => true
  | .barrierTimeout => true
  | .ropePhaseComplete => true
  | .channelWaitTimeout => true
  | .enginePortAccept => true
  | .copyRunIssue => true
  | .copyRunPerformed => true
  | .matrixStep => true
  | .mmaComplete => true
  | .maccComplete => true
  | .gangRoundComplete => true
  | .latchTimeout => true
  | .temporalCommandStart => true
  | .temporalCommandComplete => true
  | .tlaunchAttemptEnd => true
  | .tickReplan => true
  | .temporalArrayReset => true
  | .commitEngineStart => true
  | .lineLockGranted => true
  | .serialTokenGrant => true
  | .heapOperationApply => true
  | .heapReply => true
  | .heapPop => true
  | .taskThreadCreate => true
  | .heapLend => true
  | .residInclusion => true
  | .heapTolEffect => true
  | .settlePopStop => true
  | .heapDrain => true
  | .drainComplete => true
  | .faultRecordPerformed => true
  | .replayCommand => true
  | .nextCommand => true
  | .killCommand => true
  | .resumeCommand => true
  | .tlbInvalidate => true
  | .tlbInvalidateDone => true
  | .saveStart => true
  | .scratchSavePass => true
  | .saveComplete => true
  | .groupRestore => true
  | .preemptLimitExpiry => true
  | .groupDiscard => true
  | .debugHalt => true
  | .cfginvPerform => true
  | .directoryTransaction => true
  | .probeAnswer => true
  | .granuleFlush => true
  | .granuleReclassify => true
  | .hostSnoop => true
  | .linkFail => true
  | .peerTimeout => true
  | .heartbeatMiss => true
  | .agentDead => true
  | .lateMessage => true
  | .ioDieFailover => true
  | .moduleReset => true
  | .bringUp => true
  | .traceAccept => true
  | .samplerWrite => true
  | .sampleTake => true
  | .energyUpdate => true
  | .voltageReplan => true
  | .thermalHoldStart => true
  | .thermalHoldEnd => true
  | .thermalShutdown => true
  | .tscCorrection => true
  | .attestationQuote => true
  | .counterClear => true
  | .mgmtRegisterWrite => true
  | .pipelinedOperationEmit => true
  | .dieTlbHit => true
  | .completionTimeout => true
  | .agentBroughtBackUp => true

end Sys2Proof
end

