-- ==== Sys2Proof/Decode.lean ====
section
/-! DEFINITION. The decoder of an instruction word, total on 32-bit words and rejecting by check code (chapter 3: R60-R66,
R71-R76), and after it the encoder, written from the same tables. Codes 0x06, 0x09, 0x0a and those of pass 2 need the
block around the word and stand in Sys2Proof/Machine/Block.lean. -/

namespace Sys2Proof

/-- The per-word check codes of R76 that one word decides by itself. -/
inductive WordCheck where
  /-- 0x02: opcode unassigned, other than 0xff. -/
  | unassigned
  /-- 0x03: opcode 0xff. -/
  | opcodeFF
  /-- 0x04: MOD value not accepted. -/
  | badMod
  /-- 0x05: SLOT or B20 number out of range. -/
  | badSlot
  /-- 0x07: target malformed. -/
  | badTarget
  /-- 0x08: a target field that must be zero is not. -/
  | targetNotZero
deriving DecidableEq, Repr

/-- The code of R76. -/
def WordCheck.code : WordCheck → Nat
  | .unassigned => 2
  | .opcodeFF => 3
  | .badMod => 4
  | .badSlot => 5
  | .badTarget => 7
  | .targetNotZero => 8

/-- What the decoder answers. -/
abbrev Dec := Except WordCheck Instr

/-! The fields of a word (R60), as numbers. -/

/-- [31:24]. -/
def fOp (w : Nat) : Nat := w / 2 ^ 24 % 256
/-- MOD or SLOT, [23:18]. -/
def fMod (w : Nat) : Nat := w / 2 ^ 18 % 64
/-- T1, [17:9]. -/
def fT1 (w : Nat) : Nat := w / 2 ^ 9 % 512
/-- T0, [8:0]. -/
def fT0 (w : Nat) : Nat := w % 512
/-- IMM15, [23:9]. -/
def fImm (w : Nat) : Nat := w / 2 ^ 9 % 2 ^ 15
/-- The offset of format B24. -/
def fOff24 (w : Nat) : Nat := w % 2 ^ 24
/-- The offset of format B20. -/
def fOff20 (w : Nat) : Nat := w % 2 ^ 20
/-- The number of format B20, [23:20]. -/
def fNum (w : Nat) : Nat := w / 2 ^ 20 % 16

/-- R65: a 9-bit target. -/
def targetOf (n : Nat) : Option Target :=
  match n / 64 with
  | 0 => if n = 0 then some .none else none
  | 1 => none
  | 2 => some (.port .a (BitVec.ofNat 6 n))
  | 4 => some (.port .b (BitVec.ofNat 6 n))
  | 6 => some (.port .c (BitVec.ofNat 6 n))
  | 3 => some (.live (BitVec.ofNat 6 n))
  | 5 => if n % 2 = 0 then some (.pairLive (BitVec.ofNat 6 n)) else none
  | _ => none

/-- R71, R156. -/
def intTyOf : Nat → Option IntTy
  | 0 => some .i32 | 1 => some .n32 | 2 => some .i64 | 3 => some .n64 | 4 => some .i16x4 | 5 => some .n16x4
  | _ => none
/-- R71. -/
def fpTyOf : Nat → Option FpTy
  | 0 => some .f32 | 1 => some .f64 | 2 => some .f16x2 | 3 => some .bf16x2
  | _ => none
/-- R71, R198. -/
def rndOf : Nat → Rnd
  | 0 => .rne | 1 => .rtz | 2 => .rup | _ => .rdn
/-- R71. -/
def cvtFmtOf : Nat → Option CvtFmt
  | 0 => some .f64 | 1 => some .f32 | 2 => some .f16 | 3 => some .bf16 | 4 => some .e4m3 | 5 => some .e5m2
  | 6 => some .i32 | 7 => some .n32 | 8 => some .i64 | 9 => some .n64
  | _ => none
/-- R71. -/
def sizeOf' : Nat → Option Size
  | 0 => some .b8 | 1 => some .b16 | 2 => some .b32 | 3 => some .b64 | 4 => some .b128
  | _ => none
/-- R71; a scope of none answers nothing here. -/
def scopeOf : Nat → Option Scope
  | 1 => some .group | 2 => some .cluster | 3 => some .device | 4 => some .system
  | _ => none
/-- R230. -/
def fenceKindOf : Nat → Option FenceKind
  | 0 => some .acq | 1 => some .rel | 2 => some .ar | 3 => some .sc
  | _ => none
/-- R71: the integer MOD field. -/
def intModOf (n : Nat) : Option IntMod :=
  (intTyOf (n / 8)).map fun t => ⟨t, n / 4 % 2 == 1, n / 2 % 2 == 1, n % 2 == 1⟩
/-- R163. -/
def leaModOf (n : Nat) : Option LeaMod :=
  (intTyOf (n / 8)).map fun t => ⟨t, BitVec.ofNat 3 n⟩
/-- R71: the floating-point MOD field. -/
def fpModOf (n : Nat) : Option FpMod :=
  (fpTyOf (n / 8)).map fun t => ⟨t, n / 4 % 2 == 1, n / 2 % 2 == 1, n % 2 == 1⟩
/-- R198. -/
def froundModOf (n : Nat) : Option FroundMod :=
  (fpTyOf (n / 8)).map fun t => ⟨t, n / 4 % 2 == 1, rndOf (n % 4)⟩
/-- R71: the conversion MOD field. -/
def cvtModOf (n : Nat) : Option CvtMod :=
  (cvtFmtOf (n / 4)).map fun t => ⟨t, rndOf (n % 4)⟩
/-- R282: the barrier of `bar.arrive`, `bar.drop` and `bar.init`, from the MOD field. -/
def barRefOf (n : Nat) : Option BarRef :=
  match n / 16 with
  | 0 => some (.named (BitVec.ofNat 4 n))
  | 1 => if n % 16 ≤ 1 then some (.stage (BitVec.ofNat 1 n)) else if n % 16 = 15 then some .rope else none
  | _ => none

/-! Target fields, in the order of R76: malformed before not zero. -/

/-- Both targets are used. -/
def targets2 (w : Nat) (k : Target → Target → Instr) : Dec :=
  match targetOf (fT1 w), targetOf (fT0 w) with
  | some t1, some t0 => .ok (k t1 t0)
  | _, _ => .error .badTarget
/-- T0 must be zero. -/
def targets1 (w : Nat) (k : Target → Instr) : Dec :=
  match targetOf (fT1 w), targetOf (fT0 w) with
  | some t1, some t0 => if t0 = .none then .ok (k t1) else .error .targetNotZero
  | _, _ => .error .badTarget
/-- T0 only (format I). -/
def targets0 (w : Nat) (k : Target → Instr) : Dec :=
  match targetOf (fT0 w) with
  | some t0 => .ok (k t0)
  | none => .error .badTarget
/-- Both must be zero. -/
def noTargets (w : Nat) (i : Instr) : Dec :=
  match targetOf (fT1 w), targetOf (fT0 w) with
  | some t1, some t0 => if t1 = .none ∧ t0 = .none then .ok i else .error .targetNotZero
  | _, _ => .error .badTarget
/-- T0 must be zero, and there is no T1 (format I). -/
def noTarget0 (w : Nat) (i : Instr) : Dec :=
  match targetOf (fT0 w) with
  | some t0 => if t0 = .none then .ok i else .error .targetNotZero
  | none => .error .badTarget
/-- A MOD value that is read, or check 0x04. -/
def withMod {α : Type} (v : Option α) (okv : α → Bool) (k : α → Dec) : Dec :=
  match v with
  | some m => if okv m then k m else .error .badMod
  | none => .error .badMod
/-- MOD bits that must be zero. -/
def zeroMod (n : Nat) (k : Dec) : Dec := if n = 0 then k else .error .badMod
/-- A SLOT or number in range, or check 0x05. -/
def withSlot (c : Bool) (k : Dec) : Dec := if c then k else .error .badSlot

/-- The decoder, by opcode (R73). -/
def decodeOp (w : Nat) : Nat → Dec
  | 0x01 => withSlot (slotAny (BitVec.ofNat 6 (fMod w))) (targets2 w (Instr.read (BitVec.ofNat 6 (fMod w))))
  | 0x02 => withSlot (slotEven (BitVec.ofNat 6 (fMod w))) (targets2 w (Instr.readD (BitVec.ofNat 6 (fMod w))))
  | 0x03 => withSlot (slotAny (BitVec.ofNat 6 (fMod w))) (targets2 w (Instr.lit (BitVec.ofNat 6 (fMod w))))
  | 0x04 => withSlot (slotAny (BitVec.ofNat 6 (fMod w))) (targets2 w (Instr.litD (BitVec.ofNat 6 (fMod w))))
  | 0x05 => targets0 w (Instr.const (BitVec.ofNat 15 (fImm w)))
  | 0x06 => zeroMod (fMod w % 32) (targets2 w (Instr.mov (fMod w / 32 == 1)))
  | 0x07 => zeroMod (fMod w % 32) (targets2 w (Instr.gate (fMod w / 32 == 1)))
  | 0x08 => zeroMod (fMod w % 32) (targets2 w (Instr.gaten (fMod w / 32 == 1)))
  | 0x09 => zeroMod (fMod w % 32) (targets2 w (Instr.sel (fMod w / 32 == 1)))
  | 0x0a => zeroMod (fMod w % 32) (targets2 w (Instr.pick (fMod w / 32 == 1)))
  | 0x0b => zeroMod (fMod w) (targets2 w Instr.pair)
  | 0x0c => zeroMod (fMod w) (targets2 w Instr.split)
  | 0x0d => zeroMod (fMod w % 32) (noTargets w (Instr.sink (fMod w / 32 == 1)))
  | 0x0e => zeroMod (fMod w % 32) (targets2 w (Instr.isnull (fMod w / 32 == 1)))
  | 0x0f => withSlot (slotSelector (BitVec.ofNat 6 (fMod w))) (targets2 w (Instr.id (BitVec.ofNat 6 (fMod w))))
  | 0x10 => .ok (Instr.br (BitVec.ofNat 24 (fOff24 w)))
  | 0x11 => .ok (Instr.brc (BitVec.ofNat 24 (fOff24 w)))
  | 0x12 => .ok (Instr.brcn (BitVec.ofNat 24 (fOff24 w)))
  | 0x13 => zeroMod (fMod w) (noTargets w Instr.brx)
  | 0x14 => .ok (Instr.call (BitVec.ofNat 24 (fOff24 w)))
  | 0x15 => .ok (Instr.callc (BitVec.ofNat 24 (fOff24 w)))
  | 0x16 => zeroMod (fMod w) (noTargets w Instr.callx)
  | 0x17 => zeroMod (fMod w) (noTargets w Instr.ret)
  | 0x18 => zeroMod (fMod w) (noTargets w Instr.exit)
  | 0x19 => zeroMod (fMod w) (noTargets w Instr.exitc)
  | 0x20 => withMod (intModOf (fMod w)) (fun m => m.ok IntTy.all true true true) fun m => targets2 w (Instr.add m)
  | 0x21 => withMod (intModOf (fMod w)) (fun m => m.ok IntTy.all true true true) fun m => targets2 w (Instr.sub m)
  | 0x22 => targets0 w (Instr.addi (BitVec.ofNat 15 (fImm w)))
  | 0x23 => withMod (intModOf (fMod w)) (fun m => m.ok IntTy.all true false false) fun m => targets2 w (Instr.mul m)
  | 0x24 => withMod (intModOf (fMod w)) (fun m => m.ok IntTy.all false false false) fun m => targets2 w (Instr.mulhi m)
  | 0x25 => withMod (intModOf (fMod w)) (fun m => m.ok IntTy.scalar false false false) fun m => targets2 w (Instr.mulw m)
  | 0x26 => withMod (intModOf (fMod w)) (fun m => m.ok IntTy.all true false false) fun m => targets2 w (Instr.mad m)
  | 0x27 => withMod (intModOf (fMod w)) (fun m => m.ok IntTy.scalar true false false) fun m => targets2 w (Instr.div m)
  | 0x28 => withMod (intModOf (fMod w)) (fun m => m.ok IntTy.scalar false false false) fun m => targets2 w (Instr.rem m)
  | 0x29 => withMod (intModOf (fMod w)) (fun m => m.ok IntTy.all false false false) fun m => targets2 w (Instr.min m)
  | 0x2a => withMod (intModOf (fMod w)) (fun m => m.ok IntTy.all false false false) fun m => targets2 w (Instr.max m)
  | 0x2b => withMod (intModOf (fMod w)) (fun m => m.ok IntTy.isSigned true false false) fun m => targets2 w (Instr.abs m)
  | 0x2c => withMod (intModOf (fMod w)) (fun m => m.ok IntTy.all true false false) fun m => targets2 w (Instr.neg m)
  | 0x2d => withMod (intModOf (fMod w)) (fun m => m.ok IntTy.all false true true) fun m => targets2 w (Instr.and m)
  | 0x2e => withMod (intModOf (fMod w)) (fun m => m.ok IntTy.all false true true) fun m => targets2 w (Instr.or m)
  | 0x2f => withMod (intModOf (fMod w)) (fun m => m.ok IntTy.all false true true) fun m => targets2 w (Instr.xor m)
  | 0x30 => withMod (intModOf (fMod w)) (fun m => m.ok IntTy.all false false true) fun m => targets2 w (Instr.andn m)
  | 0x31 => withMod (intModOf (fMod w)) (fun m => m.ok IntTy.all false false false) fun m => targets2 w (Instr.not m)
  | 0x32 => withMod (intModOf (fMod w)) (fun m => m.ok IntTy.all true false false) fun m => targets2 w (Instr.shl m)
  | 0x33 => withMod (intModOf (fMod w)) (fun m => m.ok IntTy.all false false false) fun m => targets2 w (Instr.shr m)
  | 0x34 => withMod (intModOf (fMod w)) (fun m => m.ok IntTy.all false false false) fun m => targets2 w (Instr.sar m)
  | 0x35 => withMod (intModOf (fMod w)) (fun m => m.ok IntTy.all false false false) fun m => targets2 w (Instr.rotl m)
  | 0x36 => withMod (intModOf (fMod w)) (fun m => m.ok IntTy.all false false false) fun m => targets2 w (Instr.rotr m)
  | 0x37 => withMod (intModOf (fMod w)) (fun m => m.ok IntTy.all false false false) fun m => targets2 w (Instr.clz m)
  | 0x38 => withMod (intModOf (fMod w)) (fun m => m.ok IntTy.all false false false) fun m => targets2 w (Instr.ctz m)
  | 0x39 => withMod (intModOf (fMod w)) (fun m => m.ok IntTy.all false false false) fun m => targets2 w (Instr.popc m)
  | 0x3a => withMod (intModOf (fMod w)) (fun m => m.ok IntTy.all false false false) fun m => targets2 w (Instr.brev m)
  | 0x3b => withMod (intModOf (fMod w)) (fun m => m.ok IntTy.all false false false) fun m => targets2 w (Instr.bswap m)
  | 0x3c => withMod (intModOf (fMod w)) (fun m => m.ok IntTy.scalar false false false) fun m => targets2 w (Instr.bfx m)
  | 0x3d => withMod (intModOf (fMod w)) (fun m => m.ok IntTy.scalar false false false) fun m => targets2 w (Instr.bfi m)
  | 0x3e => withMod (leaModOf (fMod w)) (fun m => m.ok) fun m => targets2 w (Instr.lea m)
  | 0x3f => withMod (intModOf (fMod w)) (fun m => m.ok IntTy.all false false false) fun m => targets2 w (Instr.absdiff m)
  | 0x40 => withMod (intModOf (fMod w)) (fun m => m.ok IntTy.scalar false false true) fun m => targets2 w (Instr.setpEq m)
  | 0x41 => withMod (intModOf (fMod w)) (fun m => m.ok IntTy.scalar false false true) fun m => targets2 w (Instr.setpNe m)
  | 0x42 => withMod (intModOf (fMod w)) (fun m => m.ok IntTy.scalar false false true) fun m => targets2 w (Instr.setpLt m)
  | 0x43 => withMod (intModOf (fMod w)) (fun m => m.ok IntTy.scalar false false true) fun m => targets2 w (Instr.setpLe m)
  | 0x44 => withMod (intModOf (fMod w)) (fun m => m.ok IntTy.scalar false false true) fun m => targets2 w (Instr.setpGt m)
  | 0x45 => withMod (intModOf (fMod w)) (fun m => m.ok IntTy.scalar false false true) fun m => targets2 w (Instr.setpGe m)
  | 0x46 => zeroMod (fMod w) (targets2 w Instr.pand)
  | 0x47 => zeroMod (fMod w) (targets2 w Instr.por)
  | 0x48 => zeroMod (fMod w) (targets2 w Instr.pxor)
  | 0x49 => zeroMod (fMod w) (targets2 w Instr.pnot)
  | 0x4a => targets0 w (Instr.andi (BitVec.ofNat 15 (fImm w)))
  | 0x4b => targets0 w (Instr.shli (BitVec.ofNat 15 (fImm w)))
  | 0x4c => targets0 w (Instr.shri (BitVec.ofNat 15 (fImm w)))
  | 0x4d => targets0 w (Instr.muli (BitVec.ofNat 15 (fImm w)))
  | 0x4e => targets0 w (Instr.setpiEq (BitVec.ofNat 15 (fImm w)))
  | 0x4f => targets0 w (Instr.setpiLt (BitVec.ofNat 15 (fImm w)))
  | 0x50 => withMod (fpModOf (fMod w)) (fun m => m.ok FpTy.all true true true) fun m => targets2 w (Instr.fadd m)
  | 0x51 => withMod (fpModOf (fMod w)) (fun m => m.ok FpTy.all true true true) fun m => targets2 w (Instr.fmul m)
  | 0x52 => withMod (fpModOf (fMod w)) (fun m => m.ok FpTy.all true true true) fun m => targets2 w (Instr.ffma m)
  | 0x53 => withMod (fpModOf (fMod w)) (fun m => m.ok FpTy.all true false true) fun m => targets2 w (Instr.fmin m)
  | 0x54 => withMod (fpModOf (fMod w)) (fun m => m.ok FpTy.all true false true) fun m => targets2 w (Instr.fmax m)
  | 0x55 => withMod (fpModOf (fMod w)) (fun m => m.ok FpTy.all false false false) fun m => targets2 w (Instr.fabs m)
  | 0x56 => withMod (fpModOf (fMod w)) (fun m => m.ok FpTy.all false false false) fun m => targets2 w (Instr.fneg m)
  | 0x57 => withMod (fpModOf (fMod w)) (fun m => m.ok FpTy.all false false true) fun m => targets2 w (Instr.fcopysign m)
  | 0x58 => withMod (fpModOf (fMod w)) (fun m => m.ok FpTy.wide true false true) fun m => targets2 w (Instr.fsetpEq m)
  | 0x59 => withMod (fpModOf (fMod w)) (fun m => m.ok FpTy.wide true false true) fun m => targets2 w (Instr.fsetpNe m)
  | 0x5a => withMod (fpModOf (fMod w)) (fun m => m.ok FpTy.wide true false true) fun m => targets2 w (Instr.fsetpLt m)
  | 0x5b => withMod (fpModOf (fMod w)) (fun m => m.ok FpTy.wide true false true) fun m => targets2 w (Instr.fsetpLe m)
  | 0x5c => withMod (fpModOf (fMod w)) (fun m => m.ok FpTy.wide true false true) fun m => targets2 w (Instr.fsetpUn m)
  | 0x5d => withMod (fpModOf (fMod w)) (fun m => m.ok FpTy.all true false false) fun m => targets2 w (Instr.fclass m)
  | 0x5e => withMod (fpModOf (fMod w)) (fun m => m.ok FpTy.wide true true true) fun m => targets2 w (Instr.fdiv m)
  | 0x5f => withMod (fpModOf (fMod w)) (fun m => m.ok FpTy.wide true true false) fun m => targets2 w (Instr.fsqrt m)
  | 0x60 => withMod (fpModOf (fMod w)) (fun m => m.ok FpTy.sfu true true false) fun m => targets2 w (Instr.frcp m)
  | 0x61 => withMod (fpModOf (fMod w)) (fun m => m.ok FpTy.sfu true true false) fun m => targets2 w (Instr.frsq m)
  | 0x62 => withMod (fpModOf (fMod w)) (fun m => m.ok FpTy.sfu true true false) fun m => targets2 w (Instr.fex2 m)
  | 0x63 => withMod (fpModOf (fMod w)) (fun m => m.ok FpTy.sfu true true false) fun m => targets2 w (Instr.flg2 m)
  | 0x64 => withMod (fpModOf (fMod w)) (fun m => m.ok FpTy.sfu true true false) fun m => targets2 w (Instr.fsin m)
  | 0x65 => withMod (fpModOf (fMod w)) (fun m => m.ok FpTy.sfu true true false) fun m => targets2 w (Instr.fcos m)
  | 0x66 => withMod (fpModOf (fMod w)) (fun m => m.ok FpTy.sfu true true false) fun m => targets2 w (Instr.ftanh m)
  | 0x67 => withMod (froundModOf (fMod w)) (fun m => let _ := m; true) fun m => targets2 w (Instr.fround m)
  | 0x68 => withMod (fpModOf (fMod w)) (fun m => m.ok FpTy.packed true true true) fun m => targets2 w (Instr.fdot2 m)
  | 0x70 => withMod (cvtModOf (fMod w)) (fun m => CvtMod.okFloat m) fun m => targets2 w (Instr.cvtF64 m)
  | 0x71 => withMod (cvtModOf (fMod w)) (fun m => CvtMod.okFloat m) fun m => targets2 w (Instr.cvtF32 m)
  | 0x72 => withMod (cvtModOf (fMod w)) (fun m => CvtMod.okFloat m) fun m => targets2 w (Instr.cvtF16 m)
  | 0x73 => withMod (cvtModOf (fMod w)) (fun m => CvtMod.okFloat m) fun m => targets2 w (Instr.cvtBf16 m)
  | 0x74 => withMod (cvtModOf (fMod w)) (fun m => CvtMod.okFloat m) fun m => targets2 w (Instr.cvtE4m3 m)
  | 0x75 => withMod (cvtModOf (fMod w)) (fun m => CvtMod.okFloat m) fun m => targets2 w (Instr.cvtE5m2 m)
  | 0x76 => withMod (cvtModOf (fMod w)) (fun m => CvtMod.okInt m) fun m => targets2 w (Instr.cvtI32 m)
  | 0x77 => withMod (cvtModOf (fMod w)) (fun m => CvtMod.okInt m) fun m => targets2 w (Instr.cvtN32 m)
  | 0x78 => withMod (cvtModOf (fMod w)) (fun m => CvtMod.okInt m) fun m => targets2 w (Instr.cvtI64 m)
  | 0x79 => withMod (cvtModOf (fMod w)) (fun m => CvtMod.okInt m) fun m => targets2 w (Instr.cvtN64 m)
  | 0x7a => withMod (cvtModOf (fMod w)) (fun m => CvtMod.okPk m) fun m => targets2 w (Instr.cvtPk m)
  | 0x7b => withMod (cvtModOf (fMod w)) (fun m => CvtMod.okCh m) fun m => targets2 w (Instr.cvtCh m)
  | 0x80 => zeroMod (fMod w % 8) (withMod (sizeOf' (fMod w / 8)) (fun z => Size.any z) fun z => targets2 w (Instr.ld z))
  | 0x81 => zeroMod (fMod w % 8) (withMod (sizeOf' (fMod w / 8)) (fun z => Size.any z) fun z => targets2 w (Instr.lds z))
  | 0x82 => withMod (sizeOf' (fMod w / 8)) (fun z => Size.any z) fun z => withMod (scopeOf (fMod w % 8)) (fun _ => true) fun p => targets2 w (Instr.ldAcq z p)
  | 0x83 => zeroMod (fMod w % 8) (withMod (sizeOf' (fMod w / 8)) (fun z => Size.upTo64 z) fun z => targets2 w (Instr.ldd z))
  | 0x84 => zeroMod (fMod w % 8) (withMod (sizeOf' (fMod w / 8)) (fun z => Size.any z) fun z => targets2 w (Instr.ldnc z))
  | 0x85 => zeroMod (fMod w % 8) (withMod (sizeOf' (fMod w / 8)) (fun z => Size.any z) fun z => targets1 w (Instr.st z))
  | 0x86 => withMod (sizeOf' (fMod w / 8)) (fun z => Size.any z) fun z => withMod (scopeOf (fMod w % 8)) (fun _ => true) fun p => targets1 w (Instr.stRel z p)
  | 0x87 => zeroMod (fMod w % 8) (withMod (sizeOf' (fMod w / 8)) (fun z => Size.any z) fun z => targets1 w (Instr.stnc z))
  | 0x88 => zeroMod (fMod w % 8) (zeroMod (fMod w / 16) (targets1 w (Instr.prefetch (fMod w / 8 == 1))))
  | 0x89 => withMod (fenceKindOf (fMod w / 8)) (fun _ => true) fun k => withMod (scopeOf (fMod w % 8)) (fun _ => true) fun p => targets1 w (Instr.fence k p)
  | 0x8a => zeroMod (fMod w) (targets1 w Instr.fenceEng)
  | 0x8b => zeroMod (fMod w) (targets1 w Instr.cinv)
  | 0x8c => zeroMod (fMod w) (targets1 w Instr.cwb)
  | 0x8d => zeroMod (fMod w) (targets2 w Instr.probe)
  | 0xa0 => zeroMod (fMod w % 8) (withMod (sizeOf' (fMod w / 8)) (fun z => Size.word z) fun z => targets2 w (Instr.aadd z))
  | 0xa1 => withMod (sizeOf' (fMod w / 8)) (fun z => Size.word z) fun z => withMod (scopeOf (fMod w % 8)) (fun _ => true) fun p => targets2 w (Instr.aaddAr z p)
  | 0xa2 => zeroMod (fMod w % 8) (withMod (sizeOf' (fMod w / 8)) (fun z => Size.word z) fun z => targets2 w (Instr.amin z))
  | 0xa3 => withMod (sizeOf' (fMod w / 8)) (fun z => Size.word z) fun z => withMod (scopeOf (fMod w % 8)) (fun _ => true) fun p => targets2 w (Instr.aminAr z p)
  | 0xa4 => zeroMod (fMod w % 8) (withMod (sizeOf' (fMod w / 8)) (fun z => Size.word z) fun z => targets2 w (Instr.amax z))
  | 0xa5 => withMod (sizeOf' (fMod w / 8)) (fun z => Size.word z) fun z => withMod (scopeOf (fMod w % 8)) (fun _ => true) fun p => targets2 w (Instr.amaxAr z p)
  | 0xa6 => zeroMod (fMod w % 8) (withMod (sizeOf' (fMod w / 8)) (fun z => Size.word z) fun z => targets2 w (Instr.aminn z))
  | 0xa7 => zeroMod (fMod w % 8) (withMod (sizeOf' (fMod w / 8)) (fun z => Size.word z) fun z => targets2 w (Instr.amaxn z))
  | 0xa8 => zeroMod (fMod w % 8) (withMod (sizeOf' (fMod w / 8)) (fun z => Size.word z) fun z => targets2 w (Instr.aand z))
  | 0xa9 => withMod (sizeOf' (fMod w / 8)) (fun z => Size.word z) fun z => withMod (scopeOf (fMod w % 8)) (fun _ => true) fun p => targets2 w (Instr.aandAr z p)
  | 0xaa => zeroMod (fMod w % 8) (withMod (sizeOf' (fMod w / 8)) (fun z => Size.word z) fun z => targets2 w (Instr.aor z))
  | 0xab => withMod (sizeOf' (fMod w / 8)) (fun z => Size.word z) fun z => withMod (scopeOf (fMod w % 8)) (fun _ => true) fun p => targets2 w (Instr.aorAr z p)
  | 0xac => zeroMod (fMod w % 8) (withMod (sizeOf' (fMod w / 8)) (fun z => Size.word z) fun z => targets2 w (Instr.axor z))
  | 0xad => withMod (sizeOf' (fMod w / 8)) (fun z => Size.word z) fun z => withMod (scopeOf (fMod w % 8)) (fun _ => true) fun p => targets2 w (Instr.axorAr z p)
  | 0xae => zeroMod (fMod w % 8) (withMod (sizeOf' (fMod w / 8)) (fun z => Size.word z) fun z => targets2 w (Instr.axchg z))
  | 0xaf => withMod (sizeOf' (fMod w / 8)) (fun z => Size.word z) fun z => withMod (scopeOf (fMod w % 8)) (fun _ => true) fun p => targets2 w (Instr.axchgAr z p)
  | 0xb0 => zeroMod (fMod w % 8) (withMod (sizeOf' (fMod w / 8)) (fun z => Size.casOk z) fun z => targets2 w (Instr.acas z))
  | 0xb1 => withMod (sizeOf' (fMod w / 8)) (fun z => Size.casOk z) fun z => withMod (scopeOf (fMod w % 8)) (fun _ => true) fun p => targets2 w (Instr.acasAr z p)
  | 0xb2 => zeroMod (fMod w % 8) (withMod (sizeOf' (fMod w / 8)) (fun z => Size.word z) fun z => targets2 w (Instr.ainc z))
  | 0xb3 => zeroMod (fMod w % 8) (withMod (sizeOf' (fMod w / 8)) (fun z => Size.word z) fun z => targets2 w (Instr.adec z))
  | 0xb4 => zeroMod (fMod w % 8) (withMod (sizeOf' (fMod w / 8)) (fun z => Size.word z) fun z => targets2 w (Instr.aaddb z))
  | 0xb5 => withMod (sizeOf' (fMod w / 8)) (fun z => Size.word z) fun z => withMod (scopeOf (fMod w % 8)) (fun _ => true) fun p => targets2 w (Instr.aaddbAr z p)
  | 0xb6 => zeroMod (fMod w % 8) (withMod (sizeOf' (fMod w / 8)) (fun z => Size.word z) fun z => targets2 w (Instr.afadd z))
  | 0xb7 => zeroMod (fMod w % 8) (withMod (sizeOf' (fMod w / 8)) (fun z => Size.only32 z) fun z => targets2 w (Instr.afadd2 z))
  | 0xb8 => zeroMod (fMod w % 8) (withMod (sizeOf' (fMod w / 8)) (fun z => Size.word z) fun z => targets2 w (Instr.afmin z))
  | 0xb9 => zeroMod (fMod w % 8) (withMod (sizeOf' (fMod w / 8)) (fun z => Size.word z) fun z => targets2 w (Instr.afmax z))
  | 0xba => zeroMod (fMod w % 8) (withMod (sizeOf' (fMod w / 8)) (fun z => Size.word z) fun z => targets1 w (Instr.aredAdd z))
  | 0xbb => zeroMod (fMod w % 8) (withMod (sizeOf' (fMod w / 8)) (fun z => Size.word z) fun z => targets1 w (Instr.aredFadd z))
  | 0xbc => zeroMod (fMod w % 8) (withMod (sizeOf' (fMod w / 8)) (fun z => Size.word z) fun z => targets1 w (Instr.aredMin z))
  | 0xbd => zeroMod (fMod w % 8) (withMod (sizeOf' (fMod w / 8)) (fun z => Size.word z) fun z => targets1 w (Instr.aredMax z))
  | 0xbe => zeroMod (fMod w % 8) (withMod (sizeOf' (fMod w / 8)) (fun z => Size.word z) fun z => targets1 w (Instr.aredOr z))
  | 0xbf => zeroMod (fMod w % 8) (withMod (sizeOf' (fMod w / 8)) (fun z => Size.word z) fun z => targets1 w (Instr.aredAnd z))
  | 0xc0 => withSlot (true) (.ok (Instr.barWait (BitVec.ofNat 4 (fNum w)) (BitVec.ofNat 20 (fOff20 w))))
  | 0xc1 => withMod (barRefOf (fMod w)) (fun b => BarRef.okArrive b) fun b => targets1 w (Instr.barArrive b)
  | 0xc2 => withMod (barRefOf (fMod w)) (fun b => BarRef.okArrive b) fun b => targets1 w (Instr.barDrop b)
  | 0xc3 => withMod (barRefOf (fMod w)) (fun b => BarRef.okInit b) fun b => targets2 w (Instr.barInit b)
  | 0xc4 => zeroMod (fMod w / 4) (targets1 w (Instr.stgExpect (fMod w / 2 % 2 == 1) (fMod w % 2 == 1)))
  | 0xc5 => withSlot (stageNumOk (BitVec.ofNat 4 (fNum w))) (.ok (Instr.stgWait (BitVec.ofNat 4 (fNum w)) (BitVec.ofNat 20 (fOff20 w))))
  | 0xc6 => withSlot (true) (.ok (Instr.waitp (BitVec.ofNat 4 (fNum w)) (BitVec.ofNat 20 (fOff20 w))))
  | 0xc7 => withSlot (fNum w == 0) (.ok (Instr.ropeWait (BitVec.ofNat 20 (fOff20 w))))
  | 0xd0 => zeroMod (fMod w / 16) (targets2 w (Instr.cpy (BitVec.ofNat 4 (fMod w))))
  | 0xd1 => zeroMod (fMod w / 16) (targets2 w (Instr.cpyColl (BitVec.ofNat 4 (fMod w))))
  | 0xd2 => zeroMod (fMod w / 32) (targets2 w (Instr.cwptr (fMod w / 16 == 1) (BitVec.ofNat 4 (fMod w))))
  | 0xd3 => zeroMod (fMod w / 16) (targets2 w (Instr.cchan (BitVec.ofNat 4 (fMod w))))
  | 0xd4 => zeroMod (fMod w) (targets1 w Instr.mma)
  | 0xd5 => zeroMod (fMod w % 32) (targets1 w (Instr.maccLd (fMod w / 32 == 1)))
  | 0xd6 => zeroMod (fMod w % 32) (targets1 w (Instr.maccSt (fMod w / 32 == 1)))
  | 0xd7 => zeroMod (fMod w) (targets2 w Instr.mgang)
  | 0xd8 => zeroMod (fMod w) (targets2 w Instr.mchan)
  | 0xd9 => zeroMod (fMod w) (targets1 w Instr.twin)
  | 0xda => zeroMod (fMod w / 2) (targets1 w (Instr.tload (fMod w % 2 == 1)))
  | 0xdb => zeroMod (fMod w / 2) (targets1 w (Instr.tlaunch (fMod w % 2 == 1)))
  | 0xdc => zeroMod (fMod w) (targets1 w Instr.tcap)
  | 0xdd => zeroMod (fMod w) (targets1 w Instr.trst)
  | 0xde => zeroMod (fMod w) (targets2 w Instr.tcode)
  | 0xdf => zeroMod (fMod w) (targets2 w Instr.tval)
  | 0xe0 => .ok (Instr.abegin (BitVec.ofNat 24 (fOff24 w)))
  | 0xe1 => .ok (Instr.acommit (BitVec.ofNat 24 (fOff24 w)))
  | 0xe2 => zeroMod (fMod w) (targets1 w Instr.aabort)
  | 0xe3 => zeroMod (fMod w) (targets2 w Instr.astat)
  | 0xe4 => zeroMod (fMod w) (targets2 w Instr.apin)
  | 0xe8 => zeroMod (fMod w) (targets2 w Instr.hspawn)
  | 0xe9 => zeroMod (fMod w) (targets2 w Instr.hgainAdd)
  | 0xea => zeroMod (fMod w) (targets2 w Instr.hgainMax)
  | 0xeb => zeroMod (fMod w) (targets2 w Instr.hgainSet)
  | 0xec => zeroMod (fMod w) (targets2 w Instr.hdep)
  | 0xed => zeroMod (fMod w) (noTargets w Instr.hdone)
  | 0xee => zeroMod (fMod w) (targets2 w Instr.hresid)
  | 0xef => zeroMod (fMod w) (targets2 w Instr.hself)
  | 0xf0 => noTarget0 w (Instr.trap (BitVec.ofNat 15 (fImm w)))
  | 0xf1 => noTarget0 w (Instr.brk (BitVec.ofNat 15 (fImm w)))
  | 0xf2 => zeroMod (fMod w / 2) (noTargets w (Instr.eret (fMod w % 2 == 1)))
  | 0xf3 => withSlot (slotSysreg (BitVec.ofNat 6 (fMod w))) (targets2 w (Instr.sysrd (BitVec.ofNat 6 (fMod w))))
  | 0xf4 => withSlot (slotSysreg (BitVec.ofNat 6 (fMod w))) (targets1 w (Instr.syswr (BitVec.ofNat 6 (fMod w))))
  | 0xf5 => zeroMod (fMod w) (targets1 w Instr.cfginv)
  | 0xf6 => targets0 w (Instr.cairn (BitVec.ofNat 15 (fImm w)))
  | 0xf7 => zeroMod (fMod w) (targets2 w Instr.tsc)
  | 0xf8 => zeroMod (fMod w) (noTargets w Instr.nop)
  | 0xf9 => zeroMod (fMod w) (noTargets w Instr.halt)
  | 0xff => .error .opcodeFF
  | _ => .error .unassigned

/-- The instruction that a 32-bit word, read as a number, stands for, or the first check of R76 it fails. -/
def decodeNat (w : Nat) : Dec := decodeOp w (fOp w)

/-- The decoder of a word as it lies in memory. -/
def decode (w : Word) : Dec := decodeNat w.toNat

/-- The numbering of spec/opcode_table.json: every instruction is one 32-bit word. A machine step has no word. -/
def decodeTableWord (nbits w : Nat) : Option Instr :=
  if nbits ≤ 32 ∧ w < 2 ^ 32 then
    match decode (BitVec.ofNat 32 w) with
    | .ok i => some i
    | .error _ => none
  else none

/-! The encoder, from the same tables. -/

/-- R65. -/
def Target.code : Target → Nat
  | .none => 0
  | .port .a k => 128 + k.toNat
  | .port .b k => 256 + k.toNat
  | .port .c k => 384 + k.toNat
  | .live s => 192 + s.toNat
  | .pairLive s => 320 + s.toNat
/-- R71. -/
def IntTy.code : IntTy → Nat
  | .i32 => 0 | .n32 => 1 | .i64 => 2 | .n64 => 3 | .i16x4 => 4 | .n16x4 => 5
/-- R71. -/
def FpTy.code : FpTy → Nat
  | .f32 => 0 | .f64 => 1 | .f16x2 => 2 | .bf16x2 => 3
/-- R71. -/
def Rnd.code : Rnd → Nat
  | .rne => 0 | .rtz => 1 | .rup => 2 | .rdn => 3
/-- R71. -/
def CvtFmt.code : CvtFmt → Nat
  | .f64 => 0 | .f32 => 1 | .f16 => 2 | .bf16 => 3 | .e4m3 => 4 | .e5m2 => 5 | .i32 => 6 | .n32 => 7 | .i64 => 8 | .n64 => 9
/-- R71. -/
def Size.code : Size → Nat
  | .b8 => 0 | .b16 => 1 | .b32 => 2 | .b64 => 3 | .b128 => 4
/-- R71. -/
def Scope.code : Scope → Nat
  | .group => 1 | .cluster => 2 | .device => 3 | .system => 4
/-- R230. -/
def FenceKind.code : FenceKind → Nat
  | .acq => 0 | .rel => 1 | .ar => 2 | .sc => 3
/-- A bit of a field. -/
def bitN (b : Bool) : Nat := if b then 1 else 0
/-- R71. -/
def IntMod.code (m : IntMod) : Nat := m.ty.code * 8 + bitN m.sat * 4 + bitN m.invb * 2 + bitN m.z
/-- R163. -/
def LeaMod.code (m : LeaMod) : Nat := m.ty.code * 8 + m.scale.toNat
/-- R71. -/
def FpMod.code (m : FpMod) : Nat := m.ty.code * 8 + bitN m.ftzi * 4 + bitN m.ftzo * 2 + bitN m.negb
/-- R198. -/
def FroundMod.code (m : FroundMod) : Nat := m.ty.code * 8 + bitN m.ftzi * 4 + m.rnd.code
/-- R71. -/
def CvtMod.code (m : CvtMod) : Nat := m.dest.code * 4 + m.rnd.code
/-- R282. -/
def BarRef.code : BarRef → Nat
  | .named n => n.toNat
  | .stage n => 16 + n.toNat
  | .rope => 31
/-- Formats D and S (R60). -/
def wordD (op md t1 t0 : Nat) : Nat := op * 2 ^ 24 + md * 2 ^ 18 + t1 * 2 ^ 9 + t0
/-- Format I (R60). -/
def wordI (op imm t0 : Nat) : Nat := op * 2 ^ 24 + imm * 2 ^ 9 + t0
/-- Formats B24 and B20 (R60). -/
def wordB (op num off : Nat) : Nat := op * 2 ^ 24 + num * 2 ^ 20 + off

/-- The word of a well-formed instruction; a machine step has none. -/
def encodeNat : Instr → Option Nat
  | .read s t1 t0 => some (wordD 0x01 s.toNat t1.code t0.code)
  | .readD s t1 t0 => some (wordD 0x02 s.toNat t1.code t0.code)
  | .lit s t1 t0 => some (wordD 0x03 s.toNat t1.code t0.code)
  | .litD s t1 t0 => some (wordD 0x04 s.toNat t1.code t0.code)
  | .const imm t0 => some (wordI 0x05 imm.toNat t0.code)
  | .mov w t1 t0 => some (wordD 0x06 (bitN w * 32) t1.code t0.code)
  | .gate w t1 t0 => some (wordD 0x07 (bitN w * 32) t1.code t0.code)
  | .gaten w t1 t0 => some (wordD 0x08 (bitN w * 32) t1.code t0.code)
  | .sel w t1 t0 => some (wordD 0x09 (bitN w * 32) t1.code t0.code)
  | .pick w t1 t0 => some (wordD 0x0a (bitN w * 32) t1.code t0.code)
  | .pair t1 t0 => some (wordD 0x0b 0 t1.code t0.code)
  | .split t1 t0 => some (wordD 0x0c 0 t1.code t0.code)
  | .sink w => some (wordD 0x0d (bitN w * 32) 0 0)
  | .isnull w t1 t0 => some (wordD 0x0e (bitN w * 32) t1.code t0.code)
  | .id s t1 t0 => some (wordD 0x0f s.toNat t1.code t0.code)
  | .br off => some (wordB 0x10 0 off.toNat)
  | .brc off => some (wordB 0x11 0 off.toNat)
  | .brcn off => some (wordB 0x12 0 off.toNat)
  | .brx => some (wordD 0x13 0 0 0)
  | .call off => some (wordB 0x14 0 off.toNat)
  | .callc off => some (wordB 0x15 0 off.toNat)
  | .callx => some (wordD 0x16 0 0 0)
  | .ret => some (wordD 0x17 0 0 0)
  | .exit => some (wordD 0x18 0 0 0)
  | .exitc => some (wordD 0x19 0 0 0)
  | .add m t1 t0 => some (wordD 0x20 m.code t1.code t0.code)
  | .sub m t1 t0 => some (wordD 0x21 m.code t1.code t0.code)
  | .addi imm t0 => some (wordI 0x22 imm.toNat t0.code)
  | .mul m t1 t0 => some (wordD 0x23 m.code t1.code t0.code)
  | .mulhi m t1 t0 => some (wordD 0x24 m.code t1.code t0.code)
  | .mulw m t1 t0 => some (wordD 0x25 m.code t1.code t0.code)
  | .mad m t1 t0 => some (wordD 0x26 m.code t1.code t0.code)
  | .div m t1 t0 => some (wordD 0x27 m.code t1.code t0.code)
  | .rem m t1 t0 => some (wordD 0x28 m.code t1.code t0.code)
  | .min m t1 t0 => some (wordD 0x29 m.code t1.code t0.code)
  | .max m t1 t0 => some (wordD 0x2a m.code t1.code t0.code)
  | .abs m t1 t0 => some (wordD 0x2b m.code t1.code t0.code)
  | .neg m t1 t0 => some (wordD 0x2c m.code t1.code t0.code)
  | .and m t1 t0 => some (wordD 0x2d m.code t1.code t0.code)
  | .or m t1 t0 => some (wordD 0x2e m.code t1.code t0.code)
  | .xor m t1 t0 => some (wordD 0x2f m.code t1.code t0.code)
  | .andn m t1 t0 => some (wordD 0x30 m.code t1.code t0.code)
  | .not m t1 t0 => some (wordD 0x31 m.code t1.code t0.code)
  | .shl m t1 t0 => some (wordD 0x32 m.code t1.code t0.code)
  | .shr m t1 t0 => some (wordD 0x33 m.code t1.code t0.code)
  | .sar m t1 t0 => some (wordD 0x34 m.code t1.code t0.code)
  | .rotl m t1 t0 => some (wordD 0x35 m.code t1.code t0.code)
  | .rotr m t1 t0 => some (wordD 0x36 m.code t1.code t0.code)
  | .clz m t1 t0 => some (wordD 0x37 m.code t1.code t0.code)
  | .ctz m t1 t0 => some (wordD 0x38 m.code t1.code t0.code)
  | .popc m t1 t0 => some (wordD 0x39 m.code t1.code t0.code)
  | .brev m t1 t0 => some (wordD 0x3a m.code t1.code t0.code)
  | .bswap m t1 t0 => some (wordD 0x3b m.code t1.code t0.code)
  | .bfx m t1 t0 => some (wordD 0x3c m.code t1.code t0.code)
  | .bfi m t1 t0 => some (wordD 0x3d m.code t1.code t0.code)
  | .lea m t1 t0 => some (wordD 0x3e m.code t1.code t0.code)
  | .absdiff m t1 t0 => some (wordD 0x3f m.code t1.code t0.code)
  | .setpEq m t1 t0 => some (wordD 0x40 m.code t1.code t0.code)
  | .setpNe m t1 t0 => some (wordD 0x41 m.code t1.code t0.code)
  | .setpLt m t1 t0 => some (wordD 0x42 m.code t1.code t0.code)
  | .setpLe m t1 t0 => some (wordD 0x43 m.code t1.code t0.code)
  | .setpGt m t1 t0 => some (wordD 0x44 m.code t1.code t0.code)
  | .setpGe m t1 t0 => some (wordD 0x45 m.code t1.code t0.code)
  | .pand t1 t0 => some (wordD 0x46 0 t1.code t0.code)
  | .por t1 t0 => some (wordD 0x47 0 t1.code t0.code)
  | .pxor t1 t0 => some (wordD 0x48 0 t1.code t0.code)
  | .pnot t1 t0 => some (wordD 0x49 0 t1.code t0.code)
  | .andi imm t0 => some (wordI 0x4a imm.toNat t0.code)
  | .shli imm t0 => some (wordI 0x4b imm.toNat t0.code)
  | .shri imm t0 => some (wordI 0x4c imm.toNat t0.code)
  | .muli imm t0 => some (wordI 0x4d imm.toNat t0.code)
  | .setpiEq imm t0 => some (wordI 0x4e imm.toNat t0.code)
  | .setpiLt imm t0 => some (wordI 0x4f imm.toNat t0.code)
  | .fadd m t1 t0 => some (wordD 0x50 m.code t1.code t0.code)
  | .fmul m t1 t0 => some (wordD 0x51 m.code t1.code t0.code)
  | .ffma m t1 t0 => some (wordD 0x52 m.code t1.code t0.code)
  | .fmin m t1 t0 => some (wordD 0x53 m.code t1.code t0.code)
  | .fmax m t1 t0 => some (wordD 0x54 m.code t1.code t0.code)
  | .fabs m t1 t0 => some (wordD 0x55 m.code t1.code t0.code)
  | .fneg m t1 t0 => some (wordD 0x56 m.code t1.code t0.code)
  | .fcopysign m t1 t0 => some (wordD 0x57 m.code t1.code t0.code)
  | .fsetpEq m t1 t0 => some (wordD 0x58 m.code t1.code t0.code)
  | .fsetpNe m t1 t0 => some (wordD 0x59 m.code t1.code t0.code)
  | .fsetpLt m t1 t0 => some (wordD 0x5a m.code t1.code t0.code)
  | .fsetpLe m t1 t0 => some (wordD 0x5b m.code t1.code t0.code)
  | .fsetpUn m t1 t0 => some (wordD 0x5c m.code t1.code t0.code)
  | .fclass m t1 t0 => some (wordD 0x5d m.code t1.code t0.code)
  | .fdiv m t1 t0 => some (wordD 0x5e m.code t1.code t0.code)
  | .fsqrt m t1 t0 => some (wordD 0x5f m.code t1.code t0.code)
  | .frcp m t1 t0 => some (wordD 0x60 m.code t1.code t0.code)
  | .frsq m t1 t0 => some (wordD 0x61 m.code t1.code t0.code)
  | .fex2 m t1 t0 => some (wordD 0x62 m.code t1.code t0.code)
  | .flg2 m t1 t0 => some (wordD 0x63 m.code t1.code t0.code)
  | .fsin m t1 t0 => some (wordD 0x64 m.code t1.code t0.code)
  | .fcos m t1 t0 => some (wordD 0x65 m.code t1.code t0.code)
  | .ftanh m t1 t0 => some (wordD 0x66 m.code t1.code t0.code)
  | .fround m t1 t0 => some (wordD 0x67 m.code t1.code t0.code)
  | .fdot2 m t1 t0 => some (wordD 0x68 m.code t1.code t0.code)
  | .cvtF64 m t1 t0 => some (wordD 0x70 m.code t1.code t0.code)
  | .cvtF32 m t1 t0 => some (wordD 0x71 m.code t1.code t0.code)
  | .cvtF16 m t1 t0 => some (wordD 0x72 m.code t1.code t0.code)
  | .cvtBf16 m t1 t0 => some (wordD 0x73 m.code t1.code t0.code)
  | .cvtE4m3 m t1 t0 => some (wordD 0x74 m.code t1.code t0.code)
  | .cvtE5m2 m t1 t0 => some (wordD 0x75 m.code t1.code t0.code)
  | .cvtI32 m t1 t0 => some (wordD 0x76 m.code t1.code t0.code)
  | .cvtN32 m t1 t0 => some (wordD 0x77 m.code t1.code t0.code)
  | .cvtI64 m t1 t0 => some (wordD 0x78 m.code t1.code t0.code)
  | .cvtN64 m t1 t0 => some (wordD 0x79 m.code t1.code t0.code)
  | .cvtPk m t1 t0 => some (wordD 0x7a m.code t1.code t0.code)
  | .cvtCh m t1 t0 => some (wordD 0x7b m.code t1.code t0.code)
  | .ld z t1 t0 => some (wordD 0x80 (z.code * 8) t1.code t0.code)
  | .lds z t1 t0 => some (wordD 0x81 (z.code * 8) t1.code t0.code)
  | .ldAcq z p t1 t0 => some (wordD 0x82 (z.code * 8 + p.code) t1.code t0.code)
  | .ldd z t1 t0 => some (wordD 0x83 (z.code * 8) t1.code t0.code)
  | .ldnc z t1 t0 => some (wordD 0x84 (z.code * 8) t1.code t0.code)
  | .st z t1 => some (wordD 0x85 (z.code * 8) t1.code 0)
  | .stRel z p t1 => some (wordD 0x86 (z.code * 8 + p.code) t1.code 0)
  | .stnc z t1 => some (wordD 0x87 (z.code * 8) t1.code 0)
  | .prefetch l2 t1 => some (wordD 0x88 (bitN l2 * 8) t1.code 0)
  | .fence k p t1 => some (wordD 0x89 (k.code * 8 + p.code) t1.code 0)
  | .fenceEng t1 => some (wordD 0x8a 0 t1.code 0)
  | .cinv t1 => some (wordD 0x8b 0 t1.code 0)
  | .cwb t1 => some (wordD 0x8c 0 t1.code 0)
  | .probe t1 t0 => some (wordD 0x8d 0 t1.code t0.code)
  | .aadd z t1 t0 => some (wordD 0xa0 (z.code * 8) t1.code t0.code)
  | .aaddAr z p t1 t0 => some (wordD 0xa1 (z.code * 8 + p.code) t1.code t0.code)
  | .amin z t1 t0 => some (wordD 0xa2 (z.code * 8) t1.code t0.code)
  | .aminAr z p t1 t0 => some (wordD 0xa3 (z.code * 8 + p.code) t1.code t0.code)
  | .amax z t1 t0 => some (wordD 0xa4 (z.code * 8) t1.code t0.code)
  | .amaxAr z p t1 t0 => some (wordD 0xa5 (z.code * 8 + p.code) t1.code t0.code)
  | .aminn z t1 t0 => some (wordD 0xa6 (z.code * 8) t1.code t0.code)
  | .amaxn z t1 t0 => some (wordD 0xa7 (z.code * 8) t1.code t0.code)
  | .aand z t1 t0 => some (wordD 0xa8 (z.code * 8) t1.code t0.code)
  | .aandAr z p t1 t0 => some (wordD 0xa9 (z.code * 8 + p.code) t1.code t0.code)
  | .aor z t1 t0 => some (wordD 0xaa (z.code * 8) t1.code t0.code)
  | .aorAr z p t1 t0 => some (wordD 0xab (z.code * 8 + p.code) t1.code t0.code)
  | .axor z t1 t0 => some (wordD 0xac (z.code * 8) t1.code t0.code)
  | .axorAr z p t1 t0 => some (wordD 0xad (z.code * 8 + p.code) t1.code t0.code)
  | .axchg z t1 t0 => some (wordD 0xae (z.code * 8) t1.code t0.code)
  | .axchgAr z p t1 t0 => some (wordD 0xaf (z.code * 8 + p.code) t1.code t0.code)
  | .acas z t1 t0 => some (wordD 0xb0 (z.code * 8) t1.code t0.code)
  | .acasAr z p t1 t0 => some (wordD 0xb1 (z.code * 8 + p.code) t1.code t0.code)
  | .ainc z t1 t0 => some (wordD 0xb2 (z.code * 8) t1.code t0.code)
  | .adec z t1 t0 => some (wordD 0xb3 (z.code * 8) t1.code t0.code)
  | .aaddb z t1 t0 => some (wordD 0xb4 (z.code * 8) t1.code t0.code)
  | .aaddbAr z p t1 t0 => some (wordD 0xb5 (z.code * 8 + p.code) t1.code t0.code)
  | .afadd z t1 t0 => some (wordD 0xb6 (z.code * 8) t1.code t0.code)
  | .afadd2 z t1 t0 => some (wordD 0xb7 (z.code * 8) t1.code t0.code)
  | .afmin z t1 t0 => some (wordD 0xb8 (z.code * 8) t1.code t0.code)
  | .afmax z t1 t0 => some (wordD 0xb9 (z.code * 8) t1.code t0.code)
  | .aredAdd z t1 => some (wordD 0xba (z.code * 8) t1.code 0)
  | .aredFadd z t1 => some (wordD 0xbb (z.code * 8) t1.code 0)
  | .aredMin z t1 => some (wordD 0xbc (z.code * 8) t1.code 0)
  | .aredMax z t1 => some (wordD 0xbd (z.code * 8) t1.code 0)
  | .aredOr z t1 => some (wordD 0xbe (z.code * 8) t1.code 0)
  | .aredAnd z t1 => some (wordD 0xbf (z.code * 8) t1.code 0)
  | .barWait num off => some (wordB 0xc0 num.toNat off.toNat)
  | .barArrive b t1 => some (wordD 0xc1 b.code t1.code 0)
  | .barDrop b t1 => some (wordD 0xc2 b.code t1.code 0)
  | .barInit b t1 t0 => some (wordD 0xc3 b.code t1.code t0.code)
  | .stgExpect arr stg t1 => some (wordD 0xc4 (bitN arr * 2 + bitN stg) t1.code 0)
  | .stgWait num off => some (wordB 0xc5 num.toNat off.toNat)
  | .waitp num off => some (wordB 0xc6 num.toNat off.toNat)
  | .ropeWait off => some (wordB 0xc7 0 off.toNat)
  | .cpy ch t1 t0 => some (wordD 0xd0 ch.toNat t1.code t0.code)
  | .cpyColl ch t1 t0 => some (wordD 0xd1 ch.toNat t1.code t0.code)
  | .cwptr acq ch t1 t0 => some (wordD 0xd2 (bitN acq * 16 + ch.toNat) t1.code t0.code)
  | .cchan ch t1 t0 => some (wordD 0xd3 ch.toNat t1.code t0.code)
  | .mma t1 => some (wordD 0xd4 0 t1.code 0)
  | .maccLd f t1 => some (wordD 0xd5 (bitN f * 32) t1.code 0)
  | .maccSt f t1 => some (wordD 0xd6 (bitN f * 32) t1.code 0)
  | .mgang t1 t0 => some (wordD 0xd7 0 t1.code t0.code)
  | .mchan t1 t0 => some (wordD 0xd8 0 t1.code t0.code)
  | .twin t1 => some (wordD 0xd9 0 t1.code 0)
  | .tload f t1 => some (wordD 0xda (bitN f) t1.code 0)
  | .tlaunch f t1 => some (wordD 0xdb (bitN f) t1.code 0)
  | .tcap t1 => some (wordD 0xdc 0 t1.code 0)
  | .trst t1 => some (wordD 0xdd 0 t1.code 0)
  | .tcode t1 t0 => some (wordD 0xde 0 t1.code t0.code)
  | .tval t1 t0 => some (wordD 0xdf 0 t1.code t0.code)
  | .abegin off => some (wordB 0xe0 0 off.toNat)
  | .acommit off => some (wordB 0xe1 0 off.toNat)
  | .aabort t1 => some (wordD 0xe2 0 t1.code 0)
  | .astat t1 t0 => some (wordD 0xe3 0 t1.code t0.code)
  | .apin t1 t0 => some (wordD 0xe4 0 t1.code t0.code)
  | .hspawn t1 t0 => some (wordD 0xe8 0 t1.code t0.code)
  | .hgainAdd t1 t0 => some (wordD 0xe9 0 t1.code t0.code)
  | .hgainMax t1 t0 => some (wordD 0xea 0 t1.code t0.code)
  | .hgainSet t1 t0 => some (wordD 0xeb 0 t1.code t0.code)
  | .hdep t1 t0 => some (wordD 0xec 0 t1.code t0.code)
  | .hdone => some (wordD 0xed 0 0 0)
  | .hresid t1 t0 => some (wordD 0xee 0 t1.code t0.code)
  | .hself t1 t0 => some (wordD 0xef 0 t1.code t0.code)
  | .trap code => some (wordI 0xf0 code.toNat 0)
  | .brk code => some (wordI 0xf1 code.toNat 0)
  | .eret f => some (wordD 0xf2 (bitN f) 0 0)
  | .sysrd s t1 t0 => some (wordD 0xf3 s.toNat t1.code t0.code)
  | .syswr s t1 => some (wordD 0xf4 s.toNat t1.code 0)
  | .cfginv t1 => some (wordD 0xf5 0 t1.code 0)
  | .cairn code t0 => some (wordI 0xf6 code.toNat t0.code)
  | .tsc t1 t0 => some (wordD 0xf7 0 t1.code t0.code)
  | .nop => some (wordD 0xf8 0 0 0)
  | .halt => some (wordD 0xf9 0 0 0)
  | .takeRecord => none
  | .launchStart => none
  | .queueEnable => none
  | .queueDisable => none
  | .placeUnit => none
  | .timeSliceExpiry => none
  | .migrateGroup => none
  | .dieModeChangeDone => none
  | .binHeaderReturn => none
  | .configStart => none
  | .configComplete => none
  | .admitThread => none
  | .forcedClosure => none
  | .binSeal => none
  | .quiescenceSet => none
  | .walkComplete => none
  | .squashedEnd => none
  | .loadReturn => none
  | .deferredFill => none
  | .sfuReturn => none
  | .atomicTilePerform => none
  | .atomicReturn => none
  | .eretRecordReturn => none
  | .blockCommit => none
  | .liveWritePerform => none
  | .storeSend => none
  | .storeAcknowledge => none
  | .threadRetire => none
  | .groupRetire => none
  | .gridRetire => none
  | .barrierTimeout => none
  | .ropePhaseComplete => none
  | .channelWaitTimeout => none
  | .enginePortAccept => none
  | .copyRunIssue => none
  | .copyRunPerformed => none
  | .matrixStep => none
  | .mmaComplete => none
  | .maccComplete => none
  | .gangRoundComplete => none
  | .latchTimeout => none
  | .temporalCommandStart => none
  | .temporalCommandComplete => none
  | .tlaunchAttemptEnd => none
  | .tickReplan => none
  | .temporalArrayReset => none
  | .commitEngineStart => none
  | .lineLockGranted => none
  | .serialTokenGrant => none
  | .heapOperationApply => none
  | .heapReply => none
  | .heapPop => none
  | .taskThreadCreate => none
  | .heapLend => none
  | .residInclusion => none
  | .heapTolEffect => none
  | .settlePopStop => none
  | .heapDrain => none
  | .drainComplete => none
  | .faultRecordPerformed => none
  | .replayCommand => none
  | .nextCommand => none
  | .killCommand => none
  | .resumeCommand => none
  | .tlbInvalidate => none
  | .tlbInvalidateDone => none
  | .saveStart => none
  | .scratchSavePass => none
  | .saveComplete => none
  | .groupRestore => none
  | .preemptLimitExpiry => none
  | .groupDiscard => none
  | .debugHalt => none
  | .cfginvPerform => none
  | .directoryTransaction => none
  | .probeAnswer => none
  | .granuleFlush => none
  | .granuleReclassify => none
  | .hostSnoop => none
  | .linkFail => none
  | .peerTimeout => none
  | .heartbeatMiss => none
  | .agentDead => none
  | .lateMessage => none
  | .ioDieFailover => none
  | .moduleReset => none
  | .bringUp => none
  | .traceAccept => none
  | .samplerWrite => none
  | .sampleTake => none
  | .energyUpdate => none
  | .voltageReplan => none
  | .thermalHoldStart => none
  | .thermalHoldEnd => none
  | .thermalShutdown => none
  | .tscCorrection => none
  | .attestationQuote => none
  | .counterClear => none
  | .mgmtRegisterWrite => none
  | .pipelinedOperationEmit => none
  | .dieTlbHit => none
  | .completionTimeout => none
  | .agentBroughtBackUp => none

/-- The encoder as a 32-bit word. -/
def encode (i : Instr) : Option Word := (encodeNat i).map (BitVec.ofNat 32)

/-- The mnemonic opcode of a word, for the checks of R76 that need only the opcode. -/
def opcodeOf (w : Word) : Nat := fOp w.toNat

end Sys2Proof
end

