-- ==== Sys2Proof/Config.lean ====
section
/-! DEFINITION. What the manual leaves to the device or to the physical world, as constants without a body (no proof can
see their values), and the figures that both grades share. Each free constant is named in an entry of the
assumption log. -/

namespace Sys2Proof.Config

/-- R10: dies 0 to 7; on the smaller grade dies 4 to 7 are absent. -/
def dies : Nat := 8
/-- R11, R12: cores of a die. -/
def coresPerDie : Nat := 256
/-- R12: thread slots of a core. -/
def slotsPerCore : Nat := 1024

/-- R199: of the two neighbours of the exact value, is the upper one returned? One fixed choice for each function
(0 `fex2`, 1 `flg2`, 2 `fsin`, 3 `fcos`, 4 `ftanh`), format and input pattern. (DESIGN CHOICE, log entry 14.) -/
opaque sfuUpper (fn fmt : Nat) (x : Nat) : Bool
/-- R127: the detail word of a fabric parity fault, whose layout the manual does not give, by PE number.
(DESIGN CHOICE, log entry 15.) -/
opaque parityDetail (pe : Nat) : BitVec 64
/-- R462: the energy in nJ that a context's events of one µs took on a die; 64 stands for events of no context.
(DESIGN CHOICE, log entry 16.) -/
opaque energyEvents (die ctx clk : Nat) : Nat
/-- R462: the die's static energy of one µs. (DESIGN CHOICE, log entry 16.) -/
opaque energyStatic (die clk : Nat) : Nat
/-- R462: is a context's share of static energy, where it is no whole number of nJ, rounded up?
(DESIGN CHOICE, log entry 16.) -/
opaque energyRoundUp (die ctx clk : Nat) : Bool
/-- R464: the voltage margin in mV after a re-plan. (DESIGN CHOICE, log entry 16.) -/
opaque voltageMargin (die clk : Nat) : BitVec 32
/-- R464: the worst path-delay margin after a re-plan, in 1/256 of a clk. (DESIGN CHOICE, log entry 16.) -/
opaque pathMargin (die clk : Nat) : BitVec 64
/-- R327: the tick that calibration gives a core at bring-up. (DESIGN CHOICE, log entry 17.) -/
opaque calibratedTick (core : Nat) : BitVec 2
/-- R327: the margin that calibration measures. (DESIGN CHOICE, log entry 17.) -/
opaque calibratedMargin (core : Nat) : BitVec 8
/-- The bits that a poisoned source delivers where the manual uses "the bits read" (R306, R330).
(DESIGN CHOICE, log entry 18.) -/
opaque poisonByte (addr : Nat) : BitVec 8
/-- R360: which pending task entries lie on-chip is the heap's choice. (DESIGN CHOICE, log entry 19.) -/
opaque heapOnChip (handle clk : Nat) : Bool

/-- R465: what a device register whose place or contents the manual does not give reads as, by offset and clk.
(DESIGN CHOICE, log entry 20.) -/
opaque deviceWord (off clk : Nat) : BitVec 64

/-- R412, R413: the byte at an address of the records that the hardware writes in a group's frame at a clk.
(DESIGN CHOICE, log entry 24.) -/
opaque frameByte (clk va : Nat) : BitVec 8

end Sys2Proof.Config
end

