-- ==== Sys2Proof/Machine/Tables.lean ====
section
/-! DEFINITION. Sparse tables keyed by a number, in ascending key order: registers files, slots, entries. -/

namespace Sys2Proof.Machine

/-- A sparse table: the entries that differ from what an absent key reads as, in strictly ascending key order. -/
abbrev Tbl (α : Type) := List (Nat × α)

/-- The entry of a key. -/
def Tbl.find? {α : Type} : Tbl α → Nat → Option α
  | [], _ => none
  | (k, v) :: t, n => if k = n then some v else if n < k then none else Tbl.find? t n

/-- The entry of a key, with what an absent key reads as. -/
def Tbl.get {α : Type} (d : α) (t : Tbl α) (n : Nat) : α := (Tbl.find? t n).getD d

/-- The table with the entry of a key replaced. -/
def Tbl.set {α : Type} : Tbl α → Nat → α → Tbl α
  | [], n, v => [(n, v)]
  | (k, w) :: t, n, v =>
    if k = n then (n, v) :: t else if n < k then (n, v) :: (k, w) :: t else (k, w) :: Tbl.set t n v

/-- The table without the entry of a key. -/
def Tbl.erase {α : Type} : Tbl α → Nat → Tbl α
  | [], _ => []
  | (k, w) :: t, n => if k = n then t else if n < k then (k, w) :: t else (k, w) :: Tbl.erase t n

/-- The keys stand in strictly ascending order. -/
def Tbl.sorted {α : Type} : Tbl α → Bool
  | [] => true
  | [_] => true
  | (k, _) :: (l, w) :: t => decide (k < l) && Tbl.sorted ((l, w) :: t)

/-- The entries whose key and value satisfy a test, as keys. -/
def Tbl.keysWhere {α : Type} (p : Nat → α → Bool) (t : Tbl α) : List Nat :=
  (t.filter fun e => p e.1 e.2).map (·.1)

/-- The first entry whose key and value satisfy a test. -/
def Tbl.first? {α : Type} (p : Nat → α → Bool) : Tbl α → Option (Nat × α)
  | [] => none
  | (k, v) :: t => if p k v then some (k, v) else Tbl.first? p t

/-- Apply a change to every entry. -/
def Tbl.mapVals {α : Type} (f : Nat → α → α) (t : Tbl α) : Tbl α := t.map fun e => (e.1, f e.1 e.2)

/-- The least number below `n` that satisfies a test, counted up from `i`. -/
def leastFrom (p : Nat → Bool) : Nat → Nat → Option Nat
  | 0, _ => none
  | fuel + 1, i => if p i then some i else leastFrom p fuel (i + 1)

/-- The least number below `n` that satisfies a test. -/
def leastBelow (n : Nat) (p : Nat → Bool) : Option Nat := leastFrom p n 0

/-- The first element of a list that no other beats, under "is strictly better than". -/
def bestBy {α : Type} (better : α → α → Bool) : List α → Option α
  | [] => none
  | x :: xs =>
    match bestBy better xs with
    | none => some x
    | some y => if better y x then some y else some x

/-- The list with the element at a position removed. -/
def removeAt {α : Type} : List α → Nat → List α
  | [], _ => []
  | _ :: xs, 0 => xs
  | x :: xs, n + 1 => x :: removeAt xs n

/-- The list with the element at a position replaced. -/
def replaceAt {α : Type} : List α → Nat → α → List α
  | [], _, _ => []
  | _ :: xs, 0, y => y :: xs
  | x :: xs, n + 1, y => x :: replaceAt xs n y

/-- Insert a number into an ascending list without repeats. -/
def insertNat (n : Nat) : List Nat → List Nat
  | [] => [n]
  | k :: t => if n = k then k :: t else if n < k then n :: k :: t else k :: insertNat n t

end Sys2Proof.Machine
end

