-- ==== Sys2Proof/Machine/State.lean ====
section
/-! DEFINITION. The state of the Hjelari 7160 as plain data: threads and their live slots, the fabric's activations and
tokens, bins and contexts, groups and barriers, engines, regions, heaps, queues and grids, memory, tables of the dies,
and the management state. Tables are sparse (Sys2Proof/Machine/Tables.lean): an absent entry stands for the reset value. -/

namespace Sys2Proof.Machine

/-! Tokens, faults and trap records -/

/-- R120: a token; `pair` marks 128-bit data, `tag` is the symbolic tag of R338 and `at` the clk it arrives (R119). -/
structure Token where
  data : Quad
  null : Bool
  pair : Bool
  tag : Option (Nat × DWord)
  arrive : Nat
deriving DecidableEq, Repr

/-- R402: the causes of a thread fault. -/
inductive Cause where
  | encoding | nullBranch | translation | permission | alignment | poison | stageOverrun | barTimeout | heapFault
  | regionFault | regionCapacity | engine | temporalUnavailable | watchpoint | brk | trap
deriving DecidableEq, Repr

/-- R404: a fault found by an activation: its cause, instruction index, address and detail word. -/
structure ThreadFault where
  cause : Cause
  idx : Nat
  va : DWord
  detail : DWord
deriving DecidableEq, Repr

/-- R488: a terminator's step that a fault holds back. -/
inductive Held where
  | none
  | barrier (bar : Nat)
  | rope
  | waitp (ch : Nat) (thr : Word)
  | abegin (abortPath : VAddr)
deriving DecidableEq, Repr

/-- R384, R488: what the thread record keeps beside a trap record: the step that the fault held back, the block and the instruction of
its terminator, and the argument of a retirement that `hdone` decided. -/
structure HeldStep where
  step : Held
  blk : VAddr
  idx : Nat
  arg : Option Word
deriving DecidableEq, Repr

/-- R406: what a trap record holds; `fblk` is what `trap.fblk` reads (R421), and `recorded` tells that the record has been
performed (R405). -/
structure Trap where
  cause : Cause
  nest : Bool
  blk : VAddr
  next : VAddr
  def_ : Bool
  ret : Bool
  va : DWord
  detail : DWord
  fblk : VAddr
  held : HeldStep
  recorded : Bool
deriving DecidableEq, Repr

/-- R149: the record of a deferred load's first failure. -/
structure FailRec where
  cause : Cause
  blk : VAddr
  va : DWord
  detail : DWord
deriving DecidableEq, Repr

/-! Memory requests -/

/-- The memory types of a page (R214). -/
inductive MemType where
  | coherent | nonCoherent | device
deriving DecidableEq, Repr

/-- The atomic operations (R269). -/
inductive AtomicOp where
  | add | minS | maxS | minN | maxN | and | or | xor | xchg | cas | inc | dec | addb | fadd | fadd2 | fmin | fmax
deriving DecidableEq, Repr

/-- What a memory request is for. -/
inductive ReqKind where
  | load | lds | loadAcq (p : Scope) | loadNc | deferred (slot : Nat) (wide : Bool) | prefetch (l2 : Bool)
  | store | storeRel (p : Scope) | storeNc | cwb | cinv | probe
  | atomic (op : AtomicOp) (ar : Option Scope) (ret : Bool)
  | descriptor | frame | record
deriving DecidableEq, Repr

/-- Where a request stands: waiting for a memory port (R119), waiting for a translation, translated and checked, or on its way to
its answer. -/
inductive ReqStage where
  | queued | walking | ready | sent
deriving DecidableEq, Repr

/-- A run of consecutive bytes at one place of memory: location, length, and whether its page is non-coherent host
memory, of which each die may hold its own copy (R263). -/
structure Seg where
  loc : Nat
  len : Nat
  nc : Bool
deriving DecidableEq, Repr

/-- A memory request of an activation; `got` holds the bytes that a split access has read (R224), with their poison, and `due` is
the first clk in which its translation, and then its data, may be there (R21, R217). -/
structure Req where
  idx : Nat
  kind : ReqKind
  va : DWord
  bytes : Nat
  stage : ReqStage
  segs : List Seg
  mt : MemType
  cmp : Quad
  data : Quad
  tag : Option (Nat × DWord)
  t0 : Target
  t1 : Target
  got : List (Byte × Bool)
  due : Nat
deriving DecidableEq, Repr

/-- R228: the kinds of store-buffer entries. -/
inductive BufKind where
  | store | rel (p : Scope) | nc | cwb | cinv
deriving DecidableEq, Repr

/-- R228, R241: a store-buffer entry; `done` counts the bytes of a split one that have been performed (R224), and
`reads` holds the destinations of the deferred loads before it that a release waits for (R251). `carried` marks an entry that a
migration has carried (R261), `epoch` numbers the commit that committed it among those of its thread, `seen` tells that a read
of the thread has taken bytes of it (R242), and `sentAt` is the clk in which it was sent (R445). -/
structure BufEntry where
  idx : Nat
  kind : BufKind
  va : DWord
  segs : List Seg
  mt : MemType
  data : List Byte
  tag : Option (Nat × DWord)
  committed : Bool
  sent : Bool
  done : Nat
  reads : List Nat
  carried : Bool
  epoch : Nat
  seen : Bool
  sentAt : Nat
deriving DecidableEq, Repr

/-- R147: a deferred load under way: destination, source and what it returned before its commit; `epoch` is how many commits of
its thread come before it, `fenced` tells that an acquire or a release event has come after it (R236), `due` is the first clk
in which its data may be there (R21), and `after` names, by `epoch` and instruction, the deferred loads that come before it (R235). -/
structure Deferred where
  idx : Nat
  blk : VAddr
  slot : Nat
  wide : Bool
  va : DWord
  bytes : Nat
  segs : List Seg
  mt : MemType
  committed : Bool
  returned : Option (Option DWord)
  got : List (Byte × Bool)
  epoch : Nat
  fenced : Bool
  due : Nat
  after : List (Nat × Nat)
deriving DecidableEq, Repr

/-- R265, R268: an atomic in a tile's queue, with the clk in which it came, the first clk in which its answer may be there (R264), 
after it was performed its answer, and whether it came while an engine owned its line (R256). -/
structure AtomicReq where
  die : Nat
  tile : Nat
  core : Nat
  slot : Nat
  idx : Nat
  op : AtomicOp
  bytes : Nat
  segs : List Seg
  mt : MemType
  cmp : Quad
  data : Quad
  ret : Bool
  came : Nat
  due : Nat
  behind : Bool
  answer : Option (Option (Quad × Bool))
deriving DecidableEq, Repr

/-! The activation of a block by a thread -/

/-- R131: an operation that has fired and emits later (R123), with its values; `voids` tells that a squashed instance gets null from
it, as from a port that has accepted its request (R133). -/
structure Emission where
  idx : Nat
  due : Nat
  port : Bool
  voids : Bool
  v0 : Token
  v1 : Token
  t0 : Target
  t1 : Target
deriving DecidableEq, Repr

/-- R65: a live-out write in the commit buffer. -/
structure LiveOut where
  slot : Nat
  wide : Bool
  data : DWord
  tag : Option (Nat × DWord)
deriving DecidableEq, Repr

/-- What the terminator has decided (R113, R283, R353, R384, R424-R426). -/
inductive Term where
  | undecided
  | goto (a : VAddr) (link : Option VAddr)
  | retire
  | hdone (w : Option Word)
  | barrier (bar : Nat) (target : VAddr)
  | rope (target : VAddr)
  | waitp (ch : Nat) (target : VAddr) (thr : Word)
  | abegin (entry : VAddr)
  | acommit (target : VAddr)
  | trap (c : Cause) (code : BitVec 15)
  | eret (next : Bool) (blk nxt : DWord)
  | halt
  | fault (f : ThreadFault)
deriving DecidableEq, Repr

/-- R346: a cause of abort that has arisen in an instance: its clk and instruction index, the cause, and the code of an
explicit abort. -/
structure RegionCause where
  clk : Nat
  idx : Nat
  cause : Nat
  code : BitVec 8
deriving DecidableEq, Repr

/-- The block activation of a thread in flight (R121, R124); `fpNext` is the rounding mode that it has written, which stands from its
commit on (R180). -/
structure Inst where
  ctx : Nat
  blk : VAddr
  ft : VAddr
  n : Nat
  admitted : Nat
  tsc : DWord
  fp : BitVec 2
  astat : DWord
  sys : Tbl DWord
  priv : Bool
  asp : Nat
  region : Option Nat
  ar : Bool
  tokens : Tbl Token
  fired : List Nat
  count : Nat
  fullAt : Option Nat
  liveOut : List LiveOut
  reqs : List Req
  emits : List Emission
  judged : List Nat
  performed : List Nat
  checkAt : Option Nat
  term : Term
  squash : Option ThreadFault
  faults : List ThreadFault
  watch : Option ThreadFault
  atomicWrites : List (Nat × DWord × Nat)
  regionCause : Option RegionCause
  firedNow : Option (Nat × Nat)
  fpNext : Option (BitVec 2)
deriving DecidableEq, Repr

/-! Matrix commands -/

/-- R302: an operand descriptor. -/
structure OpDesc where
  base : DWord
  rpitch : Nat
  tpitch : Nat
  rot : Nat
  ch : Nat
  bad : Bool
deriving DecidableEq, Repr

/-- The kinds of matrix command (R315). -/
inductive MatKind where
  | mma | ld (i32 : Bool) | st (raw : Bool)
deriving DecidableEq, Repr

/-- An accepted matrix command (R306, R307, R317); `units` holds the 8-byte units of its operands that
it has read, each with its poison (R309, R481). -/
structure MatCmd where
  kind : MatKind
  group : Nat
  slot : Nat
  core : Nat
  blk : VAddr
  asp : Nat
  idx : Nat
  ac : Nat
  m : Nat
  n : Nat
  k : Nat
  flag : Bool
  gang : Bool
  da : OpDesc
  db : OpDesc
  ea : Word
  eb : Word
  units : Tbl (Nat × Bool)
  step : Nat
  started : Bool
  stopped : Bool
deriving DecidableEq, Repr

/-- R310: an entry of the rendezvous latch. -/
structure LatchEntry where
  grid : Nat
  rope : Nat
  rank : Nat
  cmd : MatCmd
  t1 : Target
  arrived : Nat
deriving DecidableEq, Repr

/-- R312, R414: what is kept of a thread that a save finds in the rendezvous latch: its instance, the events that the instance has
buffered, and its entry of the latch. -/
structure LatchWait where
  inst : Inst
  buf : List BufEntry
  deferred : List Deferred
  entry : LatchEntry
deriving DecidableEq, Repr

/-! Threads -/

/-- R37, R98: where a thread is. A thread on its way to a bin is `filing`, with the context whose commit sent it there, or 4
where no commit did (R100). (DESIGN CHOICE, log entry 54.) -/
inductive Place where
  | free
  | filing (key : Nat)
  | binned (bin : Nat)
  | fifo
  | inFlight
  | barrier (bar : Nat)
  | rope
  | channel (ch : Nat)
  | retiring
  | commitEngine
  | fault
  | saved
  | halted
deriving DecidableEq, Repr

/-- R415, R421: a thread's part in a save: ACT, SCR, ALL, the mask it reads, where it stood, in which mode, the trap it
waited with, what it waited in the latch with, and what the thread record keeps of its wait: the block and the instruction of its
terminator, the argument of `hdone`, and whether it re-enters a region. -/
structure SaveInfo where
  act : Bool
  scr : Bool
  all : Bool
  mask : DWord
  done : Bool
  place : Place
  next : VAddr
  priv : Bool
  trap : Option Trap
  latch : Option LatchWait
  blk : VAddr
  idx : Nat
  arg : Option Word
  again : Bool
deriving DecidableEq, Repr

/-- R98, R149, R243, R273, R335, R421: a thread slot. `filed` is the clk of its filing, and while it is `filing` the first clk in
which it may be filed; `filledAt` and `filled` are the clk of its last deferred fill and the slots filled in that clk (R147);
`badParity` names the live slots whose parity is wrong (R146); `resume` is the wait in the latch that its admission goes on
with after a restore (R416). `reSer` tells that it was filed to the entry of the region that it re-enters to run serialised (R348),
and `epoch` counts its commits (R235). `heldFirst` and `heldNest` are what is kept beside its two trap records (R488), and `engFence` is the clk of its last `fence.eng` (R258). -/
structure Thread where
  place : Place
  group : Nat
  lin : Nat
  next : VAddr
  filed : Nat
  pending : DWord
  idem : VAddr
  priv : Bool
  fpMode : BitVec 2
  live : Tbl Word
  failMask : DWord
  failRec : Option FailRec
  trapBase : DWord
  trapCause : BitVec 8
  trapFblk : DWord
  nestOpen : Bool
  trap : Option Trap
  heldFirst : HeldStep
  heldNest : HeldStep
  engFence : Nat
  save : Option SaveInfo
  arrived : List Nat
  buf : List BufEntry
  unacked : Nat
  deferred : List Deferred
  region : Option Nat
  aborts : Nat
  abortCause : Nat
  abortCode : BitVec 8
  waitThr : Word
  waitSince : Nat
  waitIdx : Nat
  holdArrive : Option Nat
  reenter : Option (VAddr × VAddr)
  reArmed : Bool
  reSer : Bool
  epoch : Nat
  lastId : Bool
  task : Option (Word × Word)
  hdoneArg : Option Word
  command : Option Nat
  haltNext : VAddr
  filledAt : Nat
  filled : DWord
  badParity : DWord
  resume : Option LatchWait
  inst : Option Inst
deriving DecidableEq, Repr

/-! Fabric: blocks, contexts, bins -/

/-- R50: a block as it was fetched. -/
structure Block where
  addr : VAddr
  header : Word
  mask : DWord
  words : List Word
  lits : List Word
deriving DecidableEq, Repr

/-- R105: the conditions of a context. -/
inductive CtxState where
  | free | configuring | opened | closed
deriving DecidableEq, Repr

/-- R117: a configuration context of a core. `closing` holds a closure decided in this clk, which takes effect in the next (R136),
and whether it is a forced one (R109). -/
structure Context where
  state : CtxState
  block : Block
  asp : Nat
  userOk : Bool
  bin : Option Nat
  openAt : Nat
  lastAdmit : Nat
  candidates : List Nat
  idleSince : Nat
  quiet : Bool
  forced : Bool
  closing : Option Bool
  admits : Nat
deriving DecidableEq, Repr

/-- R99: a block bin, with the window that `gather.default` gave it when it was opened (R53) and the translation root through
which its block is read (R58, R101). -/
structure Bin where
  key : Option (Nat × VAddr)
  vec : List Nat
  window : Option Nat
  dflt : Nat
  root : Nat
  fill : Nat
  ctx : Option Nat
  isSealed : Bool
deriving DecidableEq, Repr

/-- R58: a configuration under way: its context, the clk it began and
completes, where its block starts, and what has been read: the words in
ascending order, U of all their pages, the translations used, how many words are to be read, and the read that failed. -/
structure Fetch where
  ctx : Nat
  start : Nat
  due : Nat
  root : Nat
  asp : Nat
  addr : VAddr
  words : List Nat
  user : Bool
  leaves : List (Nat × DWord)
  need : Nat
  failed : Option (Cause × Nat × DWord)
deriving DecidableEq, Repr

/-! Groups -/

/-- R273: why a barrier is broken. -/
inductive Broken where
  | timeout | overrun
deriving DecidableEq, Repr

/-- R273: a named or stage barrier. -/
structure Barrier where
  exp : Nat
  cnt : Nat
  drop : Nat
  bytes : Int
  ph : Word
  brk : Option Broken
  since : Option Nat
deriving DecidableEq, Repr

/-- R400, R414-R418: where a group stands in a pre-emption: not in one, chosen as a victim, saving since a clk, in the pass
that copies its scratchpad, discarded, or placed again and waiting for its restore. -/
inductive SaveStage where
  | none | chosen | saving (start : Nat) | scratch (start : Nat) | discarded | restoring
deriving DecidableEq, Repr

/-- The state a group holds on its core (R24, R273, R421). `clock` counts the clk that its timers count (R279, R281, R312), `saveClk`
those of its save (R417), and `late` holds the writes of its registers that act from the next clk (R422). -/
structure Group where
  grid : Nat
  lin : Nat
  prio : Nat
  carrier : Bool
  spBase : Nat
  spSize : Nat
  slots : List Nat
  live : Nat
  bars : Tbl Barrier
  ropeExp : Nat
  ropeCnt : Nat
  ropeDrop : Nat
  gatherDefault : DWord
  gatherFill : DWord
  barTimeout : DWord
  regionRetry : DWord
  preemptLimit : DWord
  grant : BitVec 16
  gang : List Nat
  temporal : Bool
  placedAt : Nat
  moving : Bool
  entered : Bool
  root : Nat
  save : SaveStage
  halted : Bool
  clock : Nat
  saveClk : Nat
  late : List (Nat × DWord)
deriving DecidableEq, Repr

/-! Engines -/

/-- R287: a copy descriptor. -/
structure CopyDesc where
  src : DWord
  dst : DWord
  x : Nat
  y : Nat
  z : Nat
  spy : DWord
  spz : DWord
  dpy : DWord
  dpz : DWord
  sb : Option Nat
  step : Nat
deriving DecidableEq, Repr

/-- R289: a run that has been issued and not yet performed: its copy, group and slot, where it stands in the copy, and
whether its destination is non-coherent. The bytes of a `dead` one are discarded: its destination lay in the scratchpad of a group
that has retired (R43). -/
structure CopyRun where
  copy : Nat
  group : Nat
  slot : Nat
  pos : Nat
  len : Nat
  src : List Seg
  dst : List Seg
  dstNc : Bool
  sb : Option Nat
  dead : Bool
deriving DecidableEq, Repr

/-- R285: a copy in flight; `gone` holds the scratchpad ranges of groups that have retired since its acceptance (R43). -/
structure Copy where
  id : Nat
  slot : Nat
  group : Nat
  asp : Nat
  user : Bool
  coll : Bool
  ctx : Nat
  desc : CopyDesc
  size : Nat
  issued : Nat
  performed : List (Nat × Nat)
  stalled : Bool
  gone : List (Nat × Nat)
deriving DecidableEq, Repr

/-- R284: a copy channel. -/
structure Channel where
  cfg : Bool
  owner : Nat
  wptr : Word
  iptr : Word
  infl : Nat
  brk : Bool
  cause : BitVec 3
  copies : List Copy
  runs : List CopyRun
deriving DecidableEq, Repr

/-- R300: an accumulator context. -/
structure Acc where
  v : Bool
  owner : Nat
  i32 : Bool
  err : Nat
  pois : Bool
  elems : Tbl Word
deriving DecidableEq, Repr

/-- R320: the state of a temporal array that belongs to its owner. -/
structure Temporal where
  dly : Tbl (BitVec 10)
  inp : Tbl (BitVec 10)
  out : Tbl (BitVec 16)
  w : BitVec 10
  mode : Word
  pois : Bool
  lost : Bool
deriving DecidableEq, Repr

/-- R332: the temporal commands. -/
inductive TempOp where
  | twin (w : BitVec 10) (mode : Word)
  | tload (sel : Bool) (segs : List Seg) (row0 cnt : Nat)
  | tlaunch (chain : Bool)
  | tcap (segs : List Seg)
  | trst
  | tcode (input : Bool) (k j : Nat) (c : BitVec 10)
  | tval (j : Nat)
deriving DecidableEq, Repr

/-- An accepted temporal command (R329); `units` holds, by their place in the command, the bytes that it has read or written already
(R330). -/
structure TempCmd where
  op : TempOp
  slot : Nat
  idx : Nat
  t0 : Target
  t1 : Target
  start : Option Nat
  units : Tbl (Byte × Bool)
deriving DecidableEq, Repr

/-- R320, R326, R327: a core's temporal array: its owner's state, its queue and its physical condition. -/
structure TempArray where
  owner : Option Nat
  st : Temporal
  queue : List TempCmd
  tick : BitVec 2
  margin : BitVec 8
  retry : Word
  idleSince : Nat
deriving DecidableEq, Repr

/-- What waits at a core's engine port (R119, R189). -/
inductive EngOp where
  | cpy (coll : Bool) (ch : Nat) (segs : List Seg)
  | cwptr (acq : Bool) (ch : Nat)
  | cchan (ch : Nat) (free : Bool)
  | mma (a b : Quad) (ctl : DWord) (ra rb : Nat)
  | maccLd (i32 : Bool) (a : Quad) (ctl : DWord) (ra : Nat)
  | maccSt (raw : Bool) (a : Quad) (ctl : DWord) (ra : Nat)
  | mgang (v : DWord)
  | mchan (v : DWord)
  | twin (a b : DWord)
  | tload (sel : Bool) (segs : List Seg) (ctl : DWord)
  | tlaunch (chain : Bool)
  | tcap (segs : List Seg)
  | trst
  | tcode (v sel : DWord)
  | tval (j : DWord)
  | cvtch (m : CvtMod) (a b : DWord)
  | hspawn (segs : List Seg) (b : DWord)
  | hgain (k : Nat) (handle v : Word)
  | hdep (handle : Word)
  | hresid
  | hself
deriving DecidableEq, Repr

/-- A command held at the engine port. -/
structure EngCmd where
  slot : Nat
  idx : Nat
  op : EngOp
  t0 : Target
  t1 : Target
deriving DecidableEq, Repr

/-! Regions -/

/-- R334: a symbolic input of a region. -/
structure RInput where
  va : DWord
  segs : List Seg
  bytes : Nat
  v : Quad
  stale : Bool
  pin : Bool
deriving DecidableEq, Repr

/-- R340: the relations of a constraint. -/
inductive Rel where
  | eq | ne | lt | le | gt | ge
deriving DecidableEq, Repr

/-- R340: a recorded constraint. -/
structure Constraint where
  input : Nat
  c : DWord
  rel : Rel
  signed : Bool
  k : DWord
  tagLeft : Bool
  outcome : Bool
deriving DecidableEq, Repr

/-- R341: a buffered store of a region: concrete data, a record (input, offset), or a cache operation. -/
structure RStore where
  kind : BufKind
  segs : List Seg
  bytes : Nat
  data : Quad
  record : Option (Nat × DWord)
deriving DecidableEq, Repr

/-- R334: a region context; `yieldTo` names the older serialised region that a restarted one waits for (R348). -/
structure Region where
  slot : Nat
  entry : VAddr
  abortPath : VAddr
  snapshot : Tbl Word
  inputs : List RInput
  constraints : List Constraint
  stores : List RStore
  readLines : List Nat
  writeLines : List Nat
  tags : Tbl (Nat × DWord)
  blocks : Nat
  opened : Bool
  ser : Bool
  yieldTo : Option (Nat × Nat)
deriving DecidableEq, Repr

/-- R343: the commit engine at work; `due` is the first clk in which its next line may be locked (R344), once it has asked for it. -/
structure CommitRun where
  slot : Nat
  target : VAddr
  todo : List Nat
  held : List Nat
  due : Option Nat
deriving DecidableEq, Repr

/-! Cores and dies -/

/-- R217: a TLB entry: address space, page base (VA / 64 KiB), page size in 64 KiB granules, and the leaf entry. -/
structure TlbEntry where
  asp : Nat
  base : Nat
  pages : Nat
  leaf : DWord
deriving DecidableEq, Repr

/-- R455: a trace record on its way to the buffer; `who` names the slot, the instruction and the T0 of a `cairn` that waits to be
accepted (R457). -/
structure TraceRec where
  ts : DWord
  src : Nat
  type : Nat
  ctx : Nat
  aux : Word
  d0 : DWord
  d1 : DWord
  who : Option (Nat × Nat × Target)
deriving DecidableEq, Repr

/-- R459: a core's sampler, with the samples that the trace unit has not accepted yet (R461). -/
structure Sampler where
  period : Nat
  start : Nat
  k : Nat
  last : Option Nat
  drops : Nat
  sdrop : Nat
  held : List TraceRec
deriving DecidableEq, Repr

/-- The state of a core (R12); `admitAt` is the clk of its last admission (R107), `filedAll` of the last filing of a whole group
(R100), `lvqAt` of the last writes of its live-value store (R144); `freed` holds the slots that were freed in this clk (R41),
`sfuFree` the clk from which each special-function port is free, `memAt` and `memUsed` how many requests the memory ports
have accepted in a clk, and `memQ` the requests, by slot and instruction, that wait for one in the order of their firings (R119). -/
structure Core where
  threads : Tbl Thread
  groups : Tbl Group
  bins : Tbl Bin
  fifo : List (Nat × Nat × VAddr)
  contexts : Tbl Context
  fetch : Option Fetch
  lastCtx : Nat
  admitAt : Option Nat
  forcing : Bool
  filedAll : Option Nat
  freed : List Nat
  sfuFree : List Nat
  memAt : Nat
  memUsed : Nat
  memQ : List (Nat × Nat)
  lvqAt : Option Nat
  lvq : Tbl (List (Nat × Nat))
  peNext : Tbl Nat
  bankFree : Tbl Nat
  tlb : List TlbEntry
  l1 : List Nat
  regions : Tbl Region
  commitQ : List (Nat × VAddr)
  commit : Option CommitRun
  channels : Tbl Channel
  chan : Tbl Word
  accs : Tbl Acc
  matQ : List MatCmd
  matLast : Nat
  temp : TempArray
  port : List EngCmd
  sampler : Sampler
  excess : Tbl Nat
  lastFire : Tbl Nat
deriving DecidableEq, Repr

/-- R454, R457: a die's trace unit. -/
structure Trace where
  base : DWord
  log2n : Nat
  en : Bool
  widx : Word
  ridx : Word
  drop : Nat
  mask : BitVec 7
  queue : List TraceRec
  offered : List TraceRec
  acceptAt : Option Nat
  gap : Nat
  gapTs : DWord
deriving DecidableEq, Repr

/-- R313: a census entry. -/
structure Census where
  blk : VAddr
  idx : Nat
  asp : Nat
  nan : Nat
  inf : Nat
  sat : Nat
  unf : Nat
deriving DecidableEq, Repr

/-- R360, R363: a task. -/
structure Task where
  frame : List Byte
  g : Word
  q : Word
  c : Nat
  running : Bool
  drained : Bool
  under : Bool
  ran : Bool
  valid : Bool
  lent : Option Nat
  pendSince : Option Nat
  onChip : Bool
deriving DecidableEq, Repr

/-- R383: a heap operation on its way to a heap. -/
inductive HeapOp where
  | spawn (frame : List Byte) (gain : Word) (cnt : Nat)
  | gain (k : Nat) (handle v : Word)
  | dep (handle : Word)
  | refuse (code : Nat) (handle : Word)
deriving DecidableEq, Repr

/-- R365, R383: an entry of a heap's queue, and its reply. -/
structure HeapReq where
  core : Nat
  slot : Nat
  idx : Nat
  op : HeapOp
  due : Nat
  delay : Nat
  t0 : Target
  t1 : Target
deriving DecidableEq, Repr

/-- A reply on its way back (R383); `resid` marks the reading of the home register (R385). -/
structure HeapAns where
  core : Nat
  slot : Nat
  idx : Nat
  due : Nat
  v0 : Option DWord
  v1 : Option DWord
  resid : Bool
  fault : Option ThreadFault
  t0 : Target
  t1 : Target
deriving DecidableEq, Repr

/-- R355: a die's summit heap; `opAt` and `popAt` are the clk of its last operation and of its last pop (R365). -/
structure Heap where
  grid : Option Nat
  tasks : Tbl Task
  nextIdx : Nat
  queue : List HeapReq
  under : Nat
  stalled : Bool
  creating : List (Nat × Nat × Nat × Nat × Word × Word)
  opAt : Option Nat
  popAt : Option Nat
deriving DecidableEq, Repr

/-- R432: a region entry of the directory: four owner nibbles and DV. -/
structure DirEntry where
  own : BitVec 16
  dv : BitVec 8
deriving DecidableEq, Repr

/-- R433: a request at a home slice, with the dies still to answer its probes once it has begun, and the incarnation number of its
sender (R446). -/
structure DirReq where
  line : Nat
  from_ : Nat
  write : Bool
  begun : Bool
  waiting : List Nat
  inc : BitVec 16
deriving DecidableEq, Repr

/-- R449: a die's error counters. -/
structure ErrCounters where
  refused : Nat
  late : Nat
  retry : Nat
  lfail : Nat
  corr : Nat
  uncorr : Nat
  parity : Nat
  poison : Nat
deriving DecidableEq, Repr

/-- The state of a die. `dirQ` holds the requests at its home slice, `probes` the lines whose probes it has still to answer
(with their home, and whether they invalidate), `grants` the granted lines that no access has used yet (R433), `wanted` the private
granules of its class entries that an access of another agent waits for (R436), `classes` the copies of class entries that it keeps of
other class homes (R437). `l2` holds the lines of its L2, those of non-coherent host memory among them, whose bytes are `nc` and
whose written bytes are `ncDirty` (R263). `retries` counts by link the retries of the flit under way (R439), and `lossSel` chooses a time-loss counter (R458). Entries 8
and 9 are the I/O dies, whose `dir` is the host filter of their port by line (R442). -/
structure Die where
  fused : Bool
  modeDue : Option Nat
  tlb : List TlbEntry
  tiles : List AtomicReq
  heap : Heap
  latch : List LatchEntry
  census : Tbl Census
  censusOverflow : Nat
  trace : Trace
  errors : ErrCounters
  energy : Tbl Nat
  dieCap : DWord
  hot : Bool
  tscOff : Int
  serial : Option (Nat × Nat × DWord)
  serialWait : List (Nat × Nat × Nat)
  l2 : List Nat
  nc : Tbl Byte
  ncDirty : List Nat
  dir : Tbl DirEntry
  filter : Tbl (List Nat)
  granules : Tbl (BitVec 13)
  dirQ : List DirReq
  probes : List (Nat × Nat × Bool)
  grants : List Nat
  wanted : List Nat
  classes : Tbl (BitVec 13)
  retries : Tbl Nat
  lossSel : DWord
  dead : Bool
  rerouted : List Nat
  tscAt : Nat
  tscBack : Bool
  energyAt : Nat
deriving DecidableEq, Repr

/-! Launch -/

/-- R392: a launch record, read. -/
structure LaunchRec where
  entry : DWord
  args : DWord
  image : DWord
  gx : Nat
  gy : Nat
  gz : Nat
  bx : Nat
  by_ : Nat
  bz : Nat
  ropeG : Nat
  ropeP : Nat
  scratch : Nat
  live : Nat
  prio : Nat
  rm : BitVec 2
  fused : Bool
  order : Bool
  grant : BitVec 16
  wait : DWord
  wval : DWord
  done : DWord
  heap : DWord
  tbase : DWord
  faults : DWord
  biv : DWord
  mbz : Bool
deriving DecidableEq, Repr

/-- R389: a queue control block, with the records taken and not yet started and how many of the waits of R393 its head
record has passed; `seen` holds the line of its counter as it was read (R393). -/
structure Queue where
  en : Bool
  ctx : Nat
  ctxBits : Nat
  ridx : Word
  dcnt : BitVec 40
  dstat : Nat
  dslot : Nat
  taken : List (Nat × LaunchRec)
  stage : Nat
  heapDesc : Option (List Byte)
  open_ : Nat
  seen : Option (Nat × List Byte)
deriving DecidableEq, Repr

/-- R396: a context entry. -/
structure CtxEntry where
  en : Bool
  maxp : Nat
  root : Nat
  slice : Nat
deriving DecidableEq, Repr

/-- R280: a rope's barrier. -/
structure RopeBar where
  brk : Bool
  due : Option Nat
  retired : List Nat
  inited : List Nat
deriving DecidableEq, Repr

/-- R356, R373-R379: what a heap grid adds to a grid. The home register holds `resid` and, for the test of R375, how many
tasks are pending or running; a change waits in `incl` until it is included. -/
structure HeapGrid where
  tbase : DWord
  dbase : DWord
  dcap : Nat
  mask : BitVec 8
  utrap : Bool
  cap : Nat
  tol : DWord
  spread : Nat
  resid : Int
  active : Int
  incl : List (Nat × Int × Int)
  effects : List (Nat × Bool × DWord)
  settled : Option (Nat × Bool)
  tset : DWord
  stopped : Bool
  drained : Option (Nat × Nat)
  complete : Bool
deriving DecidableEq, Repr

/-- R412, R415: a saved group: its group state and, by linear thread, its threads that are
not yet restored; the engine state it owned; the core and the number that it had; `begun` tells that its restore has read the group
record (R416). -/
structure SavedGroup where
  group : Group
  threads : List (Nat × Thread)
  chan : Tbl Word
  channels : Tbl Channel
  accs : Tbl Acc
  temp : Option Temporal
  core : Nat
  discarded : Bool
  at_ : Nat
  begun : Bool
  num : Nat
deriving DecidableEq, Repr

/-- R398: a blocked unit: a rope number, and for a unit that was pre-empted the clk. -/
structure BlockedUnit where
  rope : Nat
  preempted : Option Nat
deriving DecidableEq, Repr

/-- A grid that has started (R24). -/
structure Grid where
  queue : Nat
  slot : Nat
  ctx : Nat
  launch : LaunchRec
  ropes : Tbl RopeBar
  unplaced : Nat
  blocked : List BlockedUnit
  reserved : List (Nat × Nat)
  resident : List (Nat × Nat)
  saved : Tbl SavedGroup
  retired : Nat
  heap : Option HeapGrid
  ended : Option Nat
deriving DecidableEq, Repr

/-! Management -/

/-- R466: a fault report that the driver has not yet answered. -/
structure Report where
  kind : Nat
  cause : Nat
  ident : Word
  va : DWord
  recAddr : DWord
  detail : DWord
  joined : List (Nat × Nat)
deriving DecidableEq, Repr

/-- R469: attestation state; `exhausted` is the status "signatures exhausted" of the last quote that was asked for. -/
structure Attest where
  qblk : Nat
  used : Nat
  hasBlock : Bool
  exhausted : Bool
deriving DecidableEq, Repr

/-- R465, R467: management state of the module. `cmdOp` is the first half of a driver's command (R466) and `invCount` the number of
granules of an invalidation (R219). `notices` holds the agents of whose death the driver has been notified (R447). `small` says that it is of the grade 7080 (R18); `gone` holds the dead agents other than Tukan dies: 8 and 9 the host
ports, 10 the I/O die 9, 16 + n peer n (R446). -/
structure Mgmt where
  small : Bool
  ready : Bool
  attest : Attest
  ctxs : Tbl CtxEntry
  watch : Tbl DWord
  peers : Tbl Quad
  ringBase : DWord
  ringSize : DWord
  ringNext : Nat
  cmdOp : DWord
  invCount : DWord
  invDone : Bool
  invPending : Bool
  hostPorts : BitVec 2
  standby : Bool
  absent : List Nat
  gone : List Nat
  notices : List Nat
  down : Bool
deriving DecidableEq, Repr

/-! The device -/

/-- R431: a request of an agent outside the module: 8 and 9 the host ports, 16 + n peer n; the bytes that it writes, or how many it
reads. (DESIGN CHOICE, log entry 45.) -/
structure OutReq where
  agent : Nat
  pa : Nat
  data : Option (List Byte)
  len : Nat
deriving DecidableEq, Repr

/-- What the machine does next, chosen from outside: one firing, one machine step with its arguments, one clk, or an act of the outside
world that has no row of the opcode table. -/
inductive Choice where
  | fire (core slot idx : Nat)
  | event (i : Instr) (args : List Nat)
  | tick
  | hostStore (pa : Nat) (bytes : List Byte)
  | windowStore (off : Nat) (bytes : List Byte)
  | parityError (core slot pe : Nat)
  | slotParity (core slot live : Nat)
  | softError (die loc : Nat) (corrected : Bool)
  | directoryError (die line : Nat)
  | flitRetry (die peer : Nat)
  | flitSent (die peer : Nat)
  | outer (r : OutReq)
  | filterError (die line : Nat)
  | heapError (die grid : Nat)
  | l1Parity (core line : Nat) (dirty : Bool)
  | flipToken (core slot port bit : Nat)
  | flipResult (core slot idx bit : Nat) (live : Bool)
  | flipAcc (core acc elem bit : Nat)
  | flipCopy (core chan run loc bit : Nat)
  | peerReport (peer : Nat) (incarnation : BitVec 16)
  | powerCycle
  | evictL1 (core line : Nat)
  | evictL2 (die line : Nat)
  | evictRegion (die region : Nat)
  | evictFilter (die line : Nat)
  | evictClass (die granule : Nat)
  | oldByte (loc : Nat) (on : Bool)
  | tempUnit (core unit : Nat)
deriving DecidableEq, Repr

/-- The firing in progress: core, thread slot and instruction index. -/
structure Focus where
  core : Nat
  slot : Nat
  idx : Nat
deriving DecidableEq, Repr

/-- The state of the module. `hostQ` holds the accesses of hosts and peers that wait for their lines (R256, R344), and `hostGot` what
their reads have returned, by agent and address, none where it is poison (R431). `before` holds what bytes held before they were last
written by a copy or a thread's store, with the clk of that write, and `oldBytes` the bytes of which the engines' reads return that
older value where no `fence.eng` forbids it (R258, R309). -/
structure State where
  clk : Nat
  urgent : List Choice
  agenda : List Choice
  cur : Focus
  args : List Nat
  mem : List Host.Cell
  poison : List Nat
  locks : List (Nat × Nat × Nat)
  owned : List (Nat × Nat × Nat)
  hostQ : List OutReq
  hostGot : List (Nat × Nat × Option (List Byte))
  before : Tbl (Byte × Nat)
  oldBytes : List Nat
  cores : Tbl Core
  dies : Tbl Die
  queues : Tbl Queue
  grids : Tbl Grid
  nextGrid : Nat
  lastServed : Tbl Nat
  placeClk : Option Nat
  reports : List Report
  incarnations : Tbl (BitVec 16)
  mgmt : Mgmt
  copyNext : Nat
  replies : List HeapAns
  cfginvs : List (Nat × Nat × Nat × Nat × Nat × Nat)
deriving DecidableEq, Repr

/-! Stops -/

/-- The machine stops. -/
inductive Fault where
  /-- Raised by `step` when the module is shut down (R468): no further step is described. Safe: the device does nothing
  that the model leaves out. -/
  | moduleDown
deriving DecidableEq, Repr

/-- The machine gives no meaning. -/
inductive Refusal where
  /-- An instruction that the model gives no meaning yet. Safe. -/
  | notModelled (mnemonic : String)
  /-- Raised by `step` when it is asked to fire a word of a configured block that no instruction has. A block with such
  a word is rejected before it is configured (R76), so no run reaches this. Safe. -/
  | undecodable
deriving DecidableEq, Repr

/-- The outcome of a meaning. -/
abbrev Res := Host.Outcome State Fault Refusal

/-! Reset values -/

/-- R280: a rope barrier at the grid's start. -/
def RopeBar.reset : RopeBar := ⟨false, none, [], []⟩


/-- The cause code of R402. -/
def Cause.code : Cause → Nat
  | .encoding => 1 | .nullBranch => 2 | .translation => 3 | .permission => 4 | .alignment => 5 | .poison => 6
  | .stageOverrun => 7 | .barTimeout => 8 | .heapFault => 9 | .regionFault => 10 | .regionCapacity => 11
  | .engine => 12 | .temporalUnavailable => 13 | .watchpoint => 14 | .brk => 15 | .trap => 16

/-- R98: a free slot holds no thread and every other field of it reads as zero. (DESIGN CHOICE, log entry 42.) -/
def Thread.reset : Thread where
  place := .free
  group := 0
  lin := 0
  next := 0
  filed := 0
  pending := 0
  idem := 0
  priv := false
  fpMode := 0
  live := []
  failMask := 0
  failRec := none
  trapBase := 0
  trapCause := 0
  trapFblk := 0
  nestOpen := false
  trap := none
  heldFirst := ⟨.none, 0, 0, none⟩
  heldNest := ⟨.none, 0, 0, none⟩
  engFence := 0
  save := none
  arrived := []
  buf := []
  unacked := 0
  deferred := []
  region := none
  aborts := 0
  abortCause := 0
  abortCode := 0
  waitThr := 0
  waitSince := 0
  waitIdx := 0
  holdArrive := none
  reenter := none
  reArmed := false
  reSer := false
  epoch := 0
  lastId := false
  task := none
  hdoneArg := none
  command := none
  haltNext := 0
  filledAt := 0
  filled := 0
  badParity := 0
  resume := none
  inst := none

/-- A block that holds nothing. -/
def Block.empty : Block := ⟨0, 0, 0, [], []⟩

/-- R105: a context that was never configured. Its quiescence bit is set (R135). -/
def Context.reset : Context where
  state := .free
  block := Block.empty
  asp := 0
  userOk := true
  bin := none
  openAt := 0
  lastAdmit := 0
  candidates := []
  idleSince := 0
  quiet := true
  forced := false
  closing := none
  admits := 0

/-- R99: a free bin. -/
def Bin.reset : Bin := ⟨none, [], none, 0, 0, 1, none, false⟩

/-- R284: a channel at reset. -/
def Channel.reset : Channel := ⟨false, 0, 0, 0, 0, false, 0, [], []⟩

/-- R300: an accumulator context at reset. -/
def Acc.reset : Acc := ⟨false, 0, false, 0, false, []⟩

/-- R320: temporal state at reset. -/
def Temporal.reset : Temporal := ⟨[], [], [], 1023, 0, false, false⟩

/-- R320, R327: a core's temporal array at reset, with the tick and margin of calibration. (DESIGN CHOICE, log entry 17.) -/
def TempArray.reset (core : Nat) : TempArray where
  owner := none
  st := Temporal.reset
  queue := []
  tick := Config.calibratedTick core
  margin := Config.calibratedMargin core
  retry := 0
  idleSince := 0

/-- R459: a sampler at reset. -/
def Sampler.reset : Sampler := ⟨0, 0, 0, none, 0, 0, []⟩

/-- A core at reset, by its global number. (DESIGN CHOICE, log entry 42.) -/
def Core.reset (c : Nat) : Core where
  threads := []
  groups := []
  bins := []
  fifo := []
  contexts := []
  fetch := none
  lastCtx := 3
  admitAt := none
  forcing := false
  filedAll := none
  freed := []
  sfuFree := [0, 0]
  memAt := 0
  memUsed := 0
  memQ := []
  lvqAt := none
  lvq := []
  peNext := []
  bankFree := []
  tlb := []
  l1 := []
  regions := []
  commitQ := []
  commit := none
  channels := []
  chan := []
  accs := []
  matQ := []
  matLast := 3
  temp := TempArray.reset c
  port := []
  sampler := Sampler.reset
  excess := []
  lastFire := []

/-- R454: a trace unit at reset. -/
def Trace.reset : Trace := ⟨0, 12, false, 0, 0, 0, 0, [], [], none, 0, 0⟩

/-- R355: a heap that is free. -/
def Heap.reset : Heap := ⟨none, [], 0, [], 0, false, [], none, none⟩

/-- R463: DIECAP at reset: MAXMA 256, MAXTA 256, MAXCH 4,096. -/
def dieCapReset : DWord := BitVec.ofNat 64 (256 + 256 * 2 ^ 9 + 4096 * 2 ^ 18)

/-- A die at reset. (DESIGN CHOICE, log entry 42.) -/
def Die.reset : Die where
  fused := false
  modeDue := none
  tlb := []
  tiles := []
  heap := Heap.reset
  latch := []
  census := []
  censusOverflow := 0
  trace := Trace.reset
  errors := ⟨0, 0, 0, 0, 0, 0, 0, 0⟩
  energy := []
  dieCap := dieCapReset
  hot := false
  tscOff := 0
  serial := none
  serialWait := []
  l2 := []
  nc := []
  ncDirty := []
  dir := []
  filter := []
  granules := []
  dirQ := []
  probes := []
  grants := []
  wanted := []
  classes := []
  retries := []
  lossSel := 0
  dead := false
  rerouted := []
  tscAt := 0
  tscBack := false
  energyAt := 0

/-- R389: a queue at reset. -/
def Queue.reset : Queue := ⟨false, 0, 0, 0, 0, 0, 0, [], 0, none, 0, none⟩

/-- R396: a context entry at reset. -/
def CtxEntry.reset : CtxEntry := ⟨false, 0, 0, 0⟩

/-- R465, R469: management state at reset; every step of bring-up has still to pass, so READY is 0 (R467).
(DESIGN CHOICE, log entry 42.) -/
def Mgmt.reset : Mgmt where
  small := false
  ready := false
  attest := ⟨1024, 0, false, false⟩
  ctxs := []
  watch := []
  peers := []
  ringBase := 0
  ringSize := 0
  ringNext := 0
  cmdOp := 0
  invCount := 0
  invDone := true
  invPending := false
  hostPorts := 0
  standby := false
  absent := []
  gone := []
  notices := []
  down := false

/-- The module right after reset: no queue enabled, no grid, no thread, every core, die and management register at its
reset value, memory with nothing listed. (DESIGN CHOICE, log entry 42.) -/
def State.reset : State where
  clk := 0
  urgent := []
  agenda := []
  cur := ⟨0, 0, 0⟩
  args := []
  mem := []
  poison := []
  locks := []
  owned := []
  hostQ := []
  hostGot := []
  before := []
  oldBytes := []
  cores := []
  dies := []
  queues := []
  grids := []
  nextGrid := 0
  lastServed := []
  placeClk := none
  reports := []
  incarnations := []
  mgmt := Mgmt.reset
  copyNext := 0
  replies := []
  cfginvs := []

end Sys2Proof.Machine
end

