-- ==== Sys2Proof/Machine/Access.lean ====
section
/-! DEFINITION. The named operations over registers, memory bytes and tokens that every meaning uses: reading and writing
one component of the state, the single list of memory bytes, firing and emission (R122, R123, R129, R131), and the
pinning of symbolic inputs (R339). -/

namespace Sys2Proof.Machine

/-! Cores, dies, threads -/

/-- R13: the number of cores before a die's first core. -/
def dieOf (c : Nat) : Nat := c / Config.coresPerDie

/-- A core by its global number. -/
def State.core (s : State) (c : Nat) : Core := Tbl.get (Core.reset c) s.cores c
/-- Replace a core. -/
def State.setCore (s : State) (c : Nat) (x : Core) : State := { s with cores := Tbl.set s.cores c x }
/-- Change a core. -/
def State.modCore (s : State) (c : Nat) (f : Core → Core) : State := s.setCore c (f (s.core c))
/-- A die. -/
def State.die (s : State) (d : Nat) : Die := Tbl.get Die.reset s.dies d
/-- Replace a die. -/
def State.setDie (s : State) (d : Nat) (x : Die) : State := { s with dies := Tbl.set s.dies d x }
/-- Change a die. -/
def State.modDie (s : State) (d : Nat) (f : Die → Die) : State := s.setDie d (f (s.die d))

/-- A thread slot of a core (R98). -/
def Core.thread (x : Core) (sl : Nat) : Thread := Tbl.get Thread.reset x.threads sl
/-- Replace a thread slot. -/
def Core.setThread (x : Core) (sl : Nat) (t : Thread) : Core := { x with threads := Tbl.set x.threads sl t }
/-- Change a thread slot. -/
def Core.modThread (x : Core) (sl : Nat) (f : Thread → Thread) : Core := x.setThread sl (f (x.thread sl))
/-- R98: a freed slot reads as the reset slot, so it is listed no more. -/
def Core.freeThread (x : Core) (sl : Nat) : Core := { x with threads := Tbl.erase x.threads sl }

/-- The thread of a core's slot. -/
def State.thread (s : State) (c sl : Nat) : Thread := (s.core c).thread sl
/-- Change the thread of a core's slot. -/
def State.modThread (s : State) (c sl : Nat) (f : Thread → Thread) : State := s.modCore c fun x => x.modThread sl f
/-- Change the instance of a thread in flight. -/
def Thread.modInst (t : Thread) (f : Inst → Inst) : Thread :=
  match t.inst with
  | some x => { t with inst := some (f x) }
  | none => t
/-- Change the instance of a thread in flight. -/
def State.modInst (s : State) (c sl : Nat) (f : Inst → Inst) : State := s.modThread c sl fun t => t.modInst f

/-- A group that holds nothing. (DESIGN CHOICE, log entry 42.) -/
def Group.reset : Group where
  grid := 0
  lin := 0
  prio := 0
  carrier := false
  spBase := 0
  spSize := 0
  slots := []
  live := 0
  bars := []
  ropeExp := 0
  ropeCnt := 0
  ropeDrop := 0
  gatherDefault := 64
  gatherFill := 32
  barTimeout := 0
  regionRetry := 4
  preemptLimit := 1000000
  grant := 0
  gang := []
  temporal := false
  placedAt := 0
  moving := false
  entered := false
  root := 0
  save := .none
  halted := false
  clock := 0
  saveClk := 0
  late := []

/-- A group of a core. -/
def Core.group (x : Core) (g : Nat) : Group := Tbl.get Group.reset x.groups g
/-- Change a group of a core that is resident there. -/
def Core.modGroup (x : Core) (g : Nat) (f : Group → Group) : Core :=
  match Tbl.find? x.groups g with
  | some y => { x with groups := Tbl.set x.groups g (f y) }
  | none => x
/-- A group of a core. -/
def State.group (s : State) (c g : Nat) : Group := (s.core c).group g
/-- Change a group of a core. -/
def State.modGroup (s : State) (c g : Nat) (f : Group → Group) : State := s.modCore c fun x => x.modGroup g f

/-- A context of a core. -/
def Core.context (x : Core) (k : Nat) : Context := Tbl.get Context.reset x.contexts k
/-- Change a context of a core. -/
def Core.modContext (x : Core) (k : Nat) (f : Context → Context) : Core :=
  { x with contexts := Tbl.set x.contexts k (f (x.context k)) }
/-- A bin of a core. -/
def Core.bin (x : Core) (b : Nat) : Bin := Tbl.get Bin.reset x.bins b
/-- Change a bin of a core. -/
def Core.modBin (x : Core) (b : Nat) (f : Bin → Bin) : Core := { x with bins := Tbl.set x.bins b (f (x.bin b)) }
/-- R284: a copy channel of a core. -/
def Core.channel (x : Core) (k : Nat) : Channel := Tbl.get Channel.reset x.channels k
/-- Change a copy channel. -/
def Core.modChannel (x : Core) (k : Nat) (f : Channel → Channel) : Core :=
  { x with channels := Tbl.set x.channels k (f (x.channel k)) }
/-- R300: an accumulator context of a core. -/
def Core.acc (x : Core) (k : Nat) : Acc := Tbl.get Acc.reset x.accs k
/-- Change an accumulator context. -/
def Core.modAcc (x : Core) (k : Nat) (f : Acc → Acc) : Core := { x with accs := Tbl.set x.accs k (f (x.acc k)) }
/-- Change a region context that is held (R334). -/
def Core.modRegion (x : Core) (k : Nat) (f : Region → Region) : Core :=
  match Tbl.find? x.regions k with
  | some r => { x with regions := Tbl.set x.regions k (f r) }
  | none => x

/-- A launch record of zeros. (DESIGN CHOICE, log entry 42.) -/
def LaunchRec.reset : LaunchRec where
  entry := 0
  args := 0
  image := 0
  gx := 1
  gy := 1
  gz := 1
  bx := 1
  by_ := 1
  bz := 1
  ropeG := 1
  ropeP := 1
  scratch := 0
  live := 1
  prio := 0
  rm := 0
  fused := false
  order := false
  grant := 0
  wait := 0
  wval := 0
  done := 0
  heap := 0
  tbase := 0
  faults := 0
  biv := 0
  mbz := true

/-- A grid with nothing placed. (DESIGN CHOICE, log entry 42.) -/
def Grid.reset : Grid where
  queue := 0
  slot := 0
  ctx := 0
  launch := LaunchRec.reset
  ropes := []
  unplaced := 0
  blocked := []
  reserved := []
  resident := []
  saved := []
  retired := 0
  heap := none
  ended := none

/-- A grid by its number. -/
def State.grid (s : State) (g : Nat) : Grid := Tbl.get Grid.reset s.grids g
/-- Change a grid that exists. -/
def State.modGrid (s : State) (g : Nat) (f : Grid → Grid) : State :=
  match Tbl.find? s.grids g with
  | some x => { s with grids := Tbl.set s.grids g (f x) }
  | none => s
/-- A queue. -/
def State.queue (s : State) (q : Nat) : Queue := Tbl.get Queue.reset s.queues q
/-- Change a queue. -/
def State.modQueue (s : State) (q : Nat) (f : Queue → Queue) : State :=
  { s with queues := Tbl.set s.queues q (f (s.queue q)) }
/-- A context entry (R396). -/
def State.ctxEntry (s : State) (k : Nat) : CtxEntry := Tbl.get CtxEntry.reset s.mgmt.ctxs k
/-- Change a fact of the management state. -/
def State.modMgmt (s : State) (f : Mgmt → Mgmt) : State := { s with mgmt := f s.mgmt }

/-- The group of a thread's slot. -/
def State.groupOf (s : State) (c sl : Nat) : Group := s.group c (s.thread c sl).group
/-- The grid of a thread's slot. -/
def State.gridOf (s : State) (c sl : Nat) : Grid := s.grid (s.groupOf c sl).grid
/-- R35: the address space of a thread. -/
def State.aspOf (s : State) (c sl : Nat) : Nat := (s.gridOf c sl).ctx

/-- R397: the translation root of a thread, as it stood when its group was placed. -/
def State.rootOf (s : State) (c sl : Nat) : Nat := (s.groupOf c sl).root

/-- R451: the timestamp of a die, in ns: the device's clk count and the die's offset. In the clk of a correction backwards
the copy has still the value that it had, and it stands still for the ns that follows. (DEDUCED, log entry 50.) -/
def State.tsc (s : State) (d : Nat) : DWord :=
  let x := s.die d
  BitVec.ofInt 64 ((s.clk : Int) + x.tscOff + (if x.tscBack && x.tscAt == s.clk then 1 else 0))

/-- An argument of the machine step in progress. -/
def State.arg (s : State) (n : Nat) : Nat := s.args.getD n 0
/-- Queue a choice before everything else. -/
def State.urge (s : State) (k : Choice) : State := { s with urgent := s.urgent ++ [k] }

/-! Memory bytes. One list holds every byte: a physical address below 2^52 (R210), byte `o` of the scratchpad of global
core `c` at 2^52 + c * 2^18 + o, and byte `o` of the launch window (R388) at 2^53 + o. -/

/-- Where the scratchpad bytes stand. (DESIGN CHOICE, log entry 2.) -/
def spLoc (c off : Nat) : Nat := 2 ^ 52 + c * 2 ^ 18 + off
/-- Where the launch window's bytes stand. (DESIGN CHOICE, log entry 2.) -/
def winLoc (off : Nat) : Nat := 2 ^ 53 + off
/-- Is the place a scratchpad byte? -/
def isSp (loc : Nat) : Bool := decide (2 ^ 52 ≤ loc) && decide (loc < 2 ^ 53)

/-- What a byte that nothing has written reads as. (DESIGN CHOICE, log entry 3.) -/
def memDefault : Byte := 0

/-- The byte at a place. (DESIGN CHOICE, log entry 2.) -/
def memRead : List Host.Cell → Nat → Byte
  | [], _ => memDefault
  | (k, v) :: t, a => if k = a then v else if a < k then memDefault else memRead t a

/-- Write a byte; the byte that an unlisted place reads as removes the entry. (DESIGN CHOICE, log entry 2.) -/
def memWrite : List Host.Cell → Nat → Byte → List Host.Cell
  | [], a, v => if v = memDefault then [] else [(a, v)]
  | (k, w) :: t, a, v =>
    if k = a then (if v = memDefault then t else (a, v) :: t)
    else if a < k then (if v = memDefault then (k, w) :: t else (a, v) :: (k, w) :: t)
    else (k, w) :: memWrite t a v

/-- The canonical form: strictly rising places above a bound, and no entry that equals what an unlisted place reads as. -/
def memWfFrom : Option Nat → List Host.Cell → Bool
  | _, [] => true
  | lo, (k, v) :: t =>
    (match lo with | none => true | some b => decide (b < k)) && decide (v ≠ memDefault) && memWfFrom (some k) t

/-- The canonical form of memory. (DESIGN CHOICE, log entry 2.) -/
def Memory.wf (m : List Host.Cell) : Bool := memWfFrom none m

/-- Write consecutive bytes. -/
def memWriteAll : List Host.Cell → Nat → List Byte → List Host.Cell
  | m, _, [] => m
  | m, a, v :: t => memWriteAll (memWrite m a v) (a + 1) t

/-- Read consecutive bytes. -/
def memReadAll (m : List Host.Cell) : Nat → Nat → List Byte
  | _, 0 => []
  | a, n + 1 => memRead m a :: memReadAll m (a + 1) n

/-- R3: a list of bytes read as a number, the first byte least significant. -/
def bytesToNat : List Byte → Nat
  | [] => 0
  | b :: t => b.toNat + 256 * bytesToNat t

/-- R3: the low `n` bytes of a number, the least significant first. -/
def natToBytes : Nat → Nat → List Byte
  | 0, _ => []
  | n + 1, x => BitVec.ofNat 8 x :: natToBytes n (x / 256)

/-! The physical map -/

/-- R18: the grade of the module. (DESIGN CHOICE, log entry 47.) -/
def State.grade (s : State) : Nat := if s.mgmt.small then 7080 else 7160
/-- R10, R18: how many compute dies are fitted, 0 to 7 or 0 to 3. (DESIGN CHOICE, log entry 47.) -/
def State.fitted (s : State) : Nat := if s.mgmt.small then 4 else 8

/-- R210: what a physical address names. -/
inductive PaKind where
  | hbm | tier2 | nothing | device | host (port : Nat) | peer (n : Nat)
deriving DecidableEq, Repr

/-- R210. (DESIGN CHOICE, log entry 47.) -/
def paKind (s : State) (pa : Nat) : PaKind :=
  let top := pa / 2 ^ 50 % 4
  if top = 0 then
    (if pa < 2 ^ 40 then (if s.mgmt.small ∧ 2 ^ 39 ≤ pa then .nothing else .hbm)
     else if pa < 2 ^ 42 then .tier2 else .nothing)
  else if top = 1 then .device
  else if top = 2 then .host (pa / 2 ^ 49 % 2)
  else
    let n := pa / 2 ^ 40 % 2 ^ 10
    if (Tbl.get 0 s.mgmt.peers n).getLsbD 127 then .peer n else .nothing

/-- R211: the home die of HBM and second-tier bytes. -/
def homeOf (s : State) (pa : Nat) : Option Nat :=
  match paKind s pa with
  | .hbm => some (pa / 2 ^ 37 % 8)
  | .tier2 => some (pa / 512 % s.fitted)
  | _ => none

/-- R223, R447, R448: bytes that a dead agent has taken with it: the memory homed on a dead die and the scratchpads of its
cores, host memory behind a port whose link is down, peers that are dead, the second-tier bytes behind the ports of a lost
I/O die, and with die 8 the launch window. (DEDUCED, log entry 13.) -/
def State.lost (s : State) (loc : Nat) : Bool :=
  if s.mgmt.gone.isEmpty && !s.mgmt.standby && s.dies.all (fun e => !e.2.dead) then false
  else if 2 ^ 53 ≤ loc then s.mgmt.standby
  else if 2 ^ 52 ≤ loc then (s.die (dieOf ((loc - 2 ^ 52) / 2 ^ 18))).dead
  else
    let dead9 := s.mgmt.gone.contains 10
    (match homeOf s loc with | some h => (s.die h).dead | none => false) ||
    match paKind s loc with
    | .tier2 => let p := loc / 4096 % 4; if p < 2 then s.mgmt.standby else dead9
    | .host 0 => s.mgmt.gone.contains 8 || s.mgmt.standby
    | .host _ => s.mgmt.gone.contains 9 || dead9
    | .peer n => s.mgmt.gone.contains (16 + n)
    | _ => false

/-- R223, R449: a write that its completer refuses is counted. (DEDUCED, log entry 13.) -/
def State.countRefused (s : State) (d : Nat) : State :=
  s.modDie d fun x => { x with errors := { x.errors with refused := min (2 ^ 32 - 1) (x.errors.refused + 1) } }

/-- A natural number of `n` bytes at a place. (DEDUCED, log entry 39.) -/
def State.rd (s : State) (loc n : Nat) : Nat := bytesToNat (memReadAll s.mem loc n)
/-- Write a number of `n` bytes at a place; a plain write of the bytes clears their poison. -/
def State.wr (s : State) (loc : Nat) (bs : List Byte) : State :=
  { s with mem := memWriteAll s.mem loc bs,
           poison := s.poison.filter fun p => !(decide (loc ≤ p) && decide (p < loc + bs.length)) }
/-- Is a byte of a run poisoned, or lost? -/
def State.poisoned (s : State) (loc n : Nat) : Bool :=
  (s.poison.any fun p => decide (loc ≤ p) && decide (p < loc + n)) || (List.range n).any fun i => s.lost (loc + i)

/-- The places of a list of runs, in order. -/
def segLocs : List Seg → List Nat
  | [] => []
  | g :: t => (List.range g.len).map (g.loc + ·) ++ segLocs t
/-- The number of bytes of a list of runs. -/
def segLen (gs : List Seg) : Nat := (gs.map (·.len)).foldl (· + ·) 0
/-- Write bytes over a list of runs, in order. -/
def State.wrSegs : State → List Seg → List Byte → State
  | s, [], _ => s
  | s, g :: t, bs => (s.wr g.loc (bs.take g.len)).wrSegs t (bs.drop g.len)
/-- Read the bytes of a list of runs, in order. -/
def State.rdSegs (s : State) (gs : List Seg) : List Byte := (segLocs gs).map (memRead s.mem)
/-- Is a byte of a list of runs poisoned? -/
def State.segsPoisoned (s : State) (gs : List Seg) : Bool := gs.any fun g => s.poisoned g.loc g.len
/-- Do two lists of runs share a byte? -/
def segsMeet (a b : List Seg) : Bool :=
  a.any fun x => b.any fun y => decide (x.loc < y.loc + y.len) && decide (y.loc < x.loc + x.len)
/-- R212: the 128-byte lines of a list of runs. -/
def segLines (gs : List Seg) : List Nat :=
  gs.foldl (fun acc g => (List.range ((g.loc + g.len - 1) / 128 + 1 - g.loc / 128)).foldl
    (fun a i => insertNat (g.loc / 128 + i) a) acc) []
/-- R272: does an atomic touch poison: a poisoned line, or in a scratchpad, which has no lines, a poisoned byte? -/
def State.atomicPoisoned (s : State) (gs : List Seg) : Bool :=
  s.segsPoisoned gs || (segLines (gs.filter fun g => !isSp g.loc)).any fun l => s.poisoned (l * 128) 128

/-! Tokens -/

/-- R120: a dword token. -/
def dword (n : Nat) : Token := ⟨BitVec.ofNat 128 (n % 2 ^ 64), false, false, none, 0⟩
/-- R120: a pair token. -/
def pairTok (n : Nat) : Token := ⟨BitVec.ofNat 128 n, false, true, none, 0⟩
/-- R120: a null token; its data bits read as zero. -/
def nullTok : Token := ⟨0, true, false, none, 0⟩
/-- The dword 0 of a completion (R225). -/
def doneTok : Token := dword 0
/-- R68: a predicate as a dword. -/
def predTok (b : Bool) : Token := dword (if b then 1 else 0)
/-- The token's value as a natural number. -/
def Token.nat (t : Token) : Nat := t.data.toNat
/-- The low 64 bits of a token's value. -/
def Token.lo (t : Token) : Nat := t.data.toNat % 2 ^ 64
/-- R68: the predicate that a token carries. -/
def Token.pred (t : Token) : Bool := t.data.getLsbD 0

/-- The number of a port in the table of tokens. -/
def portNum : PortSel → Nat
  | .a => 0 | .b => 1 | .c => 2

/-- R119: the clk a token takes from PE `j` to PE `k`. -/
def pathDelay (j k : Nat) : Nat :=
  let dr := (j / 8 - k / 8) + (k / 8 - j / 8)
  let dc := (j % 8 - k % 8) + (k % 8 - j % 8)
  if dr + dc ≤ 1 then 1 else if dr = 0 ∨ dc = 0 then 2 else 3

/-- R65, R119, R129: one token sent to one target at a clk. -/
def Inst.deliver (x : Inst) (now idx : Nat) : Target → Token → Inst
  | .none, _ => x
  | .port p k, v =>
    { x with tokens := Tbl.set x.tokens (3 * k.toNat + portNum p) { v with arrive := now + pathDelay idx k.toNat } }
  | .live sl, v =>
    if v.null then x
    else { x with liveOut := x.liveOut ++ [⟨sl.toNat, false, v.data.setWidth 64, v.tag⟩] }
  | .pairLive sl, v =>
    if v.null then x
    else { x with liveOut := x.liveOut ++ [⟨sl.toNat, true, v.data.setWidth 64, v.tag⟩] }

/-- R131: one instruction completes at a clk. -/
def Inst.complete (x : Inst) (now : Nat) : Inst :=
  { x with count := x.count + 1, fullAt := some (max (x.fullAt.getD 0) now) }

/-- R122: the firing consumes the tokens of the instruction, which never fires again. -/
def Inst.consume (x : Inst) (now idx : Nat) : Inst :=
  { x with tokens := Tbl.erase (Tbl.erase (Tbl.erase x.tokens (3 * idx)) (3 * idx + 1)) (3 * idx + 2),
           fired := insertNat idx x.fired,
           firedNow := match x.firedNow with
             | some (t, k) => if t = now then some (t, min k idx) else some (now, idx)
             | none => some (now, idx) }

/-- Is the target connected? -/
def targetUsed : Target → Bool
  | .none => false
  | _ => true

/-- R123, R131: an operation of latency `lat` that fires at `now`: an instruction with no connected target completes in
the clk it fires, one of 1 clk emits in the next, and a longer one emits later by `PIPELINED_OPERATION_EMIT`. -/
def Inst.produce (x : Inst) (now idx lat : Nat) (t1 t0 : Target) (v1 v0 : Token) : Inst :=
  if !targetUsed t0 && !targetUsed t1 then x.complete now
  else if lat ≤ 1 then (((x.deliver (now + lat) idx t0 v0).deliver (now + lat) idx t1 v1)).complete (now + lat)
  else { x with emits := x.emits ++ [⟨idx, now + lat, false, false, v0, v1, t0, t1⟩] }

/-! The firing in progress -/

/-- The thread of the firing in progress. -/
def State.curThread (s : State) : Thread := s.thread s.cur.core s.cur.slot
/-- The instance of the firing in progress. (DESIGN CHOICE, log entry 52.) -/
def State.curInst? (s : State) : Option Inst := s.curThread.inst
/-- Is the instance of the firing squashed (R133)? -/
def State.squashed (s : State) : Bool :=
  match s.curInst? with
  | some x => x.squash.isSome
  | none => true
/-- The token at a port of the firing, if one is there. -/
def State.opTok? (s : State) (p : PortSel) : Option Token :=
  match s.curInst? with
  | some x => Tbl.find? x.tokens (3 * s.cur.idx + portNum p)
  | none => none
/-- The token at a port of the firing; a port without one reads as null. -/
def State.opTok (s : State) (p : PortSel) : Token := (s.opTok? p).getD nullTok
/-- R69: the guard on port c: an untargeted one counts as true. -/
def State.guardTrue (s : State) : Bool :=
  match s.opTok? .c with
  | some t => !t.null && t.pred
  | none => true

/-- R458: which cause a firing's excess is charged to: the PE, where another firing held it until now and the instruction was ready
before, else the port whose token arrived last, or admission. -/
def lossCause (x : Inst) (now idx held : Nat) : Nat :=
  let at_ (p : Nat) : Nat := match Tbl.find? x.tokens (3 * idx + p) with | some t => t.arrive | none => 0
  let last := max (at_ 0) (max (at_ 1) (at_ 2))
  if held = now ∧ (if last = 0 then x.admitted else last) < now then 4
  else if last = 0 then 3 else if at_ 0 = last then 0 else if at_ 1 = last then 1 else 2

/-- R458: the time-loss account of a firing of `idx` in a context whose block declares `d`. (DEDUCED, log entry 31.) -/
def Core.chargeLoss (x : Core) (k d cause now idx : Nat) : Core :=
  if d = 0 then x
  else
    let key := k * 64 + idx
    let ex := match Tbl.find? x.lastFire key with | some t0 => now - t0 - d | none => 0
    let ck := key * 5 + cause
    { x with lastFire := Tbl.set x.lastFire key now,
             excess := if ex = 0 then x.excess
               else Tbl.set x.excess ck (min (2 ^ 32 - 1) (Tbl.get 0 x.excess ck + ex)) }

/-- R52: DII of a block's header. -/
def Block.dii (b : Block) : Nat := b.header.toNat / 2 ^ 18 % 16

/-- R122, R123, R458: the firing takes its PE for `busy` clk and is counted in the time-loss account of its context while that is
open. -/
def State.takePE (s : State) (busy : Nat) : State :=
  match s.curInst? with
  | none => s
  | some i =>
    s.modCore s.cur.core fun x =>
      ({ x with peNext := Tbl.set x.peNext s.cur.idx (s.clk + busy) }).chargeLoss i.ctx
        (if (x.context i.ctx).state == CtxState.opened then (x.context i.ctx).block.dii else 0)
        (lossCause i s.clk s.cur.idx (Tbl.get 0 x.peNext s.cur.idx)) s.clk s.cur.idx

/-- The firing is spent: it takes its PE, consumes its tokens, and `f` says what the instance then holds.
(DESIGN CHOICE, log entry 52.) -/
def State.fireWith (s : State) (busy : Nat) (f : Inst → Inst) : State :=
  (s.takePE busy).modInst s.cur.core s.cur.slot fun x => f (x.consume s.clk s.cur.idx)

/-- R122, R133: the firing emits values on its targets after `lat` clk; a squashed instance emits null. -/
def State.emit (s : State) (busy lat : Nat) (t1 t0 : Target) (v1 v0 : Token) : State :=
  let sq := s.squashed
  s.fireWith busy fun x =>
    x.produce s.clk s.cur.idx lat t1 t0 (if sq then nullTok else v1) (if sq then nullTok else v0)

/-- R339: pin the inputs of the region of the firing's instance that tagged tokens carry. (DEDUCED, log entry 33.) -/
def State.pinInput (s : State) (i : Nat) : State :=
  match s.curInst? with
  | none => s
  | some x =>
    match x.region with
    | none => s
    | some r => s.modCore s.cur.core fun y => y.modRegion r fun g =>
        { g with inputs := match g.inputs[i]? with
                  | some inp => replaceAt g.inputs i { inp with pin := true }
                  | none => g.inputs }

/-- R339: pin every input that a list of tokens carries. (DEDUCED, log entry 33.) -/
def State.pin : State → List Token → State
  | s, [] => s
  | s, t :: ts => (match t.tag with | some (i, _) => s.pinInput i | none => s).pin ts

/-- R129: the instance is not squashed and no operand of the list is null. -/
def State.runs (s : State) (ops : List Token) : Bool := !s.squashed && ops.all fun t => !t.null

/-- R69, R129, R339: a computation on operands whose port c is an optional guard: the same value on both targets, null
where the guard fails or an operand is null; the operands' inputs are pinned in every case. (DEDUCED, log entry 33.) -/
def State.compute (s : State) (busy lat : Nat) (t1 t0 : Target) (ops : List Token) (v : Token) : State :=
  if s.runs ops && s.guardTrue then (s.pin (s.opTok .c :: ops)).emit busy lat t1 t0 v v
  else (s.pin (s.opTok .c :: ops)).emit busy lat t1 t0 nullTok nullTok

/-- R339: the null result of an instruction that keeps tags: a false guard pins no operand, a null operand those that are tagged.
(DEDUCED, log entry 33.) -/
def State.nullResult (s : State) (busy lat : Nat) (t1 t0 : Target) (ops : List Token) : State :=
  (s.pin (s.opTok .c :: if ops.any (·.null) then ops else [])).emit busy lat t1 t0 nullTok nullTok

/-- R339: as `State.compute`, for a result that carries a tag: with a tag the operands' inputs are not pinned.
(DEDUCED, log entry 33.) -/
def State.computeTag (s : State) (busy lat : Nat) (t1 t0 : Target) (ops : List Token) (v : Token)
    (tag : Option (Nat × DWord)) : State :=
  match tag with
  | none => s.compute busy lat t1 t0 ops v
  | some _ =>
    if s.runs ops && s.guardTrue then (s.pin [s.opTok .c]).emit busy lat t1 t0 { v with tag := tag } { v with tag := tag }
    else s.nullResult busy lat t1 t0 ops

/-- R129, R339: as `State.compute`, for an instruction whose port c is data. (DEDUCED, log entry 33.) -/
def State.computeC (s : State) (busy lat : Nat) (t1 t0 : Target) (ops : List Token) (v : Token) : State :=
  if s.runs ops then (s.pin ops).emit busy lat t1 t0 v v else (s.pin ops).emit busy lat t1 t0 nullTok nullTok

/-- R404: a fault found after the check point, kept until the commit. -/
def Inst.addFault (x : Inst) (f : ThreadFault) : Inst := { x with faults := x.faults ++ [f] }

/-- R346: a cause of abort arises in an instance: the first stands, and of those of one clk the one of the lower index. -/
def Inst.abortWith (x : Inst) (now idx cause : Nat) (code : BitVec 8) : Inst :=
  { x with regionCause := match x.regionCause with
      | some r => if r.clk = now ∧ idx < r.idx then some ⟨now, idx, cause, code⟩ else some r
      | none => some ⟨now, idx, cause, code⟩ }

/-- R133: the first fault before the check point squashes the instance: its buffered events are dropped. -/
def Inst.squashWith (x : Inst) (f : ThreadFault) : Inst :=
  { x with squash := some (x.squash.getD f), liveOut := [] }

end Sys2Proof.Machine
end

