-- ==== Sys2Proof/Machine/Memory.lean ====
section
/-! DEFINITION. Address decoding, the physical map, page walks, TLBs, permissions (R207-R221), the bytes that a die sees
(R263), store forwarding (R242), and the marking of watched lines (R342). -/

namespace Sys2Proof.Machine

/-! Fields of a leaf entry (R214) -/

def leafBit (e : DWord) (i : Nat) : Bool := e.getLsbD i
/-- MT. -/
def leafMt (e : DWord) : Nat := e.toNat / 2 ^ 9 % 4
/-- SZ. -/
def leafSz (e : DWord) : Nat := e.toNat / 4 % 4
/-- log2 of the page size that SZ names. -/
def pageLog (sz : Nat) : Nat := if sz = 0 then 16 else if sz = 1 then 21 else 30
/-- The page's physical base. -/
def leafBase (e : DWord) : Nat := (e.toNat / 2 ^ 16 % 2 ^ 36) * 2 ^ 16 / 2 ^ pageLog (leafSz e) * 2 ^ pageLog (leafSz e)
/-- The memory type. -/
def memTypeOf (e : DWord) : MemType :=
  if leafMt e = 1 then .nonCoherent else if leafMt e = 2 then .device else .coherent

/-! Walks and TLBs -/

/-- R215: how a walk ends. WHY is 0 not valid, 1 format, 2 no memory. -/
inductive WalkEnd where
  | found (leaf : DWord) (level : Nat)
  | bad (why level : Nat)
  | poison (level : Nat)
deriving DecidableEq, Repr

/-- R215: the walk from a table, `levels` levels remaining. A coherent leaf whose PA lies among the device registers passes, and its
bytes are plain ones. (DESIGN CHOICE, log entry 55.) -/
def walkFrom (s : State) (va : Nat) : Nat → Nat → WalkEnd
  | 0, _ => .bad 1 0
  | lvl + 1, t =>
    let a := t + 8 * (va / 2 ^ (16 + 10 * lvl) % 1024)
    let e : DWord := BitVec.ofNat 64 (s.rd a 8)
    if s.poisoned a 8 then .poison lvl
    else if !leafBit e 0 then .bad 0 lvl
    else if !leafBit e 1 then
      (if lvl = 0 ∨ e.toNat / 4 % 2 ^ 11 ≠ 0 then .bad 1 lvl
       else walkFrom s va lvl (e.toNat / 2 ^ 13 % 2 ^ 39 * 2 ^ 13))
    else
      let ok := (lvl = 0 && decide (leafSz e ≤ 1)) || (lvl = 1 && leafSz e == 2)
      if !ok || e.toNat / 2 ^ 11 % 32 ≠ 0 || leafMt e = 3 then .bad 1 lvl
      else
        let pa := leafBase e
        let top := pa / 2 ^ 50 % 4
        if paKind s pa = .nothing || (leafMt e = 1 && top ≠ 2) || (leafMt e = 2 && top ≠ 1) then .bad 2 lvl
        else .found e lvl

/-- The lines of the entries that a walk reads, from a table, `levels` levels remaining. -/
def walkLines (s : State) (va : Nat) : Nat → Nat → List Nat
  | 0, _ => []
  | lvl + 1, t =>
    let a := t + 8 * (va / 2 ^ (16 + 10 * lvl) % 1024)
    let e : DWord := BitVec.ofNat 64 (s.rd a 8)
    (a / 128) :: (if leafBit e 0 && !leafBit e 1 then walkLines s va lvl (e.toNat / 2 ^ 13 % 2 ^ 39 * 2 ^ 13) else [])

/-- R215: a walk from a root. -/
def State.walk (s : State) (root va : Nat) : WalkEnd := walkFrom s va 4 root

/-- R217: does a TLB entry hold the page of a virtual page number (VA[55:16])? -/
def TlbEntry.holds (e : TlbEntry) (asp vpn : Nat) : Bool :=
  e.asp == asp && decide (e.base ≤ vpn) && decide (vpn < e.base + e.pages)

/-- R217: look a page up. -/
def tlbFind (tlb : List TlbEntry) (asp vpn : Nat) : Option TlbEntry := tlb.find? fun e => e.holds asp vpn

/-- The entry that a leaf gives for a virtual page number. -/
def tlbEntryOf (asp vpn : Nat) (leaf : DWord) : TlbEntry :=
  let n := 2 ^ (pageLog (leafSz leaf) - 16)
  ⟨asp, vpn / n * n, n, leaf⟩

/-- R217: the set of a TLB that holds a page. (DESIGN CHOICE, log entry 29.) -/
def TlbEntry.set (e : TlbEntry) (sets : Nat) : Nat := e.base / e.pages % sets

/-- R217: fill a TLB of so many sets and ways; of a full set the entry filled longest ago leaves.
(DESIGN CHOICE, log entry 29.) -/
def tlbFill (sets ways : Nat) (tlb : List TlbEntry) (e : TlbEntry) : List TlbEntry :=
  let rest := tlb.filter fun x => !(x.asp == e.asp && x.base == e.base && x.pages == e.pages)
  let out := (rest.filter fun x => x.set sets == e.set sets).drop (ways - 1)
  e :: rest.filter fun x => !out.contains x

/-- R217: fill a core's TLB of 128 entries, fully associative. -/
def tlbFillCore : List TlbEntry → TlbEntry → List TlbEntry := tlbFill 1 128
/-- R217: fill a die's TLB of 16K entries, 8-way set associative. (DESIGN CHOICE, log entry 29.) -/
def tlbFillDie : List TlbEntry → TlbEntry → List TlbEntry := tlbFill 2048 8

/-- R217: fill the TLBs of a core and of its die. -/
def State.fillTlbs (s : State) (c asp vpn : Nat) (leaf : DWord) : State :=
  let e := tlbEntryOf asp vpn leaf
  (s.modCore c fun x => { x with tlb := tlbFillCore x.tlb e }).modDie (dieOf c) fun d =>
    { d with tlb := tlbFillDie d.tlb e }

/-- The physical address of a virtual address under a leaf. -/
def paUnder (leaf : DWord) (va : Nat) : Nat := leafBase leaf + va % 2 ^ pageLog (leafSz leaf)

/-! Rows of R220 -/

/-- Which row of R220 an access uses. -/
inductive AccessRow where
  | load | loadAcq | loadNc | store | storeRel | storeNc | cacheOp | atomic (cas128 : Bool) | engineRead | engineWrite
deriving DecidableEq, Repr

/-- R221: KIND of the detail word. -/
def AccessRow.kind : AccessRow → Nat
  | .load | .loadAcq | .loadNc | .engineRead => 0
  | .store | .storeRel | .storeNc | .engineWrite => 1
  | .atomic _ => 2
  | .cacheOp => 4

/-- R221: the detail word. -/
def memDetail (insn kind level why : Nat) : DWord := BitVec.ofNat 64 (insn % 256 * 256 + kind * 32 + level * 8 + why)

/-- R220: is the size in bytes and the alignment that a device register takes given? -/
def deviceShapeOk (va bytes : Nat) : Bool := (bytes == 4 || bytes == 8) && va % bytes == 0

/-- R220: judge one page, from the byte at `at_` of an access on, against a row: none when it passes, else cause and WHY. Where the
row and the shape of an access to a device register both fail, the row's failure is reported. (DESIGN CHOICE, log entry 55.) -/
def judgeLeaf (s : State) (row : AccessRow) (user : Bool) (va bytes at_ : Nat) (leaf : DWord) : Option (Cause × Nat) :=
  let r := leafBit leaf 4
  let w := leafBit leaf 5
  let u := leafBit leaf 7
  let atomics := leafBit leaf 8
  let mt := memTypeOf leaf
  if user && !u then some (.permission, 3)
  else
    match row with
    | .load | .engineRead =>
      if !r then some (.permission, 3) else if mt = .device then some (.permission, 6) else none
    | .loadAcq => if !r then some (.permission, 3) else if mt ≠ .coherent then some (.permission, 6) else none
    | .loadNc =>
      if !r then some (.permission, 3)
      else if mt = .device && !deviceShapeOk va bytes then some (.alignment, 7) else none
    | .store | .engineWrite =>
      if !w then some (.permission, 3) else if mt = .device then some (.permission, 6) else none
    | .storeRel => if !w then some (.permission, 3) else if mt ≠ .coherent then some (.permission, 6) else none
    | .storeNc =>
      if !w then some (.permission, 3)
      else if mt = .device && !deviceShapeOk va bytes then some (.alignment, 7) else none
    | .cacheOp => if !r then some (.permission, 3) else if mt = .device then some (.permission, 6) else none
    | .atomic cas =>
      if !r || !w || !atomics then some (.permission, 3)
      else if mt = .coherent then none
      else if cas && mt = .nonCoherent then
        (match paKind s (paUnder leaf at_) with
         | .host p => if s.mgmt.hostPorts.getLsbD p then none else some (.permission, 6)
         | _ => some (.permission, 6))
      else some (.permission, 6)

/-! Windows -/

/-- R208: does a group of the address space hold the 1 KiB unit of a scratchpad byte? -/
def ownsUnit (s : State) (asp c off : Nat) : Bool :=
  (s.core c).groups.any fun (_, g) =>
    decide (g.spBase ≤ off) && decide (off < g.spBase + g.spSize) && (s.grid g.grid).ctx == asp

/-- R207: what a virtual address names for the threads of a group. -/
inductive VaKind where
  | bad (why : Nat)
  | sp (loc run : Nat)
  | translated
deriving DecidableEq, Repr

/-- R16, R207, R208: decode a virtual address for an access of a core in an address space, by a group's allocation. -/
def vaKind (s : State) (c asp : Nat) (g : Group) (va : Nat) : VaKind :=
  if 2 ^ 56 ≤ va then .bad 4
  else
    let top := va / 2 ^ 48
    let off := va % 2 ^ 48
    if top = 0xf0 then
      (if off < 2 ^ 26 then
        (let oc := dieOf c * Config.coresPerDie + off / 2 ^ 18
         if ownsUnit s asp oc (off % 2 ^ 18) then .sp (spLoc oc (off % 2 ^ 18)) (1024 - off % 1024) else .bad 5)
       else .bad 5)
    else if top = 0xf1 then
      (if off < g.spSize then .sp (spLoc c (g.spBase + off)) (g.spSize - off) else .bad 5)
    else .translated

/-! Judging an access (R221) -/

/-- How far the judging of an access has come. -/
inductive Judged where
  | ok (segs : List Seg) (mt : MemType)
  | miss (vpn : Nat) (segs : List Seg) (mt : MemType)
  | bad (cause : Cause) (va why level : Nat)
deriving DecidableEq, Repr

/-- Who makes an access, and whether an instance of a region makes it (R337). -/
structure Accessor where
  core : Nat
  asp : Nat
  group : Group
  user : Bool
  region : Bool
deriving DecidableEq, Repr

/-- R337: may a region access memory of a type at a physical address? -/
def regionMemory (s : State) (mt : MemType) (pa : Nat) : Bool :=
  mt == .coherent && (match paKind s pa with | .hbm | .tier2 | .host _ => true | _ => false)

/-- R220, R337: judge one page of an access: in a region a type of memory that the region may not access gives a region fault,
where the page's U, R, W and AT let it pass. -/
def judgePage (s : State) (w : Accessor) (row : AccessRow) (va bytes at_ : Nat) (leaf : DWord) : Option (Cause × Nat) :=
  match judgeLeaf s row w.user va bytes at_ leaf with
  | some (cause, why) => if w.region && (why == 6 || why == 7) then some (.regionFault, 0) else some (cause, why)
  | none => if w.region && !regionMemory s (memTypeOf leaf) (paUnder leaf at_) then some (.regionFault, 0) else none

/-- R221: translate and check the bytes of an access in ascending order from byte `done`, page by page, by a lookup. -/
def judgeFrom (s : State) (w : Accessor) (row : AccessRow) (look : Nat → Option DWord) (va bytes : Nat) :
    Nat → Nat → List Seg → MemType → Judged
  | 0, _, segs, mt => .ok segs mt
  | fuel + 1, done, segs, mt =>
    if bytes ≤ done then .ok segs mt
    else
      let a := va + done
      match vaKind s w.core w.asp w.group a with
      | .bad why => .bad .permission a why 0
      | .sp loc run =>
        if w.region then .bad .regionFault a 0 0
        else
        let n := min run (bytes - done)
        judgeFrom s w row look va bytes fuel (done + n) (segs ++ [⟨loc, n, false⟩]) mt
      | .translated =>
        match look (a / 2 ^ 16) with
        | none => .miss (a / 2 ^ 16) segs mt
        | some leaf =>
          match judgePage s w row va bytes a leaf with
          | some (cause, why) => .bad cause a why 0
          | none =>
            let n := min (2 ^ 16 - a % 2 ^ 16) (bytes - done)
            let m := memTypeOf leaf
            judgeFrom s w row look va bytes fuel (done + n) (segs ++ [⟨paUnder leaf a, n, m == .nonCoherent⟩])
              (if done = 0 then m else mt)

/-- R221: does the row test the natural alignment before translation? -/
def AccessRow.aligned : AccessRow → Bool
  | .loadAcq | .storeRel | .atomic _ => true
  | _ => false

/-- R217, R221: judge an access by the core's TLB, after the bytes that are judged already. -/
def State.judge (s : State) (w : Accessor) (row : AccessRow) (va bytes : Nat) (segs : List Seg) (mt : MemType) :
    Judged :=
  if row.aligned && va % bytes ≠ 0 then .bad .alignment va 7 0
  else
    judgeFrom s w row (fun vpn => (tlbFind (s.core w.core).tlb w.asp vpn).map (·.leaf)) va bytes 600
      (segLen segs) segs mt

/-- R217: the translation of a page that the TLBs of a core and of its die hold. -/
def State.tlbLeaf (s : State) (c asp vpn : Nat) : Option DWord :=
  match tlbFind (s.core c).tlb asp vpn with
  | some e => some e.leaf
  | none => (tlbFind (s.die (dieOf c)).tlb asp vpn).map (·.leaf)

/-- A judging that walks at once where the TLBs miss; the end of a failed walk gives its fault. -/
def State.judgeWalk (s : State) (w : Accessor) (row : AccessRow) (va bytes : Nat) : Judged :=
  let j := judgeFrom s w row
    (fun vpn =>
      match s.tlbLeaf w.core w.asp vpn with
      | some leaf => some leaf
      | none => match s.walk w.group.root (vpn * 2 ^ 16) with | .found leaf _ => some leaf | _ => none)
    va bytes 600 0 [] .coherent
  match j with
  | .miss vpn segs _ =>
    (match s.walk w.group.root (vpn * 2 ^ 16) with
     | .bad why lvl => .bad .translation (va + segLen segs) why lvl
     | .poison lvl => .bad .poison (va + segLen segs) 0 lvl
     | .found _ _ => j)
  | _ => j

/-- The accessor that a thread is. -/
def State.accessor (s : State) (c sl : Nat) : Accessor :=
  let t := s.thread c sl
  ⟨c, s.aspOf c sl, s.groupOf c sl, !t.priv, match t.inst with | some x => x.region.isSome | none => false⟩

/-- R9, R16, R101: a 32-bit word read through an address space, without checks of permission; none when it cannot be read, as in
the scratchpad windows, where no block lies (R59). -/
def State.peek32 (s : State) (root va : Nat) : Option Nat :=
  if va / 2 ^ 48 = 0xf0 ∨ va / 2 ^ 48 = 0xf1 then none
  else
    match s.walk root va with
    | .found leaf _ => let pa := paUnder leaf va; if s.poisoned pa 4 then none else some (s.rd pa 4)
    | _ => none

/-! The bytes a die sees -/

/-- R263: a byte as a die's loads see it: its own copy of non-coherent host memory where it holds one. -/
def State.byteAt (s : State) (d : Nat) (nc : Bool) (loc : Nat) : Byte :=
  if nc then (Tbl.find? (s.die d).nc loc).getD (memRead s.mem loc) else memRead s.mem loc

/-- The places of a list of runs with their coherence, in order. -/
def segPlaces : List Seg → List (Nat × Bool)
  | [] => []
  | g :: t => (List.range g.len).map (fun i => (g.loc + i, g.nc)) ++ segPlaces t

/-- R263: the die's copy of a line of non-coherent host memory leaves its L2. (DESIGN CHOICE, log entry 8.) -/
def State.dropNc (s : State) (d line : Nat) : State :=
  s.modDie d fun x => { x with nc := x.nc.filter fun e => e.1 / 128 != line, ncDirty := x.ncDirty.filter fun b => b / 128 != line,
                               l2 := if x.nc.any (fun e => e.1 / 128 == line) then x.l2.filter (· != line) else x.l2 }

/-- R231, R263, R478: the bytes that the die has written in its copy of a line are written to the host, and the copy is kept clean.
(DESIGN CHOICE, log entry 8.) -/
def State.writeBackNc (s : State) (d line : Nat) : State :=
  if (s.die d).ncDirty.any fun b => b / 128 == line then
    let bs : List (Nat × Byte) := (s.die d).nc.filter fun e => e.1 / 128 == line && (s.die d).ncDirty.contains e.1
    let s' : State := { s with mem := bs.foldl (fun (m : List Host.Cell) (e : Nat × Byte) => memWrite m e.1 e.2) s.mem }
    s'.modDie d fun x => { x with ncDirty := x.ncDirty.filter fun b => b / 128 != line }
  else s

/-- R212, R263: a line is evicted from the L2 of a die; the bytes that it has written in its copy of a non-coherent line are written
back to the host. (DESIGN CHOICE, log entry 8.) -/
def State.evictL2 (s : State) (d line : Nat) : State :=
  ((s.writeBackNc d line).dropNc d line).modDie d fun x => { x with l2 := x.l2.filter (· != line) }

/-- R264: the slice of an L2 that holds a line. -/
def l2Slice (line : Nat) : Nat := line % 32 ^^^ line / 32 % 32

/-- R10, R212: lines come into the L2 of a die, of 32 slices of 2 MiB; the oldest lines of a slice that is full leave it in the acts
that follow at once. (DESIGN CHOICE, log entry 29.) -/
def State.enterL2 (s : State) (d : Nat) (lines : List Nat) : State :=
  let s1 := s.modDie d fun x => { x with l2 := lines ++ x.l2.filter fun l => !lines.contains l }
  let oldest := lines.flatMap fun l => (((s1.die d).l2.filter fun k => l2Slice k == l2Slice l).drop 16384)
  oldest.foldl (fun s l => s.urge (.evictL2 d l)) s1

/-- R263: a load of a non-coherent line leaves a copy of the line in the die's L2. (DESIGN CHOICE, log entry 8.) -/
def State.holdNc (s : State) (d : Nat) (gs : List Seg) : State :=
  let lines := segLines (gs.filter (·.nc))
  if lines.isEmpty then s
  else
    (s.modDie d fun x =>
      { x with nc := lines.foldl (fun t l =>
          (List.range 128).foldl (fun u i =>
            match Tbl.find? u (l * 128 + i) with
            | some _ => u
            | none => Tbl.set u (l * 128 + i) (memRead s.mem (l * 128 + i))) t) x.nc }).enterL2 d lines

/-- R266: the issuing die writes its copy of non-coherent lines back and discards it. -/
def State.clearNc (s : State) (d : Nat) (gs : List Seg) : State :=
  (segLines gs).foldl (fun s l => (s.writeBackNc d l).dropNc d l) s

/-- R342: the inputs of every region whose bytes lie in written lines become STALE. -/
def State.markStale (s : State) (lines : List Nat) : State :=
  if s.cores.any (fun (_, x) => !x.regions.isEmpty) then
    { s with cores := Tbl.mapVals (fun _ x =>
        { x with regions := Tbl.mapVals (fun _ r =>
            { r with inputs := r.inputs.map fun i =>
                if (segLines i.segs).any lines.contains then { i with stale := true } else i }) x.regions }) s.cores }
  else s

/-! The L1s (R212, R213) -/

/-- R212: may the caches hold a line of coherent memory: is it HBM, second-tier or host memory? -/
def cacheable (s : State) (line : Nat) : Bool :=
  decide (line < 2 ^ 45) && (match paKind s (line * 128) with | .hbm | .tier2 | .host _ => true | _ => false)

/-- R212: the lines of some runs that the caches may hold. -/
def cacheLinesOf (s : State) (gs : List Seg) : List Nat :=
  (segLines (gs.filter fun g => !g.nc && !isSp g.loc)).filter (cacheable s)

/-- R213: the core of a die whose L1 holds a line that a core of the die brings in. -/
def State.l1Core (s : State) (c line : Nat) : Nat :=
  if (s.die (dieOf c)).fused then dieOf c * Config.coresPerDie + (line % 256 ^^^ line / 256 % 256) else c

/-- R342: the inputs of a region whose bytes lie in some lines become STALE. -/
def Region.staleAt (r : Region) (p : Nat → Bool) : Region :=
  { r with inputs := r.inputs.map fun i => if (segLines i.segs).any p then { i with stale := true } else i }

/-- R342: lines leave the L1s of some cores, and the inputs of the regions that watch them there become STALE. -/
def State.leaveL1 (s : State) (p : Nat → Bool) (q : Nat → Bool) : State :=
  let gone (c l : Nat) : Bool := q l && p (s.l1Core c l) && (s.core (s.l1Core c l)).l1.contains l
  { s with cores := Tbl.mapVals (fun c x =>
      { x with l1 := if p c then x.l1.filter (fun l => !q l) else x.l1,
               regions := Tbl.mapVals (fun _ r => r.staleAt (gone c)) x.regions }) s.cores }

/-! The directory (R431-R437). Memory is one list of bytes, so these records move no data: they say who may hold a line and
what `probe` sees. -/

/-- R431, R436: the Tukan die that keeps a line's directory records, while it is alive. -/
def lineHome (s : State) (line : Nat) : Option Nat :=
  if 2 ^ 45 ≤ line then none
  else match homeOf s (line * 128) with
    | some h => if (s.die h).dead then none else some h
    | none => none
/-- R436, R437: the die that keeps a granule's class. -/
def classHome (s : State) (granule : Nat) : Option Nat :=
  match paKind s (granule * 2 ^ 16) with
  | .hbm => homeOf s (granule * 2 ^ 16)
  | .tier2 => some (granule % s.fitted)
  | _ => none
/-- R436: the class entry of a granule. (DEDUCED, log entry 10.) -/
def State.granule (s : State) (g : Nat) : BitVec 13 :=
  match classHome s g with | some h => Tbl.get 0 (s.die h).granules g | none => 0
/-- R436, R437: set the class entry; an untouched granule is not listed. The new class is written into every copy of it, before the
access that caused the change goes on. (DEDUCED, log entry 10.) -/
def State.setGranule (s : State) (g : Nat) (v : BitVec 13) : State :=
  match classHome s g with
  | some h =>
    let s1 : State := { s with dies := Tbl.mapVals (fun _ x =>
      { x with classes := if (Tbl.find? x.classes g).isSome then Tbl.set x.classes g v else x.classes }) s.dies }
    s1.modDie h fun x =>
      { x with granules := if v = 0 then Tbl.erase x.granules g else Tbl.set x.granules g v, wanted := x.wanted.filter (· != g) }
  | none => s
/-- R437: the home slice of a line keeps a copy of the class of its granule, which it has asked the class home for.
(DEDUCED, log entry 10.) -/
def State.keepClass (s : State) (line : Nat) : State :=
  match homeOf s (line * 128), classHome s (line / 512) with
  | some h, some k => if h = k then s else s.modDie h fun x => { x with classes := Tbl.set x.classes (line / 512) (s.granule (line / 512)) }
  | _, _ => s
/-- R437: a copy of a class is evicted. (DESIGN CHOICE, log entry 8.) -/
def State.evictClass (s : State) (d g : Nat) : State := s.modDie d fun x => { x with classes := Tbl.erase x.classes g }
/-- R436: the owner of a private granule. -/
def State.granuleOwner (s : State) (g : Nat) : Option Nat :=
  let v := s.granule g
  if v.toNat % 4 = 1 then some (v.toNat / 4) else none

/-- A line leaves the L1 of the cores of a die, but for one core that keeps it. -/
def State.dropL1 (s : State) (d line : Nat) (keep : Option Nat) : State :=
  (s.leaveL1 (fun c => dieOf c == d && keep != some c) (· == line)).modDie d fun x => { x with filter := match keep with
    | some c => if (Tbl.find? x.filter line).isSome then Tbl.set x.filter line [c] else x.filter
    | none => Tbl.erase x.filter line }
/-- A line leaves the caches of a die. -/
def State.dropLine (s : State) (d line : Nat) : State :=
  (s.dropL1 d line none).modDie d fun x => { x with l2 := x.l2.filter (· != line) }

/-- R436: flush a granule from the caches of its owner and give it a class. -/
def State.flushGranule (s : State) (g : Nat) (cls : BitVec 13) : State :=
  (s.leaveL1 (fun _ => true) fun l => l / 512 == g).setGranule g cls

/-- The region entry of a line at its home. -/
def State.dirEntry (s : State) (h line : Nat) : DirEntry := Tbl.get ⟨0, 0⟩ (s.die h).dir (line / 4)
/-- OWN of a line in its entry: the owning die, if it is held with write ownership. -/
def DirEntry.owner (e : DirEntry) (line : Nat) : Option Nat :=
  let n := e.own.toNat / 2 ^ (4 * (line % 4)) % 16
  if n < 8 then none else some (n % 8)
/-- The entry with OWN of a line set or cleared. -/
def DirEntry.setOwner (e : DirEntry) (line : Nat) (d : Option Nat) : DirEntry :=
  let k := 2 ^ (4 * (line % 4))
  let old := e.own.toNat / k % 16
  let new := match d with | some x => 8 + x % 8 | none => 0
  { e with own := BitVec.ofNat 16 (e.own.toNat - old * k + new * k) }
/-- R432: a region entry of a home slice is evicted: its lines are recalled from every die that DV names, and its home alone holds
the region. (DESIGN CHOICE, log entry 8.) -/
def State.evictRegion (s : State) (h region : Nat) : State :=
  match Tbl.find? (s.die h).dir region with
  | none => s
  | some e =>
    if lineHome s (4 * region) != some h then s
    else
      let away := (List.range 8).filter fun d => d != h && e.dv.getLsbD d
      let s1 := away.foldl (fun s d => (List.range 4).foldl (fun s i => s.dropLine d (4 * region + i)) s) s
      s1.modDie h fun x => { x with dir := Tbl.erase x.dir region }

/-- R432: the directory slice of 1,048,576 entries, 16-way, makes room for the entry of a region: of a full set the lowest region
that no lock and no transaction stands on is evicted. (DESIGN CHOICE, log entry 29.) -/
def State.dirRoom (s : State) (h region : Nat) : State :=
  let x := s.die h
  let mine := (Tbl.keysWhere (fun r _ => r % 65536 == region % 65536 && r != region && lineHome s (4 * r) == some h) x.dir)
  if (Tbl.find? x.dir region).isSome || mine.length < 16 then s
  else match mine.find? fun r => !s.locks.any (fun e => e.1 / 4 == r) && !x.dirQ.any fun q => q.line / 4 == r with
    | some r => s.evictRegion h r
    | none => s

/-- R432: keep an entry; one that names no die but the home is not held. -/
def State.setDir (s : State) (h line : Nat) (e : DirEntry) : State :=
  if e.own = 0 ∧ e.dv &&& ~~~(BitVec.ofNat 8 (2 ^ h)) = 0 then s.modDie h fun x => { x with dir := Tbl.erase x.dir (line / 4) }
  else (s.dirRoom h (line / 4)).modDie h fun x => { x with dir := Tbl.set x.dir (line / 4) e }

/-- R211, R442: what the directory slice of a die records of its own copy of a host line. -/
def State.setHostDir (s : State) (d line : Nat) (held own : Bool) : State :=
  if 8 ≤ d then s
  else s.modDie d fun x =>
    let e := (Tbl.get (⟨0, 0⟩ : DirEntry) x.dir (line / 4)).setOwner line (if own then some d else none)
    let e' : DirEntry := { e with dv := if held || x.l2.any (fun l => l / 4 == line / 4) then BitVec.ofNat 8 (2 ^ d) else 0 }
    { x with dir := if e'.own = 0 ∧ e'.dv = 0 then Tbl.erase x.dir (line / 4) else Tbl.set x.dir (line / 4) e' }

/-- R211, R442: a host's line leaves the caches of a die. -/
def State.dropHost (s : State) (d line : Nat) : State := (s.dropLine d line).setHostDir d line false false

/-- R211, R442: the host filter of a host port's line, kept by the I/O die of the port, and the record of the die's own slice, once
a die has been granted the line. -/
def State.hostGrant (s : State) (line d : Nat) (write : Bool) : State :=
  match paKind s (line * 128) with
  | .host p =>
    let e : DirEntry := Tbl.get ⟨0, 0⟩ (s.die (8 + p)).dir line
    let me : BitVec 8 := BitVec.ofNat 8 (2 ^ d % 256)
    let s1 := if write then (List.range 8).foldl (fun s x => if x = d then s else s.dropHost x line) s
      else (List.range 8).foldl (fun s x => if e.owner 0 = some x ∧ x ≠ d then s.setHostDir x line true false else s) s
    let e' : DirEntry := if write then { e with dv := me }.setOwner 0 (if d < 8 then some d else none)
      else { e with dv := e.dv ||| me }.setOwner 0 (match e.owner 0 with | some o => if o = d then some o else none | none => none)
    (s1.setHostDir d line true (e'.owner 0 == some d)).modDie (8 + p) fun x =>
      { x with dir := if e'.own = 0 ∧ e'.dv = 0 then Tbl.erase x.dir line else Tbl.set x.dir line e' }
  | _ => s

/-- R432, R433: the entry of a region once a die has been granted a line: a write takes the line from the other dies, of
which those that hold another line of the region keep their bit; a read leaves no owner. (DEDUCED, log entry 10.) -/
def State.dirGrant (s : State) (line d : Nat) (write : Bool) : State :=
  match lineHome s line with
  | none => s.hostGrant line d write
  | some h =>
    let e := s.dirEntry h line
    let me : BitVec 8 := BitVec.ofNat 8 (2 ^ d % 256 ||| 2 ^ h % 256)
    if write then
      let s1 := (List.range 8).foldl (fun s x => if x = d then s else s.dropLine x line) s
      let dv := (List.range 8).foldl (fun v x =>
        if e.dv.getLsbD x && (s1.die x).l2.any (fun l => l / 4 == line / 4) then v ||| BitVec.ofNat 8 (2 ^ x) else v) me
      s1.setDir h line ({ e with dv := dv }.setOwner line (if d < 8 ∧ d ≠ h then some d else none))
    else
      s.setDir h line ({ e with dv := e.dv ||| me }.setOwner line
        (match e.owner line with | some o => if o = d then some o else none | none => none))

/-- R436: an access by a thread of a core: an untouched granule becomes private to it. (DEDUCED, log entry 10.) -/
def State.touch (s : State) (c line : Nat) : State :=
  let g := line / 512
  match lineHome s line with
  | none => s
  | some _ => (if s.granule g = 0 then s.setGranule g (BitVec.ofNat 13 (c * 4 + 1)) else s).keepClass line

/-- R436: an access by another agent: the granule becomes shared, once it is flushed from a private owner. -/
def State.touchOther (s : State) (line : Nat) : State :=
  let g := line / 512
  match lineHome s line with
  | none => s
  | some _ => (if s.granule g = 2 then s else s.flushGranule g 2).keepClass line

/-- R215, R217: a walk for a core reads the entries of its tables through the L2 of its die. -/
def State.walkReads (s : State) (d root vpn : Nat) : State :=
  let lines := (walkLines s (vpn * 2 ^ 16) 4 root).filter (cacheable s)
  (lines.foldl (fun s l => (s.touchOther l).dirGrant l d false) s).enterL2 d lines

/-- R217: the walks of an access of an agent, page by page, fill the TLBs where they succeed; a page that the die's TLB holds fills
the core's. -/
def State.walked (s : State) (w : Accessor) (va bytes : Nat) : State :=
  (List.range ((va + bytes - 1) / 2 ^ 16 + 1 - va / 2 ^ 16)).foldl (fun s i =>
    let vpn := va / 2 ^ 16 + i
    if 2 ^ 40 ≤ vpn || vpn / 2 ^ 32 == 0xf0 || vpn / 2 ^ 32 == 0xf1 || (tlbFind (s.core w.core).tlb w.asp vpn).isSome then s
    else match tlbFind (s.die (dieOf w.core)).tlb w.asp vpn with
      | some e => s.modCore w.core fun x => { x with tlb := tlbFillCore x.tlb e }
      | none =>
        let s1 := s.walkReads (dieOf w.core) w.group.root vpn
        match s.walk w.group.root (vpn * 2 ^ 16) with
        | .found leaf _ => s1.fillTlbs w.core w.asp vpn leaf
        | _ => s1) s

/-- How a thread's access to a line stands: it may be performed, it waits for the flush of a private granule, or it waits for
its home's grant. -/
inductive LineRight where
  | ok | flush | request
deriving DecidableEq, Repr

/-- R435: does a cache of a die hold a line? -/
def State.holdsLine (s : State) (d line : Nat) : Bool :=
  (s.die d).l2.contains line || s.cores.any fun (c, x) => dieOf c == d && x.l1.contains line

/-- R433: does a request for a line stand at its home slice, or an answer on its way to it? -/
def State.lineBusy (s : State) (h line : Nat) : Bool := (s.die h).dirQ.any fun q => q.line == line

/-- R433, R436, R438: may a coherent line be read or written now in the caches of die `d`, for a thread of core `who`, or for an agent
that is no thread? A grant that has come is used; a copy that the die holds is read; any other access is handled at the home slice,
behind the requests that stand there. (DEDUCED, log entry 9.) -/
def State.rightAt (s : State) (who : Option Nat) (d line : Nat) (write : Bool) : LineRight :=
  match lineHome s line with
  | none => .ok
  | some h =>
    match s.granuleOwner (line / 512) with
    | some o => if who = some o then .ok else .flush
    | none =>
      if s.granule (line / 512) = 0 then .ok
      else
        let e := s.dirEntry h line
        let granted := (s.die d).grants.contains line
        let others := e.dv &&& ~~~(BitVec.ofNat 8 (2 ^ d % 256 ||| 2 ^ h % 256))
        let homeCopy := d ≠ h && s.holdsLine h line
        match e.owner line with
        | some o => if o = d then .ok else .request
        | none =>
          if write then
            (if granted && others = 0 && (d = h || !homeCopy) then .ok
             else if !s.lineBusy h line && others = 0 && !homeCopy then .ok else .request)
          else if granted || ((d = h || e.dv.getLsbD d) && s.holdsLine d line) || !s.lineBusy h line then .ok
          else .request

/-- R433, R436: may a thread of a core read or write a coherent line now? (DEDUCED, log entry 9.) -/
def State.lineRight (s : State) (c line : Nat) (write : Bool) : LineRight := s.rightAt (some c) (dieOf c) line write

/-- R433: a request reaches the home slice of a line, unless the same one is there already. (DEDUCED, log entry 9.) -/
def State.askHome (s : State) (d line : Nat) (write : Bool) : State :=
  match lineHome s line with
  | none => s
  | some h => s.modDie h fun x =>
      if x.dirQ.any fun q => q.line == line && q.from_ == d && (q.write || !write) then x
      else { x with dirQ := x.dirQ ++ [⟨line, d, write, false, [], Tbl.get 0 s.incarnations d⟩] }

/-- R436: an access waits for a granule that is private to a core to be flushed. -/
def State.wantGranule (s : State) (g : Nat) : State :=
  match classHome s g with
  | some h => s.modDie h fun x => { x with wanted := insertNat g x.wanted }
  | none => s

/-- R433, R436: one line of an access for which every line may be accessed. -/
def State.takeLine (s : State) (who : Option Nat) (d line : Nat) (write : Bool) : State :=
  let s1 := match who with | some c => s.touch c line | none => s.touchOther line
  let s2 := if (s1.granuleOwner (line / 512)).isSome then s1 else s1.dirGrant line d write
  s2.modDie d fun x => { x with grants := x.grants.filter (· != line) }

/-- R433, R436: the access of a thread of core `who`, or of an agent that is no thread, in the caches of die `d`, to some lines:
performed once every line may be accessed; until then its requests stand at their homes. The flag tells that it may be performed.
(DEDUCED, log entry 9.) -/
def State.obtainAt (s : State) (who : Option Nat) (d : Nat) (lines : List Nat) (write : Bool) : State × Bool :=
  let rs := lines.map fun l => (l, s.rightAt who d l write)
  if rs.all fun r => r.2 == .ok then (lines.foldl (fun s l => s.takeLine who d l write) s, true)
  else (rs.foldl (fun s r => match r.2 with
    | .ok => s
    | .flush => s.wantGranule (r.1 / 512)
    | .request => s.askHome d r.1 write) s, false)

/-- The lines of some runs that the directory keeps. -/
def dirLines (gs : List Seg) : List Nat := segLines (gs.filter fun g => !g.nc && !isSp g.loc)

/-- R433, R436: the access of a thread of a core to the lines of some runs. (DEDUCED, log entry 9.) -/
def State.obtain (s : State) (c : Nat) (gs : List Seg) (write : Bool) : State × Bool :=
  s.obtainAt (some c) (dieOf c) (dirLines gs) write

/-- R433, R436: the access of an agent of a die that is no thread, 8 of no Tukan die. (DEDUCED, log entry 9.) -/
def State.obtainUnit (s : State) (d : Nat) (gs : List Seg) (write : Bool) : State × Bool :=
  s.obtainAt none d (dirLines gs) write

/-- R433: the access of a unit that waits for nothing, whose transaction is one with it. (DEDUCED, log entry 9.) -/
def State.foldAccess (s : State) (d : Nat) (write : Bool) (gs : List Seg) : State :=
  (dirLines gs).foldl (fun s l => (s.touchOther l).dirGrant l d write) s

/-- The bytes of a store, written at their places: in memory, or in the die's copy of a non-coherent line (R263). -/
def State.putBytes (d : Nat) : State → List (Nat × Bool) → List Byte → State
  | s, (loc, nc) :: t, b :: u =>
    State.putBytes d
      (if nc then
        (s.holdNc d [⟨loc, 1, true⟩]).modDie d fun x =>
          { x with nc := Tbl.set x.nc loc b, ncDirty := insertNat loc x.ncDirty }
      else s.wr loc [b]) t u
  | s, _, _ => s

/-- R241, R263: a store of a die is performed: in memory, or in the die's copy of a non-coherent line. -/
def State.performStore (s : State) (d : Nat) (gs : List Seg) (bs : List Byte) : State :=
  (State.putBytes d s (segPlaces gs) bs).markStale (segLines (gs.filter fun g => !g.nc))

/-- The bytes of a `stnc`, written at their places and merged into the copy that the die holds (R228). -/
def State.putBytesNc (d : Nat) : State → List (Nat × Bool) → List Byte → State
  | s, (loc, nc) :: t, b :: u =>
    let s' := s.wr loc [b]
    State.putBytesNc d
      (if nc then s'.modDie d fun x =>
          match Tbl.find? x.nc loc with
          | some _ => { x with nc := Tbl.set x.nc loc b }
          | none => x
        else s') t u
  | s, _, _ => s

/-- R228: a `stnc` is performed at the home, host, peer or register; on non-coherent memory its bytes are also merged
into the issuing die's copy where it holds one. -/
def State.performStoreNc (s : State) (d : Nat) (gs : List Seg) (bs : List Byte) : State :=
  (State.putBytesNc d s (segPlaces gs) bs).markStale (segLines (gs.filter fun g => !g.nc))

/-- A write of an agent other than a thread (R431). -/
def State.agentStore (s : State) (d : Nat) (gs : List Seg) (bs : List Byte) : State :=
  (s.foldAccess d true gs).performStore d gs bs
/-- A write of an agent other than a thread, performed past the caches. -/
def State.agentStoreNc (s : State) (d : Nat) (gs : List Seg) (bs : List Byte) : State :=
  (s.foldAccess 8 true gs).performStoreNc d gs bs

/-- R231: `cwb` and `cinv` of a line, performed. On coherent memory the single copy of the model is already written. -/
def State.performCache (s : State) (d : Nat) (inv : Bool) (gs : List Seg) : State :=
  gs.foldl (fun s g =>
    let line := g.loc / 128
    if g.nc then (if inv then s.dropNc d line else s.writeBackNc d line)
    else if inv then
      let s1 := s.leaveL1 (fun _ => true) (· == line)
      { s1 with dies := Tbl.mapVals (fun _ x => { x with l2 := x.l2.filter (· != line) }) s1.dies }
    else s) s

/-- R212, R263, R342: a line is evicted from the L1 of a core. (DESIGN CHOICE, log entry 8.) -/
def State.evictL1 (s : State) (c line : Nat) : State := s.leaveL1 (· == c) (· == line)

/-- R434: an entry of a die's cluster filter is evicted: the L1 copies that it names are invalidated.
(DESIGN CHOICE, log entry 8.) -/
def State.evictFilter (s : State) (d line : Nat) : State :=
  if (Tbl.find? (s.die d).filter line).isSome then s.dropL1 d line none else s

/-- R434: the cluster filter of 262,144 entries, 16-way, makes room for a line: of a full set the lowest line that is not locked is
evicted. (DESIGN CHOICE, log entry 29.) -/
def State.filterRoom (s : State) (d line : Nat) : State :=
  let x := s.die d
  let mine := Tbl.keysWhere (fun l _ => l % 16384 == line % 16384 && l != line) x.filter
  if (Tbl.find? x.filter line).isSome || mine.length < 16 then s
  else match mine.find? fun l => !s.locks.any (fun e => e.1 == l) with
    | some l => s.evictFilter d l
    | none => s

/-- R258: a write keeps what the bytes held before, which an engine's read may still return. (DESIGN CHOICE, log entry 56.) -/
def State.keepOld (s : State) (gs : List Seg) : State :=
  { s with before := (segLocs gs).foldl (fun t l => Tbl.set t l (memRead s.mem l, s.clk)) s.before }

/-- R250, R258, R309: the byte that an engine reads for a command of a thread: the newest one, or the one before it, where the
schedule says so and the thread has fenced its engines no later than that write. (DESIGN CHOICE, log entry 56.) -/
def State.engByte (s : State) (c sl loc : Nat) : Byte :=
  if s.oldBytes.contains loc then
    match Tbl.find? s.before loc with
    | some (b, t) => if (s.thread c sl).engFence < t then b else memRead s.mem loc
    | none => memRead s.mem loc
  else memRead s.mem loc

/-! Forwarding (R242) -/

/-- The byte of a place in a store-buffer entry, if the entry holds data for it. -/
def BufEntry.byteOf (e : BufEntry) (loc : Nat) : Option Byte :=
  let rec go : List Nat → List Byte → Option Byte
    | l :: t, b :: u => if l = loc then some b else go t u
    | _, _ => none
  match e.kind with
  | .cwb | .cinv => none
  | _ => go (segLocs e.segs) e.data

/-- R234: is the entry a cache operation on the line of a place? -/
def BufEntry.lineOpAt (e : BufEntry) (loc : Nat) : Bool :=
  (e.kind == .cwb || e.kind == .cinv) && (segLines e.segs).contains (loc / 128)

/-- R234, R242: what the youngest of some entries that covers a place gives: its byte, or none for a cache operation. -/
def forwardByte (buf : List BufEntry) (loc : Nat) : Option (Option Byte) :=
  buf.foldl (fun acc e =>
    match e.byteOf loc with
    | some b => some (some b)
    | none => if e.lineOpAt loc then some none else acc) none

/-- R235, R242: the entries of a buffer that a read after the first `epoch` commits of its thread sees. -/
def entriesBefore (buf : List BufEntry) (epoch : Nat) : List BufEntry := buf.filter fun e => e.committed && decide (e.epoch ≤ epoch)

/-- R242: what a read of a thread gets now. -/
inductive Forward where
  | memory
  | buffer (bs : List Byte)
  | wait
deriving DecidableEq, Repr

/-- R242: compare a read's bytes with the thread's committed entries, of those that come before the read.
(DEDUCED, log entry 44.) -/
def forwardAt (buf : List BufEntry) (epoch : Nat) (gs : List Seg) : Forward :=
  let f := (segLocs gs).map (forwardByte (entriesBefore buf epoch))
  if f.all Option.isNone then .memory
  else if f.all fun b => (b.getD none).isSome then .buffer (f.map fun b => (b.getD none).getD 0)
  else .wait

/-- R242: compare the bytes of a read at fire with the thread's committed entries. -/
def Thread.forward (t : Thread) (gs : List Seg) : Forward := forwardAt t.buf t.epoch gs

/-- R242, R254: a read takes bytes of the entries that come before it. -/
def Thread.markSeen (t : Thread) (epoch : Nat) (gs : List Seg) : Thread :=
  { t with buf := t.buf.map fun e =>
      if e.committed && decide (e.epoch ≤ epoch) && segsMeet e.segs gs then { e with seen := true } else e }

/-- R242, R254: a read of a thread, after all its commits, takes bytes of its entries. -/
def State.seeOwn (s : State) (c sl : Nat) (gs : List Seg) : State := s.modThread c sl fun t => t.markSeen t.epoch gs

/-- R344, R256: is a line of the runs locked by a region, or owned by an engine, other than a given one? -/
def State.lineHeld (s : State) (gs : List Seg) (core : Nat) (region : Option Nat) : Bool :=
  (segLines gs).any fun l =>
    s.locks.any (fun (x, c, r) => x == l && !(c == core && some r == region)) || s.owned.any (fun (x, _, _) => x == l)

/-- R265: has an atomic taken its place before an access that now comes to some runs, and is still to be performed? -/
def State.atomicFirst (s : State) (gs : List Seg) : Bool :=
  s.dies.any fun (_, d) => d.tiles.any fun q => q.answer.isNone && segsMeet q.segs gs

/-- R445: the port on which a request to a line of a peer travels: among the set bits of PORTS, the one that the line's address
chooses. -/
def State.peerPort (s : State) (line : Nat) : Option Nat :=
  match (if line < 2 ^ 45 then paKind s (line * 128) else .nothing) with
  | .peer n =>
    let ports := (List.range 72).filter ((Tbl.get 0 s.mgmt.peers n).toNat % 2 ^ 72).testBit
    ports[line % ports.length]?
  | _ => none

/-- R445, R448: does a request to a line of a peer travel on a port that is lost with I/O die 9? It gets no answer. -/
def State.portLost (s : State) (gs : List Seg) : Bool :=
  s.mgmt.gone.contains 10 && (segLines gs).any fun l => match s.peerPort l with | some p => decide (36 ≤ p) | none => false

/-- R256, R265, R344, R445: does an access of a thread, in or out of a region, to some runs wait for their lines? -/
def State.mustWait (s : State) (gs : List Seg) (core : Nat) (region : Option Nat) : Bool :=
  s.lineHeld gs core region || s.atomicFirst gs || s.portLost gs

/-- R212, R434: lines come into the L1 of a core (or, on a fused die, of the line's own), and the cluster filter names it:
up to four cores, then all of them, written 256. -/
def State.holdL1 (s : State) (c : Nat) (lines : List Nat) : State :=
  (lines.filter (cacheable s)).foldl (fun s l =>
    let k := s.l1Core c l
    let s1 := s.modCore k fun x => { x with l1 := l :: x.l1.filter (· != l) }
    let oldest := (s1.core k).l1.drop 512
    let s2 := if oldest.isEmpty then s1 else s1.leaveL1 (· == k) oldest.contains
    if (s.granuleOwner (l / 512)).isSome then s2
    else (s2.filterRoom (dieOf c) l).modDie (dieOf c) fun x =>
      let old := Tbl.get [] x.filter l
      let new := insertNat k old
      { x with filter := Tbl.set x.filter l (if old.contains 256 ∨ 4 < new.length then [256] else new) }) s

/-- R436: the die whose L2 holds a line that a core brings in: of a private granule its home, else the core's. -/
def State.l2Die (s : State) (c line : Nat) : Nat :=
  if (s.granuleOwner (line / 512)).isSome then (lineHome s line).getD (dieOf c) else dieOf c

/-- R226: bring lines into the caches that a load leaves them in. (DESIGN CHOICE, log entry 8.)
(DESIGN CHOICE, log entry 29.) -/
def State.cacheLines (s : State) (c : Nat) (l1 : Bool) (gs : List Seg) : State :=
  let lines := cacheLinesOf s gs
  let s' := if l1 then s.holdL1 c lines else s
  lines.foldl (fun s l => s.enterL2 (s.l2Die c l) [l]) s'

/-- R439: what a reroute adds to the crossing from a die to another. -/
def State.crossing (s : State) (d h : Nat) : Nat := if (s.die d).rerouted.contains h then 40 else 0

/-- R439: what the reroutes add to an access of a die to a line and its answer. -/
def State.detour (s : State) (d line : Nat) : Nat :=
  match lineHome s line with
  | some h => s.crossing d h + s.crossing h d
  | none => 0

/-- R21, R209, R213: the least clk that a read of a core takes to the data of some runs, as the caches stand; `home` tells that it
bypasses the caches. Host and peer memory have no figure. (DESIGN CHOICE, log entry 4.) -/
def State.readLatency (s : State) (c : Nat) (home : Bool) (gs : List Seg) : Nat :=
  let sp := (gs.filter fun g => isSp g.loc).foldl (fun m g => max m (if (g.loc - 2 ^ 52) / 2 ^ 18 = c then 6 else 24)) 0
  (segLines (gs.filter fun g => !isSp g.loc)).foldl (fun m l =>
    let k := s.l1Core c l
    max m (
      if !home && (s.core k).l1.contains l then (if k = c then 20 else 34)
      else if (!home || lineHome s l == some (dieOf c)) && (s.die (dieOf c)).l2.contains l then 110
      else if (match lineHome s l with | some h => h != dieOf c && (s.die h).l2.contains l | none => false) then 180 + s.detour (dieOf c) l
      else s.detour (dieOf c) l + match paKind s (l * 128) with
        | .hbm => 420
        | .tier2 => 1200
        | _ => 0)) sp

/-- R223: the bytes that a read gets at its point of performance for a die; none when they are poisoned.
(DESIGN CHOICE, log entry 8.) -/
def State.readBytes (s : State) (d : Nat) (nc : Bool) (gs : List Seg) : Option (List Byte) :=
  if s.segsPoisoned gs then none
  else some ((segPlaces gs).map fun (l, n) => s.byteAt d (n && nc) l)

end Sys2Proof.Machine
end

