-- ==== Sys2Proof/Machine/Block.lean ====
section
/-! DEFINITION. A block as a whole (chapter 3): its header (R52), its continuation (R51), the ports and token widths of
each instruction (R66, R70 and the instruction tables), the checks of R76 on a fetched block, and the kinds of
instruction that the check point tells apart (R237, R238). -/

namespace Sys2Proof.Machine

/-! Ports -/

/-- What an instruction's description says of a port: unused, required with its width (`pair` true for 128 bits), or
optional, of a dword. -/
inductive PortUse where
  | unused
  | req (pair : Bool)
  | opt
deriving DecidableEq, Repr

/-- R66, R70 and the tables of the instruction chapters: ports a, b and c of an instruction. -/
def portsOf : Instr → PortUse × PortUse × PortUse
  | .read _ _ _ => (.unused, .unused, .unused)
  | .readD _ _ _ => (.unused, .unused, .unused)
  | .lit _ _ _ => (.unused, .unused, .unused)
  | .litD _ _ _ => (.unused, .unused, .unused)
  | .const _ _ => (.unused, .unused, .unused)
  | .mov w _ _ => (.req w, .unused, .opt)
  | .gate w _ _ => (.req w, .req false, .unused)
  | .gaten w _ _ => (.req w, .req false, .unused)
  | .sel w _ _ => (.req w, .req w, .req false)
  | .pick w _ _ => (.req w, .req w, .unused)
  | .pair _ _ => (.req false, .req false, .opt)
  | .split _ _ => (.req true, .unused, .opt)
  | .sink w => (.req w, .unused, .unused)
  | .isnull w _ _ => (.req w, .unused, .unused)
  | .id _ _ _ => (.unused, .unused, .unused)
  | .br _ => (.unused, .unused, .unused)
  | .brc _ => (.req false, .unused, .unused)
  | .brcn _ => (.req false, .unused, .unused)
  | .brx => (.req false, .unused, .unused)
  | .call _ => (.unused, .unused, .unused)
  | .callc _ => (.req false, .unused, .unused)
  | .callx => (.req false, .unused, .unused)
  | .ret => (.unused, .unused, .unused)
  | .exit => (.unused, .unused, .unused)
  | .exitc => (.req false, .unused, .unused)
  | .add _ _ _ => (.req false, .req false, .opt)
  | .sub _ _ _ => (.req false, .req false, .opt)
  | .addi _ _ => (.req false, .unused, .opt)
  | .mul _ _ _ => (.req false, .req false, .opt)
  | .mulhi _ _ _ => (.req false, .req false, .opt)
  | .mulw _ _ _ => (.req false, .req false, .opt)
  | .mad _ _ _ => (.req false, .req false, .req false)
  | .div _ _ _ => (.req false, .req false, .opt)
  | .rem _ _ _ => (.req false, .req false, .opt)
  | .min _ _ _ => (.req false, .req false, .opt)
  | .max _ _ _ => (.req false, .req false, .opt)
  | .abs _ _ _ => (.req false, .unused, .opt)
  | .neg _ _ _ => (.req false, .unused, .opt)
  | .and _ _ _ => (.req false, .req false, .opt)
  | .or _ _ _ => (.req false, .req false, .opt)
  | .xor _ _ _ => (.req false, .req false, .opt)
  | .andn _ _ _ => (.req false, .req false, .opt)
  | .not _ _ _ => (.req false, .unused, .opt)
  | .shl _ _ _ => (.req false, .req false, .opt)
  | .shr _ _ _ => (.req false, .req false, .opt)
  | .sar _ _ _ => (.req false, .req false, .opt)
  | .rotl _ _ _ => (.req false, .req false, .opt)
  | .rotr _ _ _ => (.req false, .req false, .opt)
  | .clz _ _ _ => (.req false, .unused, .opt)
  | .ctz _ _ _ => (.req false, .unused, .opt)
  | .popc _ _ _ => (.req false, .unused, .opt)
  | .brev _ _ _ => (.req false, .unused, .opt)
  | .bswap _ _ _ => (.req false, .unused, .opt)
  | .bfx _ _ _ => (.req false, .req false, .opt)
  | .bfi _ _ _ => (.req false, .req false, .req false)
  | .lea _ _ _ => (.req false, .req false, .opt)
  | .absdiff _ _ _ => (.req false, .req false, .opt)
  | .setpEq _ _ _ => (.req false, .req false, .opt)
  | .setpNe _ _ _ => (.req false, .req false, .opt)
  | .setpLt _ _ _ => (.req false, .req false, .opt)
  | .setpLe _ _ _ => (.req false, .req false, .opt)
  | .setpGt _ _ _ => (.req false, .req false, .opt)
  | .setpGe _ _ _ => (.req false, .req false, .opt)
  | .pand _ _ => (.req false, .req false, .opt)
  | .por _ _ => (.req false, .req false, .opt)
  | .pxor _ _ => (.req false, .req false, .opt)
  | .pnot _ _ => (.req false, .unused, .opt)
  | .andi _ _ => (.req false, .unused, .opt)
  | .shli _ _ => (.req false, .unused, .opt)
  | .shri _ _ => (.req false, .unused, .opt)
  | .muli _ _ => (.req false, .unused, .opt)
  | .setpiEq _ _ => (.req false, .unused, .opt)
  | .setpiLt _ _ => (.req false, .unused, .opt)
  | .fadd _ _ _ => (.req false, .req false, .opt)
  | .fmul _ _ _ => (.req false, .req false, .opt)
  | .ffma _ _ _ => (.req false, .req false, .req false)
  | .fmin _ _ _ => (.req false, .req false, .opt)
  | .fmax _ _ _ => (.req false, .req false, .opt)
  | .fabs _ _ _ => (.req false, .unused, .opt)
  | .fneg _ _ _ => (.req false, .unused, .opt)
  | .fcopysign _ _ _ => (.req false, .req false, .opt)
  | .fsetpEq _ _ _ => (.req false, .req false, .opt)
  | .fsetpNe _ _ _ => (.req false, .req false, .opt)
  | .fsetpLt _ _ _ => (.req false, .req false, .opt)
  | .fsetpLe _ _ _ => (.req false, .req false, .opt)
  | .fsetpUn _ _ _ => (.req false, .req false, .opt)
  | .fclass _ _ _ => (.req false, .unused, .opt)
  | .fdiv _ _ _ => (.req false, .req false, .opt)
  | .fsqrt _ _ _ => (.req false, .unused, .opt)
  | .frcp _ _ _ => (.req false, .unused, .opt)
  | .frsq _ _ _ => (.req false, .unused, .opt)
  | .fex2 _ _ _ => (.req false, .unused, .opt)
  | .flg2 _ _ _ => (.req false, .unused, .opt)
  | .fsin _ _ _ => (.req false, .unused, .opt)
  | .fcos _ _ _ => (.req false, .unused, .opt)
  | .ftanh _ _ _ => (.req false, .unused, .opt)
  | .fround _ _ _ => (.req false, .unused, .opt)
  | .fdot2 _ _ _ => (.req false, .req false, .req false)
  | .cvtF64 _ _ _ => (.req false, .unused, .opt)
  | .cvtF32 _ _ _ => (.req false, .unused, .opt)
  | .cvtF16 _ _ _ => (.req false, .unused, .opt)
  | .cvtBf16 _ _ _ => (.req false, .unused, .opt)
  | .cvtE4m3 _ _ _ => (.req false, .unused, .opt)
  | .cvtE5m2 _ _ _ => (.req false, .unused, .opt)
  | .cvtI32 _ _ _ => (.req false, .unused, .opt)
  | .cvtN32 _ _ _ => (.req false, .unused, .opt)
  | .cvtI64 _ _ _ => (.req false, .unused, .opt)
  | .cvtN64 _ _ _ => (.req false, .unused, .opt)
  | .cvtPk _ _ _ => (.req false, .req false, .opt)
  | .cvtCh _ _ _ => (.req false, .req false, .opt)
  | .ld _ _ _ => (.req false, .opt, .unused)
  | .lds _ _ _ => (.req false, .opt, .unused)
  | .ldAcq _ _ _ _ => (.req false, .opt, .unused)
  | .ldd _ _ _ => (.req false, .opt, .unused)
  | .ldnc _ _ _ => (.req false, .opt, .unused)
  | .st z _ => (.req false, .opt, .req (z == .b128))
  | .stRel z _ _ => (.req false, .opt, .req (z == .b128))
  | .stnc z _ => (.req false, .opt, .req (z == .b128))
  | .prefetch _ _ => (.req false, .opt, .unused)
  | .fence _ _ _ => (.unused, .req false, .unused)
  | .fenceEng _ => (.unused, .req false, .unused)
  | .cinv _ => (.req false, .opt, .unused)
  | .cwb _ => (.req false, .opt, .unused)
  | .probe _ _ => (.req false, .opt, .unused)
  | .aadd _ _ _ => (.req false, .opt, .req false)
  | .aaddAr _ _ _ _ => (.req false, .opt, .req false)
  | .amin _ _ _ => (.req false, .opt, .req false)
  | .aminAr _ _ _ _ => (.req false, .opt, .req false)
  | .amax _ _ _ => (.req false, .opt, .req false)
  | .amaxAr _ _ _ _ => (.req false, .opt, .req false)
  | .aminn _ _ _ => (.req false, .opt, .req false)
  | .amaxn _ _ _ => (.req false, .opt, .req false)
  | .aand _ _ _ => (.req false, .opt, .req false)
  | .aandAr _ _ _ _ => (.req false, .opt, .req false)
  | .aor _ _ _ => (.req false, .opt, .req false)
  | .aorAr _ _ _ _ => (.req false, .opt, .req false)
  | .axor _ _ _ => (.req false, .opt, .req false)
  | .axorAr _ _ _ _ => (.req false, .opt, .req false)
  | .axchg _ _ _ => (.req false, .opt, .req false)
  | .axchgAr _ _ _ _ => (.req false, .opt, .req false)
  | .acas z _ _ => (.req false, .req (z == .b128), .req (z == .b128))
  | .acasAr z _ _ _ => (.req false, .req (z == .b128), .req (z == .b128))
  | .ainc _ _ _ => (.req false, .opt, .req false)
  | .adec _ _ _ => (.req false, .opt, .req false)
  | .aaddb _ _ _ => (.req false, .req false, .req false)
  | .aaddbAr _ _ _ _ => (.req false, .req false, .req false)
  | .afadd _ _ _ => (.req false, .opt, .req false)
  | .afadd2 _ _ _ => (.req false, .opt, .req false)
  | .afmin _ _ _ => (.req false, .opt, .req false)
  | .afmax _ _ _ => (.req false, .opt, .req false)
  | .aredAdd _ _ => (.req false, .opt, .req false)
  | .aredFadd _ _ => (.req false, .opt, .req false)
  | .aredMin _ _ => (.req false, .opt, .req false)
  | .aredMax _ _ => (.req false, .opt, .req false)
  | .aredOr _ _ => (.req false, .opt, .req false)
  | .aredAnd _ _ => (.req false, .opt, .req false)
  | .barWait _ _ => (.unused, .unused, .unused)
  | .barArrive _ _ => (.req false, .unused, .unused)
  | .barDrop _ _ => (.req false, .unused, .unused)
  | .barInit _ _ _ => (.req false, .unused, .unused)
  | .stgExpect _ _ _ => (.req false, .unused, .unused)
  | .stgWait _ _ => (.unused, .unused, .unused)
  | .waitp _ _ => (.req false, .unused, .unused)
  | .ropeWait _ => (.unused, .unused, .unused)
  | .cpy _ _ _ => (.req false, .opt, .unused)
  | .cpyColl _ _ _ => (.req false, .opt, .unused)
  | .cwptr _ _ _ _ => (.req false, .unused, .unused)
  | .cchan _ _ _ => (.req false, .unused, .unused)
  | .mma _ => (.req true, .req true, .req false)
  | .maccLd _ _ => (.req true, .opt, .req false)
  | .maccSt _ _ => (.req true, .opt, .req false)
  | .mgang _ _ => (.req false, .unused, .unused)
  | .mchan _ _ => (.req false, .unused, .unused)
  | .twin _ => (.req false, .req false, .unused)
  | .tload _ _ => (.req false, .opt, .req false)
  | .tlaunch _ _ => (.req false, .opt, .unused)
  | .tcap _ => (.req false, .opt, .unused)
  | .trst _ => (.req false, .unused, .unused)
  | .tcode _ _ => (.req false, .req false, .unused)
  | .tval _ _ => (.req false, .unused, .unused)
  | .abegin _ => (.unused, .unused, .unused)
  | .acommit _ => (.unused, .unused, .unused)
  | .aabort _ => (.req false, .unused, .unused)
  | .astat _ _ => (.req false, .unused, .unused)
  | .apin _ _ => (.req false, .unused, .unused)
  | .hspawn _ _ => (.req false, .req false, .unused)
  | .hgainAdd _ _ => (.req false, .req false, .unused)
  | .hgainMax _ _ => (.req false, .req false, .unused)
  | .hgainSet _ _ => (.req false, .req false, .unused)
  | .hdep _ _ => (.req false, .opt, .unused)
  | .hdone => (.opt, .unused, .unused)
  | .hresid _ _ => (.req false, .unused, .unused)
  | .hself _ _ => (.req false, .unused, .unused)
  | .trap _ => (.unused, .unused, .unused)
  | .brk _ => (.unused, .unused, .unused)
  | .eret _ => (.unused, .unused, .unused)
  | .sysrd _ _ _ => (.unused, .unused, .unused)
  | .syswr _ _ => (.req false, .unused, .unused)
  | .cfginv _ => (.req false, .req false, .unused)
  | .cairn _ _ => (.req false, .unused, .unused)
  | .tsc _ _ => (.unused, .unused, .unused)
  | .nop => (.req false, .unused, .unused)
  | .halt => (.unused, .unused, .unused)
  | _ => (.unused, .unused, .unused)

/-- R120: does an instruction emit a pair token on T0, and on T1? -/
def pairOut : Instr → Bool × Bool
  | .mov w _ _ => (w, w)
  | .gate w _ _ => (w, w)
  | .gaten w _ _ => (w, w)
  | .sel w _ _ => (w, w)
  | .pick w _ _ => (w, w)
  | .pair _ _ => (true, true)
  | .mulw m _ _ => (m.ty == .i64 || m.ty == .n64, m.ty == .i64 || m.ty == .n64)
  | .ld z _ _ => (z == .b128, false)
  | .lds z _ _ => (z == .b128, false)
  | .ldAcq z _ _ _ => (z == .b128, false)
  | .ldnc z _ _ => (z == .b128, false)
  | .acas z _ _ => (z == .b128, false)
  | .acasAr z _ _ _ => (z == .b128, false)
  | _ => (false, false)

/-- The targets T1 and T0 of an instruction. -/
def targetsOf : Instr → Target × Target
  | .read _ t1 t0 => (t1, t0)
  | .readD _ t1 t0 => (t1, t0)
  | .lit _ t1 t0 => (t1, t0)
  | .litD _ t1 t0 => (t1, t0)
  | .const _ t0 => (.none, t0)
  | .mov _ t1 t0 => (t1, t0)
  | .gate _ t1 t0 => (t1, t0)
  | .gaten _ t1 t0 => (t1, t0)
  | .sel _ t1 t0 => (t1, t0)
  | .pick _ t1 t0 => (t1, t0)
  | .pair t1 t0 => (t1, t0)
  | .split t1 t0 => (t1, t0)
  | .isnull _ t1 t0 => (t1, t0)
  | .id _ t1 t0 => (t1, t0)
  | .add _ t1 t0 => (t1, t0)
  | .sub _ t1 t0 => (t1, t0)
  | .addi _ t0 => (.none, t0)
  | .mul _ t1 t0 => (t1, t0)
  | .mulhi _ t1 t0 => (t1, t0)
  | .mulw _ t1 t0 => (t1, t0)
  | .mad _ t1 t0 => (t1, t0)
  | .div _ t1 t0 => (t1, t0)
  | .rem _ t1 t0 => (t1, t0)
  | .min _ t1 t0 => (t1, t0)
  | .max _ t1 t0 => (t1, t0)
  | .abs _ t1 t0 => (t1, t0)
  | .neg _ t1 t0 => (t1, t0)
  | .and _ t1 t0 => (t1, t0)
  | .or _ t1 t0 => (t1, t0)
  | .xor _ t1 t0 => (t1, t0)
  | .andn _ t1 t0 => (t1, t0)
  | .not _ t1 t0 => (t1, t0)
  | .shl _ t1 t0 => (t1, t0)
  | .shr _ t1 t0 => (t1, t0)
  | .sar _ t1 t0 => (t1, t0)
  | .rotl _ t1 t0 => (t1, t0)
  | .rotr _ t1 t0 => (t1, t0)
  | .clz _ t1 t0 => (t1, t0)
  | .ctz _ t1 t0 => (t1, t0)
  | .popc _ t1 t0 => (t1, t0)
  | .brev _ t1 t0 => (t1, t0)
  | .bswap _ t1 t0 => (t1, t0)
  | .bfx _ t1 t0 => (t1, t0)
  | .bfi _ t1 t0 => (t1, t0)
  | .lea _ t1 t0 => (t1, t0)
  | .absdiff _ t1 t0 => (t1, t0)
  | .setpEq _ t1 t0 => (t1, t0)
  | .setpNe _ t1 t0 => (t1, t0)
  | .setpLt _ t1 t0 => (t1, t0)
  | .setpLe _ t1 t0 => (t1, t0)
  | .setpGt _ t1 t0 => (t1, t0)
  | .setpGe _ t1 t0 => (t1, t0)
  | .pand t1 t0 => (t1, t0)
  | .por t1 t0 => (t1, t0)
  | .pxor t1 t0 => (t1, t0)
  | .pnot t1 t0 => (t1, t0)
  | .andi _ t0 => (.none, t0)
  | .shli _ t0 => (.none, t0)
  | .shri _ t0 => (.none, t0)
  | .muli _ t0 => (.none, t0)
  | .setpiEq _ t0 => (.none, t0)
  | .setpiLt _ t0 => (.none, t0)
  | .fadd _ t1 t0 => (t1, t0)
  | .fmul _ t1 t0 => (t1, t0)
  | .ffma _ t1 t0 => (t1, t0)
  | .fmin _ t1 t0 => (t1, t0)
  | .fmax _ t1 t0 => (t1, t0)
  | .fabs _ t1 t0 => (t1, t0)
  | .fneg _ t1 t0 => (t1, t0)
  | .fcopysign _ t1 t0 => (t1, t0)
  | .fsetpEq _ t1 t0 => (t1, t0)
  | .fsetpNe _ t1 t0 => (t1, t0)
  | .fsetpLt _ t1 t0 => (t1, t0)
  | .fsetpLe _ t1 t0 => (t1, t0)
  | .fsetpUn _ t1 t0 => (t1, t0)
  | .fclass _ t1 t0 => (t1, t0)
  | .fdiv _ t1 t0 => (t1, t0)
  | .fsqrt _ t1 t0 => (t1, t0)
  | .frcp _ t1 t0 => (t1, t0)
  | .frsq _ t1 t0 => (t1, t0)
  | .fex2 _ t1 t0 => (t1, t0)
  | .flg2 _ t1 t0 => (t1, t0)
  | .fsin _ t1 t0 => (t1, t0)
  | .fcos _ t1 t0 => (t1, t0)
  | .ftanh _ t1 t0 => (t1, t0)
  | .fround _ t1 t0 => (t1, t0)
  | .fdot2 _ t1 t0 => (t1, t0)
  | .cvtF64 _ t1 t0 => (t1, t0)
  | .cvtF32 _ t1 t0 => (t1, t0)
  | .cvtF16 _ t1 t0 => (t1, t0)
  | .cvtBf16 _ t1 t0 => (t1, t0)
  | .cvtE4m3 _ t1 t0 => (t1, t0)
  | .cvtE5m2 _ t1 t0 => (t1, t0)
  | .cvtI32 _ t1 t0 => (t1, t0)
  | .cvtN32 _ t1 t0 => (t1, t0)
  | .cvtI64 _ t1 t0 => (t1, t0)
  | .cvtN64 _ t1 t0 => (t1, t0)
  | .cvtPk _ t1 t0 => (t1, t0)
  | .cvtCh _ t1 t0 => (t1, t0)
  | .ld _ t1 t0 => (t1, t0)
  | .lds _ t1 t0 => (t1, t0)
  | .ldAcq _ _ t1 t0 => (t1, t0)
  | .ldd _ t1 t0 => (t1, t0)
  | .ldnc _ t1 t0 => (t1, t0)
  | .st _ t1 => (t1, .none)
  | .stRel _ _ t1 => (t1, .none)
  | .stnc _ t1 => (t1, .none)
  | .prefetch _ t1 => (t1, .none)
  | .fence _ _ t1 => (t1, .none)
  | .fenceEng t1 => (t1, .none)
  | .cinv t1 => (t1, .none)
  | .cwb t1 => (t1, .none)
  | .probe t1 t0 => (t1, t0)
  | .aadd _ t1 t0 => (t1, t0)
  | .aaddAr _ _ t1 t0 => (t1, t0)
  | .amin _ t1 t0 => (t1, t0)
  | .aminAr _ _ t1 t0 => (t1, t0)
  | .amax _ t1 t0 => (t1, t0)
  | .amaxAr _ _ t1 t0 => (t1, t0)
  | .aminn _ t1 t0 => (t1, t0)
  | .amaxn _ t1 t0 => (t1, t0)
  | .aand _ t1 t0 => (t1, t0)
  | .aandAr _ _ t1 t0 => (t1, t0)
  | .aor _ t1 t0 => (t1, t0)
  | .aorAr _ _ t1 t0 => (t1, t0)
  | .axor _ t1 t0 => (t1, t0)
  | .axorAr _ _ t1 t0 => (t1, t0)
  | .axchg _ t1 t0 => (t1, t0)
  | .axchgAr _ _ t1 t0 => (t1, t0)
  | .acas _ t1 t0 => (t1, t0)
  | .acasAr _ _ t1 t0 => (t1, t0)
  | .ainc _ t1 t0 => (t1, t0)
  | .adec _ t1 t0 => (t1, t0)
  | .aaddb _ t1 t0 => (t1, t0)
  | .aaddbAr _ _ t1 t0 => (t1, t0)
  | .afadd _ t1 t0 => (t1, t0)
  | .afadd2 _ t1 t0 => (t1, t0)
  | .afmin _ t1 t0 => (t1, t0)
  | .afmax _ t1 t0 => (t1, t0)
  | .aredAdd _ t1 => (t1, .none)
  | .aredFadd _ t1 => (t1, .none)
  | .aredMin _ t1 => (t1, .none)
  | .aredMax _ t1 => (t1, .none)
  | .aredOr _ t1 => (t1, .none)
  | .aredAnd _ t1 => (t1, .none)
  | .barArrive _ t1 => (t1, .none)
  | .barDrop _ t1 => (t1, .none)
  | .barInit _ t1 t0 => (t1, t0)
  | .stgExpect _ _ t1 => (t1, .none)
  | .cpy _ t1 t0 => (t1, t0)
  | .cpyColl _ t1 t0 => (t1, t0)
  | .cwptr _ _ t1 t0 => (t1, t0)
  | .cchan _ t1 t0 => (t1, t0)
  | .mma t1 => (t1, .none)
  | .maccLd _ t1 => (t1, .none)
  | .maccSt _ t1 => (t1, .none)
  | .mgang t1 t0 => (t1, t0)
  | .mchan t1 t0 => (t1, t0)
  | .twin t1 => (t1, .none)
  | .tload _ t1 => (t1, .none)
  | .tlaunch _ t1 => (t1, .none)
  | .tcap t1 => (t1, .none)
  | .trst t1 => (t1, .none)
  | .tcode t1 t0 => (t1, t0)
  | .tval t1 t0 => (t1, t0)
  | .aabort t1 => (t1, .none)
  | .astat t1 t0 => (t1, t0)
  | .apin t1 t0 => (t1, t0)
  | .hspawn t1 t0 => (t1, t0)
  | .hgainAdd t1 t0 => (t1, t0)
  | .hgainMax t1 t0 => (t1, t0)
  | .hgainSet t1 t0 => (t1, t0)
  | .hdep t1 t0 => (t1, t0)
  | .hresid t1 t0 => (t1, t0)
  | .hself t1 t0 => (t1, t0)
  | .sysrd _ t1 t0 => (t1, t0)
  | .syswr _ t1 => (t1, .none)
  | .cfginv t1 => (t1, .none)
  | .cairn _ t0 => (.none, t0)
  | .tsc t1 t0 => (t1, t0)
  | _ => (.none, .none)

/-- The use of one port. -/
def portUse (i : Instr) : PortSel → PortUse
  | .a => (portsOf i).1
  | .b => (portsOf i).2.1
  | .c => (portsOf i).2.2

/-! Kinds of opcode -/

/-- R74: the terminators. -/
def opIsTerminator (op : Nat) : Bool :=
  (decide (0x10 ≤ op) && decide (op ≤ 0x19)) || [0xc0, 0xc5, 0xc6, 0xc7, 0xe0, 0xe1, 0xed, 0xf0, 0xf1, 0xf2, 0xf9].contains op
/-- R237: the immediate-effect instructions. -/
def opIsImmediate (op : Nat) : Bool :=
  (decide (0xa0 ≤ op) && decide (op ≤ 0xbf)) || (decide (0xc1 ≤ op) && decide (op ≤ 0xc4))
    || (decide (0xd0 ≤ op) && decide (op ≤ 0xdf)) || [0xe2, 0xe4].contains op
    || (decide (0xe8 ≤ op) && decide (op ≤ 0xec)) || (decide (0xf4 ≤ op) && decide (op ≤ 0xf6))
/-- R238: the instructions with an address port a; `eret` waits for the check of its record in the same way (R425). -/
def opHasAddress (op : Nat) : Bool :=
  (decide (0x80 ≤ op) && decide (op ≤ 0x87)) || [0x8b, 0x8c].contains op || (decide (0xa0 ≤ op) && decide (op ≤ 0xbf))
    || [0xd0, 0xd1, 0xd4, 0xd5, 0xd6, 0xda, 0xdc, 0xe8, 0xf2].contains op
/-- R238, R304: is the port an address port? Port b of `mma` is one too. -/
def opAddressPort (op : Nat) (p : PortSel) : Bool :=
  match p with
  | .a => opHasAddress op
  | .b => op == 0xd4
  | .c => false
/-- R239: the consumers that no path from an immediate-effect result may reach, whatever the port. -/
def opWaitsForCheck (op : Nat) : Bool := (decide (0x80 ≤ op) && decide (op ≤ 0x87)) || [0x8b, 0x8c].contains op

/-! The header (R52) -/

def hdrN (h : Nat) : Nat := h / 2 ^ 26 % 64 + 1
def hdrM (h : Nat) : Nat := h / 2 ^ 22 % 16
def hdrSP (h : Nat) : Bool := h / 2 ^ 17 % 2 == 1
def hdrID (h : Nat) : Bool := h / 2 ^ 16 % 2 == 1
def hdrAR (h : Nat) : Bool := h / 2 ^ 15 % 2 == 1
def hdrGO (h : Nat) : Bool := h / 2 ^ 14 % 2 == 1
def hdrGW (h : Nat) : Nat := h / 16 % 1024
/-- R50: the words before the first instruction. -/
def hdrLead (h : Nat) : Nat := if hdrSP h then 3 else 1
/-- R50: the words of the block. -/
def hdrWords (h : Nat) : Nat := hdrLead h + hdrN h + hdrM h
/-- R51: the continuation of a block at an address. -/
def fallThrough (addr : VAddr) (h : Nat) : VAddr := addr + BitVec.ofNat 56 (4 * hdrWords h)
/-- R76, code 0x01. -/
def headerOk (h : Nat) : Bool := h % 16 == 0 && !(hdrGW h != 0 && !hdrGO h) && !(hdrID h && hdrAR h)

/-- The fields of the header of a block. -/
def Block.hdr (b : Block) : Nat := b.header.toNat
/-- R51. -/
def Block.ft (b : Block) : VAddr := fallThrough b.addr b.hdr
/-- The instruction at an index of a configured block; none where the block has none or the word is no instruction. -/
def Block.instr? (b : Block) (k : Nat) : Option Instr :=
  match b.words[k]? with
  | some w => (match decode w with | .ok i => some i | .error _ => none)
  | none => none
/-- The opcode at an index. -/
def Block.opAt (b : Block) (k : Nat) : Nat := match b.words[k]? with | some w => opcodeOf w | none => 0
/-- The indices of the instructions. -/
def Block.idxs (b : Block) : List Nat := List.range b.words.length
/-- R238: the instructions whose address the check point waits for. -/
def Block.addrIdxs (b : Block) : List Nat := b.idxs.filter fun k => opHasAddress (b.opAt k)
/-- R237: the immediate-effect instructions in ascending index. -/
def Block.immIdxs (b : Block) : List Nat := b.idxs.filter fun k => opIsImmediate (b.opAt k)
/-- The opcode of the terminator, the last instruction word. -/
def Block.termOp (b : Block) : Nat := b.opAt (b.words.length - 1)
/-- Does the terminator write the link pair (R112; a `callc` may)? -/
def Block.isCall (b : Block) : Bool := [0x14, 0x15, 0x16].contains b.termOp

/-- R67: the ports of the block's graph that some instruction targets, as 3 * index + port. -/
def Block.targeted (b : Block) : List Nat :=
  b.idxs.foldl (fun acc k =>
    match b.instr? k with
    | some i =>
      let add (acc : List Nat) (t : Target) : List Nat := match t with | .port p j => insertNat (3 * j.toNat + portNum p) acc | _ => acc
      add (add acc (targetsOf i).2) (targetsOf i).1
    | none => acc) []
/-- The targeted ports of one instruction, as port numbers. -/
def targetedOf (ts : List Nat) (k : Nat) : List Nat := (ts.filter fun x => x / 3 == k).map (· % 3)

/-- R108: the read set. -/
def Block.readSet (b : Block) : List Nat :=
  let base := b.idxs.foldl (fun acc k =>
    match b.instr? k with
    | some (.read s _ _) => insertNat s.toNat acc
    | some (.readD s _ _) => insertNat s.toNat (insertNat (s.toNat + 1) acc)
    | _ => acc) []
  if b.termOp = 0x17 then insertNat 62 (insertNat 63 base) else base

/-- The slots of a live-out target. -/
def liveSlots : Target → List Nat
  | .live s => [s.toNat]
  | .pairLive s => [s.toNat, s.toNat + 1]
  | _ => []

/-- R148: the touch set. -/
def Block.touchSet (b : Block) : List Nat :=
  let base := b.idxs.foldl (fun acc k =>
    match b.instr? k with
    | some i => (liveSlots (targetsOf i).1 ++ liveSlots (targetsOf i).2).foldl (fun a x => insertNat x a) acc
    | none => acc) b.readSet
  if b.isCall then insertNat 62 (insertNat 63 base) else base

/-- Does a mask of 64 bits meet a set of slots? -/
def maskMeets (m : DWord) (xs : List Nat) : Bool := xs.any fun x => m.getLsbD x

/-! Checks of R76 -/

/-- R77, code 0x0a: is the opcode rejected under the header's AR or ID? -/
def opForbidden (ar id : Bool) (op : Nat) : Bool :=
  let within (a b : Nat) : Bool := decide (a ≤ op) && decide (op ≤ b)
  (!ar && [0xe1, 0xe2, 0xe4].contains op)
    || (ar && ([0x18, 0x19, 0x83, 0x84, 0x87, 0xe0, 0xf0, 0xf2, 0xf4, 0xf5, 0xf9].contains op || within 0xa0 0xc7
          || within 0xd0 0xdf || within 0xe8 0xef))
    || (id && (within 0xa0 0xc7 || within 0xd0 0xdf || within 0xe8 0xef
          || [0xe0, 0xe1, 0xe2, 0xe4, 0xf4, 0xf5, 0xf9].contains op))

/-- The instruction index that a target names. -/
def targetIdx? : Target → Option Nat
  | .port _ k => some k.toNat
  | _ => none

/-- R76, pass 1 on one instruction word of a block of `n` instructions and `m` literals: the first failing code. -/
def checkWord (ar id : Bool) (n m w : Nat) : Option Nat :=
  if fOp w = 3 ∧ m ≤ fMod w then some 6
  else if fOp w = 4 ∧ m ≤ fMod w + 1 then some 6
  else
    match decodeNat w with
    | .error e => some e.code
    | .ok i =>
      let far (t : Target) : Bool := match targetIdx? t with | some k => decide (n ≤ k) | none => false
      if far (targetsOf i).1 || far (targetsOf i).2 then some 9
      else if opForbidden ar id (fOp w) then some 10 else none

/-- A failed check: the code and the word index from the header. -/
abbrev CheckFail := Nat × Nat

/-- The first word of a list that fails pass 1. -/
def checkWords (ar id : Bool) (n m lead : Nat) : Nat → List Nat → Option CheckFail
  | _, [] => none
  | k, w :: t =>
    match checkWord ar id n m w with
    | some c => some (c, lead + k)
    | none => checkWords ar id n m lead (k + 1) t

/-- The first index of a list of instructions that a test answers. -/
def firstIdx (p : Nat → Instr → Bool) : Nat → List Instr → Option Nat
  | _, [] => none
  | k, i :: t => if p k i then some k else firstIdx p (k + 1) t

/-- R66: is the target sound for a token of a width? -/
def targetFits (is : List Instr) (pair : Bool) : Target → Bool
  | .none => true
  | .live _ | .pairLive _ => !pair
  | .port p k =>
    match is[k.toNat]? with
    | none => false
    | some i =>
      match portUse i p with
      | .unused => false
      | .req q => q == pair
      | .opt => !pair

/-- R227: the T0 of a deferred load is a live-out of its size. -/
def lddTargetOk : Instr → Bool
  | .ldd z _ t0 =>
    (match t0 with
     | .live _ => z != .b64
     | .pairLive _ => z == .b64
     | _ => false)
  | _ => true

/-- Code 0x0b. -/
def badPort (is : List Instr) (i : Instr) : Bool :=
  !targetFits is (pairOut i).1 (targetsOf i).2 || !targetFits is (pairOut i).2 (targetsOf i).1 || !lddTargetOk i

/-- The ports that an instruction targets, as 3 * index + port. -/
def portKeys (i : Instr) : List Nat :=
  let key (t : Target) : List Nat := match t with | .port p k => [3 * k.toNat + portNum p] | _ => []
  key (targetsOf i).2 ++ key (targetsOf i).1

/-- The first index at which a key of a list has been seen before. -/
def firstRepeat (keys : Instr → List Nat) : List Nat → Nat → List Instr → Option Nat
  | _, _, [] => none
  | seen, k, i :: t =>
    let ks := keys i
    let twice := match ks with | [] => false | x :: xs => seen.contains x || xs.any (fun y => y == x || seen.contains y) ||
      (match xs with | [] => false | y :: ys => ys.contains y)
    if twice then some k else firstRepeat keys (ks ++ seen) (k + 1) t

/-- Code 0x0d: a required port is not targeted. -/
def missingPort (ts : List Nat) (k : Nat) (i : Instr) : Bool :=
  [PortSel.a, PortSel.b, PortSel.c].any fun p =>
    (match portUse i p with | .req _ => true | _ => false) && !ts.contains (3 * k + portNum p)

/-- The successors of an instruction, as a set of indices in one number. -/
def succMask (i : Instr) : Nat := (portKeys i).foldl (fun a x => a ||| 2 ^ (x / 3)) 0

/-- Sets reached from each instruction by a path of at least one and at most `fuel + 1` targets. -/
def reachMasks (succ : List Nat) : Nat → List Nat
  | 0 => succ
  | fuel + 1 =>
    let r := reachMasks succ fuel
    succ.map fun a => (List.range succ.length).foldl (fun acc j => if a.testBit j then acc ||| r.getD j 0 else acc) a

/-- R239: a path of one target or more leads from instruction `i` to instruction `k`. -/
def Block.leads (b : Block) (i k : Nat) : Bool :=
  let n := b.words.length
  let succ := (List.range n).map fun j => match b.instr? j with | some x => succMask x | none => 0
  ((reachMasks succ n).getD i 0).testBit k

/-- R76 0x0e, R239: the lowest instruction on a cycle or on a forbidden path. -/
def cycleIdx (ops : List Nat) (is : List Instr) : Option Nat :=
  let n := is.length
  let succ := is.map succMask
  let r := reachMasks succ n
  let leads (k j : Nat) : Bool := (r.getD k 0).testBit j
  let op (k : Nat) : Nat := ops.getD k 0
  let onCycle (k : Nat) : Bool := leads k k
  -- the producers that feed a port which R239 guards, by consumer
  let bad : List (Nat × Nat) := (List.range n).flatMap fun p =>
    (portKeys (is.getD p .nop)).filterMap fun key =>
      let j := key / 3
      let port : PortSel := if key % 3 = 0 then .a else if key % 3 = 1 then .b else .c
      if opWaitsForCheck (op j) || (opIsImmediate (op j) && opAddressPort (op j) port) then some (p, j) else none
  let paths : List (Nat × Nat × Nat) := (List.range n).flatMap fun k =>
    if opIsImmediate (op k) then
      bad.filterMap fun (p, j) =>
        if (p = k ∨ leads k p) ∧ (opWaitsForCheck (op j) ∨ j ≠ k) then some (k, p, j) else none
    else []
  let onPath (x : Nat) : Bool := paths.any fun (k, p, j) =>
    x == j || ((x == k || leads k x) && (x == p || leads x p))
  leastBelow n fun x => onCycle x || onPath x

/-- R76 0x0f: the slots that an instruction writes. -/
def liveKeys (i : Instr) : List Nat :=
  match i with
  | .call _ | .callc _ | .callx => [62, 63]
  | _ => liveSlots (targetsOf i).2 ++ liveSlots (targetsOf i).1

/-- Has a list a repeated element? -/
def hasRepeat : List Nat → Bool
  | [] => false
  | x :: t => t.contains x || hasRepeat t

/-- Code 0x0f: the first index that writes a slot written before. -/
def liveRepeat : List Nat → Nat → List Instr → Option Nat
  | _, _, [] => none
  | seen, k, i :: t =>
    let ks := liveKeys i
    if hasRepeat ks || ks.any seen.contains then some k else liveRepeat (ks ++ seen) (k + 1) t

/-- Code 0x10: the first terminator that is not in last place, else the last word when it is no terminator. -/
def termFail (ops : List Nat) : Option Nat :=
  let n := ops.length
  match leastBelow (n - 1) fun k => opIsTerminator (ops.getD k 0) with
  | some k => some k
  | none => if opIsTerminator (ops.getD (n - 1) 0) then none else some (n - 1)

/-- R76, pass 2. -/
def checkGraph (lead : Nat) (ops : List Nat) (is : List Instr) : Option CheckFail :=
  let ts := (is.map portKeys).flatten
  match firstIdx (fun _ i => badPort is i) 0 is with
  | some k => some (11, lead + k)
  | none =>
    match firstRepeat portKeys [] 0 is with
    | some k => some (12, lead + k)
    | none =>
      match firstIdx (missingPort ts) 0 is with
      | some k => some (13, lead + k)
      | none =>
        match cycleIdx ops is with
        | some k => some (14, lead + k)
        | none =>
          match liveRepeat [] 0 is with
          | some k => some (15, lead + k)
          | none => (termFail ops).map fun k => (16, lead + k)

/-- The instructions of words that all decode. -/
def decodeAll : List Nat → List Instr
  | [] => []
  | w :: t => match decodeNat w with | .ok i => i :: decodeAll t | .error _ => decodeAll t

/-- R76: check a block from its header and its further words in order; the first failure, or none. -/
def checkBlock (h : Nat) (rest : List Nat) : Option CheckFail :=
  if !headerOk h then some (1, 0)
  else
    let lead := hdrLead h
    let ws := (rest.drop (lead - 1)).take (hdrN h)
    match checkWords (hdrAR h) (hdrID h) (hdrN h) (hdrM h) lead 0 ws with
    | some f => some f
    | none => checkGraph lead (ws.map fOp) (decodeAll ws)

/-- R79: the detail word of an encoding fault. -/
def checkDetail (f : CheckFail) : DWord := BitVec.ofNat 64 (f.1 + 256 * f.2)

/-- R50: the block at an address, from its header and its further words. -/
def blockOf (addr : VAddr) (h : Nat) (rest : List Nat) : Block :=
  let lead := hdrLead h
  let w32 (x : Nat) : Word := BitVec.ofNat 32 x
  { addr := addr, header := w32 h,
    mask := if hdrSP h then BitVec.ofNat 64 (rest.getD 0 0 + 2 ^ 32 * rest.getD 1 0) else 0,
    words := ((rest.drop (lead - 1)).take (hdrN h)).map w32,
    lits := ((rest.drop (lead - 1 + hdrN h)).take (hdrM h)).map w32 }

end Sys2Proof.Machine
end

