-- ==== Sys2Proof/Machine/Ops.lean ====
section
/-! DEFINITION. The named operations on threads: live slots (R141-R146), filing into bins and the FIFO (R99-R102), the
bivouac area (R412, R413), regions aborted (R346), barriers broken (R279, R280), taking a trap as one shared operation
(R351, R402-R409, R488), and the return from one (R406, R425, R488). -/

namespace Sys2Proof.Machine

/-! Live slots -/

/-- A live slot of a thread (R141). -/
def Thread.slot (t : Thread) (i : Nat) : Word := Tbl.get 0 t.live i
/-- A pair of live slots (R142). -/
def Thread.pairSlot (t : Thread) (i : Nat) : DWord := t.slot (i + 1) ++ t.slot i
/-- Write a live slot, whose parity is then right (R146). -/
def Thread.setSlot (t : Thread) (i : Nat) (v : Word) : Thread :=
  { t with live := Tbl.set t.live i v, badParity := t.badParity &&& ~~~(BitVec.ofNat 64 (2 ^ i)) }
/-- Write a pair of live slots. -/
def Thread.setPair (t : Thread) (i : Nat) (v : DWord) : Thread :=
  (t.setSlot i (v.setWidth 32)).setSlot (i + 1) ((v >>> 32).setWidth 32)

/-- R144: one write enters the queue of its slot's bank. -/
def Core.queueWrite (x : Core) (sl i : Nat) : Core :=
  { x with lvq := Tbl.set x.lvq (i % 16) (Tbl.get [] x.lvq (i % 16) ++ [(sl, i)]) }
/-- R144: the writes of several slots. -/
def Core.queueWrites : Core → Nat → List Nat → Core
  | x, _, [] => x
  | x, sl, i :: t => (x.queueWrite sl i).queueWrites sl t
/-- R145: has every bank room for the writes? -/
def Core.roomFor (x : Core) (is : List Nat) : Bool :=
  (List.range 16).all fun b =>
    decide ((Tbl.get [] x.lvq b).length + (is.filter fun i => i % 16 == b).length ≤ 64)

/-! Bins (R99-R102) -/

/-- R104: the fill threshold of a group. -/
def fillThreshold (g : Group) : Nat :=
  let f := g.gatherFill.toNat % 2048
  if f = 0 then 1 else min f 1024

/-- R100: the bin that holds a key and takes filings. -/
def Core.binFor (x : Core) (key : Nat × VAddr) : Option Nat :=
  (Tbl.first? (fun _ b => b.key == some key && !b.isSealed) x.bins).map (·.1)
/-- R100: the lowest free bin. -/
def Core.freeBin? (x : Core) : Option Nat := leastBelow 64 fun b => (x.bin b).key.isNone

/-- R103: the window that `gather.default` of a group gives. -/
def defaultWindow (g : Group) : Nat := g.gatherDefault.toNat / 4 % 1024 * 4

/-- R53, R101: a bin opened by a thread of group `g`, whose oldest thread is of group `o`: its Fill is min(F, U), its Window is
unknown until the header returns. -/
def openedBin (g o : Group) (key : Nat × VAddr) (vec : List Nat) : Bin :=
  ⟨some key, vec, none, defaultWindow o, g.root, min (fillThreshold g) g.live, none, false⟩

/-- R99: of some threads the one that was filed earliest, and of those the one in the lowest slot. -/
def Core.earliest (x : Core) (sls : List Nat) : Option Nat :=
  bestBy (fun i j => decide ((x.thread i).filed < (x.thread j).filed) ||
    ((x.thread i).filed == (x.thread j).filed && decide (i < j))) sls

/-- R100: file a thread slot under a key. (DESIGN CHOICE, log entry 54.) -/
def Core.file (x : Core) (clk sl : Nat) (key : Nat × VAddr) : Core :=
  let g := x.group (x.thread sl).group
  match x.binFor key with
  | some b =>
    (x.modBin b fun y => { y with vec := insertNat sl y.vec }).modThread sl fun t =>
      { t with place := .binned b, next := key.2, filed := clk }
  | none =>
    match (if x.fifo.isEmpty then x.freeBin? else none) with
    | some b =>
      ({ x with bins := Tbl.set x.bins b (openedBin g g key [sl]) }).modThread sl fun t =>
        { t with place := .binned b, next := key.2, filed := clk }
    | none =>
      ({ x with fifo := x.fifo ++ [(sl, key.1, key.2)] }).modThread sl fun t =>
        { t with place := .fifo, next := key.2, filed := clk }

/-- R102: a bin that holds no thread and has no context is freed; the FIFO head's key then takes it. -/
def Core.releaseBin (x : Core) (b : Nat) : Core :=
  match x.fifo with
  | [] => { x with bins := Tbl.erase x.bins b }
  | (sl, asp, addr) :: _ =>
    let mine := (x.fifo.filter fun (_, p, a) => p == asp && a == addr).map (·.1)
    let y := { x with
      bins := Tbl.set x.bins b (openedBin (x.group (x.thread sl).group)
        (x.group (x.thread ((x.earliest mine).getD sl)).group) (asp, addr) (mine.foldl (fun v n => insertNat n v) []))
      fifo := x.fifo.filter fun (_, p, a) => !(p == asp && a == addr) }
    mine.foldl (fun z n => z.modThread n fun t => { t with place := .binned b }) y

/-- A thread leaves the bin or the FIFO that holds it; an open bin that it leaves empty is freed (R102). -/
def Core.unfile (x : Core) (sl : Nat) : Core :=
  match (x.thread sl).place with
  | .binned b =>
    let y := x.modBin b fun z => { z with vec := z.vec.filter (· != sl) }
    if (y.bin b).vec.isEmpty && (y.bin b).ctx.isNone then y.releaseBin b else y
  | .fifo => { x with fifo := x.fifo.filter fun (n, _, _) => n != sl }
  | _ => x

/-- R101: the header of a block as the device reads it without checks; none when it cannot be read. -/
def State.headerAt (s : State) (root : Nat) (addr : VAddr) : Option Nat := s.peek32 root addr.toNat
/-- Is the block at an address a piton, as its header reads? -/
def State.isPiton (s : State) (root : Nat) (addr : VAddr) : Bool :=
  match s.headerAt root addr with | some h => hdrSP h | none => false
/-- Has the block at an address ID = 1, as its header reads? -/
def State.isIdem (s : State) (root : Nat) (addr : VAddr) : Bool :=
  match s.headerAt root addr with | some h => hdrID h | none => false

/-- R100: a thread is on its way to its next block, to be filed there from a clk on. (DESIGN CHOICE, log entry 54.) -/
def State.fileFrom (s : State) (c sl from_ : Nat) (addr : VAddr) : State :=
  s.modThread c sl fun u =>
    { u with next := addr, filed := from_, inst := none, place := .filing (match u.place with | .filing k => k | _ => 4) }

/-- R144: has every bank room for a write of each slot of a thread? -/
def Core.roomAll (x : Core) : Bool := x.roomFor (List.range 64)

/-- R415: a thread enters the save handler: the block at trap.base, in privileged mode. -/
def State.enterSave (s : State) (c sl : Nat) (mask : DWord) (all : Bool) : State :=
  let t := s.thread c sl
  ((s.modCore c fun x => x.unfile sl).modThread c sl fun u =>
    { u with save := some ⟨true, false, all, mask, false, t.place, t.next, t.priv, t.trap, none, t.haltNext, t.waitIdx, t.hdoneArg, t.reArmed⟩,
             priv := true, trap := none, reArmed := false, reSer := false }).fileFrom
    c sl s.clk (t.trapBase.setWidth 56)

/-- R55, R414: the live-slot mask of the piton at an address, as memory stands at the save; words that cannot be read count as 0.
(DESIGN CHOICE, log entry 55.) -/
def State.pitonMask (s : State) (root : Nat) (addr : VAddr) : DWord :=
  BitVec.ofNat 64 (((s.peek32 root (addr.toNat + 4)).getD 0) + 2 ^ 32 * ((s.peek32 root (addr.toNat + 8)).getD 0))

/-- Is the group being saved? -/
def Group.isSaving (g : Group) : Bool :=
  match g.save with
  | .saving _ | .scratch _ => true
  | _ => false

/-! Regions that end -/

/-- R146, R346: restore the slots from a region's snapshot; these are writes, so their parity is right. -/
def Thread.restore (t : Thread) (r : Region) : Thread := { t with live := r.snapshot, badParity := 0 }

/-- R144, R346: the region of a thread is aborted with a cause: the slots are restored, tags, stores and lines discarded. -/
def State.rollback (s : State) (c sl : Nat) (cause : Nat) : State :=
  match (s.thread c sl).region with
  | none => s
  | some k =>
    match Tbl.find? (s.core c).regions k with
    | none => s
    | some r =>
      let s' : State := { s with locks := s.locks.filter fun (_, x, y) => !(x == c && y == k) }
      (s'.modThread c sl fun t => { t.restore r with abortCause := cause }).modCore c fun x =>
        (x.queueWrites sl (List.range 64)).modRegion k fun r =>
        { r with inputs := [], constraints := [], stores := [], readLines := [], writeLines := [], tags := [],
                 blocks := 0, ser := false }

/-- R348: the serial token of a die is released by the thread that holds it. -/
def State.releaseToken (s : State) (c sl : Nat) : State :=
  s.modDie (dieOf c) fun d =>
    { d with serial := match d.serial with
               | some (x, y, t) => if x == c && y == sl then none else some (x, y, t)
               | none => none,
             serialWait := d.serialWait.filter fun (x, y, _) => !(x == c && y == sl) }

/-- R348: the region of a thread has ended, and the regions that waited for that wait no more. -/
def State.endYield (s : State) (c sl : Nat) : State :=
  { s with cores := Tbl.mapVals (fun _ x => { x with regions := Tbl.mapVals (fun _ r =>
      { r with yieldTo := if r.yieldTo = some (c, sl) then none else r.yieldTo }) x.regions }) s.cores }

/-- R334, R346: the thread's region context is freed. -/
def State.freeRegion (s : State) (c sl : Nat) : State :=
  match (s.thread c sl).region with
  | none => s
  | some k =>
    (((s.modCore c fun x => { x with regions := Tbl.erase x.regions k }).modThread c sl fun t =>
      { t with region := none }).releaseToken c sl).endYield c sl

/-- R352: a thread that reaches a piton during a save with a region open aborts it with cause 8: its slots are those of the
snapshot, and it will resume at the region entry and re-enter the region there. -/
def State.leaveRegion (s : State) (c sl : Nat) (addr : VAddr) : State × VAddr :=
  match (s.thread c sl).region with
  | none => (s, addr)
  | some k =>
    match Tbl.find? (s.core c).regions k with
    | none => (s, addr)
    | some r =>
      (((s.rollback c sl 8).freeRegion c sl).modThread c sl fun u =>
        { u with reenter := some (r.entry, r.abortPath), reArmed := true }, r.entry)

/-- R348, R352, R414: a thread enters the save handler from a place, with the mask of the piton that it is to resume at, or with
all ones: when it waits, when it is halted, and when it left a region. It waits for no serial token any more. -/
def State.saveFrom (s : State) (c sl : Nat) (p : Place) (addr : VAddr) (all : Bool) : State :=
  let r := s.leaveRegion c sl addr
  let ones := all || (r.1.thread c sl).reArmed
  let s1 := if (r.1.thread c sl).reSer then r.1.releaseToken c sl else r.1
  (s1.modThread c sl fun u => { u with next := r.2, inst := none, place := p }).enterSave c sl
    (if ones then BitVec.allOnes 64 else s.pitonMask (s.rootOf c sl) addr) all

/-- R37, R100: a thread goes to its next block: it is filed there at the end of this clk, or of a later one.
(DESIGN CHOICE, log entry 54.) -/
def State.fileTo (s : State) (c sl : Nat) (addr : VAddr) : State := s.fileFrom c sl s.clk addr

/-- R100: a thread is filed under the key of its next block. (DESIGN CHOICE, log entry 54.) -/
def State.fileHere (s : State) (c sl : Nat) : State :=
  s.modCore c fun x => x.file s.clk sl (s.aspOf c sl, (x.thread sl).next)

/-- R152, R414: does a thread that comes to a block, or stands in its bin, go to the save handler instead: is its group being saved,
is nothing pending, and is the block a piton, or the group halted? -/
def State.toSave (s : State) (c sl : Nat) : Bool :=
  let g := s.groupOf c sl
  let t := s.thread c sl
  g.isSaving && t.save.isNone && t.pending == 0 && (g.halted || s.isPiton (s.rootOf c sl) t.next)
    && (t.region.isNone || (s.core c).roomAll)

/-- R100, R152, R352, R414, R419: a thread that is on its way to its next block is filed there, or halted with its group, or filed into
the save handler when its group is being saved and the block is a piton or the group is halted; with slots pending it waits in its
piton's bin. -/
def State.fileNow (s : State) (c sl : Nat) : State :=
  let g := s.groupOf c sl
  let t := s.thread c sl
  if s.toSave c sl then
    ((s.modThread c sl fun u => { u with haltNext := if g.halted then t.next else u.haltNext }).saveFrom c sl
      (if g.halted then .halted else .free) t.next g.halted).fileHere c sl
  else if g.halted && t.save.isNone && !g.isSaving then s.modThread c sl fun u => { u with place := .halted, haltNext := t.next }
  else s.fileHere c sl

/-- R100: the threads of a core that are to be filed in a clk, in ascending context and then slot, at most four. -/
def Core.filings (x : Core) (clk : Nat) : List Nat :=
  let due (k : Nat) : List Nat := (x.threads.filter fun e => e.2.place == .filing k && decide (e.2.filed ≤ clk)).map (·.1)
  ((List.range 5).flatMap due).take 4

/-- R100: at the end of a clk each core files its threads, unless a whole group was filed in the clk.
(DESIGN CHOICE, log entry 54.) -/
def State.settleFilings (s : State) : State :=
  s.cores.foldl (fun s e =>
    if e.2.filedAll == some s.clk then s else (e.2.filings s.clk).foldl (fun s sl => s.fileNow e.1 sl) s) s

/-- R56: the idempotent-region entry that a thread records when it moves to a block. (DEDUCED, log entry 39.) -/
def State.noteIdem (s : State) (c sl : Nat) (fromId : Bool) (addr : VAddr) : State :=
  if !fromId && s.isIdem (s.rootOf c sl) addr then s.modThread c sl fun t => { t with idem := addr } else s

/-! The bivouac area -/

/-- R25: the threads of a group of a grid. -/
def LaunchRec.groupSize (r : LaunchRec) : Nat := r.bx * r.by_ * r.bz
/-- R25: the allocation size of a group. -/
def LaunchRec.alloc (r : LaunchRec) : Nat := (r.scratch + 1023) / 1024 * 1024
/-- R412: the frame size of a group. -/
def LaunchRec.frameSize (r : LaunchRec) : Nat := (2 ^ 15 + 2 ^ 11 * r.groupSize + r.alloc + 2 ^ 16 - 1) / 2 ^ 16 * 2 ^ 16
/-- R412, R413: the virtual address of the thread area of a linear thread of a linear group. -/
def threadAreaOf (r : LaunchRec) (lin t : Nat) : Nat := r.biv.toNat + lin * r.frameSize + 2 ^ 15 + 2 ^ 11 * t
/-- R413: the thread area of a slot. -/
def State.threadArea (s : State) (c sl : Nat) : Nat :=
  threadAreaOf (s.gridOf c sl).launch (s.groupOf c sl).lin (s.thread c sl).lin
/-- R405: the address of a thread's first or nested record. -/
def State.recordAddr (s : State) (c sl : Nat) (nest : Bool) : Nat := s.threadArea c sl + (if nest then 288 else 256)

/-! Taking a trap -/

/-- R403, R406: what a fault of a thread in a block records, before regions are taken into account. -/
def State.trapOf (s : State) (c sl : Nat) (cause : Cause) (blk next : VAddr) (ret def_ : Bool) (va detail : DWord)
    (held : Held) : Trap :=
  let t := s.thread c sl
  ⟨cause, t.priv, blk, next, def_, ret, va, detail, blk, ⟨held, blk, t.waitIdx, t.hdoneArg⟩, false⟩

/-- R402, R488: a thread in the fault bin, with what its record will hold and what is kept beside it. -/
def Thread.takeRecord (t : Thread) (tr : Trap) : Thread :=
  { t with place := .fault, inst := none, trap := some tr,
           heldFirst := if tr.nest then t.heldFirst else tr.held, heldNest := if tr.nest then tr.held else t.heldNest }

/-- R351, R404: a thread moves to the fault bin with what its record will hold. A fault while a region is open aborts the
region with cause 7 and replaces both resume addresses. -/
def State.trapThread (s : State) (c sl : Nat) (tr : Trap) : State :=
  let t := s.thread c sl
  let s0 := s.modCore c fun x => x.unfile sl
  let r? : Option Region := match t.region with | some k => Tbl.find? (s.core c).regions k | none => none
  match r? with
  | some r =>
    let s1 := if r.opened then s0.rollback c sl 7 else s0
    let tr' : Trap := if r.opened then
      { tr with blk := r.entry, next := r.abortPath, def_ := false, ret := false, held := { tr.held with step := .none } } else tr
    (s1.freeRegion c sl).modThread c sl fun u =>
      { u.takeRecord tr' with reenter := if r.opened then some (r.entry, r.abortPath) else u.reenter, reArmed := false }
  | none => s0.modThread c sl fun u => u.takeRecord tr

/-- The cores and groups of a grid that belong to a rope: those that are resident, and those that keep their state on their core (R418). -/
def State.ropeMembers (s : State) (gn rope : Nat) : List (Nat × Nat) :=
  let gr := s.grid gn
  (gr.resident.filter fun (c, g) => (s.group c g).lin / gr.launch.ropeG == rope) ++
    (gr.saved.filterMap fun (lin, v) =>
      if v.discarded && lin / gr.launch.ropeG == rope then
        (Tbl.first? (fun _ g => g.grid == gn && g.lin == lin) (s.core v.core).groups).map fun e => (v.core, e.1)
      else none).filter fun m => !gr.resident.contains m

/-- R280: the groups of a rope that have been saved, changed. -/
def State.modSaved (s : State) (gn rope : Nat) (f : SavedGroup → SavedGroup) : State :=
  s.modGrid gn fun g =>
    { g with saved := Tbl.mapVals (fun lin v => if lin / g.launch.ropeG == rope && !v.discarded then f v else v) g.saved }

/-- R280: does a saved group of a rope satisfy a condition? -/
def State.anySaved (s : State) (gn rope : Nat) (p : Nat → SavedGroup → Bool) : Bool :=
  let gr := s.grid gn
  gr.saved.any fun (lin, v) => lin / gr.launch.ropeG == rope && !v.discarded && p lin v

/-- Does a thread wait at a place, or is it kept there for its restore while it runs the save handler (R414)? -/
def Thread.waitsAt (t : Thread) (p : Place) : Bool :=
  t.place == p || (match t.save with | some v => v.place == p | none => false)

/-- The slots of a group whose thread waits at a place, in ascending order. -/
def State.waiters (s : State) (c g : Nat) (p : Place) : List Nat :=
  (s.group c g).slots.filter fun sl => (s.thread c sl).waitsAt p

/-- Where the thread goes when its wait at a place ends. -/
def Thread.waitNext (t : Thread) (p : Place) : VAddr :=
  match t.save with
  | some v => if t.place = p then t.next else v.next
  | none => t.next

/-- R274, R281: the wait of a thread at a place ends: it is filed to its target from the next clk, or at its restore. -/
def State.wake (s : State) (c sl : Nat) (p : Place) : State :=
  let t := s.thread c sl
  match t.save with
  | some v =>
    if t.place = p then s.fileFrom c sl (s.clk + 1) t.next
    else s.modThread c sl fun u => { u with save := some { v with place := .free } }
  | none => s.fileFrom c sl (s.clk + 1) t.next

/-- R279: the detail word of a broken barrier. -/
def barDetail (num kind cnt exp : Nat) : DWord := BitVec.ofNat 64 (num + kind * 16 + cnt * 64 + exp * 2 ^ 17)

/-- R281: the channel detail of an expired `waitp`. -/
def chanDetail (num : Nat) : DWord := barDetail num 3 0 0

/-- The block that a waiting thread's terminator stands in (its faulting block), kept beside its target.
(DEDUCED, log entry 39.) -/
def Thread.waitBlk (t : Thread) : VAddr := t.haltNext

/-- R279, R280: the wait of a saved thread at a place ends with a fault, which it takes at its restore. -/
def Thread.trapSaved (t : Thread) (p : Place) (cause : Cause) (detail : DWord) : Thread :=
  match t.save with
  | some v =>
    let tr : Trap :=
      ⟨cause, v.priv, t.waitBlk, v.next, false, false, 0, detail, t.waitBlk, ⟨.none, t.waitBlk, t.waitIdx, t.hdoneArg⟩, false⟩
    if v.place = p then { t with save := some { v with place := .fault, trap := some tr } } else t
  | none => t

/-- R274, R280: the wait of a saved thread at a place ends: it is filed to its target at its restore. -/
def Thread.wakeSaved (t : Thread) (p : Place) : Thread :=
  match t.save with
  | some v => if v.place = p then { t with save := some { v with place := .free } } else t
  | none => t

/-- R279-R281: the wait of a thread at a place ends with a fault: it enters the fault bin, at once or at its restore. -/
def State.trapWaiter (s : State) (c sl : Nat) (p : Place) (cause : Cause) (detail : DWord) : State :=
  let t := s.thread c sl
  let tr := s.trapOf c sl cause t.waitBlk (t.waitNext p) false false 0 detail .none
  match t.save with
  | some v =>
    if t.place = p then s.trapThread c sl tr
    else s.modThread c sl fun u => { u with save := some { v with place := .fault, trap := some { tr with nest := v.priv } } }
  | none => s.trapThread c sl tr

/-- R280: the rope barrier breaks: every thread that waits on it, in every group, faults under R279. -/
def State.breakRope (s : State) (gn rope : Nat) : State :=
  let s1 := s.modGrid gn fun g =>
    { g with ropes := Tbl.set g.ropes rope { (Tbl.get RopeBar.reset g.ropes rope) with brk := true, due := none, inited := [] } }
  ((s1.ropeMembers gn rope).foldl (fun s (c, g) =>
    let gr := s.group c g
    (s.waiters c g .rope).foldl (fun s sl =>
      s.trapWaiter c sl .rope .barTimeout (barDetail 0 2 gr.ropeCnt gr.ropeExp)) s) s1).modSaved gn rope fun v =>
    { v with threads := v.threads.map fun (i, t) =>
        (i, t.trapSaved .rope .barTimeout (barDetail 0 2 v.group.ropeCnt v.group.ropeExp)) }

/-- R280: after a fault of a thread, a rope barrier on which other threads of its rope wait breaks. -/
def State.ropeAfterFault (s : State) (c sl : Nat) : State :=
  let gn := (s.groupOf c sl).grid
  let rope := (s.groupOf c sl).lin / (s.grid gn).launch.ropeG
  if (s.ropeMembers gn rope).any (fun (x, g) => !(s.waiters x g .rope).isEmpty)
      || s.anySaved gn rope (fun _ v => v.threads.any fun (_, t) => t.waitsAt .rope) then s.breakRope gn rope else s

/-- R402-R404, R280: taking a trap: the thread enters the fault bin, and a rope barrier on which other threads of its
rope wait breaks. What follows (the record, the handler or the report) is FAULT_RECORD_PERFORMED. -/
def State.takeTrap (s : State) (c sl : Nat) (tr : Trap) : State := (s.trapThread c sl tr).ropeAfterFault c sl

/-- R406: the bytes of a trap record. -/
def recordBytes (tr : Trap) : List Byte :=
  natToBytes 7 tr.blk.toNat ++
  [BitVec.ofNat 8 (tr.cause.code + (if tr.nest then 64 else 0) + 128)] ++
  natToBytes 8 (tr.next.toNat + (if tr.def_ then 2 ^ 62 else 0) + (if tr.ret then 2 ^ 63 else 0)) ++
  natToBytes 8 tr.va.toNat ++ natToBytes 8 tr.detail.toNat

/-- R408: the thread is filed into the handler of its cause in privileged mode, its slots as the fault left them, in the clk after
its record is performed. -/
def State.enterHandler (s : State) (c sl : Nat) (cause : Nat) : State :=
  let t := s.thread c sl
  (s.modThread c sl fun u => { u with priv := true, place := .free, trap := none }).fileFrom c sl (s.clk + 1)
    (t.trapBase.setWidth 56 + BitVec.ofNat 56 (16 * cause))

/-! Returning from a trap -/

/-- R347: is a region that starts now serialised? -/
def State.runsSerial (s : State) (c sl : Nat) : Bool :=
  decide ((s.groupOf c sl).regionRetry.toNat % 256 ≤ (s.thread c sl).aborts)

/-- R348: a thread that is filed to a region entry to run serialised waits for its die's token. -/
def State.queueSerial (s : State) (c sl : Nat) : State :=
  s.modDie (dieOf c) fun d => { d with serialWait := d.serialWait ++ [(c, sl, s.clk)] }

/-- R348, R351: a thread goes to a block; at the entry of the region it was thrown out of, it will re-enter the region, serialised
if its aborts say so now. A handler that goes on leaves that standing for its own return. (DEDUCED, log entry 33.) -/
def State.goTo (s : State) (c sl : Nat) (addr : VAddr) : State :=
  let t := s.thread c sl
  let again := match t.reenter with | some (e, _) => e == addr | none => false
  let ser := again && s.runsSerial c sl
  let s1 := s.modThread c sl fun u =>
    { u with reArmed := again, reSer := ser, reenter := if again || u.priv then u.reenter else none }
  (if ser then s1.queueSerial c sl else s1).fileTo c sl addr

/-- R406: resume a thread at an address. A resumption at the region entry of an aborted region re-enters it (R351). -/
def State.resumeAt (s : State) (c sl : Nat) (addr : VAddr) : State :=
  (s.modThread c sl fun u => { u with trap := none, place := .free }).goTo c sl addr

/-- R41: a thread waits to retire: its exit is committed and its stores, writes and fills are awaited. -/
def State.startRetire (s : State) (c sl : Nat) : State :=
  s.modThread c sl fun t => { t with place := .retiring, inst := none, trap := none }

/-- R113: does an address pass `check_target`? -/
def targetOk (x : Nat) : Bool := decide (x < 2 ^ 56) && x % 4 == 0

/-! Barriers -/

/-- R273: a barrier at group creation. -/
def Barrier.fresh (n : Nat) : Barrier := ⟨n, 0, 0, 0, 0, none, none⟩
/-- A barrier of a group: 0-15 named, 16 and 17 stage. -/
def Group.bar (g : Group) (b : Nat) : Barrier := Tbl.get (Barrier.fresh 0) g.bars b
/-- Change a barrier. -/
def Group.modBar (g : Group) (b : Nat) (f : Barrier → Barrier) : Group := { g with bars := Tbl.set g.bars b (f (g.bar b)) }
/-- R279: the number and kind of a barrier in a detail word. -/
def barName (b : Nat) : Nat × Nat := if b < 16 then (b, 0) else (b - 16, 1)

/-- R279: a named or stage barrier breaks: its waiting threads fault in ascending slot order. (DESIGN CHOICE, log entry 55.) -/
def State.breakBar (s : State) (c g b : Nat) (why : Broken) : State :=
  let br := (s.group c g).bar b
  let s1 := s.modGroup c g fun x => x.modBar b fun y => { y with brk := some why, since := none }
  let cause : Cause := match why with | .timeout => .barTimeout | .overrun => .stageOverrun
  (s1.waiters c g (.barrier b)).foldl (fun s sl =>
    (s.trapWaiter c sl (.barrier b) cause (barDetail (barName b).1 (barName b).2 br.cnt br.exp)).ropeAfterFault c sl) s1

/-- R274: a barrier's phase completes when its arrivals and its bytes are complete. -/
def Barrier.full (y : Barrier) (b : Nat) : Bool :=
  y.brk.isNone && decide (max y.exp 1 ≤ y.cnt) && (decide (b < 16) || y.bytes == 0)

/-- R274, R280: the arrival bits of a group's threads for a barrier are cleared. -/
def State.clearArrivals (s : State) (c g b : Nat) : State :=
  (s.group c g).slots.foldl (fun s sl => s.modThread c sl fun t => { t with arrived := t.arrived.filter (· != b) }) s

/-- R276: the waiters at a place whose arrival at the barrier has counted, or, with `false`, is still held (R251). -/
def State.arrivedWaiters (s : State) (c g : Nat) (p : Place) (b : Nat) (counted : Bool) : List Nat :=
  (s.waiters c g p).filter fun sl => ((s.thread c sl).holdArrive != some b) == counted

/-- R274, R276, R280: the threads that wait at a place, and have arrived, are filed in ascending slot. -/
def State.freeWaiters (s : State) (c g : Nat) (p : Place) (b : Nat) : State :=
  (s.arrivedWaiters c g p b true).foldl (fun s sl => s.wake c sl p) s

/-- R279: the time of a new phase starts at once where a waiter's arrival is still held. -/
def State.heldSince (s : State) (c g : Nat) (p : Place) (b : Nat) : Option Nat :=
  if (s.arrivedWaiters c g p b false).isEmpty then none else some (s.group c g).clock

/-- R274, R276: the phase of a barrier completes: the counts restart and the threads that wait, and have arrived, are filed in
ascending slot. -/
def State.completePhase (s : State) (c g b : Nat) : State :=
  let s1 := s.modGroup c g fun x => x.modBar b fun y =>
    { y with ph := y.ph + 1, cnt := 0, exp := y.exp - y.drop, drop := 0, since := s.heldSince c g (.barrier b) b }
  ((s1.clearArrivals c g b).freeWaiters c g (.barrier b) b)

/-- R274, R277: a barrier at the end of a clk, all of whose arrivals and byte changes count together. -/
def State.settleBar (s : State) (c g b : Nat) : State :=
  let y := (s.group c g).bar b
  if y.brk.isNone && (decide (y.bytes < 0) || decide (2 ^ 47 - 1 < y.bytes)) then s.breakBar c g b .overrun
  else if y.full b then s.completePhase c g b else s

/-- R274: one arrival of a thread, which may also drop, counted at a barrier that is not broken. What the counts of a clk lead
to is settled at its end (`State.settleBar`). -/
def State.arriveBar (s : State) (c sl b : Nat) (drop : Bool) : State :=
  let g := (s.thread c sl).group
  if ((s.group c g).bar b).brk.isSome then s
  else
    ((s.modThread c sl fun t => { t with arrived := insertNat b t.arrived }).modGroup c g fun x =>
      x.modBar b fun y => { y with cnt := (y.cnt + 1) % 2048, drop := if drop then (y.drop + 1) % 2048 else y.drop })

/-- The rope barrier's number among a thread's arrival bits. -/
def ropeBit : Nat := 18

/-- R280: the state of a rope barrier. -/
def State.ropeBar (s : State) (gn rope : Nat) : RopeBar := Tbl.get RopeBar.reset (s.grid gn).ropes rope

/-- R280: has every group of a rope group-arrived? Retired groups count as arrived. -/
def State.ropeArrived (s : State) (gn rope : Nat) : Bool :=
  let gr := s.grid gn
  let members := s.ropeMembers gn rope
  let ret := (s.ropeBar gn rope).retired
  (List.range gr.launch.ropeG).all fun r =>
    ret.contains r || members.any fun (c, g) =>
      let x := s.group c g
      x.lin % gr.launch.ropeG == r && decide (x.ropeExp ≤ x.ropeCnt)
    || s.anySaved gn rope fun lin v => lin % gr.launch.ropeG == r && decide (v.group.ropeExp ≤ v.group.ropeCnt)

/-- R280: after an arrival or a change of count, the phase is due 24 clk after the last group arrival. -/
def State.settleRope (s : State) (gn rope : Nat) : State :=
  let b := s.ropeBar gn rope
  let waiting := (s.ropeMembers gn rope).any (fun (c, g) => decide (0 < (s.group c g).ropeCnt))
    || s.anySaved gn rope fun _ v => decide (0 < v.group.ropeCnt)
  if !b.brk && b.due.isNone && waiting && s.ropeArrived gn rope then
    s.modGrid gn fun g => { g with ropes := Tbl.set g.ropes rope { b with due := some (s.clk + 24) } }
  else s

/-- R280: one arrival of a thread at its rope's barrier. (DEDUCED, log entry 35.) -/
def State.arriveRope (s : State) (c sl : Nat) : State :=
  let g := (s.thread c sl).group
  let gn := (s.group c g).grid
  let rope := (s.group c g).lin / (s.grid gn).launch.ropeG
  ((s.modThread c sl fun t => { t with arrived := insertNat ropeBit t.arrived }).modGroup c g fun x =>
    { x with ropeCnt := x.ropeCnt + 1 }).settleRope gn rope

/-! Held steps and terminators' waits -/

/-- R235, R251: is every write of the thread's earlier instances acknowledged, and every deferred read of them performed? The
buffered events of the instance at work come after its other events. (DESIGN CHOICE, log entry 12.)
(DEDUCED, log entry 44.) -/
def Thread.releaseMet (t : Thread) : Bool := (t.buf.all fun e => !e.committed) && t.deferred.all fun d => !d.committed

/-- R236: an acquire event of the thread comes after its deferred loads that are under way. (DEDUCED, log entry 44.) -/
def Thread.acquire (t : Thread) : Thread :=
  { t with deferred := t.deferred.map fun d => { d with fenced := d.fenced || d.committed } }

/-- R235: does a deferred load come before instruction `k` of the instance at work: is it of that instance, and does a token path
lead from it? -/
def Deferred.onPath (d : Deferred) (b : Block) (k : Nat) : Bool := !d.committed && b.leads d.idx k

/-- R235, R236, R244: must a read or an atomic of the instance at work wait for a deferred load of the same bytes: one that a fence, a
release or an acquire event parts from it, one that a token path leads from, or, for an acquire event, one of an earlier instance?
(DEDUCED, log entry 44.) -/
def Thread.readsFirst (t : Thread) (b : Block) (k : Nat) (acq : Bool) (gs : List Seg) : Bool :=
  t.deferred.any fun d => (d.fenced || d.onPath b k || (acq && d.committed)) && d.returned.isNone && segsMeet d.segs gs

/-- R235, R236: the deferred loads under way that come before one that instruction `k` of the instance at work issues now. -/
def Thread.deferredBefore (t : Thread) (b : Block) (k : Nat) : List (Nat × Nat) :=
  (t.deferred.filter fun d => d.fenced || d.onPath b k).map fun d => (d.epoch, d.idx)

/-- R235, R236, R244: must a deferred load wait for one of the same bytes that comes before it? -/
def Thread.deferredFirst (t : Thread) (d : Deferred) : Bool :=
  t.deferred.any fun e => d.after.contains (e.epoch, e.idx) && e.returned.isNone && segsMeet e.segs d.segs

/-- R276: an arrival that waited for the release hold counts once the hold is met. -/
def State.arriveHeld (s : State) (c sl : Nat) : State :=
  let t := s.thread c sl
  match t.holdArrive with
  | some b =>
    if t.releaseMet then
      let s' := s.modThread c sl fun u => { u with holdArrive := none }
      if b = ropeBit then s'.arriveRope c sl else s'.arriveBar c sl b false
    else s
  | none => s

/-- R276, R279, R283: a thread arrives at a barrier and waits there, or faults at once when the barrier is broken. -/
def State.waitBar (s : State) (c sl b : Nat) (blk target : VAddr) : State :=
  let g := (s.thread c sl).group
  let y := (s.group c g).bar b
  match y.brk with
  | some why =>
    s.takeTrap c sl (s.trapOf c sl (match why with | .timeout => .barTimeout | .overrun => .stageOverrun) blk target
      false false 0 (barDetail (barName b).1 (barName b).2 y.cnt y.exp) .none)
  | none =>
    let s1 := s.modThread c sl fun t =>
      { t with place := .barrier b, next := target, haltNext := blk, inst := none, waitSince := (s.group c g).clock,
               trap := none }
    let s2 := s1.modGroup c g fun x => x.modBar b fun y => { y with since := some (y.since.getD x.clock) }
    (s2.modThread c sl fun t => { t with holdArrive := some b }).arriveHeld c sl

/-- R280, R283: a thread arrives at the rope barrier and waits there, or faults at once when it is broken. -/
def State.waitRope (s : State) (c sl : Nat) (blk target : VAddr) : State :=
  let g := s.groupOf c sl
  let rope := g.lin / (s.grid g.grid).launch.ropeG
  let b := s.ropeBar g.grid rope
  if b.brk then
    s.takeTrap c sl (s.trapOf c sl .barTimeout blk target false false 0 (barDetail 0 2 g.ropeCnt g.ropeExp) .none)
  else
    let s1 := s.modThread c sl fun t =>
      { t with place := .rope, next := target, haltNext := blk, inst := none, waitSince := g.clock, trap := none,
               holdArrive := some ropeBit }
    s1.arriveHeld c sl

/-- R206: the detail word of an engine descriptor fault. -/
def engDetail (code insn num op : Nat) : DWord := BitVec.ofNat 64 (code + insn * 256 + num * 2 ^ 16 + op * 2 ^ 24)

/-- R281: does the test of `waitp` hold? -/
def waitMet (p t : Word) : Bool := decide ((p - t).toNat < 2 ^ 31)

/-- R281: the wait of `waitp` on a channel, with its threshold; `idx` is the instruction. -/
def State.waitChannel (s : State) (c sl ch : Nat) (thr : Word) (idx : Nat) (blk target : VAddr) : State :=
  let x := (s.core c).channel ch
  let bad (code : Nat) : State :=
    s.takeTrap c sl (s.trapOf c sl .engine blk target false false 0 (engDetail code idx ch 0xc6) .none)
  if !x.cfg || x.owner ≠ (s.thread c sl).group then bad 15
  else if x.brk then bad 16
  else if waitMet x.wptr thr then
    (s.modThread c sl fun t => { t.acquire with trap := none }).fileFrom c sl (s.clk + 1) target
  else
    s.modThread c sl fun t =>
      { t with place := .channel ch, next := target, haltNext := blk, inst := none, waitThr := thr, waitIdx := idx,
               waitSince := (s.groupOf c sl).clock, trap := none }

/-- R334: the lowest free region context of a core. -/
def Core.freeRegion? (x : Core) : Option Nat := leastBelow 64 fun k => (Tbl.find? x.regions k).isNone

/-- R336, R348: a thread enters the region that its context holds, at its entry; a serialised one queues for the token. -/
def State.enterRegion (s : State) (c sl k : Nat) (entry abortPath : VAddr) : State :=
  let t := s.thread c sl
  let ser := s.runsSerial c sl
  let r : Region := ⟨sl, entry, abortPath, t.live, [], [], [], [], [], [], 0, true, ser, none⟩
  let s1 := (s.modCore c fun x => { x with regions := Tbl.set x.regions k r }).modThread c sl fun u =>
    { u with region := some k, place := .free, trap := none, reenter := none, reArmed := false }
  (if ser then s1.queueSerial c sl else s1).fileTo c sl entry

/-- R406, R488: carry out the step that a fault held back, as the commit would have done. -/
def State.carryOut (s : State) (c sl : Nat) (h : HeldStep) (next : VAddr) : State :=
  match h.step with
  | .none => s.resumeAt c sl next
  | .barrier b => s.waitBar c sl b h.blk next
  | .rope => s.waitRope c sl h.blk next
  | .waitp ch thr => s.waitChannel c sl ch thr h.idx h.blk next
  | .abegin path =>
    match (s.core c).freeRegion? with
    | some k => s.enterRegion c sl k next path
    | none => (s.modThread c sl fun t => { t with reenter := some (next, path) }).resumeAt c sl next

/-- R406, R488: resume next: retire, carry out the held step, or go to the recorded block. -/
def State.resumeNext (s : State) (c sl : Nat) (h : HeldStep) (next : VAddr) (def_ ret : Bool) : State :=
  if ret then (s.modThread c sl fun t => { t with haltNext := h.blk, waitIdx := h.idx, hdoneArg := h.arg }).startRetire c sl
  else if def_ then s.carryOut c sl h next
  else s.resumeAt c sl next

/-- R488: what is kept beside the record that is answered: the nested one while it is open, else the first. -/
def Thread.heldNow (t : Thread) : HeldStep := if t.nestOpen then t.heldNest else t.heldFirst

/-- R425: the return from a trap that `eret` makes, from the 16 bytes of its record and the step kept beside it: it leaves
privileged mode and resumes at the block or next. -/
def State.returnFromTrap (s : State) (c sl : Nat) (h : HeldStep) (useNext : Bool) (blk nxt : DWord) : State :=
  let s1 := s.modThread c sl fun t => { t with priv := false, inst := none }
  if useNext then s1.resumeNext c sl h (nxt.setWidth 56) (nxt.getLsbD 62) (nxt.getLsbD 63)
  else s1.resumeAt c sl (blk.setWidth 56)

end Sys2Proof.Machine
end

