-- ==== Sys2Proof/Machine/Operands.lean ====
section
/-! DEFINITION. The operand forms: lanes of integer types and their packing (R156, R157), floating-point lanes (R176),
immediates (R61), targets of branches (R61), and the bytes of an access size. -/

namespace Sys2Proof.Machine

/-! Integer lanes -/

/-- R156: the lane width. -/
def laneW : IntTy → Nat
  | .i32 | .n32 => 32
  | .i64 | .n64 => 64
  | .i16x4 | .n16x4 => 16
/-- R156: the number of lanes. -/
def laneCount : IntTy → Nat
  | .i16x4 | .n16x4 => 4
  | _ => 1
/-- R156: is a lane read as signed? -/
def laneSigned : IntTy → Bool
  | .i32 | .i64 | .i16x4 => true
  | _ => false
/-- The pattern of lane `k` of a token's value. -/
def lanePat (ty : IntTy) (v k : Nat) : Nat := v / 2 ^ (laneW ty * k) % 2 ^ laneW ty
/-- R156: lane `k` as a number. -/
def laneVal (ty : IntTy) (v k : Nat) : Int :=
  if laneSigned ty then sextNat (laneW ty) (lanePat ty v k) else (lanePat ty v k : Int)
/-- R156: lo. -/
def laneLo (ty : IntTy) : Int := if laneSigned ty then -(2 ^ (laneW ty - 1) : Int) else 0
/-- R156: hi. -/
def laneHi (ty : IntTy) : Int := if laneSigned ty then 2 ^ (laneW ty - 1) - 1 else 2 ^ laneW ty - 1

/-- R157: pack the lanes' exact results into 64 bits. -/
def packLanes (ty : IntTy) (f : Nat → Int) : Nat :=
  match ty with
  | .i32 => lowBits 64 (sextNat 32 (lowBits 32 (f 0)))
  | .n32 => lowBits 32 (f 0)
  | .i64 | .n64 => lowBits 64 (f 0)
  | .i16x4 | .n16x4 =>
    lowBits 16 (f 0) + 2 ^ 16 * lowBits 16 (f 1) + 2 ^ 32 * lowBits 16 (f 2) + 2 ^ 48 * lowBits 16 (f 3)

/-- R160 (`absdiff`): the natural type of the same width. -/
def naturalTy : IntTy → IntTy
  | .i32 => .n32 | .i64 => .n64 | .i16x4 => .n16x4 | t => t

/-! Immediates and branch targets -/

/-- R61: IMM15, sign-extended. -/
def immVal (imm : BitVec 15) : Int := imm.toInt
/-- R61, R113: the target of a B24 branch. -/
def target24 (blk : VAddr) (off : BitVec 24) : VAddr := blk + BitVec.ofInt 56 (4 * off.toInt)
/-- R61, R283: the target of a B20 wait. -/
def target20 (blk : VAddr) (off : BitVec 20) : VAddr := blk + BitVec.ofInt 56 (4 * off.toInt)

/-! Floating-point lanes -/

/-- R171, R176: the lane format of a type. -/
def fpFmt : FpTy → FFmt
  | .f32 => fmtF32
  | .f64 => fmtF64
  | .f16x2 => fmtF16
  | .bf16x2 => fmtBf16
/-- R176: the number of lanes. -/
def fpLanes : FpTy → Nat
  | .f16x2 | .bf16x2 => 2
  | _ => 1
/-- R176: lane `k` of a token's value. -/
def fpLane (ty : FpTy) (v k : Nat) : Nat := v / 2 ^ ((fpFmt ty).width * k) % 2 ^ (fpFmt ty).width
/-- R176: the lanes packed; higher bits are zero. -/
def fpPack (ty : FpTy) (f : Nat → Nat) : Nat :=
  if fpLanes ty = 2 then f 0 + 2 ^ 16 * f 1 else f 0
/-- R180: the rounding mode of a code. -/
def rmOf (c : BitVec 2) : Rnd := rndOf c.toNat

/-- R202: the floating-point format of a conversion format. -/
def cvtFloat : CvtFmt → Option FFmt
  | .f64 => some fmtF64
  | .f32 => some fmtF32
  | .f16 => some fmtF16
  | .bf16 => some fmtBf16
  | .e4m3 => some fmtE4m3
  | .e5m2 => some fmtE5m2
  | _ => none
/-- R202: the integer type of a conversion format. -/
def cvtInt : CvtFmt → IntTy
  | .i32 => .i32
  | .n32 => .n32
  | .i64 => .i64
  | _ => .n64

/-! Sizes -/

/-- R71: the bytes of an access. -/
def sizeBytes : Size → Nat
  | .b8 => 1 | .b16 => 2 | .b32 => 4 | .b64 => 8 | .b128 => 16

/-- R226: the token of a value read with a size: a pair token at b128. -/
def sizedTok (bytes v : Nat) : Token := if bytes = 16 then pairTok v else dword v

end Sys2Proof.Machine
end

