-- ==== Sys2Proof/Machine/Flags.lean ====
section
/-! DEFINITION. The flag computations: the integer flags zero, invert b and saturate (R158), the floating-point flags
(R179, R192), predicates (R68, R164, R196) and the constraints that a compare records in a region (R340). -/

namespace Sys2Proof.Machine

/-- R158 step 1: a null b reads as the value 0 under the zero flag. -/
def zeroB (z : Bool) (b : Token) : Token := if z && b.null then dword 0 else b
/-- R158 step 2: every bit of b inverted. -/
def invertB (inv : Bool) (v : Nat) : Nat := if inv then 2 ^ 64 - 1 - v % 2 ^ 64 else v
/-- R158 step 3: clamp to lo … hi. -/
def saturate (sat : Bool) (ty : IntTy) (e : Int) : Int := if sat then min (max e (laneLo ty)) (laneHi ty) else e

/-- R159: a lane operation on values a, b and c, given the exact result of a lane from x, y, z and the natural count. -/
def laneOp (m : IntMod) (f : Int → Int → Int → Nat → Int) (a b c : Nat) : Nat :=
  let bb := invertB m.invb b
  packLanes m.ty fun k =>
    saturate m.sat m.ty (f (laneVal m.ty a k) (laneVal m.ty bb k) (laneVal m.ty c k) (lanePat m.ty bb k))

/-- R192: b with its sign bit inverted. -/
def negB (f : FFmt) (neg : Bool) (x : Nat) : Nat := if neg then f.withSign (!f.neg x) (x % f.signBit) else x

/-- R192: the last step, a nonzero subnormal result flushed. -/
def flushOut (f : FFmt) (on : Bool) (x : Nat) : Nat := f.flush on x

/-- R340: the relation of a comparison on two numbers. -/
def relHolds (r : Rel) (x y : Int) : Bool :=
  match r with
  | .eq => x == y
  | .ne => x != y
  | .lt => decide (x < y)
  | .le => decide (x ≤ y)
  | .gt => decide (y < x)
  | .ge => decide (y ≤ x)

/-- R340: a 64-bit pattern as the constraint reads it. -/
def readAs (signed : Bool) (x : DWord) : Int := if signed then x.toInt else (x.toNat : Int)

/-- R340: does a constraint hold for a value of its input? -/
def Constraint.holds (k : Constraint) (v : DWord) : Bool :=
  let x := readAs k.signed (v + k.c)
  let y := readAs k.signed k.k
  (if k.tagLeft then relHolds k.rel x y else relHolds k.rel y x) == k.outcome

/-- R340: record a constraint in the region of the firing's instance; with 32 recorded, its input is pinned instead. -/
def State.constrain (s : State) (k : Constraint) : State :=
  match s.curInst? with
  | none => s
  | some x =>
    match x.region with
    | none => s
    | some r =>
      match Tbl.find? (s.core s.cur.core).regions r with
      | none => s
      | some g =>
        if g.constraints.contains k then s
        else if g.constraints.length ≥ 32 then s.pinInput k.input
        else s.modCore s.cur.core fun y => y.modRegion r fun g => { g with constraints := g.constraints ++ [k] }

end Sys2Proof.Machine
end

