-- ==== Sys2Proof/Machine/Sfu.lean ====
section
/-! DEFINITION. The special functions of R199 as sets of two neighbours: fixed-point arithmetic encloses the exact value
between two dyadic numbers so close that no member of F′ lies between them, and the free constant `Config.sfuUpper`
chooses one of the two neighbours. Where the exact value is a member of F′ the special values of R199 give it. -/

namespace Sys2Proof.Machine

/-- Fixed point: numbers are multiples of `2^-512`. -/
def fxP : Nat := 512
/-- One in fixed point. -/
def fxOne : Int := 2 ^ 512
/-- A product in fixed point, rounded down. -/
def fxMul (a b : Int) : Int := a * b / 2 ^ 512

/-- The sum of `2 / ((2i+1) * t^(2i+1))` in fixed point, which is `2 * atanh(1/t)`, over `fuel` terms. -/
def atanhInv2 (t : Nat) : Nat → Nat → Int → Int
  | 0, _, _ => 0
  | fuel + 1, i, p => 2 * p / (2 * i + 1) + atanhInv2 t fuel (i + 1) (p / (t * t))

/-- ln 2 = 2 atanh(1/3). -/
def fxLn2 : Int := atanhInv2 3 170 0 (fxOne / 3)

/-- The alternating sum for arctan(1/t). -/
def atanInv (t : Nat) : Nat → Nat → Int → Int
  | 0, _, _ => 0
  | fuel + 1, i, p => (if i % 2 = 0 then p / (2 * i + 1) else -(p / (2 * i + 1))) + atanInv t fuel (i + 1) (p / (t * t))

/-- π = 16 arctan(1/5) - 4 arctan(1/239). -/
def fxPi : Int := 16 * atanInv 5 120 0 (fxOne / 5) - 4 * atanInv 239 40 0 (fxOne / 239)

/-- The Taylor sum of exp, from the term `i` on, for an argument below 1 in magnitude. -/
def fxExpFrom (x : Int) : Nat → Nat → Int → Int
  | 0, _, _ => 0
  | fuel + 1, i, t => t + fxExpFrom x fuel (i + 1) (fxMul t x / (i + 1))
/-- exp in fixed point for an argument below 1 in magnitude. -/
def fxExp (x : Int) : Int := fxExpFrom x 100 0 fxOne

/-- The Taylor sum of sin and cos by steps of two: from the term of degree `i`. -/
def fxTrigFrom (x2 : Int) : Nat → Nat → Int → Int
  | 0, _, _ => 0
  | fuel + 1, i, t => t + fxTrigFrom x2 fuel (i + 2) (-(fxMul t x2) / ((i + 1) * (i + 2)))
/-- sin in fixed point for an argument below 1 in magnitude. -/
def fxSin (x : Int) : Int := fxTrigFrom (fxMul x x) 50 1 x
/-- cos in fixed point for an argument below 1 in magnitude. -/
def fxCos (x : Int) : Int := fxTrigFrom (fxMul x x) 50 0 fxOne

/-- The sum of `z^(2i+1) / (2i+1)`, which is atanh z, for `z` at most 1/5 in magnitude. -/
def fxAtanhFrom (z2 : Int) : Nat → Nat → Int → Int
  | 0, _, _ => 0
  | fuel + 1, i, p => p / (2 * i + 1) + fxAtanhFrom z2 fuel (i + 1) (fxMul p z2)

/-- A dyadic number in fixed point (exact where its exponent is at least -512). -/
def fxOf (m : Nat) (e : Int) : Int := if 0 ≤ e + 512 then (m : Int) * 2 ^ (e + 512).toNat else (m : Int) / 2 ^ (-(e + 512)).toNat

/-- An open interval `(lo * 2^e, hi * 2^e)` of magnitudes that holds the exact value, with its sign. -/
structure Enclosure where
  neg : Bool
  lo : Nat
  hi : Nat
  e : Int
deriving DecidableEq, Repr

/-- The margin kept around a fixed-point result: `2^-360`, far above the rounding errors of these sums. -/
def fxMargin : Int := 2 ^ 152

/-- The enclosure of a fixed-point result. -/
def encloseFx (v : Int) : Enclosure :=
  let a : Int := v.natAbs
  ⟨decide (v < 0), (a - fxMargin).toNat, (a + fxMargin).toNat, -512⟩

/-- The enclosure just below a positive dyadic `m * 2^e`, wider than nothing and narrower than any step of F′. -/
def justBelow (neg : Bool) (m : Nat) (e : Int) : Enclosure := ⟨neg, m * 2 ^ 100 - 1, m * 2 ^ 100, e - 100⟩
/-- The enclosure just above a positive dyadic. -/
def justAbove (neg : Bool) (m : Nat) (e : Int) : Enclosure := ⟨neg, m * 2 ^ 100, m * 2 ^ 100 + 1, e - 100⟩

/-- Is a nonzero dyadic magnitude below `2^-40`? -/
def tiny (m : Nat) (e : Int) : Bool := decide ((Nat.log2 m : Int) + 1 + e < -40)

/-- 2^x for a dyadic x that is not an integer. -/
def encExp2 (neg : Bool) (m : Nat) (e : Int) : Enclosure :=
  if tiny m e then (if neg then justBelow false 1 0 else justAbove false 1 0)
  else if 12 < (Nat.log2 m : Int) + e then (if neg then ⟨false, 1, 2, -5000⟩ else ⟨false, 1, 2, 5000⟩)
  else
    let x := if neg then -(fxOf m e) else fxOf m e
    let n := x / fxOne
    let f := x - n * fxOne
    let v := encloseFx (fxExp (fxMul f fxLn2))
    { v with e := v.e + n }

/-- log2 of a positive dyadic that is no power of two. -/
def encLog2 (m : Nat) (e : Int) : Enclosure :=
  let k : Int := Nat.log2 m
  let y := fxOf m (-k)
  let half := decide (3 * fxOne ≤ 2 * y)
  let y' := if half then y / 2 else y
  let n : Int := k + e + (if half then 1 else 0)
  let z := (y' - fxOne) * fxOne / (y' + fxOne)
  encloseFx (n * fxOne + 2 * fxAtanhFrom (fxMul z z) 130 0 z * fxOne / fxLn2)

/-- sin (or cos) of a nonzero dyadic. -/
def encTrig (cos : Bool) (neg : Bool) (m : Nat) (e : Int) : Enclosure :=
  if tiny m e then (if cos then justBelow false 1 0 else justBelow neg m e)
  else
    let x := fxOf m e
    let h := fxPi / 2
    let q := (2 * x + h) / (2 * h)
    let r := x - q * h
    let quad := (q + (if cos then 1 else 0)) % 4
    let v := if quad = 0 then fxSin r else if quad = 1 then fxCos r else if quad = 2 then -(fxSin r) else -(fxCos r)
    encloseFx (if neg && !cos then -v else v)

/-- tanh of a nonzero dyadic. -/
def encTanh (neg : Bool) (m : Nat) (e : Int) : Enclosure :=
  if tiny m e then justBelow neg m e
  else if 5 < (Nat.log2 m : Int) + e then justBelow neg 1 0
  else
    let x := 2 * fxOf m e
    let n := x / fxLn2
    let t := fxExp (-(x - n * fxLn2)) / 2 ^ n.toNat
    encloseFx (if neg then -((fxOne - t) * fxOne / (fxOne + t)) else (fxOne - t) * fxOne / (fxOne + t))

/-- The member of F′ next to zero side (`up` false) or away from zero (`up` true) of an enclosure, as a pattern. -/
def neighbour (f : FFmt) (x : Enclosure) (up : Bool) : Nat :=
  let m := if up then x.hi else x.lo
  if m = 0 then f.withSign x.neg 0
  else
    -- toward zero or away from zero, whatever the sign
    let g := f.toGrid (if up then .rup else .rtz) false m x.e
    if f.over g then f.withSign x.neg (if f.hasInf then f.inf else f.maxFinite) else f.withSign x.neg (f.ofGrid g)

/-- R199: one of the two neighbours, the same one for every evaluation. (DESIGN CHOICE, log entry 14.) -/
def faithful (f : FFmt) (fn fmt x : Nat) (en : Enclosure) : Nat := neighbour f en (Config.sfuUpper fn fmt x)

/-- An integer as an exact number. -/
def numOfInt (k : Int) : FpNum := .fin (decide (k < 0)) k.natAbs 0

/-- A dyadic that is an integer, as that integer. -/
def asInt? (neg : Bool) (m : Nat) (e : Int) : Option Int :=
  let v : Option Nat := if 0 ≤ e then (if e < 20 then some (m * 2 ^ e.toNat) else some (2 ^ 20))
    else if m % 2 ^ (-e).toNat = 0 then some (m / 2 ^ (-e).toNat) else none
  v.map fun n => if neg then -(n : Int) else n

/-- R199, `fex2`. -/
def fex2Of (f : FFmt) (fmt x : Nat) : Nat :=
  match f.value x with
  | .nan => f.canonNaN
  | .inf true => 0
  | .inf false => f.inf
  | .fin _ 0 _ => f.round .rne (.fin false 1 0)
  | .fin neg m e =>
    match asInt? neg m e with
    | some k =>
      if k < f.kMin then faithful f 0 fmt x ⟨false, 1, 2, -5000⟩
      else if 5000 < k then faithful f 0 fmt x ⟨false, 1, 2, 5000⟩
      else f.round .rup (.fin false 1 k)
    | none => faithful f 0 fmt x (encExp2 neg m e)

/-- R199, `flg2`. -/
def flg2Of (f : FFmt) (fmt x : Nat) : Nat :=
  match f.value x with
  | .nan => f.canonNaN
  | .inf true => f.canonNaN
  | .inf false => f.inf
  | .fin _ 0 _ => f.withSign true f.inf
  | .fin true _ _ => f.canonNaN
  | .fin false m e =>
    if m = 2 ^ Nat.log2 m then f.round .rne (numOfInt ((Nat.log2 m : Int) + e)) else faithful f 1 fmt x (encLog2 m e)

/-- R199, `fsin`. -/
def fsinOf (f : FFmt) (fmt x : Nat) : Nat :=
  match f.value x with
  | .nan => f.canonNaN
  | .inf _ => f.canonNaN
  | .fin neg 0 _ => f.withSign neg 0
  | .fin neg m e => faithful f 2 fmt x (encTrig false neg m e)

/-- R199, `fcos`. -/
def fcosOf (f : FFmt) (fmt x : Nat) : Nat :=
  match f.value x with
  | .nan => f.canonNaN
  | .inf _ => f.canonNaN
  | .fin _ 0 _ => f.round .rne (.fin false 1 0)
  | .fin neg m e => faithful f 3 fmt x (encTrig true neg m e)

/-- R199, `ftanh`. -/
def ftanhOf (f : FFmt) (fmt x : Nat) : Nat :=
  match f.value x with
  | .nan => f.canonNaN
  | .inf neg => f.round .rne (.fin neg 1 0)
  | .fin neg 0 _ => f.withSign neg 0
  | .fin neg m e => faithful f 4 fmt x (encTanh neg m e)

end Sys2Proof.Machine
end

