-- ==== Sys2Proof/Machine/Float.lean ====
section
/-! DEFINITION. Floating-point operations, opcodes 0x50-0x68 (R191-R201). -/

namespace Sys2Proof.Machine

/-- R180: the rounding mode that stood at the instance's admission. -/
def State.roundMode (s : State) : Rnd :=
  match s.curInst? with
  | some x => rmOf x.fp
  | none => .rne

/-! Lane functions on patterns -/

/-- R192: b after `negb`, then both flushes. -/
def fpIn (m : FpMod) (f : FFmt) (x : Nat) : Nat := f.flush m.ftzi x
/-- R192: the b operand of a lane. -/
def fpInB (m : FpMod) (f : FFmt) (x : Nat) : Nat := f.flush m.ftzi (negB f m.negb x)

/-- R193: an arithmetic lane of two inputs. -/
def arith2 (m : FpMod) (f : FFmt) (rm : Rnd) (op : FpNum → FpNum → FpNum) (a b : Nat) : Nat :=
  flushOut f m.ftzo (f.round rm (op (f.value (fpIn m f a)) (f.value (fpInB m f b))))
/-- R193: an arithmetic lane of one input. -/
def arith1 (m : FpMod) (f : FFmt) (rm : Rnd) (op : FpNum → FpNum) (a : Nat) : Nat :=
  flushOut f m.ftzo (f.round rm (op (f.value (fpIn m f a))))
/-- R193: the fused lane. -/
def fmaLane (m : FpMod) (f : FFmt) (rm : Rnd) (a b c : Nat) : Nat :=
  flushOut f m.ftzo (f.round rm (sumNum rm
    [FpNum.mul (f.value (fpIn m f a)) (f.value (fpInB m f b)), f.value (fpIn m f c)]))

/-- R194: the smaller (or larger) of two patterns. -/
def minmaxBits (f : FFmt) (wantMax : Bool) (a b : Nat) : Nat :=
  let x := f.value a
  let y := f.value b
  if x.isNaN && y.isNaN then f.canonNaN
  else if x.isNaN then b
  else if y.isNaN then a
  else if x.eq y then (if f.neg a == wantMax then b else a)
  else if x.lt y == wantMax then b else a

/-- R197: the class of a lane, as a bit. -/
def classBit (f : FFmt) (x : Nat) : Nat :=
  let neg := f.neg x
  match f.value x with
  | .nan => 256
  | .inf _ => if neg then 1 else 128
  | .fin _ 0 _ => if neg then 8 else 16
  | .fin _ _ _ =>
    if f.isSubnormal x then (if neg then 4 else 32) else (if neg then 2 else 64)

/-- R196: the relations of `fsetp`. -/
inductive FRel where
  | eq | ne | lt | le | un
deriving DecidableEq, Repr

/-- R196: does the relation hold? -/
def fRelHolds (r : FRel) (x y : FpNum) : Bool :=
  let un := x.isNaN || y.isNaN
  match r with
  | .eq => !un && x.eq y
  | .ne => un || !x.eq y
  | .lt => !un && x.lt y
  | .le => !un && !y.lt x
  | .un => un

/-- R198: a lane rounded to an integral value. -/
def froundLane (m : FroundMod) (f : FFmt) (a : Nat) : Nat :=
  let x := f.flush m.ftzi a
  match f.value x with
  | .nan => f.canonNaN
  | .inf _ => x
  | .fin _ 0 _ => x
  | .fin neg k e => f.round .rne (.fin neg (intOf m.rnd neg k e).natAbs 0)

/-- R193: the two products and the sum of `fdot2`, rounded once to f32. -/
def fdot2Val (m : FpMod) (rm : Rnd) (a b c : Nat) : Nat :=
  let f := fpFmt m.ty
  let p (k : Nat) : FpNum := FpNum.mul (f.value (fpIn m f (fpLane m.ty a k))) (f.value (fpInB m f (fpLane m.ty b k)))
  flushOut fmtF32 m.ftzo (fmtF32.round rm (sumNum rm [p 0, p 1, fmtF32.value (fmtF32.flush m.ftzi (c % 2 ^ 32))]))

/-! Times (R200) -/

/-- R200: how long an f64 operation occupies its PE. -/
def fpBusy (ty : FpTy) : Nat := if ty = .f64 then 4 else 1
/-- R200: arithmetic. -/
def latArith (ty : FpTy) : Nat := if ty = .f64 then 8 else 4
/-- R200: selection, sign, comparison and class. -/
def latSimple (ty : FpTy) : Nat := if ty = .f64 then 4 else 1
/-- R200: `fround`. -/
def latRound (ty : FpTy) : Nat := if ty = .f64 then 4 else 2
/-- R200: `fdiv` and `fsqrt`. -/
def latDiv (ty : FpTy) : Nat := if ty = .f64 then 48 else 24

/-! Shapes -/

/-- An operation on the lanes of a. -/
def State.fp1 (s : State) (ty : FpTy) (lat : Nat) (t1 t0 : Target) (f : Nat → Nat) : State :=
  let a := s.opTok .a
  s.compute (fpBusy ty) lat t1 t0 [a] (dword (fpPack ty fun k => f (fpLane ty a.nat k)))
/-- An operation on the lanes of a and b. -/
def State.fp2 (s : State) (ty : FpTy) (lat : Nat) (t1 t0 : Target) (f : Nat → Nat → Nat) : State :=
  let a := s.opTok .a
  let b := s.opTok .b
  s.compute (fpBusy ty) lat t1 t0 [a, b] (dword (fpPack ty fun k => f (fpLane ty a.nat k) (fpLane ty b.nat k)))
/-- R196: a comparison of a and b. -/
def State.fcompare (s : State) (m : FpMod) (r : FRel) (t1 t0 : Target) : State :=
  let f := fpFmt m.ty
  let a := s.opTok .a
  let b := s.opTok .b
  s.compute (fpBusy m.ty) (latSimple m.ty) t1 t0 [a, b]
    (predTok (fRelHolds r (f.value (fpIn m f (fpLane m.ty a.nat 0))) (f.value (fpInB m f (fpLane m.ty b.nat 0)))))

/-- R119: of the two special-function ports the one that is free first, and the clk from which it is.
(DESIGN CHOICE, log entry 4.) -/
def Core.sfuPort (x : Core) : Nat × Nat :=
  let a := x.sfuFree.getD 0 0
  let b := x.sfuFree.getD 1 0
  if a ≤ b then (0, a) else (1, b)

/-- R119: the clk that a request made at a clk waits at its PE for a special-function port. -/
def Core.sfuWait (x : Core) (now : Nat) : Nat := x.sfuPort.2 - now

/-- R119, R200: the firing's emission is a request on a special-function port, which it holds for some clk and which returns, by
`SFU_RETURN`, its latency after the port accepts it. (DEDUCED, log entry 43.) -/
def State.viaPort (s : State) (hold : Nat) : State :=
  let x := s.core s.cur.core
  let wait := x.sfuWait s.clk
  (s.modCore s.cur.core fun y => { y with sfuFree := replaceAt y.sfuFree x.sfuPort.1 (s.clk + wait + hold) }).modInst
    s.cur.core s.cur.slot fun z =>
      { z with emits := z.emits.map fun e => if e.idx = s.cur.idx then { e with port := true, due := e.due + wait } else e }

/-- R200: the clk for which a division or a square root holds its port. -/
def divHold (ty : FpTy) : Nat := if ty = .f64 then 8 else 1

/-- R119, R199: an operation of one lane input that runs on a special-function port. -/
def State.port1 (s : State) (m : FpMod) (lat : Nat) (t1 t0 : Target) (f : Nat → Nat) : State :=
  let a := s.opTok .a
  let v := dword (fpPack m.ty fun k => flushOut (fpFmt m.ty) m.ftzo (f (fpIn m (fpFmt m.ty) (fpLane m.ty a.nat k))))
  (s.compute 1 lat t1 t0 [a] v).viaPort 1

/-! Meanings -/

/-- `fadd` (R193). -/
def execFadd (m : FpMod) (t1 t0 : Target) (s : State) : Res :=
  .next (s.fp2 m.ty (latArith m.ty) t1 t0 (arith2 m (fpFmt m.ty) s.roundMode fun x y => sumNum s.roundMode [x, y]))

/-- `fmul` (R193). -/
def execFmul (m : FpMod) (t1 t0 : Target) (s : State) : Res :=
  .next (s.fp2 m.ty (latArith m.ty) t1 t0 (arith2 m (fpFmt m.ty) s.roundMode FpNum.mul))

/-- `ffma` (R193); port c is data. -/
def execFfma (m : FpMod) (t1 t0 : Target) (s : State) : Res :=
  let a := s.opTok .a
  let b := s.opTok .b
  let c := s.opTok .c
  .next (s.computeC (fpBusy m.ty) (latArith m.ty) t1 t0 [a, b, c] (dword (fpPack m.ty fun k =>
    fmaLane m (fpFmt m.ty) s.roundMode (fpLane m.ty a.nat k) (fpLane m.ty b.nat k) (fpLane m.ty c.nat k))))

/-- `fmin` (R194). -/
def execFmin (m : FpMod) (t1 t0 : Target) (s : State) : Res :=
  .next (s.fp2 m.ty (latSimple m.ty) t1 t0 fun a b =>
    minmaxBits (fpFmt m.ty) false (fpIn m (fpFmt m.ty) a) (fpInB m (fpFmt m.ty) b))

/-- `fmax` (R194). -/
def execFmax (m : FpMod) (t1 t0 : Target) (s : State) : Res :=
  .next (s.fp2 m.ty (latSimple m.ty) t1 t0 fun a b =>
    minmaxBits (fpFmt m.ty) true (fpIn m (fpFmt m.ty) a) (fpInB m (fpFmt m.ty) b))

/-- `fabs` (R195). -/
def execFabs (m : FpMod) (t1 t0 : Target) (s : State) : Res :=
  .next (s.fp1 m.ty (latSimple m.ty) t1 t0 fun a => a % (fpFmt m.ty).signBit)

/-- `fneg` (R195). -/
def execFneg (m : FpMod) (t1 t0 : Target) (s : State) : Res :=
  .next (s.fp1 m.ty (latSimple m.ty) t1 t0 fun a => negB (fpFmt m.ty) true a)

/-- `fcopysign` (R195). -/
def execFcopysign (m : FpMod) (t1 t0 : Target) (s : State) : Res :=
  .next (s.fp2 m.ty (latSimple m.ty) t1 t0 fun a b =>
    (fpFmt m.ty).withSign ((fpFmt m.ty).neg (negB (fpFmt m.ty) m.negb b)) (a % (fpFmt m.ty).signBit))

/-- `fsetp.eq` (R196). -/
def execFsetpEq (m : FpMod) (t1 t0 : Target) (s : State) : Res := .next (s.fcompare m .eq t1 t0)
/-- `fsetp.ne` (R196). -/
def execFsetpNe (m : FpMod) (t1 t0 : Target) (s : State) : Res := .next (s.fcompare m .ne t1 t0)
/-- `fsetp.lt` (R196). -/
def execFsetpLt (m : FpMod) (t1 t0 : Target) (s : State) : Res := .next (s.fcompare m .lt t1 t0)
/-- `fsetp.le` (R196). -/
def execFsetpLe (m : FpMod) (t1 t0 : Target) (s : State) : Res := .next (s.fcompare m .le t1 t0)
/-- `fsetp.un` (R196). -/
def execFsetpUn (m : FpMod) (t1 t0 : Target) (s : State) : Res := .next (s.fcompare m .un t1 t0)

/-- `fclass` (R197): the mask of lane 1 stands in [31:16]. -/
def execFclass (m : FpMod) (t1 t0 : Target) (s : State) : Res :=
  .next (s.fp1 m.ty (latSimple m.ty) t1 t0 fun a => classBit (fpFmt m.ty) (fpIn m (fpFmt m.ty) a))

/-- `fdiv` (R193), on a special-function port. -/
def execFdiv (m : FpMod) (t1 t0 : Target) (s : State) : Res :=
  .next ((s.fp2 m.ty (latDiv m.ty) t1 t0 (arith2 m (fpFmt m.ty) s.roundMode FpNum.div)).viaPort (divHold m.ty))

/-- `fsqrt` (R193), on a special-function port. -/
def execFsqrt (m : FpMod) (t1 t0 : Target) (s : State) : Res :=
  .next ((s.fp1 m.ty (latDiv m.ty) t1 t0 (arith1 m (fpFmt m.ty) s.roundMode FpNum.sqrt)).viaPort (divHold m.ty))

/-- `frcp` (R199). -/
def execFrcp (m : FpMod) (t1 t0 : Target) (s : State) : Res :=
  .next (s.port1 m 12 t1 t0 fun a => (fpFmt m.ty).round .rne (FpNum.rcp ((fpFmt m.ty).value a)))

/-- `frsq` (R199). -/
def execFrsq (m : FpMod) (t1 t0 : Target) (s : State) : Res :=
  .next (s.port1 m 12 t1 t0 fun a => (fpFmt m.ty).round .rne (FpNum.rsq ((fpFmt m.ty).value a)))

/-- The number of a format for the free choice of R199. -/
def fmtNum (ty : FpTy) : Nat :=
  match ty with | .f32 => 0 | .f64 => 1 | .f16x2 => 2 | .bf16x2 => 3

/-- `fex2` (R199). -/
def execFex2 (m : FpMod) (t1 t0 : Target) (s : State) : Res :=
  .next (s.port1 m 14 t1 t0 (fex2Of (fpFmt m.ty) (fmtNum m.ty)))
/-- `flg2` (R199). -/
def execFlg2 (m : FpMod) (t1 t0 : Target) (s : State) : Res :=
  .next (s.port1 m 14 t1 t0 (flg2Of (fpFmt m.ty) (fmtNum m.ty)))
/-- `fsin` (R199). -/
def execFsin (m : FpMod) (t1 t0 : Target) (s : State) : Res :=
  .next (s.port1 m 20 t1 t0 (fsinOf (fpFmt m.ty) (fmtNum m.ty)))
/-- `fcos` (R199). -/
def execFcos (m : FpMod) (t1 t0 : Target) (s : State) : Res :=
  .next (s.port1 m 20 t1 t0 (fcosOf (fpFmt m.ty) (fmtNum m.ty)))
/-- `ftanh` (R199). -/
def execFtanh (m : FpMod) (t1 t0 : Target) (s : State) : Res :=
  .next (s.port1 m 16 t1 t0 (ftanhOf (fpFmt m.ty) (fmtNum m.ty)))

/-- `fround` (R198). -/
def execFround (m : FroundMod) (t1 t0 : Target) (s : State) : Res :=
  .next (s.fp1 m.ty (latRound m.ty) t1 t0 (froundLane m (fpFmt m.ty)))

/-- `fdot2` (R193); port c is data, in f32. -/
def execFdot2 (m : FpMod) (t1 t0 : Target) (s : State) : Res :=
  let a := s.opTok .a
  let b := s.opTok .b
  let c := s.opTok .c
  .next (s.computeC 1 (latArith m.ty) t1 t0 [a, b, c] (dword (fdot2Val m s.roundMode a.nat b.nat c.nat)))

end Sys2Proof.Machine
end

