-- ==== Sys2Proof/Machine/Plumbing.lean ====
section
/-! DEFINITION. The plumbing instructions, opcodes 0x01-0x0f (R138-R140). -/

namespace Sys2Proof.Machine

/-- The block that the firing's instance runs. -/
def State.curBlock (s : State) : Block :=
  match s.curInst? with
  | some x => ((s.core s.cur.core).context x.ctx).block
  | none => Block.empty

/-- The live slots that an instruction reads (R108). -/
def slotsRead : Instr → List Nat
  | .read n _ _ => [n.toNat]
  | .readD n _ _ => [n.toNat, n.toNat + 1]
  | _ => []

/-- R128: the slots of a bank in the order in which the reads below an instruction of a block name them first. -/
def bankOrder (b : Block) (idx bank : Nat) : List Nat :=
  (List.range idx).foldl (fun acc k => (match b.instr? k with | some i => slotsRead i | none => []).foldl
    (fun acc n => if n % 16 == bank && !acc.contains n then acc ++ [n] else acc) acc) []

/-- R128: the turn, after the admission clk, in which its bank reads a slot for an instruction of a block. -/
def bankTurn (b : Block) (idx slot : Nat) : Nat := (bankOrder b idx (slot % 16)).findIdx (· == slot)

/-- R127: a parity error in a matching entry, or in a token from the live-value store, of the instance of a thread.
(DESIGN CHOICE, log entry 15.) (DESIGN CHOICE, log entry 45.) -/
def State.parityError (s : State) (c sl pe : Nat) : State :=
  match (s.thread c sl).inst with
  | none => s
  | some x =>
    let f : ThreadFault := ⟨.poison, pe, 0, Config.parityDetail pe⟩
    let before := match x.checkAt with | some t => decide (s.clk ≤ t) | none => true
    let s1 := s.modDie (dieOf c) fun d =>
      { d with errors := { d.errors with parity := min (2 ^ 32 - 1) (d.errors.parity + 1) } }
    let s2 := if before then s1.modThread c sl fun t =>
        { t with buf := t.buf.filter (·.committed), deferred := t.deferred.filter (·.committed) } else s1
    s2.modInst c sl fun y =>
      let z := if y.region.isSome then y.abortWith s.clk pe 7 0 else y
      if before then z.squashWith f else z.addFault f

/-- R146: the firing's instance finds a parity error when a slot that it reads has wrong parity. -/
def State.checkParity (s : State) (slots : List Nat) : State :=
  if maskMeets s.curThread.badParity slots then s.parityError s.cur.core s.cur.slot s.cur.idx else s

/-- R122, R138: a source instruction's value on both targets. -/
def State.source (s : State) (lat : Nat) (t1 t0 : Target) (v : Token) : State := s.emit 1 lat t1 t0 v v

/-- R339: the tag of a pair of slots, while a region is open. -/
def State.slotTag (s : State) (sl : Nat) : Option (Nat × DWord) :=
  match s.curThread.region with
  | none => none
  | some k =>
    match Tbl.find? (s.core s.cur.core).regions k with
    | some r => Tbl.find? r.tags sl
    | none => none

/-- `read` (R138); reading one slot of a tagged pair pins its input (R339). -/
def execRead (slot : BitVec 6) (t1 t0 : Target) (s : State) : Res :=
  let n := slot.toNat
  let tag := s.slotTag (n / 2 * 2)
  .next (((s.checkParity [n]).pin [{ nullTok with tag := tag }]).source (1 + bankTurn s.curBlock s.cur.idx n) t1 t0
    (dword (s.curThread.slot n).toNat))

/-- `read.d` (R138); the value of a tagged pair carries the tag (R339). -/
def execReadD (slot : BitVec 6) (t1 t0 : Target) (s : State) : Res :=
  let n := slot.toNat
  let turn := max (bankTurn s.curBlock s.cur.idx n) (bankTurn s.curBlock s.cur.idx (n + 1))
  .next ((s.checkParity [n, n + 1]).source (1 + turn) t1 t0 { dword (s.curThread.pairSlot n).toNat with tag := s.slotTag n })

/-- A literal word of the firing's block. -/
def State.literal (s : State) (j : Nat) : Nat := (s.curBlock.lits.getD j 0).toNat

/-- `lit` (R138). -/
def execLit (slot : BitVec 6) (t1 t0 : Target) (s : State) : Res :=
  .next (s.source 1 t1 t0 (dword (s.literal slot.toNat)))

/-- `lit.d` (R138). -/
def execLitD (slot : BitVec 6) (t1 t0 : Target) (s : State) : Res :=
  .next (s.source 1 t1 t0 (dword (s.literal slot.toNat + 2 ^ 32 * s.literal (slot.toNat + 1))))

/-- `const` (R138). -/
def execConst (imm : BitVec 15) (t0 : Target) (s : State) : Res :=
  .next (s.source 1 .none t0 (dword (lowBits 64 (immVal imm))))

/-- R28, R64: the value of an `id` selector for a thread slot. -/
def State.identity (s : State) (c sl sel : Nat) : Nat :=
  let g := s.groupOf c sl
  let r := (s.grid g.grid).launch
  let t := (s.thread c sl).lin
  match sel with
  | 0 => if g.carrier then t else t % r.bx
  | 1 => if g.carrier then 0 else t / r.bx % r.by_
  | 2 => if g.carrier then 0 else t / (r.bx * r.by_)
  | 3 => g.lin % r.gx
  | 4 => g.lin / r.gx % r.gy
  | 5 => g.lin / (r.gx * r.gy)
  | 6 => r.groupSize
  | 7 => c % Config.coresPerDie
  | 8 => dieOf c
  | 9 => g.lin % r.ropeG
  | _ => sl

/-- `id` (R138). -/
def execId (slot : BitVec 6) (t1 t0 : Target) (s : State) : Res :=
  .next (s.source 1 t1 t0 (dword (s.identity s.cur.core s.cur.slot slot.toNat)))

/-- `mov` (R140): a on both targets, with its tag. -/
def execMov (_w : Bool) (t1 t0 : Target) (s : State) : Res :=
  let a := s.opTok .a
  .next (s.computeTag 1 1 t1 t0 [a] a a.tag)

/-- R140: a on both targets when the predicate on b is as wanted; the predicate of a tagged token pins its input. -/
def State.gateOp (s : State) (want : Bool) (t1 t0 : Target) : State :=
  let a := s.opTok .a
  let b := s.opTok .b
  if s.runs [a, b] && (b.pred == want) then (s.pin [b]).emit 1 1 t1 t0 a a
  else (s.pin [b]).emit 1 1 t1 t0 nullTok nullTok

/-- `gate` (R140). -/
def execGate (_w : Bool) (t1 t0 : Target) (s : State) : Res := .next (s.gateOp true t1 t0)

/-- `gaten` (R140). -/
def execGaten (_w : Bool) (t1 t0 : Target) (s : State) : Res := .next (s.gateOp false t1 t0)

/-- `sel` (R140): the chosen input with its tag; null when any of a, b and c is null. -/
def execSel (_w : Bool) (t1 t0 : Target) (s : State) : Res :=
  let a := s.opTok .a
  let b := s.opTok .b
  let c := s.opTok .c
  let v := if c.pred then a else b
  .next (if s.runs [a, b, c] then (s.pin [c]).emit 1 1 t1 t0 v v else (s.pin [c]).emit 1 1 t1 t0 nullTok nullTok)

/-- `pick` (R140): a when it is not null, otherwise b. -/
def execPick (_w : Bool) (t1 t0 : Target) (s : State) : Res :=
  let v := if (s.opTok .a).null then s.opTok .b else s.opTok .a
  .next (s.emit 1 1 t1 t0 v v)

/-- `pair` (R140): concat(b, a) as a pair token. -/
def execPair (t1 t0 : Target) (s : State) : Res :=
  let a := s.opTok .a
  let b := s.opTok .b
  .next (s.compute 1 1 t1 t0 [a, b] (pairTok (a.lo + 2 ^ 64 * b.lo)))

/-- `split` (R140): the low half on T0 and the high half on T1, as dwords. -/
def execSplit (t1 t0 : Target) (s : State) : Res :=
  let a := s.opTok .a
  .next (if s.runs [a] && s.guardTrue then
      (s.pin [a, s.opTok .c]).emit 1 1 t1 t0 (dword (a.nat / 2 ^ 64)) (dword a.lo)
    else (s.pin [a, s.opTok .c]).emit 1 1 t1 t0 nullTok nullTok)

/-- `sink` (R140): the input is discarded; it completes in the clk it fires. -/
def execSink (_w : Bool) (s : State) : Res := .next ((s.pin [s.opTok .a]).emit 1 1 .none .none nullTok nullTok)

/-- `isnull` (R140): 1 when a is null, never null itself. -/
def execIsnull (_w : Bool) (t1 t0 : Target) (s : State) : Res :=
  let a := s.opTok .a
  .next ((s.pin [a]).emit 1 1 t1 t0 (predTok a.null) (predTok a.null))

end Sys2Proof.Machine
end

