-- ==== Sys2Proof/Machine/Loads.lean ====
section
/-! DEFINITION. Loads, stores, prefetch, fences, cache operations and probe, opcodes 0x80-0x8d (R225-R233), up to the point
where a request has been judged (R221, R238). What answers a request later stands in Sys2Proof/Machine/MemorySteps.lean. -/

namespace Sys2Proof.Machine

/-! The check point -/

/-- R238: the address of an instruction has passed, or is null; with the last one the check point is reached. -/
def State.judgedAt (s : State) (c sl idx : Nat) : State :=
  match (s.thread c sl).inst with
  | none => s
  | some x =>
    let b := ((s.core c).context x.ctx).block
    let j := insertNat idx x.judged
    s.modInst c sl fun y =>
      { y with judged := j,
               checkAt := if y.checkAt.isNone && b.addrIdxs.all j.contains then some s.clk else y.checkAt }

/-- R133, R221: a failed address squashes the instance; the request itself ends with null results. -/
def State.failRequest (s : State) (c sl idx : Nat) (f : ThreadFault) (t1 t0 : Target) (completes : Bool) : State :=
  let s1 := s.modThread c sl fun t =>
    { t with buf := t.buf.filter (·.committed), deferred := t.deferred.filter (·.committed) }
  s1.modInst c sl fun x =>
    let z := if x.region.isSome then x.abortWith s.clk idx 7 0 else x
    let y := { z.squashWith f with reqs := x.reqs.filter fun r => r.idx != idx }
    if completes then ((y.deliver (s.clk + 1) idx t0 nullTok).deliver (s.clk + 1) idx t1 nullTok).complete (s.clk + 1)
    else y

/-- R350: a region fault of a thread's region: detail code, context and block count. -/
def State.regionDetail (s : State) (c sl code : Nat) : DWord :=
  match (s.thread c sl).region with
  | some k =>
    let n := match Tbl.find? (s.core c).regions k with | some r => r.blocks | none => 0
    BitVec.ofNat 64 (code + k * 16 + n * 1024)
  | none => BitVec.ofNat 64 code

/-! Watchpoints (R410, R411) -/

/-- R410: the lowest address of an access that a watchpoint covers, if any. -/
def watchHit (wp : DWord) (write : Bool) (va bytes : Nat) : Option Nat :=
  let size := min 16 (wp.toNat / 2 ^ 56 % 32)
  let base := wp.toNat % 2 ^ 56 / 2 ^ size * 2 ^ size
  let lo := max base va
  if wp.getLsbD 63 && wp.getLsbD (if write then 62 else 61) && decide (lo < base + 2 ^ size) && decide (lo < va + bytes)
  then some lo else none

/-- R411: the stop that an access of a user thread gives, if any: the lowest matching address and its watchpoint.
(DESIGN CHOICE, log entry 55.) -/
def State.watchOf (s : State) (c sl idx : Nat) (write : Bool) (va bytes : Nat) : Option ThreadFault :=
  if (s.thread c sl).priv then none
  else
    let asp := s.aspOf c sl
    let hits := (List.range 4).filterMap fun n =>
      (watchHit (Tbl.get 0 s.mgmt.watch (asp * 4 + n)) write va bytes).map fun a => (a, n)
    match bestBy (fun x y => decide (x.1 < y.1)) hits with
    | some (a, n) =>
      some ⟨.watchpoint, idx, BitVec.ofNat 64 a, BitVec.ofNat 64 (n + (if write then 4 else 0) + idx * 256)⟩
    | none => none

/-- R404, R411: of two stops, that of the lowest instruction index, and of one instruction that of the lowest address; the second
where neither is lower. (DESIGN CHOICE, log entry 55.) -/
def firstStop : Option ThreadFault → Option ThreadFault → Option ThreadFault
  | some f, some g => if f.idx < g.idx || (f.idx == g.idx && decide (f.va.toNat < g.va.toNat)) then some f else some g
  | some f, none => some f
  | none, g => g

/-- R411: a read of an instance that may match. -/
def Inst.addWatch (x : Inst) (f : Option ThreadFault) : Inst := { x with watch := firstStop f x.watch }

/-! Requests -/

/-- The row of R220 that a request uses; the frame of `hspawn` must be aligned and coherent as for `ld.acq` (R383). -/
def ReqKind.row : ReqKind → AccessRow
  | .load | .lds | .deferred _ _ => .load
  | .loadAcq _ => .loadAcq
  | .loadNc => .loadNc
  | .store => .store
  | .storeRel _ => .storeRel
  | .storeNc => .storeNc
  | .cwb | .cinv => .cacheOp
  | .probe | .prefetch _ => .load
  | .atomic op _ _ => .atomic (op == .cas)
  | .frame => .loadAcq
  | .descriptor | .record => .load

/-- Is the request a 128-bit `acas`, which non-coherent host memory accepts (R266)? -/
def Req.row (r : Req) : AccessRow :=
  match r.kind.row with
  | .atomic cas => .atomic (cas && r.bytes == 16)
  | x => x

/-- A request of an instance. -/
def Inst.req? (x : Inst) (idx : Nat) : Option Req := x.reqs.find? fun r => r.idx == idx
/-- Replace a request. -/
def Inst.setReq (x : Inst) (r : Req) : Inst := { x with reqs := x.reqs.map fun q => if q.idx = r.idx then r else q }
/-- Remove a request. -/
def Inst.dropReq (x : Inst) (idx : Nat) : Inst := { x with reqs := x.reqs.filter fun q => q.idx != idx }

/-- R131: a request that is spent delivers its tokens and completes the instruction. -/
def State.finishReq (s : State) (c sl idx : Nat) (t1 t0 : Target) (v1 v0 : Token) : State :=
  s.modInst c sl fun x =>
    let n (v : Token) : Token := if x.squash.isSome then nullTok else v
    (((x.dropReq idx).deliver (s.clk + 1) idx t0 (n v0)).deliver (s.clk + 1) idx t1 (n v1)).complete (s.clk + 1)

/-- R228, R231: the kind of buffer entry that a request makes. -/
def bufKindOf : ReqKind → BufKind
  | .storeRel p => .rel p
  | .storeNc => .nc
  | .cwb => .cwb
  | .cinv => .cinv
  | _ => .store

/-- R232: the result word of `probe` for an address, by a walk where the TLBs miss; a poisoned table entry is reported as not
valid. (DESIGN CHOICE, log entry 55.) -/
def State.probeWord (s : State) (c sl : Nat) (va : Nat) : Nat :=
  let w := s.accessor c sl
  let top := va / 2 ^ 48
  if 2 ^ 56 ≤ va then 0
  else if top = 0xf0 ∧ 2 ^ 26 ≤ va % 2 ^ 48 then 0
  else if top = 0xf0 ∨ top = 0xf1 then
    2 ^ 54 + (match vaKind s c w.asp w.group va with | .sp _ _ => 1 | _ => 0)
  else
    let leaf : Except Nat DWord :=
      match tlbFind (s.core c).tlb w.asp (va / 2 ^ 16) with
      | some e => .ok e.leaf
      | none => match tlbFind (s.die (dieOf c)).tlb w.asp (va / 2 ^ 16) with
      | some e => .ok e.leaf
      | none => match s.walk w.group.root va with
        | .found l _ => .ok l
        | .bad why _ => .error (why + 1)
        | .poison _ => .error 1
    match leaf with
    | .error why => why * 2
    | .ok l =>
      let pa := paUnder l va
      let home := (homeOf s pa).getD 15
      let f (i : Nat) : Nat := if leafBit l i then 1 else 0
      let inL2 := if memTypeOf l = .nonCoherent then (s.die (dieOf c)).nc.any (fun e => e.1 / 128 == pa / 128)
        else (s.die (dieOf c)).l2.contains (pa / 128)
      (if inL2 then 2 ^ 53 else 0)
        + (if ((s.core (s.l1Core c (pa / 128))).l1.contains (pa / 128)) then 2 ^ 52 else 0)
        + pa / 2 ^ 16 * 2 ^ 16 + home * 2 ^ 12 + leafMt l * 2 ^ 10
        + (f 8 * 16 + f 7 * 8 + f 6 * 4 + f 5 * 2 + f 4) * 2 ^ 5 + leafSz l * 2 ^ 3 + 1

/-- The region of a thread that has one open. -/
def State.openRegion (s : State) (c sl : Nat) : Option (Nat × Region) :=
  match (s.thread c sl).region with
  | some k => match Tbl.find? (s.core c).regions k with
    | some r => if r.opened then some (k, r) else none
    | none => none
  | none => none

/-- R338, R341, R349: a limit of a region's resources is passed: an abort, or in serialised mode a fault. -/
def State.regionOverflow (s : State) (c sl idx : Nat) : State :=
  match s.openRegion c sl with
  | some (_, r) =>
    s.modInst c sl fun x => if r.ser then (x.addFault ⟨.regionCapacity, idx, 0, s.regionDetail c sl 3⟩).abortWith s.clk idx 7 0
      else x.abortWith s.clk idx 3 0
  | none => s

/-- R348: the lines of a serialised region's access that it has not locked yet, ascending. -/
def State.unlocked (s : State) (c k : Nat) (gs : List Seg) : List Nat :=
  (segLines gs).filter fun l => !s.locks.contains (l, c, k)

/-- R341: the entries that a region holds with those of the instance at work, and the lines that they write. -/
def State.regionWrites (s : State) (c sl : Nat) (r : Region) : Nat × List Nat :=
  let own := (s.thread c sl).buf.filter fun e => !e.committed
  (r.stores.length + own.length,
   own.foldl (fun acc e => (segLines e.segs).foldl (fun a l => insertNat l a) acc) r.writeLines)

/-- R235, R241: a buffered event takes its place among those of its instance, in ascending instruction index. -/
def insertBuf (e : BufEntry) : List BufEntry → List BufEntry
  | [] => [e]
  | f :: t => if f.committed || decide (f.idx ≤ e.idx) then f :: insertBuf e t else e :: f :: t

/-- R228: the entry that a buffered instruction makes. -/
def Req.entry (r : Req) : BufEntry :=
  { idx := r.idx, kind := bufKindOf r.kind, va := r.va, segs := r.segs, mt := r.mt, data := natToBytes r.bytes r.data.toNat,
    tag := r.tag, committed := false, sent := false, done := 0, reads := [], carried := false, epoch := 0, seen := false,
    sentAt := 0 }

/-- R241, R341: a buffered instruction that has passed enters the thread's buffer; in a region the limits of R334 apply. -/
def State.enterBuffer (s : State) (c sl : Nat) (r : Req) : State :=
  let s1 := s.modThread c sl fun t => { t with buf := insertBuf r.entry t.buf }
  match s.openRegion c sl with
  | some (_, g) =>
    let w := s1.regionWrites c sl g
    (if w.1 ≤ 32 ∧ w.2.length ≤ 16 then s1 else s.regionOverflow c sl r.idx).finishReq c sl r.idx r.t1 r.t0 doneTok doneTok
  | none => s1.finishReq c sl r.idx r.t1 r.t0 doneTok doneTok

/-- The block of a thread in flight. -/
def State.blockOf (s : State) (c sl : Nat) : Block :=
  match (s.thread c sl).inst with
  | some x => ((s.core c).context x.ctx).block
  | none => Context.reset.block

/-- R21: the clk in which the data of a read that passes its checks now may be there at the earliest: in the clk after it the tokens
arrive. (DESIGN CHOICE, log entry 4.) -/
def State.dataAt (s : State) (c : Nat) (home : Bool) (gs : List Seg) : Nat := s.clk + (s.readLatency c home gs - 1)

/-- R217, R229: a prefetch is performed: the line of a coherent address that would not fault, by the row of `ld`, comes into the caches
once its home has granted it; a line for which it would have to wait is not fetched. (DESIGN CHOICE, log entry 55.) -/
def State.prefetchLine (s : State) (c sl : Nat) (l2 : Bool) (va : Nat) : State :=
  let w : Accessor := { s.accessor c sl with region := false }
  let s1 := s.walked w va 1
  match s.judgeWalk w .load va 1 with
  | .ok gs .coherent =>
    if s1.lineHeld gs c none then s1
    else
      let ob := s1.obtain c gs false
      if ob.2 then ob.1.cacheLines c (!l2) gs else ob.1
  | _ => s1

/-- R221, R238: a request has passed its checks; what its instruction does then. -/
def State.passRequest (s : State) (c sl : Nat) (r : Req) : State :=
  let s1 := s.judgedAt c sl r.idx
  match r.kind with
  | .load | .lds | .loadAcq _ | .loadNc | .record =>
    s1.modInst c sl fun x => x.setReq { r with stage := .ready, due := s.dataAt c (r.kind == .loadNc) r.segs }
  | .deferred slot wide =>
    let s2 := s1.modThread c sl fun t =>
      { t with deferred := t.deferred ++
          [{ idx := r.idx, blk := match t.inst with | some x => x.blk | none => 0, slot := slot, wide := wide, va := r.va,
             bytes := r.bytes, segs := r.segs, mt := r.mt, committed := false, returned := none, got := [], epoch := t.epoch,
             fenced := false, due := s.dataAt c false r.segs, after := t.deferredBefore (s.blockOf c sl) r.idx }] }
    s2.finishReq c sl r.idx r.t1 .none doneTok nullTok
  | .prefetch l2 => (s1.prefetchLine c sl l2 r.va.toNat).finishReq c sl r.idx r.t1 .none doneTok nullTok
  | .store | .storeRel _ | .storeNc | .cwb | .cinv =>
    let waits := match s.openRegion c sl with
      | some (k, g) => g.ser && !(s.unlocked c k r.segs).isEmpty
      | none => false
    if waits then s1.modInst c sl fun x => x.setReq { r with stage := .ready, due := s.dataAt c true r.segs } else s1.enterBuffer c sl r
  | .probe => s1.finishReq c sl r.idx r.t1 r.t0 doneTok (dword (s.probeWord c sl r.va.toNat))
  | .atomic _ _ _ | .descriptor | .frame => s1.modInst c sl fun x => x.setReq { r with stage := .ready }

/-- Does the instruction of a request still stand unfired while its address is judged (R238)? -/
def ReqKind.beforeFire : ReqKind → Bool
  | .atomic _ _ _ | .descriptor | .frame => true
  | _ => false

/-- R221: judge a request as far as the core's TLB goes: it passes, waits for a walk, or fails. -/
def State.judgeReq (s : State) (c sl idx : Nat) : State :=
  match (s.thread c sl).inst with
  | none => s
  | some x =>
    match x.req? idx with
    | none => s
    | some r =>
      if r.stage = .queued then s
      else if let .prefetch _ := r.kind then s.passRequest c sl r
      else if r.kind = .probe then
        (let known := decide (2 ^ 56 ≤ r.va.toNat) || r.va.toNat / 2 ^ 48 == 0xf0 || r.va.toNat / 2 ^ 48 == 0xf1
            || (tlbFind (s.core c).tlb (s.aspOf c sl) (r.va.toNat / 2 ^ 16)).isSome
         if known || r.stage == .ready then s.passRequest c sl r
         else s.modInst c sl fun y => y.setReq { r with stage := .walking, due := s.clk + 24 })
      else
        match s.judge (s.accessor c sl) r.row r.va.toNat r.bytes r.segs r.mt with
        | .ok gs mt => s.passRequest c sl { r with segs := gs, mt := mt, stage := .ready }
        | .miss _ gs mt =>
          -- R217: the entry of the die's TLB comes 24 clk later
          s.modInst c sl fun y => y.setReq { r with segs := gs, mt := mt, stage := .walking, due := s.clk + 24 }
        | .bad cause va why lvl =>
          let f : ThreadFault := if cause = .regionFault then ⟨cause, idx, 0, s.regionDetail c sl 5⟩
            else ⟨cause, idx, if r.kind = .record then r.va else BitVec.ofNat 64 va, memDetail idx r.row.kind lvl why⟩
          s.failRequest c sl idx f r.t1 r.t0 (!r.kind.beforeFire)

/-- The page that a waiting request needs next. -/
def Req.needs (r : Req) : Nat := (r.va.toNat + segLen r.segs) / 2 ^ 16

/-! The instructions -/

/-- A fresh request of the firing. -/
def newReq (idx : Nat) (kind : ReqKind) (va bytes : Nat) (data : Token) (t1 t0 : Target) : Req :=
  ⟨idx, kind, BitVec.ofNat 64 va, bytes, .walking, [], .coherent, 0, data.data, data.tag, t0, t1, [], 0⟩

/-- R119: the requests that the four memory ports of a core have taken in a clk. (DESIGN CHOICE, log entry 4.) -/
def Core.memTaken (x : Core) (now : Nat) : Nat := if x.memAt = now then x.memUsed else 0

/-- R119: a memory port of a core takes a request. -/
def Core.takeMem (x : Core) (now : Nat) : Core := { x with memAt := now, memUsed := x.memTaken now + 1 }

/-- R119: is a memory port of a core free for a firing, behind the requests that wait already? -/
def Core.memFree (x : Core) (now : Nat) : Bool := x.memQ.isEmpty && decide (x.memTaken now < 4)

/-- R411: the read of a request that fires is judged by the watchpoints as they stand. -/
def State.readWatch (s : State) (c sl : Nat) (r : Req) : Option ThreadFault :=
  match r.kind with
  | .load | .lds | .loadAcq _ | .loadNc | .deferred _ _ => s.watchOf c sl r.idx false r.va.toNat r.bytes
  | _ => none

/-- R119: the request of a firing goes to a memory port, or waits at its PE until one is free. -/
def State.sendReq (s : State) (c sl : Nat) (r : Req) : State :=
  let put (stage : ReqStage) (s : State) : State :=
    s.modInst c sl fun x => ({ x with reqs := x.reqs ++ [{ r with stage := stage }] }).addWatch (s.readWatch c sl r)
  if (s.core c).memFree s.clk then ((put .walking s).modCore c fun x => x.takeMem s.clk).judgeReq c sl r.idx
  else (put .queued s).modCore c fun x => { x with memQ := x.memQ ++ [(sl, r.idx)] }

/-- R119, R129, R225, R411: the firing of a memory instruction: a null address (or null store data) performs nothing; otherwise the
request is made and judged. A tagged address pins its input (R339). (DEDUCED, log entry 33.) -/
def State.memOp (s : State) (kind : ReqKind) (bytes : Nat) (data : Option Token) (t1 t0 : Target) : State :=
  let a := s.opTok .a
  let c := s.cur.core
  let sl := s.cur.slot
  let idx := s.cur.idx
  let nullData := match data with | some d => d.null | none => false
  let dataTok := data.getD nullTok
  if s.squashed || a.null || nullData then ((s.pin [a, dataTok]).emit 1 1 t1 t0 nullTok nullTok).judgedAt c sl idx
  else
    let aligned := a.tag.isNone
    -- a store of tagged data keeps the record when its address is concrete and its size is at most b64 (R339, R341)
    let keepTag := aligned && bytes ≤ 8
    let s1 := s.pin (if keepTag then [a] else [a, dataTok])
    let r := newReq idx kind a.lo bytes (if keepTag then dataTok else { dataTok with tag := none }) t1 t0
    (s1.fireWith 1 id).sendReq c sl r

/-- `ld` (R226). -/
def execLd (z : Size) (t1 t0 : Target) (s : State) : Res := .next (s.memOp .load (sizeBytes z) none t1 t0)

/-- `lds` (R226): as `ld`, without a place in the L1. -/
def execLds (z : Size) (t1 t0 : Target) (s : State) : Res := .next (s.memOp .lds (sizeBytes z) none t1 t0)

/-- `ld.acq` (R226). -/
def execLdAcq (z : Size) (p : Scope) (t1 t0 : Target) (s : State) : Res :=
  .next (s.memOp (.loadAcq p) (sizeBytes z) none t1 t0)

/-- `ldd` (R227): the destination is its live-out target T0; T1 is emitted when the request is issued. -/
def execLdd (z : Size) (t1 t0 : Target) (s : State) : Res :=
  let dst : Nat × Bool := match t0 with
    | .live n => (n.toNat, false)
    | .pairLive n => (n.toNat, true)
    | _ => (0, false)
  .next (s.memOp (.deferred dst.1 dst.2) (sizeBytes z) none t1 .none)

/-- `ldnc` (R226). -/
def execLdnc (z : Size) (t1 t0 : Target) (s : State) : Res := .next (s.memOp .loadNc (sizeBytes z) none t1 t0)

/-- `st` (R228). -/
def execSt (z : Size) (t1 : Target) (s : State) : Res := .next (s.memOp .store (sizeBytes z) (some (s.opTok .c)) t1 .none)

/-- `st.rel` (R228). -/
def execStRel (z : Size) (p : Scope) (t1 : Target) (s : State) : Res :=
  .next (s.memOp (.storeRel p) (sizeBytes z) (some (s.opTok .c)) t1 .none)

/-- `stnc` (R228). -/
def execStnc (z : Size) (t1 : Target) (s : State) : Res :=
  .next (s.memOp .storeNc (sizeBytes z) (some (s.opTok .c)) t1 .none)

/-- `prefetch` (R229): the line of a coherent address that would not fault comes into the caches; it never faults. -/
def execPrefetch (l2 : Bool) (t1 : Target) (s : State) : Res := .next (s.memOp (.prefetch l2) 1 none t1 .none)

/-- R236, R252, R254: does a fence of a kind and scope complete for a thread now? One that acquires at device or system scope waits
also for the entries whose bytes a read of the thread has taken. (DESIGN CHOICE, log entry 12.)
(DEDUCED, log entry 44.) -/
def Thread.fenceMet (t : Thread) (k : FenceKind) (p : Scope) : Bool :=
  match k with
  | .acq => (t.deferred.all fun d => !d.committed) && ((p != .device && p != .system) || t.buf.all fun e => !(e.committed && e.seen))
  | _ => t.releaseMet

/-- `fence` (R230, R252): its token leaves at the completion point, which `State.ready` awaits. -/
def execFence (_k : FenceKind) (_p : Scope) (t1 : Target) (s : State) : Res :=
  .next (s.emit 1 1 t1 .none doneTok nullTok)

/-- `fence.eng` (R230, R258): its token leaves at the completion point, which `State.ready` awaits; what was written before is what the
thread's later engine commands see. -/
def execFenceEng (t1 : Target) (s : State) : Res :=
  let s1 := if s.squashed then s else s.modThread s.cur.core s.cur.slot fun t => { t with engFence := s.clk }
  .next (s1.emit 1 1 t1 .none doneTok nullTok)

/-- R231: the 128-byte line that a cache operation acts on. -/
def State.lineOp (s : State) (kind : ReqKind) (t1 : Target) : State := s.memOp kind 1 none t1 .none

/-- `cinv` (R231). -/
def execCinv (t1 : Target) (s : State) : Res := .next (s.lineOp .cinv t1)

/-- `cwb` (R231). -/
def execCwb (t1 : Target) (s : State) : Res := .next (s.lineOp .cwb t1)

/-- `probe` (R232). -/
def execProbe (t1 t0 : Target) (s : State) : Res := .next (s.memOp .probe 1 none t1 t0)

end Sys2Proof.Machine
end

