-- ==== Sys2Proof/Machine/Atomics.lean ====
section
/-! DEFINITION. Atomics, opcodes 0xa0-0xbf (R264-R272): the operation that a tile performs, and the two moments of an
atomic in its instance, the check of its address before the check point and the request once R238 lets it fire. -/

namespace Sys2Proof.Machine

/-- The signed reading of the low bits of a number. -/
def signedOf (bytes x : Nat) : Int := sextNat (8 * bytes) x

/-- R269: the format of a float atomic of a size. -/
def atomicFmt (bytes : Nat) : FFmt := if bytes = 8 then fmtF64 else fmtF32

/-- R269: a sum rounded to nearest even, without flushing. (DEDUCED, log entry 51.) -/
def roundSum (f : FFmt) (x y : Nat) : Nat := f.round .rne (sumNum .rne [f.value x, f.value y])

/-- R269: new value, whether it is written, and the predicate, from the old value and the operands b and c. -/
def atomicEval (op : AtomicOp) (bytes old b c : Nat) : Nat × Bool × Bool :=
  let n := 2 ^ (8 * bytes)
  let b := b % n
  let c := c % n
  match op with
  | .add => ((old + c) % n, true, false)
  | .minS => (if signedOf bytes c < signedOf bytes old then c else old, true, false)
  | .maxS => (if signedOf bytes old < signedOf bytes c then c else old, true, false)
  | .minN => (min old c, true, false)
  | .maxN => (max old c, true, false)
  | .and => (old &&& c, true, false)
  | .or => (old ||| c, true, false)
  | .xor => (old ^^^ c, true, false)
  | .xchg => (c, true, false)
  | .cas => (c, old == b, old == b)
  | .inc => (if c ≤ old then 0 else old + 1, true, false)
  | .dec => (if old = 0 ∨ c < old then c else old - 1, true, false)
  | .addb => ((old + c) % n, decide (old + c ≤ b), decide (old + c ≤ b))
  | .fadd => (roundSum (atomicFmt bytes) old c, true, false)
  | .fadd2 =>
    (roundSum fmtBf16 (old % 2 ^ 16) (c % 2 ^ 16) + 2 ^ 16 * roundSum fmtBf16 (old / 2 ^ 16 % 2 ^ 16) (c / 2 ^ 16), true,
      false)
  | .fmin => (minmaxBits (atomicFmt bytes) false old c, true, false)
  | .fmax => (minmaxBits (atomicFmt bytes) true old c, true, false)

/-- R264: the die and the tile that performs an atomic of a core at a place. Tiles 0-8191 are the scratchpad banks of the
die's cores, 8192-8223 its L2 slices, 8224 the way to a peer, 8225 the way to a host's completer. -/
def tileOf (s : State) (c : Nat) (mt : MemType) (loc : Nat) : Nat × Nat :=
  if isSp loc then
    let oc := (loc - 2 ^ 52) / 2 ^ 18
    (dieOf oc, oc % Config.coresPerDie * 32 + (loc / 8) % 32)
  else if mt = .nonCoherent then (dieOf c, 8225)
  else
    let slice := 8192 + (loc / 2 ^ 7 % 32 ^^^ loc / 2 ^ 12 % 32)
    match paKind s loc with
    | .peer _ => (dieOf c, 8224)
    | _ => ((homeOf s loc).getD (dieOf c), slice)

/-- An immediate-effect instruction has been performed, or has completed with a null address (R238). -/
def Inst.perform (x : Inst) (idx : Nat) : Inst := { x with performed := insertNat idx x.performed }

/-- R267: is port b data of the operation (a compare value or a bound)? -/
def AtomicOp.bIsData : AtomicOp → Bool
  | .cas | .addb => true
  | _ => false

/-- R13, R265: an atomic takes its place in the queues of its die: behind those that came before, and among those of one clk in
ascending core. -/
def insertAtomic (q : AtomicReq) : List AtomicReq → List AtomicReq
  | [] => [q]
  | p :: t => if p.came = q.came ∧ q.core < p.core then q :: p :: t else p :: insertAtomic q t

/-- R264: the clk from the firing of an atomic of a core to T0 at its tile, as the caches stand; a host's and a peer's completer have
no figure. (DESIGN CHOICE, log entry 4.) -/
def State.atomicLatency (s : State) (c : Nat) (r : Req) : Nat :=
  match r.segs with
  | [] => 0
  | g :: _ =>
    if isSp g.loc then (let oc := (g.loc - 2 ^ 52) / 2 ^ 18; if oc = c then 8 else 26)
    else if r.mt = .nonCoherent then 0
    else
      let away := match homeOf s g.loc with | some h => h != dieOf c | none => false
      let base := if away then 184 + s.detour (dieOf c) (g.loc / 128) else 114
      let hit := (s.die (tileOf s c r.mt g.loc).1).l2.contains (g.loc / 128)
      match paKind s g.loc with
      | .peer _ => 0
      | .hbm => if hit then base else base + 420
      | .tier2 => if hit then base else base + 1200
      | _ => base

/-- R256: does an engine own a line of some runs? -/
def State.lineOwned (s : State) (gs : List Seg) : Bool := (segLines gs).any fun l => s.owned.any fun e => e.1 == l

/-- R264, R265, R268: the request of an atomic goes through a memory port to its tile, where it takes its place. -/
def State.sendAtomic (s : State) (c sl : Nat) (r : Req) : State :=
  match r.kind with
  | .atomic op _ ret =>
    let loc := match r.segs with | g :: _ => g.loc | [] => 0
    let tile := tileOf s c r.mt loc
    let q : AtomicReq :=
      { die := tile.1, tile := tile.2, core := c, slot := sl, idx := r.idx, op := op, bytes := r.bytes, segs := r.segs, mt := r.mt,
        cmp := r.cmp, data := r.data, ret := ret, came := s.clk, due := s.clk + (s.atomicLatency c r - 1),
        behind := s.lineOwned r.segs, answer := none }
    let s0 := if r.mt = .nonCoherent then s.clearNc (dieOf c) r.segs else s
    (s0.modInst c sl fun y => (y.perform r.idx).setReq { r with stage := .sent }).modDie tile.1 fun d =>
      { d with tiles := insertAtomic q d.tiles }
  | _ => s

/-- R238, R268: an atomic. Its address is judged when it arrives; when R238 lets it fire it is sent to its tile, where it
takes its place in the coherence order. (DEDUCED, log entry 43.) -/
def State.atomicOp (s : State) (op : AtomicOp) (ar : Option Scope) (ret : Bool) (z : Size) (t1 t0 : Target) : State :=
  let c := s.cur.core
  let sl := s.cur.slot
  let idx := s.cur.idx
  let a := s.opTok .a
  match s.curInst? with
  | none => s
  | some x =>
    let data := if op.bIsData then [s.opTok .b, s.opTok .c] else [s.opTok .c]
    if !x.judged.contains idx && !s.squashed then
      -- the address has arrived: translate and check it (R221)
      (if a.null then s.judgedAt c sl idx
       else (s.modInst c sl fun y =>
          { y with reqs := y.reqs ++ [newReq idx (.atomic op ar ret) a.lo (sizeBytes z) nullTok t1 t0] }).judgeReq c sl idx)
    else if s.runs (a :: data) then
      match x.req? idx with
      | none => s
      | some r =>
        let full := !(s.core c).memFree s.clk
        let r' : Req := { r with t1 := t1, t0 := t0, cmp := (s.opTok .b).data, data := (s.opTok .c).data,
                                 stage := if full then .queued else r.stage }
        let s1 := s.fireWith 1 fun y =>
          { ((y.setReq r').addWatch (s.watchOf c sl idx false r.va.toNat r.bytes)) with
            atomicWrites := y.atomicWrites ++ [(idx, r.va, r.bytes)] }
        if full then s1.modCore c fun y => { y with memQ := y.memQ ++ [(sl, idx)] }
        else (s1.modCore c fun y => y.takeMem s.clk).sendAtomic c sl r'
    else
      (s.emit 1 1 t1 t0 nullTok nullTok).modInst c sl fun y => (y.perform idx).dropReq idx

/-- `aadd` (R268, R269). -/
def execAadd (z : Size) (t1 t0 : Target) (s : State) : Res :=
  .next (s.atomicOp .add none true z t1 t0)

/-- `aadd.ar` (R268, R269). -/
def execAaddAr (z : Size) (p : Scope) (t1 t0 : Target) (s : State) : Res :=
  .next (s.atomicOp .add (some p) true z t1 t0)

/-- `amin` (R268, R269). -/
def execAmin (z : Size) (t1 t0 : Target) (s : State) : Res :=
  .next (s.atomicOp .minS none true z t1 t0)

/-- `amin.ar` (R268, R269). -/
def execAminAr (z : Size) (p : Scope) (t1 t0 : Target) (s : State) : Res :=
  .next (s.atomicOp .minS (some p) true z t1 t0)

/-- `amax` (R268, R269). -/
def execAmax (z : Size) (t1 t0 : Target) (s : State) : Res :=
  .next (s.atomicOp .maxS none true z t1 t0)

/-- `amax.ar` (R268, R269). -/
def execAmaxAr (z : Size) (p : Scope) (t1 t0 : Target) (s : State) : Res :=
  .next (s.atomicOp .maxS (some p) true z t1 t0)

/-- `aminn` (R268, R269). -/
def execAminn (z : Size) (t1 t0 : Target) (s : State) : Res :=
  .next (s.atomicOp .minN none true z t1 t0)

/-- `amaxn` (R268, R269). -/
def execAmaxn (z : Size) (t1 t0 : Target) (s : State) : Res :=
  .next (s.atomicOp .maxN none true z t1 t0)

/-- `aand` (R268, R269). -/
def execAand (z : Size) (t1 t0 : Target) (s : State) : Res :=
  .next (s.atomicOp .and none true z t1 t0)

/-- `aand.ar` (R268, R269). -/
def execAandAr (z : Size) (p : Scope) (t1 t0 : Target) (s : State) : Res :=
  .next (s.atomicOp .and (some p) true z t1 t0)

/-- `aor` (R268, R269). -/
def execAor (z : Size) (t1 t0 : Target) (s : State) : Res :=
  .next (s.atomicOp .or none true z t1 t0)

/-- `aor.ar` (R268, R269). -/
def execAorAr (z : Size) (p : Scope) (t1 t0 : Target) (s : State) : Res :=
  .next (s.atomicOp .or (some p) true z t1 t0)

/-- `axor` (R268, R269). -/
def execAxor (z : Size) (t1 t0 : Target) (s : State) : Res :=
  .next (s.atomicOp .xor none true z t1 t0)

/-- `axor.ar` (R268, R269). -/
def execAxorAr (z : Size) (p : Scope) (t1 t0 : Target) (s : State) : Res :=
  .next (s.atomicOp .xor (some p) true z t1 t0)

/-- `axchg` (R268, R269). -/
def execAxchg (z : Size) (t1 t0 : Target) (s : State) : Res :=
  .next (s.atomicOp .xchg none true z t1 t0)

/-- `axchg.ar` (R268, R269). -/
def execAxchgAr (z : Size) (p : Scope) (t1 t0 : Target) (s : State) : Res :=
  .next (s.atomicOp .xchg (some p) true z t1 t0)

/-- `acas` (R268, R269). -/
def execAcas (z : Size) (t1 t0 : Target) (s : State) : Res :=
  .next (s.atomicOp .cas none true z t1 t0)

/-- `acas.ar` (R268, R269). -/
def execAcasAr (z : Size) (p : Scope) (t1 t0 : Target) (s : State) : Res :=
  .next (s.atomicOp .cas (some p) true z t1 t0)

/-- `ainc` (R268, R269). -/
def execAinc (z : Size) (t1 t0 : Target) (s : State) : Res :=
  .next (s.atomicOp .inc none true z t1 t0)

/-- `adec` (R268, R269). -/
def execAdec (z : Size) (t1 t0 : Target) (s : State) : Res :=
  .next (s.atomicOp .dec none true z t1 t0)

/-- `aaddb` (R268, R269). -/
def execAaddb (z : Size) (t1 t0 : Target) (s : State) : Res :=
  .next (s.atomicOp .addb none true z t1 t0)

/-- `aaddb.ar` (R268, R269). -/
def execAaddbAr (z : Size) (p : Scope) (t1 t0 : Target) (s : State) : Res :=
  .next (s.atomicOp .addb (some p) true z t1 t0)

/-- `afadd` (R268, R269). -/
def execAfadd (z : Size) (t1 t0 : Target) (s : State) : Res :=
  .next (s.atomicOp .fadd none true z t1 t0)

/-- `afadd2` (R268, R269). -/
def execAfadd2 (z : Size) (t1 t0 : Target) (s : State) : Res :=
  .next (s.atomicOp .fadd2 none true z t1 t0)

/-- `afmin` (R268, R269). -/
def execAfmin (z : Size) (t1 t0 : Target) (s : State) : Res :=
  .next (s.atomicOp .fmin none true z t1 t0)

/-- `afmax` (R268, R269). -/
def execAfmax (z : Size) (t1 t0 : Target) (s : State) : Res :=
  .next (s.atomicOp .fmax none true z t1 t0)

/-- `ared.add` (R268, R269). -/
def execAredAdd (z : Size) (t1 : Target) (s : State) : Res :=
  .next (s.atomicOp .add none false z t1 .none)

/-- `ared.fadd` (R268, R269). -/
def execAredFadd (z : Size) (t1 : Target) (s : State) : Res :=
  .next (s.atomicOp .fadd none false z t1 .none)

/-- `ared.min` (R268, R269). -/
def execAredMin (z : Size) (t1 : Target) (s : State) : Res :=
  .next (s.atomicOp .minS none false z t1 .none)

/-- `ared.max` (R268, R269). -/
def execAredMax (z : Size) (t1 : Target) (s : State) : Res :=
  .next (s.atomicOp .maxS none false z t1 .none)

/-- `ared.or` (R268, R269). -/
def execAredOr (z : Size) (t1 : Target) (s : State) : Res :=
  .next (s.atomicOp .or none false z t1 .none)

/-- `ared.and` (R268, R269). -/
def execAredAnd (z : Size) (t1 : Target) (s : State) : Res :=
  .next (s.atomicOp .and none false z t1 .none)

end Sys2Proof.Machine
end

