-- ==== Sys2Proof/Machine/Control.lean ====
section
/-! DEFINITION. The control-transfer instructions, opcodes 0x10-0x19 (R112-R116). The terminator decides when it fires; the
decision takes effect at the commit (Sys2Proof/Machine/Commit.lean). -/

namespace Sys2Proof.Machine

/-- R346, R351: does a decision raise a fault, which in a region is a cause of abort? -/
def Term.faults : Term → Bool
  | .fault _ | .trap _ _ => true
  | _ => false

/-- R113, R131, R133: a terminator fires and completes with its decision; that of a squashed instance decides nothing. -/
def State.settle (s : State) (ops : List Token) (t : Term) : State :=
  let sq := s.squashed
  let now := s.clk
  let idx := s.cur.idx
  (s.pin ops).fireWith 1 fun x =>
    let y := { x with term := if sq then .undecided else t }.complete now
    if !sq && t.faults && x.region.isSome then y.abortWith now idx 7 0 else y

/-- The block of the firing. -/
def State.curBlk (s : State) : VAddr := match s.curInst? with | some x => x.blk | none => 0
/-- R51: the continuation of the block of the firing. -/
def State.curFt (s : State) : VAddr := match s.curInst? with | some x => x.ft | none => 0

/-- R115: null at a branch. -/
def nullAt (idx : Nat) : Term := .fault ⟨.nullBranch, idx, 0, 0⟩

/-- R113: go to an address that passes `check_target`, or fault with it. -/
def checkedGoto (idx x : Nat) (link : Option VAddr) : Term :=
  if targetOk x then .goto (BitVec.ofNat 56 x) link
  else .fault ⟨.permission, idx, BitVec.ofNat 64 x, memDetail idx 3 0 4⟩

/-- R113: a decision on the predicate on port a. -/
def State.onPred (s : State) (ifTrue ifFalse : Term) : State :=
  let a := s.opTok .a
  s.settle [a] (if a.null then nullAt s.cur.idx else if a.pred then ifTrue else ifFalse)

/-- R113: a decision on the address on port a. -/
def State.onAddress (s : State) (link : Option VAddr) : State :=
  let a := s.opTok .a
  s.settle [a] (if a.null then nullAt s.cur.idx else checkedGoto s.cur.idx a.lo link)

/-- `br` (R113). -/
def execBr (off : BitVec 24) (s : State) : Res := .next (s.settle [] (.goto (target24 s.curBlk off) none))

/-- `brc` (R113). -/
def execBrc (off : BitVec 24) (s : State) : Res :=
  .next (s.onPred (.goto (target24 s.curBlk off) none) (.goto s.curFt none))

/-- `brcn` (R113). -/
def execBrcn (off : BitVec 24) (s : State) : Res :=
  .next (s.onPred (.goto s.curFt none) (.goto (target24 s.curBlk off) none))

/-- `brx` (R113). -/
def execBrx (s : State) : Res := .next (s.onAddress none)

/-- `call` (R113, R114). -/
def execCall (off : BitVec 24) (s : State) : Res :=
  .next (s.settle [] (.goto (target24 s.curBlk off) (some s.curFt)))

/-- `callc` (R113, R114). -/
def execCallc (off : BitVec 24) (s : State) : Res :=
  .next (s.onPred (.goto (target24 s.curBlk off) (some s.curFt)) (.goto s.curFt none))

/-- `callx` (R113, R114). -/
def execCallx (s : State) : Res := .next (s.onAddress (some s.curFt))

/-- `ret` (R113, R146): the address in l62:l63; in a region the tag of the pair is pinned (R339). -/
def execRet (s : State) : Res :=
  .next ((s.checkParity [62, 63]).settle [{ nullTok with tag := s.slotTag 62 }]
    (checkedGoto s.cur.idx (s.curThread.pairSlot 62).toNat none))

/-- `exit` (R113). -/
def execExit (s : State) : Res := .next (s.settle [] .retire)

/-- `exitc` (R113). -/
def execExitc (s : State) : Res := .next (s.onPred .retire (.goto s.curFt none))

end Sys2Proof.Machine
end

