-- ==== Sys2Proof/Machine/Barriers.lean ====
section
/-! DEFINITION. The synchronisation instructions, opcodes 0xc0-0xc7 (R273-R283). -/

namespace Sys2Proof.Machine

/-- R129, R237: an immediate-effect instruction that is performed when it fires: with a null operand (or squashed) it
performs nothing and emits null; otherwise `f` is its effect, and it emits its values in that clk. -/
def State.immediate (s : State) (t1 t0 : Target) (ops : List Token) (f : State → State) (v1 v0 : Token) : State :=
  if s.runs ops then
    ((f (s.pin ops)).emit 1 0 t1 t0 v1 v0).modInst s.cur.core s.cur.slot fun x => x.perform s.cur.idx
  else ((s.pin ops).emit 1 0 t1 t0 nullTok nullTok).modInst s.cur.core s.cur.slot fun x => x.perform s.cur.idx

/-- The number of a barrier in the group's state: 0-15 named, 16 and 17 stage, 18 the rope. -/
def barNum : BarRef → Nat
  | .named n => n.toNat
  | .stage n => 16 + n.toNat
  | .rope => ropeBit

/-- R274, R280: one arrival of the firing's thread. -/
def State.arriveAt (s : State) (b : BarRef) (drop : Bool) : State :=
  match b with
  | .rope => s.arriveRope s.cur.core s.cur.slot
  | _ => s.arriveBar s.cur.core s.cur.slot (barNum b) drop

/-- `bar.arrive` (R282). -/
def execBarArrive (b : BarRef) (t1 : Target) (s : State) : Res :=
  .next (s.immediate t1 .none [s.opTok .a] (fun s => s.arriveAt b false) doneTok nullTok)

/-- `bar.drop` (R282). -/
def execBarDrop (b : BarRef) (t1 : Target) (s : State) : Res :=
  .next (s.immediate t1 .none [s.opTok .a] (fun s => s.arriveAt b true) doneTok nullTok)

/-- R282: does `bar.init` apply to a count, and a barrier's CNT and BRK? -/
def initApplies (k cnt : Nat) (brk : Bool) : Bool := decide (1 ≤ k) && decide (k ≤ 1024) && (cnt == 0 || brk)

/-- R282, R358: is `bar.init` of the firing applied with a count? Those of a carrier group never are. -/
def State.barInitOk (s : State) (b : BarRef) (k : Nat) : Bool :=
  let g := s.groupOf s.cur.core s.cur.slot
  !g.carrier && match b with
  | .rope => initApplies k g.ropeCnt (s.ropeBar g.grid (g.lin / (s.grid g.grid).launch.ropeG)).brk
  | _ => initApplies k (g.bar (barNum b)).cnt (g.bar (barNum b)).brk.isSome

/-- R280: a group of a rope runs `bar.init rope`; BRK clears once every group that has not retired has run it. -/
def State.initRope (s : State) (c g k : Nat) : State :=
  let gr := s.group c g
  let gd := s.grid gr.grid
  let rope := gr.lin / gd.launch.ropeG
  let b := s.ropeBar gr.grid rope
  let inited := insertNat (gr.lin % gd.launch.ropeG) b.inited
  let every := (List.range gd.launch.ropeG).all fun r => inited.contains r || b.retired.contains r
  let b' := if b.brk && every then { b with brk := false, inited := [] }
    else if b.brk then { b with inited := inited } else b
  ((s.modGroup c g fun x => { x with ropeExp := k, ropeCnt := 0, ropeDrop := 0 }).modGrid gr.grid fun x =>
    { x with ropes := Tbl.set x.ropes rope b' }).clearArrivals c g ropeBit

/-- R282: the effect of `bar.init` that is applied. -/
def State.applyBarInit (s : State) (b : BarRef) (k : Nat) : State :=
  let c := s.cur.core
  let g := (s.thread c s.cur.slot).group
  match b with
  | .rope => s.initRope c g k
  | _ =>
    (s.modGroup c g fun x => x.modBar (barNum b) fun y =>
      { y with exp := k, cnt := 0, drop := 0, bytes := 0, brk := none }).clearArrivals c g (barNum b)

/-- `bar.init` (R282). -/
def execBarInit (b : BarRef) (t1 t0 : Target) (s : State) : Res :=
  let k := (s.opTok .a).nat % 2 ^ 32
  let ok := s.barInitOk b k
  .next (s.immediate t1 t0 [s.opTok .a] (fun s => if ok then s.applyBarInit b k else s) doneTok (predTok ok))

/-- R277, R279: the expected bytes of a stage barrier change, with an arrival in the same clk where A is set; a broken
barrier changes nothing. -/
def State.expectBytes (s : State) (c sl b : Nat) (delta : Int) (arr : Bool) : State :=
  let g := (s.thread c sl).group
  if ((s.group c g).bar b).brk.isSome then s
  else
    let s1 := s.modGroup c g fun x => x.modBar b fun y => { y with bytes := y.bytes + delta }
    if arr then s1.arriveBar c sl b false else s1

/-- `stg.expect` (R282). -/
def execStgExpect (arr stg : Bool) (t1 : Target) (s : State) : Res :=
  let delta : Int := sextNat 32 ((s.opTok .a).nat % 2 ^ 32)
  .next (s.immediate t1 .none [s.opTok .a]
    (fun s => s.expectBytes s.cur.core s.cur.slot (if stg then 17 else 16) delta arr) doneTok nullTok)

/-- `bar.wait` (R283). -/
def execBarWait (num : BitVec 4) (off : BitVec 20) (s : State) : Res :=
  .next (s.settle [] (.barrier num.toNat (target20 s.curBlk off)))

/-- `stg.wait` (R283). -/
def execStgWait (num : BitVec 4) (off : BitVec 20) (s : State) : Res :=
  .next (s.settle [] (.barrier (16 + num.toNat) (target20 s.curBlk off)))

/-- `waitp` (R281, R283). -/
def execWaitp (num : BitVec 4) (off : BitVec 20) (s : State) : Res :=
  let a := s.opTok .a
  .next (s.settle [a] (if a.null then nullAt s.cur.idx
    else .waitp num.toNat (target20 s.curBlk off) (a.data.setWidth 32)))

/-- `rope.wait` (R283). -/
def execRopeWait (off : BitVec 20) (s : State) : Res := .next (s.settle [] (.rope (target20 s.curBlk off)))

end Sys2Proof.Machine
end

