-- ==== Sys2Proof/Machine/Convert.lean ====
section
/-! DEFINITION. Conversions, opcodes 0x70-0x7a (R202-R204). `cvt.ch` stands with the engines, through whose port it issues. -/

namespace Sys2Proof.Machine

/-- R203: the value of a pattern in a source format. -/
def cvtSource (src : CvtFmt) (v : Nat) : FpNum :=
  match cvtFloat src with
  | some f => f.value (v % 2 ^ f.width)
  | none => numOfInt (laneVal (cvtInt src) v 0)

/-- R203: convert an exact value to a destination: the value placed on T0 and the overflow predicate. -/
def cvtNum (dest : CvtFmt) (rm : Rnd) (x : FpNum) : Nat × Bool :=
  match cvtFloat dest with
  | some f => f.roundSat rm x
  | none =>
    let ty := cvtInt dest
    let fit (q : Int) : Nat × Bool :=
      let r := min (max q (laneLo ty)) (laneHi ty)
      (packLanes ty fun _ => r, q != r)
    match x with
    | .nan => (0, true)
    | .inf false => fit (laneHi ty + 1)
    | .inf true => fit (laneLo ty - 1)
    | .fin neg m e => fit (intOf rm neg m e)

/-- R202, R203: the result of a conversion between two formats. -/
def cvtVal (src : CvtFmt) (m : CvtMod) (v : Nat) : Nat × Bool := cvtNum m.dest m.rnd (cvtSource src v)

/-- R200: 2 clk, and 4 clk when a format is f64. -/
def cvtLat (src dest : CvtFmt) : Nat := if src = .f64 ∨ dest = .f64 then 4 else 2

/-- R202: the converted value on T0 and the overflow predicate on T1. (DEDUCED, log entry 33.) -/
def State.convert (s : State) (src : CvtFmt) (m : CvtMod) (t1 t0 : Target) : State :=
  let a := s.opTok .a
  let r := cvtVal src m a.nat
  let busy := if cvtLat src m.dest = 4 then 4 else 1
  if s.runs [a] && s.guardTrue then
    (s.pin [a, s.opTok .c]).emit busy (cvtLat src m.dest) t1 t0 (predTok r.2) (dword r.1)
  else (s.pin [a, s.opTok .c]).emit busy (cvtLat src m.dest) t1 t0 nullTok nullTok

/-- `cvt.f64` (R203). -/
def execCvtF64 (m : CvtMod) (t1 t0 : Target) (s : State) : Res := .next (s.convert .f64 m t1 t0)
/-- `cvt.f32` (R203). -/
def execCvtF32 (m : CvtMod) (t1 t0 : Target) (s : State) : Res := .next (s.convert .f32 m t1 t0)
/-- `cvt.f16` (R203). -/
def execCvtF16 (m : CvtMod) (t1 t0 : Target) (s : State) : Res := .next (s.convert .f16 m t1 t0)
/-- `cvt.bf16` (R203). -/
def execCvtBf16 (m : CvtMod) (t1 t0 : Target) (s : State) : Res := .next (s.convert .bf16 m t1 t0)
/-- `cvt.e4m3` (R203). -/
def execCvtE4m3 (m : CvtMod) (t1 t0 : Target) (s : State) : Res := .next (s.convert .e4m3 m t1 t0)
/-- `cvt.e5m2` (R203). -/
def execCvtE5m2 (m : CvtMod) (t1 t0 : Target) (s : State) : Res := .next (s.convert .e5m2 m t1 t0)
/-- `cvt.i32` (R203). -/
def execCvtI32 (m : CvtMod) (t1 t0 : Target) (s : State) : Res := .next (s.convert .i32 m t1 t0)
/-- `cvt.n32` (R203). -/
def execCvtN32 (m : CvtMod) (t1 t0 : Target) (s : State) : Res := .next (s.convert .n32 m t1 t0)
/-- `cvt.i64` (R203). -/
def execCvtI64 (m : CvtMod) (t1 t0 : Target) (s : State) : Res := .next (s.convert .i64 m t1 t0)
/-- `cvt.n64` (R203). -/
def execCvtN64 (m : CvtMod) (t1 t0 : Target) (s : State) : Res := .next (s.convert .n64 m t1 t0)

/-- R204: two f32 values converted and packed, with the flag of either lane. -/
def cvtPkVal (m : CvtMod) (a b : Nat) : Nat × Bool :=
  let x := cvtVal .f32 m a
  let y := cvtVal .f32 m b
  let w := match cvtFloat m.dest with | some f => f.width | none => 16
  (x.1 + 2 ^ w * y.1, x.2 || y.2)

/-- `cvt.pk` (R204). -/
def execCvtPk (m : CvtMod) (t1 t0 : Target) (s : State) : Res :=
  let a := s.opTok .a
  let b := s.opTok .b
  let r := cvtPkVal m a.nat b.nat
  .next (if s.runs [a, b] && s.guardTrue then
      (s.pin [a, b, s.opTok .c]).emit 1 2 t1 t0 (predTok r.2) (dword r.1)
    else (s.pin [a, b, s.opTok .c]).emit 1 2 t1 t0 nullTok nullTok)

end Sys2Proof.Machine
end

