-- ==== Sys2Proof/Machine/Regions.lean ====
section
/-! DEFINITION. The region instructions, opcodes 0xe0-0xe4 (R353, R354). The commit engine and the aborts stand in
Sys2Proof/Machine/CommitEngine.lean. -/

namespace Sys2Proof.Machine

/-- `abegin` (R353): the target is the region entry; the continuation, the abort path. -/
def execAbegin (off : BitVec 24) (s : State) : Res := .next (s.settle [] (.abegin (target24 s.curBlk off)))

/-- `acommit` (R353). -/
def execAcommit (off : BitVec 24) (s : State) : Res := .next (s.settle [] (.acommit (target24 s.curBlk off)))

/-- `aabort` (R354): marks the region for an explicit abort, unless a cause has arisen in the instance already (R346). -/
def execAabort (t1 : Target) (s : State) : Res :=
  let code : BitVec 8 := (s.opTok .a).data.setWidth 8
  .next (s.immediate t1 .none [s.opTok .a]
    (fun s => s.modInst s.cur.core s.cur.slot fun x => x.abortWith s.clk s.cur.idx 6 code)
    doneTok nullTok)

/-- R354: the status word of a thread's region state. -/
def State.astatWord (s : State) (c sl : Nat) : DWord :=
  let t := s.thread c sl
  let open_ : Nat :=
    match t.region with
    | none => 0
    | some k =>
      match Tbl.find? (s.core c).regions k with
      | none => 0
      | some r =>
        if !r.opened then 0
        else r.writeLines.length * 2 ^ 35 + r.readLines.length * 2 ^ 28 + r.blocks * 2 ^ 19 + r.inputs.length * 2 ^ 14
          + r.constraints.length * 2 ^ 8 + r.stores.length * 4 + (if r.ser then 2 else 0) + 1
  BitVec.ofNat 64 (t.abortCode.toNat * 2 ^ 52 + t.abortCause * 2 ^ 48 + t.aborts * 2 ^ 40 + open_)

/-- `astat` (R354): the status as it stood at the admission. -/
def execAstat (t1 t0 : Target) (s : State) : Res :=
  let a := s.opTok .a
  let w : DWord := match s.curInst? with | some x => x.astat | none => 0
  .next (if s.runs [a] then (s.pin [a]).emit 1 1 t1 t0 (predTok (w.getLsbD 0)) (dword w.toNat)
    else s.emit 1 1 t1 t0 nullTok nullTok)

/-- `apin` (R354): pins the input of a's tag and emits a without it. -/
def execApin (t1 t0 : Target) (s : State) : Res :=
  let a := s.opTok .a
  .next (s.immediate t1 t0 [a] id doneTok { a with tag := none })

end Sys2Proof.Machine
end

