-- ==== Sys2Proof/Machine/System.lean ====
section
/-! DEFINITION. The system instructions, opcodes 0xf0-0xf9, and the system registers (R421-R430), with the offering of a
record to a die's trace unit (R454, R457). -/

namespace Sys2Proof.Machine

/-! Trace records -/

/-- R454: are records of a type written? Gap and thermal-hold records are written whatever MASK holds (R468). -/
def Trace.takes (t : Trace) (type : Nat) : Bool :=
  t.en && (type == 1 || type == 9 || (decide (2 ≤ type) && t.mask.getLsbD (type - 2)))

/-- R457: one record is dropped: counted in DROP and in the gap that follows. -/
def Trace.dropRec (t : Trace) (r : TraceRec) : Trace :=
  { t with drop := min (2 ^ 32 - 1) (t.drop + 1), gap := t.gap + 1, gapTs := r.ts }

/-- R14, R452: does one record come before another: by its timestamp, and at equal ones by its source? -/
def TraceRec.before (x y : TraceRec) : Bool := decide (x.ts.toNat < y.ts.toNat) || (x.ts == y.ts && decide (x.src < y.src))

/-- R454, R457, R467: offer a record to a die's trace unit, which accepts one record per clk at its end. A die that is absent or dead
has none. (DEDUCED, log entry 36.) -/
def State.offer (s : State) (d : Nat) (r : TraceRec) : State :=
  let t := (s.die d).trace
  if !t.takes r.type || s.mgmt.absent.contains d || (s.die d).dead then s
  else s.modDie d fun x => { x with trace := { t with offered := t.offered ++ [r] } }

/-- R457: the unit accepts a record into its queue, its one record of the clk. -/
def State.acceptTrace (s : State) (d : Nat) (r : TraceRec) : State :=
  s.modDie d fun x => { x with trace := { x.trace with queue := x.trace.queue ++ [r], acceptAt := some s.clk } }

/-- R457: may the unit accept a record now: its queue has room, and it has accepted none in this clk? -/
def Trace.open_ (t : Trace) (clk : Nat) : Bool := decide (t.queue.length < 64) && t.acceptAt != some clk

/-- R461: the samples that the samplers of a die's cores hold, the oldest of each. -/
def State.heldSamples (s : State) (d : Nat) : List TraceRec :=
  s.cores.filterMap fun (c, x) => if dieOf c = d then x.sampler.held.head? else none

/-- R452, R457, R461: the record that a trace unit accepts next: the first by the timestamp of its offering and by its source. A
`cairn`, whose timestamp is that of its acceptance, comes after every other record of its source. (DEDUCED, log entry 36.) -/
def State.traceNext (s : State) (d : Nat) : Option TraceRec :=
  let t := (s.die d).trace
  let held := s.heldSamples d
  let ready (r : TraceRec) : Bool :=
    r.who.isNone || ((held ++ t.offered).all fun x => x.src != r.src || x.who.isSome)
  bestBy TraceRec.before (t.offered.filter ready ++ held)

/-- R429, R457: a `cairn` is performed when the trace unit accepts it: its record takes the timestamp of the acceptance, and T0 is
emitted in that clk. -/
def State.acceptCairn (s : State) (d : Nat) (r : TraceRec) (sl idx : Nat) (t0 : Target) : State :=
  (s.acceptTrace d { r with ts := s.tsc d, who := none }).modInst r.src sl fun x =>
    (((x.perform idx).deliver s.clk idx t0 (if x.squash.isSome then nullTok else doneTok)).complete s.clk)

/-- R457, R461: the unit accepts a record, out of those offered or from its sampler. -/
def State.acceptOffered (s : State) (d : Nat) (r : TraceRec) : State :=
  let s1 := s.modDie d fun x => { x with trace := { x.trace with offered := x.trace.offered.erase r } }
  match r.who with
  | some (sl, idx, t0) => s1.acceptCairn d r sl idx t0
  | none =>
    (if r.type = 8 then s.modCore r.src fun x => { x with sampler := { x.sampler with held := x.sampler.held.drop 1 } } else s1)
      |>.acceptTrace d r

/-- R457: at the end of a clk the trace unit of a die accepts one record; each of type 0x03-0x07 that finds the queue full is
dropped. -/
def State.takeOffered (s : State) (d : Nat) : State :=
  let t := (s.die d).trace
  if t.open_ s.clk then (match s.traceNext d with | some r => s.acceptOffered d r | none => s)
  else if t.queue.length < 64 then s
  else
    let lost (r : TraceRec) : Bool := decide (3 ≤ r.type) && decide (r.type ≤ 7)
    s.modDie d fun x =>
      { x with trace := { (t.offered.filter lost).foldl Trace.dropRec t with offered := t.offered.filter fun r => !lost r } }

/-- R457: the records offered in a clk. -/
def State.settleTraces (s : State) : State := (s.dies.map (·.1)).foldl (fun s d => s.takeOffered d) s

/-! System registers -/

/-- R421: the value of a system register for a thread slot. -/
def State.sysValue (s : State) (c sl idx : Nat) : DWord :=
  let t := s.thread c sl
  let g := s.groupOf c sl
  let x := s.core c
  let hg := (s.gridOf c sl).heap
  match idx with
  | 0 => BitVec.ofNat 64 c
  | 1 => BitVec.ofNat 64 (dieOf c + 8 * s.grade)
  | 2 => t.fpMode.setWidth 64
  | 3 => t.trapBase
  | 4 => t.trapCause.setWidth 64
  | 5 => BitVec.ofNat 64 (s.recordAddr c sl false)
  | 6 => match t.save with | some v => v.mask | none => 0
  | 7 => BitVec.ofNat 64 (s.threadArea c sl)
  | 8 => match t.save with
    | some v => BitVec.ofNat 64 ((if v.act then 1 else 0) + (if v.scr then 2 else 0) + (if v.all then 4 else 0))
    | none => 0
  | 9 => t.failMask
  | 10 => g.gatherDefault
  | 11 => g.gatherFill
  | 12 => g.barTimeout
  | 13 => g.regionRetry
  | 14 => g.preemptLimit
  | 15 => if x.temp.owner = some t.group then x.temp.st.mode ++ (x.temp.st.w.setWidth 32 : Word) else 0
  | 16 => BitVec.ofNat 64 (x.temp.retry.toNat * 2 ^ 16 + x.temp.margin.toNat * 2 ^ 8 + x.temp.tick.toNat)
  | 17 => match hg with | some h => h.tol | none => 0
  | 18 => match hg with | some h => BitVec.ofNat 64 (min h.resid.toNat (2 ^ 64 - 1)) | none => 0
  | 19 => match hg with | some h => BitVec.ofNat 64 h.spread | none => 0
  | 20 => match hg with | some _ => BitVec.ofNat 64 (s.die (dieOf c)).heap.under | none => 0
  | 21 => BitVec.ofNat 64 (Tbl.get 0 (s.die (dieOf c)).energy (s.aspOf c sl))
  | 22 => g.grant.setWidth 64
  | 23 => BitVec.ofNat 64 (s.recordAddr c sl true)
  | 24 => t.trapFblk
  | _ => 0

/-- R421: the registers that only privileged mode writes. -/
def sysPrivileged (idx : Nat) : Bool := idx == 3 || idx == 14

/-- R5: the bits of a value that a register keeps. -/
def keepBits (v : DWord) (hi lo : Nat) : DWord := BitVec.ofNat 64 (v.toNat / 2 ^ lo % 2 ^ (hi + 1 - lo) * 2 ^ lo)

/-- R374: a write of `heap.tol` or `heap.spread` takes effect 80 clk later; a grid without a heap changes nothing. -/
def State.writeHeapReg (s : State) (c sl : Nat) (isSpread : Bool) (v : DWord) : State :=
  s.modGrid (s.groupOf c sl).grid fun g =>
    { g with heap := g.heap.map fun h => { h with effects := h.effects ++ [(s.clk + 80, isSpread, v)] } }

/-- R103, R104, R278, R347, R421: one write of a group register takes effect. -/
def Group.writeReg (g : Group) (w : Nat × DWord) : Group :=
  match w.1 with
  | 10 => { g with gatherDefault := keepBits w.2 11 2 }
  | 11 => { g with gatherFill := keepBits w.2 10 0 }
  | 12 => { g with barTimeout := keepBits w.2 63 63 ||| keepBits w.2 31 0 }
  | 13 => { g with regionRetry := keepBits w.2 7 0 }
  | 14 => { g with preemptLimit := keepBits w.2 31 0 }
  | _ => g

/-- R422: at the end of a clk the writes of a group's registers take effect, in their order. -/
def Group.settleRegs (g : Group) : Group := { g.late.foldl Group.writeReg g with late := [] }

/-- R180, R421, R422: the effect of a write that the mode permits; a group register changes from the next clk, `fp.mode` at the commit; bits that must be zero are ignored (R5). -/
def State.sysWrite (s : State) (c sl idx : Nat) (v : DWord) : State :=
  let gn := (s.thread c sl).group
  match idx with
  | 2 => s.modInst c sl fun x => { x with fpNext := some (v.setWidth 2) }
  | 3 => s.modThread c sl fun t => { t with trapBase := keepBits v 55 10 }
  | 9 => s.modThread c sl fun t => { t with failMask := t.failMask &&& ~~~v }
  | 10 | 11 | 12 | 13 | 14 => s.modGroup c gn fun g => { g with late := g.late ++ [(idx, v)] }
  | 17 => s.writeHeapReg c sl false v
  | 19 => s.writeHeapReg c sl true (keepBits v 3 0)
  | _ => s

/-! The instructions -/

/-- `trap` (R424). -/
def execTrap (code : BitVec 15) (s : State) : Res := .next (s.settle [] (.trap .trap code))

/-- `brk` (R424). -/
def execBrk (code : BitVec 15) (s : State) : Res := .next (s.settle [] (.trap .brk code))

/-- R422, R425, R426: the permission fault of an instruction that user mode may not run. -/
def modeFault (idx : Nat) : ThreadFault := ⟨.permission, idx, 0, memDetail idx 5 0 3⟩

/-- R425: the address of the record that `eret` reads. -/
def State.activeRecord (s : State) (c sl : Nat) : Nat := s.recordAddr c sl (s.thread c sl).nestOpen

/-- `eret` (R425): in privileged mode it reads its active record; it completes when the read returns. -/
def execEret (_n : Bool) (s : State) : Res :=
  let c := s.cur.core
  let sl := s.cur.slot
  let idx := s.cur.idx
  let privileged := match s.curInst? with | some x => x.priv | none => false
  if !privileged || s.squashed then .next ((s.settle [] (.fault (modeFault idx))).judgedAt c sl idx)
  else
    .next ((s.fireWith 1 fun x =>
      { x with reqs := x.reqs ++ [newReq idx .record (s.activeRecord c sl) 16 nullTok .none .none] }).judgeReq c sl idx)

/-- `sysrd` (R427): the register as it stood at the admission; `tarr.window` is read when the instruction fires (R328). -/
def execSysrd (r : BitVec 6) (t1 t0 : Target) (s : State) : Res :=
  let now := s.sysValue s.cur.core s.cur.slot r.toNat
  let v : DWord :=
    if r.toNat = 15 then now
    else match s.curInst? with
      | some x => (Tbl.find? x.sys s.cur.idx).getD now
      | none => now
  .next (s.source 1 t1 t0 (dword v.toNat))

/-- `syswr` (R422, R427). -/
def execSyswr (r : BitVec 6) (t1 : Target) (s : State) : Res :=
  let a := s.opTok .a
  let v : DWord := a.data.setWidth 64
  let privileged := match s.curInst? with | some x => x.priv | none => false
  .next (s.immediate t1 .none [a]
    (fun s =>
      if sysPrivileged r.toNat && !privileged then
        s.modInst s.cur.core s.cur.slot fun x => x.addFault (modeFault s.cur.idx)
      else s.sysWrite s.cur.core s.cur.slot r.toNat v) doneTok nullTok)

/-- `cfginv` (R428): performed 120 clk after it fires. -/
def execCfginv (t1 : Target) (s : State) : Res :=
  let a := s.opTok .a
  let b := s.opTok .b
  if s.runs [a, b] then
    let s1 := (s.pin [a, b]).fireWith 1 id
    .next { s1 with cfginvs := s1.cfginvs ++
      [(s.cur.core, s.cur.slot, s.cur.idx, s.clk + 120, a.lo % 2 ^ 56, min b.lo (2 ^ 56))] }
  else .next ((s.emit 1 1 t1 .none nullTok nullTok).modInst s.cur.core s.cur.slot fun x => x.perform s.cur.idx)

/-- `cairn` (R429, R457): one trace record is offered; the instruction is performed when the trace unit accepts it. Where the unit
writes no such record (R454), it is performed at once. -/
def execCairn (code : BitVec 15) (t0 : Target) (s : State) : Res :=
  let a := s.opTok .a
  let c := s.cur.core
  if s.runs [a] && (s.die (dieOf c)).trace.takes 2 then
    .next (((s.pin [a]).fireWith 1 id).offer (dieOf c) ⟨s.tsc (dieOf c), c, 2, s.aspOf c s.cur.slot, code.setWidth 32,
      a.data.setWidth 64, s.curBlk.setWidth 64, some (s.cur.slot, s.cur.idx, t0)⟩)
  else .next (s.immediate .none t0 [a] id nullTok doneTok)

/-- `tsc` (R430): the timestamp of the die at the admission. -/
def execTsc (t1 t0 : Target) (s : State) : Res :=
  let v : DWord := match s.curInst? with | some x => x.tsc | none => 0
  .next (s.source 1 t1 t0 (dword v.toNat))

/-- `nop` (R430). -/
def execNop (s : State) : Res := .next ((s.pin [s.opTok .a]).emit 1 1 .none .none nullTok nullTok)

/-- `halt` (R426): in user mode a permission fault after commit. -/
def execHalt (s : State) : Res :=
  let privileged := match s.curInst? with | some x => x.priv | none => false
  .next (s.settle [] (if privileged then .halt else .fault (modeFault s.cur.idx)))

end Sys2Proof.Machine
end

