-- ==== Sys2Proof/Machine/CopyEngine.lean ====
section
/-! DEFINITION. The engine port's shared operations (R189, R206, R463) and the copy engine (R284-R299): descriptors,
acceptance, runs, write pointers, breaks. -/

namespace Sys2Proof.Machine

/-! Scratchpad addresses of engine commands -/

/-- R207: the scratchpad place of an address, by a group's allocation; WHY where it names none. -/
def spPlace (c : Nat) (g : Group) (va : Nat) : Except Nat Nat :=
  if 2 ^ 56 ≤ va then .error 4
  else
    let top := va / 2 ^ 48
    let off := va % 2 ^ 48
    if top = 0xf0 then
      (if off < 2 ^ 26 then .ok (spLoc (dieOf c * Config.coresPerDie + off / 2 ^ 18) (off % 2 ^ 18)) else .error 5)
    else if top = 0xf1 then (if off < g.spSize then .ok (spLoc c (g.spBase + off)) else .error 5)
    else .error 5

/-- The place, without the reason of a failure. -/
def spPlace? (c : Nat) (g : Group) (va : Nat) : Option Nat := (spPlace c g va).toOption

/-- R208: may an address space reach a scratchpad place? The own-core alias needs no check. -/
def spOwned (s : State) (asp va loc : Nat) : Bool :=
  va / 2 ^ 48 != 0xf0 || ownsUnit s asp ((loc - 2 ^ 52) / 2 ^ 18) ((loc - 2 ^ 52) % 2 ^ 18)

/-- R304, R332: WHY of one byte of an engine operand, if it may not be reached. -/
def spByteWhy (s : State) (c asp : Nat) (g : Group) (va : Nat) : Option Nat :=
  match spPlace c g va with
  | .error why => some why
  | .ok loc => if spOwned s asp va loc then none else some 5

/-- The first byte, of a run shorter than 1 KiB, that may not be reached, with WHY: ownership and windows change only at
multiples of 1 KiB. -/
def spRunWhy (s : State) (c asp : Nat) (g : Group) (va len : Nat) : Option (Nat × Nat) :=
  if len = 0 then none
  else
    match spByteWhy s c asp g va with
    | some why => some (va, why)
    | none =>
      let b := (va / 1024 + 1) * 1024
      if b < va + len then (spByteWhy s c asp g b).map fun why => (b, why) else none

/-! Finishing a command at the port -/

/-- R189, R237: the port has accepted (or refused) a command: it is performed, and it emits its values `lat` clk later. -/
def State.finishPort (s : State) (c : Nat) (k : EngCmd) (lat : Nat) (v1 v0 : Token) : State :=
  s.modInst c k.slot fun x =>
    let y := x.perform k.idx
    let n (v : Token) : Token := if x.squash.isSome then nullTok else v
    if lat = 0 then ((y.deliver s.clk k.idx k.t0 (n v0)).deliver s.clk k.idx k.t1 (n v1)).complete s.clk
    else { y with emits := y.emits ++ [⟨k.idx, s.clk + lat, false, true, v0, v1, k.t0, k.t1⟩] }

/-- R206: a command refused with a fault after the commit: null on its targets. -/
def State.refusePort (s : State) (c : Nat) (k : EngCmd) (cause : Cause) (detail : DWord) (v1 : Token) : State :=
  (s.modInst c k.slot fun x => x.addFault ⟨cause, k.idx, 0, detail⟩).finishPort c k 0 v1 nullTok

/-! Copy descriptors (R287, R288) -/

/-- A natural number from bytes of a list. -/
def fieldAt (bs : List Byte) (off n : Nat) : Nat := bytesToNat ((bs.drop off).take n)

/-- R287: CTL. -/
def ctlOf (bs : List Byte) : Nat := fieldAt bs 24 4

/-- R287: the descriptor's fields, an unused Y or Z read as 1, with STEP. -/
def copyDescOf (bs : List Byte) : CopyDesc :=
  let ctl := ctlOf bs
  let dim := ctl % 4
  { src := BitVec.ofNat 64 (fieldAt bs 0 8)
    dst := BitVec.ofNat 64 (fieldAt bs 8 8)
    x := fieldAt bs 16 4
    y := if dim = 1 then 1 else fieldAt bs 20 2
    z := if dim < 3 then 1 else fieldAt bs 22 2
    spy := BitVec.ofNat 64 (fieldAt bs 32 8)
    spz := BitVec.ofNat 64 (fieldAt bs 40 8)
    dpy := BitVec.ofNat 64 (fieldAt bs 48 8)
    dpz := BitVec.ofNat 64 (fieldAt bs 56 8)
    sb := if ctl / 4 % 2 = 1 then some (16 + ctl / 8 % 2) else none
    step := ctl / 2 ^ 16 }

/-- R287: the size of a tile. -/
def CopyDesc.size (d : CopyDesc) : Nat := d.x * d.y * d.z

/-- R288: the lowest code that rejects a descriptor, given whether the channel is the group's and not broken. -/
def copyReject (bs : List Byte) (coll chOk : Bool) : Option Nat :=
  let d := copyDescOf bs
  let ctl := ctlOf bs
  let top := d.dst.toNat / 2 ^ 48
  let window := top == 0xf1 || (top == 0xf0 && decide (d.dst.toNat % 2 ^ 48 < 2 ^ 26))
  if ctl % 4 = 0 || d.x = 0 || decide (2 ^ 24 < d.x) || d.y = 0 || d.z = 0 || decide (2 ^ 31 < d.size) then some 4
  else if ctl / 16 % 2 ^ 12 ≠ 0 || fieldAt bs 28 4 ≠ 0 || (!coll && d.step ≠ 0) then some 5
  else if d.sb.isSome && !window then some 6
  else if !chOk then some 7
  else none

/-! Runs (R289) -/

/-- The source and destination address of a position of a tile, in traversal order. -/
def CopyDesc.addrs (d : CopyDesc) (pos : Nat) : Nat × Nat :=
  let x := pos % d.x
  let y := pos / d.x % d.y
  let z := pos / (d.x * d.y)
  ((d.src + BitVec.ofNat 64 x + BitVec.ofNat 64 y * d.spy + BitVec.ofNat 64 z * d.spz).toNat,
   (d.dst + BitVec.ofNat 64 x + BitVec.ofNat 64 y * d.dpy + BitVec.ofNat 64 z * d.dpz).toNat)

/-- R289: the length of the run that starts at a position: one row, one aligned 256-byte range of the destination. -/
def CopyDesc.runLen (d : CopyDesc) (pos : Nat) : Nat := min (256 - (d.addrs pos).2 % 256) (d.x - pos % d.x)

/-- The runs of a tile from a position on, as position and length. -/
def CopyDesc.runs (d : CopyDesc) : Nat → Nat → List (Nat × Nat)
  | 0, _ => []
  | fuel + 1, pos => if d.size ≤ pos then [] else (pos, d.runLen pos) :: d.runs fuel (pos + d.runLen pos)

/-- R294: translate the bytes of an engine's access through the die's TLB and walkers, and check its row of R220. -/
def State.judgeEngine (s : State) (w : Accessor) (row : AccessRow) (va bytes : Nat) : Judged :=
  let look (vpn : Nat) : Option DWord :=
    match tlbFind (s.die (dieOf w.core)).tlb w.asp vpn with
    | some e => some e.leaf
    | none => match s.walk w.group.root (vpn * 2 ^ 16) with | .found leaf _ => some leaf | _ => none
  match judgeFrom s w row look va bytes 600 0 [] .coherent with
  | .miss vpn segs mt =>
    (match s.walk w.group.root (vpn * 2 ^ 16) with
     | .bad why lvl => .bad .translation (va + segLen segs) why lvl
     | .poison lvl => .bad .poison (va + segLen segs) 0 lvl
     | .found _ _ => .miss vpn segs mt)
  | j => j

/-- The runs of memory that a judging found; none when it failed. -/
def Judged.segs? : Judged → Option (List Seg × MemType)
  | .ok gs mt => some (gs, mt)
  | _ => none

/-- R217, R294: the walks of an engine's access fill the TLB of its die. -/
def State.walkedDie (s : State) (w : Accessor) (va bytes : Nat) : State :=
  (List.range ((va + bytes - 1) / 2 ^ 16 + 1 - va / 2 ^ 16)).foldl (fun s i =>
    let vpn := va / 2 ^ 16 + i
    let d := dieOf w.core
    if 2 ^ 40 ≤ vpn || vpn / 2 ^ 32 == 0xf0 || vpn / 2 ^ 32 == 0xf1 || (tlbFind (s.die d).tlb w.asp vpn).isSome then s
    else
      let s1 := s.walkReads d w.group.root vpn
      match s.walk w.group.root (vpn * 2 ^ 16) with
      | .found leaf _ => s1.modDie d fun x => { x with tlb := tlbFillDie x.tlb (tlbEntryOf w.asp vpn leaf) }
      | _ => s1) s

/-- The accessor that a copy is. -/
def State.copyAccessor (s : State) (c : Nat) (cp : Copy) : Accessor := ⟨c, cp.asp, s.group c cp.group, cp.user, false⟩

/-- R256: the global lines of a list of runs. -/
def globalLines (gs : List Seg) : List Nat := segLines (gs.filter fun g => !isSp g.loc)

/-- R256: the ownership that a copy holds of what it has not issued yet: one entry for each run and global line of its
destination. -/
def State.ownedBy (s : State) (c : Nat) (cp : Copy) : List (Nat × Nat × Nat) :=
  (cp.desc.runs (cp.size + 1) cp.issued).flatMap fun (pos, len) =>
    match (s.judgeEngine (s.copyAccessor c cp) .engineWrite (cp.desc.addrs pos).2 len).segs? with
    | some (gs, _) => (globalLines gs).map fun l => (l, c, cp.id)
    | none => []

/-- R256: the ownership that the copies of a channel hold: of their runs under way, and of what is still to be issued. -/
def State.channelOwns (s : State) (c : Nat) (x : Channel) : List (Nat × Nat × Nat) :=
  (x.runs.flatMap fun r => (globalLines r.dst).map fun l => (l, c, r.copy)) ++ x.copies.flatMap fun cp => s.ownedBy c cp

/-- R256, R293: the ownership of destination lines as the copies in flight hold it, with the pages that can be translated now. -/
def State.reown (s : State) : State :=
  { s with owned := s.cores.flatMap fun (c, x) => x.channels.flatMap fun e => s.channelOwns c e.2 }

/-- Remove one entry of a list. -/
def removeOne {α : Type} [DecidableEq α] (x : α) : List α → List α
  | [] => []
  | y :: t => if y = x then t else y :: removeOne x t

/-! Acceptance (R285, R288, R297) -/

/-- R92: the copy channels of a grant. -/
def grantChannels (g : BitVec 16) : Nat := g.toNat % 32

/-- The channels of a core with copies in flight, under a test on the channel. -/
def Core.activeChannels (x : Core) (p : Channel → Bool) : Nat :=
  (x.channels.filter fun (_, ch) => decide (0 < ch.infl) && p ch).length

/-- The cores of a die. -/
def coresOf (d : Nat) : List Nat := (List.range Config.coresPerDie).map (d * Config.coresPerDie + ·)

/-- R463: the channels of a die with copies in flight. -/
def State.dieChannels (s : State) (d : Nat) : Nat :=
  ((s.cores.filter fun (c, _) => dieOf c == d).map fun (_, x) => x.activeChannels fun _ => true).foldl (· + ·) 0

/-- R463, R468: a cap of DIECAP, which acts as zero while the die is held. -/
def Die.cap (d : Die) (hi lo : Nat) : Nat := if d.hot then 0 else bitsOf d.dieCap.toNat hi lo

/-- R235, R242, R256, R265: may the one read of a thread for a command at the port be performed now? -/
def State.readMay (s : State) (c sl : Nat) (segs : List Seg) : Bool :=
  !s.mustWait segs c (s.thread c sl).region && (match (s.thread c sl).forward segs with | .wait => false | _ => true)

/-- R285, R463: do the limits allow a copy on a channel? A copy that is performed whole behind an uncounted one still counts, as INFL
does. (DESIGN CHOICE, log entry 55.) -/
def State.copyAdmits (s : State) (c : Nat) (k : EngCmd) (ch : Nat) (segs : List Seg) : Bool :=
  let x := s.core c
  let t := s.thread c k.slot
  let own := decide (0 < (x.channel ch).infl)
  let total : Nat := (x.channels.map fun (_, y) => y.infl).foldl (· + ·) 0
  decide (total < 96)
    && (own || decide (x.activeChannels (fun y => y.owner == t.group) < grantChannels (s.group c t.group).grant))
    && (own || decide (s.dieChannels (dieOf c) < (s.die (dieOf c)).cap 30 18))
    && s.readMay c k.slot segs

/-- R288: the bytes of the descriptor as the thread's read sees them, poison as none. -/
def State.readForThread (s : State) (c sl : Nat) (segs : List Seg) : Option (List Byte) :=
  match (s.thread c sl).forward segs with
  | .buffer bs => some bs
  | _ => s.readBytes (dieOf c) false segs

/-- R256, R265: a command is accepted: the atomics that wait behind an engine's line stay behind it, and those whose line no engine owns
any more keep their place before what is accepted now. -/
def State.placeAtomics (s : State) : State :=
  { s with dies := Tbl.mapVals (fun _ d => { d with tiles := d.tiles.map fun q =>
      { q with behind := q.behind && (segLines q.segs).any fun l => s.owned.any fun e => e.1 == l } }) s.dies }

/-- R297: accept a `cpy` or `cpy.coll` whose limits allow it. -/
def State.acceptCopy (s : State) (c : Nat) (k : EngCmd) (coll : Bool) (ch : Nat) (segs : List Seg) : State :=
  let t := s.thread c k.slot
  let op := if coll then 0xd1 else 0xd0
  let x := (s.core c).channel ch
  match s.readForThread c k.slot segs with
  | none => s.refusePort c k .poison (engDetail 0 k.idx ch op) nullTok
  | some bs =>
    match copyReject bs coll (x.cfg && x.owner == t.group && !x.brk) with
    | some code => s.refusePort c k .engine (engDetail code k.idx ch op) nullTok
    | none =>
      let d := copyDescOf bs
      let cp : Copy :=
        { id := s.copyNext, slot := k.slot, group := t.group, asp := s.aspOf c k.slot, user := !t.priv, coll := coll,
          ctx := s.aspOf c k.slot, desc := d, size := d.size, issued := 0, performed := [], stalled := false, gone := [] }
      let iptr := x.iptr + BitVec.ofNat 32 d.size
      let s1 := ((s.seeOwn c k.slot segs).placeAtomics).modCore c fun y => y.modChannel ch fun z =>
        { z with iptr := iptr, infl := z.infl + 1, copies := z.copies ++ [cp] }
      ({ s1 with copyNext := s.copyNext + 1 }).reown.finishPort c k 0 doneTok (dword iptr.toNat)

/-! Channels -/

/-- R297: the status word of `cwptr`. -/
def Channel.status (x : Channel) : Nat :=
  x.wptr.toNat + x.infl * 2 ^ 32 + (if x.cfg then 2 ^ 39 else 0) + (if x.brk then 2 ^ 40 else 0) + x.cause.toNat * 2 ^ 41

/-- R281: the wait of a thread in the channel bin ends with an engine descriptor fault. -/
def State.endChannelWait (s : State) (c sl ch code : Nat) : State :=
  (s.trapWaiter c sl (.channel ch) .engine (engDetail code (s.thread c sl).waitIdx ch 0xc6)).ropeAfterFault c sl

/-- R281: the threads of a core that wait on a channel, in ascending slot. -/
def Core.channelWaiters (x : Core) (ch : Nat) : List Nat := Tbl.keysWhere (fun _ t => t.waitsAt (.channel ch)) x.threads

/-- R281: every thread that waits on a channel faults with a code. -/
def State.faultWaiters (s : State) (c ch code : Nat) : State :=
  ((s.core c).channelWaiters ch).foldl (fun s sl => s.endChannelWait c sl ch code) s

/-- R281: an advance of the write pointer files the threads whose test holds. -/
def State.wakeChannel (s : State) (c ch : Nat) : State :=
  ((s.core c).channelWaiters ch).foldl (fun s sl =>
    let t := s.thread c sl
    if waitMet ((s.core c).channel ch).wptr t.waitThr then (s.modThread c sl Thread.acquire).wake c sl (.channel ch) else s) s

/-- R297: is a `cchan` applied? -/
def Channel.cchanOk (x : Channel) (g : Nat) (free : Bool) : Bool :=
  if free then x.cfg && x.owner == g && x.infl == 0 else !x.cfg || (x.owner == g && x.infl == 0)

/-- R281, R297: accept `cchan`; threads that wait on a channel that it reconfigures fault. -/
def State.acceptCchan (s : State) (c : Nat) (k : EngCmd) (ch : Nat) (free : Bool) : State :=
  let g := (s.thread c k.slot).group
  let x := (s.core c).channel ch
  if x.cchanOk g free then
    let s1 := s.modCore c fun y =>
      if free && x.runs.isEmpty then { y with channels := Tbl.erase y.channels ch }
      else if free then { y with channels := Tbl.set y.channels ch { Channel.reset with runs := x.runs } }
      else { y with channels := Tbl.set y.channels ch { Channel.reset with cfg := true, owner := g, runs := x.runs } }
    (s1.faultWaiters c ch 17).finishPort c k 0 doneTok (predTok true)
  else s.finishPort c k 0 doneTok (predTok false)

/-- R291, R297: accept `cwptr`: the status in the clk of acceptance; with its flag it is an acquire. -/
def State.acceptCwptr (s : State) (c : Nat) (k : EngCmd) (acq : Bool) (ch : Nat) : State :=
  (if acq then s.modThread c k.slot Thread.acquire else s).finishPort c k 0 doneTok (dword ((s.core c).channel ch).status)

/-! Copies under way -/

/-- R299: a step record of a collective copy. -/
def State.stepRecord (s : State) (c ch : Nat) (cp : Copy) (type cause : Nat) : State :=
  if cp.coll then
    s.offer (dieOf c) ⟨s.tsc (dieOf c), c, type, cp.ctx, BitVec.ofNat 32 (cp.desc.step + ch * 2 ^ 16),
      BitVec.ofNat 64 cp.size, BitVec.ofNat 64 cause, none⟩
  else s

/-- R295: a channel breaks with a cause: its copies are abandoned, its waiting threads fault. -/
def State.breakChannel (s : State) (c ch cause : Nat) : State :=
  let x := (s.core c).channel ch
  let s1 := x.copies.foldl (fun s cp => s.stepRecord c ch cp 4 cause) s
  let s2 := s1.modCore c fun y => y.modChannel ch fun z =>
    { z with brk := true, cause := BitVec.ofNat 3 cause, infl := 0, copies := [] }
  s2.reown.faultWaiters c ch 16

/-- R466: the identity of a report of kind 5 and of kind 0 share their places: core, slot or channel, group, context. -/
def identOf (core slot group ctx : Nat) : Word := BitVec.ofNat 32 (core + slot * 2 ^ 11 + group * 2 ^ 21 + ctx * 2 ^ 25)

/-- R409, R466: post a report: it waits for the driver, and its 32 bytes go to the ring in host memory.
(PRESUMED, log entry 21.) -/
def State.post (s : State) (r : Report) : State :=
  let m := s.mgmt
  let s1 : State := { s with reports := s.reports ++ [r] }
  if m.ringSize.toNat < 32 then s1
  else
    let at_ := m.ringBase.toNat + 32 * (m.ringNext % (m.ringSize.toNat / 32))
    let bs := natToBytes 4 r.ident.toNat ++ natToBytes 4 (r.cause + r.kind * 64) ++ natToBytes 8 r.va.toNat ++
      natToBytes 8 r.recAddr.toNat ++ natToBytes 8 r.detail.toNat
    (s1.wr at_ bs).modMgmt fun x => { x with ringNext := x.ringNext + 1 }

/-- The first copy of a channel that still has runs to issue. -/
def Channel.issuing (x : Channel) : Option Copy := x.copies.find? fun cp => decide (cp.issued < cp.size)

/-- Change a copy of a channel. -/
def Channel.modCopy (x : Channel) (id : Nat) (f : Copy → Copy) : Channel :=
  { x with copies := x.copies.map fun cp => if cp.id = id then f cp else cp }

/-- R295: a fault found while a copy issues a run. -/
def State.copyFault (s : State) (c ch : Nat) (cp : Copy) (cause : Cause) (va why lvl : Nat) (write : Bool) : State :=
  match cause with
  | .translation =>
    (s.modCore c fun x => x.modChannel ch fun y => y.modCopy cp.id fun z => { z with stalled := true }).post
      ⟨5, cause.code, identOf c 0 ch cp.ctx, BitVec.ofNat 64 va, 0, memDetail 0 (if write then 1 else 0) lvl why, [(c, ch)]⟩
  | .poison => s.breakChannel c ch 4
  | _ => s.breakChannel c ch (if why = 6 then 3 else 1)

/-- R43: the place of a run's first destination byte in the scratchpad of a group that has retired since the copy was accepted, whose
bytes are discarded. -/
def Copy.goneAt (cp : Copy) (c va : Nat) : Option Nat :=
  let off := va % 2 ^ 48
  let loc := spLoc (dieOf c * Config.coresPerDie + off / 2 ^ 18) (off % 2 ^ 18)
  if va / 2 ^ 48 = 0xf0 ∧ off < 2 ^ 26 ∧ cp.gone.any (fun (a, n) => decide (a ≤ loc) && decide (loc < a + n)) then some loc else none

/-- R289, R294: the next run of a channel is issued, its pages translated first, the source's before the destination's. -/
def State.issueRun (s : State) (c ch : Nat) : State :=
  match ((s.core c).channel ch).issuing with
  | none => s
  | some cp =>
    if cp.stalled then s
    else
      let w := s.copyAccessor c cp
      let n := cp.desc.runLen cp.issued
      let a := cp.desc.addrs cp.issued
      match s.judgeEngine w .engineRead a.1 n with
      | .bad cause va why lvl => s.copyFault c ch cp cause va why lvl false
      | .miss _ _ _ => s
      | .ok src _ =>
        let gone := cp.goneAt c a.2
        let there : Judged := match gone with
          | some loc => .ok [⟨loc, n, false⟩] .coherent
          | none => s.judgeEngine w .engineWrite a.2 n
        match there with
        | .bad cause va why lvl => s.copyFault c ch cp cause va why lvl true
        | .miss _ _ _ => s
        | .ok dst mt =>
          let s1 := if cp.issued = 0 then s.stepRecord c ch cp 3 0 else s
          let s2 := ((s1.walkedDie w a.1 n).walkedDie w a.2 n).modCore c fun x => x.modChannel ch fun y =>
            { (y.modCopy cp.id fun z => { z with issued := z.issued + n }) with
              runs := y.runs ++ [⟨cp.id, cp.group, cp.slot, cp.issued, n, src, dst, mt == .nonCoherent, cp.desc.sb, gone.isSome⟩] }
          if (globalLines dst).all fun l => s.owned.contains (l, c, cp.id) then s2 else s2.reown

/-- R290: the bytes of a copy, from its start, that have all been performed. -/
def Copy.frontier (cp : Copy) : Nat → Nat → Nat
  | 0, p => p
  | fuel + 1, p =>
    match cp.performed.find? fun (q, n) => decide (q ≤ p) && decide (p < q + n) with
    | some (q, n) => cp.frontier fuel (q + n)
    | none => p

/-- R290: the bytes at the head of a copy that count; each listed piece is used once. -/
def Copy.counted (cp : Copy) : Nat := cp.frontier (cp.performed.length + 1) 0

/-- R290: WPTR and the copies of a channel after a change of what has been performed: the new pieces of the first copies
count as far as they are without a gap; a copy that is counted whole leaves. -/
def Channel.settle : Channel → Nat → Channel × List Copy
  | x, 0 => (x, [])
  | x, fuel + 1 =>
    match x.copies with
    | [] => (x, [])
    | cp :: t =>
      if cp.counted = cp.size then
        let r := Channel.settle { x with copies := t, infl := x.infl - 1 } fuel
        (r.1, cp :: r.2)
      else (x, [])

/-- R290: the write pointer of a channel whose pointer after every accepted copy is IPTR. -/
def Channel.pointer (x : Channel) : Word :=
  let left := (x.copies.map (·.size)).foldl (· + ·) 0
  let head := match x.copies with | cp :: _ => cp.counted | [] => 0
  x.iptr - BitVec.ofNat 32 (left - head)

/-- R256, R265, R293, R344: may a run be performed now? No line of it is locked by a region, no line that it reads is owned by
another copy, none that it writes by an earlier one, and no atomic has taken its place there before the engine did. -/
def State.runFree (s : State) (r : CopyRun) : Bool :=
  ((globalLines (r.src ++ r.dst)).all fun l => !(s.locks.any fun (x, _, _) => x == l))
    && ((globalLines r.src).all fun l => !(s.owned.any fun (x, _, id) => x == l && id != r.copy))
    && ((globalLines r.dst).all fun l => !(s.owned.any fun (x, _, id) => x == l && decide (id < r.copy)))
    && !s.dies.any fun (_, d) => d.tiles.any fun q => q.answer.isNone && !q.behind && segsMeet q.segs (r.src ++ r.dst)

/-- R43, R258, R263, R289, R295: the bytes of a run are read and written in one act, poison carried with them; those of a dead one are
discarded. (DESIGN CHOICE, log entry 55.) -/
def State.writeRun (s : State) (c : Nat) (r : CopyRun) : State :=
  let d := dieOf c
  if r.dead then s.foldAccess d false r.src
  else
  let srcs := segLocs r.src
  let bs := srcs.map (s.engByte c r.slot)
  let s0 := (s.keepOld r.dst).foldAccess d false r.src
  let s1 := if r.dstNc then s0.agentStoreNc d r.dst bs else s0.agentStore d r.dst bs
  let bad := ((srcs.zip (segLocs r.dst)).filter fun (a, _) => s.poisoned a 1).map (·.2)
  { s1 with poison := bad.foldl (fun p a => insertNat a p) s1.poison }

/-- R290, R292: a run is performed at its destination: the bytes, the stage barrier, the write pointer and its waiters. -/
def State.performRun (s : State) (c ch n : Nat) : State :=
  match ((s.core c).channel ch).runs[n]? with
  | none => s
  | some r =>
    if !s.runFree r then s
    else
      -- R433: the home slices grant the lines first
      let rd := s.obtainUnit (dieOf c) r.src false
      let wr := if r.dead || !rd.2 then rd else rd.1.obtainUnit (dieOf c) r.dst true
      if !wr.2 then wr.1
      else
      let s1 := wr.1.writeRun c r
      let s2 : State := { s1 with owned := (globalLines r.dst).foldl (fun o l => removeOne (l, c, r.copy) o) s1.owned }
      let s3 := s2.modCore c fun x => x.modChannel ch fun y =>
        { (y.modCopy r.copy fun z => { z with performed := z.performed ++ [(r.pos, r.len)] }) with runs := removeAt y.runs n }
      let x := (s3.core c).channel ch
      let st := x.settle (x.copies.length + 1)
      let s4 := if !x.cfg && x.runs.isEmpty then s3.modCore c fun y => { y with channels := Tbl.erase y.channels ch }
        else if x.brk || !x.cfg then s3
        else s3.modCore c fun y => { y with channels := Tbl.set y.channels ch { st.1 with wptr := st.1.pointer } }
      let s5 := (if x.brk || !x.cfg then [] else st.2).foldl (fun s cp => s.stepRecord c ch cp 4 0) s4
      let s6 := match r.sb with
        | some b =>
          if ((s5.group c r.group).bar b).brk.isSome then s5
          else (s5.modGroup c r.group fun g => g.modBar b fun y => { y with bytes := y.bytes - r.len })
        | none => s5
      s6.wakeChannel c ch

end Sys2Proof.Machine
end

