-- ==== Sys2Proof/Machine/MatrixArray.lean ====
section
/-! DEFINITION. The matrix arrays (R300-R319): channel-table entries (R187), operand descriptors and their extents,
acceptance and refusal, the steps of `mma`, `macc.ld` and `macc.st`, gangs and the census. -/

namespace Sys2Proof.Machine

/-! Channel-table entries (R187) -/

/-- FMT. -/
def entFmt (e : Word) : Nat := e.toNat % 16
/-- SCALE. -/
def entScale (e : Word) : Int := sextNat 8 (e.toNat / 2 ^ 8)
/-- V. -/
def entV (e : Word) : Bool := e.getLsbD 16
/-- OWNER. -/
def entOwner (e : Word) : Nat := e.toNat / 2 ^ 17 % 16
/-- The entry of a core's table. -/
def Core.entry (x : Core) (k : Nat) : Word := Tbl.get 0 x.chan k
/-- R187: is a read of an entry by a group a channel error, whatever the use? -/
def chanError (e : Word) (g : Nat) : Bool :=
  !entV e || entOwner e != g || decide (7 ≤ entFmt e) || (entFmt e == 6 && entScale e != 0)

/-- R302: the row bytes of a format other than ex8. -/
def fmtRowBytes (f : Nat) : Nat := if f = 5 then 128 else if f = 3 ∨ f = 4 then 64 else 32
/-- The bytes of an element of a format other than ex8. -/
def fmtBytes (f : Nat) : Nat := fmtRowBytes f / 32
/-- R305: the mode of a pair of formats: k per step, and whether ACT is i32; none for a pair that has no mode. -/
def mmaMode (fa fb : Nat) : Option (Nat × Bool) :=
  if fa ≤ 2 ∧ fb ≤ 2 then some (4, false)
  else if fa = 6 ∧ fb = 6 then some (4, true)
  else if (fa = 3 ∨ fa = 4) ∧ (fb = 3 ∨ fb = 4) then some (2, false)
  else if fa = 5 ∧ fb = 5 then some (1, false)
  else none

/-- The value of an element's pattern in a format. -/
def fmtValue (f p : Nat) : FpNum :=
  match f with
  | 0 | 2 => fmtE4m3.value (p % 256)
  | 1 => fmtE5m2.value (p % 256)
  | 3 => fmtBf16.value (p % 2 ^ 16)
  | 4 => fmtF16.value (p % 2 ^ 16)
  | 5 => fmtF32.value (p % 2 ^ 32)
  | _ => let v := sextNat 8 p; .fin (decide (v < 0)) v.natAbs 0

/-! Descriptors and control tokens -/

/-- R302: the fields of an operand descriptor. -/
def opDescOf (q : Quad) : OpDesc :=
  let n := q.toNat
  { base := BitVec.ofNat 64 (n % 2 ^ 56), rpitch := bitsOf n 79 64, tpitch := bitsOf n 103 80, rot := bitsOf n 105 104,
    ch := bitsOf n 110 106, bad := decide (bitsOf n 63 56 ≠ 0) || decide (bitsOf n 127 111 ≠ 0) }

/-- R316: M, N, K, AC, the bit [30] and GANG of a control token. -/
structure MatCtl where
  m : Nat
  n : Nat
  k : Nat
  ac : Nat
  flag : Bool
  gang : Bool
  high : Bool
deriving DecidableEq, Repr

/-- R316. -/
def matCtlOf (v : DWord) : MatCtl :=
  let n := v.toNat
  { m := bitsOf n 5 0, n := bitsOf n 11 6, k := bitsOf n 27 12, ac := bitsOf n 29 28, flag := n / 2 ^ 30 % 2 == 1,
    gang := n / 2 ^ 31 % 2 == 1, high := decide (2 ^ 32 ≤ n) }

/-- R316: is the control token of a kind of command valid? -/
def MatCtl.ok (t : MatCtl) (kind : MatKind) : Bool :=
  decide (t.m ≤ 32) && decide (t.n ≤ 32) && !t.high
    && (match kind with
        | .mma => true
        | .ld _ => t.k == 0 && !t.flag && !t.gang
        | .st _ => t.k == 0 && !t.gang)

/-- R304, R317: the bytes of a row that an operand's extent covers, from its entry; none when the entry names no format. -/
def extentRow (kind : MatKind) (d : OpDesc) (e : Word) (g : Nat) : Option Nat :=
  match kind with
  | .ld _ | .st true => some 128
  | .st false => if chanError e g || !([0, 3, 4, 5].contains (entFmt e)) then none else some (fmtRowBytes (entFmt e))
  | .mma => if chanError e g then none else if entFmt e = 2 then some (min d.rpitch 52) else some (fmtRowBytes (entFmt e))

/-- R304: what a command carries of the check at its fire: one more than the row bytes checked, 0 when no format was named. -/
def extentCode : Option Nat → Nat
  | none => 0
  | some n => n + 1

/-- R302: the virtual address of a row. -/
def OpDesc.row (d : OpDesc) (t r : Nat) : Nat := (d.base.toNat + t * d.tpitch + r * d.rpitch) % 2 ^ 64

/-- R304: the first byte of an operand's extent that may not be reached, with WHY, over its rows tile by tile. -/
def State.extentWhy (s : State) (c asp : Nat) (g : Group) (d : OpDesc) (rowLen rows tiles : Nat) : Option (Nat × Nat) :=
  if rowLen = 0 then none
  else
    (List.range tiles).findSome? fun t => (List.range rows).findSome? fun r => spRunWhy s c asp g (d.row t r) rowLen

/-- R303, R317: is a descriptor valid for its use, with its row bytes and whether it is ex8? -/
def OpDesc.ok (d : OpDesc) (ex8 : Bool) (rowBytes rows : Nat) : Bool :=
  !d.bad && d.rot != 3
    && (if ex8 then d.base.toNat % 4 == 0 && d.rpitch % 4 == 0 && d.tpitch % 4 == 0 && d.rot == 0
        else d.base.toNat % 8 == 0 && d.rpitch % 8 == 0 && d.tpitch % 8 == 0
          && (decide (rows ≤ 1) || decide (rowBytes ≤ d.rpitch)))

/-- R303: the same by the operand's entry. With no format only the fields themselves are judged (DESIGN CHOICE, log entry 55). -/
def OpDesc.okFor (d : OpDesc) (e : Word) (g rows : Nat) : Bool :=
  if chanError e g then !d.bad && d.rot != 3 else d.ok (entFmt e == 2) (fmtRowBytes (entFmt e)) rows

/-! Acceptance -/

/-- The opcode of a matrix command. -/
def MatKind.op : MatKind → Nat
  | .mma => 0xd4 | .ld _ => 0xd5 | .st _ => 0xd6

/-- R319: ACT as the commands accepted earlier on a context leave it; true is i32. -/
def Core.actAfter (x : Core) (ac : Nat) : Bool :=
  (x.matQ.filter fun q => q.ac == ac).foldl (fun act q =>
    match q.kind with
    | .mma =>
      if q.flag && decide (0 < q.m) && decide (0 < q.n) && !q.started then
        (match mmaMode (entFmt q.ea) (entFmt q.eb) with | some (_, i) => i | none => act)
      else act
    | .ld i32 => i32
    | .st _ => if q.flag then false else act) (x.acc ac).i32

/-- R319: the first cause, in order, that refuses a matrix command at acceptance: code and NUM. Of two entries of which both are channel
errors NUM names A's, and of a pair of formats that has no mode B's. (DESIGN CHOICE, log entry 55.) -/
def State.matRefusal (s : State) (c : Nat) (g : Nat) (kind : MatKind) (t : MatCtl) (da db : OpDesc) (ra rb : Nat) :
    Option (Nat × Nat) :=
  let x := s.core c
  let acc := x.acc t.ac
  let ea := x.entry da.ch
  let eb := x.entry db.ch
  let descOk := match kind with
    | .mma => da.okFor ea g (if t.k = 0 then 0 else t.m) && db.okFor eb g (if t.k = 0 then 0 else t.n)
    | .ld _ => da.ok false 128 t.m && da.tpitch == 0 && da.ch == 0
    | .st true => da.ok false 128 t.m && da.tpitch == 0 && da.ch == 0
    | .st false => da.okFor ea g t.m && da.tpitch == 0
  let owned := acc.v && acc.owner != g
  let larger (now was : Nat) : Bool := now == 0 || was == 0 || decide (was < now)
  let chan : Option Nat := match kind with
    | .mma =>
      if larger (extentCode (extentRow .mma da ea g)) ra then some da.ch
      else if larger (extentCode (extentRow .mma db eb g)) rb then some db.ch
      else if (mmaMode (entFmt ea) (entFmt eb)).isNone then some db.ch else none
    | .st false => if larger (extentCode (extentRow kind da ea g)) ra then some da.ch else none
    | _ => none
  let act := x.actAfter t.ac
  let actBad := match kind with
    | .mma => !t.flag && (match mmaMode (entFmt ea) (entFmt eb) with | some (_, i) => i != act | none => false)
    | .st false => act
    | _ => false
  let errBad : Bool := match kind with | .st _ => acc.err != 0 | _ => false
  if !t.ok kind then some (8, t.ac)
  else if !descOk then some (10, t.ac)
  else if owned then some (9, t.ac)
  else match chan with
    | some n => some (1, n)
    | none =>
      if actBad then some (9, t.ac)
      else if errBad then some (acc.err, t.ac)
      else if t.gang && (s.group c g).gang.isEmpty then some (11, t.ac)
      else none

/-- R301: claim a context for a group. -/
def Core.claim (x : Core) (ac g : Nat) : Core :=
  x.modAcc ac fun a => if a.v then a else { a with v := true, owner := g }

/-- The rank of a group in its rope. -/
def State.rankOf (s : State) (c g : Nat) : Nat :=
  let gr := s.group c g
  gr.lin % (s.grid gr.grid).launch.ropeG
/-- The rope of a group. -/
def State.ropeOf (s : State) (c g : Nat) : Nat :=
  let gr := s.group c g
  gr.lin / (s.grid gr.grid).launch.ropeG

/-- Is a command a gang `mma` of a group whose entry is in the latch already (R310)? -/
def State.latched (s : State) (c g : Nat) : Bool :=
  let gr := s.group c g
  (s.die (dieOf c)).latch.any fun e => e.grid == gr.grid && e.rope == s.ropeOf c g && e.rank == s.rankOf c g

/-- R307: the commands that a core's array holds, its members of the latch among them. -/
def State.matHeld (s : State) (c : Nat) : Nat :=
  (s.core c).matQ.length + ((s.die (dieOf c)).latch.filter fun e => e.cmd.core == c).length

/-- R463: the arrays of a die that hold a command. -/
def State.activeMatrices (s : State) (d : Nat) : Nat := ((coresOf d).filter fun c => decide (0 < s.matHeld c)).length

/-- R307, R310, R463: does the port accept a matrix command? -/
def State.matAdmits (s : State) (c g : Nat) (kind : MatKind) (t : MatCtl) : Bool :=
  decide (s.matHeld c < 8)
    && (kind != .mma || decide (0 < s.matHeld c) || decide (s.activeMatrices (dieOf c) < (s.die (dieOf c)).cap 8 0))
    && !(kind == .mma && t.gang && t.ok .mma && s.latched c g)

/-- R306, R310, R317: accept a matrix command, or refuse it. A gang `mma` enters the latch; its T1 waits for the round. -/
def State.acceptMat (s : State) (c : Nat) (k : EngCmd) (kind : MatKind) (a b : Quad) (ctl : DWord) (ra rb : Nat) : State :=
  let g := (s.thread c k.slot).group
  let t := matCtlOf ctl
  let da := opDescOf a
  let db := opDescOf b
  match s.matRefusal c g kind t da db ra rb with
  | some (code, num) => s.refusePort c k .engine (engDetail code k.idx num kind.op) doneTok
  | none =>
    let x := s.core c
    let blk := match (s.thread c k.slot).inst with | some i => i.blk | none => 0
    let q : MatCmd :=
      { kind := kind, group := g, slot := k.slot, core := c, blk := blk, asp := s.aspOf c k.slot, idx := k.idx,
        ac := t.ac, m := t.m, n := t.n, k := t.k, flag := t.flag, gang := t.gang, da := da, db := db, ea := x.entry da.ch,
        eb := x.entry db.ch, units := [], step := 0, started := false, stopped := false }
    if t.gang then
      (s.modDie (dieOf c) fun d =>
        { d with latch := d.latch ++ [⟨(s.group c g).grid, s.ropeOf c g, s.rankOf c g, q, k.t1, (s.group c g).clock⟩] })
    else (s.modCore c fun y => { (y.claim t.ac g) with matQ := y.matQ ++ [q] }).finishPort c k 0 doneTok nullTok

/-- R318: is a gang list applied? The ranks, none when it is not; a CNT of 0 clears. -/
def gangList (v : DWord) (G P own : Nat) : Option (List Nat) :=
  let n := v.toNat
  let cnt := bitsOf n 50 48
  let all := (List.range 6).map fun j => bitsOf n (8 * j + 7) (8 * j)
  let ranks := all.take cnt
  if cnt = 0 then some []
  else if 2 ≤ cnt && decide (cnt ≤ 6) && (all.drop cnt).all (· == 0) && bitsOf n 63 51 == 0
      && decide ranks.Nodup && ranks.all (fun r => decide (r < G)) && ranks.contains own
      && decide (ranks.map (· / P)).Nodup
  then some ranks else none

/-- R318: accept `mgang`. -/
def State.acceptMgang (s : State) (c : Nat) (k : EngCmd) (v : DWord) : State :=
  let g := (s.thread c k.slot).group
  let r := (s.grid (s.group c g).grid).launch
  match gangList v r.ropeG r.ropeP (s.rankOf c g) with
  | some l => (s.modGroup c g fun x => { x with gang := l }).finishPort c k 0 doneTok (predTok true)
  | none => s.finishPort c k 0 doneTok (predTok false)

/-- R318: is an entry write of a group applied? -/
def mchanOk (old : Word) (v : DWord) (g : Nat) : Bool :=
  let n := v.toNat
  let w := BitVec.ofNat 32 n
  (!entV old || entOwner old == g) && bitsOf n 31 21 == 0 && bitsOf n 7 4 == 0 && decide (entFmt w ≤ 6)
    && !(entFmt w == 6 && entScale w != 0) && bitsOf n 63 37 == 0

/-- R318: accept `mchan`. -/
def State.acceptMchan (s : State) (c : Nat) (k : EngCmd) (v : DWord) : State :=
  let g := (s.thread c k.slot).group
  let n := bitsOf v.toNat 36 32
  if mchanOk ((s.core c).entry n) v g then
    let w : Word := BitVec.ofNat 32 (bitsOf v.toNat 16 0 + g * 2 ^ 17)
    (s.modCore c fun x =>
      { x with chan := if entV w then Tbl.set x.chan n w else Tbl.erase x.chan n }).finishPort c k 0 doneTok (predTok true)
  else s.finishPort c k 0 doneTok (predTok false)

/-! Performing -/

/-- R258, R309: a byte that an engine's read for a command of a thread sees, and whether it is poisoned: the bits of a poisoned byte
are left open (R306). -/
def State.opByte (s : State) (c sl loc : Nat) : Byte × Bool :=
  if s.poison.contains loc then (Config.poisonByte loc, true) else (s.engByte c sl loc, false)

/-- The place of a row's byte; a row whose window no longer holds it reads no byte. -/
def State.cmdPlace (s : State) (q : MatCmd) (va : Nat) : Option Nat := spPlace? q.core (s.group q.core q.group) va

/-- The number that `n` bytes from a virtual address hold, and whether one of them is poisoned. -/
def State.cmdRead (s : State) (q : MatCmd) (va n : Nat) : Nat × Bool :=
  let bs := (List.range n).map fun i =>
    match s.cmdPlace q (va + i) with
    | some l => s.opByte q.core q.slot l
    | none => ((0 : Byte), false)
  (bytesToNat (bs.map (·.1)), bs.any (·.2))

/-- R302: the virtual address of the byte at an offset of a row, under the bank rotation. -/
def OpDesc.byteAddr (d : OpDesc) (rowBytes t r off : Nat) : Nat :=
  d.row t r + 8 * ((off / 8 + d.rot * r) % (rowBytes / 8)) + off % 8

/-- A unit of an operand (R302, R309): of B or of A, its k-tile, its row and its place in the row. -/
structure OpUnit where
  isB : Bool
  tile : Nat
  row : Nat
  unit : Nat
deriving DecidableEq, Repr

/-- The number of a unit among those of a command. -/
def OpUnit.key (u : OpUnit) : Nat := ((2 * u.tile + (if u.isB then 1 else 0)) * 32 + u.row) * 16 + u.unit

/-- The descriptor that a unit belongs to. -/
def MatCmd.descOf (q : MatCmd) (isB : Bool) : OpDesc := if isB then q.db else q.da
/-- The FMT that a unit is in. -/
def MatCmd.fmtOf (q : MatCmd) (isB : Bool) : Nat := entFmt (if isB then q.eb else q.ea)

/-- R302, R309: the address and the bytes of a unit: 8 bytes under the rotation, and 4 bytes of an ex8 row. -/
def MatCmd.unitPlace (q : MatCmd) (u : OpUnit) : Nat × Nat :=
  let d := q.descOf u.isB
  match q.kind with
  | .mma =>
    if q.fmtOf u.isB = 2 then (d.row u.tile u.row + 4 * u.unit, 4)
    else (d.byteAddr (fmtRowBytes (q.fmtOf u.isB)) u.tile u.row (8 * u.unit), 8)
  | .ld _ | .st _ => (d.byteAddr 128 u.tile u.row (8 * u.unit), 8)

/-- A unit as a command has read it: its number, and whether it was poisoned. -/
def MatCmd.unitOf (q : MatCmd) (u : OpUnit) : Nat × Bool := (Tbl.find? q.units u.key).getD (0, false)

/-- R309, R481: the units that a command has not read yet are read, each as one event; one that it holds is not read again. -/
def State.readUnits (s : State) (q : MatCmd) (us : List OpUnit) : MatCmd :=
  us.foldl (fun q u =>
    if (Tbl.find? q.units u.key).isSome then q
    else { q with units := Tbl.set q.units u.key (s.cmdRead q (q.unitPlace u).1 (q.unitPlace u).2) }) q

/-- R184, R303: the words of an ex8 row that lie in its pitch, as its first word gives them. -/
def MatCmd.ex8Units (q : MatCmd) (isB : Bool) (t r : Nat) : List OpUnit :=
  let len := ex8Len ((q.unitOf ⟨isB, t, r, 0⟩).1 % 2 ^ 16)
  if 8 * (q.descOf isB).rpitch < len then [⟨isB, t, r, 0⟩]
  else (List.range (max 1 (min (ex8Words len) 13))).map fun u => ⟨isB, t, r, u⟩

/-- R309: read an ex8 row: its first word, then the others that its length names. A pitch of 0 leaves no word to read. -/
def State.readEx8 (s : State) (q : MatCmd) (isB : Bool) (t r : Nat) : MatCmd :=
  if (q.descOf isB).rpitch = 0 then q
  else
    let q1 := s.readUnits q [⟨isB, t, r, 0⟩]
    s.readUnits q1 (q1.ex8Units isB t r)

/-- R184, R186, R303: the 32 elements of an ex8 row that has been read; none on a format error. -/
def MatCmd.ex8Row (q : MatCmd) (isB : Bool) (t r : Nat) : Option (List Nat) × Bool :=
  let d := q.descOf isB
  if d.rpitch = 0 then (none, false)
  else
    let ws := (q.ex8Units isB t r).map q.unitOf
    let stream := ws.foldr (fun w n => n * 2 ^ 32 + w.1) 0
    (if 8 * d.rpitch < ex8Len (stream % 2 ^ 16) then none else ex8Decode stream, ws.any (·.2))

/-- R309: read what the elements `k` of a list need of an operand's row. -/
def State.readRow (s : State) (q : MatCmd) (isB : Bool) (r : Nat) (ks : List Nat) : MatCmd :=
  match ks with
  | [] => q
  | k0 :: _ =>
    if q.fmtOf isB = 2 then s.readEx8 q isB (k0 / 32) r
    else s.readUnits q (ks.map fun k => ⟨isB, k / 32, r, fmtBytes (q.fmtOf isB) * (k % 32) / 8⟩)

/-- R305: the elements `k` of a list of an operand's row that has been read, scaled (R188), and whether a unit they lie in was
poisoned; none on an ex8 format error. -/
def MatCmd.rowElems (q : MatCmd) (isB : Bool) (r : Nat) (ks : List Nat) : Option (List FpNum) × Bool :=
  let e := if isB then q.eb else q.ea
  let f := q.fmtOf isB
  match ks with
  | [] => (some [], false)
  | k0 :: _ =>
    if f = 2 then
      let row := q.ex8Row isB (k0 / 32) r
      (row.1.map fun ps => ks.map fun k => (fmtValue 2 (ps.getD (k % 32) 0)).scale (entScale e), row.2)
    else
      let b := fmtBytes f
      let xs := ks.map fun k =>
        let u := q.unitOf ⟨isB, k / 32, r, b * (k % 32) / 8⟩
        (u.1 / 2 ^ (8 * (b * (k % 32) % 8)) % 2 ^ (8 * b), u.2)
      (some (xs.map fun x => (fmtValue f x.1).scale (entScale e)), xs.any (·.2))

/-- The integer that an exact finite sum of integers is. -/
def FpNum.toInt : FpNum → Int
  | .fin neg m e => intOf .rtz neg m e
  | _ => 0

/-- R306: one element after a step. (DEDUCED, log entry 51.) -/
def mmaElem (i32 : Bool) (acc : Word) (as_ bs : List FpNum) : Word :=
  let ps := (as_.zip bs).map fun (x, y) => x.mul y
  if i32 then BitVec.ofInt 32 ((acc.toNat : Int) + (ps.map FpNum.toInt).foldl (· + ·) 0)
  else BitVec.ofNat 32 (fmtF32.round .rne (sumNum .rne (fmtF32.value acc.toNat :: ps)))

/-- The number of an element in a context. -/
def elemNum (m n : Nat) : Nat := 32 * m + n
/-- An element of a context. -/
def Acc.elem (a : Acc) (m n : Nat) : Word := Tbl.get 0 a.elems (elemNum m n)
/-- Write an element; a zero is what an unlisted element reads as. -/
def Acc.setElem (a : Acc) (m n : Nat) (w : Word) : Acc :=
  { a with elems := if w = 0 then Tbl.erase a.elems (elemNum m n) else Tbl.set a.elems (elemNum m n) w }
/-- The positions of an M × N panel. -/
def panel (m n : Nat) : List (Nat × Nat) := (List.range m).flatMap fun i => (List.range n).map fun j => (i, j)

/-- R305: the number of steps of an `mma`. -/
def MatCmd.steps (q : MatCmd) : Nat :=
  match mmaMode (entFmt q.ea) (entFmt q.eb) with
  | some (g, _) => (q.k + g - 1) / g
  | none => 0

/-- R306: the start of an `mma`: with CLR the panel is cleared; without it a pending ERR stops it. -/
def MatCmd.start (q : MatCmd) (a : Acc) : MatCmd × Acc :=
  if q.started then (q, a)
  else if q.m = 0 ∨ q.n = 0 then ({ q with started := true, stopped := true }, a)
  else if q.flag then
    let i32 := match mmaMode (entFmt q.ea) (entFmt q.eb) with | some (_, i) => i | none => false
    ({ q with started := true },
     { (panel q.m q.n).foldl (fun a (i, j) => a.setElem i j 0) a with i32 := i32, err := 0, pois := false })
  else if a.err ≠ 0 then ({ q with started := true, stopped := true }, a)
  else ({ q with started := true }, a)

/-- R305: the elements that an `mma`'s next step takes along k. -/
def MatCmd.stepKs (q : MatCmd) (g : Nat) : List Nat :=
  (List.range g).filterMap fun i => if g * q.step + i < q.k then some (g * q.step + i) else none

/-- R309: an `mma` reads the units that its next step needs and that it does not hold. -/
def State.readStepUnits (s : State) (q : MatCmd) (ks : List Nat) : MatCmd :=
  let q1 := (List.range q.m).foldl (fun q i => s.readRow q false i ks) q
  (List.range q.n).foldl (fun q j => s.readRow q true j ks) q1

/-- R306: one step of an `mma` that has started. -/
def State.mmaStep (s : State) (q : MatCmd) (a : Acc) : MatCmd × Acc :=
  match mmaMode (entFmt q.ea) (entFmt q.eb) with
  | none => ({ q with stopped := true }, a)
  | some (g, _) =>
    let ks := q.stepKs g
    let q1 := s.readStepUnits q ks
    let as_ := (List.range q.m).map fun i => q1.rowElems false i ks
    let bs := (List.range q.n).map fun j => q1.rowElems true j ks
    let pois := (as_ ++ bs).any (·.2)
    if (as_ ++ bs).any fun r => r.1.isNone then
      ({ q1 with stopped := true }, { a with err := 3, pois := a.pois || pois })
    else
      let get (l : List (Option (List FpNum) × Bool)) (i : Nat) : List FpNum := ((l.getD i (some [], false)).1).getD []
      let a' := (panel q.m q.n).foldl (fun z (i, j) => z.setElem i j (mmaElem a.i32 (a.elem i j) (get as_ i) (get bs j))) a
      ({ q1 with step := q.step + 1 }, { a' with pois := a.pois || pois })

/-- R306: has an `mma` no step left? -/
def MatCmd.spent (q : MatCmd) : Bool := q.started && (q.stopped || decide (q.steps ≤ q.step))

/-- The first command on a context, with its place in the queue. -/
def Core.headOn (x : Core) (ac : Nat) : Option (Nat × MatCmd) :=
  let rec go : Nat → List MatCmd → Option (Nat × MatCmd)
    | _, [] => none
    | i, q :: t => if q.ac = ac then some (i, q) else go (i + 1) t
  go 0 x.matQ

/-- R307: the contexts in the order in which the array turns to them. (DESIGN CHOICE, log entry 22.) -/
def turnOrder (last : Nat) : List Nat := (List.range 4).map fun i => (last + 1 + i) % 4

/-- R307: the context whose step comes next: an `mma` at its head that is not spent. -/
def Core.nextStep (x : Core) : Option Nat :=
  (turnOrder x.matLast).find? fun ac =>
    match x.headOn ac with
    | some (_, q) => q.kind == .mma && !(q.start (x.acc ac)).1.spent
    | none => false

/-- R307: MATRIX_STEP: one step of the context whose turn it is. -/
def State.matrixStep (s : State) (c : Nat) : State :=
  let x := s.core c
  match x.nextStep with
  | none => s
  | some ac =>
    match x.headOn ac with
    | none => s
    | some (i, q) =>
      let st := q.start ((x.claim ac q.group).acc ac)
      let r := s.mmaStep st.1 st.2
      s.setCore c { (x.modAcc ac fun _ => r.2) with matQ := replaceAt x.matQ i r.1, matLast := ac }

/-! The census (R313, R314) -/

/-- R314: NaN, infinite and subnormal elements of a panel of an f32 context. -/
def Acc.counts (a : Acc) (m n : Nat) : Nat × Nat × Nat :=
  if a.i32 then (0, 0, 0)
  else (panel m n).foldl (fun (c : Nat × Nat × Nat) (p : Nat × Nat) =>
    match fmtF32.value (a.elem p.1 p.2).toNat with
    | .nan => (c.1 + 1, c.2.1, c.2.2)
    | .inf _ => (c.1, c.2.1 + 1, c.2.2)
    | .fin _ _ _ => if fmtF32.isSubnormal (a.elem p.1 p.2).toNat then (c.1, c.2.1, c.2.2 + 1) else c) (0, 0, 0)

/-- R314: a saturating counter. -/
def satAdd (a b : Nat) : Nat := min (2 ^ 32 - 1) (a + b)

/-- R314: add counts to a site's entry. -/
def Die.census_ (d : Die) (asp : Nat) (blk : VAddr) (idx nan inf sat unf : Nat) : Die :=
  match Tbl.first? (fun _ e => e.asp == asp && e.blk == blk && e.idx == idx) d.census with
  | some (k, e) =>
    let e' := { e with nan := satAdd e.nan nan, inf := satAdd e.inf inf, sat := satAdd e.sat sat, unf := satAdd e.unf unf }
    { d with census := Tbl.set d.census k e' }
  | none =>
    if nan + inf + sat + unf = 0 then d
    else match leastBelow 256 fun k => (Tbl.find? d.census k).isNone with
      | some k => { d with census := Tbl.set d.census k ⟨blk, idx, asp, satAdd 0 nan, satAdd 0 inf, satAdd 0 sat, satAdd 0 unf⟩ }
      | none => { d with censusOverflow := satAdd d.censusOverflow (nan + inf + sat + unf) }

/-- R301: a context is freed; a later command of its group on it claims it again at once. -/
def Core.freeAcc (x : Core) (ac : Nat) (rest : List MatCmd) : Core :=
  let y := { x with accs := Tbl.erase x.accs ac }
  match rest.find? fun q => q.ac == ac with
  | some q => y.claim ac q.group
  | none => y

/-- R306: MMA_COMPLETE: the `mma` at the head of a context that has no step left completes. -/
def State.mmaComplete (s : State) (c ac : Nat) : State :=
  let x := s.core c
  match x.headOn ac with
  | none => s
  | some (i, q) =>
    if q.kind ≠ .mma then s
    else
      let st := q.start (x.acc ac)
      if !st.1.spent then s
      else
        let done := q.m = 0 ∨ q.n = 0 ∨ st.1.stopped
        let n := if done then (0, 0, 0) else st.2.counts q.m q.n
        (s.setCore c { (x.modAcc ac fun _ => { st.2 with v := true, owner := q.group }) with matQ := removeAt x.matQ i }).modDie
          (dieOf c) fun d => d.census_ q.asp q.blk q.idx n.1 n.2.1 0 n.2.2

/-- R309, R317: a row of `macc.ld`: the units that hold its first N elements are read. -/
def State.ldRow (s : State) (q : MatCmd) (i : Nat) (a : Acc) : Acc :=
  let us := (List.range ((4 * q.n + 7) / 8)).map fun u => s.cmdRead q (q.unitPlace ⟨false, 0, i, u⟩).1 8
  let z := (List.range q.n).foldl (fun a j =>
    a.setElem i j (BitVec.ofNat 32 ((us.getD (j / 2) (0, false)).1 / 2 ^ (32 * (j % 2))))) a
  { z with pois := a.pois || us.any (·.2) }

/-- R317: what `macc.st` writes for an element: its bytes, and whether it is NaN, infinite, saturated or vanishes. -/
def stElem (raw : Bool) (e : Word) (w : Word) : List Byte × Bool × Bool × Bool × Bool :=
  if raw then (natToBytes 4 w.toNat, false, false, false, false)
  else
    let f := match entFmt e with | 0 => fmtE4m3 | 3 => fmtBf16 | 4 => fmtF16 | _ => fmtF32
    let n := fmtBytes (entFmt e)
    match fmtF32.value w.toNat with
    | .nan => (natToBytes n f.canonNaN, true, false, false, false)
    | x =>
      let r := f.roundSat .rne (x.scale (entScale e))
      let isInf := match f.value r.1 with | .inf _ => true | _ => false
      let zero := match f.value r.1 with | .fin _ m _ => m == 0 | _ => false
      let nonzero := match x with | .fin _ m _ => m != 0 | _ => false
      (natToBytes n r.1, false, isInf, r.2, nonzero && zero)

/-- R317: write the element's bytes at its place; with POIS they are marked poisoned. -/
def State.stWrite (s : State) (q : MatCmd) (pois : Bool) (va : Nat) (bs : List Byte) : State :=
  match s.cmdPlace q va with
  | none => s
  | some l =>
    let s1 := s.wr l bs
    if pois then { s1 with poison := (List.range bs.length).foldl (fun p i => insertNat (l + i) p) s1.poison } else s1

/-- R317: the row bytes of a `macc.st`. -/
def MatCmd.stRowBytes (q : MatCmd) (raw : Bool) : Nat := if raw then 128 else fmtRowBytes (entFmt q.ea)

/-- R317: the writes of a row of `macc.st`: where, and what. -/
def MatCmd.stRow (q : MatCmd) (raw : Bool) (a : Acc) (r : Nat) : List (Nat × List Byte × Bool × Bool × Bool × Bool) :=
  (List.range q.n).map fun j =>
    (q.da.byteAddr (q.stRowBytes raw) 0 r (q.stRowBytes raw / 32 * j), stElem raw q.ea (a.elem r j))

/-- R317: the context of a `macc.ld` or `macc.st` after the row that it handles next. -/
def State.maccAcc (s : State) (x : Core) (q : MatCmd) : Acc :=
  let a := (x.claim q.ac q.group).acc q.ac
  match q.kind with
  | .ld i32 =>
    let a0 := if q.step = 0 then { a with i32 := i32, err := 0, pois := false } else a
    if q.step < q.m then s.ldRow q q.step a0 else a0
  | _ => a

/-- R317: does the row that a `macc.ld` or `macc.st` handles next end it? -/
def MatCmd.lastRow (q : MatCmd) : Bool := q.n == 0 || decide (q.m ≤ q.step + 1)

/-- R314, R317: the counts of a `macc.st`: NaN, infinite, saturated and vanished elements. -/
def MatCmd.stCounts (q : MatCmd) (raw : Bool) (a : Acc) : Nat × Nat × Nat × Nat :=
  let outs := (List.range q.m).flatMap fun r => (q.stRow raw a r).map (·.2.2)
  ((outs.filter (·.1)).length, (outs.filter (·.2.1)).length, (outs.filter (·.2.2.1)).length, (outs.filter (·.2.2.2)).length)

/-- R317: MACC_COMPLETE: the `macc.ld` or `macc.st` at the head of a context handles its next row, the rows in order one act each,
and completes with the last of them. -/
def State.maccComplete (s : State) (c ac : Nat) : State :=
  let x := s.core c
  match x.headOn ac with
  | none => s
  | some (i, q) =>
    let rest := removeAt x.matQ i
    let a := s.maccAcc x q
    let kept := if q.lastRow then rest else replaceAt x.matQ i { q with step := q.step + 1 }
    match q.kind with
    | .mma => s
    | .ld _ => s.setCore c { (x.modAcc ac fun _ => a) with matQ := kept }
    | .st raw =>
      -- R265: the row waits for the atomics that have taken their places at its bytes
      if q.step < q.m && s.atomicFirst ((q.stRow raw a q.step).filterMap fun o => (s.cmdPlace q o.1).map fun l =>
          (⟨l, o.2.1.length, false⟩ : Seg)) then s else
      let s1 := (if q.step < q.m then q.stRow raw a q.step else []).foldl (fun s o => s.stWrite q a.pois o.1 o.2.1) s
      if q.lastRow then
        let n := q.stCounts raw a
        (s1.modCore c fun y => { (if q.flag then y.freeAcc ac rest else y.claim ac q.group) with matQ := rest }).modDie
          (dieOf c) fun d => d.census_ q.asp q.blk q.idx n.1 n.2.1 n.2.2.1 n.2.2.2
      else s1.modCore c fun y => { y.claim ac q.group with matQ := kept }

/-! Gangs (R310-R312) -/

/-- The entry of a rank in a die's latch. -/
def Die.latchOf (d : Die) (grid rope rank : Nat) : Option LatchEntry :=
  d.latch.find? fun e => e.grid == grid && e.rope == rope && e.rank == rank

/-- The gang register of the group of a latch entry. -/
def State.gangOf (s : State) (e : LatchEntry) : List Nat := (s.group e.cmd.core e.cmd.group).gang

/-- R310: the members of a round that is complete: every rank that one entry's gang lists is in the latch. -/
def State.gangRound (s : State) (d grid rope : Nat) : Option (List LatchEntry) :=
  (s.die d).latch.findSome? fun e =>
    if e.grid = grid ∧ e.rope = rope then
      let ms := (s.gangOf e).map fun r => (s.die d).latchOf grid rope r
      if ms.all Option.isSome && !ms.isEmpty then some (ms.filterMap id) else none
    else none

/-- R311: the tests that a round must pass. -/
def State.gangAgrees (s : State) (ms : List LatchEntry) : Bool :=
  match ms with
  | [] => false
  | e :: _ =>
    ms.all (fun x => s.gangOf x == s.gangOf e && x.cmd.n == e.cmd.n && x.cmd.k == e.cmd.k && x.cmd.flag == e.cmd.flag
      && x.cmd.db == e.cmd.db) && e.cmd.db.base.toNat / 2 ^ 48 == 0xf0 && decide (e.cmd.db.base.toNat % 2 ^ 48 < 2 ^ 26)

/-- The command at the port that a latch entry came from. -/
def LatchEntry.port (e : LatchEntry) : EngCmd := ⟨e.cmd.slot, e.cmd.idx, .mgang 0, .none, e.t1⟩

/-- R311: the B operand as the lowest listed rank's array reads it once and broadcasts it. -/
def State.broadcast (s : State) (e : LatchEntry) : Tbl (Nat × Bool) :=
  let q := e.cmd
  ((List.range ((q.k + 31) / 32)).foldl (fun q t => (List.range q.n).foldl (fun q r =>
    if q.fmtOf true = 2 then s.readEx8 q true t r
    else s.readUnits q ((List.range (fmtRowBytes (q.fmtOf true) / 8)).map fun u => ⟨true, t, r, u⟩)) q) q).units

/-- R311: the gang of a rope completes its round: performed by every member's array, or refused with code 11. A member whose
context another group has claimed meanwhile is refused with code 9 (DESIGN CHOICE, log entry 55). -/
def State.gangComplete (s : State) (d grid rope : Nat) : State :=
  match s.gangRound d grid rope with
  | none => s
  | some ms =>
    let s1 := s.modDie d fun x => { x with latch := x.latch.filter fun e => !ms.contains e }
    let agree := s.gangAgrees ms
    let low := bestBy (fun (x y : LatchEntry) => decide (x.rank < y.rank)) ms
    let units := match low with | some e => s.broadcast e | none => []
    ms.foldl (fun s e =>
      let c := e.cmd.core
      let a := (s.core c).acc e.cmd.ac
      if !agree then s.refusePort c e.port .engine (engDetail 11 e.cmd.idx e.cmd.ac 0xd4) doneTok
      else if a.v && a.owner != e.cmd.group then
        s.refusePort c e.port .engine (engDetail 9 e.cmd.idx e.cmd.ac 0xd4) doneTok
      else
        (s.modCore c fun x =>
          let y := x.claim e.cmd.ac e.cmd.group
          { y with matQ := y.matQ ++ [{ e.cmd with units := units }] }).finishPort c e.port 0
            doneTok nullTok) s1

/-- R312: has the time of a latch entry run out? EN and LIMIT are those of `bar.timeout`; LIMIT 0 acts as 1. -/
def timedOut (barTimeout : DWord) (since now : Nat) : Bool :=
  barTimeout.getLsbD 63 && decide (max 1 (barTimeout.toNat % 2 ^ 32) ≤ now - since)

/-- R312: LATCH_TIMEOUT: the member's entry leaves the latch, refused with code 12. -/
def State.latchTimeout (s : State) (c sl : Nat) : State :=
  match (s.die (dieOf c)).latch.find? fun e => e.cmd.core == c && e.cmd.slot == sl with
  | none => s
  | some e =>
    if timedOut (s.group c e.cmd.group).barTimeout e.arrived (s.group c e.cmd.group).clock then
      (s.modDie (dieOf c) fun x => { x with latch := x.latch.filter (· != e) }).refusePort c e.port .engine
        (engDetail 12 e.cmd.idx e.cmd.ac 0xd4) doneTok
    else s

end Sys2Proof.Machine
end

