-- ==== Sys2Proof/Machine/TemporalArray.lean ====
section
/-! DEFINITION. The temporal arrays (R320-R333): launches, ticks, the array's commands and their refusal. -/

namespace Sys2Proof.Machine

/-- The number of cell (k, j) (R320). -/
def cellNum (k j : Nat) : Nat := 32 * k + j
/-- A delay code. -/
def Temporal.delay (t : Temporal) (k j : Nat) : BitVec 10 := Tbl.get 1023 t.dly (cellNum k j)
/-- An input code. -/
def Temporal.input (t : Temporal) (k : Nat) : BitVec 10 := Tbl.get 1023 t.inp k
/-- A capture word. -/
def Temporal.capture (t : Temporal) (j : Nat) : BitVec 16 := Tbl.get 0xffff t.out j
/-- Set a delay code. -/
def Temporal.setDelay (t : Temporal) (k j : Nat) (c : BitVec 10) : Temporal :=
  { t with dly := Tbl.set t.dly (cellNum k j) c }
/-- Set an input code. -/
def Temporal.setInput (t : Temporal) (k : Nat) (c : BitVec 10) : Temporal :=
  { t with inp := Tbl.set t.inp k c }
/-- Set a capture word. -/
def Temporal.setOut (t : Temporal) (j : Nat) (c : BitVec 16) : Temporal :=
  { t with out := Tbl.set t.out j c }

/-- R322: the term of cell (k, j): none when it is NEVER. -/
def Temporal.term (t : Temporal) (k j : Nat) : Option Nat :=
  let a := (t.input k).toNat
  let d := t.delay k j
  let w := t.w.toNat
  if w ≤ a ∨ d = 1023 ∨ w ≤ a + d.toNat then none else some (a + d.toNat)

/-- R323: the time and the winning row of a column; none is NEVER. -/
def Temporal.column (t : Temporal) (j : Nat) : Option (Nat × Nat) :=
  let ts := (List.range 32).map fun k => (t.term k j, k)
  let vs : List (Nat × Nat) := ts.filterMap fun (x, k) => x.map fun v => (v, k)
  if t.mode.getLsbD j then
    (if vs.length < 32 then none else bestBy (fun x y => decide (y.1 < x.1)) vs)
  else bestBy (fun x y => decide (x.1 < y.1)) vs

/-- R324: a capture word. -/
def captureWord : Option (Nat × Nat) → BitVec 16
  | none => 0xffff
  | some (v, w) => BitVec.ofNat 16 (v % 1024 + 1024 * w)

/-- R323: a launch. -/
def Temporal.launch (t : Temporal) (chain : Bool) : Temporal :=
  let cols := (List.range 32).map fun j => (j, t.column j)
  let t1 := cols.foldl (fun u (j, r) => u.setOut j (captureWord r)) t
  if chain then cols.foldl (fun u (j, r) => u.setInput j (match r with | some (v, _) => BitVec.ofNat 10 v | none => 1023)) t1
  else t1

/-! Acceptance (R331-R333) -/

/-- R332: the control token of `tload`: ROW0, CNT, and whether a bit that must be zero is set. -/
def tloadCtl (v : DWord) (sel : Bool) : Nat × Nat × Bool :=
  let n := v.toNat
  let row := bitsOf n 4 0
  let cnt := bitsOf n 10 5
  (row, cnt, decide (2 ^ 11 ≤ n) || (sel && n % 2 ^ 11 != 0))

/-- R332: the bytes that `tload` names. -/
def tloadBytes (sel : Bool) (v : DWord) : Nat := if sel then 64 else 64 * (tloadCtl v sel).2.1

/-- The opcode of a temporal command. -/
def tempOpcode : EngOp → Nat
  | .twin _ _ => 0xd9 | .tload _ _ _ => 0xda | .tlaunch _ => 0xdb | .tcap _ => 0xdc | .trst => 0xdd | .tcode _ _ => 0xde
  | _ => 0xdf

/-- R333: is the command refused with code 14? -/
def tempBad : EngOp → Bool
  | .twin a _ => a.toNat % 1024 == 0 || decide (1024 ≤ a.toNat)
  | .tload sel _ ctl => let x := tloadCtl ctl sel; x.2.2 || (!sel && decide (32 < x.1 + x.2.1))
  | .tcode _ v => let n := v.toNat; decide (2 ^ 11 ≤ n) || (n / 2 ^ 10 % 2 == 1 && bitsOf n 9 5 != 0)
  | _ => false

/-- R326: is the array offline? -/
def TempArray.offline (t : TempArray) : Bool := t.tick == 3

/-- R326, R333: is the command refused as unavailable? CODE is 1 when LOST is 1, and 2 when the array is offline. -/
def tempUnavailable (t : TempArray) : EngOp → Option Nat
  | .tlaunch _ => if t.st.lost then some 1 else if t.offline then some 2 else none
  | .tcap _ => if t.st.lost then some 1 else none
  | .tval _ => if t.st.lost then some 1 else none
  | _ => none

/-- The array's command that an accepted instruction becomes. -/
def tempOpOf : EngOp → TempOp
  | .twin a b => .twin (a.setWidth 10) (b.setWidth 32)
  | .tload sel segs ctl => .tload sel segs (tloadCtl ctl sel).1 (if sel then 1 else (tloadCtl ctl sel).2.1)
  | .tlaunch chain => .tlaunch chain
  | .tcap segs => .tcap segs
  | .trst => .trst
  | .tcode v sel =>
    let n := sel.toNat
    .tcode (n / 2 ^ 10 % 2 == 1) (bitsOf n 4 0) (bitsOf n 9 5) (BitVec.ofNat 10 (min v.toNat 1023))
  | .tval j => .tval (j.toNat % 32)
  | _ => .trst

/-- R463: the temporal arrays of a die that hold a command. -/
def State.activeTemporals (s : State) (d : Nat) : Nat :=
  ((coresOf d).filter fun c => !(s.core c).temp.queue.isEmpty).length

/-- R329, R463: does the port accept a temporal command? -/
def State.tempAdmits (s : State) (c : Nat) (op : EngOp) : Bool :=
  let q := (s.core c).temp.queue
  decide (q.length < 8)
    && (match op with
        | .tlaunch _ => !q.isEmpty || decide (s.activeTemporals (dieOf c) < (s.die (dieOf c)).cap 17 9)
        | _ => true)

/-- R329, R333: accept a temporal command, or refuse it. `tval` emits when it completes, the others now. -/
def State.acceptTemp (s : State) (c : Nat) (k : EngCmd) : State :=
  let a := (s.core c).temp
  let g := (s.thread c k.slot).group
  let opc := tempOpcode k.op
  if a.owner ≠ some g then s.refusePort c k .engine (engDetail 13 k.idx 0 opc) nullTok
  else if tempBad k.op then s.refusePort c k .engine (engDetail 14 k.idx 0 opc) nullTok
  else match tempUnavailable a k.op with
    | some code => s.refusePort c k .temporalUnavailable (engDetail code k.idx 0 opc) nullTok
    | none =>
      let op := tempOpOf k.op
      let s1 := s.modCore c fun x =>
        { x with temp := { x.temp with queue := x.temp.queue ++ [⟨op, k.slot, k.idx, k.t0, k.t1, none, []⟩] } }
      match op with
      | .tval _ => s1.modInst c k.slot fun x => (x.perform k.idx)
      | .tcode _ _ _ code => s1.finishPort c k 0 doneTok (dword code.toNat)
      | _ => s1.finishPort c k 0 doneTok nullTok

/-! Performing -/

/-- R20, R325: the picoseconds of a tick. -/
def tickPs (tick : BitVec 2) : Nat := if tick = 0 then 250 else if tick = 1 then 500 else 1000

/-- R20, R329: the clk that a command takes from its start; of a launch, those of one attempt. -/
def TempArray.lasts (a : TempArray) (c : Nat) (op : TempOp) : Nat :=
  let lat (segs : List Seg) : Nat := if segs.all fun g => g.len == 0 || decide (spLoc c 0 ≤ g.loc ∧ g.loc + g.len ≤ spLoc c (2 ^ 18)) then 6 else 24
  match op with
  | .tlaunch _ => 8 + (a.st.w.toNat * tickPs a.tick + 999) / 1000
  | .tload _ segs _ rows => lat segs + rows
  | .tcap segs => lat segs + 1
  | .twin _ _ | .trst | .tcode _ _ _ _ | .tval _ => 1

/-- R329: has the time of the command at the head of the queue passed? -/
def TempArray.headOver (a : TempArray) (c now : Nat) : Bool :=
  match a.queue with
  | q :: _ => (match q.start with | some t => decide (t + a.lasts c q.op ≤ now) | none => false)
  | [] => false

/-- Change the array of a core. -/
def State.modTemp (s : State) (c : Nat) (f : TempArray → TempArray) : State :=
  s.modCore c fun x => { x with temp := f x.temp }

/-- R329: TEMPORAL_COMMAND_START: the first command starts, once the one before it has completed. -/
def State.tempStart (s : State) (c : Nat) : State :=
  match (s.core c).temp.queue with
  | q :: t =>
    if q.start.isSome then s
    else s.modTemp c fun a => { a with queue := { q with start := some s.clk } :: t }
  | [] => s

/-- R330: the bytes of a list of places, in order, as a command of a thread reads them now; those that it holds are not read again. -/
def State.cmdBytes (s : State) (c : Nat) (q : TempCmd) (segs : List Seg) : List (Byte × Bool) :=
  let ls := segLocs segs
  (ls.zip (List.range ls.length)).map fun (l, i) => (Tbl.find? q.units i).getD (s.opByte c q.slot l)

/-- The halfwords of a list of bytes; one of a poisoned byte is marked. -/
def halfwords : List (Byte × Bool) → List (Nat × Bool)
  | x :: y :: t => (x.1.toNat + 256 * y.1.toNat, x.2 || y.2) :: halfwords t
  | _ => []

/-- R330: what a `tload` loads: the halfwords of its places; a poisoned unit loads its bits as read. -/
def State.loadWords (s : State) (c : Nat) (q : TempCmd) : List (Nat × Bool) :=
  match q.op with
  | .tload _ segs _ _ => halfwords (s.cmdBytes c q segs)
  | _ => []

/-- R332: the codes that `tload` loads: (index, code). -/
def loadCodes (t : Temporal) (sel : Bool) (row0 : Nat) (hs : List (Nat × Bool)) : Temporal :=
  let put (u : Temporal) (i : Nat) (h : Nat × Bool) : Temporal :=
    let c := BitVec.ofNat 10 h.1
    let v := if sel then u.setInput i c else u.setDelay (row0 + i / 32) (i % 32) c
    { v with pois := v.pois || h.2 }
  (hs.zip (List.range hs.length)).foldl (fun u (h, i) => put u i h) t

/-- R332: the effect of a command other than `tlaunch` and `tcap` on the state, from the halfwords that a `tload` reads. -/
def Temporal.apply (t : Temporal) (hs : List (Nat × Bool)) : TempOp → Temporal
  | .twin w mode => { t with w := w, mode := mode }
  | .tload sel _ row0 _ => loadCodes t sel row0 hs
  | .tlaunch chain => t.launch chain
  | .tcap _ => t
  | .trst => Temporal.reset
  | .tcode input k j c => if input then t.setInput k c else t.setDelay k j c
  | .tval _ => t

/-- The head command leaves the queue; an array that then holds none is idle from now. -/
def TempArray.pop (a : TempArray) (clk : Nat) : TempArray := { a with queue := a.queue.drop 1, idleSince := clk }

/-- R332: `tcap` writes the bytes of some places of its capture words, marked poisoned while POIS is 1. -/
def State.tcapBytes (s : State) (t : Temporal) (segs : List Seg) (ns : List Nat) : State :=
  let bs := (List.range 32).flatMap fun j => natToBytes 2 (t.capture j).toNat
  let ls := segLocs segs
  ns.foldl (fun s n => match ls[n]? with
    | none => s
    | some l =>
      let s1 := s.wr l [bs.getD n 0]
      if t.pois then { s1 with poison := insertNat l s1.poison } else s1) s

/-- R330, R332: `tcap` writes what it has not written yet. -/
def State.tcapWrite (s : State) (t : Temporal) (q : TempCmd) (segs : List Seg) : State :=
  s.tcapBytes t segs ((List.range 64).filter fun n => (Tbl.find? q.units n).isNone)

/-- R330: one 8-byte unit of the command that the array performs is read, or written, by itself. -/
def State.tempUnit (s : State) (c n : Nat) : State :=
  let a := (s.core c).temp
  match a.queue with
  | [] => s
  | q :: rest =>
    let ns := (List.range 8).map (8 * n + ·)
    let keep (u : Tbl (Byte × Bool)) : State → State := fun s =>
      s.modTemp c fun a => { a with queue := { q with units := u } :: rest }
    if q.start.isNone || ns.any fun i => (Tbl.find? q.units i).isSome then s
    else match q.op with
      | .tload _ segs _ _ =>
        if s.atomicFirst segs || segLen segs < 8 * n + 8 then s
        else keep (ns.foldl (fun u i => Tbl.set u i ((s.cmdBytes c q segs).getD i (0, false))) q.units) s
      | .tcap segs =>
        if s.atomicFirst segs || 8 ≤ n then s
        else keep (ns.foldl (fun u i => Tbl.set u i (0, false)) q.units) (s.tcapBytes a.st segs ns)
      | _ => s

/-- R329: TEMPORAL_COMMAND_COMPLETE: a started command other than a launch completes once its time has passed. -/
def State.tempComplete (s : State) (c : Nat) : State :=
  let a := (s.core c).temp
  match a.queue with
  | q :: _ =>
    if !a.headOver c s.clk then s
    else match q.op with
      | .tlaunch _ => s
      | .tcap segs =>
        -- R265: the writes wait for the atomics that have taken their places at these bytes
        if s.atomicFirst segs then s else (s.tcapWrite a.st q segs).modTemp c fun a => a.pop s.clk
      | .tval j =>
        let w := a.st.capture j
        (s.modTemp c fun a => a.pop s.clk).finishPort c ⟨q.slot, q.idx, .trst, q.t0, q.t1⟩ 0
          (dword (w.toNat / 1024)) (dword (w.toNat % 1024))
      | op => s.modTemp c fun a => { (a.pop s.clk) with st := a.st.apply (s.loadWords c q) op }
  | [] => s

/-- R326: every tick change writes a trace record. -/
def State.tickRecord (s : State) (c : Nat) : State :=
  let a := (s.core c).temp
  let ctx := match a.owner with | some g => (s.grid (s.group c g).grid).ctx | none => 255
  s.offer (dieOf c) ⟨s.tsc (dieOf c), c, 5, ctx, BitVec.ofNat 32 (a.tick.toNat + a.margin.toNat * 4), a.retry.setWidth 64, 0, none⟩

/-- R20, R325, R326: TLAUNCH_ATTEMPT_END, once the attempt's time has passed: a match writes the results; a mismatch slows the tick
and tries again from the start, or takes the array offline, when the launch writes nothing, sets LOST and completes. -/
def State.tlaunchEnd (s : State) (c : Nat) (mismatch : Bool) : State :=
  let a := (s.core c).temp
  match a.queue with
  | q :: rest =>
    if q.start.isNone then s
    else match q.op with
      | .tlaunch chain =>
        if a.offline then s.modTemp c fun a => { (a.pop s.clk) with st := { a.st with lost := true } }
        else if !a.headOver c s.clk then s
        else if !mismatch then s.modTemp c fun a => { (a.pop s.clk) with st := a.st.launch chain }
        else
          let s1 := s.modTemp c fun a =>
            { a with tick := a.tick + 1, retry := a.retry + 1, queue := { q with start := some s.clk } :: rest }
          let s2 := if (s1.core c).temp.offline
            then s1.modTemp c fun a => { (a.pop s.clk) with st := { a.st with lost := true } } else s1
          s2.tickRecord c
      | _ => s
  | [] => s

/-- R20, R329: at the end of a clk the command whose time has passed completes, a launch with its results (a mismatch is
TLAUNCH_ATTEMPT_END's argument, in that clk). -/
def State.settleTemporals (s : State) : State :=
  (s.cores.map (·.1)).foldl (fun s c =>
    if (s.core c).temp.headOver c s.clk then (s.tlaunchEnd c false).tempComplete c else s) s

/-- R326: TICK_REPLAN: in an idle window of at least 100 µs (100,000 clk) the monitors set a tick and a margin; a margin
that fails at 1,000 ps takes the array offline (TICK 11). -/
def State.tickReplan (s : State) (c tick margin : Nat) : State :=
  let a := (s.core c).temp
  if a.queue.isEmpty && decide (a.idleSince + 100000 ≤ s.clk) && !a.offline then
    let s1 := s.modTemp c fun a => { a with tick := BitVec.ofNat 2 tick, margin := BitVec.ofNat 8 margin }
    if (s1.core c).temp.tick = a.tick then s1 else s1.tickRecord c
  else s

/-- R326: TEMPORAL_ARRAY_RESET: a management reset brings an offline array back, with the tick of calibration. -/
def State.tempReset (s : State) (c : Nat) : State :=
  if (s.core c).temp.offline then
    (s.modTemp c fun a =>
      { a with tick := Config.calibratedTick c, margin := Config.calibratedMargin c, idleSince := s.clk }).tickRecord c
  else s

end Sys2Proof.Machine
end

