-- ==== Sys2Proof/Machine/SummitHeap.lean ====
section
/-! DEFINITION. The summit heap as its instructions meet it (R355-R387): tasks and their states, handles and gains, and what
the engine port does with a heap instruction. The heap's own steps stand in Sys2Proof/Machine/HeapSteps.lean. -/

namespace Sys2Proof.Machine

/-! Gains and tasks -/

/-- R362: is the pattern a valid gain: finite and not negative (−0 is accepted)? -/
def validGain (w : Word) : Bool :=
  match fmtF32.value w.toNat with
  | .fin neg m _ => !neg || m == 0
  | _ => false

/-- R362: a valid gain as it is stored: −0 as +0. -/
def storeGain (w : Word) : Word := if w.toNat % 2 ^ 31 = 0 then 0 else w

/-- R372: fx. -/
def fx (g : Word) : Int :=
  match fmtF32.value g.toNat with
  | .fin false m e => min (intOf .rtz false m (e + 32)) (2 ^ 64 - 1)
  | _ => 0

/-- R363: is a task pending? -/
def Task.pending (t : Task) : Bool := !t.running && !t.drained && t.g != 0 && t.c == 0
/-- R372: a task's contribution to the residual. -/
def Task.contribution (t : Task) : Int := if t.pending then fx t.g else 0
/-- R375: does a task count as pending or running? -/
def Task.activeCount (t : Task) : Int := if t.pending || t.running then 1 else 0

/-- R361: a handle's die and index. -/
def handleDie (h : Word) : Nat := h.toNat / 2 ^ 29
def handleIdx (h : Word) : Nat := h.toNat % 2 ^ 24
/-- R361: the handle of an index of a die. -/
def handleOf (die idx : Nat) : Word := BitVec.ofNat 32 (die * 2 ^ 29 + idx)

/-- R361: the task that a valid handle of a heap grid names. -/
def State.taskOf (s : State) (hg : HeapGrid) (h : Word) : Option Task :=
  if hg.mask.getLsbD (handleDie h) && bitsOf h.toNat 28 24 == 0 && decide (handleIdx h < hg.cap) then
    Tbl.find? (s.die (handleDie h)).heap.tasks (handleIdx h)
  else none

/-- R371: the result of a gain operation on an old value: 0 add, 1 max, 2 set; none when it is refused. -/
def gainOp (k : Nat) (old v : Word) : Option Word :=
  if !validGain v then none
  else
    match k with
    | 0 =>
      let r := fmtF32.round .rne (sumNum .rne [fmtF32.value old.toNat, fmtF32.value v.toNat])
      if r = fmtF32.inf then none else some (storeGain (BitVec.ofNat 32 r))
    | 1 => some (if (fmtF32.value old.toNat).lt (fmtF32.value v.toNat) then storeGain v else old)
    | _ => some (storeGain v)

/-- R387: the detail word of a heap fault. -/
def heapDetail (code : Nat) (handle : Word) (idx : Nat) : DWord :=
  BitVec.ofNat 64 (code + handle.toNat * 16 + idx * 2 ^ 36)

/-! At the engine port -/

/-- R374, R387: the heap grid of a thread, when its die takes part. -/
def State.heapGridOf (s : State) (c sl : Nat) : Option HeapGrid :=
  match (s.gridOf c sl).heap with
  | some h => if h.mask.getLsbD (dieOf c) then some h else none
  | none => none

/-- R383: send an operation to a die's heap, which performs it `delay` clk from now; its reply takes as long again. -/
def State.sendHeap (s : State) (c : Nat) (k : EngCmd) (die delay : Nat) (op : HeapOp) : State :=
  s.modDie die fun d =>
    { d with heap := { d.heap with queue := d.heap.queue ++ [⟨c, k.slot, k.idx, op, s.clk + delay, delay, k.t0, k.t1⟩] } }

/-- R383: the distance of a heap in clk. -/
def heapDelay (c die : Nat) : Nat := if dieOf c = die then 20 else 100

/-- R361, R383: an operation on a handle: sent to its heap, which judges the handle again when it performs it; one on a handle that is
not valid now goes to the heap of the issuing die, which judges it 20 clk later. -/
def State.sendHandle (s : State) (c : Nat) (k : EngCmd) (handle : Word) (op : HeapOp) : State :=
  match s.heapGridOf c k.slot with
  | none => s.sendHeap c k (dieOf c) 20 (.refuse 1 handle)
  | some hg =>
    match s.taskOf hg handle with
    | some _ => s.sendHeap c k (handleDie handle) (heapDelay c (handleDie handle)) op
    | none => s.sendHeap c k (dieOf c) 20 op

/-- R383: accept `hspawn`: the frame is read now; a poisoned frame sends nothing. (DESIGN CHOICE, log entry 55.) -/
def State.acceptHspawn (s : State) (c : Nat) (k : EngCmd) (segs : List Seg) (b : DWord) : State :=
  match s.readForThread c k.slot segs with
  | none => s.refusePort c k .poison (heapDetail 0 0 k.idx) nullTok
  | some bs =>
    let s1 := s.seeOwn c k.slot segs
    match s.heapGridOf c k.slot with
    | none => s1.sendHeap c k (dieOf c) 20 (.refuse 1 0)
    | some _ => s1.sendHeap c k (dieOf c) 20 (.spawn bs (b.setWidth 32) (bitsOf b.toNat 55 32))

/-- R385: accept `hresid`: the home register is read 24 or 100 clk later. -/
def State.acceptHresid (s : State) (c : Nat) (k : EngCmd) : State :=
  match s.heapGridOf c k.slot with
  | none => s.sendHeap c k (dieOf c) 20 (.refuse 1 0)
  | some hg =>
    let home := (leastBelow 8 fun d => hg.mask.getLsbD d).getD 0
    let due := s.clk + (if home = dieOf c then 24 else 100)
    { s with replies := s.replies ++ [⟨c, k.slot, k.idx, due, none, none, true, none, k.t0, k.t1⟩] }

/-- R386: accept `hself`. -/
def State.acceptHself (s : State) (c : Nat) (k : EngCmd) : State :=
  match (s.thread c k.slot).task with
  | some (h, g) => s.finishPort c k 0 (dword g.toNat) (dword h.toNat)
  | none => s.finishPort c k 0 (dword 0) (dword (2 ^ 32 - 1))

/-! `cvt.ch` at the engine port (R205, R206) -/

/-- R206: the places of `n` bytes of the group's allocation. -/
def allocSegs (c : Nat) (g : Group) (off n : Nat) : List Seg := [⟨spLoc c (g.spBase + off), n, false⟩]

/-- R206: `n` bytes of the allocation, word by word, as a relaxed read of the thread; none when a word is poisoned. -/
def State.allocRead (s : State) (c sl off n : Nat) : Option (List Byte) :=
  let g := s.groupOf c sl
  (List.range (n / 4)).foldl (fun acc i =>
    match acc, s.readForThread c sl (allocSegs c g (off + 4 * i) 4) with
    | some bs, some w => some (bs ++ w)
    | _, _ => none) (some [])

/-- R242, R265: must a word that `cvt.ch` would read wait for a store of its thread that covers part of it, or for an atomic? -/
def State.cvtWaits (s : State) (c sl : Nat) (a b : DWord) : Bool :=
  let g := s.groupOf c sl
  let e := (s.core c).entry (b.toNat % 32)
  let off := a.toNat % 2 ^ 18
  !chanError e (s.thread c sl).group && entFmt e == 2
    && (List.range 13).any fun i =>
      decide (off + 4 * i + 4 ≤ g.spSize) && !s.readMay c sl (allocSegs c g (off + 4 * i) 4)

/-- R254: the read of `cvt.ch` takes bytes of its thread's entries. -/
def State.seeCvt (s : State) (c sl : Nat) (a b : DWord) : State :=
  let g := s.groupOf c sl
  let e := (s.core c).entry (b.toNat % 32)
  let off := a.toNat % 2 ^ 18
  if chanError e (s.thread c sl).group || entFmt e != 2 || g.spSize ≤ off then s
  else s.seeOwn c sl (allocSegs c g off (min 52 (g.spSize - off)))

/-- What the decoding of a `cvt.ch` element gives: a value, a fault code of R206, or poison. -/
inductive ChVal where
  | value (x : FpNum)
  | code (d : Nat)
  | poison
deriving DecidableEq, Repr

/-- R205: the element that `cvt.ch` decodes, scaled. -/
def State.chValue (s : State) (c sl : Nat) (a b : DWord) : ChVal :=
  let g := s.groupOf c sl
  let e := (s.core c).entry (b.toNat % 32)
  if chanError e (s.thread c sl).group then .code 1
  else if entFmt e ≠ 2 then .value ((fmtValue (entFmt e) a.toNat).scale (entScale e))
  else
    let off := a.toNat % 2 ^ 18
    if off % 4 ≠ 0 || decide (g.spSize < off + 4) then .code 2
    else match s.allocRead c sl off 4 with
      | none => .poison
      | some h =>
        let n := 4 * ex8Words (ex8Len (bytesToNat h))
        if g.spSize < off + n then .code 2
        else match s.allocRead c sl off (max n 4) with
          | none => .poison
          | some bs =>
            match ex8Decode (bytesToNat bs) with
            | none => .code 3
            | some ps => .value ((fmtValue 2 (ps.getD (bitsOf b.toNat 12 8) 0)).scale (entScale e))

/-- R205, R206, R254: accept `cvt.ch`: its result 6 clk later, 12 for an ex8 entry that is no channel error; a fault gives the canonical
NaN and 1. (DESIGN CHOICE, log entry 55.) -/
def State.acceptCvt (s0 : State) (c : Nat) (k : EngCmd) (m : CvtMod) (a b : DWord) : State :=
  let s := s0.seeCvt c k.slot a b
  let e := (s.core c).entry (b.toNat % 32)
  let lat := if !chanError e (s.thread c k.slot).group && entFmt e == 2 then 12 else 6
  let num := b.toNat % 32
  let nan := (cvtNum m.dest m.rnd .nan).1
  let bad (cause : Cause) (code : Nat) : State :=
    (s.modInst c k.slot fun x => x.addFault ⟨cause, k.idx, 0, engDetail code k.idx num 0x7b⟩).finishPort c k lat
      (predTok true) (dword nan)
  match s.chValue c k.slot a b with
  | .value x => let r := cvtNum m.dest m.rnd x; s.finishPort c k lat (predTok r.2) (dword r.1)
  | .code d => bad .engine d
  | .poison => bad .poison 0

end Sys2Proof.Machine
end

