-- ==== Sys2Proof/Machine/Port.lean ====
section
/-! DEFINITION. The engine port of a core (R119, R189): it accepts the instructions that reach it in their order, each when
its unit admits it. -/

namespace Sys2Proof.Machine

/-- R189, R285, R307, R310, R329, R242: does the unit of a command accept it now? -/
def State.admits (s : State) (c : Nat) (k : EngCmd) : Bool :=
  let g := (s.thread c k.slot).group
  match k.op with
  | .cpy _ ch segs => s.copyAdmits c k ch segs
  | .mma _ _ ctl _ _ => s.matAdmits c g .mma (matCtlOf ctl)
  | .maccLd i32 _ ctl _ => s.matAdmits c g (.ld i32) (matCtlOf ctl)
  | .maccSt raw _ ctl _ => s.matAdmits c g (.st raw) (matCtlOf ctl)
  | .twin _ _ | .tload _ _ _ | .tlaunch _ | .tcap _ | .trst | .tcode _ _ | .tval _ => s.tempAdmits c k.op
  | .cvtch _ a b => !s.cvtWaits c k.slot a b
  | .hspawn segs _ => s.readMay c k.slot segs
  -- R308, R315: while the array holds eight commands the port accepts no matrix command
  | .mgang _ | .mchan _ => decide (s.matHeld c < 8)
  | .cwptr _ _ | .cchan _ _ | .hgain _ _ _ | .hdep _ | .hresid | .hself => true

/-- R189: the port accepts a command. -/
def State.acceptCmd (s : State) (c : Nat) (k : EngCmd) : State :=
  match k.op with
  | .cpy coll ch segs => s.acceptCopy c k coll ch segs
  | .cwptr acq ch => s.acceptCwptr c k acq ch
  | .cchan ch free => s.acceptCchan c k ch free
  | .mma a b ctl ra rb => s.acceptMat c k .mma a b ctl ra rb
  | .maccLd i32 a ctl ra => s.acceptMat c k (.ld i32) a 0 ctl ra 0
  | .maccSt raw a ctl ra => s.acceptMat c k (.st raw) a 0 ctl ra 0
  | .mgang v => s.acceptMgang c k v
  | .mchan v => s.acceptMchan c k v
  | .twin _ _ | .tload _ _ _ | .tlaunch _ | .tcap _ | .trst | .tcode _ _ | .tval _ => s.acceptTemp c k
  | .cvtch m a b => s.acceptCvt c k m a b
  | .hspawn segs b => s.acceptHspawn c k segs b
  | .hgain n h v => s.sendHandle c k h (.gain n h v)
  | .hdep h => s.sendHandle c k h (.dep h)
  | .hresid => s.acceptHresid c k
  | .hself => s.acceptHself c k

/-- R189: ENGINE_PORT_ACCEPT: the command that reached the port first is accepted, if its unit admits it. -/
def State.acceptHead (s : State) (c : Nat) : State :=
  match (s.core c).port with
  | [] => s
  | k :: rest =>
    if s.admits c k then (s.modCore c fun x => { x with port := rest }).acceptCmd c k else s

/-- R119, R189: a command reaches the port; the port takes it at once when no command stands before it. How many it accepts in one clk
is left open: any number while none is held. (DESIGN CHOICE, log entry 4.) -/
def State.toPort (s : State) (c : Nat) (k : EngCmd) : State :=
  let idle := (s.core c).port.isEmpty
  let s1 := s.modCore c fun x => { x with port := x.port ++ [k] }
  if idle then s1.acceptHead c else s1

/-- The firing reaches the port with a command: its tokens are consumed, its PE is taken for `busy` clk, and its results come from
the unit. -/
def State.engineFor (s : State) (busy : Nat) (t1 t0 : Target) (op : EngOp) : State :=
  (s.fireWith busy id).toPort s.cur.core ⟨s.cur.slot, s.cur.idx, op, t0, t1⟩

/-- The firing reaches the port with a command. -/
def State.engine (s : State) (t1 t0 : Target) (op : EngOp) : State := s.engineFor 1 t1 t0 op

/-- R129, R237: a command that a null operand (or the squash of its instance) keeps from being sent: it emits null and
counts as performed. -/
def State.engineNull (s : State) (t1 t0 : Target) : State :=
  (s.emit 1 0 t1 t0 nullTok nullTok).modInst s.cur.core s.cur.slot fun x => x.perform s.cur.idx

/-- R129: an engine command without an address port, with its data operands. -/
def State.engineOp (s : State) (t1 t0 : Target) (ops : List Token) (op : EngOp) : State :=
  if s.runs ops then (s.pin ops).engine t1 t0 op else s.engineNull t1 t0

/-! Commands with an address port -/

/-- R238: what the check of an engine command's address found: it passed, with the places it names and its checked row
lengths, or it is a fault of a cause, address and detail. -/
inductive AddrCheck where
  | pass (segs : List Seg) (ra rb : Nat)
  | fault (cause : Cause) (va : Nat) (detail : DWord)
deriving DecidableEq, Repr

/-- R238, R304: the check has passed: the places stand in the instance until the command fires. -/
def State.passAddr (s : State) (segs : List Seg) (ra rb : Nat) : State :=
  let c := s.cur.core
  let sl := s.cur.slot
  let r : Req := { (newReq s.cur.idx .descriptor 0 ra nullTok .none .none) with
    segs := segs, stage := .ready, cmp := BitVec.ofNat 128 rb }
  (s.modInst c sl fun x => { x with reqs := x.reqs ++ [r] }).judgedAt c sl s.cur.idx

/-- R238: a command with address ports: first its address is checked, then, when R238 lets it fire, it goes to the port.
A null on a port that the check needs leaves nothing to check. (DEDUCED, log entry 43.) -/
def State.engineAddr (s : State) (t1 t0 : Target) (needs rest : List Token) (check : State → AddrCheck)
    (op : List Seg → Nat → Nat → EngOp) : State :=
  match s.curInst? with
  | none => s
  | some x =>
    let c := s.cur.core
    let sl := s.cur.slot
    let idx := s.cur.idx
    if !x.judged.contains idx && !s.squashed then
      if needs.any (·.null) then s.judgedAt c sl idx
      else match check s with
        | .pass segs ra rb => s.passAddr segs ra rb
        | .fault cause va detail => s.failRequest c sl idx ⟨cause, idx, BitVec.ofNat 64 va, detail⟩ t1 t0 false
    else if s.runs (needs ++ rest) then
      match x.req? idx with
      | none => s
      | some r => (s.modInst c sl fun y => y.dropReq idx).engine t1 t0 (op r.segs r.bytes r.cmp.toNat)
    else (s.engineNull t1 t0).modInst c sl fun y => y.dropReq idx

end Sys2Proof.Machine
end

