-- ==== Sys2Proof/Machine/EngineInstr.lean ====
section
/-! DEFINITION. The instructions that issue through the engine port: `cvt.ch` (0x7b), the copy, matrix and temporal commands
(0xd0-0xdf), and the heap instructions (0xe8-0xef). -/

namespace Sys2Proof.Machine

/-- The group of the firing's thread. -/
def State.curGroup (s : State) : Group := s.groupOf s.cur.core s.cur.slot
/-- The number of the group of the firing's thread. -/
def State.curGroupNum (s : State) : Nat := s.curThread.group
/-- The value of a dword operand. -/
def State.opVal (s : State) (p : PortSel) : DWord := (s.opTok p).data.setWidth 64

/-- `cvt.ch` (R200, R205, R206): an f64 destination occupies the PE for 4 clk. (DEDUCED, log entry 33.) -/
def execCvtCh (m : CvtMod) (t1 t0 : Target) (s : State) : Res :=
  let ops := [s.opTok .a, s.opTok .b]
  .next (if s.runs ops && s.guardTrue then
      (s.pin (s.opTok .c :: ops)).engineFor (if m.dest = .f64 then 4 else 1) t1 t0 (.cvtch m (s.opVal .a) (s.opVal .b))
    else (s.pin (s.opTok .c :: ops)).emit (if m.dest = .f64 then 4 else 1) 1 t1 t0 nullTok nullTok)

/-! Copies (R296-R298) -/

/-- R296: the check of a descriptor's address: the decode, the alignment, the ownership, in this order. -/
def State.copyAddr (s : State) (a : Nat) : AddrCheck :=
  let c := s.cur.core
  let bad (cause : Cause) (why : Nat) : AddrCheck := .fault cause a (memDetail s.cur.idx 0 0 why)
  match spPlace c s.curGroup a with
  | .error why => bad .permission why
  | .ok loc =>
    if a % 64 ≠ 0 then bad .alignment 7
    else if spOwned s (s.aspOf c s.cur.slot) a loc then .pass [⟨loc, 64, false⟩] 0 0
    else bad .permission 5

/-- `cpy` (R297). -/
def execCpy (ch : BitVec 4) (t1 t0 : Target) (s : State) : Res :=
  .next (s.engineAddr t1 t0 [s.opTok .a] [] (fun s => s.copyAddr (s.opTok .a).lo) fun segs _ _ => .cpy false ch.toNat segs)

/-- `cpy.coll` (R297, R299). -/
def execCpyColl (ch : BitVec 4) (t1 t0 : Target) (s : State) : Res :=
  .next (s.engineAddr t1 t0 [s.opTok .a] [] (fun s => s.copyAddr (s.opTok .a).lo) fun segs _ _ => .cpy true ch.toNat segs)

/-- `cwptr` (R297). -/
def execCwptr (acq : Bool) (ch : BitVec 4) (t1 t0 : Target) (s : State) : Res :=
  .next (s.engineOp t1 t0 [s.opTok .a] (.cwptr acq ch.toNat))

/-- `cchan` (R297). -/
def execCchan (ch : BitVec 4) (t1 t0 : Target) (s : State) : Res :=
  .next (s.engineOp t1 t0 [s.opTok .a] (.cchan ch.toNat (s.opTok .a).pred))

/-! Matrix commands (R304, R315) -/

/-- R304: the row bytes of an operand's extent (`extentCode`), and the fault of its first byte that may not be reached. -/
def State.extentCheck (s : State) (kind : MatKind) (d : OpDesc) (rows tiles : Nat) : Nat × Option (Nat × Nat) :=
  let c := s.cur.core
  let len := extentRow kind d ((s.core c).entry d.ch) s.curGroupNum
  (extentCode len, s.extentWhy c (s.aspOf c s.cur.slot) s.curGroup d (len.getD 0) rows tiles)

/-- R304: the check of an operand of `macc.ld` or `macc.st`, whose rows lie in one tile. -/
def State.maccCheck (s : State) (kind : MatKind) (access : Nat) : AddrCheck :=
  let r := s.extentCheck kind (opDescOf (s.opTok .a).data) (matCtlOf (s.opVal .c)).m 1
  match r.2 with
  | some (va, why) => .fault .permission va (memDetail s.cur.idx access 0 why)
  | none => .pass [] r.1 0

/-- R304: the check of the operands of `mma`, A before B. -/
def State.mmaCheck (s : State) : AddrCheck :=
  let t := matCtlOf (s.opVal .c)
  let tiles := (t.k + 31) / 32
  let ra := s.extentCheck .mma (opDescOf (s.opTok .a).data) t.m tiles
  let rb := s.extentCheck .mma (opDescOf (s.opTok .b).data) t.n tiles
  match ra.2, rb.2 with
  | some (va, why), _ => .fault .permission va (memDetail s.cur.idx 0 0 why)
  | none, some (va, why) => .fault .permission va (memDetail s.cur.idx 0 0 why)
  | none, none => .pass [] ra.1 rb.1

/-- `mma` (R306, R315). -/
def execMma (t1 : Target) (s : State) : Res :=
  let a := (s.opTok .a).data
  let b := (s.opTok .b).data
  let ctl := s.opVal .c
  .next (s.engineAddr t1 .none [s.opTok .a, s.opTok .b, s.opTok .c] [] State.mmaCheck fun _ ra rb => .mma a b ctl ra rb)

/-- `macc.ld` (R317). -/
def execMaccLd (i32 : Bool) (t1 : Target) (s : State) : Res :=
  let a := (s.opTok .a).data
  let ctl := s.opVal .c
  .next (s.engineAddr t1 .none [s.opTok .a, s.opTok .c] [] (fun s => s.maccCheck (.ld i32) 0)
    fun _ ra _ => .maccLd i32 a ctl ra)

/-- `macc.st` (R317). -/
def execMaccSt (raw : Bool) (t1 : Target) (s : State) : Res :=
  let a := (s.opTok .a).data
  let ctl := s.opVal .c
  .next (s.engineAddr t1 .none [s.opTok .a, s.opTok .c] [] (fun s => s.maccCheck (.st raw) 1)
    fun _ ra _ => .maccSt raw a ctl ra)

/-- `mgang` (R318). -/
def execMgang (t1 t0 : Target) (s : State) : Res := .next (s.engineOp t1 t0 [s.opTok .a] (.mgang (s.opVal .a)))

/-- `mchan` (R318). -/
def execMchan (t1 t0 : Target) (s : State) : Res := .next (s.engineOp t1 t0 [s.opTok .a] (.mchan (s.opVal .a)))

/-! Temporal commands (R331, R332) -/

/-- R332: the check of the `n` bytes of `tload` or `tcap`: a multiple of 8, then the windows, in pieces of 64 bytes. -/
def State.tempAddr (s : State) (a n access : Nat) : AddrCheck :=
  let c := s.cur.core
  let bad (cause : Cause) (va why : Nat) : AddrCheck := .fault cause va (memDetail s.cur.idx access 0 why)
  if a % 8 ≠ 0 then bad .alignment a 7
  else
    match (List.range (n / 64)).findSome? fun i =>
        spRunWhy s c (s.aspOf c s.cur.slot) s.curGroup (a + 64 * i) 64 with
    | some (va, why) => bad .permission va why
    | none =>
      match spPlace? c s.curGroup a with
      | some loc => .pass [⟨loc, n, false⟩] 0 0
      | none => .pass [] 0 0

/-- `twin` (R332). -/
def execTwin (t1 : Target) (s : State) : Res :=
  .next (s.engineOp t1 .none [s.opTok .a, s.opTok .b] (.twin (s.opVal .a) (s.opVal .b)))

/-- `tload` (R332). -/
def execTload (sel : Bool) (t1 : Target) (s : State) : Res :=
  let ctl := s.opVal .c
  .next (s.engineAddr t1 .none [s.opTok .a, s.opTok .c] [] (fun s => s.tempAddr (s.opTok .a).lo (tloadBytes sel ctl) 0)
    fun segs _ _ => .tload sel segs ctl)

/-- `tlaunch` (R332). -/
def execTlaunch (chain : Bool) (t1 : Target) (s : State) : Res :=
  .next (s.engineOp t1 .none [s.opTok .a] (.tlaunch chain))

/-- `tcap` (R332). -/
def execTcap (t1 : Target) (s : State) : Res :=
  .next (s.engineAddr t1 .none [s.opTok .a] [] (fun s => s.tempAddr (s.opTok .a).lo 64 1) fun segs _ _ => .tcap segs)

/-- `trst` (R332). -/
def execTrst (t1 : Target) (s : State) : Res := .next (s.engineOp t1 .none [s.opTok .a] .trst)

/-- `tcode` (R332). -/
def execTcode (t1 t0 : Target) (s : State) : Res :=
  .next (s.engineOp t1 t0 [s.opTok .a, s.opTok .b] (.tcode (s.opVal .a) (s.opVal .b)))

/-- `tval` (R332). -/
def execTval (t1 t0 : Target) (s : State) : Res := .next (s.engineOp t1 t0 [s.opTok .a] (.tval (s.opVal .a)))

/-! Heap instructions (R382-R386) -/

/-- `hspawn` (R383): the frame's address is judged as a read of 64 aligned bytes of coherent memory or scratchpad. -/
def execHspawn (t1 t0 : Target) (s : State) : Res :=
  let c := s.cur.core
  let sl := s.cur.slot
  let idx := s.cur.idx
  let a := s.opTok .a
  let judged := match s.curInst? with | some x => x.judged.contains idx | none => true
  if !judged && !s.squashed then
    .next (if a.null then s.judgedAt c sl idx
      else (s.modInst c sl fun y =>
        { y with reqs := y.reqs ++ [newReq idx .frame a.lo 64 nullTok t1 t0] }).judgeReq c sl idx)
  else
    .next (s.engineAddr t1 t0 [a] [s.opTok .b] (fun _ => .pass [] 0 0) fun segs _ _ => .hspawn segs (s.opVal .b))

/-- R371: a gain operation. -/
def State.gainInstr (s : State) (k : Nat) (t1 t0 : Target) : State :=
  s.engineOp t1 t0 [s.opTok .a, s.opTok .b]
    (.hgain k ((s.opTok .a).data.setWidth 32) ((s.opTok .b).data.setWidth 32))

/-- `hgain.add` (R371). -/
def execHgainAdd (t1 t0 : Target) (s : State) : Res := .next (s.gainInstr 0 t1 t0)
/-- `hgain.max` (R371). -/
def execHgainMax (t1 t0 : Target) (s : State) : Res := .next (s.gainInstr 1 t1 t0)
/-- `hgain.set` (R371). -/
def execHgainSet (t1 t0 : Target) (s : State) : Res := .next (s.gainInstr 2 t1 t0)

/-- `hdep` (R369): port b carries order, where it is connected. -/
def execHdep (t1 t0 : Target) (s : State) : Res :=
  .next (s.engineOp t1 t0 (s.opTok .a :: (s.opTok? .b).toList) (.hdep ((s.opTok .a).data.setWidth 32)))

/-- `hdone` (R384): the decision to finish the task, with the operand where port a carries one. -/
def execHdone (s : State) : Res :=
  .next (s.settle [] (.hdone (match s.opTok? .a with
    | some t => if t.null then none else some (t.data.setWidth 32)
    | none => none)))

/-- `hresid` (R385). -/
def execHresid (t1 t0 : Target) (s : State) : Res := .next (s.engineOp t1 t0 [s.opTok .a] .hresid)

/-- `hself` (R386). -/
def execHself (t1 t0 : Target) (s : State) : Res := .next (s.engineOp t1 t0 [s.opTok .a] .hself)

end Sys2Proof.Machine
end

