-- ==== Sys2Proof/Machine/CommitEngine.lean ====
section
/-! DEFINITION. Atomic regions from their aborts to their commits (R343-R349): replay, the commit engine and its line locks,
the serial token, and the machine steps COMMIT_ENGINE_START, LINE_LOCK_GRANTED and SERIAL_TOKEN_GRANT. -/

namespace Sys2Proof.Machine

/-! Aborts (R346) -/

/-- R348: the replayed region of a thread runs serialised when enough counted aborts stand. -/
def State.rearmSerial (s : State) (c sl k : Nat) : State :=
  if s.runsSerial c sl then
    (s.modCore c fun x => x.modRegion k fun r => { r with ser := true }).queueSerial c sl
  else s

/-- R346: the region of a thread aborts: an explicit abort leaves by the abort path, the other causes replay it; the thread is filed
from a clk on. -/
def State.abortFrom (s : State) (c sl from_ cause : Nat) (code : BitVec 8) : State :=
  match s.openRegion c sl with
  | none => s
  | some (k, r) =>
    let s1 := s.rollback c sl cause
    if cause = 6 then
      ((s1.freeRegion c sl).modThread c sl fun t => { t with aborts := 0, abortCode := code, place := .free }).fileFrom c sl from_
        r.abortPath
    else
      ((s1.modThread c sl fun t => { t with aborts := min 255 (t.aborts + 1), place := .free }).rearmSerial c sl k).fileFrom
        c sl from_ r.entry

/-- R346: the region of a thread aborts, and the thread is filed at the end of the clk. -/
def State.abortRegion (s : State) (c sl cause : Nat) (code : BitVec 8) : State := s.abortFrom c sl s.clk cause code

/-! The commit engine (R343, R345) -/

/-- The bytes of a place list as a number, read under the lock; poisoned bytes as the bits read. -/
def State.lockedRead (s : State) (gs : List Seg) : Quad :=
  BitVec.ofNat 128 (bytesToNat ((segLocs gs).map fun l => if s.poisoned l 1 then Config.poisonByte l else memRead s.mem l))

/-- R343: the stale inputs of a region are read again; the flag says that a pinned one has changed. -/
def State.rereadInputs (s : State) (ins : List RInput) : List RInput × Bool :=
  (ins.map fun i => if i.stale then { i with v := s.lockedRead i.segs, stale := false } else i,
   ins.any fun i => i.stale && i.pin && s.lockedRead i.segs != i.v)

/-- The value of a tag under a region's inputs. -/
def tagValue (ins : List RInput) (tag : Nat × DWord) : DWord :=
  (match ins[tag.1]? with | some i => i.v.setWidth 64 | none => 0) + tag.2

/-- R343: the bytes that a buffered entry writes. -/
def RStore.bytesUnder (e : RStore) (ins : List RInput) : List Byte :=
  match e.record with
  | some tag => natToBytes e.bytes (tagValue ins tag).toNat
  | none => natToBytes e.bytes e.data.toNat

/-- R345: the entries of a region are performed on the lines that it holds: the stores as one event, then its cache operations. -/
def State.performEntries (s : State) (c : Nat) (ins : List RInput) (es : List RStore) : State :=
  let isCache (e : RStore) : Bool := e.kind == .cwb || e.kind == .cinv
  let s1 := (es.filter fun e => !isCache e).foldl (fun s e => s.performStore (dieOf c) e.segs (e.bytesUnder ins)) s
  (es.filter isCache).foldl (fun s e => s.performCache (dieOf c) (e.kind == .cinv) e.segs) s1

/-- R343, R144: the pairs of tagged slots take their values. -/
def State.settleTags (s : State) (c sl : Nat) (ins : List RInput) (tags : Tbl (Nat × DWord)) : State :=
  tags.foldl (fun s (i, tag) =>
    (s.modThread c sl fun t => t.setPair i (tagValue ins tag)).modCore c fun x => x.queueWrites sl [i, i + 1]) s

/-- Release the line locks of a core's region context. -/
def State.unlockAll (s : State) (c k : Nat) : State :=
  { s with locks := s.locks.filter fun (_, x, y) => !(x == c && y == k) }

/-- R144: have the banks room for the writes of a region's tagged slots? -/
def Core.tagRoom (x : Core) (r : Region) : Bool := x.roomFor (r.tags.flatMap fun e => [e.1, e.1 + 1])

/-- R340, R343: the cause, 1 or 2, that ends a region whose lines are locked, if it may not commit. -/
def State.commitAborts (s : State) (r : Region) : Option Nat :=
  let re := s.rereadInputs r.inputs
  if re.2 then some 1
  else if r.constraints.any fun q => !q.holds (match re.1[q.input]? with | some i => i.v.setWidth 64 | none => 0) then some 2
  else none

/-- R344: the clk from the last lock of a region to its end: one for each input that is read again, and one for each written line where
it commits. -/
def State.commitTime (s : State) (r : Region) : Nat :=
  (r.inputs.filter (·.stale)).length + (if (s.commitAborts r).isNone then r.writeLines.length else 0)

/-- R144, R343, R344: the end of the commit engine's run, with every line locked: it commits the region or aborts it, once the banks have
room for its slots; the thread is filed in the clk after the locks are released. -/
def State.finishCommit (s : State) (c : Nat) (run : CommitRun) : State :=
  let sl := run.slot
  let s0 := s.modCore c fun x => { x with commit := none }
  match s.openRegion c sl with
  | none => s0
  | some (k, r) =>
    if !(s.core c).tagRoom r || !(s.core c).roomAll then s
    else match s.commitAborts r with
      | some cause => (s0.unlockAll c k).abortFrom c sl (s.clk + 1) cause 0
      | none =>
        let ins := (s.rereadInputs r.inputs).1
        let s1 := (s0.performEntries c ins r.stores).unlockAll c k
        let s2 := (s1.settleTags c sl ins r.tags).freeRegion c sl
        ((s2.modThread c sl fun t => { t with aborts := 0, place := .free }).noteIdem c sl false run.target).fileFrom c sl
          (s.clk + 1) run.target

/-- The region context that holds a line's lock. -/
def State.holder (s : State) (l : Nat) : Option (Nat × Nat) :=
  (s.locks.find? fun (x, _, _) => x == l).map fun (_, c, k) => (c, k)
/-- The serialised region that holds a line's lock, with its core and thread slot. -/
def State.serialHolder (s : State) (l : Nat) : Option (Nat × Nat) :=
  match s.holder l with
  | some (c, k) => match Tbl.find? (s.core c).regions k with
    | some r => if r.ser then some (c, r.slot) else none
    | none => none
  | none => none

/-- R343: the lines that the commit of a region locks, ascending. -/
def Region.lines (r : Region) : List Nat := (r.readLines ++ r.writeLines).foldl (fun acc l => insertNat l acc) []

/-- R348: does the commit of a thread's region wait for another, serialised, region to end? -/
def State.commitYields (s : State) (c sl : Nat) : Bool :=
  match s.openRegion c sl with
  | some (_, r) => r.lines.any fun l => match s.serialHolder l with | some p => p != (c, sl) | none => false
  | none => false

/-- R343, R348: the commit that the engine of a core takes next: the first of its queue, or, while that one waits for a serialised region
to end, the first serialised one behind it. -/
def State.nextRegion (s : State) (c : Nat) : Option (Nat × VAddr) :=
  match (s.core c).commitQ with
  | [] => none
  | q :: rest =>
    if s.commitYields c q.1 then
      rest.find? fun p => match s.openRegion c p.1 with | some (_, r) => r.ser | none => false
    else some q

/-- R343, R345: the engine takes the next commit of its core once the thread's store buffer is empty and its earlier deferred loads are
performed, as a release at device scope asks (R251). -/
def State.commitStart (s : State) (c : Nat) : State :=
  let x := s.core c
  match x.commit, s.nextRegion c with
  | none, some (sl, target) =>
    let rest := x.commitQ.filter (· != (sl, target))
    if !(x.thread sl).buf.isEmpty || !(x.thread sl).deferred.isEmpty then s
    else
      match s.openRegion c sl with
      | none => s.modCore c fun y => { y with commitQ := rest }
      | some (k, r) =>
        let todo := r.lines.filter fun l => !s.locks.contains (l, c, k)
        let run : CommitRun := ⟨sl, target, todo, [], if todo.isEmpty then some (s.clk + s.commitTime r) else none⟩
        s.modCore c fun y => { y with commitQ := rest, commit := some run }
  | _, _ => s

/-! Line locks (R344, R348) -/

/-- R256: does a copy engine own the line? -/
def State.engineOwns (s : State) (l : Nat) : Bool := s.owned.any fun (x, _, _) => x == l

/-- The 128 bytes of a line. -/
def lineSeg (l : Nat) : Seg := ⟨l * 128, 128, false⟩

/-- How an attempt to lock a line ends: it is locked (or the run goes on without it), or it waits. -/
inductive LockStep where
  | granted (s : State)
  | waits (s : State)
deriving DecidableEq, Repr

/-- The state after an attempt. -/
def LockStep.state : LockStep → State
  | .granted s => s
  | .waits s => s

/-- R342, R344: a region of a core has a line locked, held with exclusive ownership in its L1, out of every other. -/
def State.addLock (s : State) (c k l : Nat) : State :=
  let s1 := (s.dropL1 (dieOf c) l (some (s.l1Core c l))).holdL1 c [l]
  { s1 with locks := s1.locks ++ [(l, c, k)] }

/-- R344: the clk that a lock of a free line takes: 1 where the region's L1 holds it, else those of R21 for its home.
(DESIGN CHOICE, log entry 4.) -/
def State.lockTime (s : State) (c l : Nat) : Nat :=
  if (s.core (s.l1Core c l)).l1.contains l then 1 else max 1 (s.readLatency c true [lineSeg l])

/-- R265, R344, R348: the commit engine of a core obtains its next line, with exclusive ownership, after its time, or gives its lines up
to a serialised region and its place to the next one. -/
def State.engineLock (s : State) (c : Nat) : LockStep :=
  match (s.core c).commit with
  | none => .waits s
  | some run =>
    match run.todo, (s.thread c run.slot).region with
    | [], some k =>
      (match Tbl.find? (s.core c).regions k with
       | some r =>
         if s.clk < run.due.getD s.clk || !(s.core c).tagRoom r || !(s.core c).roomAll then .waits s
         else .granted (s.finishCommit c run)
       | none => .waits s)
    | l :: rest, some k =>
      if s.engineOwns l || s.atomicFirst [lineSeg l] then .waits s
      else match s.holder l with
        | some _ =>
          if (s.serialHolder l).isSome then
            .granted ((s.unlockAll c k).modCore c fun x => { x with commit := none, commitQ := (run.slot, run.target) :: x.commitQ })
          else .waits s
        | none =>
          let free : CommitRun := { run with due := some (s.clk + s.lockTime c l) }
          match run.due with
          | none => .granted (s.modCore c fun x => { x with commit := some free })
          | some t =>
            let ob := s.obtain c [lineSeg l] true
            if s.clk < t then .waits s
            else if !ob.2 then .waits ob.1
            else
              let s1 := ob.1.addLock c k l
              let last := match Tbl.find? (s1.core c).regions k with | some r => s.clk + s1.commitTime r | none => s.clk
              let run' : CommitRun := { run with todo := rest, held := run.held ++ [l], due := if rest.isEmpty then some last else none }
              .granted (s1.modCore c fun x => { x with commit := some run' })
    | _, none => .waits s

/-- R348: the request of a thread's serialised region that waits for a line, with that line. -/
def State.serialWants (s : State) (c sl : Nat) : Option (Req × Nat) :=
  match s.openRegion c sl, (s.thread c sl).inst with
  | some (k, r), some x =>
    if r.ser then
      x.reqs.findSome? fun q =>
        if q.stage = .ready then (match s.unlocked c k q.segs with | l :: _ => some (q, l) | [] => none) else none
    else none
  | _, _ => none

/-- R348: the line that a thread's serialised region waits for: one that a request of it needs, or one that an earlier store of the
thread cannot be performed on, which the region's commit awaits. -/
def State.serialWaitLine (s : State) (c sl : Nat) : Option Nat :=
  match s.serialWants c sl with
  | some (_, l) => some l
  | none =>
    match s.openRegion c sl with
    | some (_, r) =>
      if r.ser then ((s.thread c sl).buf.filter (·.committed)).findSome? fun e => (segLines e.segs).find? fun l =>
        match s.serialHolder l with | some p => p != (c, sl) | none => false
      else none
    | none => none

/-- R348: the serialised regions that wait on one another, from a thread on, as core and slot. -/
def State.waitChain (s : State) : Nat → Nat × Nat → List (Nat × Nat)
  | 0, p => [p]
  | fuel + 1, p =>
    p :: (match s.serialWaitLine p.1 p.2 with
      | some l => (match s.serialHolder l with | some q => s.waitChain fuel q | none => [])
      | none => [])

/-- R348: when a serialised region took its token. -/
def State.tokenTime (s : State) (c : Nat) : Nat :=
  match (s.die (dieOf c)).serial with | some (_, _, t) => t.toNat | none => 0

/-- R348: the younger of two serialised regions gives up its lines and will run again from its entry. -/
def State.restartSerial (s : State) (young old : Nat × Nat) : State :=
  match s.openRegion young.1 young.2 with
  | none => s
  | some (k, r) =>
    let was := (s.thread young.1 young.2).abortCause
    let s1 := (s.rollback young.1 young.2 was).modCore young.1 fun x =>
      { (x.modRegion k fun g => { g with ser := true, yieldTo := some old }) with
        port := x.port.filter fun q => q.slot != young.2 }
    (s1.modThread young.1 young.2 fun t => { t with buf := t.buf.filter (·.committed), place := .free }).fileTo young.1
      young.2 r.entry

/-- R348: of the serialised regions of a cycle of waits, the one that took its token last, and the one before it. -/
def State.yieldPair (s : State) (ps : List (Nat × Nat)) : Option ((Nat × Nat) × (Nat × Nat)) :=
  let older (x y : Nat × Nat) : Bool :=
    decide (s.tokenTime x.1 < s.tokenTime y.1) || (s.tokenTime x.1 == s.tokenTime y.1 && decide (dieOf x.1 < dieOf y.1))
  match bestBy (fun x y => older y x) ps, bestBy older ps with
  | some young, some old => if young = old then none else some (young, old)
  | _, _ => none

/-- R348: a serialised region waits for a line that another holds; two that wait on each other's lines are parted. -/
def State.partSerial (s : State) (c sl l : Nat) : LockStep :=
  match s.serialHolder l with
  | some p =>
    let chain := s.waitChain 8 p
    if chain.contains (c, sl) then
      (match s.yieldPair ((c, sl) :: chain.takeWhile fun x => x != (c, sl)) with
       | some (y, o) => .granted (s.restartSerial y o)
       | none => .waits s)
    else .waits s
  | none => .waits s

/-- R344, R348: the serialised region of a thread obtains a line that the thread waits for at fire, with exclusive ownership, after its
time; two that wait on each other's lines are parted. -/
def State.serialLockOf (s : State) (c sl : Nat) : LockStep :=
  match s.serialWants c sl, (s.thread c sl).region with
  | some (q, l), some k =>
    if s.engineOwns l || s.atomicFirst [lineSeg l] then .waits s
    else match s.holder l with
      | some _ => s.partSerial c sl l
      | none =>
        let ob := s.obtain c [lineSeg l] true
        if s.clk < q.due then .waits s
        else if !ob.2 then .waits ob.1
        else
          let s1 := ob.1.addLock c k l
          let whole := (s1.unlocked c k q.segs).isEmpty
          (match q.kind with
           | .store | .storeRel _ | .cwb | .cinv => .granted (if whole then s1.enterBuffer c sl q else s1)
           | _ => .granted s1)
  | _, _ => match s.serialWaitLine c sl with
    | some l => s.partSerial c sl l
    | none => .waits s

/-- R344, R348: the first thread of a core whose serialised region can obtain a line does so. -/
def State.serialLock (s : State) (c : Nat) : LockStep :=
  (s.core c).threads.foldl (fun a e => match a with | .granted t => .granted t | .waits t => t.serialLockOf c e.1) (.waits s)

/-- COMMIT_ENGINE_START (R343). -/
def execCommitEngineStart (s : State) : Res :=
  let core := s.arg 0
  .next (s.commitStart core)

/-- LINE_LOCK_GRANTED (R344, R345, R348). -/
def execLineLockGranted (s : State) : Res :=
  let core := s.arg 0
  .next (match s.engineLock core with
    | .granted s' => s'
    | .waits s' => (s'.serialLock core).state)

/-- R348: the thread that waits for a die's token first: filed first, then lowest slot, then lowest core. -/
def Die.nextSerial (d : Die) : Option (Nat × Nat × Nat) :=
  bestBy (fun (x y : Nat × Nat × Nat) =>
    decide (x.2.2 < y.2.2) || (x.2.2 == y.2.2 && (decide (x.2.1 < y.2.1) || (x.2.1 == y.2.1 && decide (x.1 < y.1)))))
    d.serialWait

/-- SERIAL_TOKEN_GRANT (R348). -/
def execSerialTokenGrant (s : State) : Res :=
  let die := s.arg 0
  .next (match (s.die die).serial, (s.die die).nextSerial with
    | none, some (c, sl, t) =>
      s.modDie die fun d => { d with serial := some (c, sl, s.tsc die), serialWait := d.serialWait.filter (· != (c, sl, t)) }
    | _, _ => s)

end Sys2Proof.Machine
end

