-- ==== Sys2Proof/Machine/GridEnd.lean ====
section
/-! DEFINITION. The end of groups and grids (R43-R45, R394, R395): what a group that leaves a core gives back, what a grid
that ends leaves, and its completion; and the accesses of the device's own units in an address space. -/

namespace Sys2Proof.Machine

/-! Accesses of the device's own units (R14, R393, R412): translated from a root, U not judged, outside the scratchpad windows -/

/-- An access of a unit that walks the tables itself. -/
def State.judgeUnit (s : State) (root : Nat) (row : AccessRow) (va bytes : Nat) : Judged :=
  if va / 2 ^ 48 = 0xf0 ∨ va / 2 ^ 48 = 0xf1 then .bad .permission va 5 0
  else
    let w : Accessor := ⟨0, 0, { Group.reset with root := root }, false, false⟩
    let look (vpn : Nat) : Option DWord :=
      match s.walk root (vpn * 2 ^ 16) with | .found leaf _ => some leaf | _ => none
    match judgeFrom s w row look va bytes 600 0 [] .coherent with
    | .miss vpn segs _ =>
      (match s.walk root (vpn * 2 ^ 16) with
       | .bad why lvl => .bad .translation (va + segLen segs) why lvl
       | .poison lvl => .bad .poison (va + segLen segs) 0 lvl
       | .found _ _ => .bad .translation va 0 0)
    | j => j

/-- The bytes that a unit reads; none when the access fails or the data is poisoned. -/
def State.unitRead (s : State) (root va bytes : Nat) : Option (List Byte) :=
  match s.judgeUnit root .load va bytes with
  | .ok gs _ => if s.segsPoisoned gs then none else some (s.rdSegs gs)
  | _ => none

/-- A unit's write of bytes, at device scope; nothing is written when the access fails. -/
def State.unitWrite (s : State) (root va : Nat) (bs : List Byte) : State :=
  match s.judgeUnit root .store va bs.length with
  | .ok gs _ => s.agentStoreNc 8 gs bs
  | _ => s

/-! Completion (R395) -/

/-- R395: the add of 1 to a completion counter; false when the counter cannot be reached. A counter that R393 rejects for its alignment
gets no add. (DEDUCED, log entry 40.) -/
def State.addDone (s : State) (ctx : Nat) (done : DWord) : State × Bool :=
  if done.toNat % 8 ≠ 0 ∨ done = 0 then (s, true)
  else
    match s.judgeUnit (s.ctxEntry ctx).root (.atomic false) done.toNat 8 with
    | .ok gs _ =>
      if s.atomicPoisoned gs then (s, false)
      else (s.agentStoreNc 8 gs (natToBytes 8 (bytesToNat (s.rdSegs gs) + 1)), true)
    | _ => (s, false)

/-- R395: a record of a queue has completed, or was rejected or killed, with a status. -/
def State.signal (s : State) (q slot ctx : Nat) (done : DWord) (status : Nat) : State :=
  let r := s.addDone ctx done
  let st := if r.2 then status else 12
  r.1.modQueue q fun x =>
    { x with dcnt := x.dcnt + 1, dstat := if st = 0 then x.dstat else st, dslot := if st = 0 then x.dslot else slot }

/-! A group leaves its core -/

/-- The reports that still name a thread of a group: those of the group's threads are dropped (R466). -/
def Report.without (r : Report) (c : Nat) (slots : List Nat) : Option Report :=
  if 3 ≤ r.kind then some r
  else
    let left := r.joined.filter fun (x, y) => !(x == c && slots.contains y)
    if left.isEmpty then none else some { r with joined := left }

/-- The owner field of a channel-table entry replaced (R187). -/
def entSetOwner (e : Word) (g : Nat) : Word := BitVec.ofNat 32 (e.toNat % 2 ^ 17 + g * 2 ^ 17 + e.toNat / 2 ^ 21 * 2 ^ 21)

/-- R189, R286, R301, R321: what a group owns of its core's engines. -/
structure EngineState where
  chan : Tbl Word
  channels : Tbl Channel
  accs : Tbl Acc
  temp : Option Temporal
deriving DecidableEq, Repr

/-- What a group owns of its core's engines. -/
def Core.enginesOf (x : Core) (g : Nat) : EngineState :=
  ⟨x.chan.filter (fun e => entV e.2 && entOwner e.2 == g), x.channels.filter (fun e => e.2.cfg && e.2.owner == g),
   x.accs.filter (fun e => e.2.v && e.2.owner == g), if x.temp.owner = some g then some x.temp.st else none⟩

/-- The engine state of a group put back on a core, at the same numbers, under the group's number there. -/
def Core.putEngines (x : Core) (g : Nat) (e : EngineState) : Core :=
  { x with
    chan := e.chan.foldl (fun t p => Tbl.set t p.1 (entSetOwner p.2 g)) x.chan
    channels := e.channels.foldl (fun t p => Tbl.set t p.1
      { p.2 with owner := g, runs := (x.channel p.1).runs ++ p.2.runs }) x.channels
    accs := e.accs.foldl (fun t p => Tbl.set t p.1 { p.2 with owner := g }) x.accs
    temp := match e.temp with
      | some st => { x.temp with owner := some g, st := st, queue := [] }
      | none => x.temp }

/-- The engine state that a core holds of a group (R43, R284, R301, R321, R187), with its commands and channels, is
freed at a clk. -/
def Core.dropEngines (x : Core) (clk g : Nat) (slots : List Nat) : Core :=
  { x with
    channels := x.channels.filter fun e => !(e.2.cfg && e.2.owner == g)
    accs := x.accs.filter fun e => e.2.owner != g
    chan := x.chan.filter fun e => entOwner e.2 != g
    matQ := x.matQ.filter fun q => q.group != g
    temp := if x.temp.owner = some g then { x.temp with owner := none, st := Temporal.reset, queue := [], idleSince := if x.temp.queue.isEmpty then x.temp.idleSince else clk }
      else x.temp
    port := x.port.filter fun k => !slots.contains k.slot
    commitQ := x.commitQ.filter fun e => !slots.contains e.1
    commit := match x.commit with | some r => if slots.contains r.slot then none else some r | none => none }

/-- A thread slot is freed: its place in a bin, its instance, its region and the slot (R98). -/
def State.dropThread (s : State) (c sl : Nat) : State :=
  let s0 := match (s.thread c sl).inst with
    | some x => s.modCore c fun y => y.modContext x.ctx fun z => { z with idleSince := s.clk }
    | none => s
  let s1 := match (s.thread c sl).region with | some k => s0.unlockAll c k | none => s0
  ((s1.freeRegion c sl).releaseToken c sl).modCore c fun x => (x.unfile sl).freeThread sl

/-- What the device's other units hold of a group's threads is dropped. -/
def State.dropRequests (s : State) (c g : Nat) (slots : List Nat) : State :=
  let mine (x y : Nat) : Bool := x == c && slots.contains y
  let chans := ((s.core c).channels.filter fun e => e.2.cfg && e.2.owner == g).map (·.1)
  let copies := ((s.core c).channels.filter fun e => e.2.cfg && e.2.owner == g).flatMap fun e =>
    e.2.copies.map (·.id) ++ e.2.runs.map (·.copy)
  { s with
    replies := s.replies.filter fun r => !mine r.core r.slot
    cfginvs := s.cfginvs.filter fun (x, y, _) => !mine x y
    owned := s.owned.filter fun (_, x, id) => !(x == c && copies.contains id)
    reports := (s.reports.filter fun r =>
        !(r.kind == 5 && r.joined.any fun (x, ch) => x == c && chans.contains ch)).filterMap (·.without c slots)
    dies := Tbl.mapVals (fun _ d =>
      { d with
        trace := { d.trace with offered := d.trace.offered.filter fun r =>
          match r.who with | some (sl, _, _) => !mine r.src sl | none => true }
        latch := d.latch.filter fun e => !(e.cmd.core == c && e.cmd.group == g)
        tiles := d.tiles.filter fun q => !mine q.core q.slot
        heap := { d.heap with queue := d.heap.queue.filter fun q => !mine q.core q.slot } }) s.dies }

/-- R43: the copies in flight into a range of scratchpad that is freed complete, and their bytes there are discarded. -/
def State.orphanCopies (s : State) (lo n : Nat) : State :=
  { s with cores := Tbl.mapVals (fun _ x => { x with channels := Tbl.mapVals (fun _ ch =>
      { ch with copies := ch.copies.map fun cp => { cp with gone := cp.gone ++ [(lo, n)] },
                runs := ch.runs.map fun r => { r with dead := r.dead || segsMeet r.dst [⟨lo, n, false⟩] } }) x.channels }) s.cores }

/-- A group leaves its core: its slots, scratchpad range, engines and group number are free. -/
def State.removeGroup (s : State) (c g : Nat) : State :=
  let gr := s.group c g
  let s1 := (s.dropRequests c g gr.slots).orphanCopies (spLoc c gr.spBase) gr.spSize
  let s2 := gr.slots.foldl (fun s sl => s.dropThread c sl) s1
  (s2.modCore c fun x => { (x.dropEngines s.clk g gr.slots) with groups := Tbl.erase x.groups g }).modGrid gr.grid fun x =>
    { x with resident := x.resident.filter (· != (c, g)) }

/-! A grid ends -/

/-- R355: the heaps of a grid return to free. -/
def State.freeHeaps (s : State) (gn : Nat) : State :=
  { s with dies := Tbl.mapVals (fun _ d => if d.heap.grid = some gn then { d with heap := { Heap.reset with
             queue := d.heap.queue } } else d) s.dies,
           reports := s.reports.filter fun r => !(r.kind == 4 && (s.die (r.ident.toNat % 2 ^ 11)).heap.grid == some gn) }

/-- How a report names a thread of a group that is saved: the grid and linear group instead of a core (R466).
(DEDUCED, log entry 25.) -/
def savedKey (gn lin : Nat) : Nat := 2 ^ 64 * (gn + 1) + lin

/-- The reports that still name a thread of a grid's saved groups are dropped. (DEDUCED, log entry 25.) -/
def State.dropSavedReports (s : State) (gn : Nat) : State :=
  { s with reports := s.reports.filterMap fun r =>
      if 3 ≤ r.kind then some r
      else
        let left := r.joined.filter fun (k, _) => k / 2 ^ 64 != gn + 1
        if left.isEmpty then none else some { r with joined := left } }

/-- R45, R394, R395: a grid ends with a status: its groups are removed without save, its heaps are free, and its completion
is signalled. -/
def State.endGrid (s : State) (gn status : Nat) : State :=
  match Tbl.find? s.grids gn with
  | none => s
  | some gd =>
    let mine := s.cores.flatMap fun (c, x) => (Tbl.keysWhere (fun _ g => g.grid == gn) x.groups).map fun g => (c, g)
    let s1 := mine.foldl (fun s (c, g) => s.removeGroup c g) s
    let s2 := (s1.freeHeaps gn).dropSavedReports gn
    let s3 : State := { s2 with grids := Tbl.erase s2.grids gn }
    (s3.modQueue gd.queue fun q => { q with open_ := q.open_ - 1 }).signal gd.queue gd.slot gd.ctx gd.launch.done status

/-- R466: every grid of a context ends with a status. -/
def State.endContext (s : State) (ctx status : Nat) : State :=
  (Tbl.keysWhere (fun _ g => g.ctx == ctx) s.grids).foldl (fun s gn => s.endGrid gn status) s

/-! GROUP_RETIRE and GRID_RETIRE -/

/-- R43: has every copy, matrix operation and temporal launch of a group completed? -/
def State.enginesDone (s : State) (c g : Nat) : Bool :=
  let x := s.core c
  let slots := (x.group g).slots
  (x.channels.all fun e => (!(e.2.cfg && e.2.owner == g) || e.2.infl == 0) && e.2.runs.all fun r => r.group != g)
    && (x.matQ.all fun q => q.group != g)
    && !((s.die (dieOf c)).latch.any fun e => e.cmd.core == c && e.cmd.group == g)
    && (x.temp.owner != some g || x.temp.queue.isEmpty)
    && (x.port.all fun k => !slots.contains k.slot)

/-- Has a group not been chosen for a save, or not yet begun its scratchpad pass? (DEDUCED, log entry 41.) -/
def SaveStage.early : SaveStage → Bool
  | SaveStage.none | SaveStage.chosen | SaveStage.saving _ => true
  | _ => false

/-- R43, R358: may a group retire? A carrier group waits for the drain. A group whose last thread retires while it is being
saved retires (DEDUCED, log entry 41). -/
def State.mayRetire (s : State) (c g : Nat) : Bool :=
  match Tbl.find? (s.core c).groups g with
  | none => false
  | some gr =>
    s.enginesDone c g && gr.live == 0 && gr.save.early
      && (!gr.carrier || match (s.grid gr.grid).heap with | some h => h.complete | none => true)

/-- The linear numbers of a rope's groups. -/
def LaunchRec.members (r : LaunchRec) (rope : Nat) : List Nat := (List.range r.ropeG).map (rope * r.ropeG + ·)

/-- R398: a rope whose groups have all been pre-empted, but for those that have retired, is blocked. -/
def State.blockRope (s : State) (gn rope : Nat) : State :=
  s.modGrid gn fun g =>
    let ret := (Tbl.get RopeBar.reset g.ropes rope).retired
    let vs := ((g.launch.members rope).filter fun lin => !ret.contains (lin % g.launch.ropeG)).map fun lin => Tbl.find? g.saved lin
    if !vs.isEmpty && vs.all Option.isSome && !(g.blocked.any fun b => b.rope == rope) then
      { g with blocked := g.blocked ++ [⟨rope, some ((vs.filterMap id).foldl (fun m v => min m v.at_) s.clk)⟩] }
    else g

/-- GROUP_RETIRE (R43, R44): the group counts as arrived at every later phase of its rope's barrier. -/
def execGroupRetire (s : State) : Res :=
  let core := s.arg 0
  let g := s.arg 1
  .next (if s.mayRetire core g then
    let gr := s.group core g
    let gd := s.grid gr.grid
    let rope := gr.lin / gd.launch.ropeG
    (((s.removeGroup core g).modGrid gr.grid fun x =>
      let b := Tbl.get RopeBar.reset x.ropes rope
      { x with retired := x.retired + 1,
               ropes := Tbl.set x.ropes rope { b with retired := insertNat (gr.lin % gd.launch.ropeG) b.retired } }).settleRope
      gr.grid rope).blockRope gr.grid rope
    else s)

/-- R26: the number of groups of a launch. -/
def LaunchRec.groups (r : LaunchRec) : Nat := r.gx * r.gy * r.gz

/-- GRID_RETIRE (R45): the last group has retired. -/
def execGridRetire (s : State) : Res :=
  let grid := s.arg 0
  .next (match Tbl.find? s.grids grid with
    | some gd => if gd.retired = gd.launch.groups ∧ gd.resident = [] then s.endGrid grid 0 else s
    | none => s)

end Sys2Proof.Machine
end

