-- ==== Sys2Proof/Machine/HeapSteps.lean ====
section
/-! DEFINITION. The summit heap at work (R360-R381): the task table, the operations that a heap applies, pops and task
threads, lending, the residual, settling and the drain. -/

namespace Sys2Proof.Machine

/-! The task table (R360) -/

/-- R5, R360: are the bits of an entry that must be zero zero? -/
def entryOk (bs : List Byte) : Bool :=
  fieldAt bs 75 1 == 0 && decide (fieldAt bs 76 4 < 32) && (bs.drop 80).all (· == 0)

/-- R360, R362: the task that an entry's bytes hold; what the table does not hold is taken from `t`. -/
def taskOfEntry (t : Task) (bs : List Byte) : Task :=
  let st := fieldAt bs 76 4
  { t with frame := bs.take 64, g := storeGain (BitVec.ofNat 32 (fieldAt bs 64 4)),
           q := storeGain (BitVec.ofNat 32 (fieldAt bs 68 4)), c := fieldAt bs 72 3, running := st % 4 == 2,
           drained := st % 4 == 3, under := st / 4 % 2 == 1, ran := st / 8 % 2 == 1, valid := st / 16 % 2 == 1 }

/-- STAT of a task. -/
def Task.stat (t : Task) : Nat :=
  (if t.drained then 3 else if t.running then 2 else if t.pending then 1 else 0) + (if t.under then 4 else 0)
    + (if t.ran then 8 else 0) + (if t.valid then 16 else 0)

/-- The bytes of a task's entry. -/
def Task.entryBytes (t : Task) : List Byte :=
  t.frame ++ natToBytes 4 t.g.toNat ++ natToBytes 4 t.q.toNat ++ natToBytes 4 t.c ++ natToBytes 4 t.stat ++ natToBytes 48 0

/-- R360: the address of an entry. -/
def HeapGrid.entryAddr (h : HeapGrid) (die idx : Nat) : Nat := h.tbase.toNat + die * 2 ^ 31 + 128 * idx

/-- R380: how an access of a heap to its tables ends. -/
inductive HeapAccess where
  | ok (s : State) (t : Task)
  | wait (va : Nat) (detail : DWord)
  | dead
deriving DecidableEq, Repr

/-- R380: the failure of a heap's access. -/
def heapFailure (kind : Nat) : Judged → HeapAccess
  | .bad .translation va why lvl => .wait va (memDetail 0 kind lvl why)
  | .bad _ _ _ _ => .dead
  | .miss _ _ _ => .dead
  | .ok _ _ => .dead

/-- The translation root of a grid (R397). -/
def State.gridRoot (s : State) (gn : Nat) : Nat :=
  match (s.grid gn).resident with
  | (c, g) :: _ => (s.group c g).root
  | [] => (s.ctxEntry (s.grid gn).ctx).root

/-- R256, R344, R360: does an access of a heap to a task's entry wait for a line that is locked or owned? -/
def State.entryHeld (s : State) (gn : Nat) (hg : HeapGrid) (die idx : Nat) : Bool :=
  let chip := match Tbl.find? (s.die die).heap.tasks idx with | some t => t.onChip | none => true
  !(chip && Config.heapOnChip (handleOf die idx).toNat s.clk) &&
    match s.judgeUnit (s.gridRoot gn) .load (hg.entryAddr die idx) 128 with
    | .ok gs _ => s.lineHeld gs 0 none
    | _ => false

/-- R5, R360, R380: a task as its heap holds it: on-chip, or read from its entry. An entry that another agent has written with a bit
that must be zero ends the grid as a failed fill does. (DEDUCED, log entry 55.) -/
def State.fetchTask (s : State) (gn : Nat) (hg : HeapGrid) (die idx : Nat) : HeapAccess :=
  match Tbl.find? (s.die die).heap.tasks idx with
  | none => .dead
  | some t =>
    if t.onChip then .ok s t
    else
      let j := s.judgeUnit (s.gridRoot gn) .load (hg.entryAddr die idx) 128
      match j with
      | .ok gs _ => if s.segsPoisoned gs || !entryOk (s.rdSegs gs) then .dead else .ok s (taskOfEntry t (s.rdSegs gs))
      | _ => heapFailure 0 j

/-- The number of on-chip entries of a heap. -/
def Heap.onChipCount (h : Heap) : Nat := (h.tasks.filter fun e => e.2.onChip).length

/-- R360: the heap keeps a task on-chip, within its 65,536 entries, or writes it to its entry: its own choice.
(DESIGN CHOICE, log entry 19.) -/
def State.keepTask (s : State) (gn : Nat) (hg : HeapGrid) (die idx : Nat) (t : Task) : HeapAccess :=
  let was := match Tbl.find? (s.die die).heap.tasks idx with | some u => u.onChip | none => false
  let chip := Config.heapOnChip (handleOf die idx).toNat s.clk
    && (was || decide ((s.die die).heap.onChipCount < 65536))
  let t' := { t with onChip := chip }
  let put (s : State) : State :=
    s.modDie die fun d => { d with heap := { d.heap with tasks := Tbl.set d.heap.tasks idx t' } }
  if chip then .ok (put s) t'
  else
    let j := s.judgeUnit (s.gridRoot gn) .store (hg.entryAddr die idx) 128
    match j with
    | .ok gs _ => .ok (put (s.agentStoreNc 8 gs t.entryBytes)) t'
    | _ => heapFailure 1 j

/-- R380: the heap of a die waits for the driver: a report of kind 4. -/
def State.stallHeap (s : State) (gn die va : Nat) (detail : DWord) : State :=
  (s.modDie die fun d => { d with heap := { d.heap with stalled := true } }).post
    ⟨4, Cause.translation.code, identOf die 0 0 (s.grid gn).ctx, BitVec.ofNat 64 va, 0, detail, [(die, gn)]⟩

/-- R380: what the failed access of a heap leads to: it waits, or the grid ends with status 6. -/
def State.heapFail (s : State) (gn die : Nat) : HeapAccess → State
  | .wait va detail => s.stallHeap gn die va detail
  | _ => s.endGrid gn 6

/-- R367: since when the task's present gain has been pending. -/
def Task.sincePending (old new : Task) (clk : Nat) : Option Nat :=
  if !new.pending then none else if old.pending && old.g == new.g then old.pendSince else some clk

/-! The residual (R372, R373) -/

/-- R373: a change of a task is included in the home register 80 clk later. -/
def State.noteChange (s : State) (gn : Nat) (old new : Task) : State :=
  s.modGrid gn fun g => { g with heap := g.heap.map fun h =>
    { h with incl := h.incl ++
        [(s.clk + 80, new.contribution - old.contribution, new.activeCount - old.activeCount)] } }

/-- A task changes: it is kept, and the change is on its way to the home register. -/
def State.updateTask (s : State) (gn : Nat) (hg : HeapGrid) (die idx : Nat) (old new : Task) : HeapAccess :=
  let new' := { new with pendSince := old.sincePending new s.clk, lent := if new.pending then new.lent else none }
  match s.keepTask gn hg die idx new' with
  | .ok s1 t => .ok (s1.noteChange gn old t) t
  | r => r

/-- R375: the test of the home heap: does the grid settle? -/
def State.settleTest (s : State) (gn : Nat) : State :=
  s.modGrid gn fun g => { g with heap := g.heap.map fun h =>
    if h.settled.isSome then h
    else if h.resid < (h.tol.toNat : Int) then { h with settled := some (s.clk, false), tset := s.tsc ((leastBelow 8 fun d => h.mask.getLsbD d).getD 0) }
    else if h.active = 0 then { h with settled := some (s.clk, true), tset := s.tsc ((leastBelow 8 fun d => h.mask.getLsbD d).getD 0) }
    else h }

/-- R373: the changes that are due are included. -/
def HeapGrid.include (h : HeapGrid) (clk : Nat) : HeapGrid :=
  let now := h.incl.filter fun e => decide (e.1 ≤ clk)
  { h with resid := now.foldl (fun r e => r + e.2.1) h.resid, active := now.foldl (fun r e => r + e.2.2) h.active,
           incl := h.incl.filter fun e => !decide (e.1 ≤ clk) }

/-- R374: the writes of `heap.tol` and `heap.spread` that are due take effect. -/
def HeapGrid.takeWrites (h : HeapGrid) (clk : Nat) : HeapGrid :=
  let now := h.effects.filter fun e => decide (e.1 ≤ clk)
  let h1 := now.foldl (fun h e => if e.2.1 then { h with spread := e.2.2.toNat % 16 } else { h with tol := e.2.2 }) h
  { h1 with effects := h.effects.filter fun e => !decide (e.1 ≤ clk) }

/-- R373-R375: what is due at the home heap in this clk takes effect, and then the one test of the clk is made. -/
def State.homeClk (s : State) (grid : Nat) : State :=
  match (s.grid grid).heap with
  | none => s
  | some h =>
    if (h.incl.any fun e => decide (e.1 ≤ s.clk)) || h.effects.any fun e => decide (e.1 ≤ s.clk) then
      (s.modGrid grid fun g => { g with heap := some ((h.include s.clk).takeWrites s.clk) }).settleTest grid
    else s

/-- RESID_INCLUSION (R373). -/
def execResidInclusion (s : State) : Res :=
  let grid := s.arg 0
  .next (s.homeClk grid)

/-- HEAP_TOL_EFFECT (R374). -/
def execHeapTolEffect (s : State) : Res :=
  let grid := s.arg 0
  .next (s.homeClk grid)

/-! Operations (R365, R369, R371, R383, R387) -/

/-- The reply of an operation that was applied or refused now. -/
def State.answer (s : State) (r : HeapReq) (v1 v0 : Option DWord) (f : Option DWord) : State :=
  let fault : Option ThreadFault := f.map fun d => ⟨.heapFault, r.idx, 0, d⟩
  let s1 : State := { s with replies := s.replies ++
    [⟨r.core, r.slot, r.idx, s.clk + r.delay, v0, v1, false, fault, r.t0, r.t1⟩] }
  s1.modInst r.core r.slot fun x => x.perform r.idx

/-- R387: a refusal. -/
def State.refuseHeap (s : State) (r : HeapReq) (code : Nat) (handle : Word) : State :=
  s.answer r none none (some (heapDetail code handle r.idx))

/-- A task as `hspawn` creates it (R383). -/
def newTask (frame : List Byte) (g : Word) (c : Nat) (clk : Nat) : Task :=
  let t : Task := { frame := frame, g := storeGain g, q := 0, c := c, running := false, drained := false, under := false,
                    ran := false, valid := true, lent := none, pendSince := none, onChip := false }
  { t with pendSince := if t.pending then some clk else none }

/-- A task that was not there, for the account of its creation. -/
def noTask : Task := newTask [] 0 0 0

/-- R383: the entry block address of a frame: are its bits that must be zero zero? -/
def frameOk (frame : List Byte) : Bool := targetOk (fieldAt frame 0 8)

/-- R383: `hspawn` at its heap. -/
def State.applySpawn (s : State) (gn : Nat) (hg : HeapGrid) (die : Nat) (r : HeapReq) (frame : List Byte) (gain : Word)
    (cnt : Nat) : State :=
  let i := (s.die die).heap.nextIdx
  if i = hg.cap then s.refuseHeap r 4 0
  else if !validGain gain then s.refuseHeap r 3 0
  else if !frameOk frame then s.refuseHeap r 8 0
  else
    match s.updateTask gn hg die i noTask (newTask frame gain cnt s.clk) with
    | .ok s1 _ =>
      (s1.modDie die fun d => { d with heap := { d.heap with nextIdx := i + 1 } }).answer r (some 0)
        (some ((handleOf die i).setWidth 64)) none
    | e => s.heapFail gn die e

/-- R371: a gain operation at its heap. -/
def State.applyGain (s : State) (gn : Nat) (hg : HeapGrid) (die : Nat) (r : HeapReq) (k : Nat) (handle v : Word) : State :=
  match s.fetchTask gn hg die (handleIdx handle) with
  | .ok _ t =>
    let old := if t.running then t.q else t.g
    if !t.valid then s.refuseHeap r 2 handle else
    (match gainOp k old v with
     | none => s.refuseHeap r 3 handle
     | some w =>
       match s.updateTask gn hg die (handleIdx handle) t (if t.running then { t with q := w } else { t with g := w }) with
       | .ok s1 _ => s1.answer r (some 0) (some (old.setWidth 64)) none
       | e => s.heapFail gn die e)
  | e => s.heapFail gn die e

/-- R369: `hdep` at its heap. -/
def State.applyDep (s : State) (gn : Nat) (hg : HeapGrid) (die : Nat) (r : HeapReq) (handle : Word) : State :=
  match s.fetchTask gn hg die (handleIdx handle) with
  | .ok _ t =>
    let v0 : DWord := BitVec.ofNat 64 t.c
    let t' := if t.c = 0 then { t with under := true } else { t with c := t.c - 1 }
    if !t.valid then s.refuseHeap r 2 handle else
    (match s.updateTask gn hg die (handleIdx handle) t t' with
     | .ok s1 _ =>
       let s2 := if t.c = 0 then s1.modDie die fun d =>
           { d with heap := { d.heap with under := min (2 ^ 32 - 1) (d.heap.under + 1) } } else s1
       s2.answer r (some 0) (some v0) (if t.c = 0 && hg.utrap then some (heapDetail 5 handle r.idx) else none)
     | e => s.heapFail gn die e)
  | e => s.heapFail gn die e

/-- R365: the place in a heap's queue of the request that it takes next: the earliest arrival, of one clk the lowest core. -/
def Heap.nextReq (h : Heap) (clk : Nat) : Option (Nat × HeapReq) :=
  bestBy (fun x y => decide (x.2.due < y.2.due) || (x.2.due == y.2.due && decide (x.2.core < y.2.core)))
    (((List.range h.queue.length).zip h.queue).filter fun x => decide (x.2.due ≤ clk))

/-- R383: a handle that was not valid when its request left, and is now, names a task of another die: its request goes on to that die's
heap. (DEDUCED, log entry 32.) -/
def State.passOn (s : State) (die i : Nat) (r : HeapReq) (handle : Word) : State :=
  (s.modDie die fun d => { d with heap := { d.heap with queue := removeAt d.heap.queue i } }).modDie (handleDie handle) fun d =>
    { d with heap := { d.heap with queue := d.heap.queue ++ [{ r with due := s.clk + 80, delay := 100 }] } }

/-- R365, R383: the handle whose task an operation of a heap's queue acts on. -/
def HeapOp.handle? : HeapOp → Option Word
  | .gain _ h _ | .dep h => some h
  | _ => none

/-- HEAP_OPERATION_APPLY (R365, R380, R383): a heap applies the request that reached it first. A heap that waits takes none;
a request that only a refusal answers needs no heap. (DEDUCED, log entry 32.) -/
def State.applyHeapOp (s : State) (die : Nat) : State :=
  let h := (s.die die).heap
  match (if h.opAt == some s.clk || h.stalled then none else h.nextReq s.clk) with
  | none => s
  | some (i, r) =>
    let hg? := match h.grid with | some gn => ((s.grid gn).heap).map fun hg => (gn, hg) | none => none
    let other := match r.op.handle?, hg? with
      | some w, some (_, hg) => handleDie w != die && (s.taskOf hg w).isSome
      | _, _ => false
    let held := match r.op.handle?, hg? with
      | some w, some (gn, hg) => s.entryHeld gn hg die (handleIdx w)
      | none, some (gn, hg) => (match r.op with | .spawn _ _ _ => s.entryHeld gn hg die h.nextIdx | _ => false)
      | _, none => false
    if other then s.passOn die i r ((r.op.handle?).getD 0) else if held then s else
    let took := s.modDie die fun d => { d with heap := { d.heap with queue := removeAt d.heap.queue i, opAt := some s.clk } }
    let onHeap (f : State → Nat → HeapGrid → State) : State :=
      match h.grid with
      | none => took.refuseHeap r 1 0
      | some gn =>
        match (s.grid gn).heap with
        | none => took.refuseHeap r 1 0
        | some hg =>
          let s' := f took gn hg
          -- an access that waits leaves the request in the queue
          if (s'.die die).heap.stalled then
            s'.modDie die fun d => { d with heap := { d.heap with queue := h.queue } }
          else s'
    match r.op with
    | .refuse code handle => took.refuseHeap r code handle
    | .spawn frame gain cnt => onHeap fun s gn hg => s.applySpawn gn hg die r frame gain cnt
    | .gain k handle v => onHeap fun s gn hg =>
        (match s.taskOf hg handle with | some _ => s.applyGain gn hg die r k handle v | none => s.refuseHeap r 2 handle)
    | .dep handle => onHeap fun s gn hg =>
        (match s.taskOf hg handle with | some _ => s.applyDep gn hg die r handle | none => s.refuseHeap r 2 handle)

/-- R385: what `hresid` emits: T1 and T0. -/
def HeapGrid.residWords (h : HeapGrid) : DWord × DWord :=
  (BitVec.ofNat 64 (h.resid.toNat / 2 ^ 64 % 2 ^ 32 + (if h.settled.isSome then 2 ^ 63 else 0)),
   BitVec.ofNat 64 (h.resid.toNat % 2 ^ 64))

/-- HEAP_REPLY (R383, R385, R387): a reply returns, and the instruction emits and completes. -/
def execHeapReply (s : State) : Res :=
  let core := s.arg 0
  let slot := s.arg 1
  let idx := s.arg 2
  .next (match s.replies.find? fun r => r.core == core && r.slot == slot && r.idx == idx && decide (r.due ≤ s.clk) with
    | none => s
    | some r =>
      let s1 : State := { s with replies := removeOne r s.replies }
      let words : Option DWord × Option DWord :=
        if r.resid then
          (match (s.gridOf core slot).heap with
           | some h => (some h.residWords.1, some h.residWords.2)
           | none => (none, none))
        else (r.v1, r.v0)
      let tok (v : Option DWord) : Token := match v with | some w => dword w.toNat | none => nullTok
      let s2 := match r.fault with | some f => s1.modInst core slot fun x => x.addFault f | none => s1
      s2.finishPort core ⟨slot, idx, .hself, r.t0, r.t1⟩ 0 (tok words.1) (tok words.2))

/-! Pops and task threads (R364, R366-R368) -/

/-- The carrier slots that a task thread may take: core, group, slot; none that a creation under way has taken. -/
def State.freeCarrierSlots (s : State) (gn die : Nat) : List (Nat × Nat × List Nat) :=
  let taken := s.dies.flatMap fun (_, d) => d.heap.creating.map fun (c, _, sl, _) => (c, sl)
  ((s.grid gn).resident.filter fun (c, _) => dieOf c == die).map fun (c, g) =>
    let x := s.group c g
    (c, g, if x.save = .none then x.slots.filter fun sl => (s.thread c sl).place == .free && !taken.contains (c, sl)
        && !(s.core c).freed.contains sl else [])

/-- R366: the carrier group with the most free slots, of several the lowest core, then the lowest group number. -/
def State.carrierFor (s : State) (gn die : Nat) : Option (Nat × Nat × Nat) :=
  let xs := (s.freeCarrierSlots gn die).filter fun x => !x.2.2.isEmpty
  match bestBy (fun x y => decide (y.2.2.length < x.2.2.length) || (x.2.2.length == y.2.2.length
      && (decide (x.1 < y.1) || (x.1 == y.1 && decide (x.2.1 < y.2.1))))) xs with
  | some (c, g, sl :: _) => some (c, g, sl)
  | _ => none

/-- Is a gain greater than another? -/
def gainAbove (a b : Word) : Bool := (fmtF32.value b.toNat).lt (fmtF32.value a.toNat)

/-- R366, R367: the pending tasks that a die may pop: its own that are not lent, and those lent to it. -/
def State.poppable (s : State) (hg : HeapGrid) (die : Nat) : List (Word × Task) :=
  ((List.range 8).filter fun d => hg.mask.getLsbD d).flatMap fun d =>
    ((s.die d).heap.tasks.filter fun e =>
      e.2.pending && (match e.2.lent with | some b => b == die | none => d == die)).map fun e => (handleOf d e.1, e.2)

/-- R366: the task of largest gain, of several the smallest handle. -/
def popChoice (ts : List (Word × Task)) : Option (Word × Task) :=
  bestBy (fun x y => gainAbove x.2.g y.2.g || (!gainAbove y.2.g x.2.g && decide (x.1.toNat < y.1.toNat))) ts

/-- R367: is a pop of a gain within the spread of every gain that has been pending for 2,000 clk? -/
def State.withinSpread (s : State) (hg : HeapGrid) (g : Word) : Bool :=
  let sp := min hg.spread 8
  sp == 0 || ((List.range 8).filter fun d => hg.mask.getLsbD d).all fun d =>
    (s.die d).heap.tasks.all fun e =>
      match e.2.pendSince with
      | some u =>
        !decide (u + 2000 ≤ s.clk)
          -- (1 − 2^−s) × G ≤ g, in exact numbers
          || !(((fmtF32.value g.toNat).scale sp).lt ((fmtF32.value e.2.g.toNat).mul (.fin false (2 ^ sp - 1) 0)))
      | none => true

/-- R366: may the heaps of a grid still pop? -/
def HeapGrid.popping (h : HeapGrid) (clk : Nat) : Bool :=
  !h.stopped && (match h.settled with | some (t, _) => decide (clk < t + 80) | none => true)

/-- R366, R367: the task that a die pops: the largest of its own and of those lent to it; where that would lie outside the spread, the
balancer lends it the largest of the grid. -/
def State.popTarget (s : State) (hg : HeapGrid) (die : Nat) : Option (Word × Task) :=
  match popChoice (s.poppable hg die) with
  | none => none
  | some x =>
    if s.withinSpread hg x.2.g then some x
    else popChoice (((List.range 8).filter fun d => hg.mask.getLsbD d).flatMap fun d =>
      ((s.die d).heap.tasks.filter fun e => e.2.pending).map fun e => (handleOf d e.1, e.2))

/-- R21, R368: what a spilled task's entry adds to its dispatch. -/
def State.entryLatency (s : State) (gn : Nat) (hg : HeapGrid) (die idx : Nat) (t : Task) : Nat :=
  if t.onChip then 0
  else match s.judgeUnit (s.gridRoot gn) .load (hg.entryAddr die idx) 128 with
    | .ok gs _ => s.readLatency (die * Config.coresPerDie) true gs
    | _ => 0

/-- HEAP_POP (R364-R366): the task leaves the pending set and a task thread is under way; it sees no operation accepted in its own
clk. (DEDUCED, log entry 32.) -/
def State.popTask (s : State) (die : Nat) : State :=
  match (s.die die).heap.grid with
  | none => s
  | some gn =>
    match (s.grid gn).heap with
    | none => s
    | some hg =>
      if (s.die die).heap.stalled || !hg.popping s.clk || (s.die die).heap.popAt == some s.clk
          || (s.die die).heap.opAt == some s.clk then s
      else match s.popTarget hg die, s.carrierFor gn die with
        | some (h, kept), some (c, _, sl) =>
          let own := handleDie h
          if (s.die own).heap.stalled || (s.die own).heap.opAt == some s.clk || s.entryHeld gn hg own (handleIdx h) then s else
          (match s.fetchTask gn hg own (handleIdx h) with
           | .ok _ t =>
             if !t.pending then
               -- another agent's write to the entry: the state that was read stands
               (match s.updateTask gn hg own (handleIdx h) t t with | .ok s1 _ => s1 | e => s.heapFail gn own e)
             else
               let t' := { t with ran := true, q := 0, g := 0, running := true, lent := none }
               (match s.updateTask gn hg own (handleIdx h) t t' with
                | .ok s1 _ =>
                  s1.modDie die fun d => { d with heap := { d.heap with
                    popAt := some s.clk
                    creating := d.heap.creating ++
                      [(c, (s.clk + (if own = die then 12 else 100) + s.entryLatency gn hg own (handleIdx h) kept), sl, gn, h, t.g)] } }
                | e => s.heapFail gn own e)
           | e => s.heapFail gn own e)
        | _, _ => s

/-- HEAP_POP (R366). -/
def execHeapPop (s : State) : Res :=
  let die := s.arg 0
  .next (s.popTask die)

/-- R365: the pops of a clk, of every die. -/
def State.popAll (s : State) : State := (s.dies.map (·.1)).foldl (fun s d => s.popTask d) s

/-- HEAP_OPERATION_APPLY (R365): the pops of the clk come first. -/
def execHeapOperationApply (s : State) : Res :=
  let die := s.arg 0
  .next (s.popAll.applyHeapOp die)

/-- R359: the live slots of a task thread: l0-l15 from the frame. -/
def frameSlots (frame : List Byte) : Tbl Word :=
  (List.range 16).filterMap fun i =>
    let w : Word := BitVec.ofNat 32 (fieldAt frame (4 * i) 4)
    if w = 0 then none else some (i, w)

/-- R33: a thread at its creation, with the slots it holds, the block it goes to and its linear number. -/
def newThread (r : LaunchRec) (g lin : Nat) (live : Tbl Word) : Thread :=
  { Thread.reset with group := g, lin := lin, fpMode := r.rm, live := live, trapBase := keepBits r.tbase 55 10 }

/-- The position of an element in a list. -/
def posOf (x : Nat) : List Nat → Nat
  | [] => 0
  | y :: t => if x = y then 0 else posOf x t + 1

/-- The group of a core that holds a slot. -/
def Core.groupOfSlot (x : Core) (sl : Nat) : Option Nat := (Tbl.first? (fun _ g => g.slots.contains sl) x.groups).map (·.1)

/-- TASK_THREAD_CREATE (R359, R368): a task thread that is due is created and filed to its entry block. -/
def State.createTaskThread (s : State) (die n : Nat) : State :=
  match (s.die die).heap.creating[n]? with
  | none => s
  | some (c, due, sl, gn, h, gain) =>
    let held := match (s.grid gn).heap with | some hg => s.entryHeld gn hg (handleDie h) (handleIdx h) | none => false
    if s.clk < due || held || !(s.core c).roomFor (List.range 16) then s
    else
      let s1 := s.modDie die fun d => { d with heap := { d.heap with creating := removeAt d.heap.creating n } }
      match (s.core c).groupOfSlot sl, (s.grid gn).heap with
      | some g, some hg =>
        (match s.fetchTask gn hg (handleDie h) (handleIdx h) with
         | .ok _ t =>
           let gr := s.group c g
           let th := { newThread (s.grid gn).launch g (posOf sl gr.slots) (frameSlots t.frame) with
             task := some (h, gain), command := none, engFence := s.clk }
           let entry : VAddr := BitVec.ofNat 56 (fieldAt t.frame 0 8)
           ((((s1.modThread c sl fun _ => th).modCore c fun x => x.queueWrites sl (List.range 16)).modGroup c g fun x =>
             { x with live := x.live + 1 }).noteIdem c sl false
             entry).fileTo c sl entry
         | e => s.heapFail gn (handleDie h) e)
      | _, _ => s1

/-- TASK_THREAD_CREATE (R368). -/
def execTaskThreadCreate (s : State) : Res :=
  let die := s.arg 0
  let n := s.arg 1
  .next (s.createTaskThread die n)

/-- R368: a task thread whose task the heap holds on-chip is created in the very clk; the read of a spilled entry may take longer. -/
def State.dueCreation (s : State) (die : Nat) : Option Nat :=
  leastBelow (s.die die).heap.creating.length fun n =>
    match (s.die die).heap.creating[n]? with
    | some (_, due, _, _, h, _) =>
      decide (due ≤ s.clk) && (match Tbl.find? (s.die (handleDie h)).heap.tasks (handleIdx h) with | some t => t.onChip | none => true)
    | none => false

/-- R365, R366, R368: what a heap does in every clk: a pop, then an operation, and the creations that are due. -/
def State.settleHeaps (s : State) : State :=
  (s.dies.map (·.1)).foldl (fun s d =>
    (List.range (s.die d).heap.creating.length).foldl (fun s _ =>
      match s.dueCreation d with | some n => s.createTaskThread d n | none => s) (s.applyHeapOp d)) s.popAll

/-- HEAP_LEND (R367): the balancer lends a pending task to a die, or gives it back to its own; lending ends 80 clk after
the settle (R376). -/
def execHeapLend (s : State) : Res :=
  let die := s.arg 0
  let handle := s.arg 1
  let h : Word := BitVec.ofNat 32 handle
  .next (match (s.die die).heap.grid with
    | none => s
    | some gn =>
      match (s.grid gn).heap with
      | none => s
      | some hg =>
        match s.taskOf hg h with
        | some t =>
          if hg.popping s.clk && t.pending && hg.mask.getLsbD die then
            s.modDie (handleDie h) fun d => { d with heap := { d.heap with
              tasks := Tbl.set d.heap.tasks (handleIdx h) { t with lent := if die = handleDie h then none else some die } } }
          else s
        | none => s)

/-! The final step of a task (R364, R384) -/

/-- How the final step ends: applied (with a heap fault, code 3, where the operand was refused), or not yet possible. -/
inductive FinalStep where
  | done (s : State) (bad : Bool)
  | notYet (s : State)
deriving DecidableEq, Repr

/-- R384: q with the operand of `hdone` added; none where the operand or the sum is refused. -/
def hdoneSum (q : Word) : Option Word → Option Word
  | none => some q
  | some w => gainOp 0 q w

/-- R364, R384: the heap applies the final step of a thread's task. -/
def State.finishTask (s : State) (c sl : Nat) : FinalStep :=
  let t := s.thread c sl
  let gn := (s.groupOf c sl).grid
  match t.task, (s.grid gn).heap with
  | some (h, _), some hg =>
    let die := handleDie h
    if (s.die die).heap.stalled || s.entryHeld gn hg die (handleIdx h) then .notYet s
    else match s.fetchTask gn hg die (handleIdx h) with
      | .ok _ k =>
        let sum := hdoneSum k.q t.hdoneArg
        let k' := { k with g := sum.getD k.q, q := 0, running := false }
        (match s.updateTask gn hg die (handleIdx h) k k' with
         | .ok s1 _ => .done (s1.modThread c sl fun u => { u with task := none, hdoneArg := none }) sum.isNone
         | e => .notYet (s.heapFail gn die e))
      | e => .notYet (s.heapFail gn die e)
  | _, _ => .done s false

/-! Settling and the drain (R376-R380) -/

/-- SETTLE_POP_STOP (R376): 80 clk after the settle the heaps pop and lend no more. -/
def execSettlePopStop (s : State) : Res :=
  let grid := s.arg 0
  .next (match (s.grid grid).heap with
    | some h =>
      (match h.settled with
       | some (t, _) =>
         if h.stopped || decide (s.clk < t + 80) then s
         else
           let s1 := s.modGrid grid fun g => { g with heap := some { h with stopped := true } }
           { s1 with dies := Tbl.mapVals (fun _ d =>
               if d.heap.grid = some grid then
                 { d with heap := { d.heap with tasks := Tbl.mapVals (fun _ t => { t with lent := none }) d.heap.tasks } }
               else d) s1.dies }
       | none => s)
    | none => s)

/-- The dies of a heap grid, ascending. -/
def HeapGrid.dies (h : HeapGrid) : List Nat := (List.range 8).filter fun d => h.mask.getLsbD d

/-- R377: may the drain start? Not before the first clk after t + 80. -/
def State.mayDrain (s : State) (h : HeapGrid) : Bool :=
  h.stopped && h.drained.isNone && (match h.settled with | some (t, _) => decide (t + 80 < s.clk) | none => false) && h.dies.all fun d =>
    let x := (s.die d).heap
    x.queue.isEmpty && x.creating.isEmpty && !x.stalled && x.tasks.all fun e => !e.2.running

/-- R378: an entry of the drain table. -/
def drainEntry (h : Word) (t : Task) : List Byte :=
  t.frame ++ natToBytes 4 h.toNat ++ natToBytes 4 t.g.toNat ++ natToBytes 4 t.c ++
    natToBytes 4 (3 + (if t.under then 4 else 0) + (if t.ran then 8 else 0)) ++ natToBytes 48 0

/-- R378: the header. -/
def State.drainHeader (s : State) (h : HeapGrid) (count lost : Nat) : List Byte :=
  let under := min (2 ^ 32 - 1) ((h.dies.map fun d => (s.die d).heap.under).foldl (· + ·) 0)
  let why := match h.settled with | some (_, true) => 1 | _ => 0
  natToBytes 8 count ++ natToBytes 8 lost ++ natToBytes 12 h.resid.toNat ++ natToBytes 8 h.tset.toNat ++
    natToBytes 1 why ++ natToBytes 3 0 ++ natToBytes 4 under ++ natToBytes 84 0

/-- R380: a heap's write of its drain table: one that its completer refuses is counted, and writes nothing. -/
def State.drainWrite (s : State) (die : Nat) (gs : List Seg) (bs : List Byte) : State :=
  if gs.any fun g => s.lost g.loc then s.countRefused die else s.agentStoreNc 8 gs bs

/-- One step of the drain: the failure that stopped it, or the state so far with the number of tasks drained and of entries
refused. -/
inductive DrainStep where
  | going (s : State) (n bad : Nat)
  | failed (die : Nat) (e : HeapAccess)
deriving DecidableEq, Repr

/-- R363, R372: a drained task is kept; it counts in the residual no more. -/
def State.keepDrained (s : State) (gn : Nat) (h : HeapGrid) (die idx : Nat) (old new : Task) : HeapAccess :=
  match s.keepTask gn h die idx new with
  | .ok s1 t => .ok (s1.noteChange gn old new) t
  | e => e

/-- R377, R378, R380: one task of the drain. -/
def drainTask (gn : Nat) (h : HeapGrid) (die idx : Nat) : DrainStep → DrainStep
  | .failed d e => .failed d e
  | .going s n bad =>
    match s.fetchTask gn h die idx with
    | .ok _ t =>
      if t.pending || (t.g != 0 && !t.drained) then
        let t' := { t with drained := true }
        if n < h.dcap then
          let j := s.judgeUnit (s.gridRoot gn) .store (h.dbase.toNat + 128 + 128 * n) 128
          (match j with
           | .ok gs _ =>
             (match (s.drainWrite die gs (drainEntry (handleOf die idx) t)).keepDrained gn h die idx t t' with
              | .ok s1 _ => .going s1 (n + 1) (bad + if gs.any fun g => s.lost g.loc then 1 else 0)
              | e => .failed die e)
           | _ => .failed die (heapFailure 1 j))
        else
          (match s.keepDrained gn h die idx t t' with
           | .ok s1 _ => .going s1 (n + 1) bad
           | e => .failed die e)
      else .going s n bad
    | e => .failed die e

/-- HEAP_DRAIN (R377-R380): the pending tasks and the idle ones with a gain are written in ascending handle order, then the
header. An access that fails translation leaves the drain to be made again after the driver's replay. -/
def execHeapDrain (s : State) : Res :=
  let grid := s.arg 0
  .next (match (s.grid grid).heap with
    | none => s
    | some h =>
      let tasks := h.dies.flatMap fun d => (s.die d).heap.tasks.map fun e => (d, e.1)
      if !s.mayDrain h || tasks.any fun (d, i) => s.entryHeld grid h d i then s
      else
        match tasks.foldl (fun r (d, i) => drainTask grid h d i r) (.going s 0 0) with
        | .failed d e => s.heapFail grid d e
        | .going s1 n bad =>
          let lost := n - h.dcap + bad
          let home := (h.dies.head?).getD 0
          let j := s1.judgeUnit (s1.gridRoot grid) .store h.dbase.toNat 128
          match j with
          | .ok gs _ =>
            (s1.drainWrite home gs (s1.drainHeader h n lost)).modGrid grid fun g =>
              { g with heap := g.heap.map fun y => { y with drained := some (n, lost) } }
          | _ => s.heapFail grid home (heapFailure 1 j))

/-- DRAIN_COMPLETE (R379): every write of the drain is performed, and the carrier groups may retire. -/
def execDrainComplete (s : State) : Res :=
  let grid := s.arg 0
  .next (s.modGrid grid fun g => { g with heap := g.heap.map fun h =>
    if h.drained.isSome then { h with complete := true } else h })

end Sys2Proof.Machine
end

