-- ==== Sys2Proof/Machine/Launch.lean ====
section
/-! DEFINITION. Launch queues (R388-R397): taking a record, its checks and waits, its start or rejection, and the start of a
heap grid (R355-R357). -/

namespace Sys2Proof.Machine

/-! Queues (R389, R390) -/

/-- R389: EN of a queue changes from 0 to 1 with a context. Without I/O die 8 there is no queue (R448). -/
def State.enableQueue (s : State) (q ctx : Nat) : State :=
  if (s.queue q).en || decide (1024 ≤ q) || s.mgmt.standby then s
  else s.modQueue q fun x =>
    { x with en := true, ctx := ctx % 64, ctxBits := ctx % 64, ridx := 0, dcnt := 0, dstat := 0, dslot := 0 }

/-- R389: EN of a queue is cleared. -/
def State.disableQueue (s : State) (q : Nat) : State :=
  if (s.queue q).en then s.modQueue q fun x => { x with en := false } else s

/-- QUEUE_ENABLE (R389). -/
def execQueueEnable (s : State) : Res :=
  let q := s.arg 0
  let ctx := s.arg 1
  .next (s.enableQueue q ctx)

/-- QUEUE_DISABLE (R389). -/
def execQueueDisable (s : State) : Res :=
  let q := s.arg 0
  .next (s.disableQueue q)

/-- R389: the 64 bytes of a queue control block. -/
def Queue.block (x : Queue) : List Byte :=
  natToBytes 8 (x.dcnt.toNat + x.dstat % 2 ^ 8 * 2 ^ 40 + x.dslot % 2 ^ 6 * 2 ^ 48) ++ natToBytes 4 x.ridx.toNat
    ++ natToBytes 52 (x.ctxBits % 64 + if x.en then 2 ^ 8 else 0)

/-- R388, R389: a host writes bytes of a queue control block, of which only CTX and EN take what is written. CTX is read when EN
changes from 0 to 1. -/
def State.blockStore (s : State) (q off : Nat) (bs : List Byte) : State :=
  let old := (s.queue q).block
  let w := bytesToNat (((old.take off ++ bs ++ old.drop (off + bs.length)).drop 12).take 4)
  let s1 := if 1024 ≤ q then s else s.modQueue q fun x => { x with ctxBits := w % 64 }
  if w / 2 ^ 8 % 2 = 1 then s1.enableQueue q (w % 64) else s1.disableQueue q

/-- R388: the window offset of a slot of a ring. -/
def slotOffset (q k : Nat) : Nat := q * 2 ^ 14 + 256 * k

/-- R392: a launch record from its 256 bytes. -/
def launchRecOf (bs : List Byte) : LaunchRec :=
  let f (off n : Nat) : Nat := fieldAt bs off n
  let d (off : Nat) : DWord := BitVec.ofNat 64 (f off 8)
  let rope := f 38 2
  let mode := f 46 1
  let zero (lo hi : Nat) : Bool := ((bs.drop lo).take (hi + 1 - lo)).all (· == 0)
  { entry := d 0, args := d 8, image := d 16, gx := f 24 4, gy := f 28 2, gz := f 30 2, bx := f 32 2, by_ := f 34 2,
    bz := f 36 2, ropeG := rope % 2 ^ 9, ropeP := rope / 2 ^ 9 % 2 ^ 5, scratch := f 40 4, live := f 44 1, prio := f 45 1,
    rm := BitVec.ofNat 2 mode, fused := mode / 4 % 2 == 1, order := mode / 8 % 2 == 1, grant := BitVec.ofNat 16 (f 48 2),
    wait := d 56, wval := d 64, done := d 72, heap := d 80, tbase := d 88, faults := d 96, biv := d 104,
    mbz := decide (rope < 2 ^ 14) && decide (mode < 16) && zero 47 47 && decide (f 48 2 < 2 ^ 7) && zero 50 55
      && decide (f 96 8 < 2 ^ 17) && zero 112 254 }

/-- TAKE_RECORD (R390): the record of slot RIDX mod 64 is taken when its SEQ byte is that of the lap. -/
def execTakeRecord (s : State) : Res :=
  let q := s.arg 0
  .next (
    let x := s.queue q
    let slot := x.ridx.toNat % 64
    let bs := memReadAll s.mem (winLoc (slotOffset q slot)) 256
    let p := 1 - x.ridx.toNat / 64 % 2
    if x.en && fieldAt bs 255 1 == p then
      s.modQueue q fun y => { y with ridx := y.ridx + 1, taken := y.taken ++ [(slot, launchRecOf bs)] }
    else s)

/-! The checks of R393 -/

/-- What the head record of a queue comes to: it waits, it is rejected with a status, or it starts. -/
inductive Verdict where
  | wait (stage : Nat) (desc : Option (List Byte)) (seen : Option (Nat × List Byte))
  | reject (status : Nat)
  | start (heap : Option (HeapGrid × List (Nat × Tbl Task)))
deriving DecidableEq, Repr

/-- R393, step 3: is an address zero, or do the bytes pass a row of R220? -/
def State.unitMay (s : State) (root : Nat) (rows : List AccessRow) (va : DWord) (bytes : Nat) : Bool :=
  va == 0 || rows.all fun row => match s.judgeUnit root row va.toNat bytes with | .ok _ _ => true | _ => false

/-- R393, step 3. -/
def State.addressesOk (s : State) (root : Nat) (r : LaunchRec) : Bool :=
  s.unitMay root [.load] r.image 64 && s.unitMay root [.load] r.wait 8 && s.unitMay root [.atomic false] r.done 8
    && s.unitMay root [.load] r.heap 128 && s.unitMay root [.load, .store] r.biv 1

/-- R25, R27: are the dimensions in range? (DEDUCED, log entry 30.) (DEDUCED, log entry 23.) -/
def LaunchRec.shapeOk (r : LaunchRec) : Bool :=
  let within (x lo hi : Nat) : Bool := decide (lo ≤ x) && decide (x ≤ hi)
  within r.bx 1 1024 && within r.by_ 1 1024 && within r.bz 1 1024 && decide (r.groupSize ≤ 1024)
    && within r.gx 1 (2 ^ 31 - 1) && within r.gy 1 65535 && within r.gz 1 65535
    && within r.ropeG 1 256 && within r.ropeP 1 16 && decide (r.scratch ≤ 262144)

/-- R27: ceil(G / P), the cores of a rope. -/
def LaunchRec.ropeCores (r : LaunchRec) : Nat := (r.ropeG + r.ropeP - 1) / r.ropeP

/-- R92: the matrix-array and temporal-array counts of a grant. -/
def grantMatrix (g : BitVec 16) : Nat := g.toNat / 32 % 2
def grantTemporal (g : BitVec 16) : Nat := g.toNat / 64 % 2

/-- R1, R27, R97: the checks of a record against its image's GRADE and GRANT; the first status that applies. A GRADE that names
neither product is answered with the grade status too (DESIGN CHOICE, log entry 55). (DEDUCED, log entry 49.) -/
def LaunchRec.reject (r : LaunchRec) (own grade : Nat) (grant : BitVec 16) : Option Nat :=
  if grade ≠ own then some 1
  else if grantChannels r.grant < grantChannels grant ∨ grantMatrix r.grant < grantMatrix grant
      ∨ grantTemporal r.grant < grantTemporal grant then some 5
  else if !r.shapeOk then some 2
  else if r.groups % r.ropeG ≠ 0 then some 3
  else if 1024 < r.ropeP * r.groupSize ∨ 262144 < r.ropeP * r.scratch ∨ 256 < r.ropeCores ∨ 16 < grantChannels r.grant
  then some 4
  else none

/-! Heap grids (R355-R357) -/

/-- R356: a heap descriptor's grid, with its counts of initial tasks by die. -/
def heapDescOf (bs : List Byte) : HeapGrid × List Nat :=
  let ctl := fieldAt bs 20 4
  ({ tbase := BitVec.ofNat 64 (fieldAt bs 0 8), dbase := BitVec.ofNat 64 (fieldAt bs 8 8), dcap := fieldAt bs 16 4,
     mask := BitVec.ofNat 8 ctl, utrap := ctl / 256 % 2 == 1, cap := fieldAt bs 24 4,
     tol := BitVec.ofNat 64 (fieldAt bs 64 8), spread := fieldAt bs 72 1, resid := 0, active := 0, incl := [], effects := [],
     settled := none, tset := 0, stopped := false, drained := none, complete := false },
   (List.range 8).map fun d => fieldAt bs (32 + 4 * d) 4)

/-- R356: are the fields of a heap descriptor as they must be? -/
def heapFieldsOk (bs : List Byte) (h : HeapGrid) (init : List Nat) : Bool :=
  h.tbase.toNat % 128 == 0 && h.dbase.toNat % 128 == 0 && fieldAt bs 20 4 / 2 ^ 9 == 0
    && decide (1 ≤ h.cap) && decide (h.cap ≤ 2 ^ 24) && fieldAt bs 28 4 == 0
    && ((List.range 8).all fun d => if h.mask.getLsbD d then decide (init.getD d 0 ≤ h.cap) else init.getD d 0 == 0)
    && decide (h.spread ≤ 8) && (bs.drop 73).all (· == 0)

/-- R357: does a range of a heap grid's tables translate, page by page, to coherent memory with R and W? -/
def State.rangeOk (s : State) (root base bytes : Nat) : Bool :=
  let page (a : Nat) : Bool :=
    [AccessRow.loadAcq, AccessRow.storeRel].all fun row =>
      match s.judgeUnit root row a 1 with | .ok _ _ => true | _ => false
  bytes == 0 || (List.range ((base + bytes - 1) / 2 ^ 16 + 1 - base / 2 ^ 16)).all fun i =>
    page (max base ((base / 2 ^ 16 + i) * 2 ^ 16))

/-- R357, R360: the task of an initial entry; none where the entry fails. -/
def initialTask (bs : List Byte) : Option Task :=
  let g : Word := BitVec.ofNat 32 (fieldAt bs 64 4)
  if frameOk (bs.take 64) && validGain g && fieldAt bs 68 4 == 0 && fieldAt bs 75 1 == 0 && fieldAt bs 76 4 == 16
      && (bs.drop 80).all (· == 0) then some (newTask (bs.take 64) g (fieldAt bs 72 3) 0) else none

/-- R357: the initial tasks of a die. -/
def State.initialTasks (s : State) (root : Nat) (h : HeapGrid) (die n : Nat) : Option (Tbl Task) :=
  (List.range n).foldl (fun acc i =>
    match acc, s.unitRead root (h.entryAddr die i) 128 with
    | some ts, some bs => (initialTask bs).map fun t => Tbl.set ts i { t with pendSince := if t.pending then some s.clk else none }
    | _, _ => none) (some [])

/-- R357: the heap grid of a record whose descriptor has the given bytes, with its initial tasks by die; none is status "heap".
(DEDUCED, log entry 30.) -/
def State.heapCheck (s : State) (root : Nat) (r : LaunchRec) (bs : List Byte) : Option (HeapGrid × List (Nat × Tbl Task)) :=
  let (h, init) := heapDescOf bs
  let absent := h.dies.any fun d => s.mgmt.absent.contains d
  if r.heap.toNat % 128 ≠ 0 || !heapFieldsOk bs h init || h.mask == 0 || absent || r.ropeG ≠ 1 then none
  else if !(h.dies.all fun d => s.rangeOk root (h.entryAddr d 0) (128 * h.cap))
      || !s.rangeOk root h.dbase.toNat (128 * (h.dcap + 1)) then none
  else
    let ts := h.dies.map fun d => (d, s.initialTasks root h d (init.getD d 0))
    if ts.all fun x => x.2.isSome then some (h, ts.map fun x => (x.1, x.2.getD [])) else none

/-- R355-R357: the verdict on a heap grid whose descriptor has been read, once, at launch: it waits until the heaps are free. -/
def State.heapVerdict (s : State) (root : Nat) (r : LaunchRec) (bs : List Byte) : Verdict :=
  match s.heapCheck root r bs with
  | none => .reject 6
  | some h => if h.1.dies.all fun d => (s.die d).heap.grid.isNone then .start (some h) else .wait 3 (some bs) none

/-- R393, steps 1 to 3: the first status that applies. -/
def State.earlyReject (s : State) (cx : CtxEntry) (r : LaunchRec) : Option Nat :=
  if !cx.en then some 7
  else if !r.mbz || r.live = 0 || decide (64 < r.live) || decide (23 < r.prio) || r.wait.toNat % 8 ≠ 0 || r.done.toNat % 8 ≠ 0
  then some 9
  else if cx.maxp < r.prio then some 10
  else if !s.addressesOk cx.root r then some 7 else none

/-- R5, R393, steps 6 and 7. A field of the image descriptor that must be zero and is not (R92: bytes 63:36 and GRANT[15:7]) gives the
status of the descriptor, "image". (DEDUCED, log entry 30.) (DEDUCED, log entry 49.) (DEDUCED, log entry 55.) -/
def State.lateVerdict (s : State) (root : Nat) (r : LaunchRec) : Verdict :=
  match s.unitRead root r.image.toNat 64 with
  | none => .reject 7
  | some img =>
    if fieldAt img 0 4 ≠ 0x4a444b31 || decide (2 ^ 7 ≤ fieldAt img 6 2) || (img.drop 36).any (· != 0) then .reject 7
    else match r.reject s.grade (fieldAt img 4 2) (BitVec.ofNat 16 (fieldAt img 6 2)) with
      | some st => .reject st
      | none =>
        if r.heap = 0 then .start none
        else match s.unitRead root r.heap.toNat 128 with
          | none => .reject 6
          | some bs => s.heapVerdict root r bs

/-- R393: has the line that a record's counter was read from not been written since? A write that leaves its bytes as they were is not
told from none. (DESIGN CHOICE, log entry 30.) -/
def State.lineUnwritten (s : State) : Option (Nat × List Byte) → Bool
  | some (loc, bs) => memReadAll s.mem loc 128 == bs
  | none => false

/-- R393: the line of a counter, and what it holds. -/
def State.lineSeen (s : State) (root va : Nat) : Option (Nat × List Byte) :=
  match s.judgeUnit root .load va 8 with
  | .ok (g :: _) _ => some (g.loc / 128 * 128, memReadAll s.mem (g.loc / 128 * 128) 128)
  | _ => none

/-- R393: the checks and waits of a record at the head of a queue, in their order, from the stage that it has reached: 0 none
passed, 1 the early checks, 2 the waits too, 3 all but the wait for the heaps. -/
def State.verdict (s : State) (q : Nat) (r : LaunchRec) : Verdict :=
  let x := s.queue q
  let cx := s.ctxEntry x.ctx
  match x.heapDesc with
  | some bs => s.heapVerdict cx.root r bs
  | none =>
  match (if x.stage = 0 then s.earlyReject cx r else none) with
  | some st => .reject st
  | none =>
    if x.stage ≤ 1 && r.order && decide (0 < x.open_) then .wait 1 none none
    else if r.wait = 0 || decide (2 ≤ x.stage) then s.lateVerdict cx.root r
    else if s.lineUnwritten x.seen then .wait 1 none x.seen
    else
      match s.unitRead cx.root r.wait.toNat 8 with
      | none => .reject 7
      | some bs => if r.wval.toNat ≤ bytesToNat bs then s.lateVerdict cx.root r else .wait 1 none (s.lineSeen cx.root r.wait.toNat)

/-- R360, R363, R372, R375: the heaps take their initial tasks and the home register their sum; the test is made at start. -/
def State.startHeaps (s : State) (gn : Nat) (h : HeapGrid) (init : List (Nat × Tbl Task)) : State :=
  let s1 := init.foldl (fun s (d, ts) =>
    let kept := Tbl.mapVals (fun i t => { t with onChip := Config.heapOnChip (handleOf d i).toNat s.clk && decide (i < 65536) }) ts
    s.modDie d fun x => { x with heap := { Heap.reset with grid := some gn, tasks := kept, nextIdx := ts.length, queue := x.heap.queue } }) s
  let sum (f : Task → Int) : Int := (init.flatMap fun x => x.2.map fun e => f e.2).foldl (· + ·) 0
  let s2 := s1.modGrid gn fun g => { g with heap := some { h with resid := sum Task.contribution, active := sum Task.activeCount } }
  -- a task that is not kept on-chip has the state that R363 gives it in its entry
  let s3 := init.foldl (fun s (d, ts) => ts.foldl (fun s (i, t) =>
    match Tbl.find? (s.die d).heap.tasks i with
    | some k => if k.onChip then s else (match s.keepTask gn h d i t with | .ok s' _ => s' | e => s.heapFail gn d e)
    | none => s) s) s2
  s3.settleTest gn

/-- LAUNCH_START (R393): the head record of a queue starts, is rejected, or goes on waiting. -/
def State.launchHead (s : State) (q : Nat) : State :=
  let x := s.queue q
  match x.taken with
  | [] => s
  | (slot, r) :: rest =>
    match s.verdict q r with
    | .wait stage desc seen => s.modQueue q fun y => { y with stage := stage, heapDesc := desc, seen := seen }
    | .reject status => (s.modQueue q fun y => { y with taken := rest, stage := 0, heapDesc := none, seen := none }).signal q slot x.ctx r.done status
    | .start heap =>
      let gn := s.nextGrid
      let g : Grid := { Grid.reset with queue := q, slot := slot, ctx := x.ctx, launch := r }
      let s1 : State := { s with grids := Tbl.set s.grids gn g, nextGrid := gn + 1 }
      let s2 := s1.modQueue q fun y => { y with taken := rest, stage := 0, heapDesc := none, seen := none, open_ := y.open_ + 1 }
      match heap with
      | none => s2
      | some (h, init) => s2.startHeaps gn h init

/-- LAUNCH_START (R393). -/
def execLaunchStart (s : State) : Res :=
  let q := s.arg 0
  .next (s.launchHead q)

end Sys2Proof.Machine
end

