-- ==== Sys2Proof/Machine/Placement.lean ====
section
/-! DEFINITION. The distributor (R29-R34, R38, R39, R398-R401): where a group or a rope fits, the order of the blocked
units, placement and creation, reservations, victims, fused dies and migration. -/

namespace Sys2Proof.Machine

/-! Room on a core (R29, R463) -/

/-- The sum of a list of numbers. -/
def sumNat (l : List Nat) : Nat := l.foldl (· + ·) 0

/-- Insert an element into a list that an order sorts. -/
def insertBy {α : Type} (lt : α → α → Bool) (x : α) : List α → List α
  | [] => [x]
  | y :: t => if lt x y then x :: y :: t else y :: insertBy lt x t

/-- A list in the order of a comparison; elements that it does not part keep their places. -/
def sortBy {α : Type} (lt : α → α → Bool) (l : List α) : List α := l.reverse.foldl (fun acc x => insertBy (fun a b => !lt b a) x acc) []

/-- R29: the thread slots that the groups of a core hold. -/
def Core.taken (x : Core) : List Nat := x.groups.flatMap fun e => e.2.slots
/-- R29, R41: the free thread slots of a core, lowest first; one that was freed in this clk is given away from the next. -/
def Core.freeSlots (x : Core) : List Nat :=
  let t := x.taken
  (List.range Config.slotsPerCore).filter fun sl => !t.contains sl && !x.freed.contains sl
/-- The number of free thread slots of a core. -/
def Core.freeCount (x : Core) : Nat := Config.slotsPerCore - sumNat (x.groups.map fun e => e.2.slots.length) - x.freed.length

/-- R25, R29: the lowest free range of `n` bytes of a core's scratchpad. (DESIGN CHOICE, log entry 22.) -/
def Core.freeRange (x : Core) (n : Nat) : Option Nat :=
  let used := (x.groups.filter fun e => e.2.spSize != 0).map fun e => (e.2.spBase, e.2.spSize)
  let fits (b : Nat) : Bool := decide (b + n ≤ 262144) && used.all fun u => decide (b + n ≤ u.1) || decide (u.1 + u.2 ≤ b)
  ((0 :: used.map fun u => u.1 + u.2).filter fits).foldl (fun (m : Option Nat) b =>
    match m with | some a => some (min a b) | none => some b) none

/-- R326, R463: does a grant still fit beside the grants of a core's groups? An array that is offline offers no temporal grant, nor
does one that still works for a group that was discarded (R418). (DEDUCED, log entry 30.) -/
def Core.grantFits (x : Core) (gr : BitVec 16) : Bool :=
  let tot (f : BitVec 16 → Nat) : Nat := sumNat (x.groups.map fun e => f e.2.grant) + f gr
  decide (tot grantChannels ≤ 16) && decide (tot grantMatrix ≤ 4) && decide (tot grantTemporal ≤ 1)
    && (grantTemporal gr != 1 || (!x.temp.offline && x.temp.queue.isEmpty))

/-- R38, R189, R286, R301, R321: are the numbers that a saved group owns free on a core, and the temporal array when it owns
temporal state? What a discarded group still holds there is kept for it (R418). -/
def Core.numbersFree (x : Core) (v : SavedGroup) : Bool :=
  v.chan.all (fun e => !entV (x.entry e.1)) && v.channels.all (fun e => !(x.channel e.1).cfg)
    && v.accs.all (fun e => !(x.acc e.1).v)
    && (v.temp.isNone || (match x.temp.owner with
        | some g => (x.group g).save == .discarded && x.temp.queue.isEmpty
        | none => true))

/-- The number of a grid's group on a core. (DESIGN CHOICE, log entry 22.) -/
def Core.groupNum? (x : Core) (gn lin : Nat) : Option Nat :=
  (Tbl.first? (fun _ g => g.grid == gn && g.lin == lin) x.groups).map (·.1)

/-- What a group takes on a core: its number, its slots, its scratchpad range. -/
structure Room where
  num : Nat
  slots : List Nat
  base : Nat
deriving DecidableEq, Repr

/-- R29, R418: the room for a group of a grid on a core, if it has any. A discarded group keeps its number and slots. -/
def Core.roomOf (x : Core) (c gn : Nat) (r : LaunchRec) (v : Option SavedGroup) (lin : Nat) : Option Room :=
  if !x.grantFits r.grant then none
  else
    match x.freeRange r.alloc with
    | none => none
    | some base =>
      match v with
      | some y =>
        if y.discarded then
          (if y.core = c then (x.groupNum? gn lin).map fun n => ⟨n, (x.group n).slots, base⟩ else none)
        else if !x.numbersFree y || decide (x.freeCount < r.groupSize) then none
        else (leastBelow 16 fun n => (Tbl.find? x.groups n).isNone).map fun n => ⟨n, x.freeSlots.take r.groupSize, base⟩
      | none =>
        if x.freeCount < r.groupSize then none
        else (leastBelow 16 fun n => (Tbl.find? x.groups n).isNone).map fun n => ⟨n, x.freeSlots.take r.groupSize, base⟩

/-- What a placed group holds on its core: room, and the engine state that it was saved with, under its new number. -/
def Core.occupy (x : Core) (gn : Nat) (r : LaunchRec) (lin : Nat) (m : Room) (v : Option SavedGroup) : Core :=
  let g : Group := { Group.reset with grid := gn, lin := lin, spBase := m.base, spSize := r.alloc, slots := m.slots, grant := r.grant }
  let y := { x with groups := Tbl.set x.groups m.num g }
  match v with
  | some w => y.putEngines m.num ⟨w.chan, w.channels, w.accs, w.temp⟩
  | none => y

/-- R29, R30: does a core take several groups of a grid at one moment? -/
def Core.takes (x : Core) (c gn : Nat) (r : LaunchRec) (saved : Nat → Option SavedGroup) : List Nat → Bool
  | [] => true
  | lin :: t =>
    match x.roomOf c gn r (saved lin) lin with
    | some m => (x.occupy gn r lin m (saved lin)).takes c gn r saved t
    | none => false

/-! Blocked units (R398) -/

/-- A blocked unit: a rope of a grid, of one group or more. -/
structure BlockedRef where
  grid : Nat
  rope : Nat
  prio : Nat
  ctx : Nat
  since : Option Nat
deriving DecidableEq, Repr

/-- R26: the ropes of a launch. -/
def LaunchRec.ropes (r : LaunchRec) : Nat := r.groups / r.ropeG

/-- R32, R358, R398: the ropes of a grid that were never placed and may come next: as many as could each reserve a run, and of carrier
groups the first for each die; a group alone finds no place where the one before it finds none. -/
def Grid.fresh (g : Grid) : List Nat :=
  let n := match g.heap with
    | some h => h.dies.length
    | none => if g.launch.ropeG ≤ 1 then 1 else Config.dies * Config.coresPerDie / max 1 g.launch.ropeCores
  ((List.range n).map (g.unplaced + ·)).filter fun r => decide (r < g.launch.ropes)

/-- R397, R398: the blocked units of the grids whose context is enabled. -/
def State.blockedRefs (s : State) : List BlockedRef :=
  s.grids.flatMap fun (gn, g) =>
    if !(s.ctxEntry g.ctx).en then []
    else g.blocked.map (fun u => ⟨gn, u.rope, g.launch.prio, g.ctx, u.preempted⟩) ++
      g.fresh.map fun r => ⟨gn, r, g.launch.prio, g.ctx, none⟩

/-- R398: does a unit come before another? -/
def State.unitBefore (s : State) (a b : BlockedRef) : Bool :=
  let turn (u : BlockedRef) : Nat := (u.ctx + 63 - Tbl.get 63 s.lastServed u.prio) % 64
  let late (u : BlockedRef) : Nat := match u.since with | some t => t + 1 | none => 0
  if a.prio ≠ b.prio then decide (b.prio < a.prio)
  else if a.since.isSome != b.since.isSome then a.since.isSome
  else if late a ≠ late b then decide (late a < late b)
  else if turn a ≠ turn b then decide (turn a < turn b)
  else if a.grid ≠ b.grid then decide (a.grid < b.grid) else decide (a.rope < b.rope)

/-- The saved state of a group of a grid, if it was pre-empted. -/
def State.savedOf (s : State) (gn lin : Nat) : Option SavedGroup := Tbl.find? (s.grid gn).saved lin

/-! Where a unit goes (R30, R399) -/

/-- R401: the cores of the run that begins at a core. -/
def LaunchRec.runCores (r : LaunchRec) (first : Nat) : List Nat := (List.range r.ropeCores).map (first + ·)

/-- R32, R401: the cores that ropes of a grid have reserved; of the rope that `but` names, none. -/
def Grid.reservedCores (g : Grid) (but : Option Nat) : List Nat :=
  (g.reserved.filter fun e => some e.1 != but).flatMap fun e => g.launch.runCores e.2

/-- R32: the cores that other units' reservations close to a unit. -/
def State.closedCores (s : State) (u : BlockedRef) : List Nat :=
  s.grids.flatMap fun (gn, g) =>
    if u.prio ≤ g.launch.prio then g.reservedCores (if gn = u.grid then some u.rope else none) else []

/-- R399: may groups of a launch be placed on a die, as far as its mode goes? -/
def State.dieMode (s : State) (d : Nat) (r : LaunchRec) : Bool :=
  let x := s.die d
  !s.mgmt.absent.contains d && !x.dead && x.modeDue.isNone && x.fused == r.fused

/-- R26, R358: the dies that may take a unit, ascending, by their modes. -/
def State.diesFor (s : State) (u : BlockedRef) : List Nat :=
  let g := s.grid u.grid
  let all := match g.heap with
    | some h => [h.dies.getD (u.rope % h.dies.length) 0]
    | none => List.range Config.dies
  all.filter fun d => s.dieMode d g.launch

/-- The free thread slots of a die. -/
def State.dieFree (s : State) (d : Nat) : Nat := sumNat ((coresOf d).map fun c => (s.core c).freeCount)

/-- R30: the ranks of a rope that a core of its run takes, as linear group numbers. -/
def LaunchRec.onCore (r : LaunchRec) (rope k : Nat) : List Nat :=
  ((List.range r.ropeP).map (k * r.ropeP + ·)).filterMap fun i => if i < r.ropeG then some (rope * r.ropeG + i) else none

/-- The smallest power of two that is not less than a number, from a power on. -/
def powerFrom (n : Nat) : Nat → Nat → Nat
  | 0, p => p
  | fuel + 1, p => if n ≤ p then p else powerFrom n fuel (2 * p)

/-- R30: the first cores of the runs of a die, ascending. (DEDUCED, log entry 23.) -/
def LaunchRec.runsOf (r : LaunchRec) (d : Nat) : List Nat :=
  let a := powerFrom r.ropeCores 9 1
  ((List.range (Config.coresPerDie / a)).map (a * ·)).filterMap fun f =>
    if f + r.ropeCores ≤ Config.coresPerDie then some (d * Config.coresPerDie + f) else none

/-- R30, R44: the linear numbers of the groups of a unit that a core of its run takes: a group that has retired needs no
place. -/
def State.seats (s : State) (u : BlockedRef) (k : Nat) : List Nat :=
  let r := (s.grid u.grid).launch
  (r.onCore u.rope k).filter fun lin => !(s.ropeBar u.grid u.rope).retired.contains (lin % r.ropeG)

/-- R30: may the run that begins at a core take the unit, when a core is looked at as `at_` says? -/
def State.runFits (s : State) (u : BlockedRef) (at_ : Nat → Core) (first : Nat) : Bool :=
  let r := (s.grid u.grid).launch
  (List.range r.ropeCores).all fun k =>
    (at_ (first + k)).takes (first + k) u.grid r (s.savedOf u.grid) (s.seats u k)

/-- R399: the better of two cores for a group of a grid. -/
def coreBetter (gn : Nat) (a b : Nat × Core) : Bool :=
  let has (x : Core) : Bool := x.groups.any fun e => e.2.grid == gn && e.2.save != .discarded
  if has a.2 != has b.2 then has a.2
  else if a.2.freeCount ≠ b.2.freeCount then decide (b.2.freeCount < a.2.freeCount) else decide (a.1 < b.1)

/-- R30, R399: the first core of the place that a unit takes now: a core for a group, the first of a run for a rope.
(DESIGN CHOICE, log entry 22.) -/
def State.placeFor (s : State) (u : BlockedRef) : Option Nat :=
  let r := (s.grid u.grid).launch
  let closed := s.closedCores u
  if r.ropeG = 1 then
    let dies := sortBy (fun a b => decide (s.dieFree b < s.dieFree a)) (s.diesFor u)
    dies.findSome? fun d =>
      let cs := (coresOf d).filter fun c => !closed.contains c && s.runFits u s.core c
      (bestBy (coreBetter u.grid) (cs.map fun c => (c, s.core c))).map (·.1)
  else
    (s.diesFor u).findSome? fun d => (r.runsOf d).find? fun f =>
      (List.range r.ropeCores).all (fun k => !closed.contains (f + k)) && s.runFits u s.core f

/-! Placing (R33, R34, R44, R321, R358) -/

/-- R273, R358: a group at its creation. -/
def newGroup (gd : Grid) (gn lin : Nat) (m : Room) (root clk : Nat) : Group :=
  let r := gd.launch
  let n := r.groupSize
  let carrier := gd.heap.isSome
  let bar (b : Nat) : Nat × Barrier := (b, { Barrier.fresh n with brk := if carrier then some .timeout else none })
  { Group.reset with
    grid := gn, lin := lin, prio := r.prio, carrier := carrier, spBase := m.base, spSize := r.alloc, slots := m.slots,
    live := if carrier then 0 else n, bars := (List.range 18).map bar, ropeExp := n, grant := r.grant,
    temporal := grantTemporal r.grant == 1, placedAt := clk, root := root }

/-- R321, R418: before a core's temporal array gets another owner, its state is kept for the discarded group that owns it. -/
def State.keepTemporal (s : State) (c : Nat) : State :=
  let x := s.core c
  match x.temp.owner with
  | some g =>
    let gr := x.group g
    if gr.save = .discarded then
      s.modGrid gr.grid fun y => { y with saved := Tbl.mapVals (fun lin v => if lin = gr.lin then { v with temp := some x.temp.st } else v) y.saved }
    else s
  | none => s

/-- R321: the group becomes the owner of its core's temporal array, whose state is reset. -/
def State.ownTemporal (s : State) (c g : Nat) (r : LaunchRec) (st : Temporal) : State :=
  if grantTemporal r.grant = 1 then
    (s.keepTemporal c).modCore c fun x => { x with temp := { x.temp with owner := some g, st := st, queue := [] } }
  else s

/-- R33: live slots l0:l1 of a thread at its creation. -/
def argSlots (args : DWord) : Tbl Word := ((Thread.reset.setPair 0 args).live).filter fun e => e.2 != 0

/-- R33, R34, R56, R100: the threads of a placed group are created and filed to the entry block, all in this clk. -/
def State.createThreads (s : State) (c g : Nat) (r : LaunchRec) : State :=
  let entry : VAddr := r.entry.setWidth 56
  let slots := (s.group c g).slots
  ((slots.zip (List.range slots.length)).foldl (fun s (sl, lin) =>
    (((s.modThread c sl fun _ => { newThread r g lin (argSlots r.args) with engFence := s.clk }).noteIdem c sl false entry).fileTo c sl entry).fileHere c sl)
    s).modCore c fun x => { x with filedAll := some s.clk }

/-- R29, R33, R358: a group that was never placed takes its room on a core. -/
def State.placeFresh (s : State) (c gn lin : Nat) (m : Room) : State :=
  let gd := s.grid gn
  let g := newGroup gd gn lin m (s.ctxEntry gd.ctx).root s.clk
  let s1 := (s.modCore c fun x => { x with groups := Tbl.set x.groups m.num g }).modGrid gn fun y =>
    { y with resident := y.resident ++ [(c, m.num)],
             ropes := if g.carrier then Tbl.set y.ropes lin { RopeBar.reset with brk := true } else y.ropes }
  let s2 := s1.ownTemporal c m.num gd.launch Temporal.reset
  if g.carrier then s2 else s2.createThreads c m.num gd.launch

/-- R187, R189, R286, R416, R418: a pre-empted group takes its room, with a slot for each of its threads, and what it owns of the
engines, under its new number; GROUP_RESTORE fills it. -/
def State.placeSaved (s : State) (c gn lin : Nat) (m : Room) (v : SavedGroup) : State :=
  let gd := s.grid gn
  let old := if v.discarded then (s.core c).group m.num else v.group
  let slots := if v.discarded || old.carrier then m.slots else m.slots.take v.threads.length
  let g : Group := { old with spBase := m.base, spSize := gd.launch.alloc, slots := slots, grant := gd.launch.grant,
                              placedAt := s.clk, root := (s.ctxEntry gd.ctx).root, save := .restoring, moving := false }
  let s1 := if v.temp.isSome then s.keepTemporal c else s
  (s1.modCore c fun x => x.occupy gn gd.launch lin m (some v)).modCore c (fun x =>
      { x with groups := Tbl.set x.groups m.num g }) |>.modGrid gn fun y =>
    { y with resident := y.resident ++ [(c, m.num)] }

/-- One group of a unit is placed on a core. -/
def State.placeGroup (s : State) (c gn lin : Nat) : State :=
  let v := s.savedOf gn lin
  match (s.core c).roomOf c gn (s.grid gn).launch v lin with
  | none => s
  | some m => match v with
    | some w => s.placeSaved c gn lin m w
    | none => s.placeFresh c gn lin m

/-- R32: the reservations of a grid that stand when a unit has been placed on some cores: not its own, and none whose cores it takes
from a lower priority. -/
def Grid.keepReserved (g : Grid) (gn : Nat) (u : BlockedRef) (cores : List Nat) : List (Nat × Nat) :=
  g.reserved.filter fun e => !(gn == u.grid && e.1 == u.rope)
    && !(decide (g.launch.prio < u.prio) && (g.launch.runCores e.2).any cores.contains)

/-- R398: a unit is blocked no more; a reservation that it held, or whose cores it takes from a lower one, ends (R32). -/
def State.unblock (s : State) (u : BlockedRef) (cores : List Nat) : State :=
  let s1 := s.modGrid u.grid fun g =>
    let skipped := (List.range (u.rope - g.unplaced)).map fun i => (⟨g.unplaced + i, none⟩ : BlockedUnit)
    if g.blocked.any fun b => b.rope == u.rope then { g with blocked := g.blocked.filter fun b => b.rope != u.rope }
    else { g with unplaced := u.rope + 1, blocked := g.blocked ++ skipped }
  { s1 with
    lastServed := Tbl.set s1.lastServed u.prio u.ctx
    grids := Tbl.mapVals (fun gn g => { g with reserved := g.keepReserved gn u cores }) s1.grids }

/-- R30, R398: a unit is placed, all its groups in one clk. -/
def State.placeUnitAt (s : State) (u : BlockedRef) (first : Nat) : State :=
  let r := (s.grid u.grid).launch
  let spots := (List.range r.ropeCores).flatMap fun k => (s.seats u k).map fun lin => (first + k, lin)
  let s1 := (spots.foldl (fun s (c, lin) => s.placeGroup c u.grid lin) s).unblock u ((List.range r.ropeCores).map (first + ·))
  { s1 with placeClk := some s.clk }

/-! Victims (R400) -/

/-- The groups whose removal a clk brings nearer already: they are victims, or being saved. -/
def Group.leaving (g : Group) : Bool :=
  match g.save with
  | .chosen | .saving _ | .scratch _ => true
  | _ => false

/-- A core without some of its groups. -/
def Core.without (x : Core) (p : Nat → Group → Bool) : Core :=
  (Tbl.keysWhere p x.groups).foldl (fun x g =>
    let y := x.dropEngines 0 g (x.group g).slots
    { y with groups := Tbl.erase y.groups g }) x

/-- R400: may a unit pre-empt a group in a case: one of lower priority, or one of equal priority and of the other context that the case
names, whose time slice the group has used up? (DEDUCED, log entry 23.) -/
def State.mayPreempt (s : State) (u : BlockedRef) (case : Option Nat) (g : Group) : Bool :=
  let ctx := (s.grid g.grid).ctx
  let slice := (s.ctxEntry ctx).slice
  g.save == .none && (match case with
    | none => decide (g.prio < u.prio)
    | some y => g.prio == u.prio && ctx == y && ctx != u.ctx && decide (0 < slice) && decide (g.placedAt + 1000 * slice ≤ s.clk))

/-- R400: the cases of pre-emption: lower priority, and each context of the grids that have started. -/
def State.preemptCases (s : State) : List (Option Nat) :=
  none :: ((s.grids.map fun e => e.2.ctx).foldl (fun l k => insertNat k l) []).map some

/-- The groups of the rope of a group, with their cores. -/
def State.ropeMates (s : State) (c g : Nat) : List (Nat × Nat) :=
  let x := s.group c g
  let gd := s.grid x.grid
  gd.resident.filter fun (c', g') => (s.group c' g').lin / gd.launch.ropeG == x.lin / gd.launch.ropeG

/-- The sublists of a list with a number of elements, in the order of the list. -/
def choose {α : Type} : Nat → List α → List (List α)
  | 0, _ => [[]]
  | _ + 1, [] => []
  | n + 1, x :: t => (choose n t).map (x :: ·) ++ choose (n + 1) t

/-- R400: of two lists of victims, is one chosen before the other: fewer groups, then lower priority, then longer resident?
(DESIGN CHOICE, log entry 22.) -/
def State.victimsBetter (s : State) (a b : List (Nat × Nat)) : Bool :=
  let top (l : List (Nat × Nat)) : Nat := (l.map fun (c, g) => (s.group c g).prio).foldl max 0
  let old (l : List (Nat × Nat)) : Nat := sumNat (l.map fun (c, g) => (s.group c g).placedAt)
  if a.length ≠ b.length then decide (a.length < b.length)
  else if top a ≠ top b then decide (top a < top b) else decide (old a < old b)

/-- R400: the groups that stand on a core alone, not in a rope, and whose removal, with the removal of some whole ropes, lets
the core take the members of a unit: the fewest of them, and of those the ones chosen first; none when no removal does. -/
def State.coreVictims (s : State) (u : BlockedRef) (case : Option Nat) (ropes : List (Nat × Nat)) (c k : Nat) : Option (List (Nat × Nat)) :=
  let x := (s.core c).without fun g y => y.leaving || ropes.contains (c, g)
  let cand := Tbl.keysWhere (fun g y => s.mayPreempt u case y && decide ((s.ropeMates c g).length ≤ 1)) x.groups
  (List.range (cand.length + 1)).findSome? fun n => bestBy s.victimsBetter (((choose n cand).filter fun gs =>
    (x.without fun g _ => gs.contains g).takes c u.grid (s.grid u.grid).launch (s.savedOf u.grid) (s.seats u k)).map
      fun gs => gs.map fun g => (c, g))

/-- R400: the ropes of more than one group that stand on the cores of a run and may be pre-empted whole. -/
def State.ropeVictims (s : State) (u : BlockedRef) (case : Option Nat) (first : Nat) : List (List (Nat × Nat)) :=
  (List.range (s.grid u.grid).launch.ropeCores).foldl (fun l k =>
    (Tbl.keysWhere (fun _ _ => true) (s.core (first + k)).groups).foldl (fun l g =>
      let m := s.ropeMates (first + k) g
      if decide (1 < m.length) && m.all (fun (c', g') => s.mayPreempt u case (s.group c' g')) && !l.contains m then l ++ [m] else l) l) []

/-- R400: the victims by which a run may be freed: for each choice of the whole ropes among them, the fewest single groups of
every core beside them. -/
def State.runVictims (s : State) (u : BlockedRef) (case : Option Nat) (first : Nat) : List (List (Nat × Nat)) :=
  let ropes := s.ropeVictims u case first
  ((List.range (ropes.length + 1)).flatMap fun n => choose n ropes).filterMap fun rs =>
    (List.range (s.grid u.grid).launch.ropeCores).foldl (fun acc k =>
      match acc, s.coreVictims u case rs.flatten (first + k) k with
      | some l, some gs => some (l ++ gs)
      | _, _ => none) (some rs.flatten)

/-- The places that a unit may take as far as modes and reservations go: the first cores, lowest first. -/
def State.spotsFor (s : State) (u : BlockedRef) : List Nat :=
  let r := (s.grid u.grid).launch
  let closed := s.closedCores u
  (s.diesFor u).flatMap fun d => (r.runsOf d).filter fun f => (List.range r.ropeCores).all fun k => !closed.contains (f + k)

/-- R400, R414: groups are chosen as victims; their saves start. (DEDUCED, log entry 23.) -/
def State.chooseVictims (s : State) (vs : List (Nat × Nat)) : State :=
  vs.foldl (fun s (c, g) => (s.modGroup c g fun x => { x with save := .chosen, moving := false }).urge (.event .saveStart [c, g])) s

/-- R400: a unit causes pre-emption, unless the groups that leave already make room for it. -/
def State.preemptFor (s : State) (u : BlockedRef) : State :=
  let cands := (s.spotsFor u).flatMap fun f => s.preemptCases.flatMap fun case => s.runVictims u case f
  if cands.any (·.isEmpty) then s
  else match bestBy s.victimsBetter cands with
    | some vs => s.chooseVictims vs
    | none => s

/-! Reservations and gathering (R32, R39, R401) -/

/-- R39, R401: may a group that stands on a run be moved out of it for a rope of a priority? -/
def State.movable (s : State) (prio : Nat) (g : Group) : Bool :=
  decide ((s.grid g.grid).launch.ropeG = 1) || decide (g.prio < prio)

/-- The cores of a run, highest first, that do not yet take their part of a rope. -/
def State.fullCores (s : State) (u : BlockedRef) (first : Nat) : List Nat :=
  let r := (s.grid u.grid).launch
  ((List.range r.ropeCores).reverse.filter fun k =>
    !(s.core (first + k)).takes (first + k) u.grid r (s.savedOf u.grid) (s.seats u k)).map (first + ·)

/-- R401: how many groups of a core of a run are to be moved, in the order in which the gathering takes them, before the core takes its
part of a rope. -/
def State.toMove (s : State) (u : BlockedRef) (c k : Nat) : Nat :=
  let x := s.core c
  let gs := x.groups.map (·.1)
  ((List.range (gs.length + 1)).find? fun n =>
    (x.without fun g _ => (gs.take n).contains g).takes c u.grid (s.grid u.grid).launch (s.savedOf u.grid) (s.seats u k)).getD gs.length

/-- R32, R401: the run that a rope reserves: fewest groups to move, then lowest die and run. (DEDUCED, log entry 23.) -/
def State.reserveFor (s : State) (u : BlockedRef) : Option Nat :=
  let cands := (s.spotsFor u).filter fun f =>
    (List.range (s.grid u.grid).launch.ropeCores).all fun k => (s.core (f + k)).groups.all fun e => s.movable u.prio e.2
  let moves (f : Nat) : Nat := sumNat ((List.range (s.grid u.grid).launch.ropeCores).map fun k => s.toMove u (f + k) k)
  bestBy (fun a b => decide (moves a < moves b)) cands

/-- R32: the cores of every reservation. -/
def State.allReserved (s : State) : List Nat := s.grids.flatMap fun e => e.2.reservedCores none

/-- What a group would take with it to another core. -/
def State.asSaved (s : State) (c g : Nat) : SavedGroup :=
  let e := (s.core c).enginesOf g
  ⟨s.group c g, [], e.chan, e.channels, e.accs, e.temp, c, false, 0, false, g⟩

/-- R39, R401: the core that a group of a reserved run is moved to: the lowest of its die, outside every reservation, that
satisfies R29 and has the numbers that the group owns free. (DEDUCED, log entry 23.) -/
def State.migrateTo (s : State) (c g : Nat) : Option Nat :=
  let x := s.group c g
  let r := (s.grid x.grid).launch
  let closed := s.allReserved
  let own := s.asSaved c g
  (coresOf (dieOf c)).find? fun k =>
    k != c && !closed.contains k && ((s.core k).roomOf k x.grid r (some own) x.lin).isSome

/-- R401: one step of emptying a reserved run: the next group is set to move, or pre-empted. (DEDUCED, log entry 23.) -/
def State.gather (s : State) (u : BlockedRef) (first : Nat) : State :=
  let under (c : Nat) : Bool := (s.core c).groups.any fun e => (e.2.moving && (s.migrateTo c e.1).isSome) || e.2.leaving
  let cores := (List.range (s.grid u.grid).launch.ropeCores).map (first + ·)
  if cores.any under then s
  else
    -- a group on the move whose destination has filled up since is taken again
    let cands := (s.fullCores u first).flatMap fun c => (s.core c).groups.map fun e => (c, e.1)
    match cands.find? fun (c, g) =>
        let x := s.group c g
        (x.save == .none && decide ((s.grid x.grid).launch.ropeG = 1) && (s.migrateTo c g).isSome)
          || (x.save == .none && decide (x.prio < u.prio)) with
    | none => s
    | some (c, g) =>
      if (s.grid (s.group c g).grid).launch.ropeG = 1 && (s.migrateTo c g).isSome then
        s.modGroup c g fun x => { x with moving := true }
      else s.chooseVictims (s.ropeMates c g)

/-! Modes (R213, R399) -/

/-- R399: the die that changes its mode for a unit that no die of its own mode could ever take. -/
def State.modeChange (s : State) (u : BlockedRef) : Option Nat :=
  let g := s.grid u.grid
  let empty (d : Nat) : Bool := (coresOf d).all fun c => (s.core c).groups.all fun e => e.2.save == .discarded
  let all := match g.heap with
    | some h => [h.dies.getD (u.rope % h.dies.length) 0]
    | none => List.range Config.dies
  all.find? fun d =>
    let x := s.die d
    !s.mgmt.absent.contains d && !x.dead && x.modeDue.isNone && x.fused != g.launch.fused && empty d
      && (g.launch.runsOf d).any fun f => s.runFits u s.core f

/-- What the distributor does for a unit that it cannot place, R32, R398, R399, R400: a reservation, and the pre-emption that R400 gives.
(DEDUCED, log entry 23.) (DEDUCED, log entry 30.) -/
def State.cannotPlace (s : State) (u : BlockedRef) (highest : Nat) : State :=
  let s1 := match s.modeChange u with
    | some d => s.modDie d fun x => { x with modeDue := some (s.clk + 4000) }
    | none => s
  if u.prio < highest then s1
  else
    let s2 := match Tbl.find? (s1.grid u.grid).reserved u.rope with
      | some first => s1.gather u first
      | none =>
        match s1.reserveFor u with
        | some f => (s1.modGrid u.grid fun g => { g with reserved := g.reserved ++ [(u.rope, f)] }).gather u f
        | none => s1
    s2.preemptFor u

/-- R398: the units are tried in their order until one is placed. -/
def State.tryUnits (s : State) (highest : Nat) : List BlockedRef → State
  | [] => s
  | u :: t =>
    match s.placeFor u with
    | some f => s.placeUnitAt u f
    | none => (s.cannotPlace u highest).tryUnits highest t

/-- The blocked units in their order. -/
def State.unitsInOrder (s : State) : List BlockedRef := sortBy s.unitBefore s.blockedRefs

/-- PLACE_UNIT (R398): one unit is placed in a clk. -/
def execPlaceUnit (s : State) : Res :=
  let us := s.unitsInOrder
  .next (if s.placeClk = some s.clk then s else s.tryUnits ((us.map (·.prio)).foldl max 0) us)

/-- TIME_SLICE_EXPIRY (R400): a group that has used up its context's slice may be pre-empted at equal priority by the first
blocked unit of another context that finds no place. -/
def execTimeSliceExpiry (s : State) : Res :=
  let core := s.arg 0
  let g := s.arg 1
  let x := s.group core g
  let us := s.unitsInOrder
  let highest := (us.map (·.prio)).foldl max 0
  .next (match us.find? fun u => decide (u.prio = highest) && u.prio == x.prio && s.mayPreempt u (some (s.grid x.grid).ctx) x && (s.placeFor u).isNone with
    | some u => s.preemptFor u
    | none => s)

/-- DIE_MODE_CHANGE_DONE (R213, R399): the die has its new mode, and no L1 of it holds a line. -/
def execDieModeChangeDone (s : State) : Res :=
  let die := s.arg 0
  .next (match (s.die die).modeDue with
    | some t =>
      if s.clk < t then s
      else
        let s1 := s.modDie die fun d => { d with fused := !d.fused, modeDue := none }
        { s1 with cores := Tbl.mapVals (fun c x => if dieOf c = die then { x with l1 := [] } else x) s1.cores }
    | none => s)

/-! Migration (R39, R40, R260) -/

/-- R39, point 1: a group stops moving once no reservation holds its core. -/
def State.settleMoving (s : State) : State :=
  let held := s.allReserved
  { s with cores := Tbl.mapVals (fun c x =>
      { x with groups := Tbl.mapVals (fun _ g => { g with moving := g.moving && held.contains c }) x.groups }) s.cores }

/-- R39, points 1 and 4 to 6: does a reservation hold its core, and does every thread of a group stand at a piton, with nothing pending and every command complete?
(DEDUCED, log entry 23.) -/
def State.mayMigrate (s : State) (c g : Nat) : Bool :=
  let x := s.group c g
  x.moving && s.allReserved.contains c && s.enginesDone c g && x.slots.all fun sl =>
    let t := s.thread c sl
    (match t.place with | .binned _ | .fifo => true | .free => x.carrier | _ => false) && t.pending == 0 && t.region.isNone
      && (t.place == .free || s.isPiton x.root t.next)

/-- The reports name a thread by its new place (R466). (DEDUCED, log entry 25.) -/
def State.renameReports (s : State) (f : Nat × Nat → Nat × Nat) : State :=
  { s with reports := s.reports.map fun r => if r.kind ≤ 2 then { r with joined := r.joined.map f } else r }

/-- R40, R260, R261: a buffered entry that its group carries to another core: what it writes of the group's scratchpad, from one
place on, moves with the bytes to another. -/
def BufEntry.carry (e : BufEntry) (old size new : Nat) : BufEntry :=
  { e with carried := true, segs := e.segs.map fun g =>
      if old ≤ g.loc ∧ g.loc < old + size then { g with loc := new + (g.loc - old) } else g }

/-- R40, R100, R260, R261: the group moves: threads, slots, buffers, barriers and scratchpad contents. Its threads are filed anew, four in
a clk, and get a new Filed clk. (DESIGN CHOICE, log entry 54.) -/
def State.migrate (s : State) (c g dst : Nat) (m : Room) : State :=
  let x := s.group c g
  let e := (s.core c).enginesOf g
  let ts := x.slots.map fun sl => s.thread c sl
  let bytes := memReadAll s.mem (spLoc c x.spBase) x.spSize
  let bad := (List.range x.spSize).filter fun i => s.poison.contains (spLoc c x.spBase + i)
  let s1 := x.slots.foldl (fun s sl => s.modCore c fun y => (y.unfile sl).freeThread sl) s
  let s2 := s1.modCore c fun y => { (y.dropEngines s.clk g x.slots) with groups := Tbl.erase y.groups g }
  let slots := m.slots.take x.slots.length
  let x' : Group := { x with slots := slots, spBase := m.base, moving := false }
  let s3 := (if e.temp.isSome then s2.keepTemporal dst else s2).modCore dst fun y => { (y.putEngines m.num e) with groups := Tbl.set y.groups m.num x' }
  let s4 := s3.wr (spLoc dst m.base) bytes
  let s5 : State := { s4 with poison := bad.foldl (fun p i => insertNat (spLoc dst m.base + i) p) s4.poison }
  let move (e : BufEntry) : BufEntry := e.carry (spLoc c x.spBase) x.spSize (spLoc dst m.base)
  let s6 := (slots.zip ts).foldl (fun s (sl, t) =>
    if t.place == .free then s
    else s.modThread dst sl fun _ => { t with group := m.num, place := .filing 4, filed := s.clk, buf := t.buf.map move }) s5
  let home (p : Nat × Nat) : Nat × Nat := if p.1 = c && x.slots.contains p.2 then (dst, slots.getD (posOf p.2 x.slots) 0) else p
  let s7 : State := { s6 with dies := Tbl.mapVals (fun _ d => { d with
      heap := { d.heap with creating := d.heap.creating.map fun (a, t, b, w) => ((home (a, b)).1, t, (home (a, b)).2, w) }
      serial := d.serial.map fun (a, b, v) => ((home (a, b)).1, (home (a, b)).2, v)
      serialWait := d.serialWait.map fun (a, b, t) => ((home (a, b)).1, (home (a, b)).2, t) }) s6.dies }
  (s7.modGrid x.grid fun gd => { gd with resident := gd.resident.map fun p => if p = (c, g) then (dst, m.num) else p }).renameReports home

/-- MIGRATE_GROUP (R39). -/
def execMigrateGroup (s : State) : Res :=
  let core := s.arg 0
  let g := s.arg 1
  let dst := s.arg 2
  .next (
    let x := s.group core g
    if s.mayMigrate core g && s.migrateTo core g == some dst then
      match (s.core dst).roomOf dst x.grid (s.grid x.grid).launch (some (s.asSaved core g)) x.lin with
      | some m => s.migrate core g dst m
      | none => s
    else s)

end Sys2Proof.Machine
end

