-- ==== Sys2Proof/Machine/Traps.lean ====
section
/-! DEFINITION. Traps after the fault bin is entered (R402-R409, R222, R420, R466): the trap record, its routing to the
device's handler or to the host, the driver's commands, debug halts, and TLB invalidation. -/

namespace Sys2Proof.Machine

/-! The commands that a thread obeys -/

/-- R409, R420: a driver's answer to a thread in the fault bin (0 replay, 1 next, 3 resume), or the entry to the handler of
cause `n` (16 + n) that waited for a restore. (DEDUCED, log entry 26.) -/
def State.obey (s : State) (c sl cmd : Nat) : State :=
  let s0 := s.modThread c sl fun u => { u with command := none }
  let t := s0.thread c sl
  if 16 ≤ cmd then s0.enterHandler c sl (cmd - 16)
  else if cmd = 3 then
    if t.place = .halted then (s0.modThread c sl fun u => { u with place := .free }).goTo c sl t.haltNext else s0
  else
    match t.trap with
    | none => s0
    | some tr =>
      if !tr.recorded then s0
      else
        let s1 := s0.modThread c sl fun u => { u with nestOpen := if tr.nest then false else u.nestOpen }
        if cmd = 0 then s1.resumeAt c sl tr.blk
        else (if tr.ret then s1 else s1.noteIdem c sl (s.isIdem (s.rootOf c sl) tr.blk) tr.next).resumeNext c sl tr.held tr.next tr.def_ tr.ret

/-- R409: a command reaches a thread; while its group is saved or its save handler runs, it is kept, but for the answer to a trap that the
handler itself has taken (`now`). (DEDUCED, log entry 26.) -/
def State.command (s : State) (cmd : Nat) (now : Bool) (who : Nat × Nat) : State :=
  if who.1 < 2 ^ 64 then
    let t := s.thread who.1 who.2
    if t.save.isSome && !now then s.modThread who.1 who.2 fun u => { u with command := some cmd }
    else s.obey who.1 who.2 cmd
  else
    s.modGrid (who.1 / 2 ^ 64 - 1) fun g =>
      { g with saved := Tbl.mapVals (fun lin v =>
          if lin = who.1 % 2 ^ 64 then
            { v with threads := v.threads.map fun (i, t) => if i = who.2 then (i, { t with command := some cmd }) else (i, t) }
          else v) g.saved }

/-! The trap record (R405, R406) and its routing (R403, R408, R409) -/

/-- R222: the KIND class of a translation fault, from its detail word: true for the write class. -/
def writeClass (detail : DWord) : Bool := let k := detail.toNat / 32 % 8; k == 1 || k == 2

/-- R222: does a report of kind 1 stand for a key? -/
def Report.holds (r : Report) (ctx va : Nat) (wr : Bool) : Bool :=
  r.kind == 1 && r.ident.toNat / 2 ^ 25 % 64 == ctx && r.va.toNat / 2 ^ 16 == va / 2 ^ 16 && writeClass r.detail == wr

/-- R222, R409: does a report stand for the trap that a thread has in the fault bin now, or for the write of its record? -/
def State.reportsNow (s : State) (r : Report) (w : Nat × Nat) : Bool :=
  let t := s.thread w.1 w.2
  t.place == .fault && match t.trap with
    | none => false
    | some tr =>
      let a := s.recordAddr w.1 w.2 tr.nest
      if !tr.recorded then r.kind == 1 && (r.va.toNat / 2 ^ 16 == a / 2 ^ 16 || r.va.toNat / 2 ^ 16 == (a + 31) / 2 ^ 16)
      else if r.kind = 0 then r.recAddr.toNat == a
      else tr.cause == .translation && r.holds (s.aspOf w.1 w.2) tr.va.toNat (writeClass tr.detail)

/-- R222: a thread joins the report of its key, or a new one is posted. -/
def State.reportKey (s : State) (c sl : Nat) (va rec detail : DWord) : State :=
  let ctx := s.aspOf c sl
  if s.reports.any fun r => r.holds ctx va.toNat (writeClass detail) then
    { s with reports := s.reports.map fun r =>
        if r.holds ctx va.toNat (writeClass detail) then { r with joined := r.joined ++ [(c, sl)] } else r }
  else
    s.post ⟨1, Cause.translation.code, identOf c sl (s.thread c sl).group ctx, va, rec, detail, [(c, sl)]⟩

/-- R409: the fault of a thread is reported to the host; translation faults are coalesced. -/
def State.reportFault (s : State) (c sl : Nat) (tr : Trap) : State :=
  let rec_ : DWord := BitVec.ofNat 64 (s.recordAddr c sl tr.nest)
  if tr.cause = .translation then s.reportKey c sl tr.va rec_ tr.detail
  else s.post ⟨0, tr.cause.code, identOf c sl (s.thread c sl).group (s.aspOf c sl), tr.va, rec_, tr.detail, [(c, sl)]⟩

/-- R403: does a fault go to the device's handler? -/
def State.toDevice (s : State) (c sl : Nat) (tr : Trap) : Bool :=
  !tr.nest && (s.gridOf c sl).launch.faults.getLsbD tr.cause.code

/-- R312: the entry of the rendezvous latch in which a thread waits, once nothing else of its instance is under way. -/
def State.latchWait (s : State) (c sl : Nat) : Option LatchWait :=
  let t := s.thread c sl
  match t.inst, (s.die (dieOf c)).latch.find? (fun e => e.cmd.core == c && e.cmd.slot == sl) with
  | some x, some e =>
    if x.reqs.isEmpty && x.emits.isEmpty && x.squash.isNone && (s.core c).port.all fun k => k.slot != sl then
      some ⟨x, t.buf.filter (!·.committed), t.deferred.filter (!·.committed), e⟩
    else none
  | _, _ => none

/-- R312, R414: a thread that waits in the latch goes into the save handler; its instance and its entry are kept for its restore.
(DEDUCED, log entry 25.) -/
def State.saveLatched (s : State) (c sl : Nat) (w : LatchWait) : State :=
  let s1 := s.modDie (dieOf c) fun d => { d with latch := d.latch.filter (· != w.entry) }
  let s2 := s1.modCore c fun x => x.modContext w.inst.ctx fun y => { y with idleSince := s.clk }
  let s3 := s2.modThread c sl fun t =>
    { t with inst := none, next := w.inst.blk, buf := t.buf.filter (·.committed), deferred := t.deferred.filter (·.committed) }
  (s3.enterSave c sl (BitVec.allOnes 64) true).modThread c sl fun t =>
    { t with save := t.save.map fun v => { v with latch := some w } }

/-- R414, R420: a thread that waits while its group is being saved goes into the save handler with ALL = 1.
(DEDUCED, log entry 25.) -/
def State.saveWaiter (s : State) (c sl : Nat) : State :=
  let t := s.thread c sl
  let waits := match t.place with
    | .barrier _ | .rope | .channel _ | .halted => true
    | .fault => (match t.trap with | some tr => tr.recorded | none => true)
    | _ => false
  if !(s.groupOf c sl).isSaving || t.save.isSome then s
  else if waits then s.saveFrom c sl t.place t.next true
  else match s.latchWait c sl with
    | some w => s.saveLatched c sl w
    | none => s

/-- R414: at the end of a clk the threads of groups that are being saved, and that wait in the latch, go into the save handler. -/
def State.settleLatchSaves (s : State) : State :=
  s.dies.foldl (fun s e => e.2.latch.foldl (fun s q => s.saveWaiter q.cmd.core q.cmd.slot) s) s

/-- R403, R408, R409, R420: what follows a performed record. -/
def State.routeTrap (s : State) (c sl : Nat) (tr : Trap) : State :=
  if s.toDevice c sl tr then
    if (s.groupOf c sl).isSaving && (s.thread c sl).save.isNone then
      (s.modThread c sl fun u => { u with command := some (16 + tr.cause.code) }).saveWaiter c sl
    else s.enterHandler c sl tr.cause.code
  else (s.reportFault c sl tr).saveWaiter c sl

/-- Does a report of the trap that a thread has now, or of the write of its record, wait? -/
def State.reported (s : State) (c sl : Nat) : Bool :=
  s.reports.any fun r => decide (r.kind ≤ 1) && r.joined.contains (c, sl) && s.reportsNow r (c, sl)

/-- FAULT_RECORD_PERFORMED (R405): the record is written, and the thread enters its handler or is reported. A write that
fails translation is reported and waits for its replay; any other failure ends the grid with status 7 (R412). -/
def State.performRecord (s : State) (c sl : Nat) : State :=
  let t := s.thread c sl
  match t.trap with
  | none => s
  | some tr =>
    if t.place != .fault || tr.recorded || s.reported c sl then s
    else
      let a := s.recordAddr c sl tr.nest
      match s.judgeUnit (s.rootOf c sl) .store a 32 with
      | .ok gs _ =>
        -- R256, R344: the write waits for the agent that holds the line
        if s.mustWait gs 0 none then s else
        ((s.agentStoreNc 8 gs (recordBytes tr)).modThread c sl fun u =>
          { u with trap := some { tr with recorded := true }, nestOpen := u.nestOpen || tr.nest,
                   trapCause := BitVec.ofNat 8 (tr.cause.code + (if tr.nest then 64 else 0) + 128),
                   trapFblk := tr.fblk.setWidth 64 }).routeTrap c sl tr
      | .bad .translation va why lvl =>
        s.reportKey c sl (BitVec.ofNat 64 va) 0 (memDetail 0 1 lvl why)
      | _ => s.endGrid (s.groupOf c sl).grid 7

/-- FAULT_RECORD_PERFORMED (R405). -/
def execFaultRecordPerformed (s : State) : Res := .next (s.performRecord (s.arg 0) (s.arg 1))

/-! The driver's commands (R466) -/

/-- R466: the bytes [7:0] of a report. -/
def Report.name (r : Report) : Nat := r.ident.toNat + 2 ^ 32 * (r.cause + r.kind * 64)

/-- R466: the report that a command answers leaves the waiting ones. -/
def State.takeReport (s : State) (name : Nat) (kinds : List Nat) : Option (State × Report) :=
  match s.reports.find? fun r => r.name == name && kinds.contains r.kind with
  | some r =>
    let rec drop : List Report → List Report
      | [] => []
      | x :: t => if x = r then t else x :: drop t
    some ({ s with reports := drop s.reports }, r)
  | none => none

/-- A copy that waits for the driver goes on at its run (R295). -/
def State.resumeCopy (s : State) (c ch : Nat) : State :=
  s.modCore c fun x => x.modChannel ch fun y => { y with copies := y.copies.map fun cp => { cp with stalled := false } }

/-- R466: the replay command, for the report of a name. -/
def State.replayCommand (s : State) (name : Nat) : State :=
  match s.takeReport name [0, 1, 4, 5] with
    | none => s
    | some (s1, r) =>
      if r.kind ≤ 1 then r.joined.foldl (fun s w => s.command 0 (s.reportsNow r w) w) s1
      else if r.kind = 4 then
        r.joined.foldl (fun s w => s.modDie w.1 fun d => { d with heap := { d.heap with stalled := false } }) s1
      else r.joined.foldl (fun s w => s.resumeCopy w.1 w.2) s1

/-- REPLAY_COMMAND (R466). -/
def execReplayCommand (s : State) : Res := .next (s.replayCommand (s.arg 0))

/-- R466: the next command: resume next; of a copy report, abandon the copy, whose channel breaks with cause 2. -/
def State.nextCommand (s : State) (name : Nat) : State :=
  match s.takeReport name [0, 1, 5] with
    | none => s
    | some (s1, r) =>
      if r.kind ≤ 1 then r.joined.foldl (fun s w => s.command 1 (s.reportsNow r w) w) s1
      else r.joined.foldl (fun s w => s.breakChannel w.1 w.2 2) s1

/-- NEXT_COMMAND (R466). -/
def execNextCommand (s : State) : Res := .next (s.nextCommand (s.arg 0))

/-- R466: the kill command: the grids of the context, of a heap report the heap's grid, end with status 11.
(DEDUCED, log entry 26.) -/
def State.killCommand (s : State) (name : Nat) : State :=
  match s.takeReport name [0, 1, 2, 4, 5] with
    | none => s
    | some (s1, r) =>
      if r.kind = 4 then r.joined.foldl (fun s w => s.endGrid w.2 11) s1
      else s1.endContext (r.ident.toNat / 2 ^ 25 % 64) 11

/-- KILL_COMMAND (R466). -/
def execKillCommand (s : State) : Res := .next (s.killCommand (s.arg 0))

/-! Debug halts (R419, R426) -/

/-- R419, R426, R466: a halt report of a thread. (DEDUCED, log entry 26.) -/
def State.reportHalt (s : State) (c sl : Nat) : State :=
  s.post ⟨2, 0, identOf c sl (s.thread c sl).group (s.aspOf c sl), 0, 0, 0, [(c, sl)]⟩

/-- R419: the debugger halts a group: its threads stop where they wait or at their next commit; one report names its lowest thread. -/
def State.haltGroup (s : State) (core g : Nat) : State :=
  match Tbl.find? (s.core core).groups g with
  | none => s
  | some gr =>
    if gr.halted || gr.save == .discarded then s
    else
      let s1 := s.modGroup core g fun x => { x with halted := true }
      match gr.slots.find? fun sl => (s.thread core sl).place != .free with
      | some sl => s1.reportHalt core sl
      | none => s1

/-- DEBUG_HALT (R419). -/
def execDebugHalt (s : State) : Res := .next (s.haltGroup (s.arg 0) (s.arg 1))

/-- R419, R466: the debugger resumes a group: the threads that it holds are filed to their next blocks.
(DEDUCED, log entry 26.) -/
def State.resumeGroup (s : State) (c g : Nat) : State :=
  let gr := s.group c g
  let s1 := s.modGroup c g fun x => { x with halted := false }
  let s2 := gr.slots.foldl (fun s sl => if (s.thread c sl).waitsAt .halted then s.command 3 false (c, sl) else s) s1
  { s2 with reports := s2.reports.filter fun r => !(r.kind == 2 && r.joined.any fun (x, sl) => x == c && gr.slots.contains sl) }

/-- R419, R466: a halted group is resumed while it is swapped out; the threads that the halt holds go on at its restore. -/
def State.resumeSaved (s : State) (gn lin : Nat) : State :=
  s.modGrid gn fun gd =>
    let wakes (t : Thread) : Thread :=
      match t.save with
      | some k => if k.place = .halted then { t with command := some 3 } else t
      | none => t
    let resumed (v : SavedGroup) : SavedGroup :=
      { v with group := { v.group with halted := false }, threads := v.threads.map fun (i, t) => (i, wakes t) }
    { gd with saved := Tbl.mapVals (fun l v => if l = lin then resumed v else v) gd.saved }

/-- R466: the resume command: a halted group is resumed; while it is swapped out, the command waits for its restore. -/
def State.resumeCommand (s : State) (name : Nat) : State :=
  match s.takeReport name [2] with
  | none => s
  | some (s1, r) =>
    r.joined.foldl (fun s w =>
      if w.1 < 2 ^ 64 then s.resumeGroup w.1 (s.thread w.1 w.2).group
      else s.resumeSaved (w.1 / 2 ^ 64 - 1) (w.1 % 2 ^ 64)) s1

/-- RESUME_COMMAND (R466). -/
def execResumeCommand (s : State) : Res := .next (s.resumeCommand (s.arg 0))

/-- R466: the 16 bytes of a driver's command: OP, and the bytes [7:0] of the report that it answers. -/
def State.driverCommand (s : State) (op name : Nat) : State :=
  match op with
  | 0 => s.replayCommand name
  | 1 => s.nextCommand name
  | 2 => s.killCommand name
  | _ => s.resumeCommand name

/-- R419: the saved group that had a number on a core, as grid and linear group. -/
def State.savedAt (s : State) (c g : Nat) : Option (Nat × Nat × SavedGroup) :=
  s.grids.findSome? fun (gn, gd) =>
    (Tbl.first? (fun _ v => v.core == c && v.num == g && !v.discarded) gd.saved).map fun e => (gn, e.1, e.2)

/-- R419: what a debugger reads of a group of a core: 0 none, 1 running, 2 halted, 3 "halted, swapped out". (PRESUMED, log entry 21.) -/
def State.haltWord (s : State) (c g : Nat) : Nat :=
  match Tbl.find? (s.core c).groups g with
  | some gr => if gr.halted then 2 else 1
  | none => match s.savedAt c g with
    | some (_, _, v) => if v.group.halted then 3 else 0
    | none => 0

/-- R419: a debugger's write: bit 0 halts the group, or resumes it. (PRESUMED, log entry 21.) -/
def State.haltControl (s : State) (c g : Nat) (halt : Bool) : State :=
  if halt then s.haltGroup c g
  else match Tbl.find? (s.core c).groups g with
    | some gr => if gr.halted then s.resumeGroup c g else s
    | none => match s.savedAt c g with
      | some (gn, lin, _) =>
        let s1 := s.resumeSaved gn lin
        { s1 with reports := s1.reports.filter fun r => !(r.kind == 2 && r.joined.any fun w => w.1 == savedKey gn lin) }
      | none => s

/-! TLB invalidation (R219) -/

/-- TLB_INVALIDATE (R219): entries of pages of the address space that meet the range leave every TLB. A walk is made and ends in one
act, so none that has read an old entry is under way when the invalidation is done. -/
def State.tlbInvalidate (s : State) (ctx vpn count : Nat) : State :=
  let keep (e : TlbEntry) : Bool := !(e.asp == ctx && decide (e.base < vpn + count) && decide (vpn < e.base + e.pages))
  let s1 : State := { s with
    cores := Tbl.mapVals (fun _ x => { x with tlb := x.tlb.filter keep }) s.cores
    dies := Tbl.mapVals (fun _ x => { x with tlb := x.tlb.filter keep }) s.dies }
  s1.modMgmt fun m => { m with invDone := false, invPending := true }

/-- TLB_INVALIDATE (R219). -/
def execTlbInvalidate (s : State) : Res := .next (s.tlbInvalidate (s.arg 0) (s.arg 1) (s.arg 2))

/-- TLB_INVALIDATE_DONE (R219): the command is complete, and DONE reads as 1. -/
def execTlbInvalidateDone (s : State) : Res :=
  .next (if s.mgmt.invPending then s.modMgmt fun m => { m with invDone := true, invPending := false } else s)

end Sys2Proof.Machine
end

