-- ==== Sys2Proof/Machine/Preemption.lean ====
section
/-! DEFINITION. Pre-emption (R38, R152-R155, R260-R262, R412-R418): the start of a save, its scratchpad pass and its
completion, the restore, the expiry of `preempt.limit`, and the discarding of a group under the idempotent rule. -/

namespace Sys2Proof.Machine

/-! Discarding (R418) -/

/-- The slots of a group that hold a thread. -/
def State.liveSlotsOf (s : State) (c g : Nat) : List Nat :=
  (s.group c g).slots.filter fun sl => (s.thread c sl).place != .free

/-- R418: does a thread stand in a block with ID = 1, in flight or binned to it? -/
def State.standsIdem (s : State) (c sl : Nat) : Bool :=
  let t := s.thread c sl
  match t.place with
  | .inFlight => (match t.inst with | some x => s.isIdem (s.rootOf c sl) x.blk | none => false)
  | .binned _ | .fifo => s.isIdem (s.rootOf c sl) t.next
  | _ => false

/-- R418: is the group to be discarded instead of saved? -/
def State.mayDiscard (s : State) (c g : Nat) : Bool :=
  let gr := s.group c g
  let live := s.liveSlotsOf c g
  (match gr.save with | .saving _ => true | _ => false) && !gr.entered && !live.isEmpty && live.all fun sl => s.standsIdem c sl

/-! The start of a save (R414) -/

/-- R152, R414: what the start of a save, or a later clk of it, does with a thread that stands in a bin: one at a piton goes to the
save handler once nothing of it is pending. (DEDUCED, log entry 25.) -/
def State.startSave (s : State) (c sl : Nat) : State :=
  let t := s.thread c sl
  match t.place with
  | .binned _ | .fifo =>
    if s.toSave c sl then (s.modCore c fun x => x.unfile sl).saveFrom c sl .free t.next (s.groupOf c sl).halted else s
  | _ => s.saveWaiter c sl

/-- R152, R414: at the end of a clk the threads of groups that are being saved, and that stood in the bin of a piton until their fills
had come, go to the save handler. -/
def State.settleSaves (s : State) : State :=
  s.cores.foldl (fun s e => (e.2.groups.filter fun g => g.2.isSaving).foldl (fun s g => g.2.slots.foldl (fun s sl =>
    match (s.thread e.1 sl).place with
    | .binned _ | .fifo => s.startSave e.1 sl
    | _ => s) s) s) s

/-- SAVE_START (R414): from this clk each thread of a chosen victim heads for the save handler. A group that stands wholly
in idempotent blocks is left for GROUP_DISCARD. -/
def execSaveStart (s : State) : Res :=
  let core := s.arg 0
  let g := s.arg 1
  .next (match Tbl.find? (s.core core).groups g with
    | none => s
    | some gr =>
      if gr.save != .chosen then s
      else
        let s1 := s.modGroup core g fun x => { x with save := .saving s.clk, entered := false, saveClk := 0 }
        if s1.mayDiscard core g then s1.urge (.event .groupDiscard [core, g])
        else (s1.liveSlotsOf core g).foldl (fun s sl => s.startSave core sl) s1)

/-! The end of a save (R415, R260) -/

/-- R415: has a group threads, and have they all halted in the save handler, and its engine commands completed? -/
def State.allHalted (s : State) (c g : Nat) : Bool :=
  !(s.liveSlotsOf c g).isEmpty
    && ((s.liveSlotsOf c g).all fun sl => match (s.thread c sl).save with | some v => v.done | none => false)
    && s.enginesDone c g && !(s.dies.any fun e => e.2.heap.creating.any fun (x, _, sl, _) => x == c && (s.group c g).slots.contains sl)

/-- SCRATCH_SAVE_PASS (R415): the lowest-slot thread enters the save handler once more, with SCR = 1. -/
def execScratchSavePass (s : State) : Res :=
  let core := s.arg 0
  let g := s.arg 1
  .next (match (s.group core g).save with
    | .saving t =>
      if !s.allHalted core g then s
      else
        let s1 := s.modGroup core g fun x => { x with save := .scratch t }
        match s.liveSlotsOf core g with
        | sl :: _ =>
          (s1.modThread core sl fun u => { u with place := .free, save := u.save.map fun v => { v with scr := true, done := false } }).fileTo
            core sl ((s1.thread core sl).trapBase.setWidth 56)
        | [] => s1
    | _ => s)

/-- R260: has every store that a group's threads sent been acknowledged? -/
def State.allAcked (s : State) (c g : Nat) : Bool :=
  (s.liveSlotsOf c g).all fun sl => let t := s.thread c sl; t.unacked == 0 && t.buf.all fun e => !e.sent

/-- R412: the frame of a group in the bivouac area: base and length. (DESIGN CHOICE, log entry 24.) -/
def State.frameOf (s : State) (gn lin : Nat) : Nat × Nat :=
  let r := (s.grid gn).launch
  (r.biv.toNat + lin * r.frameSize, 2 ^ 15 + 2 ^ 11 * r.groupSize)

/-- R412: how the hardware's access to a group's frame ends. -/
inductive FrameAccess where
  | ok
  | wait (va : Nat) (detail : DWord)
  | dead
deriving DecidableEq, Repr

/-- R412: may the hardware access the records of a group's frame? (DESIGN CHOICE, log entry 24.) -/
def State.frameAccess (s : State) (root gn lin : Nat) (row : AccessRow) : FrameAccess :=
  let f := s.frameOf gn lin
  match s.judgeUnit root row f.1 f.2 with
  | .ok _ _ => .ok
  | .bad .translation va why lvl => .wait va (memDetail 0 row.kind lvl why)
  | _ => .dead

/-- R412: the access of a frame failed: it is reported in the name of the group and waits, or the grid ends with status 7.
(DEDUCED, log entry 25.) -/
def State.frameFail (s : State) (c g : Nat) : FrameAccess → State
  | .wait va detail =>
    let gr := s.group c g
    let ctx := (s.grid gr.grid).ctx
    s.post ⟨1, Cause.translation.code, identOf c (gr.slots.headD 0) g ctx, BitVec.ofNat 64 va, 0, detail,
      [(savedKey gr.grid gr.lin, 2 ^ 64)]⟩
  | _ => s.endGrid (s.group c g).grid 7

/-- Does a report wait for an access of a group's frame? -/
def State.frameReported (s : State) (gn lin : Nat) : Bool :=
  s.reports.any fun r => r.kind == 1 && r.joined.contains (savedKey gn lin, 2 ^ 64)

/-- R413, R153: a thread as the hardware's part of a save keeps it: its live slots lie in its image. -/
def Thread.forRecord (t : Thread) : Thread := { t with live := [], inst := none, place := .saved }

/-- R412, R413: the hardware's own records of a group are written to its frame: the group record, and of each thread its record and
its store-buffer entries. The manual does not state their layout, so the bytes are free values. (DESIGN CHOICE, log entry 24.) -/
def State.writeRecords (s : State) (gr : Group) (lins : List Nat) : State :=
  let put (s : State) (va n : Nat) : State := s.unitWrite gr.root va ((List.range n).map fun i => Config.frameByte s.clk (va + i))
  let s1 := put s (s.frameOf gr.grid gr.lin).1 (2 ^ 15)
  lins.foldl (fun s i => put s (threadAreaOf (s.grid gr.grid).launch gr.lin i + 320) 1728) s1

/-- SAVE_COMPLETE (R415): the records are written, and the group leaves its core, blocked. (DESIGN CHOICE, log entry 24.) -/
def State.saveComplete (s : State) (c g : Nat) : State :=
  let gr := s.group c g
  match gr.save with
  | .scratch start =>
    if !s.allHalted c g || !s.allAcked c g || s.frameReported gr.grid gr.lin then s
    else match s.frameAccess gr.root gr.grid gr.lin .store with
      | .ok =>
        let e := (s.core c).enginesOf g
        let v : SavedGroup :=
          { group := { gr with save := .none }
            threads := (s.liveSlotsOf c g).map fun sl => ((s.thread c sl).lin, (s.thread c sl).forRecord)
            chan := e.chan, channels := e.channels, accs := e.accs, temp := e.temp, core := c, discarded := false, at_ := start,
            begun := false, num := g }
        let s0 := s.writeRecords gr (v.threads.map (·.1))
        let s1 := s0.renameReports fun w =>
          if w.1 = c && gr.slots.contains w.2 then (savedKey gr.grid gr.lin, (s.thread c w.2).lin) else w
        let s2 := (s1.removeGroup c g).leaveL1 (· == c) fun _ => true
        (s2.modGrid gr.grid fun x => { x with saved := Tbl.set x.saved gr.lin v }).blockRope gr.grid
          (gr.lin / (s.grid gr.grid).launch.ropeG)
      | bad => s.frameFail c g bad
  | _ => s

/-- SAVE_COMPLETE (R415). -/
def execSaveComplete (s : State) : Res := .next (s.saveComplete (s.arg 0) (s.arg 1))

/-- R152, R417: has the count of a group's save reached LIMIT before its end? -/
def State.saveOverdue (s : State) (c g : Nat) (gr : Group) : Bool :=
  !gr.halted && decide (gr.preemptLimit.toNat % 2 ^ 32 ≤ gr.saveClk) && match gr.save with
    | .saving _ => (s.liveSlotsOf c g).any fun sl => match (s.thread c sl).save with | some v => !v.done | none => true
    | .discarded | .restoring => gr.slots.any fun sl => (s.thread c sl).pending != 0
    | _ => false

/-- PREEMPT_LIMIT_EXPIRY (R152, R417): the save, or the wait of a discarded group for its fills, took LIMIT clk; every grid of the
context ends with status 8. -/
def execPreemptLimitExpiry (s : State) : Res :=
  let core := s.arg 0
  let g := s.arg 1
  let gr := s.group core g
  .next (if s.saveOverdue core g gr then s.endContext (s.grid gr.grid).ctx 8 else s)

/-- R134, R137, R155, R262, R418: a thread of a discarded group: its instance is squashed under R133, and ends without a record (the fault
that marks it is never taken); it keeps its slots and its committed entries, and will restart at its idempotent-region entry. A region
that it had open is freed, and an entry that it waits with in the rendezvous latch is withdrawn with null results. -/
def State.discardThread (s : State) (c sl : Nat) : State :=
  let s0 := match (s.thread c sl).region with | some k => ((s.unlockAll c k).freeRegion c sl).releaseToken c sl | none => s
  let s1 := (s0.modCore c fun x => x.unfile sl).modThread c sl fun t =>
    { t with inst := t.inst.map fun x => { x.squashWith ⟨.brk, 0, 0, 0⟩ with region := none },
             place := if t.inst.isSome then t.place else .saved, next := t.idem, buf := t.buf.filter (·.committed),
             deferred := t.deferred.filter (·.committed) }
  ((s1.die (dieOf c)).latch.filter fun e => e.cmd.core == c && e.cmd.slot == sl).foldl (fun s e =>
    (s.modDie (dieOf c) fun d => { d with latch := d.latch.filter (· != e) }).finishPort c ⟨sl, e.cmd.idx, .hself, .none, e.t1⟩ 0
      nullTok nullTok) s1

/-- GROUP_DISCARD (R418): the group keeps its slots and its state on its core, and gives back scratchpad and grant. -/
def execGroupDiscard (s : State) : Res :=
  let core := s.arg 0
  let g := s.arg 1
  .next (if s.mayDiscard core g then
    let gr := s.group core g
    let start := match gr.save with | .saving t => t | _ => s.clk
    let v : SavedGroup := ⟨gr, [], [], [], [], none, core, true, start, false, g⟩
    let s1 := (s.liveSlotsOf core g).foldl (fun s sl => s.discardThread core sl) s
    let s2 := s1.modGroup core g fun x => { x with save := .discarded, spSize := 0, grant := 0 }
    (s2.modGrid gr.grid fun x =>
      { x with resident := x.resident.filter (· != (core, g)), saved := Tbl.set x.saved gr.lin v }).blockRope gr.grid
      (gr.lin / (s.grid gr.grid).launch.ropeG)
  else s)

/-! Restore (R154, R416) -/

/-- R154, R416: the live slots of a restored thread: those of its mask from its image, every other zero; none when the image
cannot be read. -/
def State.imageSlots (s : State) (root gn lin i : Nat) (mask : DWord) : Option (Tbl Word) :=
  (s.unitRead root (threadAreaOf (s.grid gn).launch lin i) 256).map fun bs =>
    (List.range 64).filterMap fun k =>
      let w : Word := BitVec.ofNat 32 (fieldAt bs (4 * k) 4)
      if mask.getLsbD k && w != 0 then some (k, w) else none

/-- R416: a restored thread is put back where R414 found it, in user mode; a kept command is obeyed. (DEDUCED, log entry 25.) -/
def State.putBack (s : State) (c sl : Nat) (v : SaveInfo) : State :=
  let s1 := s.modThread c sl fun t =>
    { t with save := none, priv := false, place := .free, next := v.next, trap := v.trap, resume := v.latch, haltNext := v.blk,
             waitIdx := v.idx, hdoneArg := v.arg, reArmed := v.again }
  let s2 := match v.place with
    | .barrier _ | .rope | .channel _ | .fault | .halted => s1.modThread c sl fun t => { t with place := v.place }
    | _ => if (s1.thread c sl).reArmed then s1.goTo c sl v.next else s1.fileTo c sl v.next
  match (s2.thread c sl).command with
  | some cmd => if v.place = .fault || v.place = .halted then s2.obey c sl cmd else s2
  | none => s2

/-- R144, R154, R260, R416: the next thread of a restored group: its live slots, those that its mask does not name among them as zeros,
are queued once their banks have room, and its entries return to its buffer. (DESIGN CHOICE, log entry 24.) -/
def State.restoreThread (s : State) (c g : Nat) (gr : Group) (v : SavedGroup) (i : Nat) (t : Thread) (rest : List (Nat × Thread)) : State :=
  let sl := gr.slots.getD (if gr.carrier then i else gr.slots.length - v.threads.length) 0
  let mask : DWord := match t.save with | some k => k.mask | none => 0
  match s.imageSlots gr.root gr.grid gr.lin i mask with
  | none => s.endGrid gr.grid 7
  | some live =>
    if !(s.core c).roomAll then s
    else
      let back (e : BufEntry) : BufEntry := e.carry (spLoc v.core v.group.spBase) v.group.spSize (spLoc c gr.spBase)
      let s1 := (s.modThread c sl fun _ => { t with group := g, live := live, badParity := 0, buf := t.buf.map back }).modCore c fun x =>
        x.queueWrites sl (List.range 64)
      (s1.renameReports fun w => if w = (savedKey gr.grid gr.lin, i) then (c, sl) else w).modGrid gr.grid fun x =>
        { x with saved := Tbl.set x.saved gr.lin { v with threads := rest } }

/-- R416: the group record and the scratchpad image are read; the image is what memory holds then. (DESIGN CHOICE, log entry 24.) -/
def State.restoreImage (s : State) (c g : Nat) (gr : Group) (v : SavedGroup) : State :=
  let f := s.frameOf gr.grid gr.lin
  match (if gr.spSize = 0 then some [] else s.unitRead gr.root (f.1 + f.2) gr.spSize),
      s.judgeUnit gr.root .load (f.1 + f.2) (max 1 gr.spSize) with
  | some bs, _ =>
    (s.wr (spLoc c gr.spBase) bs).modGrid gr.grid fun x => { x with saved := Tbl.set x.saved gr.lin { v with begun := true } }
  | none, .bad .translation va why lvl => s.frameFail c g (.wait va (memDetail 0 0 lvl why))
  | none, _ => s.endGrid gr.grid 7

/-- R100, R416: the restored threads are put back where the save found them, and filed, all in one clk. -/
def State.restoreEnd (s : State) (c g : Nat) (gr : Group) : State :=
  let s1 := (s.modGroup c g fun x => { x with save := .none }).modGrid gr.grid fun x => { x with saved := Tbl.erase x.saved gr.lin }
  let s2 := gr.slots.foldl (fun s sl => match (s.thread c sl).save with | some v => s.putBack c sl v | none => s) s1
  let s3 := (gr.slots.foldl (fun s sl => match (s.thread c sl).place with | .filing _ => s.fileNow c sl | _ => s) s2).modCore c fun x =>
    { x with filedAll := some s.clk }
  s3.settleRope gr.grid (gr.lin / (s.grid gr.grid).launch.ropeG)

/-- R412: do bytes of a frame that the hardware reads hold poison? -/
def State.frameBad (s : State) (root va n : Nat) : Bool :=
  match s.judgeUnit root .load va n with | .ok gs _ => s.segsPoisoned gs | _ => false

/-- R412: is what the next step of a restore reads of the hardware's records poisoned: the group record, or the record and the
store-buffer entries of the next thread? -/
def State.recordBad (s : State) (gr : Group) (v : SavedGroup) : Bool :=
  if !v.begun then s.frameBad gr.root (s.frameOf gr.grid gr.lin).1 (2 ^ 15)
  else match v.threads with
    | (i, _) :: _ => s.frameBad gr.root (threadAreaOf (s.grid gr.grid).launch gr.lin i + 320) 1728
    | [] => false

/-- GROUP_RESTORE of a saved group (R416): while a report of its frame waits, so does the restore; then the group record and the
scratchpad, each thread in ascending slot, and the threads' places. (DESIGN CHOICE, log entry 24.) -/
def State.restoreSaved (s : State) (c g : Nat) (v : SavedGroup) : State :=
  let gr := s.group c g
  if s.frameReported gr.grid gr.lin then s
  else match s.frameAccess gr.root gr.grid gr.lin .load with
    | .ok =>
      if s.recordBad gr v then s.endGrid gr.grid 7
      else if !v.begun then s.restoreImage c g gr v
      else match v.threads with
        | (i, t) :: rest => s.restoreThread c g gr v i t rest
        | [] => s.restoreEnd c g gr
    | bad => s.frameFail c g bad

/-- GROUP_RESTORE of a discarded group (R152, R262, R418): once nothing is pending and every committed entry has been
performed, its allocation holds zeros and each thread restarts at its idempotent-region entry. -/
def State.restoreDiscarded (s : State) (c g : Nat) : State :=
  let gr := s.group c g
  let live := s.liveSlotsOf c g
  if live.all fun sl => let t := s.thread c sl; t.place == .saved && t.pending == 0 && t.buf.isEmpty && t.unacked == 0 then
    let s1 := s.wr (spLoc c gr.spBase) (List.replicate gr.spSize 0)
    let s2 := (s1.modGroup c g fun x => { x with save := .none }).modGrid gr.grid fun x =>
      { x with saved := Tbl.erase x.saved gr.lin }
    live.foldl (fun s sl => (s.modThread c sl fun t => { t with place := .free }).fileTo c sl (s.thread c sl).next) s2
  else s

/-- GROUP_RESTORE (R416, R418). -/
def execGroupRestore (s : State) : Res :=
  let core := s.arg 0
  let g := s.arg 1
  let gr := s.group core g
  .next (match gr.save, s.savedOf gr.grid gr.lin with
    | .restoring, some v => if v.discarded then s.restoreDiscarded core g else s.restoreSaved core g v
    | _, _ => s)

end Sys2Proof.Machine
end

