-- ==== Sys2Proof/Machine/Fabric.lean ====
section
/-! DEFINITION. The fabric between instances (chapter 5, R58, R59, R78, R99-R111, R124-R128, R134-R136): bins, the choice
of a block to configure, the fetch and check of a block, admission, forced closure, sealing and quiescence. -/

namespace Sys2Proof.Machine

/-! Bins as the scheduler sees them (R99) -/

/-- R99: the thread of a bin that was filed earliest. -/
def Core.oldest (x : Core) (b : Bin) : Option Nat := x.earliest b.vec

/-- R99: the clk of the earliest filing into a bin. -/
def Core.oldestClk (x : Core) (b : Bin) : Nat := match x.oldest b with | some i => (x.thread i).filed | none => 0

/-- The priority of a thread's group. -/
def Core.prioOf (x : Core) (sl : Nat) : Nat := (x.group (x.thread sl).group).prio

/-- R99, R100: the priority of a bin at a clk: of the threads that count in it. -/
def Core.binPrio (x : Core) (clk : Nat) (b : Bin) : Nat :=
  ((b.vec.filter fun i => decide ((x.thread i).filed < clk)).map x.prioOf).foldl max 0

/-- R105: is the bin ripe? -/
def Core.ripe (x : Core) (clk : Nat) (b : Bin) : Bool :=
  match b.window with | some w => decide (w ≤ clk - x.oldestClk b) | none => false

/-- R100: the threads of a bin that count at a clk. -/
def Core.counted (x : Core) (clk : Nat) (b : Bin) : Nat := (b.vec.filter fun i => decide ((x.thread i).filed < clk)).length

/-- R105: is the bin full? -/
def Core.full (x : Core) (clk : Nat) (b : Bin) : Bool := decide (b.fill ≤ x.counted clk b)

/-- R105: does one bin come before another? -/
def Core.binBefore (x : Core) (clk : Nat) (p q : Nat × Bin) : Bool :=
  let a := p.2
  let b := q.2
  let key (y : Bin) : Nat × Nat := match y.key with | some (asp, addr) => (addr.toNat, asp) | none => (0, 0)
  if x.binPrio clk a ≠ x.binPrio clk b then decide (x.binPrio clk b < x.binPrio clk a)
  else if x.ripe clk a != x.ripe clk b then x.ripe clk a
  else if x.ripe clk a && x.oldestClk a ≠ x.oldestClk b then decide (x.oldestClk a < x.oldestClk b)
  else if !x.ripe clk a && x.counted clk a ≠ x.counted clk b then decide (x.counted clk b < x.counted clk a)
  else decide ((key a).1 < (key b).1) || ((key a).1 == (key b).1 && decide ((key a).2 < (key b).2))

/-- R105: the bin that is chosen, of those that are open, hold a thread, and are ripe or full. (DESIGN CHOICE, log entry 22.) -/
def Core.chosenBin (x : Core) (clk : Nat) : Option (Nat × Bin) :=
  bestBy (x.binBefore clk) (x.bins.filter fun e =>
    e.2.key.isSome && e.2.ctx.isNone && !e.2.vec.isEmpty && decide (0 < x.counted clk e.2) && (x.ripe clk e.2 || x.full clk e.2))

/-! Contexts -/

/-- R117: the four contexts. -/
def ctxNums : List Nat := [0, 1, 2, 3]

/-- R105: is a context reclaimable? -/
def Core.reclaimable (x : Core) (k : Nat) : Bool :=
  let c := x.context k
  c.state == .opened && c.quiet && (match c.bin with | some b => (x.bin b).vec.isEmpty | none => true)

/-- R105, R110: the context that the chosen bin takes. (DESIGN CHOICE, log entry 22.) -/
def Core.contextToTake (x : Core) : Option Nat :=
  let sealedOne := ctxNums.find? fun k =>
    x.reclaimable k && (match (x.context k).bin with | some b => (x.bin b).isSealed | none => false)
  match sealedOne with
  | some k => some k
  | none =>
    match ctxNums.find? fun k => (x.context k).state == .free with
    | some k => some k
    | none =>
      bestBy (fun a b => decide ((x.context a).lastAdmit < (x.context b).lastAdmit)) (ctxNums.filter x.reclaimable)

/-- R458: the excess of a PE in a context, over its causes. -/
def Core.excessOf (x : Core) (k pe : Nat) : Nat := sumNat ((List.range 5).map fun q => Tbl.get 0 x.excess ((k * 64 + pe) * 5 + q))

/-- R458: the counters of a context are cleared. -/
def Core.clearExcess (x : Core) (k : Nat) : Core :=
  { x with excess := x.excess.filter (fun e => e.1 / 5 / 64 != k), lastFire := x.lastFire.filter fun e => e.1 / 64 != k }

/-- R456, R458: the time-loss record of a context of a core that is closed or replaced; a block with DII = 0 has none (R54).
(DEDUCED, log entry 31.) -/
def State.lossRecord (s : State) (c k : Nat) : State :=
  let x := s.core c
  let ctx := x.context k
  if ctx.block.dii = 0 then s
  else
    let pes := List.range 64
    let worst := (bestBy (fun a b => decide (x.excessOf k b < x.excessOf k a)) pes).getD 0
    let cause := (bestBy (fun a b =>
      decide (Tbl.get 0 x.excess ((k * 64 + worst) * 5 + b) < Tbl.get 0 x.excess ((k * 64 + worst) * 5 + a))) (List.range 5)).getD 0
    let total := min (2 ^ 32 - 1) (sumNat (pes.map (x.excessOf k)))
    s.offer (dieOf c) ⟨s.tsc (dieOf c), c, 7, ctx.asp, BitVec.ofNat 32 (worst + cause * 2 ^ 6 + k * 2 ^ 9),
      ctx.block.addr.setWidth 64, BitVec.ofNat 64 (total + ctx.admits * 2 ^ 32), none⟩

/-- R109, R110, R136: an open context is closed: its bin becomes open again, with its vector and its seal; a bin with no thread is
freed. A context that is quiet already is free at once (R135), and its forced closure is over.
(DEDUCED, log entry 31.) -/
def Core.closeContext (x : Core) (k : Nat) (forced : Bool) : Core :=
  let ctx := x.context k
  let y := x.modContext k fun z =>
    { z with state := if ctx.quiet then .free else .closed, bin := none, candidates := [], forced := forced && !ctx.quiet, closing := none }
  let y := if forced && ctx.quiet then { y with forcing := false } else y
  match ctx.bin with
  | some b =>
    let z := y.modBin b fun w => { w with ctx := none }
    if (z.bin b).vec.isEmpty then z.releaseBin b else z
  | none => y

/-- R109, R136: the closure of an open context is decided; it takes effect from the next clk. -/
def State.closeCtx (s : State) (c k : Nat) (forced : Bool) : State :=
  s.modCore c fun x => x.modContext k fun z => { z with closing := some (forced || z.closing == some true) }

/-- R136, R458: at the end of a clk the closures that were decided in it take effect. -/
def State.settleClosures (s : State) : State :=
  s.cores.foldl (fun s e => ctxNums.foldl (fun s k =>
    let z := (s.core e.1).context k
    match z.state, z.closing with
    | .opened, some forced => (s.lossRecord e.1 k).modCore e.1 fun x => x.closeContext k forced
    | _, _ => s) s) s

/-- R124: the in-flight threads of a core. -/
def Core.inFlight (x : Core) : List (Nat × Inst) :=
  x.threads.filterMap fun (sl, t) => t.inst.map fun i => (sl, i)

/-- QUIESCENCE_SET (R134): 3 clk after the last instance of a context left it; a closed context is then free. -/
def execQuiescenceSet (s : State) : Res :=
  let core := s.arg 0
  let k := s.arg 1
  let x := s.core core
  let ctx := x.context k
  .next (if ctx.quiet || decide (s.clk < ctx.idleSince + 3) || x.inFlight.any fun e => e.2.ctx == k then s
    else
      s.modCore core fun y =>
        let z := y.modContext k fun w => { w with quiet := true, state := if w.state = .closed then .free else w.state, forced := false }
        if ctx.forced then { z with forcing := false } else z)

/-- R53, R101: the window that a header, or where none can be read `gather.default` as it was when the bin was opened, gives it. -/
def State.binWindow (s : State) (b : Bin) : Nat :=
  match b.key with
  | some (_, addr) => (match s.headerAt b.root addr with
    | some h => if hdrGO h then hdrGW h * 4 else b.dflt
    | none => b.dflt)
  | none => b.dflt

/-- R21, R22, R78: the clk that a configuration takes, from the block's words. (DEDUCED, log entry 27.) -/
def configTime (words : Nat) : Nat := 8 + (words + 3) / 4

/-! The fetch of a block (R58, R59) -/

/-- R58, R59, R220: one word of a fetch: its page must be executable, and coherent. -/
def State.fetchWord (s : State) (root c asp va : Nat) : Except (Cause × DWord) (Nat × DWord) :=
  if va / 2 ^ 48 = 0xf0 ∨ va / 2 ^ 48 = 0xf1 then .error (.permission, memDetail 0 3 0 5)
  else
    let judge (leaf : DWord) : Except (Cause × DWord) (Nat × DWord) :=
      if !leafBit leaf 6 then .error (.permission, memDetail 0 3 0 3)
      else if memTypeOf leaf != .coherent then .error (.permission, memDetail 0 3 0 6)
      else
        let pa := paUnder leaf va
        if s.poisoned pa 4 then .error (.poison, memDetail 0 3 0 0) else .ok (s.rd pa 4, leaf)
    match tlbFind (s.core c).tlb asp (va / 2 ^ 16) with
    | some e => judge e.leaf
    | none => match s.walk root va with
      | .found leaf _ => judge leaf
      | .bad why lvl => .error (.translation, memDetail 0 3 lvl why)
      | .poison lvl => .error (.poison, memDetail 0 3 lvl 0)

/-- R58: the next word of a fetch, in ascending address order; the header says how many there are. (DEDUCED, log entry 27.) -/
def State.fetchNext (s : State) (c : Nat) (f : Fetch) : Fetch :=
  if f.failed.isSome || decide (f.need ≤ f.words.length) then f
  else
    let va := (f.addr.toNat + 4 * f.words.length) % 2 ^ 56
    match s.fetchWord f.root c f.asp va with
    | .error (cause, detail) => { f with failed := some (cause, va, detail) }
    | .ok (w, leaf) =>
      { f with words := f.words ++ [w], user := f.user && leafBit leaf 7, leaves := f.leaves ++ [(va / 2 ^ 16, leaf)],
               need := if f.words.isEmpty then hdrWords w else f.need }

/-- R58: the next words of a fetch. -/
def State.fetchWords (s : State) (c : Nat) : Nat → Fetch → Fetch
  | 0, f => f
  | n + 1, f => s.fetchWords c n (s.fetchNext c f)

/-- R58: where the words that a fetch has read stand. -/
def Fetch.places (f : Fetch) : List Seg :=
  ((List.range f.leaves.length).zip f.leaves).map fun (i, _, leaf) => ⟨paUnder leaf (f.addr.toNat + 4 * i), 4, false⟩

/-- R212, R217, R433, R436: what the reads of a fetch for a core leave: its walks fill the TLBs where they succeed, and its lines
stand in the L2, their granule's class as an access by the core makes it. A granule private to another core is flushed first. -/
def State.fetched (s : State) (c : Nat) (f : Fetch) : State :=
  let w : Accessor := ⟨c, f.asp, { Group.reset with root := f.root }, false, false⟩
  ((dirLines f.places).foldl (fun s l =>
    match s.granuleOwner (l / 512) with
    | some o => if o = c then s else (s.touchOther l).dirGrant l (dieOf c) false
    | none => s.takeLine (some c) (dieOf c) l false) (s.walked w f.addr.toNat (4 * max 1 f.leaves.length))).cacheLines c false f.places

/-- BIN_HEADER_RETURN (R101): the window of the bin is fixed; the read leaves what a fetch of the header leaves. -/
def execBinHeaderReturn (s : State) : Res :=
  let core := s.arg 0
  let b := s.arg 1
  let y := (s.core core).bin b
  .next (if y.window.isSome then s
    else match y.key with
      | none => s
      | some (asp, addr) =>
        (s.fetched core (s.fetchNext core ⟨0, s.clk, 0, y.root, asp, addr, [], true, [], 1, none⟩)).modCore core fun x =>
          x.modBin b fun z => { z with window := some (s.binWindow y) })

/-- R58: at the end of a clk the configurations under way read on: four words in each clk once the header has been read.
(DESIGN CHOICE, log entry 27.) -/
def State.settleFetches (s : State) : State :=
  { s with cores := Tbl.mapVals (fun c x =>
      match x.fetch with
      | some f => if f.start + 8 ≤ s.clk then { x with fetch := some (s.fetchWords c 4 f) } else x
      | none => x) s.cores }

/-- CONFIG_START (R105): the chosen bin takes a context, and its configuration begins with the read of the header, which gives
the time it takes. (DEDUCED, log entry 27.) -/
def execConfigStart (s : State) : Res :=
  let core := s.arg 0
  let x := s.core core
  .next (match x.fetch, x.chosenBin s.clk, x.contextToTake with
    | none, some (b, bin), some k =>
      match bin.key with
      | none => s
      | some (asp, addr) =>
        let old := x.context k
        let s1 := if old.state = .opened then s.lossRecord core k else s
        let f := s.fetchNext core ⟨k, s.clk, 0, bin.root, asp, addr, [], true, [], 1, none⟩
        s1.modCore core fun y =>
          let z := (y.clearExcess k).modContext k fun _ => { Context.reset with state := .configuring, bin := some b, asp := asp }
          let w := z.modBin b fun u => { u with ctx := some k }
          let v := match old.bin with
            | some ob => if ob = b then w else ((w.modBin ob fun u => { u with ctx := none }).releaseBin ob)
            | none => w
          { v with fetch := some { f with due := s.clk + configTime f.need }
                   forcing := v.forcing && old.closing != some true }
    | _, _, _ => s)

/-- What configuring a block gives: the block, or the fault of its rejection with its resume-next address. -/
inductive Configured where
  | block (b : Block) (user : Bool)
  | reject (cause : Cause) (va : Nat) (detail : DWord) (next : VAddr)
deriving DecidableEq, Repr

/-- R58, R59, R76, R78: what a fetch that has ended gives: a checked block, or a fault. (DEDUCED, log entry 27.) -/
def Fetch.result (f : Fetch) : Configured :=
  let h := f.words.headD 0
  let next := if f.words.isEmpty then f.addr else fallThrough f.addr h
  match f.failed with
  | some (cause, va, detail) => .reject cause va detail next
  | none =>
    match checkBlock h f.words.tail with
    | some bad => .reject .encoding 0 (checkDetail bad) next
    | none => .block (blockOf f.addr h f.words.tail) f.user

/-- R78: every thread of the bin is moved to the fault bin in ascending slot, and the context is left free. -/
def State.rejectBlock (s : State) (c k b : Nat) (cause : Cause) (va : Nat) (detail : DWord) (addr next : VAddr) : State :=
  let s1 := ((s.core c).bin b).vec.foldl (fun s sl =>
    s.takeTrap c sl (s.trapOf c sl cause addr next false false (BitVec.ofNat 64 va) detail .none)) s
  s1.modCore c fun x =>
    let y := x.modContext k fun _ => Context.reset
    let z := y.modBin b fun w => { w with ctx := none }
    if (z.bin b).vec.isEmpty then z.releaseBin b else z

/-! Admission (R107, R126, R148) -/

/-- R336, R351: does the thread enter a region at its next block: it was thrown out of it, and resumes at its entry? -/
def Thread.reenters (t : Thread) (b : Block) : Bool :=
  t.reArmed && match t.reenter with | some (e, _) => e == b.addr | none => false

/-- R348: may a thread that runs (or is about to run) a serialised region be admitted? -/
def State.serialMay (s : State) (c sl : Nat) (b : Block) : Bool :=
  let t := s.thread c sl
  let holds := match (s.die (dieOf c)).serial with | some (x, y, _) => x == c && y == sl | none => false
  match s.openRegion c sl with
  | some (_, r) =>
    !r.ser || (holds && r.yieldTo.isNone)
  | none => !(t.reenters b && t.reSer) || holds

/-- R334: does the admission need a free region context? -/
def Block.needsRegion (b : Block) (t : Thread) : Bool := b.termOp == 0xe0 || (t.reenters b && t.region.isNone)

/-- R100, R107, R147, R148, R152, R261, R334, R348, R39, R419: is a thread of a bin a candidate for admission into its block? -/
def State.candidate (s : State) (c : Nat) (b : Block) (sl : Nat) : Bool :=
  let x := s.core c
  let t := x.thread sl
  let g := x.group t.group
  decide (t.filed < s.clk) && !maskMeets (if t.filledAt = s.clk then t.pending ||| t.filled else t.pending) b.touchSet
    && (!g.halted || t.save.isSome)
    && (!g.moving || hdrSP b.hdr) && !(g.isSaving && t.save.isNone && hdrSP b.hdr)
    && (g.slots.all fun o => o == sl || (x.thread o).buf.all fun e => !e.carried)
    && (t.save.isNone || t.pending == 0)
    && (!(b.needsRegion t) || (x.freeRegion?.isSome && t.pending == 0))
    && s.serialMay c sl b

/-- R107: the candidates of an open context of a core. -/
def State.candidatesOf (s : State) (c k : Nat) : List Nat :=
  let x := s.core c
  let ctx := x.context k
  match ctx.state, ctx.bin with
  | .opened, some b => (x.bin b).vec.filter fun sl => s.candidate c ctx.block sl
  | _, _ => []

/-- R107: the thread that the core admits next, with its context. -/
def State.admitChoice (s : State) (c : Nat) : Option (Nat × Nat) :=
  let x := s.core c
  let turn (k : Nat) : Nat := (k + 3 - x.lastCtx) % 4
  let open_ := ctxNums.filter fun k => !(s.candidatesOf c k).isEmpty
  let prio (k : Nat) : Nat := match (x.context k).bin with | some b => x.binPrio s.clk (x.bin b) | none => 0
  match bestBy (fun a b => decide (prio b < prio a) || (prio a == prio b && decide (turn a < turn b))) open_ with
  | none => none
  | some k =>
    (bestBy (fun a b =>
      if x.prioOf a ≠ x.prioOf b then decide (x.prioOf b < x.prioOf a)
      else if (x.thread a).filed ≠ (x.thread b).filed then decide ((x.thread a).filed < (x.thread b).filed) else decide (a < b))
      (s.candidatesOf c k)).map fun sl => (k, sl)

/-- R125: the instructions of a block for which an admission reserves a matching entry. -/
def Block.entries (b : Block) : List Nat :=
  let ts := b.targeted
  b.idxs.filter fun k => decide (2 ≤ (targetedOf ts k).length)

/-- R125: the occupancy of a PE. -/
def Core.occupancy (x : Core) (pe : Nat) : Nat :=
  (x.inFlight.filter fun e => !e.2.fired.contains pe && (x.context e.2.ctx).block.entries.contains pe).length

/-- R126: do the fabric limits hold the admission of a thread into a block? -/
def State.admissionHeld (s : State) (c sl : Nat) (b : Block) : Bool :=
  let x := s.core c
  let n := x.inFlight.length
  decide (512 ≤ n)
    || (decide (120 ≤ n) && (if (x.thread sl).priv then b.entries.any fun pe => decide (128 ≤ x.occupancy pe)
        else (List.range 64).any fun pe => decide (120 ≤ x.occupancy pe)))
    || b.readSet.any fun i => decide (s.clk < Tbl.get 0 x.bankFree (i % 16))

/-- R128: the banks that the reads of a block occupy. -/
def Core.takeBanks (x : Core) (clk : Nat) (b : Block) : Core :=
  let rs := b.readSet
  { x with bankFree := (List.range 16).foldl (fun t k =>
      let j := (rs.filter fun i => i % 16 == k).length
      if j = 0 then t else Tbl.set t k (clk + j)) x.bankFree }

/-- R427, R428: the system registers that the `sysrd` instructions of a block read at the admission. -/
def State.sysSnapshot (s : State) (c sl : Nat) (b : Block) : Tbl DWord :=
  b.idxs.filterMap fun k => match b.instr? k with
    | some (.sysrd r _ _) => some (k, s.sysValue c sl r.toNat)
    | _ => none

/-- R121, R128, R238: the instance of a thread at its admission. -/
def State.newInst (s : State) (c sl k : Nat) (b : Block) : Inst :=
  let t := s.thread c sl
  { ctx := k, blk := b.addr, ft := b.ft, n := b.words.length, admitted := s.clk, tsc := s.tsc (dieOf c), fp := t.fpMode,
    astat := s.astatWord c sl, sys := s.sysSnapshot c sl b, priv := t.priv, asp := s.aspOf c sl,
    region := (s.openRegion c sl).map (·.1), ar := hdrAR b.hdr, tokens := [], fired := [], count := 0, fullAt := none,
    liveOut := [], reqs := [], emits := [], judged := [], performed := [],
    checkAt := if b.addrIdxs.isEmpty then some s.clk else none, term := .undecided, squash := none, faults := [],
    watch := none, atomicWrites := [], regionCause := none, firedNow := none, fpNext := none }

/-- R128: the source instructions of a block: those with no targeted port. -/
def Block.sources (b : Block) : List Nat :=
  let ts := b.targeted
  b.idxs.filter fun k => (targetedOf ts k).isEmpty

/-- R121, R416: the thread in flight in context `k`, with a new instance or the one that it waited in the latch with. -/
def Thread.entering (t : Thread) (k : Nat) (x : Inst) (id : Bool) : Thread :=
  match t.resume with
  | some w => { t with place := .inFlight, inst := some { w.inst with ctx := k }, buf := t.buf ++ w.buf, deferred := t.deferred ++ w.deferred,
                       resume := none, lastId := id }
  | none => { t with place := .inFlight, inst := some x, lastId := id }

/-- R107: the thread leaves its bin and is in flight; its source instructions fire in the same clk. One that was saved in the
rendezvous latch goes on there (R414, R416). (DEDUCED, log entry 25.) -/
def State.admitInto (s : State) (c sl k : Nat) (b : Block) : State :=
  let s1 := s.modCore c fun x =>
    let y := match (x.context k).bin with
      | some n => x.modBin n fun z => { z with vec := z.vec.filter (· != sl) }
      | none => x
    let z := (y.takeBanks s.clk b).modContext k fun w =>
      { w with quiet := false, lastAdmit := s.clk, admits := w.admits + 1, candidates := w.candidates.filter (· != sl) }
    { z with lastCtx := k, admitAt := some s.clk }
  let s2 := s1.modThread c sl fun t => (t.entering k (s1.newInst c sl k b) (hdrID b.hdr))
  let s3 := s2.modGroup c (s2.thread c sl).group fun g => { g with entered := g.entered || (s2.thread c sl).save.isSome }
  match (s.thread c sl).resume with
  | some w => s3.modDie (dieOf c) fun d => { d with latch := d.latch ++ [{ w.entry with
      cmd := { w.entry.cmd with core := c, slot := sl, group := (s.thread c sl).group } }] }
  | none => b.sources.foldl (fun s i => s.urge (.fire c sl i)) s3

/-- R78, R151, R336, R489: a thread is moved from its bin to the fault bin in place of its admission.
(DEDUCED, log entry 28.) -/
def State.refuseAdmission (s : State) (c sl : Nat) (b : Block) (cause : Cause) (va detail : DWord) : State :=
  s.takeTrap c sl (s.trapOf c sl cause b.addr b.ft false false va detail .none)

/-- R334, R336, R351: what the admission of a candidate does to its region: a context is reserved or entered, the block
count rises, or the region aborts for its length. -/
def State.regionAdmission (s : State) (c sl k : Nat) (b : Block) : State :=
  let t := s.thread c sl
  match s.openRegion c sl with
  | some (r, g) =>
    if 256 ≤ g.blocks then
      (if g.ser then
         let s1 := s.modCore c fun x => x.modRegion r fun y => { y with blocks := y.blocks + 1 }
         s1.refuseAdmission c sl b .regionCapacity 0 (s1.regionDetail c sl 4)
       else (s.modCore c fun x => x.unfile sl).abortRegion c sl 4 0)
    else (s.modCore c fun x => x.modRegion r fun y => { y with blocks := y.blocks + 1 }).admitInto c sl k b
  | none =>
    match (s.core c).freeRegion? with
    | some r =>
      if t.reenters b then
        let ser := t.reSer
        let path := match t.reenter with | some (_, p) => p | none => 0
        let g : Region := ⟨sl, b.addr, path, t.live, [], [], [], [], [], [], 1, true, ser, none⟩
        ((s.modCore c fun x => { x with regions := Tbl.set x.regions r g }).modThread c sl fun u =>
          { u with region := some r, reArmed := false, reenter := none }) |> fun s1 =>
          if hdrAR b.hdr then s1.admitInto c sl k b else s1.refuseAdmission c sl b .regionFault 0 (s1.regionDetail c sl 2)
      else if b.termOp = 0xe0 then
        let g : Region := ⟨sl, 0, 0, [], [], [], [], [], [], [], 0, false, false, none⟩
        ((s.modCore c fun x => { x with regions := Tbl.set x.regions r g }).modThread c sl fun u =>
          { u with region := some r }).admitInto c sl k b
      else s.admitInto c sl k b
    | none => if b.needsRegion t then s else s.admitInto c sl k b

/-- R151: the fault of a thread whose next block touches a failed slot. (DEDUCED, log entry 28.) -/
def State.failFault (s : State) (c sl : Nat) (next : VAddr) (ret : Bool) : State :=
  match (s.thread c sl).failRec with
  | some f => s.takeTrap c sl (s.trapOf c sl f.cause f.blk next ret false f.va f.detail .none)
  | none => s

/-- R489: the first candidate of a core that a page without U keeps out of its block, with its context. -/
def State.keptOut (s : State) (c : Nat) : Option (Nat × Nat) :=
  ctxNums.findSome? fun k =>
    if ((s.core c).context k).userOk then none
    else ((s.candidatesOf c k).find? fun sl => !(s.thread c sl).priv).map fun sl => (k, sl)

/-- R107: the chosen candidate is admitted, at most one in a clk, unless the limits hold the clk, or it is turned away (R151,
R336, R489). (DEDUCED, log entry 32.) -/
def State.admitOne (s : State) (c : Nat) : State :=
  match (if (s.core c).admitAt == some s.clk then none else s.admitChoice c) with
  | none => s
  | some (k, sl) =>
    let ctx := (s.core c).context k
    let b := ctx.block
    let t := s.thread c sl
    let inRegion := (s.openRegion c sl).isSome
    if !t.priv && maskMeets t.failMask b.touchSet then s.failFault c sl b.addr false
    else if inRegion && !hdrAR b.hdr then s.refuseAdmission c sl b .regionFault 0 (s.regionDetail c sl 2)
    else if !inRegion && hdrAR b.hdr && !t.reenters b then s.refuseAdmission c sl b .regionFault 0 (s.regionDetail c sl 1)
    else if s.admissionHeld c sl b then s
    else s.regionAdmission c sl k b

/-- R107, R489: a candidate that a page without U keeps out is moved to the fault bin in the clk in which it is first one; otherwise
the core admits a thread. (DEDUCED, log entry 32.) -/
def State.admitThread (s : State) (c : Nat) : State :=
  match s.keptOut c with
  | some (k, sl) =>
    let b := ((s.core c).context k).block
    s.refuseAdmission c sl b .permission (b.addr.setWidth 64) (memDetail 0 3 0 3)
  | none => s.admitOne c

/-- ADMIT_THREAD (R107). -/
def execAdmitThread (s : State) : Res := .next (s.admitThread (s.arg 0))

/-- CONFIG_COMPLETE (R106): what is left of the block is read, the block is checked, and its context opens or is left free; it waits for a line that a lock or an engine holds (R256). Where
nothing has been admitted into a context since, its last admission is taken to be its opening (R105; DESIGN CHOICE, log entry 22).
(DEDUCED, log entry 27.) -/
def State.completeConfig (s : State) (c : Nat) : State :=
  let x := s.core c
  match x.fetch with
  | none => s
  | some f =>
    if s.clk < f.due then s
    else
      let s0 := s.modCore c fun y => { y with fetch := none }
      match (x.context f.ctx).bin with
      | none => s0.modCore c fun y => y.modContext f.ctx fun _ => Context.reset
      | some b =>
        let g := s.fetchWords c f.need f
        if s.lineHeld g.places c none then s else
        let s1 := s0.fetched c g
        match g.result with
        | .reject cause va detail next => s1.rejectBlock c f.ctx b cause va detail f.addr next
        | .block blk user =>
          let s2 := s1.modCore c fun y => y.modContext f.ctx fun _ =>
            { Context.reset with state := .opened, block := blk, asp := f.asp, userOk := user, bin := some b, openAt := s.clk,
                                 lastAdmit := s.clk }
          let cands := s2.candidatesOf c f.ctx
          s2.modCore c fun y => y.modContext f.ctx fun w => { w with candidates := cands }

/-- CONFIG_COMPLETE (R106). -/
def execConfigComplete (s : State) : Res := .next (s.completeConfig (s.arg 0))

/-! Ageing and sealing (R109, R110) -/

/-- R109: the aged bin that ranks first. -/
def Core.agedBin (x : Core) (clk : Nat) : Option (Nat × Bin) :=
  bestBy (x.binBefore clk) (x.bins.filter fun e =>
    e.2.key.isSome && e.2.ctx.isNone && !e.2.vec.isEmpty &&
      (match e.2.window with | some w => decide (max (4 * w) 64 ≤ clk - x.oldestClk e.2) | none => false))

/-- R109: the context that a forced closure takes. (DESIGN CHOICE, log entry 55.) -/
def Core.closureVictim (x : Core) (clk prio : Nat) : Option Nat :=
  bestBy (fun a b => decide ((x.context a).openAt < (x.context b).openAt)) (ctxNums.filter fun k =>
    let c := x.context k
    c.state == .opened && (match c.bin with
      | some b => decide (x.binPrio clk (x.bin b) ≤ prio) && c.candidates.all fun sl => !(x.bin b).vec.contains sl
      | none => false))

/-- FORCED_CLOSURE (R109). -/
def execForcedClosure (s : State) : Res :=
  let core := s.arg 0
  let x := s.core core
  .next (
    if x.fetch.isSome || x.forcing || ctxNums.any fun k => (x.context k).state == .free || x.reclaimable k then s
    else match x.agedBin s.clk with
      | none => s
      | some (_, bin) =>
        match x.closureVictim s.clk (x.binPrio s.clk bin) with
        | some k => (s.closeCtx core k true).modCore core fun y => { y with forcing := true }
        | none => s)

/-- BIN_SEAL (R110): the FIFO head has waited 256 clk, and the configured bin of the earliest configuration is sealed. -/
def execBinSeal (s : State) : Res :=
  let core := s.arg 0
  let x := s.core core
  .next (match x.fifo with
    | (sl, _, _) :: _ =>
      if s.clk < (x.thread sl).filed + 256 || x.bins.any fun e => e.2.isSealed then s
      else
        match bestBy (fun a b => decide ((x.context a).openAt < (x.context b).openAt))
            (ctxNums.filter fun k => (x.context k).state == .opened && (x.context k).bin.isSome) with
        | some k => (match (x.context k).bin with
          | some b => s.modCore core fun y => y.modBin b fun z => { z with isSealed := true }
          | none => s)
        | none => s
    | [] => s)

/-! `cfginv` performed (R136, R428) -/

/-- R428: do the words of a block overlap a range modulo 2^56? -/
def Block.overlaps (b : Block) (a len : Nat) : Bool :=
  let n := 4 * hdrWords b.hdr
  let start := b.addr.toNat
  decide (0 < len) && (decide ((start + 2 ^ 56 - a) % 2 ^ 56 < len) || decide ((a + 2 ^ 56 - start) % 2 ^ 56 < n))

/-- R428: the open contexts of a core that a range of an address space names. -/
def Core.overlapping (x : Core) (asp a len : Nat) : List Nat :=
  ctxNums.filter fun k => let y := x.context k; y.state == .opened && y.asp == asp && y.block.overlaps a len

/-- The target T1 of an instruction of an instance. -/
def State.t1Of (s : State) (c sl idx : Nat) : Target :=
  match (s.thread c sl).inst with
  | some x => (match ((s.core c).context x.ctx).block.instr? idx with | some i => (targetsOf i).1 | none => .none)
  | none => .none

/-- CFGINV_PERFORM (R428): on every core, each open context of the address space whose words overlap the range is closed. -/
def execCfginvPerform (s : State) : Res :=
  let core := s.arg 0
  let slot := s.arg 1
  let idx := s.arg 2
  .next (match s.cfginvs.find? fun e => e.1 == core && e.2.1 == slot && e.2.2.1 == idx with
    | none => s
    | some (_, _, _, due, a, len) =>
      if s.clk < due then s
      else
        let s0 : State := { s with cfginvs := s.cfginvs.filter fun e => !(e.1 == core && e.2.1 == slot && e.2.2.1 == idx) }
        let s1 := s.cores.foldl (fun s (c, x) =>
          (x.overlapping (s.aspOf core slot) a len).foldl (fun s k => s.closeCtx c k false) s) s0
        let t1 := s.t1Of core slot idx
        s1.modInst core slot fun x =>
          (((x.perform idx).deliver s.clk idx t1 (if x.squash.isSome then nullTok else doneTok)).complete s.clk))

end Sys2Proof.Machine
end

