-- ==== Sys2Proof/Machine/Management.lean ====
section
/-! DEFINITION. The management registers (R465): those that the manual lays out, as named registers and at their offsets for
`ldnc` and `stnc`; the steps MGMT_REGISTER_WRITE, COUNTER_CLEAR and SAMPLER_WRITE; and the attestation state (R469). -/

namespace Sys2Proof.Machine

/-- The management registers that the manual lays out, in words of 64 bits: module status; word 0 and SLICE of a context
entry; a watchpoint; the halves of a peer entry; the base and the size of the report ring, and the halves of a driver's command; the
TLB invalidation, and its count; the host ports; and of a die the trace control's words, DIECAP, the error counters in pairs, the
census overflow and the words of a census entry, a core's sampler, the choice of a time-loss counter and its value, an energy counter,
and of a core the reset of its temporal array and the halt control of a group. -/
inductive MReg where
  | status
  | ctxLow (k : Nat)
  | ctxSlice (k : Nat)
  | watch (n : Nat)
  | peerLow (n : Nat)
  | peerHigh (n : Nat)
  | ringBase
  | ringSize
  | cmdOp
  | cmdName
  | invDone
  | invCount
  | hostPorts
  | traceBase (d : Nat)
  | traceIndex (d : Nat)
  | traceMask (d : Nat)
  | dieCap (d : Nat)
  | errors (d k : Nat)
  | censusOver (d : Nat)
  | census (d n j : Nat)
  | sampler (c : Nat)
  | lossSel (d : Nat)
  | lossData (d : Nat)
  | energy (d k : Nat)
  | tempReset (c : Nat)
  | halt (c g : Nat)
deriving DecidableEq, Repr

/-- The register of an offset in the block of a die (R465). (PRESUMED, log entry 21.) -/
def dieRegAt (d o : Nat) : Option MReg :=
  if o = 0 then some (.traceBase d)
  else if o = 8 then some (.traceIndex d)
  else if o = 0x10 then some (.traceMask d)
  else if o = 0x20 then some (.dieCap d)
  else if 0x40 ≤ o ∧ o < 0x60 then some (.errors d ((o - 0x40) / 8))
  else if o = 0x60 then some (.censusOver d)
  else if o = 0x70 then some (.lossSel d)
  else if o = 0x78 then some (.lossData d)
  else if 0x2000 ≤ o ∧ o < 0x4000 then some (.census d ((o - 0x2000) / 32) (o % 32 / 8))
  else if 0x8000 ≤ o ∧ o < 0x8800 then some (.sampler (d * Config.coresPerDie + (o - 0x8000) / 8))
  else if 0x9000 ≤ o ∧ o < 0x9200 then some (.energy d ((o - 0x9000) / 8))
  else if 0xa000 ≤ o ∧ o < 0xa800 then some (.tempReset (d * Config.coresPerDie + (o - 0xa000) / 8))
  else if 0x10000 ≤ o ∧ o < 0x18000 then some (.halt (d * Config.coresPerDie + (o - 0x10000) / 128) ((o - 0x10000) / 8 % 16))
  else none

/-- The register of an offset of BAR0 (R465), where the manual gives its place. (PRESUMED, log entry 21.) -/
def mregAt (off : Nat) : Option MReg :=
  if off = 0 then some .status
  else if 0x10000 ≤ off ∧ off < 0x10000 + 16 * 64 then
    some (if off % 16 = 0 then .ctxLow ((off - 0x10000) / 16) else .ctxSlice ((off - 0x10000) / 16))
  else if 0x20000 ≤ off ∧ off < 0x20000 + 8 * 256 then some (.watch ((off - 0x20000) / 8))
  else if 0x30000 ≤ off ∧ off < 0x30000 + 16 * 1024 then
    some (if off % 16 = 0 then .peerLow ((off - 0x30000) / 16) else .peerHigh ((off - 0x30000) / 16))
  else if off = 0x80000 then some .ringBase
  else if off = 0x80008 then some .ringSize
  else if off = 0x80010 then some .cmdOp
  else if off = 0x80018 then some .cmdName
  else if off = 0x90000 then some .invDone
  else if off = 0x90008 then some .invCount
  else if off = 0xa0000 then some .hostPorts
  else if 0x100000 ≤ off ∧ off < 0x900000 then dieRegAt ((off - 0x100000) / 2 ^ 20) (off % 2 ^ 20)
  else none

/-- The register that MGMT_REGISTER_WRITE names by its first two arguments: some kinds of `MReg` in their order, or by its offset.
(PRESUMED, log entry 21.) -/
def mregOf (kind place : Nat) : Option MReg :=
  match kind with
  | 0 => some .status
  | 1 => if place < 64 then some (.ctxLow place) else none
  | 2 => if place < 64 then some (.ctxSlice place) else none
  | 3 => if place < 256 then some (.watch place) else none
  | 4 => if place < 1024 then some (.peerLow place) else none
  | 5 => if place < 1024 then some (.peerHigh place) else none
  | 6 => some .ringBase
  | 7 => some .ringSize
  | 8 => some .invDone
  | 9 => some .hostPorts
  | 10 => if place < Config.dies then some (.traceBase place) else none
  | 11 => if place < Config.dies then some (.traceIndex place) else none
  | 12 => if place < Config.dies then some (.traceMask place) else none
  | 13 => if place < Config.dies then some (.dieCap place) else none
  | 14 => mregAt place
  | _ => none

/-- R465: the module status. -/
def State.statusWord (s : State) : DWord :=
  BitVec.ofNat 64 ((if s.mgmt.ready then 1 else 0) + s.grade * 2
    + (if s.dies.any fun e => e.2.hot then 2 ^ 17 else 0) + s.mgmt.attest.qblk * 2 ^ 32)

/-- R449: a pair of error counters: the lower in the low half. -/
def ErrCounters.pair (e : ErrCounters) (k : Nat) : DWord :=
  BitVec.ofNat 64 (match k with
    | 0 => e.refused + e.late * 2 ^ 32
    | 1 => e.retry + e.lfail * 2 ^ 32
    | 2 => e.corr + e.uncorr * 2 ^ 32
    | _ => e.parity + e.poison * 2 ^ 32)

/-- R313: a word of a census entry. -/
def Census.word (e : Census) (j : Nat) : DWord :=
  BitVec.ofNat 64 (match j with
    | 0 => e.blk.toNat + e.idx % 64 * 2 ^ 56 + 2 ^ 63
    | 1 => e.asp % 64 + e.nan * 2 ^ 32
    | 2 => e.inf + e.sat * 2 ^ 32
    | _ => e.unf)

/-- R458: the time-loss counter that a die's choice names: core [7:0], context [9:8], PE [15:10], cause [18:16].
(PRESUMED, log entry 21.) -/
def State.lossCounter (s : State) (d : Nat) : Nat :=
  let n := (s.die d).lossSel.toNat
  Tbl.get 0 (s.core (d * Config.coresPerDie + n % 256)).excess ((n / 2 ^ 8 % 4 * 64 + n / 2 ^ 10 % 64) * 5 + n / 2 ^ 16 % 8)

/-- R449: the error counters with one of them cleared, in the order of their bits. (DEDUCED, log entry 53.) -/
def ErrCounters.clear (e : ErrCounters) (k : Nat) : ErrCounters :=
  match k with
  | 0 => { e with refused := 0 }
  | 1 => { e with late := 0 }
  | 2 => { e with retry := 0 }
  | 3 => { e with lfail := 0 }
  | 4 => { e with corr := 0 }
  | 5 => { e with uncorr := 0 }
  | 6 => { e with parity := 0 }
  | _ => { e with poison := 0 }

/-- R459: a write of PERIOD: one that is not zero starts sampling from this clk; 0 disables the sampler. The samples that are held
stay, and SDROP keeps its count. -/
def State.setPeriod (s : State) (c p : Nat) : State :=
  s.modCore c fun x => { x with sampler := { x.sampler with period := p, start := s.clk, k := 0, last := none, drops := 0 } }

/-- The value of a management register. -/
def State.mregRead (s : State) (r : MReg) : DWord :=
  match r with
  | .status => s.statusWord
  | .ctxLow k =>
    let e := s.ctxEntry k
    BitVec.ofNat 64 ((if e.en then 2 ^ 63 else 0) + e.maxp % 32 * 2 ^ 58 + e.root)
  | .ctxSlice k => BitVec.ofNat 64 (s.ctxEntry k).slice
  | .watch n => Tbl.get 0 s.mgmt.watch n
  | .peerLow n => (Tbl.get 0 s.mgmt.peers n).setWidth 64
  | .peerHigh n => ((Tbl.get 0 s.mgmt.peers n) >>> 64).setWidth 64
  | .ringBase => s.mgmt.ringBase
  | .ringSize => s.mgmt.ringSize
  | .cmdOp => s.mgmt.cmdOp
  | .cmdName => 0
  | .invDone => if s.mgmt.invDone then 1 else 0
  | .invCount => s.mgmt.invCount
  | .hostPorts => s.mgmt.hostPorts.setWidth 64
  | .traceBase d =>
    let t := (s.die d).trace
    BitVec.ofNat 64 (t.base.toNat + t.log2n % 32 * 2 ^ 52 + (if t.en then 2 ^ 63 else 0))
  | .traceIndex d => (s.die d).trace.ridx ++ (s.die d).trace.widx
  | .traceMask d => BitVec.ofNat 64 ((s.die d).trace.drop + (s.die d).trace.mask.toNat * 2 ^ 32)
  | .dieCap d => (s.die d).dieCap
  | .errors d k => (s.die d).errors.pair k
  | .censusOver d => BitVec.ofNat 64 (s.die d).censusOverflow
  | .census d n j => match Tbl.find? (s.die d).census n with
    | some e => e.word j
    | none => 0
  | .sampler c => BitVec.ofNat 64 ((s.core c).sampler.period + (s.core c).sampler.sdrop * 2 ^ 32)
  | .lossSel d => (s.die d).lossSel
  | .lossData d => BitVec.ofNat 64 (s.lossCounter d)
  | .energy d k => BitVec.ofNat 64 (Tbl.get 0 (s.die d).energy k)
  | .tempReset _ => 0
  | .halt c g => BitVec.ofNat 64 (s.haltWord c g)

/-- R462: the energy counters of a context that is enabled start from 0. -/
def State.clearEnergy (s : State) (k : Nat) : State :=
  { s with dies := Tbl.mapVals (fun _ d => { d with energy := Tbl.erase d.energy k }) s.dies }

/-- A write of a management register, of its low half, its high half or both; read-only bits and bits that must be zero are ignored
(R5). A write at 0x009_0000 starts an invalidation of the granules that its count names (R219), and one of the second half of a
driver's command gives the command (R466). (PRESUMED, log entry 21.) -/
def State.mregPut (s : State) (r : MReg) (v : DWord) (low high : Bool) : State :=
  let n := v.toNat
  match r with
  | .status | .lossData _ | .energy _ _ => s
  | .cmdOp => s.modMgmt fun m => { m with cmdOp := v &&& 3 }
  | .cmdName => s.driverCommand s.mgmt.cmdOp.toNat n
  | .invDone => s.tlbInvalidate (n % 64) (bitsOf n 55 16) s.mgmt.invCount.toNat
  | .invCount => s.modMgmt fun m => { m with invCount := v }
  | .errors d k => s.modDie d fun x =>
      let e := if low then x.errors.clear (2 * k) else x.errors
      { x with errors := if high then e.clear (2 * k + 1) else e }
  | .censusOver d => s.modDie d fun x => { x with censusOverflow := 0 }
  | .census d _ _ => s.modDie d fun x => { x with census := [] }
  | .sampler c =>
    let s1 := if high then s.modCore c fun x => { x with sampler := { x.sampler with sdrop := 0 } } else s
    if low then s1.setPeriod c (n % 2 ^ 16) else s1
  | .lossSel d => s.modDie d fun x => { x with lossSel := v }
  | .tempReset c => s.tempReset c
  | .halt c g => if low then s.haltControl c g (v.getLsbD 0) else s
  | .ctxLow k =>
    let e := s.ctxEntry k
    let e' : CtxEntry := { e with en := v.getLsbD 63, maxp := bitsOf n 62 58, root := (keepBits v 51 13).toNat }
    let s1 := s.modMgmt fun m => { m with ctxs := Tbl.set m.ctxs k e' }
    if e'.en && !e.en then s1.clearEnergy k else s1
  | .ctxSlice k =>
    let e := s.ctxEntry k
    s.modMgmt fun m => { m with ctxs := Tbl.set m.ctxs k { e with slice := n % 2 ^ 32 } }
  | .watch w => s.modMgmt fun m => { m with watch := Tbl.set m.watch w v }
  | .peerLow p =>
    let q : Quad := BitVec.ofNat 128 ((Tbl.get 0 s.mgmt.peers p).toNat / 2 ^ 64 * 2 ^ 64 + n)
    s.modMgmt fun m => { m with peers := Tbl.set m.peers p q }
  | .peerHigh p =>
    let hi := bitsOf n 55 0 + n / 2 ^ 63 * 2 ^ 63
    let q : Quad := BitVec.ofNat 128 ((Tbl.get 0 s.mgmt.peers p).toNat % 2 ^ 64 + hi * 2 ^ 64)
    s.modMgmt fun m => { m with peers := Tbl.set m.peers p q }
  | .ringBase => s.modMgmt fun m => { m with ringBase := v }
  | .ringSize => s.modMgmt fun m => { m with ringSize := v }
  | .hostPorts => s.modMgmt fun m => { m with hostPorts := v.setWidth 2 }
  | .traceBase d => s.modDie d fun x => { x with trace := { x.trace with
      base := keepBits v 51 11, log2n := bitsOf n 56 52, en := v.getLsbD 63 } }
  | .traceIndex d => s.modDie d fun x => { x with trace := { x.trace with ridx := BitVec.ofNat 32 (n / 2 ^ 32) } }
  | .traceMask d => s.modDie d fun x =>
      { x with trace := { x.trace with mask := BitVec.ofNat 7 (n / 2 ^ 32), drop := if low then 0 else x.trace.drop } }
  | .dieCap d => s.modDie d fun x => { x with dieCap := keepBits v 30 0 }

/-- A write of the whole word of a management register. -/
def State.mregWrite (s : State) (r : MReg) (v : DWord) : State := s.mregPut r v true true

/-- MGMT_REGISTER_WRITE (R465): the host writes a register. Once I/O die 8 is lost, those of its tables are gone (R448). -/
def execMgmtRegisterWrite (s : State) : Res :=
  .next (match mregOf (s.arg 0) (s.arg 1) with
    | some r => s.mregWrite r (BitVec.ofNat 64 (s.arg 2))
    | none => s)

/-! Accesses of threads to device registers (R210, R465) -/

/-- R210: the offset of a device register's physical address. (DESIGN CHOICE, log entry 20.) -/
def deviceOff (pa : Nat) : Nat := pa % 2 ^ 50

/-- R465: an aligned word of a device register; a register whose place or contents the manual does not give reads as the
device fills it. (DESIGN CHOICE, log entry 20.) -/
def State.deviceRead (s : State) (pa : Nat) : DWord :=
  let off := deviceOff pa / 8 * 8
  match mregAt off with
  | some r => s.mregRead r
  | none => Config.deviceWord off s.clk

/-- R465: the bytes that a read of a device register returns. -/
def State.deviceBytes (s : State) (pa n : Nat) : List Byte :=
  ((natToBytes 8 (s.deviceRead pa).toNat).drop (pa % 8)).take n

/-- R465: a write of 4 or 8 bytes at a device register; the other half of its word is written as it reads. A place where the manual
puts no register takes the write without effect. (DESIGN CHOICE, log entry 20.) -/
def State.deviceWrite (s : State) (pa : Nat) (bs : List Byte) : State :=
  match mregAt (deviceOff pa / 8 * 8) with
  | none => s
  | some r =>
    let old := natToBytes 8 (s.mregRead r).toNat
    s.mregPut r (BitVec.ofNat 64 (bytesToNat (old.take (pa % 8) ++ bs ++ old.drop (pa % 8 + bs.length))))
      (decide (pa % 8 < 4)) (decide (4 < pa % 8 + bs.length))

/-! Counters and samplers -/

/-- COUNTER_CLEAR (R313, R449, R454, R459): a host write clears, of the die that the second argument names, error counter 0-7,
DROP of the trace control (8), the census table (9) or its overflow counter (10); or SDROP of a core (11). -/
def execCounterClear (s : State) : Res :=
  let k := s.arg 0
  let d := s.arg 1
  .next (
    if k < 8 then (if d < Config.dies then s.modDie d fun x => { x with errors := x.errors.clear k } else s)
    else if k = 8 then (if d < Config.dies then s.modDie d fun x => { x with trace := { x.trace with drop := 0 } } else s)
    else if k = 9 then (if d < Config.dies then s.modDie d fun x => { x with census := [] } else s)
    else if k = 10 then (if d < Config.dies then s.modDie d fun x => { x with censusOverflow := 0 } else s)
    else if k = 11 then
      (if d < Config.dies * Config.coresPerDie then s.modCore d fun x => { x with sampler := { x.sampler with sdrop := 0 } }
       else s)
    else s)

/-- SAMPLER_WRITE (R459). -/
def execSamplerWrite (s : State) : Res :=
  let c := s.arg 0
  let p := s.arg 1 % 2 ^ 16
  .next (if c < Config.dies * Config.coresPerDie then
    s.setPeriod c p
  else s)

/-- ATTESTATION_QUOTE (R469): a quote takes the next index of the current block of 1,024, reserving a block when there is
none or the last is spent; with none left the quote is refused with the status "signatures exhausted". (DESIGN CHOICE, log entry 48.) -/
def execAttestationQuote (s : State) : Res :=
  let a := s.mgmt.attest
  let a' : Attest := if a.hasBlock && decide (a.used < 1024) then { a with used := a.used + 1, exhausted := false }
    else if 0 < a.qblk then ⟨a.qblk - 1, 1, true, false⟩ else { a with exhausted := true }
  .next (s.modMgmt fun m => { m with attest := a' })

/-- R469: the module is powered off and on: the rest of the block of indices is given up, and everything else but the fuses and the
grade is as it is after reset. -/
def State.powerCycle (s : State) : State :=
  { State.reset with
    urgent := s.urgent, agenda := s.agenda
    mgmt := { Mgmt.reset with small := s.mgmt.small, attest := { s.mgmt.attest with used := 0, hasBlock := false, exhausted := false } } }

end Sys2Proof.Machine
end

