-- ==== Sys2Proof/Machine/MemorySteps.lean ====
section
/-! DEFINITION. What answers a request later: table walks (R217, R218), loads (R226, R242, R338), deferred fills (R147-R149),
the store buffer (R241, R243, R251), pipelined and special-function results (R123, R200), atomics at their tiles (R265,
R268), the record of `eret` (R425), and requests that no completer answers (R223, R445). -/

namespace Sys2Proof.Machine

/-! Walks -/

/-- R218: the requests of a core that wait for the translation of a page of an address space, as slot and index. -/
def State.waitingOn (s : State) (c asp vpn : Nat) : List (Nat × Nat) :=
  (s.core c).threads.flatMap fun (sl, t) =>
    match t.inst with
    | some x =>
      if x.reqs.isEmpty || s.aspOf c sl != asp then []
      else (x.reqs.filter fun r => r.stage == .walking && r.needs == vpn).map fun r => (sl, r.idx)
    | none => []

/-- R218: the waiting requests of a die's cores, in ascending core. -/
def State.dieWaiting (s : State) (d asp vpn : Nat) : List (Nat × Nat × Nat) :=
  (s.cores.filter fun (c, _) => dieOf c == d).flatMap fun (c, _) => (s.waitingOn c asp vpn).map fun p => (c, p.1, p.2)

/-- R221: a request whose walk failed. -/
def State.failWalk (s : State) (c sl idx : Nat) (cause : Cause) (why lvl : Nat) : State :=
  match (s.thread c sl).inst with
  | none => s
  | some x =>
    match x.req? idx with
    | none => s
    | some r =>
      if r.kind = .probe then s.passRequest c sl { r with stage := .ready }
      else s.failRequest c sl idx
        ⟨cause, idx, if r.kind = .record then r.va else BitVec.ofNat 64 (r.va.toNat + segLen r.segs), memDetail idx r.row.kind lvl why⟩ r.t1 r.t0
        (!r.kind.beforeFire)

/-- R217, R232: a request whose page has been found goes on: `probe` has its answer, and the others are judged further. -/
def State.resumeReq (s : State) (c sl idx : Nat) : State :=
  match (s.thread c sl).inst with
  | none => s
  | some x =>
    match x.req? idx with
    | none => s
    | some r => if r.kind = .probe then s.passRequest c sl { r with stage := .ready } else s.judgeReq c sl idx

/-- R232: does a request fill the TLBs, as every one but `probe` does? -/
def State.fillsTlb (s : State) (c sl idx : Nat) : Bool :=
  match (s.thread c sl).inst with
  | some x => (match x.req? idx with | some r => r.kind != .probe | none => false)
  | none => false

/-- R217: the clk of a walk's reads for a core, as the caches stand. (DESIGN CHOICE, log entry 4.) -/
def State.walkLatency (s : State) (c root vpn : Nat) : Nat :=
  ((walkLines s (vpn * 2 ^ 16) 4 root).map fun l => max 110 (s.readLatency c true [⟨l * 128, 8, false⟩])).foldl (· + ·) 0

/-- R256, R344: does a walk wait for a line that is locked or owned? -/
def State.walkHeld (s : State) (root vpn : Nat) : Bool :=
  (walkLines s (vpn * 2 ^ 16) 4 root).any fun l => s.locks.any (fun e => e.1 == l) || s.owned.any fun e => e.1 == l

/-- R217: when did the walk for a page begin: with the first request that waits for it. -/
def State.walkSince (s : State) (all : List (Nat × Nat × Nat)) : Nat :=
  (all.filterMap fun (c, sl, i) => match (s.thread c sl).inst with
    | some x => (x.req? i).map fun r => r.due - 24
    | none => none).foldl min s.clk

/-- WALK_COMPLETE (R217, R218): a walk ends, and every request that joined it gets its outcome in this clk; a walk that
succeeds fills the TLBs of the die and of the cores. (DESIGN CHOICE, log entry 52.) -/
def State.walkComplete (s : State) (d asp vpn : Nat) : State :=
  match s.dieWaiting d asp vpn with
  | [] => s
  | (c0, sl0, i0) :: rest =>
    if (tlbFind (s.die d).tlb asp vpn).isSome then s
    else
      let root := s.rootOf c0 sl0
      let all := (c0, sl0, i0) :: rest
      if s.walkHeld root vpn || decide (s.clk < s.walkSince all + s.walkLatency c0 root vpn) then s else
      let s1 := s.walkReads d root vpn
      match s.walk root (vpn * 2 ^ 16) with
      | .found leaf _ =>
        let s2 := (all.filter fun (c, sl, i) => s.fillsTlb c sl i).foldl (fun s (c, _, _) => s.fillTlbs c asp vpn leaf) s1
        all.foldl (fun s (c, sl, i) => s.resumeReq c sl i) s2
      | .bad why lvl => all.foldl (fun s (c, sl, i) => s.failWalk c sl i .translation why lvl) s1
      | .poison lvl => all.foldl (fun s (c, sl, i) => s.failWalk c sl i .poison 0 lvl) s1

/-- WALK_COMPLETE (R218). -/
def execWalkComplete (s : State) : Res := .next (s.walkComplete (s.arg 0) (s.arg 1) (s.arg 2))

/-- DIE_TLB_HIT (R217): a core's miss hits the die's TLB, and the requests of its entry go on. -/
def execDieTlbHit (s : State) : Res :=
  let c := s.arg 0
  let asp := s.arg 1
  let vpn := s.arg 2
  .next (match tlbFind (s.die (dieOf c)).tlb asp vpn with
    | some e =>
      let ws := (s.waitingOn c asp vpn).filter fun (sl, i) => match (s.thread c sl).inst with
        | some x => (match x.req? i with | some r => decide (r.due ≤ s.clk) | none => false)
        | none => false
      let s1 := if ws.any fun (sl, i) => s.fillsTlb c sl i then s.modCore c fun x => { x with tlb := tlbFillCore x.tlb e } else s
      ws.foldl (fun s (sl, i) => s.resumeReq c sl i) s1
    | none => s)

/-! Reading -/

/-- One byte of a list of runs. -/
def segByte : List Seg → Nat → List Seg
  | [], _ => []
  | g :: t, n => if n < g.len then [⟨g.loc + n, 1, g.nc⟩] else segByte t (n - g.len)

/-- R224: is an access split into single-byte events? (DEDUCED, log entry 11.) -/
def isSplit (va : DWord) (bytes : Nat) (mt : MemType) : Bool := va.toNat % bytes != 0 && mt != .device

/-- How a read that has come to its point of performance ends: it waits; some of its bytes are read; or it is complete, with
its bytes or with poison. -/
inductive ReadStep where
  | wait (s : State)
  | part (s : State) (got : List (Byte × Bool))
  | done (s : State) (bs : Option (List Byte))
deriving DecidableEq, Repr

/-- R223, R224, R242, R254, R256, R265, R344: the read of a thread outside a region, after the first `epoch` commits of the thread:
forwarded, or read at its point of performance, one byte at a time where it is split. `home` tells that it bypasses the caches,
and `acq` that it acquires at device or system scope, which no entry of the thread alone completes, nor while an entry is under way of
which a read has taken bytes. (DEDUCED, log entry 11.)
(DEDUCED, log entry 44.) -/
def State.readStep (s : State) (c sl epoch : Nat) (home l1 acq : Bool) (va : DWord) (bytes : Nat) (segs : List Seg)
    (mt : MemType) (got : List (Byte × Bool)) : ReadStep :=
  let d := dieOf c
  if s.mustWait segs c (s.thread c sl).region || (acq && (s.thread c sl).buf.any fun e => e.committed && e.seen) then .wait s
  else if mt = .device then
    match segs with
    | g :: _ => .done s (if s.mgmt.standby || s.lost g.loc then none else some (s.deviceBytes g.loc bytes))
    | [] => .wait s
  else
    match (if got.isEmpty then forwardAt (s.thread c sl).buf epoch segs else .memory) with
    | .wait => .wait s
    | .buffer bs => if acq then .wait s else .done (s.modThread c sl fun t => t.markSeen epoch segs) (some bs)
    | .memory =>
      let now := if isSplit va bytes mt then segByte segs got.length else segs
      let ob := s.obtain c now false
      if !ob.2 then .wait ob.1
      else
        let s1 := if mt = .nonCoherent then (if home then ob.1 else ob.1.holdNc d now)
          else if home then ob.1 else ob.1.cacheLines c l1 now
        match s.readBytes d (!home) now with
        | none =>
          if isSplit va bytes mt && got.length + 1 < bytes then .part s1 (got ++ [(0, true)]) else .done s1 none
        | some bs =>
          let got' := got ++ bs.map fun b => (b, false)
          if got'.length < bytes then .part s1 got'
          else .done s1 (if got'.any (·.2) then none else some (got'.map (·.1)))

/-- R223: a load that gets poison: a data-poison fault of its instance, and null tokens. -/
def State.poisonLoad (s : State) (c sl : Nat) (r : Req) : State :=
  (s.modInst c sl fun x =>
    let y := x.addFault ⟨.poison, r.idx, r.va, memDetail r.idx r.kind.row.kind 0 0⟩
    if x.region.isSome then y.abortWith s.clk r.idx 7 0 else y).finishReq c sl r.idx r.t1 r.t0 nullTok nullTok

/-- R226: a load's value reaches its targets. -/
def State.finishLoad (s : State) (c sl : Nat) (r : Req) (v : Nat) (tag : Option (Nat × DWord)) : State :=
  let tok : Token := { (sizedTok r.bytes v) with tag := tag }
  s.finishReq c sl r.idx r.t1 r.t0 doneTok tok

/-! Loads of a region (R338, R348) -/

/-- Does a buffered store of a region share a byte with an access? -/
def RStore.meets (e : RStore) (gs : List Seg) : Bool := e.kind != .cwb && e.kind != .cinv && segsMeet e.segs gs

/-- The byte of a place in a concrete entry of a region. -/
def RStore.byteOf (e : RStore) (loc : Nat) : Option Byte :=
  if e.kind = .cwb ∨ e.kind = .cinv then none
  else (((segLocs e.segs).zip (natToBytes e.bytes e.data.toNat)).find? fun p => p.1 == loc).map (·.2)

/-- R348: the youngest entry's byte for a place. (DEDUCED, log entry 33.) -/
def regionByte (es : List RStore) (loc : Nat) : Option Byte :=
  es.foldl (fun acc e => match e.byteOf loc with | some b => some b | none => acc) none

/-- R341: a buffered entry of an instance as an entry of its region. -/
def BufEntry.rstore (e : BufEntry) : RStore :=
  ⟨e.kind, e.segs, e.data.length, BitVec.ofNat 128 (bytesToNat e.data), e.tag⟩

/-- R338: the lines of an access join the watched read lines of a region. -/
def Region.watchLines (r : Region) (gs : List Seg) : Region :=
  { r with readLines := (segLines gs).foldl (fun a l => insertNat l a) r.readLines }

/-- R348: the load of a serialised region: its lines are locked, its value is concrete and merges its own stores' bytes. -/
def State.serialLoad (s : State) (c sl k : Nat) (g : Region) (r : Req) : State :=
  if !(s.unlocked c k r.segs).isEmpty then s
  else
    let own := (segLocs r.segs).map (regionByte g.stores)
    let fw := (s.thread c sl).forward r.segs
    if fw = .wait && !own.all Option.isSome then s
    else
      let g' := g.watchLines r.segs
      let s1 := (s.modCore c fun x => x.modRegion k fun _ => g').cacheLines c true r.segs
      let s2 := if 64 < g'.readLines.length then s1.regionOverflow c sl r.idx else s1
      let base : Option (List Byte) := match fw with
        | .buffer bs => some bs
        | _ => s.readBytes (dieOf c) true r.segs
      let bs? : Option (List Byte) := match base with
        | some b => some ((own.zip b).map fun (o, x) => o.getD x)
        | none => if own.all Option.isSome then some (own.map fun o => o.getD 0) else none
      match bs? with
      | some bs => s2.finishLoad c sl r (bytesToNat bs) none
      | none => s2.poisonLoad c sl r

/-- R338: the load of a region that is not serialised. (DEDUCED, log entry 33.) -/
def State.regionLoad (s : State) (c sl k : Nat) (g : Region) (r : Req) : State :=
  match g.stores.filter fun e => e.meets r.segs with
  | [e] =>
    if e.segs = r.segs ∧ e.bytes = r.bytes then
      match e.record with
      | none => s.finishLoad c sl r (e.data.toNat % 2 ^ (8 * e.bytes)) none
      | some (i, off) =>
        let v := ((match g.inputs[i]? with | some inp => inp.v.setWidth 64 | none => 0) + off).toNat % 2 ^ (8 * e.bytes)
        if r.bytes = 8 then s.finishLoad c sl r v (some (i, off))
        else (s.modCore c fun x => x.modRegion k fun y =>
            { y with inputs := match y.inputs[i]? with
                | some inp => replaceAt y.inputs i { inp with pin := true }
                | none => y.inputs }).finishLoad c sl r v none
    else
      (s.modInst c sl fun x => x.abortWith s.clk r.idx 5 0).finishLoad c sl r
        (bytesToNat ((s.readBytes (dieOf c) true r.segs).getD [])) none
  | _ :: _ =>
    (s.modInst c sl fun x => x.abortWith s.clk r.idx 5 0).finishLoad c sl r
      (bytesToNat ((s.readBytes (dieOf c) true r.segs).getD [])) none
  | [] =>
    match (s.thread c sl).forward r.segs with
    | .wait => s
    | fw =>
      let ob := s.obtain c r.segs false
      if !ob.2 then ob.1
      else
        let g' := g.watchLines r.segs
        let full := decide (16 ≤ g.inputs.length) || decide (64 < g'.readLines.length)
        let bs? : Option (List Byte) := match fw with
          | .buffer bs => some bs
          | _ => s.readBytes (dieOf c) true r.segs
        let s1 := ob.1.cacheLines c true r.segs
        match bs? with
        | none => s1.poisonLoad c sl r
        | some bs =>
          if full then (s1.regionOverflow c sl r.idx).finishLoad c sl r (bytesToNat bs) none
          else
            let inp : RInput := ⟨r.va, r.segs, r.bytes, BitVec.ofNat 128 (bytesToNat bs), false, r.bytes == 16⟩
            (s1.modCore c fun x => x.modRegion k fun y => { (y.watchLines r.segs) with inputs := y.inputs ++ [inp] }).finishLoad c sl r
              (bytesToNat bs) (if r.bytes = 16 then none else some (g.inputs.length, 0))

/-! LOAD_RETURN -/

/-- Is the request an ordinary load? -/
def ReqKind.isLoad : ReqKind → Bool
  | .load | .lds | .loadAcq _ | .loadNc => true
  | _ => false

/-- R248: does the request acquire? -/
def ReqKind.acquires : ReqKind → Bool
  | .loadAcq _ => true
  | _ => false

/-- R254: does the request acquire at device or system scope? -/
def ReqKind.acquiresWide : ReqKind → Bool
  | .loadAcq p => p == .device || p == .system
  | _ => false

/-- R240: an `ldnc` of a device register is sent only after the check point. -/
def Inst.mayRead (x : Inst) (clk : Nat) (r : Req) : Bool :=
  r.mt != .device || match x.checkAt with | some t => decide (t < clk) | none => false

/-- LOAD_RETURN (R226, R242): the load of a request that has passed its checks is performed, and its data returns. -/
def State.loadReturn (s : State) (c sl idx : Nat) : State :=
  match (s.thread c sl).inst with
  | none => s
  | some x =>
    match x.req? idx with
    | none => s
    | some r =>
      if !r.kind.isLoad || r.stage != .ready || decide (s.clk < r.due) then s
      else if x.squash.isSome then s.finishReq c sl idx r.t1 r.t0 nullTok nullTok
      else if !x.mayRead s.clk r || (s.thread c sl).readsFirst (s.blockOf c sl) idx r.kind.acquires r.segs then s
      else
        match s.openRegion c sl with
        | some (k, g) =>
          if s.mustWait r.segs c (some k) then s
          else if g.ser then s.serialLoad c sl k g r else s.regionLoad c sl k g r
        | none =>
          match s.readStep c sl (s.thread c sl).epoch (r.kind == .loadNc) (r.kind != .lds) r.kind.acquiresWide r.va r.bytes r.segs
            r.mt r.got with
          | .wait s' => s'
          | .part s' got => s'.modInst c sl fun y => y.setReq { r with got := got }
          | .done s' none => s'.poisonLoad c sl r
          | .done s' (some bs) =>
            let s1 := if r.kind.acquires then s'.modThread c sl Thread.acquire else s'
            s1.finishLoad c sl r (bytesToNat bs) none

/-- LOAD_RETURN (R226). -/
def execLoadReturn (s : State) : Res := .next (s.loadReturn (s.arg 0) (s.arg 1) (s.arg 2))

/-! Deferred fills -/

/-- The slots of a deferred load. -/
def Deferred.slots (d : Deferred) : List Nat := if d.wide then [d.slot, d.slot + 1] else [d.slot]

/-- A mask of slots. -/
def slotMask (l : List Nat) : DWord := l.foldl (fun m i => m ||| BitVec.ofNat 64 (2 ^ i)) 0

/-- R144, R147: the value of a deferred load is written to its destination. -/
def State.fillSlots (s : State) (c sl : Nat) (d : Deferred) (v : DWord) : State :=
  (s.modThread c sl fun t => if d.wide then t.setPair d.slot v else t.setSlot d.slot (v.setWidth 32)).modCore c fun x =>
    x.queueWrites sl d.slots

/-- R149: a fill fails: the bits of the fail mask set, and the first failure is recorded. -/
def Thread.failFill (t : Thread) (d : Deferred) : Thread :=
  { t with failMask := t.failMask ||| slotMask d.slots,
           failRec := if t.failMask = 0 then some ⟨.poison, d.blk, d.va, memDetail d.idx 0 0 0⟩ else t.failRec }

/-- R147, R149, R251: a deferred load is answered: before its commit the value waits, after it the fill is queued, once its
banks have room; the releases that waited for it wait no longer. -/
def State.answerDeferred (s : State) (c sl pos : Nat) (d : Deferred) (v : Option DWord) : State :=
  if !d.committed then
    s.modThread c sl fun t => { t with deferred := replaceAt t.deferred pos { d with returned := some v } }
  else if !(s.core c).roomFor d.slots then
    s.modThread c sl fun t => { t with deferred := replaceAt t.deferred pos { d with returned := some v } }
  else
    let s1 := match v with
      | some w => s.fillSlots c sl d w
      | none => s.modThread c sl fun t => t.failFill d
    (s1.modThread c sl fun t =>
      { t with pending := t.pending &&& ~~~(slotMask d.slots), filledAt := s.clk,
               filled := (if t.filledAt = s.clk then t.filled else 0) ||| slotMask d.slots, deferred := removeAt t.deferred pos,
               buf := t.buf.map fun e => { e with reads := e.reads.filter (· != d.slot) } }).arriveHeld c sl

/-- DEFERRED_FILL (R147): the data of a deferred load of a thread returns. (DEDUCED, log entry 44.) -/
def State.deferredFill (s : State) (c sl pos : Nat) : State :=
  match (s.thread c sl).deferred[pos]? with
  | none => s
  | some d =>
    match d.returned with
    | some v => if d.committed then s.answerDeferred c sl pos d v else s
    | none =>
      if s.clk < d.due || (s.thread c sl).deferredFirst d then s else
      match s.readStep c sl d.epoch false true false d.va d.bytes d.segs d.mt d.got with
      | .wait s' => s'
      | .part s' got => s'.modThread c sl fun t => { t with deferred := replaceAt t.deferred pos { d with got := got } }
      | .done s' bs? => s'.answerDeferred c sl pos d (bs?.map fun bs => BitVec.ofNat 64 (bytesToNat bs))

/-- DEFERRED_FILL (R147). -/
def execDeferredFill (s : State) : Res := .next (s.deferredFill (s.arg 0) (s.arg 1) (s.arg 2))

/-! The store buffer -/

/-- The place of a thread's oldest committed entry that has not been sent. -/
def Thread.nextSend (t : Thread) : Option (Nat × BufEntry) :=
  ((List.range t.buf.length).zip t.buf).find? fun p => p.2.committed && !p.2.sent

/-- R251: is the release condition of an entry met? (DESIGN CHOICE, log entry 12.) -/
def BufEntry.maySend (e : BufEntry) (pos : Nat) : Bool :=
  match e.kind with
  | .rel _ => pos == 0 && e.reads.isEmpty
  | _ => true

/-- STORE_SEND (R241, R243): the oldest committed entry is sent, unless its release conditions hold it back. -/
def State.storeSend (s : State) (c sl : Nat) : State :=
  let t := s.thread c sl
  match t.nextSend with
  | none => s
  | some (pos, e) =>
    if e.maySend pos then
      s.modThread c sl fun u => { u with buf := replaceAt u.buf pos { e with sent := true, sentAt := s.clk }, unacked := u.unacked + 1 }
    else s

/-- STORE_SEND (R241). -/
def execStoreSend (s : State) : Res := .next (s.storeSend (s.arg 0) (s.arg 1))

/-- R241, R243: the acknowledgement of an entry returns and it leaves the buffer. (DEDUCED, log entry 7.) -/
def State.ackEntry (s : State) (c sl pos : Nat) : State :=
  (s.modThread c sl fun t => { t with buf := removeAt t.buf pos, unacked := t.unacked - 1 }).arriveHeld c sl

/-- R234, R241: does an earlier entry of the buffer hold an entry back: one to a byte of it, or to the line of a cache
operation? (DEDUCED, log entry 7.) -/
def BufEntry.behind (e f : BufEntry) : Bool :=
  let lineOp (x : BufEntry) : Bool := x.kind == .cwb || x.kind == .cinv
  if lineOp e || lineOp f then (segLines e.segs).any (segLines f.segs).contains else segsMeet e.segs f.segs

/-- R445: does an earlier sent entry to the same line of a peer hold an entry back? All stores to one line of a peer travel one port in
the order in which they were sent. -/
def State.peerBehind (s : State) (e f : BufEntry) : Bool :=
  f.sent && ((segLines e.segs).filter fun l => match paKind s (l * 128) with | .peer _ => l < 2 ^ 45 | _ => false).any
    (segLines f.segs).contains

/-- R235, R236, R244: must an entry wait for a deferred load that comes before it and reads bytes that it writes?
(DEDUCED, log entry 44.) -/
def Thread.readsBefore (t : Thread) (e : BufEntry) : Bool :=
  t.deferred.any fun d => decide (d.epoch < e.epoch) && d.returned.isNone &&
    (if e.kind == .cwb || e.kind == .cinv then (segLines e.segs).any (segLines d.segs).contains else segsMeet e.segs d.segs)

/-- How an entry that comes to its point of performance ends: it waits, one byte of a split one is performed, or it is complete. -/
inductive WriteStep where
  | wait (s : State)
  | part (s : State)
  | done (s : State)
deriving DecidableEq, Repr

/-- R228: a `stnc` at a device register; one that die 8 has taken with it refuses it (R448). -/
def State.deviceEntry (s : State) (d : Nat) (e : BufEntry) : WriteStep :=
  match e.segs with
  | [] => .done s
  | g :: _ =>
    if s.mgmt.standby then .done (s.countRefused d)
    else .done (s.deviceWrite g.loc e.data)

/-- R224, R228, R231, R241: an entry, or the next byte of a split one, is performed once its lines may be written.
(DEDUCED, log entry 7.) (DEDUCED, log entry 11.) -/
def State.performEntry (s : State) (c : Nat) (e : BufEntry) : WriteStep :=
  let d := dieOf c
  let split := isSplit e.va e.data.length e.mt
  let now := if split then segByte e.segs e.done else e.segs
  let bs := if split then (e.data.drop e.done).take 1 else e.data
  let whole : State → WriteStep := if split && decide (e.done + 1 < e.data.length) then .part else .done
  match e.kind with
  | .cwb => .done (s.performCache d false e.segs)
  | .cinv => .done (s.performCache d true e.segs)
  | .nc =>
    if e.mt = .device then s.deviceEntry d e
    else
      let ob := s.obtain c now true
      if !ob.2 then .wait ob.1
      else
        let s1 := if e.mt = .coherent then
            (segLines (now.filter fun g => !isSp g.loc)).foldl (fun s l => s.dirGrant l 8 true) ob.1 else ob.1
        whole ((s1.keepOld now).performStoreNc d now bs)
  | .store | .rel _ =>
    let ob := s.obtain c now true
    if !ob.2 then .wait ob.1
    else whole (((ob.1.keepOld now).performStore d now bs).holdL1 c (cacheLinesOf s now))

/-- STORE_ACKNOWLEDGE (R241): a sent entry is performed at its point of performance and acknowledged. One for bytes that are
lost is refused and counted (R223). (DEDUCED, log entry 7.) (DESIGN CHOICE, log entry 52.) -/
def State.storeAck (s : State) (c sl pos : Nat) : State :=
  match (s.thread c sl).buf[pos]? with
  | none => s
  | some e =>
    if !e.sent || ((s.thread c sl).buf.take pos).any (fun f => e.behind f || s.peerBehind e f) || s.mustWait e.segs c (s.thread c sl).region
        || (s.thread c sl).readsBefore e then s
    else if e.segs.any fun g => s.lost g.loc then (s.countRefused (dieOf c)).ackEntry c sl pos
    else
      match s.performEntry c e with
      | .wait s' => s'
      | .part s' => s'.modThread c sl fun t => { t with buf := replaceAt t.buf pos { e with done := e.done + 1 } }
      | .done s' => if ((s'.thread c sl).buf[pos]?).isSome then s'.ackEntry c sl pos else s'

/-- STORE_ACKNOWLEDGE (R241). -/
def execStoreAcknowledge (s : State) : Res := .next (s.storeAck (s.arg 0) (s.arg 1) (s.arg 2))

/-! Results that come later -/

/-- R123, R131, R200: an operation of longer latency emits and completes when it is due; what a special-function port returns
to a squashed instance is null (R133). -/
def State.emitDue (s : State) (c sl idx : Nat) (port : Bool) : State :=
  match (s.thread c sl).inst with
  | none => s
  | some x =>
    match x.emits.find? fun e => e.idx == idx && e.port == port with
    | none => s
    | some e =>
      if s.clk < e.due then s
      else
        let null := (port || e.voids) && x.squash.isSome
        s.modInst c sl fun y =>
          let y' := { y with emits := y.emits.filter fun f => f.idx != idx }
          ((y'.deliver e.due idx e.t0 (if null then nullTok else e.v0)).deliver e.due idx e.t1
            (if null then nullTok else e.v1)).complete e.due

/-- PIPELINED_OPERATION_EMIT (R123). -/
def execPipelinedOperationEmit (s : State) : Res := .next (s.emitDue (s.arg 0) (s.arg 1) (s.arg 2) false)

/-- SFU_RETURN (R200). -/
def execSfuReturn (s : State) : Res := .next (s.emitDue (s.arg 0) (s.arg 1) (s.arg 2) true)

/-! Atomics -/

/-- R265: the tiles that a request occupies: a 128-bit `acas` at a scratchpad bank both banks of its 16 bytes. -/
def AtomicReq.at_ (q : AtomicReq) : List Nat :=
  if decide (q.tile < 8192) && q.bytes == 16 then [q.tile, q.tile + 1] else [q.tile]

/-- The place of the first request of a tile that it has not performed yet (R265). -/
def Die.tileHead (d : Die) (tile : Nat) : Option (Nat × AtomicReq) :=
  ((List.range d.tiles.length).zip d.tiles).find? fun p => p.2.at_.contains tile && p.2.answer.isNone

/-- R268, R269: the operation of a request as one event: its answer, and memory after it. Poison is returned, and leaves the
bytes as they are (R223). (DEDUCED, log entry 13.) -/
def State.performAtomic (s : State) (q : AtomicReq) : State × Option (Quad × Bool) :=
  if s.atomicPoisoned q.segs then (s, none)
  else
    let old := bytesToNat (s.rdSegs q.segs)
    let r := atomicEval q.op q.bytes old q.cmp.toNat q.data.toNat
    let s1 := if r.2.1 then s.performStoreNc 8 q.segs (natToBytes q.bytes r.1) else s
    (s1, some (BitVec.ofNat 128 old, r.2.2))

/-- R264, R433: the rights of a tile of a die in an L2 slice to the lines of an atomic: every L1 copy is recalled, and every copy
held on another die; until then its requests stand at their homes. The flag tells that it may be performed.
(DEDUCED, log entry 9.) -/
def State.tileObtain (s : State) (die : Nat) (q : AtomicReq) : State × Bool :=
  let lines := if q.mt = .coherent then cacheLinesOf s q.segs else []
  let ob := s.obtainAt (some q.core) die lines true
  if ob.2 then
    (lines.foldl (fun s l => (((s.leaveL1 (fun _ => true) (· == l)).dropL1 die l none).enterL2 die [l])) ob.1, true)
  else ob

/-- ATOMIC_TILE_PERFORM (R264, R265, R268): a tile performs the first request of its queue, once those that reached it in the same
clk are all there; the copies of the line are recalled first, and a line that a region has locked, or that an engine owned already when
the request came, is waited for (R256, R344). -/
def State.tilePerform (s : State) (die tile : Nat) : State :=
  match (s.die die).tileHead tile with
  | none => s
  | some (pos, q) =>
    let first := q.at_.all fun t => (match (s.die die).tileHead t with | some (p, _) => p == pos | none => false)
    if s.clk ≤ q.came || !first || (segLines q.segs).any (fun l => s.locks.any fun e => e.1 == l) || (q.behind && s.lineOwned q.segs) then s
    else
      let ob := s.tileObtain die q
      if !ob.2 then ob.1
      else
        let r := ob.1.performAtomic q
        r.1.modDie die fun x => { x with tiles := replaceAt x.tiles pos { q with answer := some r.2 } }

/-- ATOMIC_TILE_PERFORM (R265). -/
def execAtomicTilePerform (s : State) : Res := .next (s.tilePerform (s.arg 0) (s.arg 1))

/-- The die and the place of the performed atomic of an instruction. -/
def State.answered (s : State) (c sl idx : Nat) : Option (Nat × Nat × AtomicReq) :=
  s.dies.findSome? fun (d, x) =>
    (((List.range x.tiles.length).zip x.tiles).find? fun p =>
      p.2.core == c && p.2.slot == sl && p.2.idx == idx && p.2.answer.isSome).map fun p => (d, p.1, p.2)

/-- ATOMIC_RETURN (R268): the answer returns, and the instruction emits and completes. -/
def State.atomicReturn (s : State) (c sl idx : Nat) : State :=
  match s.answered c sl idx, (s.thread c sl).inst with
  | some (d, pos, q), some x =>
    if s.clk < q.due then s else
    let s1 := s.modDie d fun y => { y with tiles := removeAt y.tiles pos }
    match x.req? idx, q.answer with
    | some r, some (some (old, p)) =>
      s1.finishReq c sl idx r.t1 r.t0 (predTok p) (sizedTok q.bytes old.toNat)
    | some r, _ =>
      (s1.modInst c sl fun y => y.addFault ⟨.poison, idx, r.va, memDetail idx 2 0 0⟩).finishReq c sl idx r.t1 r.t0 nullTok nullTok
    | none, _ => s1
  | _, _ => s

/-- ATOMIC_RETURN (R268). -/
def execAtomicReturn (s : State) : Res := .next (s.atomicReturn (s.arg 0) (s.arg 1) (s.arg 2))

/-! The record of `eret` (R425) -/

/-- R425: what `eret` decides from the 16 bytes of its record: the check of the chosen address. -/
def eretTerm (idx : Nat) (useNext : Bool) (blk nxt : DWord) : Term :=
  let a := (if useNext then nxt else blk).toNat % 2 ^ 56
  if targetOk a then .eret useNext blk nxt
  else .fault ⟨.permission, idx, BitVec.ofNat 64 a, memDetail idx 3 0 4⟩

/-- R425: does the terminator of a block return next? -/
def Block.eretNext (b : Block) (idx : Nat) : Bool :=
  match b.instr? idx with | some (.eret n) => n | _ => false

/-- R425: the record that `eret` has read decides where it leads; poison is a fault. -/
def State.eretDecide (s : State) (c sl : Nat) (x : Inst) (r : Req) (bs? : Option (List Byte)) : State :=
  let t : Term := match bs? with
    | none => .fault ⟨.poison, r.idx, r.va, memDetail r.idx 0 0 0⟩
    | some bs => eretTerm r.idx (((s.core c).context x.ctx).block.eretNext r.idx) (BitVec.ofNat 64 (fieldAt bs 0 8))
        (BitVec.ofNat 64 (fieldAt bs 8 8))
  s.modInst c sl fun y => { (y.dropReq r.idx) with term := t }.complete s.clk

/-- ERET_RECORD_RETURN (R425): the record is read, and `eret` decides and completes. -/
def State.eretReturn (s : State) (c sl : Nat) : State :=
  match (s.thread c sl).inst with
  | none => s
  | some x =>
    match x.reqs.find? fun r => r.kind == .record && r.stage == .ready with
    | none => s
    | some r =>
      if s.clk < r.due then s
      else if x.squash.isSome then s.modInst c sl fun y => { (y.dropReq r.idx) with term := .undecided }.complete s.clk
      else
        match s.readStep c sl (s.thread c sl).epoch false true false r.va r.bytes r.segs r.mt r.got with
        | .wait s' => s'
        | .part s' got => s'.modInst c sl fun y => y.setReq { r with got := got }
        | .done s' bs? => s'.eretDecide c sl x r bs?

/-- ERET_RECORD_RETURN (R425). -/
def execEretRecordReturn (s : State) : Res := .next (s.eretReturn (s.arg 0) (s.arg 1))

/-! Requests that no completer answers -/

/-- Does a place lie with a completer outside the module: a host, or a peer? -/
def outside (s : State) (loc : Nat) : Bool :=
  !isSp loc && match paKind s loc with | .host _ | .peer _ => true | _ => false

/-- Which request of a thread ends without an answer: a read or an atomic of its instance, a buffered write, or a deferred
load. -/
inductive Unanswered where
  | read (idx : Nat)
  | write (pos : Nat)
  | deferred (pos : Nat)
deriving DecidableEq, Repr

/-- The request that the arguments of a machine step name. -/
def unansweredOf (k n : Nat) : Unanswered := if k = 0 then .read n else if k = 1 then .write n else .deferred n

/-- R223, R445: a request that its completer does not answer ends: a read or an atomic with poison, a deferred load fails (R149),
and a write is counted as refused. -/
def State.endUnanswered (s : State) (c sl : Nat) (u : Unanswered) (away : Nat → Bool) : State :=
  match u with
  | .deferred pos =>
    match (s.thread c sl).deferred[pos]? with
    | some d => if d.returned.isNone && d.segs.any (fun g => away g.loc) then s.answerDeferred c sl pos d none else s
    | none => s
  | .write idx =>
    match (s.thread c sl).buf[idx]? with
    | some e => if e.sent && e.segs.any (fun g => away g.loc) then (s.countRefused (dieOf c)).ackEntry c sl idx else s
    | none => s
  | .read idx =>
    match (s.thread c sl).inst with
    | none => s
    | some x =>
      match x.req? idx with
      | none => s
      | some r =>
        if !r.segs.any (fun g => away g.loc) then s
        else if r.kind == .record && r.stage == .ready then s.eretDecide c sl x r none
        else if r.kind.isLoad && r.stage == .ready then s.poisonLoad c sl r
        else
          match s.dies.findSome? (fun (d, y) =>
            (((List.range y.tiles.length).zip y.tiles).find? fun p =>
              p.2.core == c && p.2.slot == sl && p.2.idx == idx && p.2.answer.isNone).map fun p => (d, p.1, p.2)) with
          | some (d, pos, q) => s.modDie d fun y => { y with tiles := replaceAt y.tiles pos { q with answer := some none } }
          | none => s

/-- COMPLETION_TIMEOUT (R223): a host or a peer completes a request with an error, or not within its link's timeout. -/
def execCompletionTimeout (s : State) : Res :=
  .next (s.endUnanswered (s.arg 0) (s.arg 1) (unansweredOf (s.arg 2) (s.arg 3)) fun l => outside s l)

end Sys2Proof.Machine
end

