-- ==== Sys2Proof/Machine/Commit.lean ====
section
/-! DEFINITION. The end of an instance: the commit (R113, R132, R145, R488), the end of a squashed one (R133), the writes of the
live-value store (R144), and the retirement of a thread (R41, R42, R275, R280, R384). -/

namespace Sys2Proof.Machine

/-! What a commit writes -/

/-- The slots of a live-out write. -/
def LiveOut.slots (l : LiveOut) : List Nat := if l.wide then [l.slot, l.slot + 1] else [l.slot]

/-- R113, R114: the link that a terminator's decision writes. -/
def Term.link : Term → Option VAddr
  | .goto _ l => l
  | _ => none

/-- R65, R113, R147: the live-out writes of a commit: those of the instance, the link, and the deferred loads that returned
before it. -/
def Inst.writes (x : Inst) (ds : List Deferred) : List LiveOut :=
  x.liveOut
    ++ (match x.term.link with | some a => [⟨62, true, a.setWidth 64, none⟩] | none => [])
    ++ ds.filterMap fun d => match d.committed, d.returned with
        | false, some (some v) => some ⟨d.slot, d.wide, v, none⟩
        | _, _ => none

/-- The slots that a commit writes, ascending. -/
def writtenSlots (ws : List LiveOut) : List Nat := (ws.flatMap LiveOut.slots).foldl (fun a i => insertNat i a) []

/-- R339: a live-out write of a region: a 64-bit one gives its pair the token's tag, any other clears the pair's tag; a
32-bit one pins the input of its tag. -/
def Region.noteWrite (r : Region) (l : LiveOut) : Region :=
  let pair := l.slot / 2 * 2
  match l.wide, l.tag with
  | true, some tag => { r with tags := Tbl.set r.tags l.slot tag }
  | _, some (i, _) =>
    { r with tags := Tbl.erase r.tags pair,
             inputs := match r.inputs[i]? with | some inp => replaceAt r.inputs i { inp with pin := true } | none => r.inputs }
  | _, none => { r with tags := Tbl.erase r.tags pair }

/-- R65, R142, R144: the live-out writes of a commit. -/
def State.writeLive (s : State) (c sl : Nat) (ws : List LiveOut) : State :=
  let s1 := s.modThread c sl fun t => ws.foldl (fun t l =>
    if l.wide then t.setPair l.slot l.data else t.setSlot l.slot (l.data.setWidth 32)) t
  let s2 := match s.openRegion c sl with
    | some (k, _) => s1.modCore c fun x => x.modRegion k fun r => ws.foldl Region.noteWrite r
    | none => s1
  s2.modCore c fun x => x.queueWrites sl (writtenSlots ws)

/-- R147, R149: the deferred loads of an instance at its commit: one that has returned its data is spent, one that returned
poison has failed, and the others set their pending bits. (DEDUCED, log entry 34.) -/
def Thread.commitDeferred (t : Thread) : Thread :=
  let mine := t.deferred.filter fun d => !d.committed
  let t1 := mine.foldl (fun t d => match d.returned with | some none => t.failFill d | _ => t) t
  { t1 with deferred := (t.deferred.filter fun d => d.committed || d.returned.isNone).map fun d => { d with committed := true },
            pending := mine.foldl (fun m d => if d.returned.isNone then m ||| slotMask d.slots else m) t.pending }

/-- R235, R236, R241, R251: the buffered entries of an instance become committed, under the number of the commit; each holds the deferred
loads that a release would wait for. A release parts the deferred loads under way from what comes after it. -/
def Thread.commitBuf (t : Thread) : Thread :=
  let rel := t.buf.any fun e => !e.committed && match e.kind with | .rel _ => true | _ => false
  { t with epoch := t.epoch + 1,
           deferred := t.deferred.map fun d => { d with fenced := d.fenced || rel },
           buf := t.buf.map fun e =>
             if e.committed then e else { e with committed := true, reads := t.deferred.map (·.slot), epoch := t.epoch + 1 } }

/-- R341: the buffered entries of a region block join those of the region. -/
def State.commitRegionBuf (s : State) (c sl k : Nat) : State :=
  let own := (s.thread c sl).buf.filter fun e => !e.committed
  let es : List RStore := own.map BufEntry.rstore
  let lines := own.foldl (fun acc e => (segLines e.segs).foldl (fun a l => insertNat l a) acc) []
  (s.modCore c fun x => x.modRegion k fun r =>
    { r with stores := r.stores ++ es, writeLines := lines.foldl (fun a l => insertNat l a) r.writeLines }).modThread c sl
    fun t => { t with buf := t.buf.filter (·.committed) }

/-- R113, R132, R180, R336: the buffered stores, live-out writes and deferred loads of an instance, and the rounding mode that it has
written, take effect. -/
def State.commitEffects (s : State) (c sl : Nat) (x : Inst) : State :=
  let s1 := (s.writeLive c sl (x.writes (s.thread c sl).deferred)).modThread c sl fun t => { t with fpMode := x.fpNext.getD t.fpMode }
  match s1.openRegion c sl with
  | some (k, _) => s1.commitRegionBuf c sl k
  | none => s1.modThread c sl fun t => t.commitDeferred.commitBuf

/-! Faults of a committed instance (R404, R488) -/

/-- R411: the writes of an instance judged by the watchpoints. -/
def State.watchWrites (s : State) (c sl : Nat) (x : Inst) : Option ThreadFault :=
  let stores := ((s.thread c sl).buf.filter fun e => !e.committed && e.kind != .cwb && e.kind != .cinv).map fun e =>
    (e.idx, e.va, e.data.length)
  (stores ++ x.atomicWrites).foldl (fun acc (i, va, n) => firstStop (s.watchOf c sl i true va.toNat n) acc) none

/-- R411: the watchpoint stop of an instance, of its reads and writes the one of the lowest instruction. -/
def State.watchStop (s : State) (c sl : Nat) (x : Inst) : Option ThreadFault :=
  firstStop (s.watchWrites c sl x) x.watch

/-- The fault of the lowest instruction of a list. -/
def firstFault (fs : List ThreadFault) : Option ThreadFault := bestBy (fun a b => decide (a.idx < b.idx)) fs

/-- R279, R281, R384: will the step of the terminator fault by itself: `hdone` of a thread without a task, a wait at a barrier that is
broken, or a `waitp` on a channel that is not the group's or is broken? -/
def State.stepFaults (s : State) (c sl : Nat) (x : Inst) : Bool :=
  let g := s.groupOf c sl
  match x.term with
  | .hdone _ => (s.thread c sl).task.isNone
  | .barrier b _ => (g.bar b).brk.isSome
  | .rope _ => (s.ropeBar g.grid (g.lin / (s.grid g.grid).launch.ropeG)).brk
  | .waitp ch _ _ => let y := (s.core c).channel ch; !y.cfg || y.owner != (s.thread c sl).group || y.brk
  | _ => false

/-- R404, R424: the cause that a committed instance records, if any: the lowest instruction's, then the terminator's own, then a
watchpoint; the flag tells that it arises from the terminator's own step. -/
def State.commitFault (s : State) (c sl : Nat) (x : Inst) : Option (ThreadFault × Bool) :=
  match firstFault x.faults with
  | some f => some (f, false)
  | none =>
    match x.term with
    | .fault f => some (f, true)
    | .trap cause code => some (⟨cause, x.n - 1, 0, code.setWidth 64⟩, true)
    | _ => if s.stepFaults c sl x then none else (s.watchStop c sl x).map fun f => (f, false)

/-- R488: what a fault that does not arise from the terminator's own step holds back: the step, NEXT, DEF and RET. -/
def heldOf (x : Inst) : Held × VAddr × Bool × Bool :=
  match x.term with
  | .goto a _ => (.none, a, false, false)
  | .retire | .hdone _ => (.none, x.ft, false, true)
  | .barrier b target => (.barrier b, target, true, false)
  | .rope target => (.rope, target, true, false)
  | .waitp ch target thr => (.waitp ch thr, target, true, false)
  | .abegin entry => (.abegin x.ft, entry, true, false)
  | _ => (.none, x.ft, false, false)

/-! The commit -/

/-- R100, R134: the instance of a thread leaves its context, whose number orders the thread's filing. -/
def State.leaveContext (s : State) (c sl k : Nat) : State :=
  (s.modCore c fun x => x.modContext k fun y => { y with idleSince := s.clk }).modThread c sl fun t =>
    { t with inst := none, place := .filing k }

/-- R425: VALID of the record that `eret` answers is cleared, and a nested record is answered. -/
def State.clearValid (s : State) (c sl : Nat) : State :=
  let a := s.activeRecord c sl + 7
  let s1 := match s.judgeWalk (s.accessor c sl) .load a 1 with
    | .ok gs _ => (s.walked (s.accessor c sl) a 1).agentStoreNc (dieOf c) gs ((s.rdSegs gs).map fun b => b &&& 0x7f)
    | _ => s
  s1.modThread c sl fun t => { t with nestOpen := false }

/-- R56: the idempotent-region entry that the commit of a block notes, whose terminator leads to a block. -/
def State.noteNext (s : State) (c sl : Nat) (b : Block) (a : VAddr) : State := s.noteIdem c sl (hdrID b.hdr) a

/-- R415, R426: `halt`: it ends the thread's part of a save, or halts the thread, which the host is told. -/
def State.haltThread (s : State) (c sl : Nat) (next : VAddr) : State :=
  match (s.thread c sl).save with
  | some v => s.modThread c sl fun t => { t with place := .saved, save := some { v with done := true } }
  | none => (s.modThread c sl fun t => { t with place := .halted, haltNext := next, next := next }).reportHalt c sl

/-- R56: a move to a next block, whose idempotent entry is noted. -/
def State.moveTo (s : State) (c sl : Nat) (b : Block) (a : VAddr) : State :=
  (s.noteNext c sl b a).fileTo c sl a

/-- R113, R276-R283, R336, R343, R384, R424-R426: the step of a terminator at the commit. -/
def State.terminate (s : State) (c sl : Nat) (x : Inst) (b : Block) : State :=
  match x.term with
  | .undecided => s.moveTo c sl b x.ft
  | .goto a _ => s.moveTo c sl b a
  | .retire => (s.modThread c sl fun t => { t with haltNext := x.blk, waitIdx := x.n - 1, hdoneArg := none }).startRetire c sl
  | .hdone w =>
    if (s.thread c sl).task.isSome then
      (s.modThread c sl fun t => { t with haltNext := x.blk, waitIdx := x.n - 1, hdoneArg := w }).startRetire c sl
    else s.takeTrap c sl (s.trapOf c sl .heapFault x.blk x.ft false false 0 (heapDetail 6 0 (x.n - 1)) .none)
  | .barrier num target => (s.noteIdem c sl (hdrID b.hdr) target).waitBar c sl num x.blk target
  | .rope target => (s.noteIdem c sl (hdrID b.hdr) target).waitRope c sl x.blk target
  | .waitp ch target thr =>
    (s.noteIdem c sl (hdrID b.hdr) target).waitChannel c sl ch thr (x.n - 1) x.blk target
  | .abegin entry =>
    match (s.thread c sl).region with
    | some k => (s.noteNext c sl b entry).enterRegion c sl k entry x.ft
    | none => s.moveTo c sl b entry
  | .acommit target =>
    (s.modThread c sl fun t => { t with place := .commitEngine, next := target }).modCore c fun y =>
      { y with commitQ := y.commitQ ++ [(sl, target)] }
  | .trap cause code =>
    s.takeTrap c sl (s.trapOf c sl cause x.blk x.ft false false 0 (code.setWidth 64) .none)
  | .eret useNext blk nxt =>
    let s1 := s.clearValid c sl
    let s2 := if useNext && nxt.getLsbD 63 then s1
      else s1.noteIdem c sl (hdrID b.hdr) ((if useNext then nxt else blk).setWidth 56)
    s2.returnFromTrap c sl (s.thread c sl).heldNow useNext blk nxt
  | .halt => (if (s.thread c sl).save.isSome then s else s.noteNext c sl b x.ft).haltThread c sl x.ft
  | .fault f => s.takeTrap c sl (s.trapOf c sl f.cause x.blk x.ft false false f.va f.detail .none)

/-- R56, R404, R488: the fault of a committed instance of a block: the terminator's step is held, and where it leads to a block
that block is the next one. -/
def State.faultAtCommit (s : State) (c sl : Nat) (x : Inst) (b : Block) (f : ThreadFault) : State :=
  let h := heldOf x
  let s0 := if h.2.2.2 then s else s.noteNext c sl b h.2.1
  let s1 := s0.modThread c sl fun t =>
    { t with waitIdx := x.n - 1, haltNext := x.blk,
             hdoneArg := match x.term with | .hdone w => if t.task.isSome then w else none | _ => none }
  s1.takeTrap c sl (s1.trapOf c sl f.cause x.blk h.2.1 h.2.2.2 h.2.2.1 f.va f.detail h.1)

/-- R346, R351: the cause of abort that takes effect at the end of an instance of a region, other than a fault. -/
def Inst.aborts (x : Inst) : Option RegionCause :=
  match x.regionCause with
  | some r => if r.cause = 7 then none else some r
  | none => none

/-- Drop the buffered events that an instance has not committed. -/
def Thread.dropOwn (t : Thread) : Thread :=
  { t with buf := t.buf.filter (·.committed), deferred := t.deferred.filter (·.committed) }

/-- R132: the commit of an instance whose time has come. -/
def State.commitInst (s : State) (c sl : Nat) (x : Inst) : State :=
  let b := ((s.core c).context x.ctx).block
  match (s.openRegion c sl).isSome, x.aborts with
  | true, some r =>
    ((s.leaveContext c sl x.ctx).modThread c sl Thread.dropOwn).abortRegion c sl r.cause r.code
  | inRegion, _ =>
    let fault := s.commitFault c sl x
    match fault with
    | some (f, own) =>
      let s1 := if inRegion then s.modThread c sl Thread.dropOwn
        else s.commitEffects c sl (if own then { x with term := .undecided } else x)
      let s2 := s1.leaveContext c sl x.ctx
      if own then
        (s2.noteNext c sl b x.ft).takeTrap c sl (s2.trapOf c sl f.cause x.blk x.ft false false f.va f.detail .none)
      else s2.faultAtCommit c sl x b f
    | none => ((s.commitEffects c sl x).leaveContext c sl x.ctx).terminate c sl x b

/-- R145, R346: the slots that the commit of an instance writes, all of them where a region may be aborted, have room in their banks'
queues. -/
def State.commitRoom (s : State) (c sl : Nat) (x : Inst) : Bool :=
  if (s.openRegion c sl).isSome then (s.core c).roomAll
  else (s.core c).roomFor (writtenSlots (x.writes (s.thread c sl).deferred))

/-- R132, R145: may an instance commit now? -/
def State.mayCommit (s : State) (c sl : Nat) (x : Inst) : Bool :=
  x.squash.isNone && decide (x.n ≤ x.count) &&
    (match x.fullAt with | some t => decide (t + 2 ≤ s.clk) | none => false) && s.commitRoom c sl x

/-- R145: a fill that waited for its banks' queues goes before every commit of its core. (DEDUCED, log entry 34.) -/
def State.fillFirst (s : State) (c : Nat) : Bool :=
  (s.core c).threads.any fun (_, t) =>
    t.deferred.any fun d => d.committed && d.returned.isSome && (s.core c).roomFor d.slots

/-- R145: of the instances of a core that may commit, the one whose count was complete first, then the lowest slot.
(DEDUCED, log entry 34.) -/
def State.nextCommit (s : State) (c : Nat) : Option (Nat × Inst) :=
  if s.fillFirst c then none
  else
    let ready := (s.core c).threads.filterMap fun (sl, t) =>
      match t.inst with | some x => if s.mayCommit c sl x then some (sl, x) else none | none => none
    bestBy (fun (a b : Nat × Inst) =>
      let fa := a.2.fullAt.getD 0
      let fb := b.2.fullAt.getD 0
      decide (fa < fb) || (fa == fb && decide (a.1 < b.1))) ready

/-- BLOCK_COMMIT (R132, R145): the instance of a thread commits, when it is the next of its core. -/
def State.blockCommit (s : State) (c sl : Nat) : State :=
  match s.nextCommit c with
  | some (n, x) => if n = sl then (s.commitInst c sl x).saveWaiter c sl else s
  | none => s

/-- BLOCK_COMMIT (R132). -/
def execBlockCommit (s : State) : Res := .next (s.blockCommit (s.arg 0) (s.arg 1))

/-- SQUASHED_END (R133, R137): a squashed instance whose instructions have all completed ends: the thread takes its first fault; one of a
discarded group takes none. -/
def State.squashedEnd (s : State) (c sl : Nat) : State :=
  match (s.thread c sl).inst with
  | none => s
  | some x =>
    match x.squash with
    | none => s
    | some f =>
      let full := match x.fullAt with | some t => decide (t ≤ s.clk) | none => false
      if x.count < x.n || !full || !x.reqs.isEmpty || ((s.openRegion c sl).isSome && !(s.core c).roomAll) then s
      else
        let s1 := (s.leaveContext c sl x.ctx).modThread c sl Thread.dropOwn
        let dropped := match s.savedOf (s.groupOf c sl).grid (s.groupOf c sl).lin with | some v => v.discarded | none => false
        if dropped then s1.modThread c sl fun t => { t with inst := none, place := .saved }
        else match (s1.openRegion c sl).isSome, x.aborts with
        | true, some r => (s1.abortRegion c sl r.cause r.code).saveWaiter c sl
        | _, _ => (s1.takeTrap c sl (s1.trapOf c sl f.cause x.blk x.ft false false f.va f.detail .none)).saveWaiter c sl

/-- SQUASHED_END (R133). -/
def execSquashedEnd (s : State) : Res := .next (s.squashedEnd (s.arg 0) (s.arg 1))

/-- LIVE_WRITE_PERFORM (R143, R144): in a clk, each bank of a core's live-value store performs the oldest entry of its queue. The values stand
in the slots already, where every read finds them. -/
def execLiveWritePerform (s : State) : Res :=
  let x := s.core (s.arg 0)
  .next (if x.lvqAt == some s.clk || x.lvq.all fun e => e.2.isEmpty then s
    else s.modCore (s.arg 0) fun x =>
      { x with lvqAt := some s.clk, lvq := (x.lvq.map fun e => (e.1, e.2.drop 1)).filter fun e => !e.2.isEmpty })

/-! Retirement -/

/-- R42, R275, R280: a retiring thread arrives and drops at every barrier on which it has not arrived, and drops from the
others. (DEDUCED, log entry 35.) -/
def State.retireBars (s : State) (c sl : Nat) : State :=
  let t := s.thread c sl
  let g := t.group
  let s1 := (List.range 18).foldl (fun s b =>
    if t.arrived.contains b then s.modGroup c g fun x => x.modBar b fun y => { y with drop := (y.drop + 1) % 2048 }
    else s.arriveBar c sl b true) s
  let s2 := s1.modGroup c g fun x => { x with ropeDrop := x.ropeDrop + 1 }
  if t.arrived.contains ropeBit then s2 else s2.arriveRope c sl

/-- R41: a thread slot is freed, and may be given to another group in the next clk; a carrier group keeps it (R358). -/
def State.freeSlot (s : State) (c sl : Nat) : State :=
  let g := (s.thread c sl).group
  (s.modCore c fun x => { (x.freeThread sl) with freed := if (x.group g).carrier then x.freed else insertNat sl x.freed }).modGroup c g fun x =>
    { x with live := x.live - 1, slots := if x.carrier then x.slots else x.slots.filter (· != sl) }

/-- R41: has everything that a retiring thread waits for happened? -/
def State.retireReady (s : State) (c sl : Nat) : Bool :=
  let t := s.thread c sl
  t.place == .retiring && t.buf.isEmpty && t.deferred.isEmpty && t.pending == 0
    && (s.core c).lvq.all fun e => !e.2.any fun w => w.1 == sl

/-- THREAD_RETIRE (R41, R384): a thread whose exit is complete retires; a failed deferred load faults instead, and a task thread
first finishes its task, whose refused operand faults at the retirement. (DEDUCED, log entry 28.) -/
def State.threadRetire (s : State) (c sl : Nat) : State :=
  if !s.retireReady c sl then s
  else if (s.thread c sl).failMask != 0 then
    (s.failFault c sl (s.thread c sl).next true).saveWaiter c sl
  else
    match s.finishTask c sl with
    | .notYet s' => s'
    | .done s' true =>
      let t := s'.thread c sl
      let h : Word := match (s.thread c sl).task with | some (n, _) => n | none => 0
      (s'.takeTrap c sl (s'.trapOf c sl .heapFault t.waitBlk t.next true false 0 (heapDetail 3 h t.waitIdx) .none)).saveWaiter c sl
    | .done s' false =>
      let carrier := (s'.groupOf c sl).carrier
      let s1 := if carrier then s' else s'.retireBars c sl
      (s1.releaseToken c sl).freeSlot c sl

/-- THREAD_RETIRE (R41). -/
def execThreadRetire (s : State) : Res := .next (s.threadRetire (s.arg 0) (s.arg 1))

end Sys2Proof.Machine
end

