-- ==== Sys2Proof/Machine/Waits.lean ====
section
/-! DEFINITION. The timers of waits and the completion of rope phases (R279-R281, R312), and the machine steps of the engine port
and the engines (R189, R289, R290, R306-R317, R325-R329). -/

namespace Sys2Proof.Machine

/-- R279, R281: do the clk of a group count for its timers? Not while it is pre-empted or halted. (DEDUCED, log entry 35.) -/
def Group.counts (g : Group) : Bool := g.save == .none && !g.halted

/-- R152, R417: does a clk of a group count for `preempt.limit`? While it is being saved, and while a discarded group waits for
fills (`waits`); not while it is halted. -/
def Group.saveCounts (g : Group) (waits : Bool) : Bool :=
  !g.halted && match g.save with
    | .saving _ => true
    | .discarded | .restoring => waits
    | _ => false

/-- R279, R417, R422: the end of a clk of a group: its registers take what was written, and its timers count on.
(DEDUCED, log entry 35.) -/
def Group.endClk (g : Group) (waits : Bool) : Group :=
  { g.settleRegs with clock := if g.counts then g.clock + 1 else g.clock,
                      saveClk := if g.saveCounts waits then g.saveClk + 1 else g.saveClk }

/-- Does a thread of a group wait for a fill? -/
def Core.waitsFill (x : Core) (g : Group) : Bool := g.slots.any fun sl => (x.thread sl).pending != 0

/-- R41, R279, R422: the end of a clk of a core. -/
def Core.endClk (x : Core) : Core :=
  { x with freed := [], groups := Tbl.mapVals (fun _ g => g.endClk (x.waitsFill g)) x.groups }

/-- R280: when the first of a group's threads began to wait on the rope barrier. (DEDUCED, log entry 35.) -/
def State.ropeSince (s : State) (c g : Nat) : Option Nat :=
  bestBy (fun a b => decide (a < b)) ((s.waiters c g .rope).map fun sl => (s.thread c sl).waitSince)

/-- BARRIER_TIMEOUT (R279, R280): the time of a barrier's phase has run out: 0-15 a named barrier of a group, 16 and 17 a stage
barrier, 18 the barrier of its rope. (DEDUCED, log entry 35.) -/
def State.barrierTimeout (s : State) (c g bar : Nat) : State :=
  let gr := s.group c g
  if !gr.counts then s
  else if bar < 18 then
    match (gr.bar bar).since with
    | some t => if (gr.bar bar).brk.isNone && timedOut gr.barTimeout t gr.clock then s.breakBar c g bar .timeout else s
    | none => s
  else if bar = 18 then
    match s.ropeSince c g with
    | some t => if timedOut gr.barTimeout t gr.clock then s.breakRope gr.grid (s.ropeOf c g) else s
    | none => s
  else s

/-- BARRIER_TIMEOUT (R279). -/
def execBarrierTimeout (s : State) : Res := .next (s.barrierTimeout (s.arg 0) (s.arg 1) (s.arg 2))

/-- R280: the counts of a group after a rope phase. -/
def Group.ropeRestart (x : Group) : Group := { x with ropeExp := x.ropeExp - x.ropeDrop, ropeCnt := 0, ropeDrop := 0 }

/-- R280: the completion of a rope phase for a group that has been saved. -/
def SavedGroup.ropeRestart (v : SavedGroup) : SavedGroup :=
  { v with group := v.group.ropeRestart
           threads := v.threads.map fun (i, t) =>
             (i, { (if t.arrived.contains ropeBit then t.wakeSaved .rope else t) with arrived := t.arrived.filter (· != ropeBit) }) }

/-- R280: the completion of a rope phase on one core: the counts start again and the waiting threads are filed. -/
def State.ropeRestart (s : State) (c g : Nat) : State :=
  let s1 := s.modGroup c g Group.ropeRestart
  (s1.clearArrivals c g ropeBit).freeWaiters c g .rope ropeBit

/-- ROPE_PHASE_COMPLETE (R280): 24 clk after the last group arrival the phase completes on every core of the run. -/
def State.ropeComplete (s : State) (gn rope : Nat) : State :=
  let b := s.ropeBar gn rope
  match b.due with
  | none => s
  | some t =>
    if s.clk < t then s
    else
      let s1 := s.modGrid gn fun g => { g with ropes := Tbl.set g.ropes rope { b with due := none } }
      (((s1.ropeMembers gn rope).foldl (fun s (c, g) => s.ropeRestart c g) s1).modSaved gn rope SavedGroup.ropeRestart).settleRope gn rope

/-- ROPE_PHASE_COMPLETE (R280). -/
def execRopePhaseComplete (s : State) : Res := .next (s.ropeComplete (s.arg 0) (s.arg 1))

/-- CHANNEL_WAIT_TIMEOUT (R281): the time of one thread's `waitp` has run out. -/
def execChannelWaitTimeout (s : State) : Res :=
  let c := s.arg 0
  let sl := s.arg 1
  let t := s.thread c sl
  let g := s.groupOf c sl
  .next (match t.place with
    | .channel ch =>
      if g.counts && timedOut g.barTimeout t.waitSince g.clock then
        (s.trapWaiter c sl (.channel ch) .barTimeout (chanDetail ch)).ropeAfterFault c sl
      else s
    | _ => s)

/-! Engines -/

/-- ENGINE_PORT_ACCEPT (R189). -/
def execEnginePortAccept (s : State) : Res := .next (s.acceptHead (s.arg 0))

/-- COPY_RUN_ISSUE (R289). -/
def execCopyRunIssue (s : State) : Res := .next (s.issueRun (s.arg 0) (s.arg 1))

/-- COPY_RUN_PERFORMED (R290). -/
def execCopyRunPerformed (s : State) : Res := .next (s.performRun (s.arg 0) (s.arg 1) (s.arg 2))

/-- MATRIX_STEP (R307). -/
def execMatrixStep (s : State) : Res := .next (s.matrixStep (s.arg 0))

/-- MMA_COMPLETE (R306). -/
def execMmaComplete (s : State) : Res := .next (s.mmaComplete (s.arg 0) (s.arg 1))

/-- MACC_COMPLETE (R317). -/
def execMaccComplete (s : State) : Res := .next (s.maccComplete (s.arg 0) (s.arg 1))

/-- GANG_ROUND_COMPLETE (R311). -/
def execGangRoundComplete (s : State) : Res := .next (s.gangComplete (s.arg 0) (s.arg 1) (s.arg 2))

/-- LATCH_TIMEOUT (R312). -/
def execLatchTimeout (s : State) : Res :=
  let c := s.arg 0
  let sl := s.arg 1
  .next (if (s.groupOf c sl).counts then s.latchTimeout c sl else s)

/-- TEMPORAL_COMMAND_START (R329). -/
def execTemporalCommandStart (s : State) : Res := .next (s.tempStart (s.arg 0))

/-- TEMPORAL_COMMAND_COMPLETE (R329). -/
def execTemporalCommandComplete (s : State) : Res := .next (s.tempComplete (s.arg 0))

/-- TLAUNCH_ATTEMPT_END (R325): the second argument tells that the reference column did not match. -/
def execTlaunchAttemptEnd (s : State) : Res := .next (s.tlaunchEnd (s.arg 0) (s.arg 1 != 0))

/-- TICK_REPLAN (R326). -/
def execTickReplan (s : State) : Res := .next (s.tickReplan (s.arg 0) (s.arg 1) (s.arg 2))

/-- TEMPORAL_ARRAY_RESET (R326). -/
def execTemporalArrayReset (s : State) : Res := .next (s.tempReset (s.arg 0))

end Sys2Proof.Machine
end

