-- ==== Sys2Proof/Machine/Coherence.lean ====
section
/-! DEFINITION. The directory's transactions, probes and granule classes (R433-R436), host snoops (R442), links (R439), and dead
agents, failover, reset and bring-up (R445-R448, R467). -/

namespace Sys2Proof.Machine

/-! Transactions (R433) -/

/-- Does an access of a thread of a die stand at a line, waiting to be performed? -/
def State.accessWaits (s : State) (p : Nat → Bool) (q : Nat → Bool) : Bool :=
  (s.cores.any fun (c, x) => p c && x.threads.any fun (_, t) =>
    (match t.inst with
     | some i => i.reqs.any fun r => r.stage == .ready && (segLines r.segs).any q
     | none => false) ||
    (t.buf.any fun e => e.sent && (segLines e.segs).any q) || t.deferred.any fun d => d.returned.isNone && (segLines d.segs).any q)
    || (s.dies.any fun (_, d) => d.tiles.any fun a => a.answer.isNone && p a.core && (segLines a.segs).any q)
    || s.cores.any fun (c, x) => p c && ((match x.commit with | some r => r.todo.any q | none => false)
      || x.channels.any fun (_, y) => y.runs.any fun r => (segLines (r.src ++ r.dst)).any q)

/-- R433: the dies that a transaction probes: for a write those that may hold the line, for a read its owner; never the
requester. -/
def State.probeTargets (s : State) (h : Nat) (r : DirReq) : List Nat :=
  let e := s.dirEntry h r.line
  (List.range 8).filter fun d =>
    d != r.from_ && !(s.die d).dead &&
      (if r.write then e.dv.getLsbD d || e.owner r.line == some d || (d == h && (s.die h).l2.contains r.line)
       else e.owner r.line == some d)

/-- R446, R447: the requests at a home slice whose sender's number is not its present one are dropped and counted. -/
def State.dropLate (s : State) (h : Nat) : State :=
  let late (r : DirReq) : Bool := r.inc != Tbl.get 0 s.incarnations r.from_
  let n := ((s.die h).dirQ.filter late).length
  if n = 0 then s
  else s.modDie h fun x => { x with dirQ := x.dirQ.filter fun r => !late r
                                    errors := { x.errors with late := min (2 ^ 32 - 1) (x.errors.late + n) } }

/-- R433: the transaction ends: the grant is sent, and the entry updated. -/
def State.grantLine (s : State) (h : Nat) (pos : Nat) (r : DirReq) : State :=
  ((s.modDie h fun x => { x with dirQ := removeAt x.dirQ pos }).dirGrant r.line r.from_ r.write).modDie r.from_ fun x =>
    { x with grants := if x.grants.contains r.line then x.grants else x.grants ++ [r.line] }

/-- DIRECTORY_TRANSACTION (R433): the home slice ends the transaction whose answers are all there, or begins the next request,
requests for one line in their order. -/
def State.directory (s : State) (h : Nat) : State :=
  let q := (List.range (s.die h).dirQ.length).zip (s.die h).dirQ
  match q.find? fun p => p.2.begun && p.2.waiting.isEmpty with
  | some (pos, r) => s.grantLine h pos r
  | none =>
    match q.find? fun p => !p.2.begun && !(q.take p.1).any fun o => o.2.line == p.2.line with
    | none => s
    | some (pos, r) =>
      match s.probeTargets h r with
      | [] => s.grantLine h pos r
      | ds =>
        let s1 := s.modDie h fun x => { x with dirQ := replaceAt x.dirQ pos { r with begun := true, waiting := ds } }
        ds.foldl (fun s d => s.modDie d fun x => { x with probes := x.probes ++ [(r.line, h, r.write)] }) s1

/-- DIRECTORY_TRANSACTION (R433). -/
def execDirectoryTransaction (s : State) : Res := .next ((s.dropLate (s.arg 0)).directory (s.arg 0))

/-- R344: is a line locked by a region of a core of a die? -/
def State.lockedAt (s : State) (d : Nat) (p : Nat → Bool) : Bool := s.locks.any fun (l, c, _) => dieOf c == d && p l

/-- PROBE_ANSWER (R344, R433, R435, R438): a die answers the first of its probes that waits on no grant of its line, and on no lock
of it: an invalidation takes the line from its caches. -/
def State.probeAnswer (s : State) (d : Nat) : State :=
  let held (l : Nat) : Bool :=
    s.lockedAt d (· == l) || ((s.die d).grants.contains l && s.accessWaits (fun c => dieOf c == d) (· == l))
  let q := (List.range (s.die d).probes.length).zip (s.die d).probes
  match q.find? fun p => !held p.2.1 with
  | none => s
  | some (pos, l, h, inval) =>
    let s1 := if inval then s.dropLine d l else s
    (s1.modDie d fun x =>
      { x with probes := removeAt x.probes pos, grants := x.grants.filter (· != l) }).modDie h fun x =>
      { x with dirQ := x.dirQ.map fun r => if r.line = l ∧ r.begun then { r with waiting := r.waiting.filter (· != d) } else r }

/-- PROBE_ANSWER (R433). -/
def execProbeAnswer (s : State) : Res := .next (s.probeAnswer (s.arg 0))

/-! Granules (R436) -/

/-- GRANULE_FLUSH (R436): a granule that is private to a core and that another agent's access waits for is flushed and becomes
shared. -/
def execGranuleFlush (s : State) : Res :=
  let g := s.arg 0
  .next (match s.granuleOwner g, classHome s g with
    | some _, some h => if (s.die h).wanted.contains g && !s.locks.any (fun e => e.1 / 512 == g) then s.flushGranule g 2 else s
    | _, _ => s)

/-- GRANULE_RECLASSIFY (R436): the driver's command flushes a shared granule from every cache, and it is untouched. -/
def execGranuleReclassify (s : State) : Res :=
  let g := s.arg 0
  .next (if s.granule g = 2 then
    let s1 := s.leaveL1 (fun _ => true) fun l => l / 512 == g
    let clear (i : Nat) (d : Die) : Die :=
      if i < 8 then
        { d with
          l2 := d.l2.filter (fun l => l / 512 != g)
          filter := d.filter.filter (fun e => e.1 / 512 != g)
          dir := d.dir.filter (fun e => e.1 / 128 != g) }
      else d
    let s2 : State := { s1 with dies := Tbl.mapVals clear s1.dies }
    s2.setGranule g 0
  else s)

/-! Hosts (R442) -/

/-- HOST_SNOOP (R344, R442): a host takes a line, or reads it: the filter of its port and the dies that it names answer, once no
region has the line locked. -/
def execHostSnoop (s : State) : Res :=
  let port := s.arg 0
  let line := s.arg 1
  let write := s.arg 2 != 0
  .next (if port < 2 ∧ !s.locks.any (fun e => e.1 == line) then
    match Tbl.find? (s.die (8 + port)).dir line with
    | none => s
    | some e =>
      if write then
        let s1 := (List.range 8).foldl (fun s d => if e.dv.getLsbD d then s.dropHost d line else s) s
        s1.modDie (8 + port) fun x => { x with dir := Tbl.erase x.dir line }
      else
        let s1 := match e.owner 0 with | some d => s.setHostDir d line true false | none => s
        s1.modDie (8 + port) fun x => { x with dir := Tbl.set x.dir line (e.setOwner 0 none) }
  else s)

/-! Dead agents (R446, R447) -/

/-- R447: lines are marked poisoned at their homes, and counted there. (DEDUCED, log entry 13.) -/
def State.poisonLines (s : State) (h : Nat) (lines : List Nat) : State :=
  let s1 : State := { s with poison := lines.foldl (fun p l => (List.range 128).foldl (fun q i => insertNat (l * 128 + i) q) p) s.poison }
  s1.modDie h fun x => { x with errors := { x.errors with poison := min (2 ^ 32 - 1) (x.errors.poison + lines.length) } }

/-- R447: the lines of a die's directory that another die owns. -/
def Die.ownedBy (x : Die) (d : Nat) : List Nat :=
  x.dir.flatMap fun (r, e) => ((List.range 4).map (r * 4 + ·)).filter fun l => e.owner l == some d

/-- R447: a home clears a dead die from its records, poisons the lines that it owned, and completes the transactions that wait
on it. -/
def State.homeForgets (s : State) (h d : Nat) : State :=
  let x := s.die h
  let gone := x.ownedBy d
  let mask : BitVec 8 := ~~~(BitVec.ofNat 8 (2 ^ d))
  let wipe (k : Nat) (e : DirEntry) : DirEntry :=
    (List.range 4).foldl (fun e i => if e.owner (k * 4 + i) == some d then e.setOwner (k * 4 + i) none else e)
      { e with dv := e.dv &&& mask }
  (s.modDie h fun y =>
    { y with dir := (Tbl.mapVals wipe y.dir).filter fun e => e.2.dv != 0 || e.2.own != 0,
             granules := y.granules.filter fun e => !(e.2.toNat % 4 == 1 && dieOf (e.2.toNat / 4) == d),
             dirQ := (y.dirQ.filter fun r => r.from_ != d).map fun r => { r with waiting := r.waiting.filter (· != d) } }).poisonLines
    h gone

/-- R447: the host filter of an I/O die clears a dead die, and the lines that it owned are poisoned. -/
def State.hostForgets (s : State) (port d : Nat) : State :=
  let mask : BitVec 8 := ~~~(BitVec.ofNat 8 (2 ^ d))
  let gone := ((s.die (8 + port)).dir.filter fun e => e.2.owner 0 == some d).map (·.1)
  (s.poisonLines (8 + port) gone).modDie (8 + port) fun y =>
    { y with dir := (Tbl.mapVals (fun _ e => { (if e.owner 0 == some d then e.setOwner 0 none else e) with dv := e.dv &&& mask })
        y.dir).filter fun e => e.2.dv != 0 || e.2.own != 0 }

/-- R447: a Tukan die is dead: its threads and its homed memory are lost; what stood in memory homed on it is poisoned, and the driver
is notified. -/
def State.dieDead (s : State) (d : Nat) : State :=
  if (s.die d).dead then s
  else
    let engineLines := (s.owned.filter fun e => dieOf e.2.1 == d).map (·.1)
    let s0 := s.poisonLines d (engineLines.foldl (fun a l => insertNat l a) [])
    let s1 := ((List.range 8).filter (· != d)).foldl (fun s h => s.homeForgets h d) s0
    let s2 := (s1.hostForgets 0 d).hostForgets 1 d
    let mine := (s2.cores.filter fun e => dieOf e.1 == d).flatMap fun (c, x) => x.groups.map fun g => (c, g.1)
    let s3 := mine.foldl (fun s (c, g) => s.removeGroup c g) s2
    let lostBytes := (s3.mem.filter fun e => decide (e.1 < 2 ^ 52) && homeOf s3 e.1 == some d).map (·.1)
    let s4 : State := { s3 with
      poison := lostBytes.foldl (fun p a => insertNat a p) s3.poison
      locks := s3.locks.filter fun e => dieOf e.2.1 != d }
    let s5 : State := { s4 with cores := s4.cores.filter fun e => dieOf e.1 != d }
    (s5.modMgmt fun m => { m with notices := insertNat d m.notices }).modDie d fun x =>
      { x with dead := true, tlb := [], l2 := [], nc := [], ncDirty := [], filter := [], dir := [], granules := [], dirQ := [],
               probes := [], grants := [], latch := [], serial := none, serialWait := [] }

/-- R446-R448: the peers that only the ports of I/O die 9 reach. -/
def State.peersBehind9 (s : State) : List Nat :=
  (s.mgmt.peers.filter fun e => e.2.getLsbD 127 && e.2.toNat % 2 ^ 36 == 0).map (·.1)

/-- An agent other than a Tukan die is dead. -/
def State.markGone (s : State) (a : Nat) : State := s.modMgmt fun m => { m with gone := insertNat a m.gone }

/-- R446, R447: an agent is declared dead: 0-7 a Tukan die, 8 and 9 a host port, 10 I/O die 9, 16 + n peer n. -/
def State.agentDead (s : State) (a : Nat) : State :=
  if a < 8 then s.dieDead a
  else if a < 10 then (s.markGone a).modDie a fun x => { x with dir := [] }
  else if a = 10 then
    let s1 := s.peersBehind9.foldl (fun s n => s.markGone (16 + n)) (((s.markGone 10).markGone 9).modDie 9 fun x => { x with dir := [] })
    ((List.range 8).filter fun d => (s.die d).rerouted.contains 8).foldl (fun s d => s.dieDead d) s1
  else if 16 ≤ a ∧ a < 16 + 1024 then s.markGone a
  else s

/-- AGENT_DEAD (R446, R447). -/
def execAgentDead (s : State) : Res := .next (s.agentDead (s.arg 0))

/-- R446: is an agent declared dead and not yet brought back up? -/
def State.agentGone (s : State) (a : Nat) : Bool := if a < 8 then (s.die a).dead else s.mgmt.gone.contains a

/-- LATE_MESSAGE (R446, R447): a message of the agent that the second argument names, with the incarnation number of the third, reaches a
die after the agent was declared dead: where that number is its old one, it is dropped and counted. (DEDUCED, log entry 38.) -/
def execLateMessage (s : State) : Res :=
  let d := s.arg 0
  let a := s.arg 1
  let now := Tbl.get 0 s.incarnations a
  .next (if decide (d < Config.dies) && (s.agentGone a || BitVec.ofNat 16 (s.arg 2) != now) then
    s.modDie d fun x => { x with errors := { x.errors with late := min (2 ^ 32 - 1) (x.errors.late + 1) } }
  else s)

/-- AGENT_BROUGHT_BACK_UP (R446): a dead agent is brought back up, and its incarnation number rises by 1. -/
def execAgentBroughtBackUp (s : State) : Res :=
  let a := s.arg 0
  let s1 : State := { s with incarnations := Tbl.set s.incarnations a (Tbl.get 0 s.incarnations a + 1) }
  .next (if a < 8 then
      (if (s.die a).dead && !s.mgmt.absent.contains a then s1.modDie a fun x => { x with dead := false } else s)
    else if s.mgmt.gone.contains a then
      let s2 := s1.modMgmt fun m => { m with gone := m.gone.filter (· != a) }
      -- R444: INC of a peer is the incarnation that is accepted now
      if a < 16 then s2
      else
        let q := (Tbl.get 0 s.mgmt.peers (a - 16)).toNat
        let inc := (Tbl.get 0 s1.incarnations a).toNat
        s2.modMgmt fun m => { m with peers := Tbl.set m.peers (a - 16) (BitVec.ofNat 128 (q / 2 ^ 88 * 2 ^ 88 + inc * 2 ^ 72 + q % 2 ^ 72)) }
    else s)

/-- R446: a peer reports its incarnation: one that is not the one accepted last declares it dead, and is the number that it is brought
back up with. (DEDUCED, log entry 38.) -/
def State.peerReport (s : State) (n : Nat) (inc : BitVec 16) : State :=
  let q := (Tbl.get 0 s.mgmt.peers n).toNat
  if n < 1024 ∧ q.testBit 127 ∧ BitVec.ofNat 16 (q / 2 ^ 72) ≠ inc then
    let s1 : State := { s with incarnations := Tbl.set s.incarnations (16 + n) (inc - 1) }
    s1.agentDead (16 + n)
  else s

/-- R444: LTO of a peer, in clk; 0 acts as 1 µs. -/
def State.peerLimit (s : State) (n : Nat) : Nat := 1000 * max 1 ((Tbl.get 0 s.mgmt.peers n).toNat / 2 ^ 104 % 2 ^ 16)

/-- R445: the runs of a request that has been sent, and the clk of its sending. -/
def State.sentSegs (s : State) (c sl : Nat) (u : Unanswered) : List Seg × Nat :=
  match u with
  | .write n => match (s.thread c sl).buf[n]? with | some e => if e.sent then (e.segs, e.sentAt) else ([], 0) | none => ([], 0)
  | .deferred n => match (s.thread c sl).deferred[n]? with
    | some d => if d.returned.isNone then (d.segs, d.due) else ([], 0)
    | none => ([], 0)
  | .read n => match (s.thread c sl).inst with
    | some x => (match x.req? n with
      | some r => if r.stage == .walking || r.stage == .queued then ([], 0)
        else match s.dies.findSome? fun (_, y) => y.tiles.find? fun q => q.core == c && q.slot == sl && q.idx == n with
          | some q => (q.segs, q.came)
          | none => (r.segs, r.due)
      | none => ([], 0))
    | none => ([], 0)

/-- PEER_TIMEOUT (R445, R446): a request to a peer gets no answer within LTO: it ends, and the peer is declared dead. -/
def execPeerTimeout (s : State) : Res :=
  let c := s.arg 0
  let sl := s.arg 1
  let u := unansweredOf (s.arg 2) (s.arg 3)
  let isPeer (l : Nat) : Bool := !isSp l && match paKind s l with | .peer _ => true | _ => false
  let sent := s.sentSegs c sl u
  .next (match (segLocs sent.1).find? isPeer with
    | some l =>
      let n := l / 2 ^ 40 % 2 ^ 10
      if s.clk < sent.2 + s.peerLimit n then s else (s.endUnanswered c sl u isPeer).agentDead (16 + n)
    | none => s)

/-! Links (R439) -/

/-- R449: a link's failure is counted. (DEDUCED, log entry 38.) -/
def State.countLink (s : State) (d peer : Nat) : State :=
  s.modDie d fun x =>
    { x with rerouted := insertNat peer x.rerouted, errors := { x.errors with lfail := min (2 ^ 32 - 1) (x.errors.lfail + 1) } }

/-- R439: the I/O die that carries the traffic of a failed link: die 8, or die 9 where die 8 offers no route. -/
def State.routeVia (s : State) (a b : Nat) : Option Nat :=
  [8, 9].find? fun v => !(s.die a).rerouted.contains v && !(s.die b).rerouted.contains v && b != v
    && !(if v = 8 then s.mgmt.standby else s.mgmt.gone.contains 10)

/-- LINK_FAIL (R439): the link of a Tukan die with another, or with I/O die 8 or 9, fails and its traffic is rerouted, once one flit of it
has failed eight retries, or (with a third argument of 1) once no flit has been acknowledged for 2 µs; a die that I/O die 8 cannot
reach any more is declared dead. The links of dies that are not fitted do not exist. (DEDUCED, log entry 38.) -/
def execLinkFail (s : State) : Res :=
  let a := s.arg 0
  let b := s.arg 1
  let fails := s.arg 2 = 1 ∨ 8 ≤ Tbl.get 0 (s.die a).retries b
  .next (if a < s.fitted ∧ (b < s.fitted ∨ b = 8 ∨ b = 9) ∧ a ≠ b ∧ fails ∧ !(s.die a).rerouted.contains b then
    let s1 := s.countLink a b
    let s2 := if b < 8 then s1.countLink b a else s1
    let r := (s2.die a).rerouted
    if r.contains 8 && (r.contains 9 || s2.mgmt.gone.contains 10) then s2.agentDead a else s2
  else s)

/-! Failover, reset and bring-up (R448, R467) -/

/-- R448: a grid ends without a completion: the launch window is lost. -/
def State.endGridLost (s : State) (gn : Nat) : State :=
  let mine := s.cores.flatMap fun (c, x) => (Tbl.keysWhere (fun _ g => g.grid == gn) x.groups).map fun g => (c, g)
  let s1 := ((mine.foldl (fun s (c, g) => s.removeGroup c g) s).freeHeaps gn).dropSavedReports gn
  { s1 with grids := Tbl.erase s1.grids gn }

/-- R448: the contexts that have a grid, or a record that waits. -/
def State.busyContexts (s : State) : List Nat :=
  let a := s.grids.foldl (fun acc e => insertNat e.2.ctx acc) []
  s.queues.foldl (fun acc e => if e.2.taken.isEmpty then acc else insertNat e.2.ctx acc) a

/-- IO_DIE_FAILOVER (R448): I/O die 8 is dead; the standby controller takes over. The tables of die 8 are lost; the base and the size of
the ring are kept. (DEDUCED, log entry 38.) -/
def State.failover (s : State) : State :=
  if s.mgmt.standby || s.mgmt.gone.contains 10 then s
  else
    let ctxs := s.busyContexts
    let s1 := (s.grids.map (·.1)).foldl (fun s gn => s.endGridLost gn) s
    let s2 : State := { s1 with queues := [] }
    let s3 := ((s2.markGone 8).modDie 8 fun x => { x with dir := [] }).modMgmt fun m =>
      { m with ready := false, standby := true, ctxs := [], watch := [], peers := [] }
    ctxs.foldl (fun s k => s.post ⟨3, 0, identOf 0 0 0 k, 0, 0, 0, []⟩) s3

/-- IO_DIE_FAILOVER (R448). -/
def execIoDieFailover (s : State) : Res := .next s.failover

/-- HEARTBEAT_MISS (R446, R448): a die has missed its management heartbeat for 100 µs. -/
def execHeartbeatMiss (s : State) : Res :=
  let d := s.arg 0
  .next (if d = 8 then s.failover else if d = 9 then s.agentDead 10 else if d < 8 then s.agentDead d else s)

/-- MODULE_RESET (R448): a management reset through host port 1 repeats bring-up: everything is at its reset value but memory,
time, fuses and incarnation numbers, and READY is 0 until BRING_UP, which tells whether die 8 is there again. Every agent is brought back
up (R446). (DEDUCED, log entry 38.) -/
def execModuleReset (s : State) : Res :=
  .next (if s.mgmt.standby then
    { State.reset with
      clk := s.clk
      mem := s.mem
      poison := s.poison
      dies := s.dies.map fun e => (e.1, { Die.reset with tscOff := e.2.tscOff, tscAt := e.2.tscAt, tscBack := e.2.tscBack })
      incarnations := (List.range 10).foldl (fun t a => Tbl.set t a (Tbl.get 0 t a + 1)) s.incarnations
      mgmt := { Mgmt.reset with small := s.mgmt.small, attest := s.mgmt.attest, standby := true } }
  else s)

/-- BRING_UP (R467): the steps of bring-up pass and READY sets. Bits 0-7 of the argument mark the Tukan dies that failed a step
and are absent for this run, as dies 4-7 of the smaller grade always are (R10), bit 9 I/O die 9; with bit 8, die 8 has failed again and READY stays 0 (R448).
(DESIGN CHOICE, log entry 6.) (DESIGN CHOICE, log entry 47.) -/
def execBringUp (s : State) : Res :=
  let f := s.arg 0
  let bad := (List.range 8).filter fun d => f.testBit d || decide (s.fitted ≤ d)
  .next (if s.mgmt.ready || s.mgmt.down || (s.mgmt.standby && s.mgmt.gone.contains 8) then s
    else if f.testBit 8 then (if s.mgmt.standby then s.markGone 8 else s)
    else
      let s1 := s.modMgmt fun m => { m with ready := true, absent := bad, standby := false }
      let s2 := bad.foldl (fun s d => s.modDie d fun x => { x with dead := true }) s1
      if f.testBit 9 then s2.agentDead 10 else s2)

end Sys2Proof.Machine
end

