-- ==== Sys2Proof/Machine/Integer.lean ====
section
/-! DEFINITION. Integer, predicate and address operations, opcodes 0x20-0x4f (chapter 8). -/

namespace Sys2Proof.Machine

/-! Exact lane results (R160): `x`, `y`, `z` the lanes of a, b, c under the type, `n` lane b as a natural number. -/

/-- A shift count cut where every further shift gives the same result. -/
def cutCount (n : Nat) : Nat := min n 128

/-- The w-bit pattern of a lane's number. -/
def patOf (ty : IntTy) (x : Int) : Nat := lowBits (laneW ty) x
/-- R160, `div`: the quotient rounded toward zero, and the result for a zero divisor. -/
def divLane (ty : IntTy) (x y : Int) : Int :=
  if y = 0 then (if laneSigned ty then -1 else 2 ^ laneW ty - 1) else x.tdiv y
/-- R160, `rem`. -/
def remLane (x y : Int) : Int := if y = 0 then x else x - y * x.tdiv y
/-- R160, `shl`. -/
def shlLane (x : Int) (n : Nat) : Int := x * 2 ^ cutCount n
/-- R160, `shr`: the lane read as natural. -/
def shrLane (ty : IntTy) (x : Int) (n : Nat) : Int := (patOf ty x / 2 ^ cutCount n : Nat)
/-- R160, `sar`: the lane read as signed. -/
def sarLane (ty : IntTy) (x : Int) (n : Nat) : Int := sextNat (laneW ty) (patOf ty x) / 2 ^ cutCount n
/-- R160, `rotl`. -/
def rotlLane (ty : IntTy) (x : Int) (n : Nat) : Int :=
  let w := laneW ty
  let p := patOf ty x
  let k := n % w
  (p * 2 ^ k % 2 ^ w + p / 2 ^ (w - k) : Nat)
/-- R160, `rotr`: rotated right by s mod w. -/
def rotrLane (ty : IntTy) (x : Int) (n : Nat) : Int :=
  let w := laneW ty
  let p := patOf ty x
  let k := n % w
  (p / 2 ^ k + p * 2 ^ (w - k) % 2 ^ w : Nat)
/-- R160, `clz`. -/
def clzLane (ty : IntTy) (x : Int) : Int :=
  let p := patOf ty x
  if p = 0 then laneW ty else (laneW ty - (Nat.log2 p + 1) : Nat)
/-- The lowest set bit of a number below `2^fuel`, or `fuel`. -/
def lowestBit (p : Nat) : Nat → Nat → Nat
  | 0, i => i
  | fuel + 1, i => if p.testBit i then i else lowestBit p fuel (i + 1)
/-- R160, `ctz`. -/
def ctzLane (ty : IntTy) (x : Int) : Int := lowestBit (patOf ty x) (laneW ty) 0
/-- R160, `popc`. -/
def popcLane (ty : IntTy) (x : Int) : Int := ((List.range (laneW ty)).filter fun i => (patOf ty x).testBit i).length
/-- R160, `brev`. -/
def brevLane (ty : IntTy) (x : Int) : Int :=
  ((List.range (laneW ty)).foldl (fun a i => if (patOf ty x).testBit i then a + 2 ^ (laneW ty - 1 - i) else a) 0 : Nat)
/-- R160, `bswap`. -/
def bswapLane (ty : IntTy) (x : Int) : Int :=
  ((List.range (laneW ty / 8)).foldl (fun a j => a + patOf ty x / 2 ^ (8 * j) % 256 * 2 ^ (laneW ty - 8 - 8 * j)) 0 : Nat)

/-! Operations of one, two and three operands -/

/-- R159: an operation on port a alone. -/
def State.intOp1 (s : State) (m : IntMod) (t1 t0 : Target) (f : Int → Int) : State :=
  let a := s.opTok .a
  s.compute 1 1 t1 t0 [a] (dword (laneOp m (fun x _ _ _ => f x) a.nat 0 0))

/-- R159: an operation on ports a and b, with its times and the tag of its result (R339). -/
def State.intOp2 (s : State) (busy lat : Nat) (m : IntMod) (t1 t0 : Target) (f : Int → Int → Nat → Int)
    (tag : Token → Token → Option (Nat × DWord)) : State :=
  let a := s.opTok .a
  let b := zeroB m.z (s.opTok .b)
  s.computeTag busy lat t1 t0 [a, b] (dword (laneOp m (fun x y _ n => f x y n) a.nat b.nat 0)) (tag a b)

/-- R339: no tag. -/
def noTag (_ _ : Token) : Option (Nat × DWord) := none

/-- R339: is the operation a 64-bit one without flags? -/
def plain64 (m : IntMod) : Bool := (m.ty == .i64 || m.ty == .n64) && !m.sat && !m.invb && !m.z

/-- R339: the tag of an `add`. -/
def addTag (m : IntMod) (a b : Token) : Option (Nat × DWord) :=
  if plain64 m then
    match a.tag, b.tag with
    | some (i, c), none => some (i, c + b.data.setWidth 64)
    | none, some (i, c) => some (i, c + a.data.setWidth 64)
    | _, _ => none
  else none
/-- R339: the tag of a `sub`. -/
def subTag (m : IntMod) (a b : Token) : Option (Nat × DWord) :=
  if plain64 m then
    match a.tag, b.tag with
    | some (i, c), none => some (i, c - b.data.setWidth 64)
    | _, _ => none
  else none

/-- R168: the clk a division takes. -/
def divTime (m : IntMod) : Nat := if laneW m.ty = 64 then 20 else 12

/-- `add` (R160). -/
def execAdd (m : IntMod) (t1 t0 : Target) (s : State) : Res :=
  .next (s.intOp2 1 1 m t1 t0 (fun x y _ => x + y) (addTag m))

/-- `sub` (R160). -/
def execSub (m : IntMod) (t1 t0 : Target) (s : State) : Res :=
  .next (s.intOp2 1 1 m t1 t0 (fun x y _ => x - y) (subTag m))

/-- `mul` (R160). -/
def execMul (m : IntMod) (t1 t0 : Target) (s : State) : Res :=
  .next (s.intOp2 1 3 m t1 t0 (fun x y _ => x * y) (noTag))

/-- `mulhi` (R160). -/
def execMulhi (m : IntMod) (t1 t0 : Target) (s : State) : Res :=
  .next (s.intOp2 1 3 m t1 t0 (fun x y _ => x * y / 2 ^ laneW m.ty) (noTag))

/-- `div` (R160). -/
def execDiv (m : IntMod) (t1 t0 : Target) (s : State) : Res :=
  .next (s.intOp2 (divTime m) (divTime m) m t1 t0 (fun x y _ => divLane m.ty x y) (noTag))

/-- `rem` (R160). -/
def execRem (m : IntMod) (t1 t0 : Target) (s : State) : Res :=
  .next (s.intOp2 (divTime m) (divTime m) m t1 t0 (fun x y _ => remLane x y) (noTag))

/-- `min` (R160). -/
def execMin (m : IntMod) (t1 t0 : Target) (s : State) : Res :=
  .next (s.intOp2 1 1 m t1 t0 (fun x y _ => min x y) (noTag))

/-- `max` (R160). -/
def execMax (m : IntMod) (t1 t0 : Target) (s : State) : Res :=
  .next (s.intOp2 1 1 m t1 t0 (fun x y _ => max x y) (noTag))

/-- `and` (R160). -/
def execAnd (m : IntMod) (t1 t0 : Target) (s : State) : Res :=
  .next (s.intOp2 1 1 m t1 t0 (fun x y _ => (patOf m.ty x &&& patOf m.ty y : Nat)) (noTag))

/-- `or` (R160). -/
def execOr (m : IntMod) (t1 t0 : Target) (s : State) : Res :=
  .next (s.intOp2 1 1 m t1 t0 (fun x y _ => (patOf m.ty x ||| patOf m.ty y : Nat)) (noTag))

/-- `xor` (R160). -/
def execXor (m : IntMod) (t1 t0 : Target) (s : State) : Res :=
  .next (s.intOp2 1 1 m t1 t0 (fun x y _ => (patOf m.ty x ^^^ patOf m.ty y : Nat)) (noTag))

/-- `andn` (R160). -/
def execAndn (m : IntMod) (t1 t0 : Target) (s : State) : Res :=
  .next (s.intOp2 1 1 m t1 t0 (fun x y _ => (patOf m.ty x &&& patOf m.ty (-1 - y) : Nat)) (noTag))

/-- `shl` (R160). -/
def execShl (m : IntMod) (t1 t0 : Target) (s : State) : Res :=
  .next (s.intOp2 1 1 m t1 t0 (fun x _ n => shlLane x n) (noTag))

/-- `shr` (R160). -/
def execShr (m : IntMod) (t1 t0 : Target) (s : State) : Res :=
  .next (s.intOp2 1 1 m t1 t0 (fun x _ n => shrLane m.ty x n) (noTag))

/-- `sar` (R160). -/
def execSar (m : IntMod) (t1 t0 : Target) (s : State) : Res :=
  .next (s.intOp2 1 1 m t1 t0 (fun x _ n => sarLane m.ty x n) (noTag))

/-- `rotl` (R160). -/
def execRotl (m : IntMod) (t1 t0 : Target) (s : State) : Res :=
  .next (s.intOp2 1 1 m t1 t0 (fun x _ n => rotlLane m.ty x n) (noTag))

/-- `rotr` (R160). -/
def execRotr (m : IntMod) (t1 t0 : Target) (s : State) : Res :=
  .next (s.intOp2 1 1 m t1 t0 (fun x _ n => rotrLane m.ty x n) (noTag))

/-- `abs` (R160). -/
def execAbs (m : IntMod) (t1 t0 : Target) (s : State) : Res :=
  .next (s.intOp1 m t1 t0 (fun x => (x.natAbs : Int)))

/-- `neg` (R160). -/
def execNeg (m : IntMod) (t1 t0 : Target) (s : State) : Res :=
  .next (s.intOp1 m t1 t0 (fun x => -x))

/-- `not` (R160). -/
def execNot (m : IntMod) (t1 t0 : Target) (s : State) : Res :=
  .next (s.intOp1 m t1 t0 (fun x => -1 - x))

/-- `clz` (R160). -/
def execClz (m : IntMod) (t1 t0 : Target) (s : State) : Res :=
  .next (s.intOp1 m t1 t0 (clzLane m.ty))

/-- `ctz` (R160). -/
def execCtz (m : IntMod) (t1 t0 : Target) (s : State) : Res :=
  .next (s.intOp1 m t1 t0 (ctzLane m.ty))

/-- `popc` (R160). -/
def execPopc (m : IntMod) (t1 t0 : Target) (s : State) : Res :=
  .next (s.intOp1 m t1 t0 (popcLane m.ty))

/-- `brev` (R160). -/
def execBrev (m : IntMod) (t1 t0 : Target) (s : State) : Res :=
  .next (s.intOp1 m t1 t0 (brevLane m.ty))

/-- `bswap` (R160). -/
def execBswap (m : IntMod) (t1 t0 : Target) (s : State) : Res :=
  .next (s.intOp1 m t1 t0 (bswapLane m.ty))

/-- `absdiff` (R160): packed as the natural type of the same width. -/
def execAbsdiff (m : IntMod) (t1 t0 : Target) (s : State) : Res :=
  let a := s.opTok .a
  let b := s.opTok .b
  .next (s.compute 1 1 t1 t0 [a, b] (dword (packLanes (naturalTy m.ty) fun k =>
    ((laneVal m.ty a.nat k - laneVal m.ty b.nat k).natAbs : Int))))

/-- `mad` (R160); port c is data. -/
def execMad (m : IntMod) (t1 t0 : Target) (s : State) : Res :=
  let a := s.opTok .a
  let b := s.opTok .b
  let c := s.opTok .c
  .next (s.computeC 1 3 t1 t0 [a, b, c] (dword (laneOp m (fun x y z _ => x * y + z) a.nat b.nat c.nat)))

/-- R161: the full product, a dword for the 32-bit types and a pair for the 64-bit types. -/
def mulwTok (ty : IntTy) (a b : Nat) : Token :=
  let p := laneVal ty a 0 * laneVal ty b 0
  if laneW ty = 64 then pairTok (lowBits 128 p) else dword (lowBits 64 p)

/-- `mulw` (R161). -/
def execMulw (m : IntMod) (t1 t0 : Target) (s : State) : Res :=
  let a := s.opTok .a
  let b := s.opTok .b
  .next (s.compute 1 3 t1 t0 [a, b] (mulwTok m.ty a.nat b.nat))

/-- R162: position, end and emptiness of a field from its control token. -/
def fieldOf (w ctl : Nat) : Option (Nat × Nat) :=
  let pos := ctl % 256
  let len := ctl / 256 % 256
  if w ≤ pos ∨ len = 0 then none else some (pos, min (pos + len) w)

/-- R162, `bfx`. -/
def bfxVal (ty : IntTy) (a ctl : Nat) : Nat :=
  match fieldOf (laneW ty) ctl with
  | none => 0
  | some (pos, e) =>
    let f := bitsOf (lanePat ty a 0) (e - 1) pos
    packLanes ty fun _ => if laneSigned ty then sextNat (e - pos) f else (f : Int)

/-- R162, `bfi`. -/
def bfiVal (ty : IntTy) (a b ctl : Nat) : Nat :=
  match fieldOf (laneW ty) ctl with
  | none => packLanes ty fun _ => (lanePat ty b 0 : Int)
  | some (pos, e) =>
    let base := lanePat ty b 0
    let n := e - pos
    packLanes ty fun _ => (base - bitsOf base (e - 1) pos * 2 ^ pos + a % 2 ^ n * 2 ^ pos : Nat)

/-- `bfx` (R162). -/
def execBfx (m : IntMod) (t1 t0 : Target) (s : State) : Res :=
  let a := s.opTok .a
  let b := s.opTok .b
  .next (s.compute 1 1 t1 t0 [a, b] (dword (bfxVal m.ty a.nat b.nat)))

/-- `bfi` (R162); port c is the control, data. -/
def execBfi (m : IntMod) (t1 t0 : Target) (s : State) : Res :=
  let a := s.opTok .a
  let b := s.opTok .b
  let c := s.opTok .c
  .next (s.computeC 1 1 t1 t0 [a, b, c] (dword (bfiVal m.ty a.nat b.nat c.nat)))

/-- `lea` (R163). -/
def execLea (m : LeaMod) (t1 t0 : Target) (s : State) : Res :=
  let a := s.opTok .a
  let b := s.opTok .b
  .next (s.compute 1 1 t1 t0 [a, b]
    (dword (lowBits 64 ((a.lo : Int) + laneVal m.ty b.nat 0 * 2 ^ m.scale.toNat))))

/-! Comparisons (R164) -/

/-- R164, R339, R340: a comparison of lanes. On 64-bit types without `.z` a comparison with exactly one tagged operand
records a constraint and pins nothing. -/
def State.compare (s : State) (m : IntMod) (r : Rel) (t1 t0 : Target) : State :=
  let a := s.opTok .a
  let b := zeroB m.z (s.opTok .b)
  let p := relHolds r (laneVal m.ty a.nat 0) (laneVal m.ty b.nat 0)
  let k : Option Constraint :=
    if plain64 m then
      match a.tag, b.tag with
      | some (i, c), none => some ⟨i, c, r, laneSigned m.ty, b.data.setWidth 64, true, p⟩
      | none, some (i, c) => some ⟨i, c, r, laneSigned m.ty, a.data.setWidth 64, false, p⟩
      | _, _ => none
    else none
  match k with
  | some k =>
    if s.runs [a, b] && s.guardTrue then ((s.pin [s.opTok .c]).constrain k).emit 1 1 t1 t0 (predTok p) (predTok p)
    else s.nullResult 1 1 t1 t0 [a, b]
  | none => s.compute 1 1 t1 t0 [a, b] (predTok p)

/-- `setp.eq` (R164). -/
def execSetpEq (m : IntMod) (t1 t0 : Target) (s : State) : Res :=
  .next (s.compare m .eq t1 t0)

/-- `setp.ne` (R164). -/
def execSetpNe (m : IntMod) (t1 t0 : Target) (s : State) : Res :=
  .next (s.compare m .ne t1 t0)

/-- `setp.lt` (R164). -/
def execSetpLt (m : IntMod) (t1 t0 : Target) (s : State) : Res :=
  .next (s.compare m .lt t1 t0)

/-- `setp.le` (R164). -/
def execSetpLe (m : IntMod) (t1 t0 : Target) (s : State) : Res :=
  .next (s.compare m .le t1 t0)

/-- `setp.gt` (R164). -/
def execSetpGt (m : IntMod) (t1 t0 : Target) (s : State) : Res :=
  .next (s.compare m .gt t1 t0)

/-- `setp.ge` (R164). -/
def execSetpGe (m : IntMod) (t1 t0 : Target) (s : State) : Res :=
  .next (s.compare m .ge t1 t0)

/-! Predicates (R165) -/

/-- R165: a predicate operation on ports a and b. -/
def State.predOp (s : State) (t1 t0 : Target) (f : Bool → Bool → Bool) : State :=
  let a := s.opTok .a
  let b := s.opTok .b
  s.compute 1 1 t1 t0 [a, b] (predTok (f a.pred b.pred))

/-- `pand` (R165). -/
def execPand (t1 t0 : Target) (s : State) : Res := .next (s.predOp t1 t0 Bool.and)

/-- `por` (R165). -/
def execPor (t1 t0 : Target) (s : State) : Res := .next (s.predOp t1 t0 Bool.or)

/-- `pxor` (R165). -/
def execPxor (t1 t0 : Target) (s : State) : Res := .next (s.predOp t1 t0 Bool.xor)

/-- `pnot` (R165). -/
def execPnot (t1 t0 : Target) (s : State) : Res :=
  let a := s.opTok .a
  .next (s.compute 1 1 t1 t0 [a] (predTok !a.pred))

/-! Immediate forms (R166) -/

/-- R166: an operation on all 64 bits of port a and the immediate. -/
def State.immOp (s : State) (lat : Nat) (t0 : Target) (f : Nat → Nat) : State :=
  let a := s.opTok .a
  s.compute 1 lat .none t0 [a] (dword (f a.lo))

/-- R166: the immediate as a 64-bit pattern, and read as n64. -/
def immPat (imm : BitVec 15) : Nat := lowBits 64 (immVal imm)

/-- `addi` (R166, R339). -/
def execAddi (imm : BitVec 15) (t0 : Target) (s : State) : Res :=
  let a := s.opTok .a
  .next (s.computeTag 1 1 .none t0 [a] (dword (a.lo + immPat imm))
    (a.tag.map fun (i, c) => (i, c + BitVec.ofInt 64 (immVal imm))))

/-- `andi` (R166). -/
def execAndi (imm : BitVec 15) (t0 : Target) (s : State) : Res := .next (s.immOp 1 t0 fun a => a &&& immPat imm)

/-- `shli` (R166). -/
def execShli (imm : BitVec 15) (t0 : Target) (s : State) : Res :=
  .next (s.immOp 1 t0 fun a => a * 2 ^ cutCount (immPat imm))

/-- `shri` (R166). -/
def execShri (imm : BitVec 15) (t0 : Target) (s : State) : Res :=
  .next (s.immOp 1 t0 fun a => a / 2 ^ cutCount (immPat imm))

/-- `muli` (R166). -/
def execMuli (imm : BitVec 15) (t0 : Target) (s : State) : Res := .next (s.immOp 3 t0 fun a => a * immPat imm)

/-- R166, R339: a comparison with the immediate; a tagged operand records a constraint. -/
def State.compareImm (s : State) (r : Rel) (imm : BitVec 15) (t0 : Target) : State :=
  let a := s.opTok .a
  let p := relHolds r (sextNat 64 a.lo) (immVal imm)
  match a.tag with
  | some (i, c) =>
    if s.runs [a] && s.guardTrue then
      ((s.pin [s.opTok .c]).constrain ⟨i, c, r, true, BitVec.ofInt 64 (immVal imm), true, p⟩).emit 1 1 .none t0
        (predTok p) (predTok p)
    else s.nullResult 1 1 .none t0 [a]
  | none => s.compute 1 1 .none t0 [a] (predTok p)

/-- `setpi.eq` (R166). -/
def execSetpiEq (imm : BitVec 15) (t0 : Target) (s : State) : Res := .next (s.compareImm .eq imm t0)

/-- `setpi.lt` (R166). -/
def execSetpiLt (imm : BitVec 15) (t0 : Target) (s : State) : Res := .next (s.compareImm .lt imm t0)

end Sys2Proof.Machine
end

