-- ==== Sys2Proof/Machine/Observation.lean ====
section
/-! DEFINITION. Time, trace, sampling, energy and heat (R451-R468): the machine steps TRACE_ACCEPT, SAMPLE_TAKE, ENERGY_UPDATE,
VOLTAGE_REPLAN, THERMAL_HOLD_START, THERMAL_HOLD_END, THERMAL_SHUTDOWN and TSC_CORRECTION. -/

namespace Sys2Proof.Machine

/-! The trace unit (R454-R457) -/

/-- R455: the 32 bytes of a trace record. -/
def TraceRec.bytes (r : TraceRec) : List Byte :=
  natToBytes 8 r.ts.toNat ++ natToBytes 2 (r.src % 2 ^ 12) ++ natToBytes 1 r.type ++ natToBytes 1 r.ctx ++
    natToBytes 4 r.aux.toNat ++ natToBytes 8 r.d0.toNat ++ natToBytes 8 r.d1.toNat

/-- R454: the number of records that the buffer holds. (DEDUCED, log entry 36.) -/
def Trace.size (t : Trace) : Nat := if 12 ≤ t.log2n ∧ t.log2n ≤ 28 then 2 ^ t.log2n else 2 ^ 12

/-- R454: the place of a record of the buffer, by its index. (DEDUCED, log entry 36.) -/
def Trace.place (t : Trace) (idx : Word) : Nat := t.base.toNat + idx.toNat % t.size * 32

/-- R457: is the buffer full? -/
def Trace.full (t : Trace) : Bool := (t.widx - t.ridx).toNat == t.size

/-- R454: does the buffer hold a record at an index: is the place HBM homed on the die? -/
def State.traceRoom (s : State) (d : Nat) (loc : Nat) : Bool := paKind s loc == .hbm && homeOf s loc == some d

/-- R13, R14: the source number of a die's trace unit. -/
def traceSource (d : Nat) : Nat := 2048 + d * 32 + 3

/-- R457: a record is written at WIDX by a device-scope write, and WIDX advances. (DEDUCED, log entry 36.) -/
def State.writeTrace (s : State) (d : Nat) (r : TraceRec) : State :=
  let t := (s.die d).trace
  (s.agentStore d [⟨t.place t.widx, 32, false⟩] r.bytes).modDie d fun x =>
    { x with trace := { x.trace with widx := x.trace.widx + 1 } }

/-- R457: the timestamp of the newest of the 64 records that a full buffer drops. -/
def State.oldTs (s : State) (t : Trace) : DWord := BitVec.ofNat 64 (s.rd (t.place (t.ridx + 63)) 8)

/-- R457: a gap record is written where records were dropped since the last one, or where the buffer is full, when the oldest 64
records are dropped. (DEDUCED, log entry 36.) -/
def State.writeGap (s : State) (d : Nat) : State :=
  let t := (s.die d).trace
  if t.gap = 0 && !t.full then s
  else
    let t' : Trace := if t.full then
        { t with ridx := t.ridx + 64, drop := min (2 ^ 32 - 1) (t.drop + 64), gap := t.gap + 64,
                 gapTs := if t.gap = 0 || decide (t.gapTs.toNat < (s.oldTs t).toNat) then s.oldTs t else t.gapTs }
      else t
    let r : TraceRec := ⟨s.tsc d, traceSource d, 1, 255, BitVec.ofNat 32 t'.gap, BitVec.ofNat 64 t'.drop, t'.gapTs, none⟩
    (s.modDie d fun x => { x with trace := { t' with gap := 0 } }).writeTrace d r

/-- R457: the head of the queue leaves it and is written. With a buffer that is not HBM of the die, or with EN = 0, nothing is written
(R454). -/
def State.traceHead (s : State) (d : Nat) : State :=
  let t := (s.die d).trace
  match t.queue with
  | [] => s
  | r :: rest =>
    let s1 := s.modDie d fun x => { x with trace := { t with queue := rest } }
    if t.en && s.traceRoom d (t.place t.widx) then (s1.writeGap d).writeTrace d r else s1

/-- TRACE_ACCEPT (R457): the record at the head of the queue is written; what the unit accepts it takes at the end of each clk.
(DEDUCED, log entry 36.) -/
def execTraceAccept (s : State) : Res :=
  let d := s.arg 0
  .next (if d < Config.dies then s.traceHead d else s)

/-! Sampling (R459-R461) -/

/-- R460: where the terminator of a thread that waits at the latch leads: an undecided one falls through. (DEDUCED, log entry 36.) -/
def Inst.leadsTo (i : Inst) : VAddr :=
  match i.term with
  | .goto a _ | .barrier _ a | .rope a | .waitp _ a _ | .abegin a | .acommit a => a
  | _ => i.ft

/-- R460: the state of a slot in the current clk: its code, its block, its context and the index that fired.
(DEDUCED, log entry 36.) -/
def State.sampleOf (s : State) (c sl : Nat) : Nat × DWord × Nat × Nat :=
  let x := s.core c
  let t := x.thread sl
  let g := x.group t.group
  let next : DWord := t.next.setWidth 64
  let latched := (s.die (dieOf c)).latch.any fun e => e.cmd.core == c && e.cmd.slot == sl
  let quietly (i : Inst) : Nat × DWord × Nat × Nat :=
    if latched then (6, i.leadsTo.setWidth 64, i.ctx, 0) else (1, i.blk.setWidth 64, i.ctx, 0)
  match t.place, t.inst with
  | .inFlight, some i =>
    match i.firedNow with
    | some (k, idx) => if k = s.clk then (0, i.blk.setWidth 64, i.ctx, idx)
      else quietly i
    | none => quietly i
  | p, _ =>
    if t.save.isSome || g.halted then (9, next, 0, 0)
    else match p with
      | .binned b =>
        match (x.bin b).ctx with
        | none => (2, next, 0, 0)
        | some k =>
          let w := x.context k
          if w.state != .opened then (2, next, 0, 0)
          else if maskMeets (t.pending ||| (if t.priv then 0 else t.failMask)) w.block.touchSet then (4, next, 0, 0)
          else if s.candidate c w.block sl && s.admissionHeld c sl w.block then (5, next, 0, 0)
          else (3, next, 0, 0)
      | .fifo => (8, next, 0, 0)
      | .barrier _ | .rope | .channel _ => (6, next, 0, 0)
      | .fault => (7, (match t.trap with | some tr => tr.fblk.setWidth 64 | none => next), 0, 0)
      | .saved | .halted => (9, next, 0, 0)
      | _ => (1, next, 0, 0)

/-- R459: the next occupied slot after the slot sampled last, with wrap-around. -/
def Core.sampledSlot (x : Core) : Option Nat :=
  let occ := Tbl.keysWhere (fun _ t => t.place != .free) x.threads
  match x.sampler.last with
  | none => occ.head?
  | some l => match occ.find? (fun i => decide (l < i)) with
    | some i => some i
    | none => occ.head?

/-- R459: is a sample of a core due in this clk, and not taken yet? -/
def State.sampleDue (s : State) (c : Nat) : Bool :=
  let m := (s.core c).sampler
  m.period != 0 && m.start + (m.k + 1) * m.period == s.clk

/-- R460: the record of a sample. -/
def State.sampleRec (s : State) (c sl : Nat) : TraceRec :=
  let x := s.core c
  let q := s.sampleOf c sl
  let aux := sl + (x.thread sl).group * 2 ^ 10 + q.1 * 2 ^ 14 + q.2.2.1 * 2 ^ 18 + q.2.2.2 * 2 ^ 20
    + min 63 x.sampler.drops * 2 ^ 26
  ⟨s.tsc (dieOf c), c, 8, s.aspOf c sl, BitVec.ofNat 32 aux, q.2.1, BitVec.ofNat 64 (x.sampler.k + 1), none⟩

/-- R459-R461: one sample of a core is taken: it is held for the trace unit, or dropped and counted when four are held.
(DEDUCED, log entry 36.) -/
def State.sampleTake (s : State) (c : Nat) : State :=
  if !s.sampleDue c then s
  else
    let x := s.core c
    let m := x.sampler
    match x.sampledSlot with
    | none => s.setCore c { x with sampler := { m with k := m.k + 1 } }
    | some sl =>
      let m' : Sampler := { m with k := m.k + 1, last := some sl }
      let m'' : Sampler :=
        if !(s.die (dieOf c)).trace.takes 8 then m'
        else if m.held.length < 4 then { m' with held := m.held ++ [s.sampleRec c sl], drops := 0 }
        else { m' with sdrop := min (2 ^ 32 - 1) (m.sdrop + 1), drops := m.drops + 1 }
      s.setCore c { x with sampler := m'' }

/-- SAMPLE_TAKE (R459). -/
def execSampleTake (s : State) : Res := .next (s.sampleTake (s.arg 0))

/-! Energy and voltage (R462, R464) -/

/-- R462: the occupied thread slots of a die, by the context of their grid. -/
def State.slotsOfCtx (s : State) (d k : Nat) : Nat :=
  sumNat (s.cores.map fun (c, x) =>
    if dieOf c = d then (Tbl.keysWhere (fun _ t => t.place != .free && (s.grid (x.group t.group).grid).ctx == k) x.threads).length
    else 0)

/-- R462: the share of the die's static energy that `k` of `total` occupied slots take. -/
def staticShare (d ctx clk k total : Nat) : Nat :=
  let e := Config.energyStatic d clk
  if total = 0 then 0
  else e * k / total + (if e * k % total = 0 then 0 else if Config.energyRoundUp d ctx clk then 1 else 0)

/-- R462: one µs of energy is charged to the counters of a die: 0-63 the contexts, 64 what no context is charged with. -/
def State.chargeEnergy (s : State) (d : Nat) : State :=
  let total := sumNat ((List.range 64).map (s.slotsOfCtx d))
  let own := if total = 0 then Config.energyStatic d s.clk else 0
  let add (k : Nat) : Nat := Config.energyEvents d k s.clk +
    (if k = 64 then own else staticShare d k s.clk (s.slotsOfCtx d k) total)
  s.modDie d fun x =>
    { x with energyAt := x.energyAt + 1000,
             energy := (List.range 65).foldl (fun e k => Tbl.set e k ((Tbl.get 0 e k + add k) % 2 ^ 64)) x.energy }

/-- ENERGY_UPDATE (R462): once per µs, of 1,000 clk. -/
def execEnergyUpdate (s : State) : Res :=
  let d := s.arg 0
  .next (if d < Config.dies ∧ (s.die d).energyAt + 1000 ≤ s.clk then s.chargeEnergy d else s)

/-- R464: is nothing of a die at work: no thread is in flight on it, and no engine of it? -/
def State.dieIdle (s : State) (d : Nat) : Bool :=
  s.cores.all fun (c, x) => dieOf c != d ||
    (x.inFlight.isEmpty && x.matQ.isEmpty && x.temp.queue.isEmpty && x.port.isEmpty && x.channels.all fun e => e.2.infl == 0)

/-- VOLTAGE_REPLAN (R464): in an idle window of the die its supply voltage is planned again, and a margin record is written. -/
def execVoltageReplan (s : State) : Res :=
  let d := s.arg 0
  .next (if d < Config.dies ∧ s.dieIdle d then
    s.offer d ⟨s.tsc d, traceSource d, 6, 255, Config.voltageMargin d s.clk, Config.pathMargin d s.clk, 0, none⟩
  else s)

/-! Heat (R468) -/

/-- R468: the die enters or leaves thermal hold; temperatures are in 1/16 °C. (DEDUCED, log entry 37.) -/
def State.setHold (s : State) (d temp : Nat) (on : Bool) : State :=
  (s.modDie d fun x => { x with hot := on }).offer d
    ⟨s.tsc d, traceSource d, 9, 255, if on then 1 else 0, BitVec.ofNat 64 temp, 0, none⟩

/-- THERMAL_HOLD_START (R468): a junction reaches 95 °C. -/
def execThermalHoldStart (s : State) : Res :=
  let d := s.arg 0
  .next (if d < Config.dies ∧ 95 * 16 ≤ s.arg 1 ∧ !(s.die d).hot then s.setHold d (s.arg 1) true else s)

/-- THERMAL_HOLD_END (R468): the junction falls to 90 °C. -/
def execThermalHoldEnd (s : State) : Res :=
  let d := s.arg 0
  .next (if d < Config.dies ∧ s.arg 1 ≤ 90 * 16 ∧ (s.die d).hot then s.setHold d (s.arg 1) false else s)

/-- THERMAL_SHUTDOWN (R468): at 105 °C the module is shut down and every agent is declared dead. (DEDUCED, log entry 37.) -/
def execThermalShutdown (s : State) : Res :=
  let peers := (Tbl.keysWhere (fun _ q => q.getLsbD 127) s.mgmt.peers).map (16 + ·)
  let s1 := (List.range 11 ++ peers).foldl (fun s a => s.agentDead a) s
  .next (s1.modMgmt fun m => { m with down := true, ready := false })

/-! Time (R451) -/

/-- R451: the offsets of the other copies lie within 4 ns of a value. (DEDUCED, log entry 50.) -/
def tscClose (a b : Int) : Bool := decide (a - b ≤ 4) && decide (b - a ≤ 4)

/-- TSC_CORRECTION (R451): by the second argument in ns forwards, or with the third backwards. More than 1 ms forwards is one
step of every copy, while no grid is resident; anything else moves one die's copy by 1 ns, at most once in 5,000 clk (200 ppm),
and within 4 ns of the reference of die 8. With die 8 dead, no copy is corrected (R448). (DEDUCED, log entry 50.) -/
def execTscCorrection (s : State) : Res :=
  let d := s.arg 0
  let fwd := s.arg 1
  let x := s.die d
  let step : Int := if s.arg 2 = 0 then 1 else -1
  let off := x.tscOff + step
  let near := if d = 8 then (List.range 10).all fun k => k == 8 || tscClose (s.die k).tscOff off else tscClose off (s.die 8).tscOff
  .next (if s.mgmt.standby then s
    else if d = 8 ∧ s.arg 2 = 0 ∧ 1000000 < fwd then
      (if s.grids.all fun e => e.2.resident.isEmpty then
        (List.range 10).foldl (fun s k => s.modDie k fun y => { y with tscOff := y.tscOff + fwd }) s
      else s)
    else if d < 10 ∧ (s.arg 2 ≠ 0 ∨ fwd ≠ 0) ∧ x.tscAt + 5000 ≤ s.clk ∧ near then
      s.modDie d fun y => { y with tscOff := off, tscAt := s.clk, tscBack := s.arg 2 != 0 }
    else s)

end Sys2Proof.Machine
end

