-- ==== Sys2Proof/Machine/Dispatch.lean ====
section
/-! DEFINITION. The meaning of every instruction and machine step: one arm for each constructor of `Instr`. -/

namespace Sys2Proof.Machine

/-- What an instruction or a machine step does to the state; an instruction acts on the firing in progress. -/
def exec (i : Instr) (s : State) : Host.Outcome State Fault Refusal :=
  match i with
  | .read slot t1 t0 => Sys2Proof.Machine.execRead slot t1 t0 s
  | .readD slot t1 t0 => Sys2Proof.Machine.execReadD slot t1 t0 s
  | .lit slot t1 t0 => Sys2Proof.Machine.execLit slot t1 t0 s
  | .litD slot t1 t0 => Sys2Proof.Machine.execLitD slot t1 t0 s
  | .const imm t0 => Sys2Proof.Machine.execConst imm t0 s
  | .mov w t1 t0 => Sys2Proof.Machine.execMov w t1 t0 s
  | .gate w t1 t0 => Sys2Proof.Machine.execGate w t1 t0 s
  | .gaten w t1 t0 => Sys2Proof.Machine.execGaten w t1 t0 s
  | .sel w t1 t0 => Sys2Proof.Machine.execSel w t1 t0 s
  | .pick w t1 t0 => Sys2Proof.Machine.execPick w t1 t0 s
  | .pair t1 t0 => Sys2Proof.Machine.execPair t1 t0 s
  | .split t1 t0 => Sys2Proof.Machine.execSplit t1 t0 s
  | .sink w => Sys2Proof.Machine.execSink w s
  | .isnull w t1 t0 => Sys2Proof.Machine.execIsnull w t1 t0 s
  | .id slot t1 t0 => Sys2Proof.Machine.execId slot t1 t0 s
  | .br off => Sys2Proof.Machine.execBr off s
  | .brc off => Sys2Proof.Machine.execBrc off s
  | .brcn off => Sys2Proof.Machine.execBrcn off s
  | .brx => Sys2Proof.Machine.execBrx s
  | .call off => Sys2Proof.Machine.execCall off s
  | .callc off => Sys2Proof.Machine.execCallc off s
  | .callx => Sys2Proof.Machine.execCallx s
  | .ret => Sys2Proof.Machine.execRet s
  | .exit => Sys2Proof.Machine.execExit s
  | .exitc => Sys2Proof.Machine.execExitc s
  | .add m t1 t0 => Sys2Proof.Machine.execAdd m t1 t0 s
  | .sub m t1 t0 => Sys2Proof.Machine.execSub m t1 t0 s
  | .addi imm t0 => Sys2Proof.Machine.execAddi imm t0 s
  | .mul m t1 t0 => Sys2Proof.Machine.execMul m t1 t0 s
  | .mulhi m t1 t0 => Sys2Proof.Machine.execMulhi m t1 t0 s
  | .mulw m t1 t0 => Sys2Proof.Machine.execMulw m t1 t0 s
  | .mad m t1 t0 => Sys2Proof.Machine.execMad m t1 t0 s
  | .div m t1 t0 => Sys2Proof.Machine.execDiv m t1 t0 s
  | .rem m t1 t0 => Sys2Proof.Machine.execRem m t1 t0 s
  | .min m t1 t0 => Sys2Proof.Machine.execMin m t1 t0 s
  | .max m t1 t0 => Sys2Proof.Machine.execMax m t1 t0 s
  | .abs m t1 t0 => Sys2Proof.Machine.execAbs m t1 t0 s
  | .neg m t1 t0 => Sys2Proof.Machine.execNeg m t1 t0 s
  | .and m t1 t0 => Sys2Proof.Machine.execAnd m t1 t0 s
  | .or m t1 t0 => Sys2Proof.Machine.execOr m t1 t0 s
  | .xor m t1 t0 => Sys2Proof.Machine.execXor m t1 t0 s
  | .andn m t1 t0 => Sys2Proof.Machine.execAndn m t1 t0 s
  | .not m t1 t0 => Sys2Proof.Machine.execNot m t1 t0 s
  | .shl m t1 t0 => Sys2Proof.Machine.execShl m t1 t0 s
  | .shr m t1 t0 => Sys2Proof.Machine.execShr m t1 t0 s
  | .sar m t1 t0 => Sys2Proof.Machine.execSar m t1 t0 s
  | .rotl m t1 t0 => Sys2Proof.Machine.execRotl m t1 t0 s
  | .rotr m t1 t0 => Sys2Proof.Machine.execRotr m t1 t0 s
  | .clz m t1 t0 => Sys2Proof.Machine.execClz m t1 t0 s
  | .ctz m t1 t0 => Sys2Proof.Machine.execCtz m t1 t0 s
  | .popc m t1 t0 => Sys2Proof.Machine.execPopc m t1 t0 s
  | .brev m t1 t0 => Sys2Proof.Machine.execBrev m t1 t0 s
  | .bswap m t1 t0 => Sys2Proof.Machine.execBswap m t1 t0 s
  | .bfx m t1 t0 => Sys2Proof.Machine.execBfx m t1 t0 s
  | .bfi m t1 t0 => Sys2Proof.Machine.execBfi m t1 t0 s
  | .lea m t1 t0 => Sys2Proof.Machine.execLea m t1 t0 s
  | .absdiff m t1 t0 => Sys2Proof.Machine.execAbsdiff m t1 t0 s
  | .setpEq m t1 t0 => Sys2Proof.Machine.execSetpEq m t1 t0 s
  | .setpNe m t1 t0 => Sys2Proof.Machine.execSetpNe m t1 t0 s
  | .setpLt m t1 t0 => Sys2Proof.Machine.execSetpLt m t1 t0 s
  | .setpLe m t1 t0 => Sys2Proof.Machine.execSetpLe m t1 t0 s
  | .setpGt m t1 t0 => Sys2Proof.Machine.execSetpGt m t1 t0 s
  | .setpGe m t1 t0 => Sys2Proof.Machine.execSetpGe m t1 t0 s
  | .pand t1 t0 => Sys2Proof.Machine.execPand t1 t0 s
  | .por t1 t0 => Sys2Proof.Machine.execPor t1 t0 s
  | .pxor t1 t0 => Sys2Proof.Machine.execPxor t1 t0 s
  | .pnot t1 t0 => Sys2Proof.Machine.execPnot t1 t0 s
  | .andi imm t0 => Sys2Proof.Machine.execAndi imm t0 s
  | .shli imm t0 => Sys2Proof.Machine.execShli imm t0 s
  | .shri imm t0 => Sys2Proof.Machine.execShri imm t0 s
  | .muli imm t0 => Sys2Proof.Machine.execMuli imm t0 s
  | .setpiEq imm t0 => Sys2Proof.Machine.execSetpiEq imm t0 s
  | .setpiLt imm t0 => Sys2Proof.Machine.execSetpiLt imm t0 s
  | .fadd m t1 t0 => Sys2Proof.Machine.execFadd m t1 t0 s
  | .fmul m t1 t0 => Sys2Proof.Machine.execFmul m t1 t0 s
  | .ffma m t1 t0 => Sys2Proof.Machine.execFfma m t1 t0 s
  | .fmin m t1 t0 => Sys2Proof.Machine.execFmin m t1 t0 s
  | .fmax m t1 t0 => Sys2Proof.Machine.execFmax m t1 t0 s
  | .fabs m t1 t0 => Sys2Proof.Machine.execFabs m t1 t0 s
  | .fneg m t1 t0 => Sys2Proof.Machine.execFneg m t1 t0 s
  | .fcopysign m t1 t0 => Sys2Proof.Machine.execFcopysign m t1 t0 s
  | .fsetpEq m t1 t0 => Sys2Proof.Machine.execFsetpEq m t1 t0 s
  | .fsetpNe m t1 t0 => Sys2Proof.Machine.execFsetpNe m t1 t0 s
  | .fsetpLt m t1 t0 => Sys2Proof.Machine.execFsetpLt m t1 t0 s
  | .fsetpLe m t1 t0 => Sys2Proof.Machine.execFsetpLe m t1 t0 s
  | .fsetpUn m t1 t0 => Sys2Proof.Machine.execFsetpUn m t1 t0 s
  | .fclass m t1 t0 => Sys2Proof.Machine.execFclass m t1 t0 s
  | .fdiv m t1 t0 => Sys2Proof.Machine.execFdiv m t1 t0 s
  | .fsqrt m t1 t0 => Sys2Proof.Machine.execFsqrt m t1 t0 s
  | .frcp m t1 t0 => Sys2Proof.Machine.execFrcp m t1 t0 s
  | .frsq m t1 t0 => Sys2Proof.Machine.execFrsq m t1 t0 s
  | .fex2 m t1 t0 => Sys2Proof.Machine.execFex2 m t1 t0 s
  | .flg2 m t1 t0 => Sys2Proof.Machine.execFlg2 m t1 t0 s
  | .fsin m t1 t0 => Sys2Proof.Machine.execFsin m t1 t0 s
  | .fcos m t1 t0 => Sys2Proof.Machine.execFcos m t1 t0 s
  | .ftanh m t1 t0 => Sys2Proof.Machine.execFtanh m t1 t0 s
  | .fround m t1 t0 => Sys2Proof.Machine.execFround m t1 t0 s
  | .fdot2 m t1 t0 => Sys2Proof.Machine.execFdot2 m t1 t0 s
  | .cvtF64 m t1 t0 => Sys2Proof.Machine.execCvtF64 m t1 t0 s
  | .cvtF32 m t1 t0 => Sys2Proof.Machine.execCvtF32 m t1 t0 s
  | .cvtF16 m t1 t0 => Sys2Proof.Machine.execCvtF16 m t1 t0 s
  | .cvtBf16 m t1 t0 => Sys2Proof.Machine.execCvtBf16 m t1 t0 s
  | .cvtE4m3 m t1 t0 => Sys2Proof.Machine.execCvtE4m3 m t1 t0 s
  | .cvtE5m2 m t1 t0 => Sys2Proof.Machine.execCvtE5m2 m t1 t0 s
  | .cvtI32 m t1 t0 => Sys2Proof.Machine.execCvtI32 m t1 t0 s
  | .cvtN32 m t1 t0 => Sys2Proof.Machine.execCvtN32 m t1 t0 s
  | .cvtI64 m t1 t0 => Sys2Proof.Machine.execCvtI64 m t1 t0 s
  | .cvtN64 m t1 t0 => Sys2Proof.Machine.execCvtN64 m t1 t0 s
  | .cvtPk m t1 t0 => Sys2Proof.Machine.execCvtPk m t1 t0 s
  | .cvtCh m t1 t0 => Sys2Proof.Machine.execCvtCh m t1 t0 s
  | .ld z t1 t0 => Sys2Proof.Machine.execLd z t1 t0 s
  | .lds z t1 t0 => Sys2Proof.Machine.execLds z t1 t0 s
  | .ldAcq z p t1 t0 => Sys2Proof.Machine.execLdAcq z p t1 t0 s
  | .ldd z t1 t0 => Sys2Proof.Machine.execLdd z t1 t0 s
  | .ldnc z t1 t0 => Sys2Proof.Machine.execLdnc z t1 t0 s
  | .st z t1 => Sys2Proof.Machine.execSt z t1 s
  | .stRel z p t1 => Sys2Proof.Machine.execStRel z p t1 s
  | .stnc z t1 => Sys2Proof.Machine.execStnc z t1 s
  | .prefetch l2 t1 => Sys2Proof.Machine.execPrefetch l2 t1 s
  | .fence k p t1 => Sys2Proof.Machine.execFence k p t1 s
  | .fenceEng t1 => Sys2Proof.Machine.execFenceEng t1 s
  | .cinv t1 => Sys2Proof.Machine.execCinv t1 s
  | .cwb t1 => Sys2Proof.Machine.execCwb t1 s
  | .probe t1 t0 => Sys2Proof.Machine.execProbe t1 t0 s
  | .aadd z t1 t0 => Sys2Proof.Machine.execAadd z t1 t0 s
  | .aaddAr z p t1 t0 => Sys2Proof.Machine.execAaddAr z p t1 t0 s
  | .amin z t1 t0 => Sys2Proof.Machine.execAmin z t1 t0 s
  | .aminAr z p t1 t0 => Sys2Proof.Machine.execAminAr z p t1 t0 s
  | .amax z t1 t0 => Sys2Proof.Machine.execAmax z t1 t0 s
  | .amaxAr z p t1 t0 => Sys2Proof.Machine.execAmaxAr z p t1 t0 s
  | .aminn z t1 t0 => Sys2Proof.Machine.execAminn z t1 t0 s
  | .amaxn z t1 t0 => Sys2Proof.Machine.execAmaxn z t1 t0 s
  | .aand z t1 t0 => Sys2Proof.Machine.execAand z t1 t0 s
  | .aandAr z p t1 t0 => Sys2Proof.Machine.execAandAr z p t1 t0 s
  | .aor z t1 t0 => Sys2Proof.Machine.execAor z t1 t0 s
  | .aorAr z p t1 t0 => Sys2Proof.Machine.execAorAr z p t1 t0 s
  | .axor z t1 t0 => Sys2Proof.Machine.execAxor z t1 t0 s
  | .axorAr z p t1 t0 => Sys2Proof.Machine.execAxorAr z p t1 t0 s
  | .axchg z t1 t0 => Sys2Proof.Machine.execAxchg z t1 t0 s
  | .axchgAr z p t1 t0 => Sys2Proof.Machine.execAxchgAr z p t1 t0 s
  | .acas z t1 t0 => Sys2Proof.Machine.execAcas z t1 t0 s
  | .acasAr z p t1 t0 => Sys2Proof.Machine.execAcasAr z p t1 t0 s
  | .ainc z t1 t0 => Sys2Proof.Machine.execAinc z t1 t0 s
  | .adec z t1 t0 => Sys2Proof.Machine.execAdec z t1 t0 s
  | .aaddb z t1 t0 => Sys2Proof.Machine.execAaddb z t1 t0 s
  | .aaddbAr z p t1 t0 => Sys2Proof.Machine.execAaddbAr z p t1 t0 s
  | .afadd z t1 t0 => Sys2Proof.Machine.execAfadd z t1 t0 s
  | .afadd2 z t1 t0 => Sys2Proof.Machine.execAfadd2 z t1 t0 s
  | .afmin z t1 t0 => Sys2Proof.Machine.execAfmin z t1 t0 s
  | .afmax z t1 t0 => Sys2Proof.Machine.execAfmax z t1 t0 s
  | .aredAdd z t1 => Sys2Proof.Machine.execAredAdd z t1 s
  | .aredFadd z t1 => Sys2Proof.Machine.execAredFadd z t1 s
  | .aredMin z t1 => Sys2Proof.Machine.execAredMin z t1 s
  | .aredMax z t1 => Sys2Proof.Machine.execAredMax z t1 s
  | .aredOr z t1 => Sys2Proof.Machine.execAredOr z t1 s
  | .aredAnd z t1 => Sys2Proof.Machine.execAredAnd z t1 s
  | .barWait num off => Sys2Proof.Machine.execBarWait num off s
  | .barArrive b t1 => Sys2Proof.Machine.execBarArrive b t1 s
  | .barDrop b t1 => Sys2Proof.Machine.execBarDrop b t1 s
  | .barInit b t1 t0 => Sys2Proof.Machine.execBarInit b t1 t0 s
  | .stgExpect arr stg t1 => Sys2Proof.Machine.execStgExpect arr stg t1 s
  | .stgWait num off => Sys2Proof.Machine.execStgWait num off s
  | .waitp num off => Sys2Proof.Machine.execWaitp num off s
  | .ropeWait off => Sys2Proof.Machine.execRopeWait off s
  | .cpy ch t1 t0 => Sys2Proof.Machine.execCpy ch t1 t0 s
  | .cpyColl ch t1 t0 => Sys2Proof.Machine.execCpyColl ch t1 t0 s
  | .cwptr acq ch t1 t0 => Sys2Proof.Machine.execCwptr acq ch t1 t0 s
  | .cchan ch t1 t0 => Sys2Proof.Machine.execCchan ch t1 t0 s
  | .mma t1 => Sys2Proof.Machine.execMma t1 s
  | .maccLd f t1 => Sys2Proof.Machine.execMaccLd f t1 s
  | .maccSt f t1 => Sys2Proof.Machine.execMaccSt f t1 s
  | .mgang t1 t0 => Sys2Proof.Machine.execMgang t1 t0 s
  | .mchan t1 t0 => Sys2Proof.Machine.execMchan t1 t0 s
  | .twin t1 => Sys2Proof.Machine.execTwin t1 s
  | .tload f t1 => Sys2Proof.Machine.execTload f t1 s
  | .tlaunch f t1 => Sys2Proof.Machine.execTlaunch f t1 s
  | .tcap t1 => Sys2Proof.Machine.execTcap t1 s
  | .trst t1 => Sys2Proof.Machine.execTrst t1 s
  | .tcode t1 t0 => Sys2Proof.Machine.execTcode t1 t0 s
  | .tval t1 t0 => Sys2Proof.Machine.execTval t1 t0 s
  | .abegin off => Sys2Proof.Machine.execAbegin off s
  | .acommit off => Sys2Proof.Machine.execAcommit off s
  | .aabort t1 => Sys2Proof.Machine.execAabort t1 s
  | .astat t1 t0 => Sys2Proof.Machine.execAstat t1 t0 s
  | .apin t1 t0 => Sys2Proof.Machine.execApin t1 t0 s
  | .hspawn t1 t0 => Sys2Proof.Machine.execHspawn t1 t0 s
  | .hgainAdd t1 t0 => Sys2Proof.Machine.execHgainAdd t1 t0 s
  | .hgainMax t1 t0 => Sys2Proof.Machine.execHgainMax t1 t0 s
  | .hgainSet t1 t0 => Sys2Proof.Machine.execHgainSet t1 t0 s
  | .hdep t1 t0 => Sys2Proof.Machine.execHdep t1 t0 s
  | .hdone => Sys2Proof.Machine.execHdone s
  | .hresid t1 t0 => Sys2Proof.Machine.execHresid t1 t0 s
  | .hself t1 t0 => Sys2Proof.Machine.execHself t1 t0 s
  | .trap code => Sys2Proof.Machine.execTrap code s
  | .brk code => Sys2Proof.Machine.execBrk code s
  | .eret f => Sys2Proof.Machine.execEret f s
  | .sysrd slot t1 t0 => Sys2Proof.Machine.execSysrd slot t1 t0 s
  | .syswr slot t1 => Sys2Proof.Machine.execSyswr slot t1 s
  | .cfginv t1 => Sys2Proof.Machine.execCfginv t1 s
  | .cairn code t0 => Sys2Proof.Machine.execCairn code t0 s
  | .tsc t1 t0 => Sys2Proof.Machine.execTsc t1 t0 s
  | .nop => Sys2Proof.Machine.execNop s
  | .halt => Sys2Proof.Machine.execHalt s
  | .takeRecord => Sys2Proof.Machine.execTakeRecord s
  | .launchStart => Sys2Proof.Machine.execLaunchStart s
  | .queueEnable => Sys2Proof.Machine.execQueueEnable s
  | .queueDisable => Sys2Proof.Machine.execQueueDisable s
  | .placeUnit => Sys2Proof.Machine.execPlaceUnit s
  | .timeSliceExpiry => Sys2Proof.Machine.execTimeSliceExpiry s
  | .migrateGroup => Sys2Proof.Machine.execMigrateGroup s
  | .dieModeChangeDone => Sys2Proof.Machine.execDieModeChangeDone s
  | .binHeaderReturn => Sys2Proof.Machine.execBinHeaderReturn s
  | .configStart => Sys2Proof.Machine.execConfigStart s
  | .configComplete => Sys2Proof.Machine.execConfigComplete s
  | .admitThread => Sys2Proof.Machine.execAdmitThread s
  | .forcedClosure => Sys2Proof.Machine.execForcedClosure s
  | .binSeal => Sys2Proof.Machine.execBinSeal s
  | .quiescenceSet => Sys2Proof.Machine.execQuiescenceSet s
  | .walkComplete => Sys2Proof.Machine.execWalkComplete s
  | .squashedEnd => Sys2Proof.Machine.execSquashedEnd s
  | .loadReturn => Sys2Proof.Machine.execLoadReturn s
  | .deferredFill => Sys2Proof.Machine.execDeferredFill s
  | .sfuReturn => Sys2Proof.Machine.execSfuReturn s
  | .atomicTilePerform => Sys2Proof.Machine.execAtomicTilePerform s
  | .atomicReturn => Sys2Proof.Machine.execAtomicReturn s
  | .eretRecordReturn => Sys2Proof.Machine.execEretRecordReturn s
  | .blockCommit => Sys2Proof.Machine.execBlockCommit s
  | .liveWritePerform => Sys2Proof.Machine.execLiveWritePerform s
  | .storeSend => Sys2Proof.Machine.execStoreSend s
  | .storeAcknowledge => Sys2Proof.Machine.execStoreAcknowledge s
  | .threadRetire => Sys2Proof.Machine.execThreadRetire s
  | .groupRetire => Sys2Proof.Machine.execGroupRetire s
  | .gridRetire => Sys2Proof.Machine.execGridRetire s
  | .barrierTimeout => Sys2Proof.Machine.execBarrierTimeout s
  | .ropePhaseComplete => Sys2Proof.Machine.execRopePhaseComplete s
  | .channelWaitTimeout => Sys2Proof.Machine.execChannelWaitTimeout s
  | .enginePortAccept => Sys2Proof.Machine.execEnginePortAccept s
  | .copyRunIssue => Sys2Proof.Machine.execCopyRunIssue s
  | .copyRunPerformed => Sys2Proof.Machine.execCopyRunPerformed s
  | .matrixStep => Sys2Proof.Machine.execMatrixStep s
  | .mmaComplete => Sys2Proof.Machine.execMmaComplete s
  | .maccComplete => Sys2Proof.Machine.execMaccComplete s
  | .gangRoundComplete => Sys2Proof.Machine.execGangRoundComplete s
  | .latchTimeout => Sys2Proof.Machine.execLatchTimeout s
  | .temporalCommandStart => Sys2Proof.Machine.execTemporalCommandStart s
  | .temporalCommandComplete => Sys2Proof.Machine.execTemporalCommandComplete s
  | .tlaunchAttemptEnd => Sys2Proof.Machine.execTlaunchAttemptEnd s
  | .tickReplan => Sys2Proof.Machine.execTickReplan s
  | .temporalArrayReset => Sys2Proof.Machine.execTemporalArrayReset s
  | .commitEngineStart => Sys2Proof.Machine.execCommitEngineStart s
  | .lineLockGranted => Sys2Proof.Machine.execLineLockGranted s
  | .serialTokenGrant => Sys2Proof.Machine.execSerialTokenGrant s
  | .heapOperationApply => Sys2Proof.Machine.execHeapOperationApply s
  | .heapReply => Sys2Proof.Machine.execHeapReply s
  | .heapPop => Sys2Proof.Machine.execHeapPop s
  | .taskThreadCreate => Sys2Proof.Machine.execTaskThreadCreate s
  | .heapLend => Sys2Proof.Machine.execHeapLend s
  | .residInclusion => Sys2Proof.Machine.execResidInclusion s
  | .heapTolEffect => Sys2Proof.Machine.execHeapTolEffect s
  | .settlePopStop => Sys2Proof.Machine.execSettlePopStop s
  | .heapDrain => Sys2Proof.Machine.execHeapDrain s
  | .drainComplete => Sys2Proof.Machine.execDrainComplete s
  | .faultRecordPerformed => Sys2Proof.Machine.execFaultRecordPerformed s
  | .replayCommand => Sys2Proof.Machine.execReplayCommand s
  | .nextCommand => Sys2Proof.Machine.execNextCommand s
  | .killCommand => Sys2Proof.Machine.execKillCommand s
  | .resumeCommand => Sys2Proof.Machine.execResumeCommand s
  | .tlbInvalidate => Sys2Proof.Machine.execTlbInvalidate s
  | .tlbInvalidateDone => Sys2Proof.Machine.execTlbInvalidateDone s
  | .saveStart => Sys2Proof.Machine.execSaveStart s
  | .scratchSavePass => Sys2Proof.Machine.execScratchSavePass s
  | .saveComplete => Sys2Proof.Machine.execSaveComplete s
  | .groupRestore => Sys2Proof.Machine.execGroupRestore s
  | .preemptLimitExpiry => Sys2Proof.Machine.execPreemptLimitExpiry s
  | .groupDiscard => Sys2Proof.Machine.execGroupDiscard s
  | .debugHalt => Sys2Proof.Machine.execDebugHalt s
  | .cfginvPerform => Sys2Proof.Machine.execCfginvPerform s
  | .directoryTransaction => Sys2Proof.Machine.execDirectoryTransaction s
  | .probeAnswer => Sys2Proof.Machine.execProbeAnswer s
  | .granuleFlush => Sys2Proof.Machine.execGranuleFlush s
  | .granuleReclassify => Sys2Proof.Machine.execGranuleReclassify s
  | .hostSnoop => Sys2Proof.Machine.execHostSnoop s
  | .linkFail => Sys2Proof.Machine.execLinkFail s
  | .peerTimeout => Sys2Proof.Machine.execPeerTimeout s
  | .heartbeatMiss => Sys2Proof.Machine.execHeartbeatMiss s
  | .agentDead => Sys2Proof.Machine.execAgentDead s
  | .lateMessage => Sys2Proof.Machine.execLateMessage s
  | .ioDieFailover => Sys2Proof.Machine.execIoDieFailover s
  | .moduleReset => Sys2Proof.Machine.execModuleReset s
  | .bringUp => Sys2Proof.Machine.execBringUp s
  | .traceAccept => Sys2Proof.Machine.execTraceAccept s
  | .samplerWrite => Sys2Proof.Machine.execSamplerWrite s
  | .sampleTake => Sys2Proof.Machine.execSampleTake s
  | .energyUpdate => Sys2Proof.Machine.execEnergyUpdate s
  | .voltageReplan => Sys2Proof.Machine.execVoltageReplan s
  | .thermalHoldStart => Sys2Proof.Machine.execThermalHoldStart s
  | .thermalHoldEnd => Sys2Proof.Machine.execThermalHoldEnd s
  | .thermalShutdown => Sys2Proof.Machine.execThermalShutdown s
  | .tscCorrection => Sys2Proof.Machine.execTscCorrection s
  | .attestationQuote => Sys2Proof.Machine.execAttestationQuote s
  | .counterClear => Sys2Proof.Machine.execCounterClear s
  | .mgmtRegisterWrite => Sys2Proof.Machine.execMgmtRegisterWrite s
  | .pipelinedOperationEmit => Sys2Proof.Machine.execPipelinedOperationEmit s
  | .dieTlbHit => Sys2Proof.Machine.execDieTlbHit s
  | .completionTimeout => Sys2Proof.Machine.execCompletionTimeout s
  | .agentBroughtBackUp => Sys2Proof.Machine.execAgentBroughtBackUp s

end Sys2Proof.Machine
end

