-- ==== Sys2Proof/Machine/Outside.lean ====
section
/-! DEFINITION. Acts of the outside world that have no row of the opcode table: accesses of hosts and of peers to the module's memory
(R388, R431), soft errors and bit flips (R146, R449, R450), and the retries of links (R439). -/

namespace Sys2Proof.Machine

/-! Accesses of hosts and peers (R431) -/

/-- R431: the bytes of an access that are one event: naturally aligned, and at most 16. -/
def eventLen (pa n : Nat) : Nat := ([16, 8, 4, 2].find? fun k => pa % k == 0 && decide (k ≤ n)).getD 1

/-- R431: an access as its events, in ascending address. -/
def OutReq.split : Nat → OutReq → List OutReq
  | 0, _ => []
  | fuel + 1, r =>
    if r.len = 0 then []
    else
      let n := eventLen r.pa r.len
      { r with data := r.data.map fun bs => bs.take n, len := n } ::
        OutReq.split fuel { r with pa := r.pa + n, data := r.data.map fun bs => bs.drop n, len := r.len - n }

/-- The place of an access. -/
def OutReq.seg (r : OutReq) : Seg := ⟨r.pa, r.len, false⟩

/-- R431, R447: the die of an agent's port agent. -/
def OutReq.die (r : OutReq) : Nat := if r.agent = 9 then 9 else 8

/-- R431, R444, R447, R448: may an agent reach memory: a host port, or a peer that is enabled, that is not dead? -/
def State.mayReach (s : State) (a : Nat) : Bool :=
  !s.agentGone a &&
    (if a = 8 then !s.mgmt.standby
     else if a = 9 then !s.mgmt.gone.contains 10
     else decide (16 ≤ a) && (Tbl.get 0 s.mgmt.peers (a - 16)).getLsbD 127)

/-- R214, R431: do the bytes of an access exist for its agent: module memory, and for a host what is not the device's registers? -/
def State.outPlace (s : State) (r : OutReq) : Bool :=
  decide (r.pa + r.len ≤ 2 ^ 52) &&
    match paKind s r.pa with
    | .hbm | .tier2 => true
    | .nothing | .device => false
    | _ => decide (r.agent < 16)

/-- R431: an access of an agent is performed: its bytes are written, or read for it; poison is given as none. -/
def State.outPerform (s : State) (r : OutReq) : State :=
  match r.data with
  | some bs => s.agentStoreNc r.die [r.seg] bs
  | none =>
    let v := if s.segsPoisoned [r.seg] then none else some (s.rdSegs [r.seg])
    { (s.foldAccess r.die false [r.seg]) with
      hostGot := (s.hostGot.filter fun e => !(e.1 == r.agent && e.2.1 == r.pa)) ++ [(r.agent, r.pa, v)] }

/-- R256, R265, R344, R433: the accesses of hosts and peers are performed in their order, each once its lines are free and their
home has granted them, and none before an earlier one to its bytes. The second list holds those that wait. -/
def State.hostDrain (s : State) : List OutReq → List OutReq → State
  | [], wait => { s with hostQ := wait }
  | w :: t, wait =>
    if s.mustWait [w.seg] 0 none || wait.any fun v => segsMeet [v.seg] [w.seg] then s.hostDrain t (wait ++ [w])
    else
      let ob := s.obtainUnit w.die [w.seg] w.data.isSome
      if ob.2 then (ob.1.outPerform w).hostDrain t wait else ob.1.hostDrain t (wait ++ [w])

/-- The waiting accesses of hosts and peers that may be performed now are performed. -/
def State.settleHosts (s : State) : State := s.hostDrain s.hostQ []

/-- R214, R431, R442: a host or a peer accesses bytes at a physical address. (DESIGN CHOICE, log entry 45.) -/
def State.outer (s : State) (r : OutReq) : State :=
  if s.mayReach r.agent && s.outPlace r then { s with hostQ := s.hostQ ++ r.split (r.len + 1) }.settleHosts else s

/-- R214, R442: a host writes bytes at a physical address. (DESIGN CHOICE, log entry 45.) -/
def State.hostStore (s : State) (pa : Nat) (bs : List Byte) : State := s.outer ⟨8, pa, some bs, bs.length⟩

/-- R388, R389: the part of a write of the launch window that lies in queue control blocks: up to so many blocks. -/
def State.blockStores : Nat → Nat → List Byte → State → State
  | 0, _, _, s => s
  | fuel + 1, off, bs, s =>
    if bs.isEmpty || decide (2 ^ 16 ≤ off) then s
    else
      let n := 64 - off % 64
      State.blockStores fuel (off + n) (bs.drop n) (s.blockStore (off / 64) (off % 64) (bs.take n))

/-- R388, R389, R448: a host writes bytes of the launch window: of rings, and of queue control blocks; above them they are discarded,
and all of them where I/O die 8 is dead. (DEDUCED, log entry 39.) (DESIGN CHOICE, log entry 45.) -/
def State.windowStore (s : State) (off : Nat) (bs : List Byte) : State :=
  if s.mgmt.standby then s
  else
    let ring := bs.take (2 ^ 24 - off)
    let s1 := if ring.isEmpty then s else s.wr (winLoc off) ring
    State.blockStores 1025 (off - 2 ^ 24) (bs.drop (2 ^ 24 - off)) s1

/-! Soft errors (R449, R450) -/

/-- R146: the parity of a live slot of a thread goes wrong. (DESIGN CHOICE, log entry 45.) -/
def State.slotParity (s : State) (c sl n : Nat) : State :=
  s.modThread c sl fun t => { t with badParity := t.badParity ||| BitVec.ofNat 64 (2 ^ n) }

/-- R449, R450: a soft error at a location of a die's stores: it is corrected, or the line that holds the location is poisoned
(DEDUCED, log entry 53). -/
def State.softError (s : State) (d loc : Nat) (corrected : Bool) : State :=
  if corrected then s.modDie d fun x => { x with errors := { x.errors with corr := min (2 ^ 32 - 1) (x.errors.corr + 1) } }
  else
    let s1 : State := { s with poison := (List.range 128).foldl (fun q i => insertNat (loc / 128 * 128 + i) q) s.poison }
    s1.modDie d fun x => { x with errors := { x.errors with uncorr := min (2 ^ 32 - 1) (x.errors.uncorr + 1) } }

/-- R450: an uncorrectable directory entry is read as DV = all dies, and the lines that it owned are poisoned.
(DEDUCED, log entry 53.) -/
def State.directoryError (s : State) (h line : Nat) : State :=
  let e := s.dirEntry h line
  let owned := ((List.range 4).map (line / 4 * 4 + ·)).filter fun l => (e.owner l).isSome
  let bad := owned.foldl (fun p l => (List.range 128).foldl (fun q i => insertNat (l * 128 + i) q) p) s.poison
  let s1 : State := { s with poison := bad }
  (s1.setDir h line ⟨0, BitVec.allOnes 8⟩).modDie h fun x =>
    { x with errors := { x.errors with uncorr := min (2 ^ 32 - 1) (x.errors.uncorr + 1) } }

/-- R449, R450: an uncorrectable entry of a die's L1 filter: the line that it records is poisoned, and it names every core.
(DEDUCED, log entry 53.) -/
def State.filterError (s : State) (d line : Nat) : State :=
  match Tbl.find? (s.die d).filter line with
  | none => s
  | some _ =>
    let s1 : State := { s with poison := (List.range 128).foldl (fun q i => insertNat (line * 128 + i) q) s.poison }
    s1.modDie d fun x =>
      { x with filter := Tbl.set x.filter line [256], errors := { x.errors with uncorr := min (2 ^ 32 - 1) (x.errors.uncorr + 1) } }

/-- R380, R449, R450: an uncorrectable entry of a die's heap is poisoned, which ends its grid with status 6.
(DEDUCED, log entry 53.) -/
def State.heapError (s : State) (d gn : Nat) : State :=
  if (match (s.grid gn).heap with | some h => h.dies.contains d | none => false) then
    (s.modDie d fun x => { x with errors := { x.errors with uncorr := min (2 ^ 32 - 1) (x.errors.uncorr + 1) } }).endGrid gn 6
  else s

/-- R450: a parity error in an L1: a clean line leaves it, to be fetched again; a dirty one is poisoned. (DEDUCED, log entry 53.) -/
def State.l1Parity (s : State) (c line : Nat) (dirty : Bool) : State :=
  if !(s.core c).l1.contains line then s
  else
    let s1 : State :=
      if dirty then { s with poison := (List.range 128).foldl (fun q i => insertNat (line * 128 + i) q) s.poison } else s
    if s.locks.any fun e => e.1 == line then s1 else s1.evictL1 c line

/-- R450: a bit of a token that has been sent flips, undetected. -/
def State.flipToken (s : State) (c sl port bit : Nat) : State :=
  s.modInst c sl fun x => { x with tokens := Tbl.mapVals (fun k t =>
    if k = port then { t with data := t.data ^^^ BitVec.ofNat 128 (2 ^ bit) } else t) x.tokens }

/-- R450: a bit of the result of a PE flips, undetected: of one that is still to be emitted, or of a live-out write. -/
def State.flipResult (s : State) (c sl idx bit : Nat) (live : Bool) : State :=
  s.modInst c sl fun x =>
    if live then
      match x.liveOut[idx]? with
      | some w => { x with liveOut := replaceAt x.liveOut idx { w with data := w.data ^^^ BitVec.ofNat 64 (2 ^ bit) } }
      | none => x
    else { x with emits := x.emits.map fun e =>
      if e.idx = idx then { e with v0 := { e.v0 with data := e.v0.data ^^^ BitVec.ofNat 128 (2 ^ bit) } } else e }

/-- R450: a bit of an element of a matrix accumulator flips, undetected. -/
def State.flipAcc (s : State) (c acc elem bit : Nat) : State :=
  s.modCore c fun x =>
    match Tbl.find? x.accs acc with
    | some y =>
      let w : Word := Tbl.get 0 y.elems elem ^^^ BitVec.ofNat 32 (2 ^ bit)
      { x with accs := Tbl.set x.accs acc { y with elems := Tbl.set y.elems elem w } }
    | none => x

/-- R450: a run of a channel is performed, and a bit of a byte flips in the copy engine's buffer, undetected. -/
def State.flipCopy (s : State) (c ch n loc bit : Nat) : State :=
  match ((s.core c).channel ch).runs[n]? with
  | none => s
  | some r =>
    let s1 := s.performRun c ch n
    if ((s1.core c).channel ch).runs.length < ((s.core c).channel ch).runs.length ∧ !r.dead ∧ (segLocs r.dst).contains loc then
      s1.wr loc [memRead s1.mem loc ^^^ BitVec.ofNat 8 (2 ^ bit)]
    else s1

/-! Links (R439) -/

/-- R439, R449: a flit of a link of a die is sent again; at its eighth retry the link fails. (DEDUCED, log entry 53.) -/
def State.flitRetry (s : State) (d peer : Nat) : State :=
  let n := Tbl.get 0 (s.die d).retries peer + 1
  let s1 := s.modDie d fun x =>
    { x with errors := { x.errors with retry := min (2 ^ 32 - 1) (x.errors.retry + 1) }, retries := Tbl.set x.retries peer n }
  if n = 8 then { s1 with urgent := s1.urgent ++ [.event .linkFail [d, peer, 0]] } else s1

/-- R439: the flit under way on a link of a die has arrived. -/
def State.flitSent (s : State) (d peer : Nat) : State := s.modDie d fun x => { x with retries := Tbl.erase x.retries peer }

end Sys2Proof.Machine
end

