-- ==== Sys2Proof/Machine/Schedule.lean ====
section
/-! DEFINITION. When an instruction of an instance may fire (R122, R123, R237, R238, R241, R251, R252), the end of a clk, the act of
an event, and the choice of the next event where none is given. -/

namespace Sys2Proof.Machine

/-! Readiness -/

/-- The port's token has arrived. -/
def Inst.portFull (x : Inst) (now k p : Nat) : Bool :=
  match Tbl.find? x.tokens (3 * k + p) with
  | some t => decide (t.arrive ≤ now)
  | none => false

/-- R122: the tokens of the given ports have arrived. -/
def Inst.portsFull (x : Inst) (now k : Nat) (ps : List Nat) : Bool := ps.all (x.portFull now k)

/-- R122, R123: when the last operand of an instruction arrived; a source's is there from the admission. -/
def Inst.lastArrival (x : Inst) (k : Nat) : Nat :=
  [0, 1, 2].foldl (fun m p => match Tbl.find? x.tokens (3 * k + p) with | some t => max m t.arrive | none => m) x.admitted

/-- R238: the immediate-effect instructions whose address is checked before they fire. -/
def opJudgedFirst (op : Nat) : Bool := opIsImmediate op && opHasAddress op

/-- R304, R332: the instructions whose check needs the tokens of every port, the control word on port c among them, which R238 does
not count as an address port. (DEDUCED, log entry 43.) -/
def opCheckNeedsAll (op : Nat) : Bool := [0xd4, 0xd5, 0xd6, 0xda].contains op

/-- R251, R267, R382: the immediate-effect instructions that release. -/
def instrReleases : Instr → Bool
  | .barArrive _ _ | .barDrop _ _ | .stgExpect true _ _ => true
  | .hspawn _ _ | .hgainAdd _ _ | .hgainMax _ _ | .hgainSet _ _ | .hdep _ _ => true
  | .aaddAr _ _ _ _ | .aminAr _ _ _ _ | .amaxAr _ _ _ _ | .aandAr _ _ _ _ | .aorAr _ _ _ _ | .axorAr _ _ _ _
  | .axchgAr _ _ _ _ | .acasAr _ _ _ _ | .aaddbAr _ _ _ _ => true
  | _ => false

/-- R248: the atomics that acquire. -/
def instrAcquires : Instr → Bool
  | .aaddAr _ _ _ _ | .aminAr _ _ _ _ | .amaxAr _ _ _ _ | .aandAr _ _ _ _ | .aorAr _ _ _ _ | .axorAr _ _ _ _
  | .axchgAr _ _ _ _ | .acasAr _ _ _ _ | .aaddbAr _ _ _ _ => true
  | _ => false

/-- R258: no engine command of a thread is under way. -/
def State.threadEnginesDone (s : State) (c sl : Nat) : Bool :=
  let x := s.core c
  (x.port.all fun k => k.slot != sl) && (x.matQ.all fun q => q.slot != sl)
    && (x.temp.queue.all fun q => q.slot != sl)
    && (x.channels.all fun e => (e.2.copies.all fun k => k.slot != sl) && (e.2.runs.all fun r => r.slot != sl))
    && ((s.die (dieOf c)).latch.all fun e => !(e.cmd.core == c && e.cmd.slot == sl))

/-- R235, R251: does a deferred load of the instance, from which a token path leads to an instruction, wait to be performed? -/
def Thread.pathRead (t : Thread) (b : Block) (k : Nat) : Bool :=
  t.deferred.any fun d => !d.committed && d.returned.isNone && b.leads d.idx k

/-- R235, R265: has an atomic below an instruction of the instance still to return? With `acq` only those count that acquire. -/
def Inst.atomicUnder (x : Inst) (b : Block) (k : Nat) (acq : Bool) : Bool :=
  x.reqs.any fun r => r.stage == .sent && decide (r.idx < k) &&
    (!acq || match b.instr? r.idx with | some i => instrAcquires i | none => false)

/-- R235, R252, R258, R337: has the completion point of a fence come? In a region it is the fence's firing. -/
def State.fenceMay (s : State) (c sl : Nat) (x : Inst) (b : Block) (k : Nat) (i : Instr) : Bool :=
  let t := s.thread c sl
  if x.region.isSome then true
  else match i with
    | .fence f p _ => t.fenceMet f p && !t.pathRead b k
    | .fenceEng _ => t.releaseMet && !t.pathRead b k && s.threadEnginesDone c sl
    | _ => true

/-- R228: does a request make an entry of the store buffer? -/
def ReqKind.buffered : ReqKind → Bool
  | .store | .storeRel _ | .storeNc | .cwb | .cinv => true
  | _ => false

/-- R228, R241, R341: is an entry of the store buffer of 32 free, beside those that the instance's requests will take? The entries of
a region are held in its context. -/
def State.bufferMay (s : State) (c sl : Nat) (x : Inst) (op : Nat) : Bool :=
  !([0x85, 0x86, 0x87, 0x8b, 0x8c].contains op) || x.region.isSome
    || decide ((s.thread c sl).buf.length + (x.reqs.filter fun r => r.kind.buffered).length < 32)

/-- R242, R244: an atomic that meets committed entries of its own thread, or a deferred load that comes before it, waits for them.
(DEDUCED, log entry 44.) -/
def State.atomicMay (s : State) (c sl : Nat) (x : Inst) (b : Block) (k : Nat) : Bool :=
  !(decide (0xa0 ≤ b.opAt k) && decide (b.opAt k ≤ 0xbf)) ||
    match x.req? k with
    | some r => (match (s.thread c sl).forward r.segs with | .memory => true | _ => false)
        && !(s.thread c sl).readsFirst b k (match b.instr? k with | some i => instrAcquires i | none => false) r.segs
    | none => true

/-- R237, R238: an immediate-effect instruction whose ports are full may fire. -/
def State.immediateMay (s : State) (c sl : Nat) (x : Inst) (b : Block) (k : Nat) : Bool :=
  (match x.checkAt with | some t => decide (t < s.clk) | none => false)
    && (b.immIdxs.all fun j => decide (k ≤ j) || x.performed.contains j)
    && s.atomicMay c sl x b k
    && !x.atomicUnder b k true
    && (match b.instr? k with
        | some i => !instrReleases i ||
            ((s.thread c sl).releaseMet && !(s.thread c sl).pathRead b k && !x.atomicUnder b k false)
        | none => true)

/-- R238: the address of an instruction that fires later may be checked now. (DEDUCED, log entry 43.) -/
def Inst.mayJudge (x : Inst) (b : Block) (now k : Nat) (ps : List Nat) : Bool :=
  opJudgedFirst (b.opAt k) && x.squash.isNone && !x.judged.contains k && (x.req? k).isNone
    && x.portsFull now k (if opCheckNeedsAll (b.opAt k) then ps else ps.filter (· == 0))

/-- R122, R133, R238, R241, R252: an instruction of an instance may fire, but for the choice of its PE.
(DEDUCED, log entry 43.) -/
def State.mayFire (s : State) (c sl : Nat) (x : Inst) (b : Block) (k : Nat) (ps : List Nat) : Bool :=
  decide (k < b.words.length) && !x.fired.contains k && decide (Tbl.get 0 (s.core c).peNext k ≤ s.clk)
    && x.portsFull s.clk k ps
    && (x.squash.isSome ||
      ((!opIsImmediate (b.opAt k) || s.immediateMay c sl x b k) && s.bufferMay c sl x (b.opAt k)
        && (match b.instr? k with | some i => s.fenceMay c sl x b k i | none => true)))

/-- R123: does another thread's firing of the same PE go first? -/
def State.outranked (s : State) (c sl : Nat) (x : Inst) (k : Nat) : Bool :=
  let y := s.core c
  y.inFlight.any fun (n, z) =>
    n != sl &&
      (let b := (y.context z.ctx).block
       let a := z.lastArrival k
       let m := x.lastArrival k
       (decide (a < m) || (a == m && (decide (z.ctx < x.ctx) || (z.ctx == x.ctx && decide (n < sl)))))
         && s.mayFire c n z b k (targetedOf b.targeted k))

/-- Is the firing of an instruction of a thread's instance, or the check of its address (R238), possible now?
(DEDUCED, log entry 43.) -/
def State.ready (s : State) (c sl k : Nat) : Bool :=
  match (s.thread c sl).inst with
  | none => false
  | some x =>
    let b := ((s.core c).context x.ctx).block
    let ps := targetedOf b.targeted k
    x.mayJudge b s.clk k ps || (s.mayFire c sl x b k ps && !s.outranked c sl x k)

/-- One firing: the configured word of the PE is decoded and has its meaning. Nothing happens where it is not ready.
(DESIGN CHOICE, log entry 46.) -/
def State.fire (s : State) (c sl k : Nat) : Res :=
  if s.ready c sl k then
    match (s.thread c sl).inst with
    | none => .next s
    | some x =>
      let b := ((s.core c).context x.ctx).block
      match b.instr? k with
      | some i => exec i { s with cur := ⟨c, sl, k⟩ }
      | none => .refused .undecodable
  else .next s

/-! The end of a clk -/

/-- R119: a memory port of a core accepts a request that waited for one. In a squashed instance it performs nothing (R133). -/
def State.acceptQueued (s : State) (c sl idx : Nat) : State :=
  match (s.thread c sl).inst with
  | none => s
  | some x =>
    match x.req? idx with
    | none => s
    | some r =>
      let s1 := s.modCore c fun y => y.takeMem s.clk
      if x.squash.isSome then (s.judgedAt c sl idx).finishReq c sl idx r.t1 r.t0 nullTok nullTok
      else match r.kind with
        | .atomic _ _ _ => s1.sendAtomic c sl r
        | _ => (s1.modInst c sl fun y => y.setReq { r with stage := .walking }).judgeReq c sl idx

/-- R119: does a request wait for a memory port? -/
def State.waitsForPort (s : State) (c sl idx : Nat) : Bool :=
  match (s.thread c sl).inst with
  | some x => x.reqs.any fun r => r.idx == idx && r.stage == .queued
  | none => false

/-- R119: in a new clk the four memory ports of each core accept the requests that wait, in the order of their firings. -/
def State.settleMemPorts (s : State) : State :=
  s.cores.foldl (fun s (c, x) =>
    let q := x.memQ.filter fun e => s.waitsForPort c e.1 e.2
    (q.take 4).foldl (fun s e => s.acceptQueued c e.1 e.2) (s.modCore c fun y => { y with memQ := q.drop 4 })) s

/-- R274: every barrier settles what arrived in the clk. -/
def State.settleBars (s : State) : State :=
  s.cores.foldl (fun s (c, x) => x.groups.foldl (fun s (g, gr) =>
    (gr.bars.map (·.1)).foldl (fun s b => s.settleBar c g b) s) s) s

/-- R459: the samples that are due in the clk are taken. -/
def State.takeSamples (s : State) : State := (s.cores.map (·.1)).foldl (fun s c => s.sampleTake c) s

/-- The events of one core whose clk the manual fixes, that are due at a clk. -/
def Core.dueEvents (x : Core) (c now : Nat) : List Choice :=
  (x.inFlight.flatMap fun (sl, i) => (i.emits.filter fun e => e.due == now).map fun e =>
    Choice.event (if e.port then .sfuReturn else .pipelinedOperationEmit) [c, sl, e.idx])
  ++ (match x.fetch with | some f => if f.due = now then [Choice.event .configComplete [c]] else [] | none => [])
  ++ (if x.lvq.all fun e => e.2.isEmpty then [] else [Choice.event .liveWritePerform [c]])

/-- The events of one grid whose clk the manual fixes, that are due at a clk. -/
def Grid.dueEvents (x : Grid) (g now : Nat) : List Choice :=
  (x.ropes.filter fun r => r.2.due == some now).map (fun r => Choice.event .ropePhaseComplete [g, r.1])
  ++ match x.heap with
    | none => []
    | some h =>
      (if h.incl.any fun e => e.1 == now then [Choice.event .residInclusion [g]] else [])
      ++ (if h.effects.any fun e => e.1 == now then [Choice.event .heapTolEffect [g]] else [])
      ++ (match h.settled with
          | some (t, _) => if t + 80 = now then [Choice.event .settlePopStop [g]] else []
          | none => [])

/-- R279-R281, R312, R417: the expiries of a group's timers that are due. -/
def State.timerEvents (s : State) (c g : Nat) (x : Group) : List Choice :=
  let late (t : Nat) : Bool := timedOut x.barTimeout t x.clock
  (if x.counts && x.barTimeout.getLsbD 63 then
    ((x.bars.filter fun e => e.2.brk.isNone && (match e.2.since with | some t => late t | none => false)).map fun e =>
      Choice.event .barrierTimeout [c, g, e.1])
    ++ (match s.ropeSince c g with | some t => if late t then [Choice.event .barrierTimeout [c, g, ropeBit]] else [] | none => [])
    ++ ((x.slots.filter fun sl => (match (s.thread c sl).place with | .channel _ => late (s.thread c sl).waitSince | _ => false)).map
      fun sl => Choice.event .channelWaitTimeout [c, sl])
    ++ (((s.die (dieOf c)).latch.filter fun e => e.cmd.core == c && e.cmd.group == g && late e.arrived).map fun e =>
      Choice.event .latchTimeout [c, e.cmd.slot])
  else [])
  ++ (if s.saveOverdue c g x then [Choice.event .preemptLimitExpiry [c, g]] else [])

/-- R119, R123, R144, R200, R279-R281, R373-R376, R383, R417, R428: the events that are due at the present clk.
(DESIGN CHOICE, log entry 4.) (DESIGN CHOICE, log entry 1.) -/
def State.dueEvents (s : State) : List Choice :=
  (s.cores.flatMap fun (c, x) => x.dueEvents c s.clk ++ x.groups.flatMap fun (g, y) => s.timerEvents c g y)
  ++ (s.grids.flatMap fun (g, x) => x.dueEvents g s.clk)
  ++ (if s.clk % 1000 = 0 then ((List.range Config.dies).filter fun d => decide ((s.die d).energyAt + 1000 ≤ s.clk)).map fun d =>
      Choice.event .energyUpdate [d] else [])
  ++ (s.replies.filter fun r => r.due == s.clk).map (fun r => Choice.event .heapReply [r.core, r.slot, r.idx])
  ++ (s.cfginvs.filter fun e => e.2.2.2.1 == s.clk).map fun e => Choice.event .cfginvPerform [e.1, e.2.1, e.2.2.1]

/-- R41, R279, R422: what the end of a clk does in every core. -/
def State.endClk (s : State) : State := { s with cores := Tbl.mapVals (fun _ x => x.endClk) s.cores }

/-- One clk ends: the accesses of hosts that waited go on, saves that must wait begin, threads are filed, barriers settle, samples are
taken, fetches read on, closures and the writes of group registers take effect; the requests that wait for a memory port reach one,
and what is due in the next clk becomes urgent. (DESIGN CHOICE, log entry 4.) -/
def State.tick (s : State) : State :=
  let s1 : State := s.settleHeaps.settleHosts.settleLatchSaves.settleSaves.settleFilings.settleBars.takeSamples.settleFetches.settleClosures.settleMoving.settleTemporals.settleTraces.endClk
  let s2 : State := { s1 with clk := s1.clk + 1 }.settleMemPorts
  { s2 with urgent := s2.urgent ++ s2.dueEvents }

/-! The next event where none is given -/

/-- The firings of a core that may be possible. -/
def Core.firings (x : Core) (c : Nat) : List Choice :=
  x.inFlight.flatMap fun (sl, i) =>
    ((List.range (x.context i.ctx).block.words.length).filter fun k => !i.fired.contains k).map fun k => .fire c sl k

/-- The events of a thread that may be possible. -/
def Thread.events (t : Thread) (c sl : Nat) : List (Instr × List Nat) :=
  (match t.inst with
   | none => []
   | some x =>
     [(Instr.squashedEnd, [c, sl]), (.eretRecordReturn, [c, sl])]
     ++ (x.reqs.flatMap fun r => [(Instr.loadReturn, [c, sl, r.idx]), (.atomicReturn, [c, sl, r.idx])])
     ++ [(Instr.latchTimeout, [c, sl]), (.blockCommit, [c, sl])])
  ++ ((List.range t.deferred.length).map fun p => (Instr.deferredFill, [c, sl, p]))
  ++ (if t.buf.isEmpty then [] else
      ((List.range t.buf.length).map fun p => (Instr.storeAcknowledge, [c, sl, p])) ++ [(Instr.storeSend, [c, sl])])
  ++ (match t.place with
      | .retiring => [(Instr.threadRetire, [c, sl])]
      | .channel _ => [(Instr.channelWaitTimeout, [c, sl])]
      | .fault => [(Instr.faultRecordPerformed, [c, sl])]
      | _ => [])

/-- The events of a group that may be possible. -/
def Group.events (x : Group) (c g : Nat) : List (Instr × List Nat) :=
  [(Instr.groupRetire, [c, g]), (.preemptLimitExpiry, [c, g]), (.groupDiscard, [c, g]), (.scratchSavePass, [c, g]),
   (.saveComplete, [c, g]), (.groupRestore, [c, g]), (.saveStart, [c, g]), (.timeSliceExpiry, [c, g])]
  ++ ((x.bars.map (·.1)) ++ [ropeBit]).map fun b => (Instr.barrierTimeout, [c, g, b])

/-- The walks that a core's requests wait for. -/
def State.walkEvents (s : State) (c : Nat) : List (Instr × List Nat) :=
  (s.core c).inFlight.flatMap fun (sl, i) => (i.reqs.filter fun r => r.stage == .walking).flatMap fun r =>
    [(Instr.dieTlbHit, [c, s.aspOf c sl, r.needs]), (.walkComplete, [dieOf c, s.aspOf c sl, r.needs])]

/-- The events of a core that may be possible. (DESIGN CHOICE, log entry 4.) -/
def State.coreEvents (s : State) (c : Nat) : List (Instr × List Nat) :=
  let x := s.core c
  (x.threads.flatMap fun (sl, t) => t.events c sl)
  ++ s.walkEvents c
  ++ [(Instr.liveWritePerform, [c]), (.enginePortAccept, [c])]
  ++ (x.channels.flatMap fun (ch, k) =>
      (Instr.copyRunIssue, [c, ch]) :: (List.range k.runs.length).map fun p => (Instr.copyRunPerformed, [c, ch, p]))
  ++ (if x.matQ.isEmpty then [] else
      (Instr.matrixStep, [c]) :: (List.range 4).flatMap fun a => [(Instr.mmaComplete, [c, a]), (.maccComplete, [c, a])])
  ++ (if x.temp.queue.isEmpty then [] else
      [(Instr.temporalCommandStart, [c]), (.tlaunchAttemptEnd, [c, 0]), (.temporalCommandComplete, [c])])
  ++ [(Instr.commitEngineStart, [c]), (.lineLockGranted, [c])]
  ++ (x.groups.flatMap fun (g, y) =>
      y.events c g ++ (if y.moving then ((s.migrateTo c g).map fun d => (Instr.migrateGroup, [c, g, d])).toList else []))
  ++ (ctxNums.map fun k => (Instr.quiescenceSet, [c, k]))
  ++ (x.bins.map fun (b, _) => (Instr.binHeaderReturn, [c, b]))
  ++ [(Instr.configComplete, [c]), (.admitThread, [c]), (.binSeal, [c]), (.forcedClosure, [c]), (.configStart, [c])]

/-- The events of a die that may be possible. -/
def Die.events (x : Die) (d : Nat) : List (Instr × List Nat) :=
  (x.tiles.map fun q => (Instr.atomicTilePerform, [d, q.tile]))
  ++ (x.wanted.map fun g => (Instr.granuleFlush, [g]))
  ++ ((List.range x.heap.creating.length).map fun n => (Instr.taskThreadCreate, [d, n]))
  ++ [(Instr.directoryTransaction, [d]), (.probeAnswer, [d]), (.heapPop, [d]), (.heapOperationApply, [d]),
      (.serialTokenGrant, [d]), (.dieModeChangeDone, [d]), (.traceAccept, [d]), (.energyUpdate, [d])]

/-- The rounds that a die's latch may complete. -/
def Die.rounds (x : Die) (d : Nat) : List (Instr × List Nat) :=
  x.latch.map fun e => (Instr.gangRoundComplete, [d, e.grid, e.rope])

/-- The events of the units of the module that may be possible. -/
def State.unitEvents (s : State) : List (Instr × List Nat) :=
  (s.dies.flatMap fun (d, x) => if d < Config.dies then x.events d ++ x.rounds d else [])
  ++ (s.grids.flatMap fun (g, x) =>
      [(Instr.heapDrain, [g]), (.drainComplete, [g]), (.gridRetire, [g])]
      ++ (x.ropes.map fun r => (Instr.ropePhaseComplete, [g, r.1]))
      ++ [(Instr.residInclusion, [g]), (.heapTolEffect, [g]), (.settlePopStop, [g])])
  ++ (s.replies.map fun r => (Instr.heapReply, [r.core, r.slot, r.idx]))
  ++ (s.cfginvs.map fun e => (Instr.cfginvPerform, [e.1, e.2.1, e.2.2.1]))
  ++ (s.queues.flatMap fun (q, x) => if x.en || !x.taken.isEmpty then [(Instr.takeRecord, [q]), (.launchStart, [q])] else [])
  ++ (if s.grids.isEmpty then [] else [(Instr.placeUnit, [])])
  ++ (if s.mgmt.invPending then [(Instr.tlbInvalidateDone, [])] else [])

/-- Does an event change the state? (DESIGN CHOICE, log entry 4.) (DESIGN CHOICE, log entry 45.) -/
def State.effective (s : State) (e : Instr × List Nat) : Bool :=
  let s1 : State := { s with args := e.2 }
  match exec e.1 s1 with
  | .next s2 => decide (s2 ≠ s1)
  | _ => true

/-- The next event where none is given: a firing that is possible, or the first event that changes the state, or the end of the
clk. (DESIGN CHOICE, log entry 1.) -/
def State.autoChoice (s : State) : Choice :=
  match (s.cores.flatMap fun (c, x) => x.firings c).find? fun k =>
      (match k with | .fire c sl k => s.ready c sl k | _ => false) with
  | some k => k
  | none =>
    match (s.cores.map (·.1)).findSome? (fun c => (s.coreEvents c).find? s.effective) with
    | some e => .event e.1 e.2
    | none =>
      match s.unitEvents.find? s.effective with
      | some e => .event e.1 e.2
      | none => .tick

/-- One event of the machine. A machine step with its arguments acts by its meaning; an instruction acts only where it fires. -/
def State.act (s : State) (k : Choice) : Res :=
  match k with
  | .fire c sl i => s.fire c sl i
  | .event i args => if i.isStep then exec i { s with args := args } else .next s
  | .tick => .next s.tick
  | .hostStore pa bs => .next (s.hostStore pa bs)
  | .windowStore off bs => .next (s.windowStore off bs)
  | .parityError c sl pe => .next (s.parityError c sl pe)
  | .slotParity c sl n => .next (s.slotParity c sl n)
  | .softError d loc corrected => .next (s.softError d loc corrected)
  | .directoryError d line => .next (s.directoryError d line)
  | .flitRetry d peer => .next (s.flitRetry d peer)
  | .flitSent d peer => .next (s.flitSent d peer)
  | .outer r => .next (s.outer r)
  | .filterError d line => .next (s.filterError d line)
  | .heapError d gn => .next (s.heapError d gn)
  | .l1Parity c line dirty => .next (s.l1Parity c line dirty)
  | .flipToken c sl port bit => .next (s.flipToken c sl port bit)
  | .flipResult c sl idx bit live => .next (s.flipResult c sl idx bit live)
  | .flipAcc c acc elem bit => .next (s.flipAcc c acc elem bit)
  | .flipCopy c ch n loc bit => .next (s.flipCopy c ch n loc bit)
  | .peerReport n inc => .next (s.peerReport n inc)
  | .powerCycle => .next s.powerCycle
  | .evictClass d g => .next (s.evictClass d g)
  | .oldByte loc on =>
    .next { s with oldBytes := if on then insertNat loc s.oldBytes else s.oldBytes.filter (· != loc) }
  | .tempUnit c unit => .next (s.tempUnit c unit)
  | .evictL1 c line => .next (if s.locks.any (fun e => e.1 == line) then s else s.evictL1 c line)
  | .evictL2 d line => .next (if s.locks.any (fun e => e.1 == line) then s else s.evictL2 d line)
  | .evictRegion d r =>
    .next (if s.locks.any (fun e => e.1 / 4 == r) || (s.die d).dirQ.any (fun q => q.begun && q.line / 4 == r) then s
      else s.evictRegion d r)
  | .evictFilter d line => .next (if s.locks.any (fun e => e.1 == line) then s else s.evictFilter d line)

/-- The event that the machine takes next, and the state without it in its lists. (DESIGN CHOICE, log entry 1.) -/
def State.nextChoice (s : State) : Choice × State :=
  match s.urgent with
  | k :: ks => (k, { s with urgent := ks })
  | [] =>
    match s.agenda with
    | k :: ks => (k, { s with agenda := ks })
    | [] => (s.autoChoice, s)

/-- What one step of the module does, while it is up. (DESIGN CHOICE, log entry 1.) -/
def State.stepOnce (s : State) : Res := s.nextChoice.2.act s.nextChoice.1

/-! A state that runs one given word -/

/-- A block of one word. (DESIGN CHOICE, log entry 5.) -/
def oneWordBlock (w : Word) : Block := ⟨0, 0, 0, [w], []⟩

/-- A token at each port that an instruction requires, of value 0, and at each other port that the block targets, of value 1.
(DESIGN CHOICE, log entry 5.) -/
def placedTokens (i : Instr) (targeted : List Nat) : Tbl Token :=
  let tok (p : Nat) : PortUse → Tbl Token
    | .req true => [(p, pairTok 0)]
    | .req false => [(p, dword 0)]
    | _ => if targeted.contains p then [(p, dword 1)] else []
  tok 0 (portsOf i).1 ++ tok 1 (portsOf i).2.1 ++ tok 2 (portsOf i).2.2

/-- An instance of a one-word block at a clk: its check point lies in the clk before, but where an address has still to be
checked. (DESIGN CHOICE, log entry 5.) -/
def oneWordInst (w : Word) (now : Nat) : Inst :=
  let b := oneWordBlock w
  { ctx := 0, blk := 0, ft := b.ft, n := 1, admitted := now - 1, tsc := 0, fp := 0, astat := 0, sys := [], priv := false,
    asp := 0, region := none, ar := false,
    tokens := match b.instr? 0 with | some i => placedTokens i b.targeted | none => [],
    fpNext := none, fired := [], count := 0, fullAt := none, liveOut := [], reqs := [], emits := [], judged := [], performed := [],
    checkAt := if b.addrIdxs.isEmpty then some (now - 1) else none, term := .undecided, squash := none, faults := [],
    watch := none, atomicWrites := [], regionCause := none, firedNow := none }

/-- The thread of slot 0 of core 0 is in flight in a one-word block in context 0, and its firing comes next.
(DESIGN CHOICE, log entry 5.) -/
def State.placeWord (s : State) (w : Word) : State :=
  let t : Thread := { Thread.reset with place := .inFlight, inst := some (oneWordInst w (s.clk + 1)) }
  let k : Context := { Context.reset with state := .opened, block := oneWordBlock w, quiet := false }
  let s1 := s.modCore 0 fun x => { x with threads := [(0, t)], contexts := [(0, k)], peNext := [] }
  { s1 with clk := s1.clk + 1, urgent := .fire 0 0 0 :: s1.urgent }

end Sys2Proof.Machine
end

