-- ==== Sys2Proof/Machine/Step.lean ====
section
/-! DEFINITION. One step of the module, and the placing of an instruction where the next step runs it. -/

namespace Sys2Proof.Machine

/-- One step: one event of the module. A module that is shut down (R468) does nothing. (DESIGN CHOICE, log entry 1.)
(DEDUCED, log entry 37.) -/
def step (s : State) : Host.Outcome State Fault Refusal :=
  if s.mgmt.down then .fault .moduleDown else s.stepOnce

/-- The state in which the very next step runs one instruction word: a thread in flight in a configured block of that word,
with tokens on its ports. It stands for the launch, the placement, the configuration and the admission that precede.
(DESIGN CHOICE, log entry 5.) -/
def State.withFetchWord (s : State) (nbits w : Nat) : State :=
  s.placeWord (BitVec.ofNat 32 (w % 2 ^ min nbits 32))

end Sys2Proof.Machine
end

