-- ==== Sys2Proof/Safety.lean ====
section
/-! DEFINITION. The terms in which claims about the model are made: what a safe run keeps true of the state, when an
instruction fires in a live instance with its operands there, and what a firing may change. -/

namespace Sys2Proof.Machine

/-! Safe states -/

/-- What every safe run keeps: memory is in its canonical form, so that equal memories are equal data. -/
def State.Safe (s : State) : Prop := Memory.wf s.mem = true

/-! A firing in progress -/

/-- R121, R133: the focus stands on an instruction of an instance in flight that is not squashed. -/
def State.live (s : State) (x : Inst) : Prop := s.curInst? = some x ∧ x.squash = none

/-- R120, R122: a token that is not null has arrived at a port of the firing. -/
def State.has (s : State) (p : PortSel) (v : Token) : Prop := s.opTok? p = some v ∧ v.null = false

/-- R158: the operand on port b: under the zero flag a null token counts as the value 0. -/
def State.hasB (s : State) (z : Bool) (v : Token) : Prop := zeroB z (s.opTok .b) = v ∧ v.null = false

/-! What a firing changes (R122, R123, R129, R339, R340, R458) -/

/-- A region without what a firing may change of it: the pins of its inputs and its constraints. -/
def Region.bare (r : Region) : Region := { r with inputs := [], constraints := [] }

/-- Two tables of regions that differ in nothing but pins and constraints. -/
def sameRegions (a b : Tbl Region) : Prop := ∀ k, (Tbl.find? b k).map Region.bare = (Tbl.find? a k).map Region.bare

/-- A firing leaves everything of the module as it was, memory included, but these parts of the one core: the PE is taken for
`busy` clk, the time-loss account is charged, the inputs that tagged operands carry may be pinned (and a constraint
recorded) in the instance's region, if it has one, and the instance of the thread becomes `y`. -/
def Fired (s t : State) (busy : Nat) (y : Inst) : Prop :=
  let c := s.cur.core
  let k := s.core c
  ∃ ex lf rg, sameRegions k.regions rg ∧ (∀ x, s.curInst? = some x → x.region = none → rg = k.regions) ∧
    t = s.setCore c
      { k with
        peNext := Tbl.set k.peNext s.cur.idx (s.clk + busy)
        excess := ex
        lastFire := lf
        regions := rg
        threads := Tbl.set k.threads s.cur.slot { s.curThread with inst := some y } }

/-- A firing that spends its tokens and emits `v1` on T1 and `v0` on T0 after `lat` clk. -/
def Emitted (s t : State) (busy lat : Nat) (t1 t0 : Target) (v1 v0 : Token) : Prop :=
  ∃ x, s.curInst? = some x ∧
    Fired s t busy ((x.consume s.clk s.cur.idx).produce s.clk s.cur.idx lat t1 t0 v1 v0)

/-- An instance whose terminator has decided, and has completed in the clk of its firing (R113, R131). -/
def Decided (s t : State) (d : Term) : Prop :=
  ∃ x, s.curInst? = some x ∧ Fired s t 1 { (x.consume s.clk s.cur.idx).complete s.clk with term := d }

/-! The results of a computing instruction -/

/-- The instruction completes: it answers a next state in which the firing is spent and one value with the property `P` goes
to both targets after `lat` clk. -/
def State.Yields (s : State) (i : Instr) (busy lat : Nat) (t1 t0 : Target) (P : Token → Prop) : Prop :=
  ∃ t v, exec i s = .next t ∧ Emitted s t busy lat t1 t0 v v ∧ P v

/-- R157, R158: a dword token whose lanes are the exact results `f k`, clamped under `sat` and reduced to the lane width. -/
def IsLanes (ty : IntTy) (sat : Bool) (f : Nat → Int) (v : Token) : Prop :=
  v.null = false ∧ v.pair = false ∧ v.nat = packLanes ty fun k => saturate sat ty (f k)

/-- R156: lane `k` of a token as a number. -/
def Token.lane (v : Token) (ty : IntTy) (k : Nat) : Int := laneVal ty v.nat k
/-- R156: the w-bit pattern of lane `k` of a token. -/
def Token.pat (v : Token) (ty : IntTy) (k : Nat) : Nat := lanePat ty v.nat k
/-- R158: lane `k` of a token after the flag that inverts it. -/
def Token.laneInv (v : Token) (inv : Bool) (ty : IntTy) (k : Nat) : Int := laneVal ty (invertB inv v.nat) k
/-- R158: the pattern of lane `k` of a token after the flag that inverts it. -/
def Token.patInv (v : Token) (inv : Bool) (ty : IntTy) (k : Nat) : Nat := lanePat ty (invertB inv v.nat) k

/-- R156, R157: a dword token that is the packing of its own lanes: nothing but their extension stands above them. -/
def IsPacked (ty : IntTy) (v : Token) : Prop := IsLanes ty false (fun k => v.pat ty k) v

/-- R68: a predicate token of a truth value. -/
def IsPred (b : Prop) (v : Token) : Prop := v.null = false ∧ v.pair = false ∧ ((b ∧ v.nat = 1) ∨ (¬ b ∧ v.nat = 0))

/-- A dword token with a value. -/
def IsDword (n : Nat) (v : Token) : Prop := v.null = false ∧ v.pair = false ∧ v.nat = n

/-- The instruction completes: it answers a next state in which the firing is spent and the tokens `v1` and `v0` go to T1 and
T0 after `lat` clk. -/
def State.Sends (s : State) (i : Instr) (busy lat : Nat) (t1 t0 : Target) (v1 v0 : Token) : Prop :=
  ∃ t, exec i s = .next t ∧ Emitted s t busy lat t1 t0 v1 v0

/-- The terminator completes: it answers a next state in which the instance has the decision `d`. -/
def State.Decides (s : State) (i : Instr) (d : Term) : Prop := ∃ t, exec i s = .next t ∧ Decided s t d

/-- R119, R200: as `State.Yields`, where the emission is a request on a special-function port: of the core's two ports the one
that is free first accepts it as soon as it is free, is held for `hold` clk, and returns the value by SFU_RETURN `lat` clk
after it accepted the request. -/
def State.YieldsByPort (s : State) (i : Instr) (busy lat hold : Nat) (t1 t0 : Target) (P : Token → Prop) : Prop :=
  let c := s.cur.core
  let k := s.core c
  let wait := k.sfuWait s.clk
  ∃ t u v x, exec i s = .next t ∧ s.curInst? = some x ∧ P v ∧
    (let y := (x.consume s.clk s.cur.idx).produce s.clk s.cur.idx lat t1 t0 v v
     Fired s u busy { y with emits := y.emits.map fun e =>
       if e.idx = s.cur.idx then { e with port := true, due := e.due + wait } else e }) ∧
    t = u.modCore c fun z => { z with sfuFree := replaceAt k.sfuFree k.sfuPort.1 (s.clk + wait + hold) }

/-- R176: a dword token of floating-point lanes, with zeros above them. -/
def IsFp (ty : FpTy) (f : Nat → Nat) (v : Token) : Prop :=
  v.null = false ∧ v.pair = false ∧ v.nat < 2 ^ ((fpFmt ty).width * fpLanes ty) ∧ ∀ k, k < fpLanes ty → fpLane ty v.nat k = f k

/-- A dword token with exactly this content. -/
def IsTok (pair : Bool) (n : Nat) (v : Token) : Prop := v.null = false ∧ v.pair = pair ∧ v.nat = n

/-- R237: an instruction of immediate effect that is performed in the clk of its firing: `f` says what it does to the state (in
which inputs may have been pinned), its tokens leave in that clk, and it counts as performed. -/
def State.Performs (s : State) (i : Instr) (t1 t0 : Target) (v1 v0 : Token) (f : State → State) : Prop :=
  let c := s.cur.core
  ∃ t rg x, exec i s = .next t ∧ sameRegions (s.core c).regions rg ∧
    (∀ z, s.curInst? = some z → z.region = none → rg = (s.core c).regions) ∧
    (let u := f (s.setCore c { s.core c with regions := rg })
     u.curInst? = some x ∧
       Fired u t 1 (((x.consume s.clk s.cur.idx).produce s.clk s.cur.idx 0 t1 t0 v1 v0).perform s.cur.idx))

/-- R119, R225, R411: the memory request that a firing makes of its core's four memory ports: with one free the request stands
to be translated, and is judged at once; else it waits behind the others. A read that a watchpoint matches is noted when it
fires. -/
def State.Requests (s : State) (i : Instr) (r : Req) : Prop :=
  let c := s.cur.core
  let sl := s.cur.slot
  let free := (s.core c).memQ = [] ∧ (s.core c).memTaken s.clk < 4
  ∃ t w x, exec i s = .next t ∧ s.curInst? = some x ∧ Fired s w 1 (x.consume s.clk s.cur.idx) ∧
    (let put (stage : ReqStage) : State :=
       w.modInst c sl fun y => ({ y with reqs := y.reqs ++ [{ r with stage := stage }] }).addWatch (w.readWatch c sl r)
     (free → t = ((put .walking).modCore c fun k => { k with memAt := s.clk, memUsed := k.memTaken s.clk + 1 }).judgeReq c sl r.idx) ∧
     (¬ free → t = (put .queued).modCore c fun k => { k with memQ := k.memQ ++ [(sl, r.idx)] }))

/-- R238: an instance whose address port `k` has been judged; with its last address port it reaches its check point. -/
def Inst.passes (x : Inst) (b : Block) (now k : Nat) : Inst :=
  let j := insertNat k x.judged
  { x with judged := j, checkAt := if x.checkAt = none ∧ b.addrIdxs.all j.contains then some now else x.checkAt }

/-- R131: an instance in which a request is spent: its tokens leave now, to arrive from the next clk on, and it has completed. -/
def Inst.spends (x : Inst) (now : Nat) (r : Req) (v1 v0 : Token) : Inst :=
  let y := { x with reqs := x.reqs.filter fun q => q.idx != r.idx }
  let z := (y.deliver (now + 1) r.idx r.t0 v0).deliver (now + 1) r.idx r.t1 v1
  { z with count := z.count + 1, fullAt := some (max (z.fullAt.getD 0) (now + 1)) }

/-- R119, R189: the firing, which takes its PE for `busy` clk, reaches the engine port with a command: behind others it waits;
alone it is accepted at once when its unit admits it, and waits otherwise. `f` is what the firing changes of its instance
besides spending its tokens. -/
def State.ReachesFor (s : State) (busy : Nat) (i : Instr) (f : Inst → Inst) (op : EngOp) (t1 t0 : Target) : Prop :=
  let c := s.cur.core
  let k : EngCmd := ⟨s.cur.slot, s.cur.idx, op, t0, t1⟩
  ∃ t w x, exec i s = .next t ∧ s.curInst? = some x ∧ Fired s w busy ((f x).consume s.clk s.cur.idx) ∧
    (let q := w.modCore c fun y => { y with port := y.port ++ [k] }
     ((s.core c).port ≠ [] → t = q) ∧
     ((s.core c).port = [] → (q.admits c k = true → t = w.acceptCmd c k) ∧ (q.admits c k = false → t = q)))

/-- R119, R189: as `State.ReachesFor`, with the PE taken for 1 clk. -/
def State.Reaches (s : State) (i : Instr) (f : Inst → Inst) (op : EngOp) (t1 t0 : Target) : Prop :=
  s.ReachesFor 1 i f op t1 t0

end Sys2Proof.Machine
end

