-- ==== Sys2Proof/Certificates/Slice0/Obligations.lean ====
section
/-! DEFINITION. The statements for the provers: what the instructions of the opcode table and the machine steps do, as the
numbered rules of spec/ say it. -/

open Sys2Proof Sys2Proof.Machine

/-! ## Integer, predicate and address operations (spec/08) -/

/-- R156, R157: each lane of a packed result holds the exact result reduced to the lane width; a 32-bit result is
sign-extended under i32 and zero-extended under n32. R159, R160, R168: `add`, `sub`, `mul`, `mulhi`, `min` and `max` of a live
instance whose operands have arrived and whose guard is true complete with the lane results of the table, under the flags of
R158, and change nothing else. R160: `abs`, `neg`, `not`, and `absdiff`, which is packed as the natural type of the same
width. R160, R168: `div` and `rem` never fault: the quotient is rounded toward zero, a zero divisor gives −1 or 2^w − 1, and
the remainder of a zero divisor is the dividend; they hold their PE for 12 or 20 clk. -/
def Obligations.LaneArithmetic : Prop :=
  (∀ (ty : IntTy) (f : Nat → Int) (k : Nat), k < laneCount ty →
    lanePat ty (packLanes ty f) k = lowBits (laneW ty) (f k) ∧ packLanes ty f < 2 ^ 64 ∧
    (ty = .i32 → sextNat 64 (packLanes ty f) = sextNat 32 (lowBits 32 (f 0))) ∧
    (ty = .n32 → packLanes ty f = lowBits 32 (f 0)) ∧
    (laneSigned ty = true → laneVal ty (packLanes ty f) k = sextNat (laneW ty) (lowBits (laneW ty) (f k)))) ∧
  (∀ (s : State) (x : Inst) (m : IntMod) (t1 t0 : Target) (a b : Token), s.live x → s.has .a a → s.hasB m.z b →
    s.guardTrue = true →
    let r (f : Int → Int → Int) : Token → Prop :=
      IsLanes m.ty m.sat fun k => f (a.lane m.ty k) (b.laneInv m.invb m.ty k)
    s.Yields (.add m t1 t0) 1 1 t1 t0 (r fun x y => x + y) ∧
    s.Yields (.sub m t1 t0) 1 1 t1 t0 (r fun x y => x - y) ∧
    s.Yields (.mul m t1 t0) 1 3 t1 t0 (r fun x y => x * y) ∧
    s.Yields (.mulhi m t1 t0) 1 3 t1 t0 (r fun x y => x * y / 2 ^ laneW m.ty) ∧
    s.Yields (.min m t1 t0) 1 1 t1 t0 (r fun x y => if x ≤ y then x else y) ∧
    s.Yields (.max m t1 t0) 1 1 t1 t0 (r fun x y => if x ≤ y then y else x)) ∧
  (∀ (s : State) (x : Inst) (m : IntMod) (t1 t0 : Target) (a b : Token), s.live x → s.has .a a → s.guardTrue = true →
    s.Yields (.abs m t1 t0) 1 1 t1 t0
      (IsLanes m.ty m.sat fun k => if a.lane m.ty k < 0 then -a.lane m.ty k else a.lane m.ty k) ∧
    s.Yields (.neg m t1 t0) 1 1 t1 t0 (IsLanes m.ty m.sat fun k => -a.lane m.ty k) ∧
    s.Yields (.not m t1 t0) 1 1 t1 t0 (IsLanes m.ty m.sat fun k => -1 - a.lane m.ty k) ∧
    (s.has .b b → s.Yields (.absdiff m t1 t0) 1 1 t1 t0 (IsLanes (naturalTy m.ty) false fun k =>
      if a.lane m.ty k ≤ b.lane m.ty k then b.lane m.ty k - a.lane m.ty k else a.lane m.ty k - b.lane m.ty k))) ∧
  (∀ (s : State) (x : Inst) (m : IntMod) (t1 t0 : Target) (a b : Token), s.live x → s.has .a a → s.hasB m.z b →
    s.guardTrue = true →
    let n := if m.ty = .i32 ∨ m.ty = .n32 ∨ m.ty = .i16x4 ∨ m.ty = .n16x4 then 12 else 20
    let x (k : Nat) := a.lane m.ty k
    let y (k : Nat) := b.laneInv m.invb m.ty k
    s.Yields (.div m t1 t0) n n t1 t0 (IsLanes m.ty m.sat fun k =>
      if y k = 0 then (if laneSigned m.ty then -1 else 2 ^ laneW m.ty - 1) else (x k).tdiv (y k)) ∧
    s.Yields (.rem m t1 t0) n n t1 t0 (IsLanes m.ty m.sat fun k =>
      if y k = 0 then x k else x k - y k * (x k).tdiv (y k)))

/-- R157, R160: `and`, `or`, `xor` and `andn` act bit by bit on the patterns of the lanes, and so do the counts of bits and the
reversals: `clz`, `ctz`, `popc`, `brev` and `bswap`; the token is the packing of these lanes, whole. -/
def Obligations.BitwiseLanes : Prop :=
  (∀ (s : State) (x : Inst) (m : IntMod) (t1 t0 : Target) (a b : Token), s.live x → s.has .a a → s.hasB m.z b →
    s.guardTrue = true → m.sat = false →
    let r (f : Bool → Bool → Bool) (v : Token) : Prop := IsPacked m.ty v ∧
      ∀ k i, k < laneCount m.ty → i < laneW m.ty →
        (v.pat m.ty k).testBit i = f ((a.pat m.ty k).testBit i) ((b.patInv m.invb m.ty k).testBit i)
    s.Yields (.and m t1 t0) 1 1 t1 t0 (r fun p q => p && q) ∧
    s.Yields (.or m t1 t0) 1 1 t1 t0 (r fun p q => p || q) ∧
    s.Yields (.xor m t1 t0) 1 1 t1 t0 (r fun p q => p != q) ∧
    s.Yields (.andn m t1 t0) 1 1 t1 t0 (r fun p q => p && !q)) ∧
  (∀ (s : State) (x : Inst) (m : IntMod) (t1 t0 : Target) (a : Token), s.live x → s.has .a a → s.guardTrue = true →
    m.sat = false →
    let w := laneW m.ty
    let lanes (P : Nat → Nat → Prop) (v : Token) : Prop := IsPacked m.ty v ∧
      ∀ k, k < laneCount m.ty → P (a.pat m.ty k) (v.pat m.ty k)
    s.Yields (.clz m t1 t0) 1 1 t1 t0 (lanes fun p n =>
      n ≤ w ∧ p < 2 ^ (w - n) ∧ (n < w → p.testBit (w - 1 - n) = true)) ∧
    s.Yields (.ctz m t1 t0) 1 1 t1 t0 (lanes fun p n =>
      n ≤ w ∧ p % 2 ^ n = 0 ∧ (n < w → p.testBit n = true)) ∧
    s.Yields (.popc m t1 t0) 1 1 t1 t0 (lanes fun p n =>
      n = ((List.range w).filter fun i => p.testBit i).length) ∧
    s.Yields (.brev m t1 t0) 1 1 t1 t0 (lanes fun p n =>
      ∀ i, i < w → n.testBit i = p.testBit (w - 1 - i)) ∧
    s.Yields (.bswap m t1 t0) 1 1 t1 t0 (lanes fun p n =>
      ∀ j, j < w / 8 → n / 2 ^ (8 * j) % 256 = p / 2 ^ (8 * (w / 8 - 1 - j)) % 256))

/-- R157, R160: the shifts and rotations, for every count: a count is read as natural over the whole lane, so one of w or more is
legal; the rotations use it modulo w. R160, R161, R162, R163: `mad`, the full product of `mulw`, the fields of `bfx` and
`bfi`, and the address of `lea`. -/
def Obligations.ShiftAndFieldResults : Prop :=
  (∀ (s : State) (x : Inst) (m : IntMod) (t1 t0 : Target) (a b : Token), s.live x → s.has .a a → s.hasB m.z b →
    s.guardTrue = true →
    let w := laneW m.ty
    let n (k : Nat) := b.patInv m.invb m.ty k
    s.Yields (.shl m t1 t0) 1 1 t1 t0 (IsLanes m.ty m.sat fun k => a.lane m.ty k * 2 ^ n k) ∧
    s.Yields (.shr m t1 t0) 1 1 t1 t0 (IsLanes m.ty m.sat fun k => (a.pat m.ty k / 2 ^ n k : Nat)) ∧
    s.Yields (.sar m t1 t0) 1 1 t1 t0 (IsLanes m.ty m.sat fun k => sextNat w (a.pat m.ty k) / 2 ^ n k) ∧
    (m.sat = false →
      s.Yields (.rotl m t1 t0) 1 1 t1 t0 (fun v => IsPacked m.ty v ∧ ∀ k i, k < laneCount m.ty → i < w →
        (v.pat m.ty k).testBit i = (a.pat m.ty k).testBit ((i + w - n k % w) % w)) ∧
      s.Yields (.rotr m t1 t0) 1 1 t1 t0 (fun v => IsPacked m.ty v ∧ ∀ k i, k < laneCount m.ty → i < w →
        (v.pat m.ty k).testBit i = (a.pat m.ty k).testBit ((i + n k) % w)))) ∧
  (∀ (s : State) (x : Inst) (m : IntMod) (q : LeaMod) (t1 t0 : Target) (a b c : Token), s.live x → s.has .a a →
    s.has .b b →
    (s.has .c c → s.Yields (.mad m t1 t0) 1 3 t1 t0
      (IsLanes m.ty m.sat fun k => a.lane m.ty k * b.laneInv m.invb m.ty k + c.lane m.ty k)) ∧
    (s.has .c c → m.ty.scalar = true → s.Yields (.bfi m t1 t0) 1 1 t1 t0 fun v =>
      let w := laneW m.ty
      let pos := c.nat % 256
      let len := c.nat / 256 % 256
      IsPacked m.ty v ∧ ∀ i, i < w →
        (v.pat m.ty 0).testBit i =
          if pos < w ∧ pos ≤ i ∧ i < pos + len then a.nat.testBit (i - pos) else (b.pat m.ty 0).testBit i) ∧
    (s.guardTrue = true → m.ty.scalar = true → s.Yields (.bfx m t1 t0) 1 1 t1 t0
      (let w := laneW m.ty
       let pos := b.nat % 256
       let len := b.nat / 256 % 256
       let n := min (pos + len) w - pos
       let f := a.pat m.ty 0 / 2 ^ pos % 2 ^ n
       IsLanes m.ty false fun _ =>
         if w ≤ pos ∨ len = 0 then 0 else if laneSigned m.ty then sextNat n f else (f : Int))) ∧
    (s.guardTrue = true → m.ty.scalar = true → s.Yields (.mulw m t1 t0) 1 3 t1 t0 fun v =>
      v.null = false ∧ v.pair = decide (laneW m.ty = 64) ∧
      v.nat = lowBits (2 * laneW m.ty) (a.lane m.ty 0 * b.lane m.ty 0)) ∧
    (s.guardTrue = true → s.Yields (.lea q t1 t0) 1 1 t1 t0
      (IsDword (lowBits 64 ((a.lo : Int) + b.lane q.ty 0 * 2 ^ q.scale.toNat)))))

/-- R164: the six comparisons emit 1 where the relation holds of the lanes of a and b, and 0 elsewhere, also where a tagged
operand makes the comparison record a constraint (R340). R165: the predicate operations read bit 0 of each input. -/
def Obligations.Comparisons : Prop :=
  (∀ (s : State) (x : Inst) (m : IntMod) (t1 t0 : Target) (a b : Token), s.live x → s.has .a a → s.hasB m.z b →
    s.guardTrue = true →
    let r (p : Int → Int → Prop) : Token → Prop := IsPred (p (a.lane m.ty 0) (b.lane m.ty 0))
    s.Yields (.setpEq m t1 t0) 1 1 t1 t0 (r fun x y => x = y) ∧
    s.Yields (.setpNe m t1 t0) 1 1 t1 t0 (r fun x y => x ≠ y) ∧
    s.Yields (.setpLt m t1 t0) 1 1 t1 t0 (r fun x y => x < y) ∧
    s.Yields (.setpLe m t1 t0) 1 1 t1 t0 (r fun x y => x ≤ y) ∧
    s.Yields (.setpGt m t1 t0) 1 1 t1 t0 (r fun x y => x > y) ∧
    s.Yields (.setpGe m t1 t0) 1 1 t1 t0 (r fun x y => x ≥ y)) ∧
  (∀ (s : State) (x : Inst) (t1 t0 : Target) (a b : Token), s.live x → s.has .a a → s.guardTrue = true →
    let p := a.nat % 2 = 1
    let q := b.nat % 2 = 1
    s.Yields (.pnot t1 t0) 1 1 t1 t0 (IsPred ¬ p) ∧
    (s.has .b b →
      s.Yields (.pand t1 t0) 1 1 t1 t0 (IsPred (p ∧ q)) ∧
      s.Yields (.por t1 t0) 1 1 t1 t0 (IsPred (p ∨ q)) ∧
      s.Yields (.pxor t1 t0) 1 1 t1 t0 (IsPred ¬(p ↔ q))))

/-- R166: the seven immediate forms act on all 64 bits of port a; a negative immediate shifts everything out. -/
def Obligations.ImmediateForms : Prop :=
  (∀ (s : State) (x : Inst) (imm : BitVec 15) (t0 : Target) (a : Token), s.live x → s.has .a a → s.guardTrue = true →
    let n := (BitVec.signExtend 64 imm).toNat
    imm.toInt ≥ -16384 ∧ imm.toInt ≤ 16383 ∧ (imm.toInt < 0 → 2 ^ 64 - 16384 ≤ n) ∧
    s.Yields (.addi imm t0) 1 1 .none t0 (IsDword ((a.lo + n) % 2 ^ 64)) ∧
    s.Yields (.andi imm t0) 1 1 .none t0 (IsDword (a.lo &&& n)) ∧
    s.Yields (.shli imm t0) 1 1 .none t0 (IsDword (a.lo * 2 ^ n % 2 ^ 64)) ∧
    s.Yields (.shri imm t0) 1 1 .none t0 (IsDword (a.lo / 2 ^ n)) ∧
    s.Yields (.muli imm t0) 1 3 .none t0 (IsDword (a.lo * n % 2 ^ 64)) ∧
    s.Yields (.setpiEq imm t0) 1 1 .none t0 (IsPred (sextNat 64 a.lo = imm.toInt)) ∧
    s.Yields (.setpiLt imm t0) 1 1 .none t0 (IsPred (sextNat 64 a.lo < imm.toInt))) ∧
  (∀ (imm : BitVec 15) (t0 : Target), ∀ e ∈ [(Instr.addi imm t0, 0x22), (.andi imm t0, 0x4a), (.shli imm t0, 0x4b),
      (.shri imm t0, 0x4c), (.muli imm t0, 0x4d), (.setpiEq imm t0, 0x4e), (.setpiLt imm t0, 0x4f)],
    portsOf e.1 = (.req false, .unused, .opt) ∧
    ∀ w, encode e.1 = some w → w.toNat / 2 ^ 24 = e.2 ∧ w.toNat / 2 ^ 9 % 2 ^ 15 = imm.toNat) ∧
  decode 0x4c000682 = .ok (.shri 3 (.port .a 2)) ∧ decode 0x22fffe86 = .ok (.addi (-1) (.port .a 6))

/-! ## Sources, plumbing and tokens (spec/02, spec/06, spec/07) -/

/-- R138, R28, R64, R427, R430: the source instructions emit the value of their table on both targets, and never a null; a
`read` emits when its bank has served it (R128), where the parity of the slots it reads is right (R146). `sysrd` emits the value at the admission, but the window of the temporal
array when it fires (R328). R26, R28, R64: the value of each `id` selector for a thread of index (x, y, z) in a group of index
(u, v, w), in a grid that is no heap grid. -/
def Obligations.SourceValues : Prop :=
  (∀ (s : State) (x : Inst) (n : BitVec 6) (imm : BitVec 15) (t1 t0 : Target) (v : DWord), s.live x →
    let th := s.curThread
    let turn (k : Nat) := bankTurn s.curBlock s.cur.idx k
    let lit (k : Nat) := (s.curBlock.lits.getD k 0).toNat
    (maskMeets th.badParity [n.toNat] = false →
      s.Yields (.read n t1 t0) 1 (1 + turn n.toNat) t1 t0 (IsDword (th.slot n.toNat).toNat)) ∧
    (maskMeets th.badParity [n.toNat, n.toNat + 1] = false →
      s.Yields (.readD n t1 t0) 1 (1 + max (turn n.toNat) (turn (n.toNat + 1))) t1 t0
        (IsDword ((th.slot n.toNat).toNat + 2 ^ 32 * (th.slot (n.toNat + 1)).toNat))) ∧
    s.Yields (.lit n t1 t0) 1 1 t1 t0 (IsDword (lit n.toNat)) ∧
    s.Yields (.litD n t1 t0) 1 1 t1 t0 (IsDword (lit n.toNat + 2 ^ 32 * lit (n.toNat + 1))) ∧
    s.Yields (.const imm t0) 1 1 .none t0 (IsDword (BitVec.signExtend 64 imm).toNat) ∧
    s.Yields (.tsc t1 t0) 1 1 t1 t0 (IsDword x.tsc.toNat) ∧
    (Tbl.find? x.sys s.cur.idx = some v → n.toNat ≠ 15 → s.Yields (.sysrd n t1 t0) 1 1 t1 t0 (IsDword v.toNat)) ∧
    (n.toNat = 15 → s.Yields (.sysrd n t1 t0) 1 1 t1 t0 (IsDword (s.sysValue s.cur.core s.cur.slot 15).toNat))) ∧
  (∀ (s : State) (i : Inst) (n : BitVec 6) (t1 t0 : Target) (x y z u v w : Nat), s.live i →
    let g := s.groupOf s.cur.core s.cur.slot
    let r := (s.grid g.grid).launch
    g.carrier = false → x < r.bx → y < r.by_ → u < r.gx → v < r.gy →
    s.curThread.lin = x + r.bx * (y + r.by_ * z) → g.lin = u + r.gx * (v + r.gy * w) →
    z < 2 ^ 32 → w < 2 ^ 32 → r.bx < 2 ^ 32 → r.by_ < 2 ^ 32 → r.gx < 2 ^ 32 → r.gy < 2 ^ 32 →
    r.bx * r.by_ * r.bz < 2 ^ 32 → 0 < r.ropeG → r.ropeG < 2 ^ 32 → s.cur.core < 2048 → s.cur.slot < 1024 →
    ∀ e ∈ [(0, x), (1, y), (2, z), (3, u), (4, v), (5, w), (6, r.bx * r.by_ * r.bz), (7, s.cur.core % 256),
        (8, s.cur.core / 256), (9, g.lin % r.ropeG), (10, s.cur.slot)],
      n.toNat = e.1 → s.Yields (.id n t1 t0) 1 1 t1 t0 (IsDword e.2))

/-- R140, R129, R430: what `mov`, `gate`, `gaten`, `sel`, `pick`, `pair`, `split`, `sink`, `isnull` and `nop` send. R119,
R122, R131: a firing of latency at most 1 with targets delivers its tokens: a token to a port arrives the clk of its emission
plus the 1, 2 or 3 clk of its path, a live-out write that is not null is taken into the commit buffer, and the instance's
count of completions rises by 1; one without targets completes at once; a longer one emits later. -/
def Obligations.PlumbingValues : Prop :=
  (∀ (s : State) (x : Inst) (wd : Bool) (t1 t0 : Target) (a b c : Token), s.live x → s.opTok? .a = some a →
    (a.null = false → s.guardTrue = true → s.Sends (.mov wd t1 t0) 1 1 t1 t0 a a) ∧
    (a.null = false → s.has .b b →
      (let v := if b.pred then a else nullTok
       s.Sends (.gate wd t1 t0) 1 1 t1 t0 v v) ∧
      (let v := if b.pred then nullTok else a
       s.Sends (.gaten wd t1 t0) 1 1 t1 t0 v v)) ∧
    (a.null = false → s.has .b b → s.has .c c →
      (let v := if c.pred then a else b
       s.Sends (.sel wd t1 t0) 1 1 t1 t0 v v)) ∧
    (s.opTok? .b = some b →
      (let v := if a.null then b else a
       s.Sends (.pick wd t1 t0) 1 1 t1 t0 v v)) ∧
    (a.null = false → s.has .b b → s.guardTrue = true →
      s.Yields (.pair t1 t0) 1 1 t1 t0 (IsTok true (a.lo + 2 ^ 64 * b.lo))) ∧
    (a.null = false → s.guardTrue = true → ∃ v1 v0, s.Sends (.split t1 t0) 1 1 t1 t0 v1 v0 ∧
      IsTok false (a.nat / 2 ^ 64) v1 ∧ IsTok false (a.nat % 2 ^ 64) v0) ∧
    s.Sends (.sink wd) 1 1 .none .none nullTok nullTok ∧
    s.Yields (.isnull wd t1 t0) 1 1 t1 t0 (IsPred (a.null = true)) ∧
    s.Sends .nop 1 1 .none .none nullTok nullTok) ∧
  (∀ (x : Inst) (now idx lat : Nat) (t1 t0 : Target) (v1 v0 : Token),
    (∀ j k, pathDelay j k =
      if (j / 8 - k / 8) + (k / 8 - j / 8) + (j % 8 - k % 8) + (k % 8 - j % 8) ≤ 1 then 1
      else if j / 8 = k / 8 ∨ j % 8 = k % 8 then 2 else 3) ∧
    (t1 = .none → t0 = .none → x.produce now idx lat t1 t0 v1 v0 =
      { x with count := x.count + 1, fullAt := some (max (x.fullAt.getD 0) now) }) ∧
    (1 < lat → (t1 ≠ .none ∨ t0 ≠ .none) → x.produce now idx lat t1 t0 v1 v0 =
      { x with emits := x.emits ++ [⟨idx, now + lat, false, false, v0, v1, t0, t1⟩] }) ∧
    (lat ≤ 1 → (t1 ≠ .none ∨ t0 ≠ .none) →
      (∀ p k, t1 = .port p k → Tbl.find? (x.produce now idx lat t1 t0 v1 v0).tokens (3 * k.toNat + portNum p) =
        some { v1 with arrive := now + lat + pathDelay idx k.toNat }) ∧
      (∀ p k, t0 = .port p k → t1 ≠ t0 → Tbl.find? (x.produce now idx lat t1 t0 v1 v0).tokens (3 * k.toNat + portNum p) =
        some { v0 with arrive := now + lat + pathDelay idx k.toNat }) ∧
      (let w (t : Target) (v : Token) : List LiveOut :=
         match t with
         | .live n => if v.null then [] else [⟨n.toNat, false, v.data.setWidth 64, v.tag⟩]
         | .pairLive n => if v.null then [] else [⟨n.toNat, true, v.data.setWidth 64, v.tag⟩]
         | _ => []
       (x.produce now idx lat t1 t0 v1 v0).liveOut = x.liveOut ++ w t0 v0 ++ w t1 v1) ∧
      (x.produce now idx lat t1 t0 v1 v0).count = x.count + 1))

/-- R69, R129, R133, R167: a computing instruction of an instance that is squashed, or whose guard is false or null, or one of
whose data ports holds null, emits null on both targets after the same time and changes nothing else; under `.z` a null on port
b counts as 0 instead (R158). -/
def Obligations.NullResults : Prop :=
  ∀ (s : State) (x : Inst) (m : IntMod) (fm : FpMod) (fr : FroundMod) (cm : CvtMod) (q : LeaMod) (imm : BitVec 15) (wd : Bool)
    (t1 t0 : Target), s.curInst? = some x →
    let d := if m.ty = .i32 ∨ m.ty = .n32 ∨ m.ty = .i16x4 ∨ m.ty = .n16x4 then 12 else 20
    let nulls (is : List (Instr × Nat × Nat)) : Prop := ∀ e ∈ is, s.Sends e.1 e.2.1 e.2.2 t1 t0 nullTok nullTok
    let cvtBusy (wide : Bool) := if wide || cm.dest == .f64 then 4 else 1
    let cvtLat (wide : Bool) := if wide || cm.dest == .f64 then 4 else 2
    let simple := latSimple fm.ty
    ((x.squash ≠ none ∨ s.guardTrue = false ∨ (s.opTok .a).null = true) →
      nulls [(.abs m t1 t0, 1, 1), (.neg m t1 t0, 1, 1), (.not m t1 t0, 1, 1), (.clz m t1 t0, 1, 1), (.ctz m t1 t0, 1, 1),
        (.popc m t1 t0, 1, 1), (.brev m t1 t0, 1, 1), (.bswap m t1 t0, 1, 1), (.pnot t1 t0, 1, 1), (.mov wd t1 t0, 1, 1),
        (.split t1 t0, 1, 1), (.fabs fm t1 t0, fpBusy fm.ty, simple), (.fneg fm t1 t0, fpBusy fm.ty, simple),
        (.fclass fm t1 t0, fpBusy fm.ty, simple), (.fround fr t1 t0, fpBusy fr.ty, if fr.ty = .f64 then 4 else 2),
        (.cvtF64 cm t1 t0, cvtBusy true, cvtLat true), (.cvtF32 cm t1 t0, cvtBusy false, cvtLat false),
        (.cvtF16 cm t1 t0, cvtBusy false, cvtLat false), (.cvtBf16 cm t1 t0, cvtBusy false, cvtLat false),
        (.cvtE4m3 cm t1 t0, cvtBusy false, cvtLat false), (.cvtE5m2 cm t1 t0, cvtBusy false, cvtLat false),
        (.cvtI32 cm t1 t0, cvtBusy false, cvtLat false), (.cvtN32 cm t1 t0, cvtBusy false, cvtLat false),
        (.cvtI64 cm t1 t0, cvtBusy false, cvtLat false), (.cvtN64 cm t1 t0, cvtBusy false, cvtLat false)]) ∧
    ((x.squash ≠ none ∨ s.guardTrue = false ∨ (s.opTok .a).null = true ∨ (m.z = false ∧ (s.opTok .b).null = true)) →
      nulls [(.add m t1 t0, 1, 1), (.sub m t1 t0, 1, 1), (.mul m t1 t0, 1, 3), (.mulhi m t1 t0, 1, 3), (.div m t1 t0, d, d),
        (.rem m t1 t0, d, d), (.min m t1 t0, 1, 1), (.max m t1 t0, 1, 1), (.and m t1 t0, 1, 1),
        (.or m t1 t0, 1, 1), (.xor m t1 t0, 1, 1), (.andn m t1 t0, 1, 1), (.shl m t1 t0, 1, 1), (.shr m t1 t0, 1, 1),
        (.sar m t1 t0, 1, 1), (.rotl m t1 t0, 1, 1), (.rotr m t1 t0, 1, 1), (.setpEq m t1 t0, 1, 1), (.setpNe m t1 t0, 1, 1),
        (.setpLt m t1 t0, 1, 1), (.setpLe m t1 t0, 1, 1), (.setpGt m t1 t0, 1, 1), (.setpGe m t1 t0, 1, 1)]) ∧
    ((x.squash ≠ none ∨ s.guardTrue = false ∨ (s.opTok .a).null = true ∨ (s.opTok .b).null = true) →
      nulls [(.absdiff m t1 t0, 1, 1), (.mulw m t1 t0, 1, 3), (.bfx m t1 t0, 1, 1),
        (.lea q t1 t0, 1, 1), (.pand t1 t0, 1, 1), (.por t1 t0, 1, 1),
        (.pxor t1 t0, 1, 1), (.pair t1 t0, 1, 1), (.fadd fm t1 t0, fpBusy fm.ty, latArith fm.ty),
        (.fmul fm t1 t0, fpBusy fm.ty, latArith fm.ty), (.fmin fm t1 t0, fpBusy fm.ty, simple),
        (.fmax fm t1 t0, fpBusy fm.ty, simple), (.fcopysign fm t1 t0, fpBusy fm.ty, simple),
        (.fsetpEq fm t1 t0, fpBusy fm.ty, simple), (.fsetpNe fm t1 t0, fpBusy fm.ty, simple),
        (.fsetpLt fm t1 t0, fpBusy fm.ty, simple), (.fsetpLe fm t1 t0, fpBusy fm.ty, simple),
        (.fsetpUn fm t1 t0, fpBusy fm.ty, simple), (.cvtPk cm t1 t0, 1, 2)]) ∧
    ((x.squash ≠ none ∨ (s.opTok .a).null = true ∨ (s.opTok .b).null = true) →
      nulls [(.gate wd t1 t0, 1, 1), (.gaten wd t1 t0, 1, 1)]) ∧
    ((x.squash ≠ none ∨ (s.opTok .a).null = true ∨ (s.opTok .b).null = true ∨ (s.opTok .c).null = true) →
      nulls [(.mad m t1 t0, 1, 3), (.bfi m t1 t0, 1, 1), (.sel wd t1 t0, 1, 1), (.ffma fm t1 t0, fpBusy fm.ty, latArith fm.ty),
        (.fdot2 fm t1 t0, 1, latArith fm.ty)]) ∧
    ((x.squash ≠ none ∨ s.guardTrue = false ∨ (s.opTok .a).null = true) → t1 = .none →
      nulls [(.addi imm t0, 1, 1), (.andi imm t0, 1, 1), (.shli imm t0, 1, 1), (.shri imm t0, 1, 1), (.muli imm t0, 1, 3),
        (.setpiEq imm t0, 1, 1), (.setpiLt imm t0, 1, 1)])

/-! ## Number formats and floating point (spec/09, spec/10) -/

/-- R177: rounding. A pattern that is no NaN rounds to itself in every mode; a nonzero exact value goes to the multiple of the
step of its place that the mode chooses: the nearest one, the even one of two equally near, or the neighbour below, above or
toward zero. -/
def Obligations.RoundingSteps : Prop :=
  ∀ (f : FFmt), f ∈ [fmtF64, fmtF32, fmtF16, fmtBf16, fmtE5m2, fmtE4m3] →
    (∀ (mode : Rnd) (p : Nat), p < 2 ^ f.width → f.value p ≠ .nan → f.round mode (f.value p) = p) ∧
    (∀ (mode : Rnd) (neg : Bool) (m : Nat) (e : Int), m ≠ 0 →
      let k := max ((Nat.log2 m : Int) - f.m + e) f.kMin
      ∃ q : Nat,
        (f.toGrid mode neg m e = (q, k) ∨ (q = 2 ^ (f.m + 1) ∧ f.toGrid mode neg m e = (2 ^ f.m, k + 1))) ∧
        (k ≤ e → q = m * 2 ^ (e - k).toNat) ∧
        (e < k →
          let u := 2 ^ (k - e).toNat
          let down := q * u ≤ m ∧ m < (q + 1) * u
          let up := m ≤ q * u ∧ q * u < m + u
          match mode with
          | .rne => 2 * (q * u) ≤ 2 * m + u ∧ 2 * m ≤ 2 * (q * u) + u ∧
              (2 * (q * u) = 2 * m + u ∨ 2 * m = 2 * (q * u) + u → q % 2 = 0)
          | .rtz => down
          | .rup => if neg then down else up
          | .rdn => if neg then up else down))

/-- R192, R193, R200: `fadd`, `fmul`, `ffma` and `fdot2` round their exact result once, in the mode of the admission, between
the flushes; they take 4 clk, and 8 clk in f64. R193: the special operands of the arithmetic operations, and the signs of
R175. R197, R198: class and integral rounding. -/
def Obligations.FloatArithmetic : Prop :=
  (∀ (s : State) (x : Inst) (m : FpMod) (t1 t0 : Target) (a b c : Token), s.live x → s.has .a a → s.has .b b →
    let f := fpFmt m.ty
    let rm := rndOf x.fp.toNat
    let A (k : Nat) := f.value (f.flush m.ftzi (fpLane m.ty a.nat k))
    let B (k : Nat) := f.value (f.flush m.ftzi (negB f m.negb (fpLane m.ty b.nat k)))
    let C (k : Nat) := f.value (f.flush m.ftzi (fpLane m.ty c.nat k))
    let busy := if m.ty = .f64 then 4 else 1
    let lat := if m.ty = .f64 then 8 else 4
    let r (y : Nat → FpNum) : Token → Prop := IsFp m.ty fun k => f.flush m.ftzo (f.round rm (y k))
    (s.guardTrue = true →
      s.Yields (.fadd m t1 t0) busy lat t1 t0 (r fun k => sumNum rm [A k, B k]) ∧
      s.Yields (.fmul m t1 t0) busy lat t1 t0 (r fun k => (A k).mul (B k))) ∧
    (s.has .c c → s.Yields (.ffma m t1 t0) busy lat t1 t0 (r fun k => sumNum rm [(A k).mul (B k), C k])) ∧
    (s.has .c c → m.ty = .f16x2 ∨ m.ty = .bf16x2 → s.Yields (.fdot2 m t1 t0) 1 4 t1 t0
      (IsDword (fmtF32.flush m.ftzo (fmtF32.round rm
        (sumNum rm [(A 0).mul (B 0), (A 1).mul (B 1), fmtF32.value (fmtF32.flush m.ftzi (c.nat % 2 ^ 32))])))))) ∧
  (∀ (rm : Rnd) (p q : Bool) (x y z : FpNum) (m n : Nat) (e g : Int),
    (sumNum rm [.inf p, .inf !p] = .nan ∧ (x.isNaN = true ∨ y.isNaN = true → sumNum rm [x, y] = .nan)) ∧
    (sumNum rm [.inf p, .fin q m e] = .inf p) ∧
    (m ≠ 0 → sumNum rm [.fin p m e, .fin (!p) m e] = .fin (rm == .rdn) 0 0) ∧
    ((FpNum.mul (.inf p) (.fin q 0 e)).isNaN = true ∧ (FpNum.mul (.fin q 0 e) (.inf p)).isNaN = true) ∧
    (z.isNaN = false → sumNum rm [FpNum.mul (.inf p) (.fin q 0 e), z] = .nan) ∧
    FpNum.mul (.inf p) (.inf q) = .inf (p != q) ∧ (n ≠ 0 → FpNum.mul (.inf p) (.fin q n e) = .inf (p != q)) ∧
    FpNum.mul (.fin p m e) (.fin q n g) = .fin (p != q) (m * n) (e + g) ∧
    (n ≠ 0 → FpNum.div (.fin p n e) (.fin q 0 g) = .inf (p != q)) ∧
    FpNum.div (.fin p 0 e) (.fin q 0 g) = .nan ∧ FpNum.div (.inf p) (.inf q) = .nan ∧
    FpNum.div (.fin p m e) (.inf q) = .fin (p != q) 0 0 ∧ FpNum.div (.inf p) (.fin q m e) = .inf (p != q) ∧
    FpNum.sqrt (.fin p 0 e) = .fin p 0 0 ∧ (n ≠ 0 → FpNum.sqrt (.fin true n e) = .nan) ∧ FpNum.sqrt (.inf true) = .nan ∧
    FpNum.sqrt (.inf false) = .inf false) ∧
  (∀ (s : State) (x : Inst) (m : FpMod) (fr : FroundMod) (t1 t0 : Target) (a : Token), s.live x → s.has .a a →
    s.guardTrue = true →
    let f := fpFmt m.ty
    let busy (ty : FpTy) := if ty = .f64 then 4 else 1
    let A (k : Nat) := f.flush m.ftzi (fpLane m.ty a.nat k)
    s.Yields (.fclass m t1 t0) (busy m.ty) (busy m.ty) t1 t0 (fun v => v.null = false ∧ v.pair = false ∧
      ∀ k, k < fpLanes m.ty → ∃ i, v.nat / 2 ^ (16 * k) % 2 ^ 16 = 2 ^ i ∧
        (match f.value (A k) with
         | .nan => i = 8
         | .inf n => i = if n then 0 else 7
         | .fin n 0 _ => i = if n then 3 else 4
         | .fin n _ _ => if f.isSubnormal (A k) then i = (if n then 2 else 5) else i = (if n then 1 else 6))) ∧
    (let f := fpFmt fr.ty
     s.Yields (.fround fr t1 t0) (busy fr.ty) (if fr.ty = .f64 then 4 else 2) t1 t0 (IsFp fr.ty fun k =>
       let p := f.flush fr.ftzi (fpLane fr.ty a.nat k)
       match f.value p with
       | .nan => f.canonNaN
       | .fin neg n e => f.round .rne (.fin neg (intOf fr.rnd neg n e).natAbs 0)
       | .inf _ => p)))

/-- R195: `fabs` clears the sign bit of each lane, `fneg` inverts it, and `fcopysign` gives a the sign bit of b after `negb`;
every other bit is carried, of a NaN and of a subnormal too: `fneg.f32` of 0x7fc0_1234 is 0xffc0_1234. -/
def Obligations.SignBits : Prop :=
  ∀ (s : State) (x : Inst) (m : FpMod) (t1 t0 : Target) (a b : Token), s.live x → s.has .a a → s.guardTrue = true →
    let f := fpFmt m.ty
    let busy := if m.ty = .f64 then 4 else 1
    let lat := if m.ty = .f64 then 4 else 1
    s.Yields (.fabs m t1 t0) busy lat t1 t0 (IsFp m.ty fun k => fpLane m.ty a.nat k % 2 ^ (f.width - 1)) ∧
    s.Yields (.fneg m t1 t0) busy lat t1 t0
      (IsFp m.ty fun k => (fpLane m.ty a.nat k + 2 ^ (f.width - 1)) % 2 ^ f.width) ∧
    (m.ty = .f32 → a.nat = 0x7fc01234 → s.Yields (.fneg m t1 t0) busy lat t1 t0 (IsDword 0xffc01234)) ∧
    (s.has .b b → s.Yields (.fcopysign m t1 t0) busy lat t1 t0 (IsFp m.ty fun k =>
      fpLane m.ty a.nat k % 2 ^ (f.width - 1) +
        (if (fpLane m.ty b.nat k).testBit (f.width - 1) = m.negb then 0 else 2 ^ (f.width - 1))))

/-- R194: `fmin` and `fmax` return one of their inputs, as read after `negb` and `ftzi`, with its bits unchanged: the other
input of a NaN, the canonical NaN of two, −0 or +0 of zeros of both signs, the smaller or the larger value otherwise. -/
def Obligations.Extrema : Prop :=
  ∀ (s : State) (x : Inst) (m : FpMod) (t1 t0 : Target) (a b : Token), s.live x → s.has .a a → s.has .b b → s.guardTrue = true →
    let f := fpFmt m.ty
    let busy := if m.ty = .f64 then 4 else 1
    let lat := if m.ty = .f64 then 4 else 1
    let A (k : Nat) := f.flush m.ftzi (fpLane m.ty a.nat k)
    let B (k : Nat) := f.flush m.ftzi (negB f m.negb (fpLane m.ty b.nat k))
    let nan (p : Nat) : Prop := f.value p = .nan
    let pick (wantMax : Bool) (v : Token) : Prop := v.null = false ∧ v.pair = false ∧ ∀ k, k < fpLanes m.ty →
      let r := fpLane m.ty v.nat k
      let X := f.value (A k)
      let Y := f.value (B k)
      if nan (A k) ∧ nan (B k) then r = f.canonNaN
      else if nan (A k) then r = B k
      else if nan (B k) then r = A k
      else (r = A k ∨ r = B k) ∧
        (X.lt Y = true → r = if wantMax then B k else A k) ∧ (Y.lt X = true → r = if wantMax then A k else B k) ∧
        (∀ n e g, X = .fin n 0 e → Y = .fin (!n) 0 g → f.neg r = !wantMax)
    s.Yields (.fmin m t1 t0) busy lat t1 t0 (pick false) ∧ s.Yields (.fmax m t1 t0) busy lat t1 t0 (pick true)

/-- R196: `fsetp` compares a with b, after `negb` and `ftzi`, and emits the dword 1 when the relation of its opcode holds and
0 otherwise, on T0 and T1: −0 equals +0, an infinity lies beyond every finite value of its sign, and a NaN is unordered; two
subnormals under `.ftzi` are equal, and a NaN beside 1.0 is not less and is not equal. -/
def Obligations.FloatComparisons : Prop :=
  (∀ (s : State) (x : Inst) (m : FpMod) (t1 t0 : Target) (a b : Token), s.live x → s.has .a a → s.has .b b → s.guardTrue = true →
    let f := fpFmt m.ty
    let busy := if m.ty = .f64 then 4 else 1
    let lat := if m.ty = .f64 then 4 else 1
    let X := f.value (f.flush m.ftzi (fpLane m.ty a.nat 0))
    let Y := f.value (f.flush m.ftzi (negB f m.negb (fpLane m.ty b.nat 0)))
    let un := X = .nan ∨ Y = .nan
    s.Yields (.fsetpEq m t1 t0) busy lat t1 t0 (IsPred (¬un ∧ X.lt Y = false ∧ Y.lt X = false)) ∧
    s.Yields (.fsetpNe m t1 t0) busy lat t1 t0 (IsPred (un ∨ X.lt Y = true ∨ Y.lt X = true)) ∧
    s.Yields (.fsetpLt m t1 t0) busy lat t1 t0 (IsPred (¬un ∧ X.lt Y = true)) ∧
    s.Yields (.fsetpLe m t1 t0) busy lat t1 t0 (IsPred (¬un ∧ Y.lt X = false)) ∧
    s.Yields (.fsetpUn m t1 t0) busy lat t1 t0 (IsPred un) ∧
    (m.ty = .f32 → m.ftzi = true → a.nat = 1 → b.nat = 1 → s.Yields (.fsetpEq m t1 t0) busy lat t1 t0 (IsDword 1)) ∧
    (X = .nan → m.ty = .f32 → m.negb = false → b.nat = 0x3f800000 →
      s.Yields (.fsetpLt m t1 t0) busy lat t1 t0 (IsDword 0) ∧ s.Yields (.fsetpNe m t1 t0) busy lat t1 t0 (IsDword 1))) ∧
  (∀ (n k : Bool) (e g : Nat) (i j : Int), (FpNum.fin n 0 i).lt (.fin k 0 j) = false ∧
    (FpNum.fin n e i).lt (.inf false) = true ∧ (FpNum.inf true).lt (.fin k g j) = true) ∧
  (∀ (m : FpMod) (t1 t0 : Target), ∀ e ∈ [(Instr.fsetpEq m t1 t0, 0x58), (.fsetpNe m t1 t0, 0x59), (.fsetpLt m t1 t0, 0x5a),
    (.fsetpLe m t1 t0, 0x5b), (.fsetpUn m t1 t0, 0x5c)], ∀ w, encode e.1 = some w → opcodeOf w = e.2)

/-- R119, R193, R199, R200: `fdiv`, `fsqrt` and the special functions complete by a special-function port with their latency,
and an f64 `fdiv` or `fsqrt` holds it for 8 clk; the quotient, the root, 1/a and 1/√a are correctly rounded (for 1/√a, which
need be no dyadic number: no number below it rounds above the result, and none above it below), and the special values of
R199 hold for `frsq`, `fex2`, `flg2`, `fsin`, `fcos` and `ftanh`. On every other value these five give one of the two members
of F′ about the exact value, as the fixed-point enclosure of the model places it, and which of the two is one choice by
function, format and input alone, the same for every state and core. -/
def Obligations.SpecialFunctions : Prop :=
  ∃ up : Nat → FpTy → Nat → Bool, ∀ (s : State) (x : Inst) (m : FpMod) (t1 t0 : Target) (a b : Token), s.live x → s.has .a a → s.guardTrue = true →
    let f := fpFmt m.ty
    let rm := rndOf x.fp.toNat
    let A (k : Nat) := f.flush m.ftzi (fpLane m.ty a.nat k)
    let B (k : Nat) := f.flush m.ftzi (negB f m.negb (fpLane m.ty b.nat k))
    let r (y : Nat → Nat) : Token → Prop := IsFp m.ty fun k => f.flush m.ftzo (y k)
    let one (neg : Bool) := f.round .rne (.fin neg 1 0)
    let signed (neg : Bool) (p : Nat) := if neg then p + 2 ^ (f.width - 1) else p
    let special (g : Nat → Option Nat) (v : Token) : Prop := v.null = false ∧ v.pair = false ∧
      ∀ k p, k < fpLanes m.ty → g (A k) = some p → fpLane m.ty v.nat k = f.flush m.ftzo p
    let near (fn : Nat) (p : Nat) (en : Enclosure) : Option Nat := some (neighbour f en (up fn m.ty p))
    let div := if m.ty = .f64 then 48 else 24
    let busy := if m.ty = .f64 then 4 else 1
    let hold := if m.ty = .f64 then 8 else 1
    (s.has .b b → s.YieldsByPort (.fdiv m t1 t0) busy div hold t1 t0
      (r fun k => f.round rm ((f.value (A k)).div (f.value (B k))))) ∧
    s.YieldsByPort (.fsqrt m t1 t0) busy div hold t1 t0 (r fun k => f.round rm (f.value (A k)).sqrt) ∧
    (m.ty ≠ .f64 →
      s.YieldsByPort (.frcp m t1 t0) 1 12 1 t1 t0 (r fun k => f.round .rne ((FpNum.fin false 1 0).div (f.value (A k)))) ∧
      s.YieldsByPort (.frsq m t1 t0) 1 12 1 t1 t0 (fun v => v.null = false ∧ v.pair = false ∧
        ∀ k, k < fpLanes m.ty → ∃ q, fpLane m.ty v.nat k = f.flush m.ftzo q ∧
          match f.value (A k) with
          | .nan => q = f.canonNaN
          | .fin n 0 _ => q = signed n f.inf
          | .inf false => q = 0
          | .inf true => q = f.canonNaN
          | .fin true _ _ => q = f.canonNaN
          | .fin false n e => ∀ (d : Nat) (g : Int),
              (d ^ 2 * n * 2 ^ (2 * g + e).toNat < 2 ^ (-(2 * g + e)).toNat → f.round .rne (.fin false d g) ≤ q) ∧
              (2 ^ (-(2 * g + e)).toNat < d ^ 2 * n * 2 ^ (2 * g + e).toNat → q ≤ f.round .rne (.fin false d g))) ∧
      s.YieldsByPort (.fex2 m t1 t0) 1 14 1 t1 t0 (special fun p =>
        match f.value p with
        | .nan => some f.canonNaN
        | .inf n => some (if n then 0 else f.inf)
        | .fin _ 0 _ => some (one false)
        | .fin neg n e => match asInt? neg n e with
          | some k => if f.kMin ≤ k ∧ k ≤ f.bias then some (f.round .rne (.fin false 1 k)) else none
          | none => near 0 p (encExp2 neg n e)) ∧
      s.YieldsByPort (.flg2 m t1 t0) 1 14 1 t1 t0 (special fun p =>
        match f.value p with
        | .nan => some f.canonNaN
        | .fin _ 0 _ => some (signed true f.inf)
        | .inf n => some (if n then f.canonNaN else f.inf)
        | .fin true _ _ => some f.canonNaN
        | .fin false n e => if n = 2 ^ Nat.log2 n then some (f.round .rne (numOfInt ((Nat.log2 n : Int) + e)))
            else near 1 p (encLog2 n e)) ∧
      s.YieldsByPort (.fsin m t1 t0) 1 20 1 t1 t0 (special fun p =>
        match f.value p with
        | .nan => some f.canonNaN
        | .inf _ => some f.canonNaN
        | .fin n 0 _ => some (signed n 0)
        | .fin n k e => near 2 p (encTrig false n k e)) ∧
      s.YieldsByPort (.fcos m t1 t0) 1 20 1 t1 t0 (special fun p =>
        match f.value p with
        | .nan => some f.canonNaN
        | .inf _ => some f.canonNaN
        | .fin _ 0 _ => some (one false)
        | .fin n k e => near 3 p (encTrig true n k e)) ∧
      s.YieldsByPort (.ftanh m t1 t0) 1 16 1 t1 t0 (special fun p =>
        match f.value p with
        | .nan => some f.canonNaN
        | .inf n => some (one n)
        | .fin n 0 _ => some (signed n 0)
        | .fin n k e => near 4 p (encTanh n k e)))

/-- R119, R129, R133, R200: every instruction of the special-function ports completes for every operand: with operands that have
arrived, and a guard that is true, it sends one dword by its port, and with a null operand, a guard that is false or null, or in
an instance that is squashed it sends null by its port, after the same time. (That a null goes by the port too, after the same
time, is the model's choice, log entry 43.) -/
def Obligations.SpecialFunctionPorts : Prop :=
  ∀ (s : State) (x : Inst) (m : FpMod) (t1 t0 : Target), s.curInst? = some x →
    let div := if m.ty = .f64 then 48 else 24
    let busy := if m.ty = .f64 then 4 else 1
    let hold := if m.ty = .f64 then 8 else 1
    let small (P : Token → Prop) : Prop := m.ty ≠ .f64 → ∀ e ∈ [(Instr.frcp m t1 t0, 12), (.frsq m t1 t0, 12), (.fex2 m t1 t0, 14),
      (.flg2 m t1 t0, 14), (.fsin m t1 t0, 20), (.fcos m t1 t0, 20), (.ftanh m t1 t0, 16)], s.YieldsByPort e.1 1 e.2 1 t1 t0 P
    let value (v : Token) : Prop := v.null = false ∧ v.pair = false
    let null (v : Token) : Prop := v = nullTok
    (∀ a, x.squash = none → s.guardTrue = true → s.has .a a →
      s.YieldsByPort (.fsqrt m t1 t0) busy div hold t1 t0 value ∧ small value ∧
      ∀ b, s.has .b b → s.YieldsByPort (.fdiv m t1 t0) busy div hold t1 t0 value) ∧
    (x.squash ≠ none ∨ s.guardTrue = false ∨ (s.opTok .a).null = true →
      s.YieldsByPort (.fsqrt m t1 t0) busy div hold t1 t0 null ∧ small null) ∧
    (x.squash ≠ none ∨ s.guardTrue = false ∨ (s.opTok .a).null = true ∨ (s.opTok .b).null = true →
      s.YieldsByPort (.fdiv m t1 t0) busy div hold t1 t0 null)

/-- R200, R202-R204: the conversions place the converted value on T0 and the overflow predicate on T1, in 2 clk, or in 4 clk
where a format is f64. R178, R203: what a conversion of an exact value gives: a float destination takes the saturated
rounding, with infinities kept where the format has them; an integer destination is clamped to its range, with the predicate
where it was. -/
def Obligations.Conversions : Prop :=
  (∀ (s : State) (x : Inst) (m : CvtMod) (t1 t0 : Target) (a b : Token), s.live x → s.has .a a → s.guardTrue = true →
    (∀ e ∈ [(Instr.cvtF64 m t1 t0, CvtFmt.f64), (.cvtF32 m t1 t0, .f32), (.cvtF16 m t1 t0, .f16), (.cvtBf16 m t1 t0, .bf16),
        (.cvtE4m3 m t1 t0, .e4m3), (.cvtE5m2 m t1 t0, .e5m2), (.cvtI32 m t1 t0, .i32), (.cvtN32 m t1 t0, .n32),
        (.cvtI64 m t1 t0, .i64), (.cvtN64 m t1 t0, .n64)],
      let wide := e.2 = .f64 ∨ m.dest = .f64
      ∃ v1 v0, s.Sends e.1 (if wide then 4 else 1) (if wide then 4 else 2) t1 t0 v1 v0 ∧
        IsTok false (cvtNum m.dest m.rnd (cvtSource e.2 a.nat)).1 v0 ∧
        IsPred ((cvtNum m.dest m.rnd (cvtSource e.2 a.nat)).2 = true) v1) ∧
    (∀ f, s.has .b b → m.dest ∈ [.f16, .bf16, .e4m3, .e5m2] → cvtFloat m.dest = some f →
      ∃ v1 v0, s.Sends (.cvtPk m t1 t0) 1 2 t1 t0 v1 v0 ∧
        (let p := f.roundSat m.rnd (fmtF32.value (a.nat % 2 ^ 32))
         let q := f.roundSat m.rnd (fmtF32.value (b.nat % 2 ^ 32))
         IsTok false (p.1 + 2 ^ f.width * q.1) v0 ∧ IsPred (p.2 = true ∨ q.2 = true) v1))) ∧
  (∀ (rm : Rnd) (neg : Bool) (m : Nat) (e : Int) (v : Nat) (d : CvtFmt),
    (∀ f, cvtFloat d = some f →
      cvtNum d rm .nan = (f.canonNaN, false) ∧
      (f.hasInf = true → cvtNum d rm (.inf neg) = (f.withSign neg f.inf, false)) ∧
      (f.hasInf = false → cvtNum d rm (.inf neg) = (f.withSign neg 126, true)) ∧
      cvtNum d rm (.fin neg 0 e) = (f.withSign neg 0, false) ∧
      (m ≠ 0 → cvtNum d rm (.fin neg m e) =
        if f.over (f.toGrid rm neg m e) then (f.withSign neg f.maxFinite, true)
        else (f.withSign neg (f.ofGrid (f.toGrid rm neg m e)), false)) ∧
      (v < 2 ^ f.width → cvtNum d rm (cvtSource d v) = (if f.value v = .nan then f.canonNaN else v, false))) ∧
    (cvtFloat d = none →
      let ty := cvtInt d
      let clamp (q : Int) := min (max q (laneLo ty)) (laneHi ty)
      cvtNum d rm .nan = (0, true) ∧
      cvtNum d rm (.inf neg) = (packLanes ty fun _ => if neg then laneLo ty else laneHi ty, true) ∧
      (cvtNum d rm (.fin neg m e)).1 = packLanes ty (fun _ => clamp (intOf rm neg m e)) ∧
      ((cvtNum d rm (.fin neg m e)).2 = true ↔ intOf rm neg m e < laneLo ty ∨ laneHi ty < intOf rm neg m e)))

/-! ## Control, waits and system instructions (spec/05, spec/13, spec/17, spec/20) -/

/-- R61, R113, R114, R115: what each control transfer decides: the target of its offset, the continuation, the checked address
of `brx`, `callx` and `ret`, the link of the calls, retirement, and the faults of a null and of a bad address. R281, R283,
R353, R384, R424, R426: the other terminators decide to wait, to enter or commit a region, to trap, to finish a task or to
halt; `halt` in user mode is a permission fault. R133: the terminator of a squashed instance fires and completes, and decides
nothing. -/
def Obligations.ControlTransfers : Prop :=
  (∀ (s : State) (x : Inst) (off : BitVec 24) (a : Token), s.live x →
    let tgt : VAddr := x.blk + BitVec.ofInt 56 (4 * off.toInt)
    let idx := s.cur.idx
    let checked (n : Nat) (link : Option VAddr) : Term :=
      if n / 2 ^ 56 % 2 ^ 8 = 0 ∧ n % 4 = 0 then .goto (BitVec.ofNat 56 n) link
      else .fault ⟨.permission, idx, BitVec.ofNat 64 n, BitVec.ofNat 64 (idx % 256 * 2 ^ 8 + 3 * 2 ^ 5 + 4)⟩
    let l62 := (s.curThread.slot 62).toNat + 2 ^ 32 * (s.curThread.slot 63).toNat
    s.Decides (.br off) (.goto tgt none) ∧
    s.Decides (.call off) (.goto tgt (some x.ft)) ∧
    s.Decides .exit .retire ∧
    (maskMeets s.curThread.badParity [62, 63] = false →
      x.region = none ∨ (l62 < 2 ^ 56 ∧ l62 % 4 = 0) → s.Decides .ret (checked l62 none)) ∧
    (s.has .a a →
      let p := a.nat.testBit 0
      s.Decides (.brc off) (.goto (if p then tgt else x.ft) none) ∧
      s.Decides (.brcn off) (.goto (if p then x.ft else tgt) none) ∧
      s.Decides (.callc off) (if p then .goto tgt (some x.ft) else .goto x.ft none) ∧
      s.Decides .exitc (if p then .retire else .goto x.ft none) ∧
      (x.region = none ∨ (a.lo < 2 ^ 56 ∧ a.lo % 4 = 0) →
        s.Decides .brx (checked a.lo none) ∧ s.Decides .callx (checked a.lo (some x.ft)))) ∧
    (s.opTok? .a = some a → a.null = true → x.region = none →
      ∀ i ∈ [Instr.brc off, .brcn off, .callc off, .exitc, .brx, .callx], s.Decides i (.fault ⟨.nullBranch, idx, 0, 0⟩))) ∧
  (∀ (s : State) (x : Inst) (num : BitVec 4) (off : BitVec 20) (far : BitVec 24) (code : BitVec 15) (a : Token), s.live x →
    let near : VAddr := x.blk + BitVec.ofInt 56 (4 * off.toInt)
    let tgt : VAddr := x.blk + BitVec.ofInt 56 (4 * far.toInt)
    s.Decides (.barWait num off) (.barrier num.toNat near) ∧
    s.Decides (.stgWait num off) (.barrier (16 + num.toNat) near) ∧
    s.Decides (.ropeWait off) (.rope near) ∧
    s.Decides (.abegin far) (.abegin tgt) ∧
    s.Decides (.acommit far) (.acommit tgt) ∧
    (x.region = none → s.Decides (.trap code) (.trap .trap code) ∧ s.Decides (.brk code) (.trap .brk code)) ∧
    (x.priv = true → s.Decides .halt .halt) ∧
    (x.priv = false → x.region = none →
      s.Decides .halt (.fault ⟨.permission, s.cur.idx, 0, BitVec.ofNat 64 (s.cur.idx % 256 * 2 ^ 8 + 5 * 2 ^ 5 + 3)⟩)) ∧
    (s.has .a a → s.Decides (.waitp num off) (.waitp num.toNat near (BitVec.ofNat 32 a.nat)) ∧
      s.Decides .hdone (.hdone (some (BitVec.ofNat 32 a.nat)))) ∧
    (s.opTok? .a = none → s.Decides .hdone (.hdone none)) ∧
    (s.opTok? .a = some a → a.null = true → s.Decides .hdone (.hdone none) ∧
      (x.region = none → s.Decides (.waitp num off) (.fault ⟨.nullBranch, s.cur.idx, 0, 0⟩)))) ∧
  (∀ (s : State) (x : Inst) (off : BitVec 24) (near : BitVec 20) (num : BitVec 4) (code : BitVec 15), s.curInst? = some x →
    x.squash ≠ none →
    ∀ i ∈ [Instr.br off, .brc off, .brcn off, .brx, .call off, .callc off, .callx, .ret, .exit, .exitc, .barWait num near,
        .stgWait num near, .waitp num near, .ropeWait near, .abegin off, .acommit off, .trap code, .brk code, .hdone, .halt],
      s.Decides i .undecided)

/-- R274, R277, R279, R282: `bar.arrive`, `bar.drop`, `bar.init` and `stg.expect` on a named or stage barrier: an arrival is
counted, in 11 bits (R273), and its bit set, a drop counts as well, a broken barrier counts nothing, `bar.init` applies to a count of 1 to 1,024
where nothing has arrived or the barrier is broken, and `stg.expect` adds its signed delta. Nothing else changes. R280, R282:
`bar.init rope` sets the expected count of the thread's own group where nothing of the group has arrived, and the rope's
broken mark clears once every group of the rope that has not retired has run it (that the retired ones count is log entry 35). R358:
in a carrier group `bar.init` changes nothing. R274, R276, R277: at the end of a clk (`State.settleBar`) a barrier all of whose arrivals, and
of a stage barrier bytes, are there completes its phase: PH rises by one, CNT is 0, EXP is less the drops, the arrival bits of the group
are cleared and its waiters are filed from the next clk; a stage barrier whose bytes leave 0 to 2^47 - 1 breaks, and its waiter faults. -/
def Obligations.BarrierInstructions : Prop :=
  (∀ (s : State) (x : Inst) (b : BarRef) (k : Nat) (t1 t0 : Target) (a : Token), s.live x → s.has .a a →
    (b = .named (BitVec.ofNat 4 k) ∧ k < 16) ∨ (∃ n : BitVec 1, b = .stage n ∧ k = 16 + n.toNat) →
    let c := s.cur.core
    let sl := s.cur.slot
    let g := s.curThread.group
    let y := (s.group c g).bar k
    let cnt := a.nat % 2 ^ 32
    let arrives (drop : Bool) (delta : Int) (z : State) : State :=
      (z.modThread c sl fun t => { t with arrived := insertNat k t.arrived }).modGroup c g fun x =>
        { x with bars := Tbl.set x.bars k
                   { y with cnt := (y.cnt + 1) % 2 ^ 11, drop := if drop then (y.drop + 1) % 2 ^ 11 else y.drop,
                            bytes := y.bytes + delta } }
    (y.brk = none →
      s.Performs (.barArrive b t1) t1 .none doneTok nullTok (arrives false 0) ∧
      s.Performs (.barDrop b t1) t1 .none doneTok nullTok (arrives true 0)) ∧
    (y.brk ≠ none →
      s.Performs (.barArrive b t1) t1 .none doneTok nullTok id ∧ s.Performs (.barDrop b t1) t1 .none doneTok nullTok id) ∧
    ((s.group c g).carrier = false → 1 ≤ cnt → cnt ≤ 1024 → y.cnt = 0 ∨ y.brk ≠ none →
      s.Performs (.barInit b t1 t0) t1 t0 doneTok (predTok true) fun z =>
        (z.group c g).slots.foldl (fun z sl => z.modThread c sl fun t => { t with arrived := t.arrived.filter (· != k) })
          (z.modGroup c g fun x =>
            { x with bars := Tbl.set x.bars k { y with exp := cnt, cnt := 0, drop := 0, bytes := 0, brk := none } })) ∧
    ((s.group c g).carrier = true ∨ cnt < 1 ∨ 1024 < cnt ∨ (y.cnt ≠ 0 ∧ y.brk = none) →
      s.Performs (.barInit b t1 t0) t1 t0 doneTok (predTok false) id) ∧
    (∀ stg : Bool, k = (if stg then 17 else 16) →
      let delta : Int := if cnt < 2 ^ 31 then (cnt : Int) else cnt - 2 ^ 32
      (y.brk = none →
        (s.Performs (.stgExpect false stg t1) t1 .none doneTok nullTok fun z => z.modGroup c g fun x =>
          { x with bars := Tbl.set x.bars k { y with bytes := y.bytes + delta } }) ∧
        s.Performs (.stgExpect true stg t1) t1 .none doneTok nullTok (arrives false delta)) ∧
      (y.brk ≠ none → ∀ arr, s.Performs (.stgExpect arr stg t1) t1 .none doneTok nullTok id))) ∧
  (∀ (s : State) (x : Inst) (t1 t0 : Target) (a : Token), s.live x → s.has .a a →
    let c := s.cur.core
    let g := s.curThread.group
    let gr := s.group c g
    let gd := s.grid gr.grid
    let rope := gr.lin / gd.launch.ropeG
    let b := Tbl.get RopeBar.reset gd.ropes rope
    let cnt := a.nat % 2 ^ 32
    let inited := insertNat (gr.lin % gd.launch.ropeG) b.inited
    let every := ∀ k, k < gd.launch.ropeG → k ∈ inited ∨ k ∈ b.retired
    gr.carrier = false → 1 ≤ cnt → cnt ≤ 1024 → gr.ropeCnt = 0 ∨ b.brk = true →
    ∀ r : RopeBar, (b.brk = false → r = b) → (b.brk = true → every → r = { b with brk := false, inited := [] }) →
      (b.brk = true → ¬ every → r = { b with inited := inited }) →
      s.Performs (.barInit .rope t1 t0) t1 t0 doneTok (predTok true) fun z =>
        gr.slots.foldl (fun z sl => z.modThread c sl fun t => { t with arrived := t.arrived.filter (· != 18) })
          ((z.modGroup c g fun x => { x with ropeExp := cnt, ropeCnt := 0, ropeDrop := 0 }).modGrid gr.grid fun x =>
            { x with ropes := Tbl.set x.ropes rope r })) ∧
  (∀ (s : State) (c g k : Nat) (gr : Group), Tbl.find? (s.core c).groups g = some gr → (gr.bar k).brk = none →
    let y := gr.bar k
    let w := s.settleBar c g k
    (y.bytes < 0 ∨ 2 ^ 47 - 1 < y.bytes →
      ((w.group c g).bar k).brk = some .overrun ∧
      ∀ sl, gr.slots = [sl] → (s.thread c sl).place = .barrier k → (s.thread c sl).save = none → (s.thread c sl).region = none →
        (w.thread c sl).place = .fault ∧ ∃ tr, (w.thread c sl).trap = some tr ∧ tr.cause = .stageOverrun) ∧
    (0 ≤ y.bytes → y.bytes ≤ 2 ^ 47 - 1 →
      (y.cnt < max y.exp 1 ∨ (16 ≤ k ∧ y.bytes ≠ 0) → w = s) ∧
      (max y.exp 1 ≤ y.cnt → k < 16 ∨ y.bytes = 0 →
        ((w.group c g).bar k).ph = y.ph + 1 ∧ ((w.group c g).bar k).cnt = 0 ∧ ((w.group c g).bar k).exp = y.exp - y.drop ∧
        ((w.group c g).bar k).drop = 0 ∧ ((w.group c g).bar k).bytes = y.bytes ∧ ((w.group c g).bar k).brk = none ∧ w.mem = s.mem ∧
        ∀ sl ∈ gr.slots, k ∉ (w.thread c sl).arrived ∧
          ((s.thread c sl).place = .barrier k → (s.thread c sl).save = none → (s.thread c sl).holdArrive ≠ some k →
            (w.thread c sl).place = .filing 4 ∧ (w.thread c sl).filed = s.clk + 1 ∧ (w.thread c sl).next = (s.thread c sl).next))))

/-- R346, R354, R5: `aabort` marks the region with its code where no cause has arisen, `astat` emits the status of the
admission and its OPEN bit, `apin` emits its value without a tag. -/
def Obligations.RegionInstructions : Prop :=
  ∀ (s : State) (x : Inst) (t1 t0 : Target) (a : Token), s.live x → s.has .a a →
    (x.regionCause = none → s.Performs (.aabort t1) t1 .none doneTok nullTok fun z =>
      z.modInst s.cur.core s.cur.slot fun y =>
        { y with regionCause := some ⟨s.clk, s.cur.idx, 6, BitVec.ofNat 8 a.nat⟩ }) ∧
    (∀ r, x.regionCause = some r → r.clk ≠ s.clk ∨ r.idx ≤ s.cur.idx →
      s.Performs (.aabort t1) t1 .none doneTok nullTok id) ∧
    (∃ v1 v0, s.Sends (.astat t1 t0) 1 1 t1 t0 v1 v0 ∧ IsDword x.astat.toNat v0 ∧ IsPred (x.astat.getLsbD 0 = true) v1) ∧
    s.Performs (.apin t1 t0) t1 t0 doneTok { a with tag := none } id

/-- R421, R422, R427: `syswr` writes a[63:0] when it is performed: a register of the thread takes the bits that R421 gives it
(`fp.mode` with the commit of its block, R180), one of its group takes them at the end of the clk, `thr.fail` clears the bits that are written as 1, a heap register takes effect 80 clk later, a register
that is read-only keeps its value; in user mode a write of `trap.base` or of `preempt.limit` is a permission fault instead.
R425, R428, R429, R457: `cfginv` is noted to be performed 120 clk after its firing; `cairn` offers the die's trace unit one
record with its code, payload, timestamp and source, and is performed when the unit accepts it; `eret` in privileged mode reads the 16 bytes of its active record. -/
def Obligations.SystemRegisters : Prop :=
  (∀ (s : State) (x : Inst) (r : BitVec 6) (t1 : Target) (a : Token), s.live x → s.has .a a →
    let c := s.cur.core
    let sl := s.cur.slot
    let g := s.curThread.group
    let n := r.toNat
    let v := a.nat
    let bits (hi lo : Nat) : DWord := BitVec.ofNat 64 (v / 2 ^ lo % 2 ^ (hi + 1 - lo) * 2 ^ lo)
    let writes (f : State → State) : Prop := s.Performs (.syswr r t1) t1 .none doneTok nullTok f
    let thread (f : Thread → Thread) : State → State := fun z => z.modThread c sl f
    let group (f : Group → Group) : State → State := fun z => z.modGroup c g f
    let heap (spread : Bool) (w : DWord) : State → State := fun z => z.modGrid (s.group c g).grid fun y =>
      { y with heap := y.heap.map fun h => { h with effects := h.effects ++ [(s.clk + 80, spread, w)] } }
    (n = 2 → writes fun z => z.modInst c sl fun y => { y with fpNext := some (BitVec.ofNat 2 v) }) ∧
    (n = 3 → x.priv = true → writes (thread fun t => { t with trapBase := bits 55 10 })) ∧
    (n = 9 → writes (thread fun t => { t with failMask := t.failMask &&& ~~~(BitVec.ofNat 64 v) })) ∧
    (n ∈ [10, 11, 12, 13] ∨ (n = 14 ∧ x.priv = true) →
      writes (group fun t => { t with late := t.late ++ [(n, BitVec.ofNat 64 v)] })) ∧
    (∀ y : Group,
      let h := y.settleRegs
      ({ y with late := y.late ++ [(n, BitVec.ofNat 64 v)] } : Group).settleRegs =
        if n = 10 then { h with gatherDefault := bits 11 2 }
        else if n = 11 then { h with gatherFill := bits 10 0 }
        else if n = 12 then { h with barTimeout := bits 63 63 ||| bits 31 0 }
        else if n = 13 then { h with regionRetry := bits 7 0 }
        else if n = 14 then { h with preemptLimit := bits 31 0 }
        else h) ∧
    (n = 17 → writes (heap false (BitVec.ofNat 64 v))) ∧
    (n = 19 → writes (heap true (bits 3 0))) ∧
    (n ∉ [2, 3, 9, 10, 11, 12, 13, 14, 17, 19] → writes id) ∧
    (n = 3 ∨ n = 14 → x.priv = false → writes fun z => z.modInst c sl fun y =>
      { y with faults := y.faults ++
          [⟨.permission, s.cur.idx, 0, BitVec.ofNat 64 (s.cur.idx % 256 * 2 ^ 8 + 5 * 2 ^ 5 + 3)⟩] })) ∧
  (∀ (s : State) (x : Inst) (code : BitVec 15) (next : Bool) (t1 t0 : Target) (a b : Token), s.live x →
    let c := s.cur.core
    let d := c / 256
    let u := (s.die d).trace
    let rec_ : TraceRec := ⟨s.tsc d, c, 2, s.aspOf c s.cur.slot, code.setWidth 32, BitVec.ofNat 64 a.nat,
      x.blk.setWidth 64, some (s.cur.slot, s.cur.idx, t0)⟩
    (s.has .a a → s.has .b b → ∃ t w, exec (.cfginv t1) s = .next t ∧ Fired s w 1 (x.consume s.clk s.cur.idx) ∧
      t = { w with cfginvs := s.cfginvs ++
        [(c, s.cur.slot, s.cur.idx, s.clk + 120, a.nat % 2 ^ 56, min b.lo (2 ^ 56))] }) ∧
    (s.has .a a →
      (u.en = true → u.mask.getLsbD 0 = true → d ∉ s.mgmt.absent → (s.die d).dead = false →
        ∃ t w, exec (.cairn code t0) s = .next t ∧ Fired s w 1 (x.consume s.clk s.cur.idx) ∧
          t = w.modDie d fun y => { y with trace := { u with offered := u.offered ++ [rec_] } }) ∧
      (∀ z : State, ∀ y, (z.thread c s.cur.slot).inst = some y → y.squash = none →
        z.acceptCairn d rec_ s.cur.slot s.cur.idx t0 =
          (z.acceptTrace d { rec_ with ts := z.tsc d, who := none }).modThread c s.cur.slot fun t =>
            { t with inst := some (((y.perform s.cur.idx).deliver z.clk s.cur.idx t0 doneTok).complete z.clk) }) ∧
      (u.en = false ∨ u.mask.getLsbD 0 = false → s.Performs (.cairn code t0) .none t0 nullTok doneTok id)) ∧
    (x.priv = true →
      let area := s.threadArea c s.cur.slot
      let va := area + (if s.curThread.nestOpen then 288 else 256)
      ∃ t w, exec (.eret next) s = .next t ∧
        (let y := x.consume s.clk s.cur.idx
         Fired s w 1 { y with reqs := y.reqs ++
           [⟨s.cur.idx, .record, BitVec.ofNat 64 va, 16, .walking, [], .coherent, 0, 0, none, .none, .none, [], 0⟩] }) ∧
        t = w.judgeReq c s.cur.slot s.cur.idx) ∧
    (x.priv = false → x.region = none → ∃ t w, exec (.eret next) s = .next t ∧
      Decided s w (.fault ⟨.permission, s.cur.idx, 0, BitVec.ofNat 64 (s.cur.idx % 256 * 2 ^ 8 + 5 * 2 ^ 5 + 3)⟩) ∧
      t = w.judgedAt c s.cur.slot s.cur.idx))

/-! ## Memory, consistency and atomics (spec/11, spec/12, spec/13) -/

/-- R119, R221, R225-R229, R231, R232: each memory instruction with an address that is not null (and data that is not null) makes
the request of its kind and size at a[63:0] of the core's memory ports; one that a port takes is judged at once; a store keeps the tag of its data where its address has
none and its size is at most b64 (R339, R341). -/
def Obligations.MemoryRequests : Prop :=
  ∀ (s : State) (x : Inst) (z : Size) (p : Scope) (l2 : Bool) (n : BitVec 6) (t1 t0 : Target) (a c : Token), s.live x →
    s.has .a a →
    let idx := s.cur.idx
    let req (kind : ReqKind) (bytes : Nat) (t1 t0 : Target) : Req :=
      ⟨idx, kind, BitVec.ofNat 64 a.nat, bytes, .walking, [], .coherent, 0, 0, none, t0, t1, [], 0⟩
    let stored (kind : ReqKind) : Req := { (req kind (sizeBytes z) t1 .none) with
      data := c.data, tag := if a.tag = none ∧ sizeBytes z ≤ 8 then c.tag else none }
    let makes (i : Instr) (r : Req) : Prop := s.Requests i r
    makes (.ld z t1 t0) (req .load (sizeBytes z) t1 t0) ∧
    makes (.lds z t1 t0) (req .lds (sizeBytes z) t1 t0) ∧
    makes (.ldAcq z p t1 t0) (req (.loadAcq p) (sizeBytes z) t1 t0) ∧
    makes (.ldnc z t1 t0) (req .loadNc (sizeBytes z) t1 t0) ∧
    makes (.ldd z t1 (.live n)) (req (.deferred n.toNat false) (sizeBytes z) t1 .none) ∧
    makes (.ldd z t1 (.pairLive n)) (req (.deferred n.toNat true) (sizeBytes z) t1 .none) ∧
    makes (.cinv t1) (req .cinv 1 t1 .none) ∧
    makes (.cwb t1) (req .cwb 1 t1 .none) ∧
    makes (.probe t1 t0) (req .probe 1 t1 t0) ∧
    makes (.prefetch l2 t1) (req (.prefetch l2) 1 t1 .none) ∧
    (s.has .c c → makes (.st z t1) (stored .store) ∧ makes (.stRel z p t1) (stored (.storeRel p)) ∧
      makes (.stnc z t1) (stored .storeNc))

/-- R131, R221, R225-R228, R238, R241: what the judgement of a request makes of its thread, in an instance that is in no
region: a load stands translated, to be performed; a store or cache operation has entered the store buffer, among the entries
of its instance in the order of the instruction index, and completed; a deferred load is under way, after the deferred loads that come before it (R235), and has completed; what is to be read comes no
sooner than the latency of R21; a request whose page is not at hand waits for a walk; a failed one squashes the
instance with the fault of R221. R133, R215, R221: a request whose page is not in the TLB stands for a walk; one that fails
squashes its instance: its fault is recorded, its buffered stores, deferred loads and live-out writes are discarded, and it
completes with null results (an atomic's or a frame's still stands unfired). R119: a request that waits for a port is not judged. -/
def Obligations.RequestOutcomes : Prop :=
  (∀ (u : State) (c sl : Nat) (x : Inst) (r : Req), (u.thread c sl).inst = some x → x.req? r.idx = some r →
    r.stage ≠ .queued → x.region = none → (u.thread c sl).region = none → x.squash = none →
    let b := ((u.core c).context x.ctx).block
    let y := x.passes b u.clk r.idx
    let th (f : Thread → Thread) : Prop := u.judgeReq c sl r.idx = u.modThread c sl f
    let ready (gs : List Seg) (mt : MemType) : Req := { r with segs := gs, mt := mt, stage := .ready }
    let comes (home : Bool) (gs : List Seg) : Nat := u.clk + (u.readLatency c home gs - 1)
    ∀ gs mt, match r.kind with
      | .load | .lds | .loadAcq _ | .loadNc =>
        u.judge (u.accessor c sl) r.row r.va.toNat r.bytes r.segs r.mt = .ok gs mt →
          th fun t => { t with inst := some (y.setReq { ready gs mt with due := comes (r.kind == .loadNc) gs }) }
      | .store | .storeRel _ | .storeNc | .cwb | .cinv =>
        u.judge (u.accessor c sl) r.row r.va.toNat r.bytes r.segs r.mt = .ok gs mt →
          th fun t => { t with
            inst := some (y.spends u.clk r doneTok doneTok)
            buf := insertBuf ⟨r.idx, bufKindOf r.kind, r.va, gs, mt, natToBytes r.bytes r.data.toNat, r.tag, false, false, 0, [],
              false, 0, false, 0⟩ t.buf }
      | .deferred slot wide =>
        u.judge (u.accessor c sl) r.row r.va.toNat r.bytes r.segs r.mt = .ok gs mt → r.t0 = .none →
          th fun t => { t with
            inst := some (y.spends u.clk r doneTok nullTok)
            deferred := t.deferred ++ [⟨r.idx, x.blk, slot, wide, r.va, r.bytes, gs, mt, false, none, [], t.epoch, false,
              comes false gs, (t.deferred.filter fun d => d.fenced || (!d.committed && b.leads d.idx r.idx)).map fun d =>
                (d.epoch, d.idx)⟩] }
      | .probe =>
        r.stage = .ready ∨ 2 ^ 56 ≤ r.va.toNat →
          th fun t => { t with inst := some (y.spends u.clk r doneTok (dword (u.probeWord c sl r.va.toNat))) }
      | .atomic _ _ _ | .frame =>
        u.judge (u.accessor c sl) r.row r.va.toNat r.bytes r.segs r.mt = .ok gs mt →
          th fun t => { t with inst := some (y.setReq (ready gs mt)) }
      | .record =>
        u.judge (u.accessor c sl) r.row r.va.toNat r.bytes r.segs r.mt = .ok gs mt →
          th fun t => { t with inst := some (y.setReq { ready gs mt with due := comes false gs }) }
      | .prefetch l2 =>
        u.judgeReq c sl r.idx =
          (((u.modThread c sl fun t => { t with inst := some y }).prefetchLine c sl l2 r.va.toNat).finishReq c sl r.idx r.t1 .none
            doneTok nullTok)
      | .descriptor => True) ∧
  (∀ (u : State) (c sl : Nat) (x : Inst) (r : Req), (u.thread c sl).inst = some x → x.req? r.idx = some r →
    r.stage = .queued → u.judgeReq c sl r.idx = u) ∧
  (∀ (u : State) (c sl : Nat) (x : Inst) (r : Req), (u.thread c sl).inst = some x → x.req? r.idx = some r →
    x.region = none → r.kind ≠ .probe → (∀ l2, r.kind ≠ .prefetch l2) → r.stage ≠ .queued →
    (∀ va gs mt, u.judge (u.accessor c sl) r.row r.va.toNat r.bytes r.segs r.mt = .miss va gs mt →
      u.judgeReq c sl r.idx = u.modThread c sl fun t =>
        { t with inst := some (x.setReq { r with segs := gs, mt := mt, stage := .walking, due := u.clk + 24 }) }) ∧
    (∀ cause va why lvl, u.judge (u.accessor c sl) r.row r.va.toNat r.bytes r.segs r.mt = .bad cause va why lvl →
      let f : ThreadFault := ⟨cause, r.idx, if r.kind = .record then r.va else BitVec.ofNat 64 va,
        BitVec.ofNat 64 (r.idx % 256 * 2 ^ 8 + r.row.kind * 2 ^ 5 + lvl * 2 ^ 3 + why)⟩
      let y : Inst := { x with squash := some (x.squash.getD f), liveOut := [],
                               reqs := x.reqs.filter fun q => q.idx != r.idx }
      u.judgeReq c sl r.idx = u.modThread c sl fun t =>
        { t with
          buf := t.buf.filter (·.committed)
          deferred := t.deferred.filter (·.committed)
          inst := some (match r.kind with
            | .atomic _ _ _ | .frame | .descriptor => y
            | _ => y.spends u.clk r nullTok nullTok) })) ∧
  (∀ (e : BufEntry) (l : List BufEntry), e.committed = false →
    ∃ a b, l = a ++ b ∧ insertBuf e l = a ++ e :: b ∧ (∀ f ∈ a, f.committed = true ∨ f.idx ≤ e.idx) ∧
      ∀ f, b.head? = some f → f.committed = false ∧ e.idx < f.idx)

/-- R220: what a leaf entry lets an access do, in the rows that R220 gives: user mode needs U; loads need R, stores W, atomics
R, W and AT, cache operations R; device registers accept only `ldnc` and `stnc` of 4 or 8 aligned bytes; acquiring and
releasing accesses and atomics need coherent memory. -/
def Obligations.PagePermissions : Prop :=
  ∀ (s : State) (user : Bool) (va bytes at_ : Nat) (e : DWord),
    let w (row : AccessRow) := judgeLeaf s row user va bytes at_ e
    let bit (i : Nat) := e.getLsbD i
    let mt := e.toNat / 2 ^ 9 % 4
    (user = true → bit 7 = false → ∀ row, w row = some (.permission, 3)) ∧
    (user = false ∨ bit 7 = true → mt ≤ 1 →
      (∀ row ∈ [AccessRow.load, .loadNc], w row = none ↔ bit 4 = true) ∧
      (∀ row ∈ [AccessRow.store, .storeNc], w row = none ↔ bit 5 = true) ∧
      (w .cacheOp = none ↔ bit 4 = true)) ∧
    (user = false ∨ bit 7 = true → mt = 0 →
      (w .loadAcq = none ↔ bit 4 = true) ∧ (w .storeRel = none ↔ bit 5 = true) ∧
      (∀ cas, w (.atomic cas) = none ↔ bit 4 = true ∧ bit 5 = true ∧ bit 8 = true)) ∧
    (user = false ∨ bit 7 = true → mt = 1 →
      w .loadAcq ≠ none ∧ w .storeRel ≠ none ∧ w (.atomic false) ≠ none) ∧
    (user = false ∨ bit 7 = true → mt = 2 →
      w .load ≠ none ∧ w .store ≠ none ∧ w .loadAcq ≠ none ∧ w .storeRel ≠ none ∧ w .cacheOp ≠ none ∧
      (∀ cas, w (.atomic cas) ≠ none) ∧
      (w .loadNc = none ↔ bit 4 = true ∧ (bytes = 4 ∨ bytes = 8) ∧ va % bytes = 0) ∧
      (w .storeNc = none ↔ bit 5 = true ∧ (bytes = 4 ∨ bytes = 8) ∧ va % bytes = 0))

/-- R129, R233: a memory instruction with a null address, or a store with null data, sends nothing and emits null. R129, R237:
an engine command with a null operand is not sent: it emits null at once and counts as performed. -/
def Obligations.NullOperands : Prop :=
  (∀ (s : State) (x : Inst) (z : Size) (p : Scope) (l2 : Bool) (t1 t0 : Target), s.curInst? = some x →
    let c := s.cur.core
    let nulls (i : Instr) (t1 t0 : Target) : Prop := ∃ t w, exec i s = .next t ∧
      Emitted s w 1 1 t1 t0 nullTok nullTok ∧ t = w.judgedAt c s.cur.slot s.cur.idx
    ((s.opTok .a).null = true ∨ x.squash ≠ none →
      nulls (.ld z t1 t0) t1 t0 ∧ nulls (.lds z t1 t0) t1 t0 ∧ nulls (.ldAcq z p t1 t0) t1 t0 ∧
      nulls (.ldnc z t1 t0) t1 t0 ∧ nulls (.ldd z t1 t0) t1 .none ∧ nulls (.cinv t1) t1 .none ∧
      nulls (.cwb t1) t1 .none ∧ nulls (.probe t1 t0) t1 t0 ∧ nulls (.prefetch l2 t1) t1 .none) ∧
    ((s.opTok .a).null = true ∨ (s.opTok .c).null = true ∨ x.squash ≠ none →
      nulls (.st z t1) t1 .none ∧ nulls (.stRel z p t1) t1 .none ∧ nulls (.stnc z t1) t1 .none)) ∧
  (∀ (s : State) (x : Inst) (acq chain : Bool) (ch : BitVec 4) (m : CvtMod) (t1 t0 : Target), s.curInst? = some x →
    let nulls (i : Instr) (t0 : Target) : Prop := ∃ t, exec i s = .next t ∧ Fired s t 1
      (((x.consume s.clk s.cur.idx).produce s.clk s.cur.idx 0 t1 t0 nullTok nullTok).perform s.cur.idx)
    (x.squash ≠ none ∨ (s.opTok .a).null = true →
      ∀ e ∈ [(Instr.cwptr acq ch t1 t0, t0), (.cchan ch t1 t0, t0), (.mgang t1 t0, t0), (.mchan t1 t0, t0),
        (.tlaunch chain t1, .none), (.trst t1, .none), (.tval t1 t0, t0), (.hdep t1 t0, t0), (.hresid t1 t0, t0),
        (.hself t1 t0, t0), (.twin t1, .none), (.tcode t1 t0, t0), (.hgainAdd t1 t0, t0), (.hgainMax t1 t0, t0),
        (.hgainSet t1 t0, t0)], nulls e.1 e.2) ∧
    (∀ b, s.opTok? .b = some b → b.null = true → nulls (.hdep t1 t0) t0) ∧
    (x.squash ≠ none ∨ (s.opTok .a).null = true ∨ (s.opTok .b).null = true →
      ∀ e ∈ [(Instr.twin t1, Target.none), (.tcode t1 t0, t0), (.hgainAdd t1 t0, t0), (.hgainMax t1 t0, t0),
        (.hgainSet t1 t0, t0)], nulls e.1 e.2) ∧
    (x.squash ≠ none ∨ s.guardTrue = false ∨ (s.opTok .a).null = true ∨ (s.opTok .b).null = true →
      s.Sends (.cvtCh m t1 t0) (if m.dest = .f64 then 4 else 1) 1 t1 t0 nullTok nullTok))

/-- R229, R230, R251, R252, R258: a fence emits its completion, and it may fire only at its completion point: no committed
deferred load of the thread is still to be filled, and none of its own instance that a token path puts before it is still to
be performed; for a fence that releases, no committed store of the thread is still to be performed; for `fence.eng` also no
engine command of the thread is under way. (That an acquiring fence at device or system scope waits for the entries whose
bytes a read has taken is the model's choice, log entry 12.) `fence.eng` also notes the clk, for the reads of engine
commands after it (R258). `prefetch` changes no byte of memory; it fills the TLBs with its
successful walk (R217), and fetches only a coherent line whose address would not fault (for a load of it, which is the model's
choice, log entry 55), that no lock and no engine holds and whose home grants it. -/
def Obligations.FencesAndPrefetch : Prop :=
  ∀ (s : State) (x : Inst) (k : FenceKind) (p : Scope) (l2 : Bool) (t1 : Target), s.live x →
    s.Sends (.fence k p t1) 1 1 t1 .none doneTok nullTok ∧
    (∃ t, exec (.fenceEng t1) s = .next t ∧
      Emitted (s.modThread s.cur.core s.cur.slot fun y => { y with engFence := s.clk }) t 1 1 t1 .none doneTok nullTok) ∧
    (∀ b, x.region = none → b = ((s.core s.cur.core).context x.ctx).block →
      s.ready s.cur.core s.cur.slot s.cur.idx = true →
      let th := s.curThread
      let filled := ∀ d ∈ th.deferred, d.committed = false ∧ (d.returned = none → b.leads d.idx s.cur.idx = false)
      let stored := ∀ e ∈ th.buf, e.committed = false
      (b.opAt s.cur.idx = 0x89 → b.instr? s.cur.idx = some (.fence k p t1) → filled ∧
        (k = .acq → p = .device ∨ p = .system → ∀ e ∈ th.buf, e.committed = false ∨ e.seen = false) ∧ (k ≠ .acq → stored)) ∧
      (b.opAt s.cur.idx = 0x8a → b.instr? s.cur.idx = some (.fenceEng t1) → filled ∧ stored ∧
        s.threadEnginesDone s.cur.core s.cur.slot = true)) ∧
    (∀ (u : State) (c sl va : Nat),
      let w : Accessor := { u.accessor c sl with region := false }
      let t := u.walked w va 1
      (u.prefetchLine c sl l2 va).mem = u.mem ∧
      (∀ gs v, u.judgeWalk w .load va 1 = .ok gs .coherent → t.lineHeld gs c none = false → t.obtain c gs false = (v, true) →
        u.prefetchLine c sl l2 va = v.cacheLines c (!l2) gs) ∧
      ((∀ gs, u.judgeWalk w .load va 1 ≠ .ok gs .coherent) → u.prefetchLine c sl l2 va = t) ∧
      (∀ gs, u.judgeWalk w .load va 1 = .ok gs .coherent → t.lineHeld gs c none = true → u.prefetchLine c sl l2 va = t))

/-- R221, R237, R238, R264-R268, R270, R271: every atomic first has its address judged, then, when R238 lets it fire, goes by a
memory port, at once or after those that wait (R119), into the
queue of the tile of its place with its operation and operands, behind what an engine owns there (R256), and counts as performed; an atomic to non-coherent host memory
first has the die's copies of its lines written back and discarded; with a null operand it performs nothing and emits null. R269: new value, whether it is written, and the predicate of each atomic operation at a
width of `bytes`, from the old value and the operands b and c. -/
def Obligations.AtomicRequests : Prop :=
  (∀ (s : State) (x : Inst) (z : Size) (p : Scope) (t1 t0 : Target) (a b d : Token) (e : Instr × AtomicOp × Option Scope × Bool),
    s.live x → s.opTok? .a = some a →
    let none_ : Option Scope := none
    e ∈ [(Instr.aadd z t1 t0, AtomicOp.add, none_, true), (.aaddAr z p t1 t0, .add, some p, true),
      (.amin z t1 t0, .minS, none, true), (.aminAr z p t1 t0, .minS, some p, true), (.amax z t1 t0, .maxS, none, true),
      (.amaxAr z p t1 t0, .maxS, some p, true), (.aminn z t1 t0, .minN, none, true), (.amaxn z t1 t0, .maxN, none, true),
      (.aand z t1 t0, .and, none, true), (.aandAr z p t1 t0, .and, some p, true), (.aor z t1 t0, .or, none, true),
      (.aorAr z p t1 t0, .or, some p, true), (.axor z t1 t0, .xor, none, true), (.axorAr z p t1 t0, .xor, some p, true),
      (.axchg z t1 t0, .xchg, none, true), (.axchgAr z p t1 t0, .xchg, some p, true), (.acas z t1 t0, .cas, none, true),
      (.acasAr z p t1 t0, .cas, some p, true), (.ainc z t1 t0, .inc, none, true), (.adec z t1 t0, .dec, none, true),
      (.aaddb z t1 t0, .addb, none, true), (.aaddbAr z p t1 t0, .addb, some p, true), (.afadd z t1 t0, .fadd, none, true),
      (.afadd2 z t1 t0, .fadd2, none, true), (.afmin z t1 t0, .fmin, none, true), (.afmax z t1 t0, .fmax, none, true),
      (.aredAdd z t1, .add, none, false), (.aredFadd z t1, .fadd, none, false), (.aredMin z t1, .minS, none, false),
      (.aredMax z t1, .maxS, none, false), (.aredOr z t1, .or, none, false), (.aredAnd z t1, .and, none, false)] →
    let c := s.cur.core
    let sl := s.cur.slot
    let idx := s.cur.idx
    let T0 := if e.2.2.2 then t0 else .none
    let r : Req := ⟨idx, .atomic e.2.1 e.2.2.1 e.2.2.2, BitVec.ofNat 64 a.nat, sizeBytes z, .walking, [], .coherent, 0, 0, none,
      T0, t1, [], 0⟩
    (x.judged.contains idx = false → a.null = false →
      exec e.1 s = .next ((s.modInst c sl fun y => { y with reqs := y.reqs ++ [r] }).judgeReq c sl idx)) ∧
    (x.judged.contains idx = false → a.null = true → exec e.1 s = .next (s.judgedAt c sl idx)) ∧
    (∀ q, x.judged.contains idx = true → a.null = false → s.has .c d →
      (if e.2.1 = .cas ∨ e.2.1 = .addb then s.has .b b else s.opTok .b = b) → x.req? idx = some q → q.kind = .atomic e.2.1 e.2.2.1 e.2.2.2 →
      let free := (s.core c).memQ = [] ∧ (s.core c).memTaken s.clk < 4
      let sent : Req := { q with t1 := t1, t0 := T0, cmp := b.data, data := d.data, stage := if free then q.stage else .queued }
      ∃ t w, exec e.1 s = .next t ∧
        (let y := x.consume s.clk idx
         Fired s w 1 { ((y.setReq sent).addWatch (s.watchOf c sl idx false q.va.toNat q.bytes)) with
           atomicWrites := y.atomicWrites ++ [(idx, q.va, q.bytes)] }) ∧
        (¬ free → t = w.modCore c fun y => { y with memQ := y.memQ ++ [(sl, idx)] }) ∧
        (free → t = (w.modCore c fun y => { y with memAt := s.clk, memUsed := y.memTaken s.clk + 1 }).sendAtomic c sl sent)) ∧
    (x.judged.contains idx = true → a.null = true ∨ (s.opTok .c).null = true →
      ∃ t w, exec e.1 s = .next t ∧ Emitted s w 1 1 t1 T0 nullTok nullTok ∧ t = w.modInst c sl fun y =>
        { y with performed := insertNat idx y.performed, reqs := y.reqs.filter fun q => q.idx != idx })) ∧
  (∀ (s : State) (c sl : Nat) (q : Req) (op : AtomicOp) (ar : Option Scope) (ret : Bool), q.kind = .atomic op ar ret →
    let v := if q.mt = .nonCoherent then s.clearNc (dieOf c) q.segs else s
    let place := tileOf s c q.mt (match q.segs with | g :: _ => g.loc | [] => 0)
    let owned := (segLines q.segs).any fun l => s.owned.any fun e => e.1 == l
    s.sendAtomic c sl q =
      (v.modInst c sl fun y => { y with performed := insertNat q.idx y.performed }.setReq { q with stage := .sent }).modDie place.1
        fun die => { die with tiles := insertAtomic ⟨place.1, place.2, c, sl, q.idx, op, q.bytes, q.segs, q.mt, q.cmp, q.data, ret,
          s.clk, s.clk + (s.atomicLatency c q - 1), owned, none⟩ die.tiles }) ∧
  (∀ (bytes old b c : Nat), bytes ∈ [1, 2, 4, 8, 16] → old < 2 ^ (8 * bytes) → b < 2 ^ (8 * bytes) → c < 2 ^ (8 * bytes) →
    let N := 8 * bytes
    let signed (v : Nat) : Int := if v < 2 ^ (N - 1) then (v : Int) else (v : Int) - 2 ^ N
    let f (op : AtomicOp) := atomicEval op bytes old b c
    f .add = ((old + c) % 2 ^ N, true, false) ∧
    f .minS = (if signed c < signed old then c else old, true, false) ∧
    f .maxS = (if signed old < signed c then c else old, true, false) ∧
    f .minN = (min old c, true, false) ∧ f .maxN = (max old c, true, false) ∧
    (∀ i, (f .and).1.testBit i = (old.testBit i && c.testBit i)) ∧ (∀ i, (f .or).1.testBit i = (old.testBit i || c.testBit i)) ∧
    (∀ i, (f .xor).1.testBit i = (old.testBit i != c.testBit i)) ∧
    f .xchg = (c, true, false) ∧ f .cas = (c, decide (old = b), decide (old = b)) ∧
    f .inc = (if old ≥ c then 0 else old + 1, true, false) ∧
    f .dec = (if old = 0 ∨ old > c then c else old - 1, true, false) ∧
    f .addb = ((old + c) % 2 ^ N, decide (old + c ≤ b), decide (old + c ≤ b)) ∧
    (∀ fmt, (bytes = 4 ∧ fmt = fmtF32) ∨ (bytes = 8 ∧ fmt = fmtF64) →
      let X := fmt.value old
      let Y := fmt.value c
      f .fadd = (fmt.round .rne (sumNum .rne [X, Y]), true, false) ∧ (f .fmin).2 = (true, false) ∧ (f .fmax).2 = (true, false) ∧
      (X = .nan → Y = .nan → (f .fmin).1 = fmt.canonNaN ∧ (f .fmax).1 = fmt.canonNaN) ∧
      (X = .nan → Y ≠ .nan → (f .fmin).1 = c ∧ (f .fmax).1 = c) ∧ (X ≠ .nan → Y = .nan → (f .fmin).1 = old ∧ (f .fmax).1 = old) ∧
      (X.lt Y = true → (f .fmin).1 = old ∧ (f .fmax).1 = c) ∧ (Y.lt X = true → (f .fmin).1 = c ∧ (f .fmax).1 = old) ∧
      (∀ n e g, X = .fin n 0 e → Y = .fin (!n) 0 g → fmt.neg (f .fmin).1 = true ∧ fmt.neg (f .fmax).1 = false)) ∧
    (bytes = 4 →
      let lane (v w : Nat) := fmtBf16.round .rne (sumNum .rne [fmtBf16.value v, fmtBf16.value w])
      f .fadd2 = (lane (old % 2 ^ 16) (c % 2 ^ 16) + 2 ^ 16 * lane (old / 2 ^ 16) (c / 2 ^ 16), true, false)))

/-! ## Engine commands (spec/14 to spec/18) -/

/-- R119, R129, R189: the engine commands without an address reach the engine port with their operands when none of them is
null; with a null operand nothing is sent, null is emitted, and the command counts as performed. -/
def Obligations.EngineCommands : Prop :=
  ∀ (s : State) (x : Inst) (acq chain : Bool) (ch : BitVec 4) (m : CvtMod) (t1 t0 : Target) (a b : Token), s.live x →
    s.has .a a →
    let A : DWord := BitVec.ofNat 64 a.nat
    let B : DWord := BitVec.ofNat 64 b.nat
    let W (v : Token) : Word := BitVec.ofNat 32 v.nat
    (∀ e ∈ [(Instr.cwptr acq ch t1 t0, EngOp.cwptr acq ch.toNat, t0), (.cchan ch t1 t0, .cchan ch.toNat (a.nat.testBit 0), t0),
        (.mgang t1 t0, .mgang A, t0), (.mchan t1 t0, .mchan A, t0), (.tlaunch chain t1, .tlaunch chain, .none),
        (.trst t1, .trst, .none), (.tval t1 t0, .tval A, t0), (.hresid t1 t0, .hresid, t0), (.hself t1 t0, .hself, t0)],
      s.Reaches e.1 id e.2.1 t1 e.2.2) ∧
    ((∀ v, s.opTok? .b = some v → v.null = false) → s.Reaches (.hdep t1 t0) id (.hdep (W a)) t1 t0) ∧
    (s.has .b b →
      (∀ e ∈ [(Instr.twin t1, EngOp.twin A B, Target.none), (.tcode t1 t0, .tcode A B, t0),
          (.hgainAdd t1 t0, .hgain 0 (W a) (W b), t0), (.hgainMax t1 t0, .hgain 1 (W a) (W b), t0),
          (.hgainSet t1 t0, .hgain 2 (W a) (W b), t0)],
        s.Reaches e.1 id e.2.1 t1 e.2.2) ∧
      (s.guardTrue = true →
        s.ReachesFor (if m.dest = .f64 then 4 else 1) (.cvtCh m t1 t0) id (.cvtch m A B) t1 t0))

/-- R238, R296, R304, R332, R383: the commands with an address are checked first: a check that passes keeps the places it
found and reaches the instance's check point; once checked, the command reaches the engine port with them. -/
def Obligations.AddressedCommands : Prop :=
  ∀ (s : State) (x : Inst) (f : Bool) (ch : BitVec 4) (t1 t0 : Target) (a b d : Token), s.live x → s.has .a a →
    let c := s.cur.core
    let sl := s.cur.slot
    let idx := s.cur.idx
    let ctl : DWord := BitVec.ofNat 64 d.nat
    let stands (segs : List Seg) (ra rb : Nat) : State :=
      (s.modInst c sl fun y => { y with reqs := y.reqs ++
        [⟨idx, .descriptor, 0, ra, .ready, segs, .coherent, BitVec.ofNat 128 rb, 0, none, .none, .none, [], 0⟩] }).judgedAt c sl idx
    let checked (i : Instr) (k : AddrCheck) : Prop := ∀ segs ra rb, k = .pass segs ra rb → exec i s = .next (stands segs ra rb)
    (x.judged.contains idx = false →
      checked (.cpy ch t1 t0) (s.copyAddr a.lo) ∧ checked (.cpyColl ch t1 t0) (s.copyAddr a.lo) ∧
      checked (.tcap t1) (s.tempAddr a.lo 64 1) ∧
      exec (.hspawn t1 t0) s = .next ((s.modInst c sl fun y => { y with reqs := y.reqs ++
        [⟨idx, .frame, BitVec.ofNat 64 a.nat, 64, .walking, [], .coherent, 0, 0, none, t0, t1, [], 0⟩] }).judgeReq c sl idx) ∧
      (s.has .c d →
        checked (.maccLd f t1) (s.maccCheck (.ld f) 0) ∧ checked (.maccSt f t1) (s.maccCheck (.st f) 1) ∧
        checked (.tload f t1) (s.tempAddr a.lo (tloadBytes f ctl) 0) ∧
        (s.has .b b → checked (.mma t1) s.mmaCheck))) ∧
    (∀ r, x.judged.contains idx = true → x.req? idx = some r →
      let drop (y : Inst) : Inst := { y with reqs := y.reqs.filter fun q => q.idx != idx }
      s.Reaches (.cpy ch t1 t0) drop (.cpy false ch.toNat r.segs) t1 t0 ∧
      s.Reaches (.cpyColl ch t1 t0) drop (.cpy true ch.toNat r.segs) t1 t0 ∧
      s.Reaches (.tcap t1) drop (.tcap r.segs) t1 .none ∧
      (s.has .b b → s.Reaches (.hspawn t1 t0) drop (.hspawn r.segs (BitVec.ofNat 64 b.nat)) t1 t0) ∧
      (s.has .c d →
        s.Reaches (.maccLd f t1) drop (.maccLd f a.data ctl r.bytes) t1 .none ∧
        s.Reaches (.maccSt f t1) drop (.maccSt f a.data ctl r.bytes) t1 .none ∧
        s.Reaches (.tload f t1) drop (.tload f r.segs ctl) t1 .none ∧
        (s.has .b b → s.Reaches (.mma t1) drop (.mma a.data b.data ctl r.bytes r.cmp.toNat) t1 .none)))

/-- R281, R284-R288, R297: acceptance of the copy commands: a good descriptor advances the channel's issue pointer by its
bytes, puts the copy in flight, takes its destination lines (R256), behind which the
atomics that waited keep their place (R265), and answers the pointer (the entries of its own buffer that it read are marked, log entry 12); a bad one is an engine fault with
its code; `cwptr` answers the channel's status, and with `.acq` is an acquire; `cchan` configures or frees the channel, whose
runs under way go on. R189, R237: what a command that the port has finished with makes of
its instance: it counts as performed; its tokens leave in that clk and it completes, or they leave `lat` clk later. R205,
R206: acceptance of `cvt.ch`: the element, decoded by its channel entry and scaled, converted to the destination 6 clk later,
or 12 for an ex8 entry; a channel or format error is an engine fault with the canonical NaN (or 0) and the predicate 1. -/
def Obligations.CopyCommands : Prop :=
  (∀ (s : State) (c sl idx ch : Nat) (coll free acq : Bool) (segs : List Seg) (t1 t0 : Target),
    let k (op : EngOp) : EngCmd := ⟨sl, idx, op, t0, t1⟩
    let x := (s.core c).channel ch
    let g := (s.thread c sl).group
    let cpy := k (.cpy coll ch segs)
    (∀ bs, s.readForThread c sl segs = some bs →
      (copyReject bs coll (x.cfg && x.owner == g && !x.brk) = none →
        let d := copyDescOf bs
        let cp : Copy := ⟨s.copyNext, sl, g, s.aspOf c sl, !(s.thread c sl).priv, coll, s.aspOf c sl, d, d.size, 0, [], false, []⟩
        let x' := { x with iptr := x.iptr + BitVec.ofNat 32 d.size, infl := x.infl + 1, copies := x.copies ++ [cp] }
        let u := ((s.seeOwn c sl segs).placeAtomics).modCore c fun y => { y with channels := Tbl.set y.channels ch x' }
        s.acceptCmd c cpy = ({ u with copyNext := s.copyNext + 1 }).reown.finishPort c cpy 0 doneTok
          (dword (x.iptr + BitVec.ofNat 32 d.size).toNat)) ∧
      (∀ code, copyReject bs coll (x.cfg && x.owner == g && !x.brk) = some code →
        s.acceptCmd c cpy = (s.modInst c sl fun y => { y with faults := y.faults ++
          [⟨.engine, idx, 0, BitVec.ofNat 64 (code + idx * 2 ^ 8 + ch * 2 ^ 16 + (if coll then 0xd1 else 0xd0) * 2 ^ 24)⟩] }).finishPort
            c cpy 0 nullTok nullTok)) ∧
    (s.readForThread c sl segs = none →
      s.acceptCmd c cpy = (s.modInst c sl fun y => { y with faults := y.faults ++
        [⟨.poison, idx, 0, BitVec.ofNat 64 (idx * 2 ^ 8 + ch * 2 ^ 16 + (if coll then 0xd1 else 0xd0) * 2 ^ 24)⟩] }).finishPort
          c cpy 0 nullTok nullTok) ∧
    s.acceptCmd c (k (.cwptr acq ch)) = (if acq then s.modThread c sl Thread.acquire else s).finishPort c (k (.cwptr acq ch)) 0 doneTok
      (dword (x.wptr.toNat + x.infl * 2 ^ 32 + (if x.cfg then 2 ^ 39 else 0) + (if x.brk then 2 ^ 40 else 0) +
        x.cause.toNat * 2 ^ 41)) ∧
    ((s.core c).channelWaiters ch = [] → free = false → x.cfg = false ∨ (x.owner = g ∧ x.infl = 0) →
      s.acceptCmd c (k (.cchan ch free)) = (s.modCore c fun y =>
          { y with channels := Tbl.set y.channels ch ⟨true, g, 0, 0, 0, false, 0, [], x.runs⟩ }).finishPort c (k (.cchan ch free)) 0 doneTok (predTok true)) ∧
    ((s.core c).channelWaiters ch = [] → free = true → x.cfg = true → x.owner = g → x.infl = 0 →
      s.acceptCmd c (k (.cchan ch free)) = (s.modCore c fun y =>
          { y with channels := if x.runs = [] then Tbl.erase y.channels ch
                    else Tbl.set y.channels ch ⟨false, 0, 0, 0, 0, false, 0, [], x.runs⟩ }).finishPort c (k (.cchan ch free)) 0 doneTok (predTok true)) ∧
    ((x.cfg = true ∧ (x.owner ≠ g ∨ x.infl ≠ 0)) ∨ (free = true ∧ x.cfg = false) →
      s.acceptCmd c (k (.cchan ch free)) = s.finishPort c (k (.cchan ch free)) 0 doneTok (predTok false))) ∧
  (∀ (s : State) (c lat : Nat) (k : EngCmd) (v1 v0 : Token) (x : Inst), (s.thread c k.slot).inst = some x → x.squash = none →
    let y := { x with performed := insertNat k.idx x.performed }
    let z := (y.deliver s.clk k.idx k.t0 v0).deliver s.clk k.idx k.t1 v1
    let w : Inst :=
      if lat = 0 then { z with count := z.count + 1, fullAt := some (max (z.fullAt.getD 0) s.clk) }
      else { y with emits := y.emits ++ [⟨k.idx, s.clk + lat, false, true, v0, v1, k.t0, k.t1⟩] }
    s.finishPort c k lat v1 v0 = s.modThread c k.slot fun t => { t with inst := some w }) ∧
  (∀ (s : State) (c sl idx : Nat) (m : CvtMod) (a b : DWord) (t1 t0 : Target),
    let k : EngCmd := ⟨sl, idx, .cvtch m a b, t0, t1⟩
    let ch := b.toNat % 32
    let e := (s.core c).entry ch
    let g := (s.thread c sl).group
    let fmt := e.toNat % 16
    let lat := if chanError e g = false ∧ fmt = 2 then 12 else 6
    let nan := (cvtNum m.dest m.rnd .nan).1
    let u := s.seeCvt c sl a b
    let fault (cause : Cause) (code : Nat) : State := (u.modInst c sl fun y => { y with faults := y.faults ++
        [⟨cause, idx, 0, BitVec.ofNat 64 (code + idx * 2 ^ 8 + ch * 2 ^ 16 + 0x7b * 2 ^ 24)⟩] }).finishPort c k lat (predTok true)
          (dword nan)
    (chanError e g = true → s.acceptCmd c k = fault .engine 1) ∧
    (chanError e g = false → fmt ≠ 2 →
      let r := cvtNum m.dest m.rnd ((fmtValue fmt a.toNat).scale (sextNat 8 (e.toNat / 2 ^ 8)))
      s.acceptCmd c k = s.finishPort c k 6 (predTok r.2) (dword r.1)) ∧
    (chanError e g = true ∨ fmt ≠ 2 → u = s) ∧
    (∀ code, u.chValue c sl a b = .code code → s.acceptCmd c k = fault .engine code) ∧
    (u.chValue c sl a b = .poison → s.acceptCmd c k = fault .poison 0) ∧
    (∀ y, u.chValue c sl a b = .value y →
      s.acceptCmd c k = u.finishPort c k lat (predTok (cvtNum m.dest m.rnd y).2) (dword (cvtNum m.dest m.rnd y).1)))

/-- R301, R306, R310, R317-R319: acceptance of the matrix commands: one that is not refused claims its context and enters the
array's queue, a gang `mma` enters its die's latch and is accepted with its round (R311); a refused one is an engine fault with its code; `mgang` sets the group's
list when it is valid, and `mchan` writes one entry of the table. R318: the lists that `mgang` takes: two to six different
ranks of the rope, the group's own among them, on different cores, the places beyond the count zero; a count of 0 clears the
list. -/
def Obligations.MatrixCommands : Prop :=
  (∀ (s : State) (c sl idx : Nat) (f : Bool) (a b : Quad) (ctl v : DWord) (ra rb : Nat) (t1 t0 : Target),
    let g := (s.thread c sl).group
    let ac := ctl.toNat / 2 ^ 28 % 4
    let r := (s.grid (s.group c g).grid).launch
    let kg : EngCmd := ⟨sl, idx, .mgang v, t0, t1⟩
    let kc : EngCmd := ⟨sl, idx, .mchan v, t0, t1⟩
    let n := v.toNat / 2 ^ 32 % 32
    let old := (s.core c).entry n
    let good := (old.getLsbD 16 = false ∨ old.toNat / 2 ^ 17 % 16 = g) ∧ v.toNat / 2 ^ 21 % 2 ^ 11 = 0 ∧
      v.toNat / 2 ^ 4 % 2 ^ 4 = 0 ∧ v.toNat % 2 ^ 4 ≤ 6 ∧ (v.toNat % 2 ^ 4 = 6 → v.toNat / 2 ^ 8 % 2 ^ 8 = 0) ∧ v.toNat < 2 ^ 37
    (∀ l, gangList v r.ropeG r.ropeP (s.rankOf c g) = some l →
      s.acceptCmd c kg = (s.modGroup c g fun x => { x with gang := l }).finishPort c kg 0 doneTok (predTok true)) ∧
    (gangList v r.ropeG r.ropeP (s.rankOf c g) = none →
      s.acceptCmd c kg = s.finishPort c kg 0 doneTok (predTok false)) ∧
    (good → s.acceptCmd c kc = (s.modCore c fun x =>
        { x with chan := if v.getLsbD 16 then Tbl.set x.chan n (BitVec.ofNat 32 (v.toNat % 2 ^ 17 + g * 2 ^ 17))
            else Tbl.erase x.chan n }).finishPort c kc 0 doneTok (predTok true)) ∧
    (¬ good → s.acceptCmd c kc = s.finishPort c kc 0 doneTok (predTok false)) ∧
    ∀ e ∈ [(MatKind.mma, EngOp.mma a b ctl ra rb, b, rb, 0xd4), (.ld f, .maccLd f a ctl ra, 0, 0, 0xd5),
        (.st f, .maccSt f a ctl ra, 0, 0, 0xd6)],
      let k : EngCmd := ⟨sl, idx, e.2.1, t0, t1⟩
      let t := matCtlOf ctl
      let refusal := s.matRefusal c g e.1 t (opDescOf a) (opDescOf e.2.2.1) ra e.2.2.2.1
      (∀ code num, refusal = some (code, num) → s.acceptCmd c k = (s.modInst c sl fun y => { y with faults := y.faults ++
          [⟨.engine, idx, 0, BitVec.ofNat 64 (code + idx * 2 ^ 8 + num * 2 ^ 16 + e.2.2.2.2 * 2 ^ 24)⟩] }).finishPort c k 0
            doneTok nullTok) ∧
      (refusal = none → t.gang = false →
        ∃ q : MatCmd, (q.kind = e.1 ∧ q.group = g ∧ q.slot = sl ∧ q.core = c ∧ q.idx = idx ∧ q.ac = ac ∧
            q.m = ctl.toNat % 64 ∧ q.n = ctl.toNat / 64 % 64 ∧ q.k = ctl.toNat / 2 ^ 12 % 2 ^ 16 ∧
            q.flag = ctl.getLsbD 30 ∧ q.da = opDescOf a ∧ q.db = opDescOf e.2.2.1 ∧ q.step = 0 ∧ q.started = false) ∧
          s.acceptCmd c k = (s.modCore c fun y =>
            { y with
              accs := Tbl.set y.accs ac (let z := y.acc ac; if z.v then z else { z with v := true, owner := g })
              matQ := y.matQ ++ [q] }).finishPort c k 0 doneTok nullTok) ∧
      (refusal = none → t.gang = true →
        ∃ l : LatchEntry, (l.grid = (s.group c g).grid ∧ l.rope = s.ropeOf c g ∧ l.rank = s.rankOf c g ∧ l.t1 = t1 ∧
            l.arrived = (s.group c g).clock ∧ l.cmd.kind = e.1 ∧ l.cmd.slot = sl ∧ l.cmd.ac = ac) ∧
          s.acceptCmd c k = s.modDie (c / 256) fun d => { d with latch := d.latch ++ [l] })) ∧
  (∀ (v : DWord) (G P own : Nat),
    let cnt := v.toNat / 2 ^ 48 % 8
    let rank (j : Nat) := v.toNat / 2 ^ (8 * j) % 256
    (cnt = 0 → gangList v G P own = some []) ∧
    (∀ l, cnt ≠ 0 → gangList v G P own = some l →
      l.length = cnt ∧ 2 ≤ cnt ∧ cnt ≤ 6 ∧ own ∈ l ∧ (∀ j, j < cnt → l[j]? = some (rank j)) ∧
      (∀ r ∈ l, r < G) ∧ (∀ i j, i < cnt → j < cnt → i ≠ j → rank i ≠ rank j ∧ rank i / P ≠ rank j / P) ∧
      (∀ j, cnt ≤ j → j < 6 → rank j = 0) ∧ v.toNat < 2 ^ 51))

/-- R329, R332, R333: acceptance of the temporal commands: refused with an engine fault where the array is not the group's or
the operands are bad, unavailable where the array has lost its state or is offline; otherwise the command enters the array's
queue of 8, and it is done but for `tval`, which answers when it completes. -/
def Obligations.TemporalCommands : Prop :=
  ∀ (s : State) (c sl idx : Nat) (sel chain : Bool) (segs : List Seg) (a b : DWord) (t1 t0 : Target),
    let arr := (s.core c).temp
    let g := (s.thread c sl).group
    let fault (k : EngCmd) (cause : Cause) (code opc : Nat) : State := (s.modInst c sl fun y => { y with faults := y.faults ++
        [⟨cause, idx, 0, BitVec.ofNat 64 (code + idx * 2 ^ 8 + opc * 2 ^ 24)⟩] }).finishPort c k 0 nullTok nullTok
    let queued (op : TempOp) : State := s.modCore c fun y => { y with temp := { y.temp with
        queue := y.temp.queue ++ [⟨op, sl, idx, t0, t1, none, []⟩] } }
    ∀ e ∈ [(EngOp.twin a b, 0xd9, a.toNat % 2 ^ 10 = 0 ∨ 2 ^ 10 ≤ a.toNat, TempOp.twin (BitVec.ofNat 10 a.toNat) (BitVec.ofNat 32 b.toNat)),
        (.tload sel segs b, 0xda, 2 ^ 11 ≤ b.toNat ∨ (sel = true ∧ b.toNat ≠ 0) ∨
            (sel = false ∧ 32 < b.toNat % 32 + b.toNat / 32 % 64),
          .tload sel segs (b.toNat % 32) (if sel then 1 else b.toNat / 32 % 64)),
        (.tlaunch chain, 0xdb, False, .tlaunch chain), (.tcap segs, 0xdc, False, .tcap segs), (.trst, 0xdd, False, .trst),
        (.tcode a b, 0xde, 2 ^ 11 ≤ b.toNat ∨ (b.getLsbD 10 = true ∧ b.toNat / 32 % 32 ≠ 0),
          .tcode (b.getLsbD 10) (b.toNat % 32) (b.toNat / 32 % 32) (BitVec.ofNat 10 (min a.toNat 1023))),
        (.tval a, 0xdf, False, .tval (a.toNat % 32))],
      let k : EngCmd := ⟨sl, idx, e.1, t0, t1⟩
      let needsState := e.2.1 = 0xdb ∨ e.2.1 = 0xdc ∨ e.2.1 = 0xdf
      (arr.owner ≠ some g → s.acceptCmd c k = fault k .engine 13 e.2.1) ∧
      (arr.owner = some g → e.2.2.1 → s.acceptCmd c k = fault k .engine 14 e.2.1) ∧
      (arr.owner = some g → needsState → arr.st.lost = true → s.acceptCmd c k = fault k .temporalUnavailable 1 e.2.1) ∧
      (arr.owner = some g → e.2.1 = 0xdb → arr.st.lost = false → arr.tick = 3 →
        s.acceptCmd c k = fault k .temporalUnavailable 2 e.2.1) ∧
      (arr.owner = some g → ¬ e.2.2.1 → (needsState → arr.st.lost = false) → (e.2.1 = 0xdb → arr.tick ≠ 3) →
        s.acceptCmd c k =
          if e.2.1 = 0xdf then (queued e.2.2.2).modInst c sl fun y => { y with performed := insertNat idx y.performed }
          else (queued e.2.2.2).finishPort c k 0 doneTok
            (if e.2.1 = 0xde then dword (BitVec.ofNat 10 (min a.toNat 1023)).toNat else nullTok))

/-- R361, R369, R371, R383, R385, R386, R387: acceptance of the heap commands: an operation goes to the queue of the heap of
its handle, 20 clk away on the own die and 100 on another; it is refused where the grid has no heap here, and one whose handle names
no task goes to the own heap, to be refused there if none has the handle when it is performed; a frame of `hspawn` that is
poisoned is a fault before that (that must-be-zero bits of port b are ignored is the model's choice, log entry 55); `hresid` is answered from the home register; `hself` answers the task's handle and gain. -/
def Obligations.HeapCommands : Prop :=
  ∀ (s : State) (c sl idx : Nat) (segs : List Seg) (h v : Word) (b : DWord) (t1 t0 : Target) (hg : HeapGrid),
    let k (op : EngOp) : EngCmd := ⟨sl, idx, op, t0, t1⟩
    let sentOf (z : State) (die delay : Nat) (op : HeapOp) : State := z.modDie die fun d => { d with heap := { d.heap with
        queue := d.heap.queue ++ [⟨c, sl, idx, op, s.clk + delay, delay, t0, t1⟩] } }
    let sent := sentOf s
    let own := c / 256
    let die := h.toNat / 2 ^ 29
    (s.heapGridOf c sl = none →
      s.acceptCmd c (k (.hdep h)) = sent own 20 (.refuse 1 h) ∧ s.acceptCmd c (k (.hgain 0 h v)) = sent own 20 (.refuse 1 h) ∧
      (∀ bs, s.readForThread c sl segs = some bs →
        s.acceptCmd c (k (.hspawn segs b)) = sentOf (s.seeOwn c sl segs) own 20 (.refuse 1 0)) ∧ s.acceptCmd c (k .hresid) = sent own 20 (.refuse 1 0)) ∧
    (s.heapGridOf c sl = some hg →
      (∀ n, n ≤ 2 → (s.taskOf hg h).isSome = true →
        s.acceptCmd c (k (.hgain n h v)) = sent die (if own = die then 20 else 100) (.gain n h v) ∧
        s.acceptCmd c (k (.hdep h)) = sent die (if own = die then 20 else 100) (.dep h)) ∧
      (s.taskOf hg h = none → s.acceptCmd c (k (.hdep h)) = sent own 20 (.dep h) ∧
        ∀ n, s.acceptCmd c (k (.hgain n h v)) = sent own 20 (.gain n h v)) ∧
      (∀ bs, s.readForThread c sl segs = some bs → s.acceptCmd c (k (.hspawn segs b)) =
        sentOf (s.seeOwn c sl segs) own 20 (.spawn bs (BitVec.ofNat 32 b.toNat) (b.toNat / 2 ^ 32 % 2 ^ 24))) ∧
      (∀ home, home < 8 → hg.mask.getLsbD home = true → (∀ d, d < home → hg.mask.getLsbD d = false) →
        s.acceptCmd c (k .hresid) = { s with replies := s.replies ++
          [⟨c, sl, idx, s.clk + (if home = own then 24 else 100), none, none, true, none, t0, t1⟩] })) ∧
    (s.readForThread c sl segs = none →
      s.acceptCmd c (k (.hspawn segs b)) = (s.modInst c sl fun y => { y with faults := y.faults ++
        [⟨.poison, idx, 0, heapDetail 0 0 idx⟩] }).finishPort c (k (.hspawn segs b)) 0 nullTok nullTok) ∧
    ((s.thread c sl).task = some (h, v) →
      s.acceptCmd c (k .hself) = s.finishPort c (k .hself) 0 (dword v.toNat) (dword h.toNat)) ∧
    ((s.thread c sl).task = none →
      s.acceptCmd c (k .hself) = s.finishPort c (k .hself) 0 (dword 0) (dword 0xffffffff))

/-! ## Memory events (spec/07, spec/11, spec/12, spec/13) -/

/-- R242, R226, R133, R236: LOAD_RETURN of a load outside a region that has passed its checks: its bytes are those of the thread's
committed stores where these hold all of them, else those of memory once its lines may be read; an acquiring load parts the
thread's deferred loads from what comes after it; a squashed instance's load returns null results. (That a load waits for a
queued atomic of its bytes, and that one which acquires at device or system scope is not forwarded, is read from R265 and R254:
log entries 43 and 44; that one of those waits until no entry is left whose bytes a read has taken, log entry 12.) R21: before its
latency has passed nothing happens. -/
def Obligations.LoadReturns : Prop :=
  ∀ (s u : State) (c sl k : Nat) (x : Inst) (r : Req), s.args = [c, sl, k] → (s.thread c sl).inst = some x →
    x.req? k = some r → r.kind.isLoad = true → r.stage = .ready → r.due ≤ s.clk →
    let th := s.thread c sl
    let answers (w : State) (f : Thread → Thread) (v1 v0 : Token) : Prop :=
      exec .loadReturn s = .next (w.modThread c sl fun t => { f t with inst := some (x.spends s.clk r v1 v0) })
    let acquire (t : Thread) : Thread := if r.kind.acquires then
        { t with deferred := t.deferred.map fun d => { d with fenced := d.fenced || d.committed } } else t
    (∀ clk, clk < r.due → exec .loadReturn { s with clk := clk } = .next { s with clk := clk }) ∧
    (x.squash ≠ none → answers s id nullTok nullTok) ∧
    (x.squash = none → s.openRegion c sl = none → s.mustWait r.segs c none = false → r.mt ≠ .device → r.got = [] →
      th.readsFirst (s.blockOf c sl) k r.kind.acquires r.segs = false →
      (r.kind.acquiresWide = true → ∀ e ∈ th.buf, e.committed = false ∨ e.seen = false) →
      (∀ bs, th.forward r.segs = .buffer bs → r.kind.acquiresWide = false →
        answers s (fun t => acquire (t.markSeen th.epoch r.segs)) doneTok (sizedTok r.bytes (bytesToNat bs))) ∧
      (th.forward r.segs = .memory → r.mt = .coherent → r.kind ≠ .loadNc →
        isSplit r.va r.bytes r.mt = false → segLen r.segs = r.bytes → (∀ g ∈ r.segs, g.nc = false) →
        s.segsPoisoned r.segs = false → s.obtain c r.segs false = (u, true) →
        answers (u.cacheLines c (r.kind != .lds) r.segs) acquire doneTok
          (sizedTok r.bytes (bytesToNat (s.rdSegs r.segs)))))

/-- R217, R218, R220, R221, R232: DIE_TLB_HIT fills the core's TLB from the die's and the waiting request is judged, but a `probe`
fills no TLB and has its answer; WALK_COMPLETE fills the TLBs of the die and of the core from the leaf that it found, and the
request is judged, or gives it a translation fault with the reason and the level at which the walk ended, or a poison fault; a walk
waits for its latency, and for lines that a lock or an engine holds. (Which entry of a
full TLB leaves is the model's choice, log entry 29.) R147, R223, R425, R445: DEFERRED_FILL of a committed deferred
load whose value has come writes its slot, through the queue of the slot's bank, and clears its pending bit;
ERET_RECORD_RETURN gives `eret` its decision; COMPLETION_TIMEOUT ends a read of an absent completer with poison and a null
result, counts a write to one as refused, and lets a deferred load end without a value, to fail at its commit (R149). -/
def Obligations.TranslationEvents : Prop :=
  (∀ (s : State) (c sl k asp vpn : Nat) (x : Inst) (r : Req) (e : TlbEntry), (s.thread c sl).inst = some x → x.req? k = some r →
    (s.args = [c, asp, vpn] → tlbFind (s.die (dieOf c)).tlb asp vpn = some e → s.waitingOn c asp vpn = [(sl, k)] → r.due ≤ s.clk →
      (r.kind ≠ .probe →
        exec .dieTlbHit s = .next ((s.modCore c fun y => { y with tlb := tlbFillCore y.tlb e }).judgeReq c sl k)) ∧
      (r.kind = .probe → exec .dieTlbHit s = .next (s.passRequest c sl { r with stage := .ready }))) ∧
    (s.args = [dieOf c, asp, vpn] → tlbFind (s.die (dieOf c)).tlb asp vpn = none → s.dieWaiting (dieOf c) asp vpn = [(c, sl, k)] →
      s.walkHeld (s.rootOf c sl) vpn = false → min (r.due - 24) s.clk + s.walkLatency c (s.rootOf c sl) vpn ≤ s.clk →
      let w := s.walkReads (dieOf c) (s.rootOf c sl) vpn
      let at_ : DWord := if r.kind = .record then r.va else BitVec.ofNat 64 (r.va.toNat + segLen r.segs)
      (∀ leaf n, s.walk (s.rootOf c sl) (vpn * 2 ^ 16) = .found leaf n → w.thread c sl = s.thread c sl → r.kind ≠ .probe →
        let f := tlbEntryOf asp vpn leaf
        exec .walkComplete s = .next
          (((w.modCore c fun y => { y with tlb := tlbFillCore y.tlb f }).modDie (dieOf c) fun d =>
            { d with tlb := tlbFillDie d.tlb f }).judgeReq c sl k)) ∧
      (∀ why lvl, s.walk (s.rootOf c sl) (vpn * 2 ^ 16) = .bad why lvl → w.thread c sl = s.thread c sl → r.kind ≠ .probe →
        exec .walkComplete s = .next (w.failRequest c sl k
          ⟨.translation, k, at_, memDetail k r.row.kind lvl why⟩ r.t1 r.t0 (!r.kind.beforeFire))) ∧
      (∀ lvl, s.walk (s.rootOf c sl) (vpn * 2 ^ 16) = .poison lvl → w.thread c sl = s.thread c sl → r.kind ≠ .probe →
        exec .walkComplete s = .next (w.failRequest c sl k ⟨.poison, k, at_, memDetail k r.row.kind lvl 0⟩ r.t1 r.t0
          (!r.kind.beforeFire))))) ∧
  (∀ (s u : State) (c sl k : Nat), (s.thread c sl).holdArrive = none →
    (∀ d v, s.args = [c, sl, k] → (s.thread c sl).deferred[k]? = some d → d.committed = true → d.wide = false →
      d.returned = some (some v) → (s.core c).roomFor [d.slot] = true →
      exec .deferredFill s = .next ((s.modCore c fun y => y.queueWrites sl [d.slot]).modThread c sl fun t =>
        { t with live := Tbl.set t.live d.slot (v.setWidth 32), pending := t.pending &&& ~~~(slotMask [d.slot]),
                 badParity := t.badParity &&& ~~~(BitVec.ofNat 64 (2 ^ d.slot)), filledAt := s.clk,
                 filled := (if t.filledAt = s.clk then t.filled else 0) ||| slotMask [d.slot],
                 deferred := removeAt t.deferred k,
                 buf := t.buf.map fun e => { e with reads := e.reads.filter (· != d.slot) } })) ∧
    (∀ x r bs, s.args = [c, sl] → (s.thread c sl).inst = some x → x.squash = none →
      (x.reqs.find? fun r => r.kind == .record && r.stage == .ready) = some r →
      r.due ≤ s.clk → s.readStep c sl (s.thread c sl).epoch false true false r.va r.bytes r.segs r.mt r.got = .done u (some bs) →
      let useNext := ((u.core c).context x.ctx).block.eretNext r.idx
      exec .eretRecordReturn s = .next (u.modInst c sl fun y =>
        { (y.dropReq r.idx) with term := eretTerm r.idx useNext (BitVec.ofNat 64 (fieldAt bs 0 8)) (BitVec.ofNat 64 (fieldAt bs 8 8)) }.complete
          u.clk)) ∧
    (∀ x r, s.args = [c, sl, 0, k] → (s.thread c sl).inst = some x → x.squash = none → x.region = none → x.req? k = some r →
      r.kind.isLoad = true → r.stage = .ready → (r.segs.any fun g => outside s g.loc) = true →
      let y := (x.addFault ⟨.poison, r.idx, r.va, memDetail r.idx r.kind.row.kind 0 0⟩).spends s.clk r nullTok nullTok
      exec .completionTimeout s = .next (s.modThread c sl fun t => { t with inst := some y })) ∧
    (∀ e, s.args = [c, sl, 1, k] → (s.thread c sl).buf[k]? = some e → e.sent = true → (e.segs.any fun g => outside s g.loc) = true →
      exec .completionTimeout s = .next ((s.countRefused (dieOf c)).modThread c sl fun t =>
        { t with buf := removeAt t.buf k, unacked := t.unacked - 1 })) ∧
    (∀ d, s.args = [c, sl, 2, k] → (s.thread c sl).deferred[k]? = some d → d.returned = none → d.committed = false →
      (d.segs.any fun g => outside s g.loc) = true →
      exec .completionTimeout s = .next (s.modThread c sl fun t =>
        { t with deferred := replaceAt t.deferred k { d with returned := some none } })))

/-- R241, R243, R251: STORE_SEND sends the oldest committed entry that is not sent, and the count of stores that are not
acknowledged rises by 1; a releasing entry is sent only when it is the oldest of the buffer and no deferred load of its thread
stands before it. STORE_ACKNOWLEDGE of a sent store that is not split and that nothing holds back, once its lines may be
written, writes each of its bytes at its place in memory and changes no other byte, and the entry leaves the buffer and the
count. (That STORE_ACKNOWLEDGE itself performs the write is read from R241 and R243: log entry 7.
That a store waits for a deferred load before it of its bytes, and for a queued atomic, is read from R244 and R265: log
entries 43 and 44; which deferred loads hold a release back is the model's choice, log entry 12.) -/
def Obligations.StoreBuffer : Prop :=
  (∀ (s : State) (c sl k : Nat) (e : BufEntry), s.args = [c, sl] → (s.thread c sl).buf[k]? = some e → e.committed = true →
    e.sent = false → (∀ f ∈ (s.thread c sl).buf.take k, f.committed = true → f.sent = true) →
    (e.kind = .store ∨ e.kind = .nc ∨ e.kind = .cwb ∨ e.kind = .cinv → exec .storeSend s = .next (s.modThread c sl fun t =>
      { t with buf := replaceAt t.buf k { e with sent := true, sentAt := s.clk }, unacked := t.unacked + 1 })) ∧
    (∀ p, e.kind = .rel p →
      (k = 0 → e.reads = [] → exec .storeSend s = .next (s.modThread c sl fun t =>
        { t with buf := replaceAt t.buf k { e with sent := true, sentAt := s.clk }, unacked := t.unacked + 1 })) ∧
      (k ≠ 0 ∨ e.reads ≠ [] → exec .storeSend s = .next s))) ∧
  (∀ (s u : State) (c sl k : Nat) (e : BufEntry), s.args = [c, sl, k] → (s.thread c sl).buf[k]? = some e → e.sent = true →
    e.kind = .store ∨ (∃ p, e.kind = .rel p) →
    let t := s.thread c sl
    t.holdArrive = none → ((t.buf.take k).any fun f => e.behind f || s.peerBehind e f) = false → s.mustWait e.segs c t.region = false →
    t.readsBefore e = false → (e.segs.any fun g => s.lost g.loc) = false → isSplit e.va e.data.length e.mt = false →
    s.obtain c e.segs true = (u, true) → ∃ w, exec .storeAcknowledge s = .next w ∧
      w.thread c sl = { t with buf := removeAt t.buf k, unacked := t.unacked - 1 } ∧
      (Memory.wf s.mem = true → (∀ g ∈ e.segs, g.nc = false) → (segLocs e.segs).Nodup →
        (segLocs e.segs).length = e.data.length →
        (∀ (i l : Nat) (b : Byte), (segLocs e.segs)[i]? = some l → e.data[i]? = some b → memRead w.mem l = b) ∧
        (∀ l, l ∉ segLocs e.segs → memRead w.mem l = memRead s.mem l)))

/-- R123, R200, R133: a pipelined result, and one of a special-function port, reaches its targets when it is due, and its
instruction completes in that clk; before that nothing happens. What a port returns to a squashed instance is null. R264, R265,
R268, R269: ATOMIC_TILE_PERFORM performs, in a clk after it came, the first request of a tile that has no answer, as one event: its answer is the old
value, and memory becomes what R269 gives, and stays where the operation writes nothing; ATOMIC_RETURN takes the answered
request from its tile and gives the old value to T0 and the predicate to T1. -/
def Obligations.LaterResults : Prop :=
  (∀ (s : State) (c sl k : Nat) (x : Inst) (e : Emission) (port : Bool) (i : Instr), s.args = [c, sl, k] →
    (s.thread c sl).inst = some x → (x.emits.find? fun e => e.idx == k && e.port == port) = some e →
    i = (if port then .sfuReturn else .pipelinedOperationEmit) →
    (s.clk < e.due → exec i s = .next s) ∧
    (e.due ≤ s.clk →
      let v (t : Token) : Token := if (port = true ∨ e.voids = true) ∧ x.squash ≠ none then nullTok else t
      let y : Inst := { x with emits := x.emits.filter fun f => f.idx != k }
      let z := ((y.deliver e.due k e.t0 (v e.v0)).deliver e.due k e.t1 (v e.v1)).complete e.due
      exec i s = .next (s.modThread c sl fun t => { t with inst := some z }))) ∧
  (∀ (s u : State) (die tile k : Nat) (q : AtomicReq),
    (s.args = [die, tile] → (s.die die).tileHead tile = some (k, q) → q.came < s.clk →
      (∀ t ∈ q.at_, (s.die die).tileHead t = some (k, q)) → (∀ l ∈ segLines q.segs, ∀ e ∈ s.locks, e.1 ≠ l) →
      q.behind = false ∨ s.lineOwned q.segs = false → q.mt = .coherent →
      (∀ g ∈ q.segs, g.nc = false) → s.segsPoisoned q.segs = false → s.tileObtain die q = (u, true) →
      let old := bytesToNat (s.rdSegs q.segs)
      let r := atomicEval q.op q.bytes old q.cmp.toNat q.data.toNat
      ∃ w, exec .atomicTilePerform s = .next w ∧
        (w.die die).tiles = replaceAt (s.die die).tiles k { q with answer := some (some (BitVec.ofNat 128 old, r.2.2)) } ∧
        (r.2.1 = false → w.mem = s.mem) ∧
        (r.2.1 = true → w.mem = (s.performStoreNc 8 q.segs (natToBytes q.bytes r.1)).mem)) ∧
    (∀ c sl idx x r old p, s.args = [c, sl, idx] → (s.thread c sl).inst = some x → x.squash = none → x.req? idx = some r →
      s.answered c sl idx = some (die, k, q) → q.due ≤ s.clk → q.answer = some (some (old, p)) →
      exec .atomicReturn s = .next ((s.modDie die fun y => { y with tiles := removeAt y.tiles k }).modThread c sl fun t =>
        { t with inst := some (x.spends s.clk r (predTok p) (sizedTok q.bytes old.toNat)) })))

/-! ## The fabric, placement and retirement (spec/02, spec/05, spec/06, spec/19) -/

/-- R132, R113, R65, R241, R404, R488: BLOCK_COMMIT of the next instance of a core, outside a region and not being saved: with
no fault its live-out writes stand in the thread's slots, its stores are committed in the buffer and the thread is on its way to
the address that its branch decided, to be filed there at the end of the clk (R100); with a fault the thread enters the fault bin, the terminator's step held; memory keeps
every byte either way. R180: `fp.mode` takes what a `syswr` of the
block wrote. R147, R149: a deferred load whose data has not returned sets the pending bits of its slots; one that failed sets their
bits in the fail mask, and the first failure is recorded. R133, R144, R404: SQUASHED_END of a squashed instance whose instructions have all completed: none of
its stores, deferred loads or live-out writes takes effect, and its thread enters the fault bin with the fault that squashed
it, or stays with its discarded group (R414); LIVE_WRITE_PERFORM takes the oldest write of each bank from its queue, once in a clk. -/
def Obligations.Commits : Prop :=
  (∀ (s : State) (c sl : Nat) (x : Inst), s.args = [c, sl] → s.nextCommit c = some (sl, x) → (s.thread c sl).inst = some x →
    s.openRegion c sl = none → (s.groupOf c sl).isSaving = false → (s.groupOf c sl).halted = false →
    let t := s.thread c sl
    let written : Thread := (x.writes t.deferred).foldl (fun u l =>
      if l.wide then u.setPair l.slot l.data else u.setSlot l.slot (l.data.setWidth 32)) t
    (∀ a link, s.commitFault c sl x = none → x.term = .goto a link →
      ∃ w, exec .blockCommit s = .next w ∧ (w.thread c sl).inst = none ∧ (w.thread c sl).next = a ∧
        (w.thread c sl).place = .filing x.ctx ∧ (w.thread c sl).filed = s.clk ∧
        (w.thread c sl).live = written.live ∧ (w.thread c sl).fpMode = x.fpNext.getD t.fpMode ∧
        (w.thread c sl).buf = t.commitDeferred.commitBuf.buf ∧ w.mem = s.mem) ∧
    (∀ a link, s.commitFault c sl x = none → x.term = .goto a link → ∃ w, exec .blockCommit s = .next w ∧
      let late := t.deferred.filter fun d => !d.committed && d.returned.isNone
      let failed := t.deferred.filter fun d => !d.committed && d.returned == some none
      (∀ n, n < 64 →
        (w.thread c sl).pending.getLsbD n = (t.pending.getLsbD n || late.any fun d => d.slots.contains n) ∧
        (w.thread c sl).failMask.getLsbD n = (t.failMask.getLsbD n || failed.any fun d => d.slots.contains n)) ∧
      (t.failMask ≠ 0 ∨ failed = [] → (w.thread c sl).failRec = t.failRec) ∧
      (∀ d rest, t.failMask = 0 → failed = d :: rest → (∀ e ∈ failed, slotMask e.slots ≠ 0) →
        (w.thread c sl).failRec = some ⟨.poison, d.blk, d.va, memDetail d.idx 0 0 0⟩)) ∧
    (∀ f, s.commitFault c sl x = some (f, false) →
      let h := heldOf x
      let arg := match x.term with | .hdone v => if t.task.isSome then v else none | _ => none
      ∃ w, exec .blockCommit s = .next w ∧ (w.thread c sl).inst = none ∧ (w.thread c sl).place = .fault ∧
        (w.thread c sl).trap = some ⟨f.cause, t.priv, x.blk, h.2.1, h.2.2.1, h.2.2.2, f.va, f.detail, x.blk,
          ⟨h.1, x.blk, x.n - 1, arg⟩, false⟩ ∧
        (w.thread c sl).live = written.live ∧ w.mem = s.mem) ∧
    (∀ f, s.commitFault c sl x = some (f, true) →
      ∃ w, exec .blockCommit s = .next w ∧ (w.thread c sl).inst = none ∧ (w.thread c sl).place = .fault ∧
        (w.thread c sl).trap = some ⟨f.cause, t.priv, x.blk, x.ft, false, false, f.va, f.detail, x.blk,
          ⟨.none, x.blk, t.waitIdx, t.hdoneArg⟩, false⟩ ∧ w.mem = s.mem)) ∧
  (∀ (s : State) (c sl : Nat),
    (∀ (x : Inst) (f : ThreadFault) (n : Nat), s.args = [c, sl] → (s.thread c sl).inst = some x → x.squash = some f →
      x.fullAt = some n → s.openRegion c sl = none → (s.groupOf c sl).isSaving = false →
      let dropped := match s.savedOf (s.groupOf c sl).grid (s.groupOf c sl).lin with | some v => v.discarded | none => false
      (x.count < x.n ∨ s.clk < n ∨ x.reqs ≠ [] → exec .squashedEnd s = .next s) ∧
      (dropped = true → x.n ≤ x.count → n ≤ s.clk → x.reqs = [] →
        ∃ w, exec .squashedEnd s = .next w ∧ (w.thread c sl).inst = none ∧ (w.thread c sl).place = .saved ∧
          (w.thread c sl).live = (s.thread c sl).live ∧ w.mem = s.mem) ∧
      (dropped = false → x.n ≤ x.count → n ≤ s.clk → x.reqs = [] →
        ∃ w, exec .squashedEnd s = .next w ∧ (w.thread c sl).inst = none ∧ (w.thread c sl).place = .fault ∧
          (w.thread c sl).trap = some (s.trapOf c sl f.cause x.blk x.ft false false f.va f.detail .none) ∧
          (w.thread c sl).live = (s.thread c sl).live ∧ (w.thread c sl).buf = (s.thread c sl).buf.filter (·.committed) ∧
          w.mem = s.mem)) ∧
    (s.args = [c] → (s.core c).lvqAt ≠ some s.clk → ((s.core c).lvq.any fun e => !e.2.isEmpty) = true →
      exec .liveWritePerform s = .next (s.modCore c fun x =>
        { x with lvqAt := some s.clk, lvq := (x.lvq.map fun e => (e.1, e.2.drop 1)).filter fun e => !e.2.isEmpty })))

/-- R389, R390, R393: QUEUE_ENABLE gives a disabled queue its context and clears its indices and its completion word;
QUEUE_DISABLE disables it; TAKE_RECORD takes the record of slot RIDX mod 64 when its SEQ byte is that of the lap, and nothing
otherwise; LAUNCH_START of a head record rejects it with the status of the first check that it fails, and starts a grid of one
that passes. R395: a completion adds 1 to the counter at DONE first; where that cannot be done the status is 12. R448: a module in
standby enables no queue. -/
def Obligations.QueueEvents : Prop :=
  ∀ (s : State) (q ctx : Nat),
    let x := s.queue q
    (s.args = [q, ctx] → q < 1024 → x.en = false → s.mgmt.standby = true → exec .queueEnable s = .next s) ∧
    (s.args = [q, ctx] → q < 1024 → x.en = false → s.mgmt.standby = false →
      exec .queueEnable s = .next (s.modQueue q fun y =>
        { y with en := true, ctx := ctx % 64, ctxBits := ctx % 64, ridx := 0, dcnt := 0, dstat := 0, dslot := 0 })) ∧
    (s.args = [q] → x.en = true → exec .queueDisable s = .next (s.modQueue q fun y => { y with en := false })) ∧
    (s.args = [q] → x.en = true →
      let slot := x.ridx.toNat % 64
      let bs := memReadAll s.mem (winLoc (q * 2 ^ 14 + 256 * slot)) 256
      (bytesToNat (bs.drop 255) = 1 - x.ridx.toNat / 64 % 2 →
        exec .takeRecord s = .next (s.modQueue q fun y =>
          { y with ridx := y.ridx + 1, taken := y.taken ++ [(slot, launchRecOf bs)] })) ∧
      (bytesToNat (bs.drop 255) ≠ 1 - x.ridx.toNat / 64 % 2 → exec .takeRecord s = .next s)) ∧
    (∀ slot r rest, s.args = [q] → x.taken = (slot, r) :: rest → x.stage = 0 → x.heapDesc = none →
      let cx := s.ctxEntry x.ctx
      let rejects (st : Nat) : Prop := exec .launchStart s =
        .next ((s.modQueue q fun y => { y with taken := rest, stage := 0, heapDesc := none, seen := none }).signal q slot x.ctx r.done st)
      (cx.en = false → rejects 7) ∧
      (cx.en = true → (r.mbz = false ∨ r.live = 0 ∨ 64 < r.live ∨ 23 < r.prio ∨ r.wait.toNat % 8 ≠ 0 ∨ r.done.toNat % 8 ≠ 0) →
        rejects 9) ∧
      (∀ st, s.earlyReject cx r = some st → rejects st) ∧
      (s.earlyReject cx r = none → ¬ (r.order = true ∧ 0 < x.open_) → r.wait = 0 →
        (s.unitRead cx.root r.image.toNat 64 = none → rejects 7) ∧
        (∀ img, s.unitRead cx.root r.image.toNat 64 = some img → fieldAt img 0 4 ≠ 0x4a444b31 → rejects 7) ∧
        (∀ img, s.unitRead cx.root r.image.toNat 64 = some img → 2 ^ 7 ≤ fieldAt img 6 2 ∨ (∃ b ∈ img.drop 36, b ≠ 0) → rejects 7) ∧
        (∀ img st, s.unitRead cx.root r.image.toNat 64 = some img → fieldAt img 0 4 = 0x4a444b31 → fieldAt img 6 2 < 2 ^ 7 →
          (∀ b ∈ img.drop 36, b = 0) →
          r.reject s.grade (fieldAt img 4 2) (BitVec.ofNat 16 (fieldAt img 6 2)) = some st → rejects st)) ∧
      (s.earlyReject cx r = none → ¬ (r.order = true ∧ 0 < x.open_) → r.wait = 0 → s.lateVerdict cx.root r = .start none →
        ∃ w, exec .launchStart s = .next w ∧ w.nextGrid = s.nextGrid + 1 ∧
          w.grid s.nextGrid = { Grid.reset with queue := q, slot := slot, ctx := x.ctx, launch := r } ∧
          w.queue q = { x with taken := rest, stage := 0, heapDesc := none, seen := none, open_ := x.open_ + 1 } ∧ w.mem = s.mem)) ∧
    (∀ slot done status,
      let st := if (s.addDone x.ctx done).2 then status else 12
      s.signal q slot x.ctx done status = (s.addDone x.ctx done).1.modQueue q fun y =>
        { y with dcnt := y.dcnt + 1, dstat := if st = 0 then y.dstat else st, dslot := if st = 0 then y.dslot else slot }) ∧
    (∀ done g mt, done.toNat % 8 = 0 → done ≠ 0 → s.judgeUnit (s.ctxEntry x.ctx).root (.atomic false) done.toNat 8 = .ok [g] mt →
      s.Safe → s.atomicPoisoned [g] = false → g.len = 8 → g.nc = false →
      (s.addDone x.ctx done).2 = true ∧ bytesToNat (memReadAll (s.addDone x.ctx done).1.mem g.loc 8) =
        (bytesToNat (memReadAll s.mem g.loc 8) + 1) % 2 ^ 64)

/-- R29, R33, R398: PLACE_UNIT places the first blocked unit when it has a place, a unit of one group that was never placed
with its threads created, their argument in l0:l1, and filed to the entry block. R39, R40, R213, R399, R400: TIME_SLICE_EXPIRY
chooses the victims for the first blocked unit that may pre-empt the group: all of lower priority, or all of one other context and
its priority, whose slice has run out; MIGRATE_GROUP moves a group that stands at pitons
to the core that has room for it, with the bytes of its scratchpad; DIE_MODE_CHANGE_DONE gives the die its new mode, with
empty L1s. -/
def Obligations.PlaceUnit : Prop :=
  (∀ (s : State) (u : BlockedRef) (us : List BlockedRef) (f : Nat), s.placeClk ≠ some s.clk → s.unitsInOrder = u :: us →
    s.placeFor u = some f → exec .placeUnit s = .next (s.placeUnitAt u f) ∧
    (∀ m, (s.grid u.grid).launch.ropeG = 1 → (s.grid u.grid).launch.ropeP = 1 → (s.grid u.grid).heap = none →
      s.seats u 0 = [u.rope] → s.savedOf u.grid u.rope = none →
      (s.core f).roomOf f u.grid (s.grid u.grid).launch none u.rope = some m →
      let gd := s.grid u.grid
      let w := s.placeUnitAt u f
      w.group f m.num = newGroup gd u.grid u.rope m (s.ctxEntry gd.ctx).root s.clk ∧ w.mem = s.mem ∧
      ∀ sl ∈ m.slots, (w.thread f sl).next = gd.launch.entry.setWidth 56 ∧ (w.thread f sl).group = m.num ∧
        (w.thread f sl).live = argSlots gd.launch.args)) ∧
  (∀ (s : State) (c g : Nat),
    let x := s.group c g
    (∀ u vs, s.args = [c, g] →
      (s.unitsInOrder.find? fun u => decide (u.prio = (s.unitsInOrder.map (·.prio)).foldl max 0) && u.prio == x.prio &&
        s.mayPreempt u (some (s.grid x.grid).ctx) x && (s.placeFor u).isNone) = some u →
      let cands := (s.spotsFor u).flatMap fun f => s.preemptCases.flatMap fun case => s.runVictims u case f
      cands.any (·.isEmpty) = false → bestBy s.victimsBetter cands = some vs →
      exec .timeSliceExpiry s = .next (vs.foldl (fun s v =>
        (s.modGroup v.1 v.2 fun y => { y with save := .chosen, moving := false }).urge (.event .saveStart [v.1, v.2])) s)) ∧
    (∀ (u : BlockedRef) (case : Option Nat) (ctx : Nat) (z : Group), s.mayPreempt u case z = true → z.save = .none ∧
      (case = none → z.prio < u.prio) ∧
      (case = some ctx → z.prio = u.prio ∧ (s.grid z.grid).ctx = ctx ∧ ctx ≠ u.ctx ∧ 0 < (s.ctxEntry ctx).slice ∧
        z.placedAt + 1000 * (s.ctxEntry ctx).slice ≤ s.clk)) ∧
    (∀ dst m, s.Safe → s.args = [c, g, dst] → s.mayMigrate c g = true → s.migrateTo c g = some dst →
      (s.core dst).roomOf dst x.grid (s.grid x.grid).launch (some (s.asSaved c g)) x.lin = some m →
      ∃ w, exec .migrateGroup s = .next w ∧
        w.group dst m.num = { x with slots := m.slots.take x.slots.length, spBase := m.base, moving := false } ∧
        ∀ i, i < x.spSize → memRead w.mem (spLoc dst m.base + i) = memRead s.mem (spLoc c x.spBase + i)) ∧
    (∀ die t, s.args = [die] → (s.die die).modeDue = some t →
      (s.clk < t → exec .dieModeChangeDone s = .next s) ∧
      (t ≤ s.clk → exec .dieModeChangeDone s = .next { (s.modDie die fun d => { d with fused := !d.fused, modeDue := none }) with
        cores := Tbl.mapVals (fun c y => if dieOf c = die then { y with l1 := [] } else y) s.cores })))

/-- R53, R58, R101, R105, R106, R134: BIN_HEADER_RETURN fixes the window of a bin, from its header or, where that says nothing, from
`gather.default` as the opening of the bin read it; CONFIG_START gives the chosen bin a free context, reads the block's header, and its
configuration takes 8 clk and one for every 4 words; CONFIG_COMPLETE opens the context with the block that was fetched and checked; a block that is rejected (R78) leaves the context
free, and every thread of its bin takes the fault. R76: the checks of a block: its header, then each word, then its graph, and the
first failure in that order is the code and the word that it is rejected with.
QUIESCENCE_SET sets quiescence 3 clk after the last instance left, and frees a closed context. R109, R110, R136, R428:
FORCED_CLOSURE decides to close the context that its rule names for an aged bin; BIN_SEAL seals the bin of the earliest configuration
when the FIFO head has waited 256 clk; CFGINV_PERFORM decides to close every open context of the address space whose block overlaps the
range, on every core, and `cfginv` completes; at the end of the clk the contexts whose closure was decided are closed, and those that
are quiescent are free. -/
def Obligations.ContextEvents : Prop :=
  (∀ (s : State) (c b k : Nat),
    let x := s.core c
    (∀ asp addr, s.args = [c, b] → (x.bin b).key = some (asp, addr) → (x.bin b).window = none →
      let w := match s.headerAt (x.bin b).root addr with
        | some h => if hdrGO h then hdrGW h * 4 else (x.bin b).dflt
        | none => (x.bin b).dflt
      let u := s.fetched c (s.fetchNext c ⟨0, s.clk, 0, (x.bin b).root, asp, addr, [], true, [], 1, none⟩)
      u.mem = s.mem ∧ exec .binHeaderReturn s = .next (u.modCore c fun y => y.modBin b fun z => { z with window := some w })) ∧
    (∀ bin asp addr, s.args = [c] → x.fetch = none → x.chosenBin s.clk = some (b, bin) → x.contextToTake = some k →
      (x.context k).state = .free → (x.context k).bin = none → bin.key = some (asp, addr) →
      let starts (f : Fetch) : Prop := ∃ w, exec .configStart s = .next w ∧
        (w.core c).context k = { Context.reset with state := .configuring, bin := some b, asp := asp } ∧
        ((w.core c).bin b).ctx = some k ∧ (w.core c).fetch = some f ∧ w.mem = s.mem
      (∀ h leaf, s.fetchWord bin.root c asp addr.toNat = .ok (h, leaf) →
        starts ⟨k, s.clk, s.clk + (8 + (hdrWords h + 3) / 4), bin.root, asp, addr, [h], leafBit leaf 7,
          [(addr.toNat / 2 ^ 16, leaf)], hdrWords h, none⟩) ∧
      (∀ cause detail, s.fetchWord bin.root c asp addr.toNat = .error (cause, detail) →
        starts ⟨k, s.clk, s.clk + 9, bin.root, asp, addr, [], true, [], 1, some (cause, addr.toNat, detail)⟩)) ∧
    (∀ f blk user, s.args = [c] → x.fetch = some f → (x.context f.ctx).bin = some b →
      (s.fetchWords c f.need f).result = .block blk user →
      (s.clk < f.due ∨ s.lineHeld (s.fetchWords c f.need f).places c none = true → exec .configComplete s = .next s) ∧
      (f.due ≤ s.clk → s.lineHeld (s.fetchWords c f.need f).places c none = false → ∃ w, exec .configComplete s = .next w ∧ (w.core c).fetch = none ∧
        ((w.core c).context f.ctx).state = .opened ∧ ((w.core c).context f.ctx).block = blk ∧
        ((w.core c).context f.ctx).userOk = user ∧ ((w.core c).context f.ctx).bin = some b ∧
        ((w.core c).context f.ctx).openAt = s.clk ∧ w.mem = s.mem)) ∧
    (∀ f cause va detail next, s.args = [c] → x.fetch = some f → (x.context f.ctx).bin = some b → f.due ≤ s.clk →
      (s.fetchWords c f.need f).result = .reject cause va detail next →
      s.lineHeld (s.fetchWords c f.need f).places c none = false →
      (∀ sl ∈ (x.bin b).vec, (x.thread sl).region = none ∧ (x.thread sl).place = .binned b ∧ (x.thread sl).save = none) →
      (∀ e ∈ x.fifo, e.1 ∉ (x.bin b).vec) → ∃ w, exec .configComplete s = .next w ∧ (w.core c).fetch = none ∧ ((w.core c).context f.ctx).state = .free ∧ w.mem = s.mem ∧
        ∀ sl ∈ (x.bin b).vec, (w.thread c sl).place = .fault ∧
          (w.thread c sl).trap = some ⟨cause, (x.thread sl).priv, f.addr, next, false, false, BitVec.ofNat 64 va, detail, f.addr,
            ⟨.none, f.addr, (x.thread sl).waitIdx, (x.thread sl).hdoneArg⟩, false⟩) ∧
    (s.args = [c, k] → (x.context k).quiet = false → (x.context k).forced = false → (x.inFlight.any fun e => e.2.ctx == k) = false →
      (s.clk < (x.context k).idleSince + 3 → exec .quiescenceSet s = .next s) ∧
      ((x.context k).idleSince + 3 ≤ s.clk → exec .quiescenceSet s = .next (s.modCore c fun y => y.modContext k fun w =>
        { w with quiet := true, state := if w.state = .closed then .free else w.state, forced := false })))) ∧
  (∀ (s : State) (c : Nat),
    let x := s.core c
    (∀ n bin k, s.args = [c] → x.fetch = none → x.forcing = false →
      (∀ j ∈ [0, 1, 2, 3], (x.context j).state ≠ .free ∧ x.reclaimable j = false) → x.agedBin s.clk = some (n, bin) →
      x.closureVictim s.clk (x.binPrio s.clk bin) = some k →
      ∃ w, exec .forcedClosure s = .next w ∧ (w.core c).forcing = true ∧
        (w.core c).context k = { x.context k with closing := some true } ∧ w.mem = s.mem) ∧
    (∀ sl a k b rest, s.args = [c] → x.fifo = (sl, a) :: rest → (x.bins.any fun e => e.2.isSealed) = false →
      bestBy (fun i j => decide ((x.context i).openAt < (x.context j).openAt))
        (ctxNums.filter fun k => (x.context k).state == .opened && (x.context k).bin.isSome) = some k → (x.context k).bin = some b →
      (s.clk < (x.thread sl).filed + 256 → exec .binSeal s = .next s) ∧
      ((x.thread sl).filed + 256 ≤ s.clk →
        exec .binSeal s = .next (s.modCore c fun y => y.modBin b fun z => { z with isSealed := true }))) ∧
    (∀ sl k y due a len, s.args = [c, sl, k] → (s.thread c sl).inst = some y → y.squash = none →
      (s.cfginvs.find? fun e => e.1 == c && e.2.1 == sl && e.2.2.1 == k) = some (c, sl, k, due, a, len) →
      (s.clk < due → exec .cfginvPerform s = .next s) ∧
      (due ≤ s.clk → ∃ w, exec .cfginvPerform s = .next w ∧
        (w.thread c sl).inst = some (((y.perform k).deliver s.clk k (s.t1Of c sl k) doneTok).complete s.clk) ∧
        (∀ e ∈ w.cfginvs, ¬ (e.1 = c ∧ e.2.1 = sl ∧ e.2.2.1 = k)) ∧ w.mem = s.mem ∧
        ∀ c' x' k', Tbl.find? s.cores c' = some x' → k' ∈ x'.overlapping (s.aspOf c sl) a len →
          ((w.core c').context k').closing ≠ none)) ∧
    (∀ (h : Nat) (rest : List Nat),
      let ws := (rest.drop (hdrLead h - 1)).take (hdrN h)
      let check := checkWord (hdrAR h) (hdrID h) (hdrN h) (hdrM h)
      let bad := h % 16 ≠ 0 ∨ (hdrGW h ≠ 0 ∧ hdrGO h = false) ∨ (hdrID h = true ∧ hdrAR h = true)
      let ops := ws.map fOp
      let is := decodeAll ws
      let term (k : Nat) : Bool := opIsTerminator (ops.getD k 0)
      (bad → checkBlock h rest = some (1, 0)) ∧
      (∀ k w code, ¬ bad → ws[k]? = some w → check w = some code → (∀ j v, j < k → ws[j]? = some v → check v = none) →
        checkBlock h rest = some (code, hdrLead h + k)) ∧
      (¬ bad → (∀ w ∈ ws, check w = none) →
        (∀ k i, is[k]? = some i → badPort is i = true → (∀ j v, j < k → is[j]? = some v → badPort is v = false) →
          checkBlock h rest = some (11, hdrLead h + k)) ∧
        ((∀ i ∈ is, badPort is i = false) → firstRepeat portKeys [] 0 is = none →
          (∀ k i, is[k]? = some i → missingPort ((is.map portKeys).flatten) k i = true →
            (∀ j v, j < k → is[j]? = some v → missingPort ((is.map portKeys).flatten) j v = false) →
            checkBlock h rest = some (13, hdrLead h + k)) ∧
          ((∀ k i, is[k]? = some i → missingPort ((is.map portKeys).flatten) k i = false) →
            (∀ k, cycleIdx ops is = some k → checkBlock h rest = some (14, hdrLead h + k)) ∧
            (cycleIdx ops is = none → liveRepeat [] 0 is = none → ws ≠ [] →
              (∀ k, k + 1 < ops.length → term k = true → (∀ j, j < k → term j = false) → checkBlock h rest = some (16, hdrLead h + k)) ∧
              ((∀ k, k + 1 < ops.length → term k = false) →
                checkBlock h rest = if term (ops.length - 1) then none else some (16, hdrLead h + (ops.length - 1)))))))) ∧
    (∀ (ar id : Bool) (n m w : Nat) (i : Instr),
      (fOp w = 3 → m ≤ fMod w → checkWord ar id n m w = some 6) ∧ (fOp w = 4 → m ≤ fMod w + 1 → checkWord ar id n m w = some 6) ∧
      (fOp w = 0xff → checkWord ar id n m w = some 3) ∧
      (fOp w ≠ 3 → fOp w ≠ 4 → decodeNat w = .ok i →
        let far (t : Target) : Prop := ∃ p k, t = .port p k ∧ n ≤ k.toNat
        (far (targetsOf i).1 ∨ far (targetsOf i).2 → checkWord ar id n m w = some 9) ∧
        (¬ far (targetsOf i).1 → ¬ far (targetsOf i).2 → checkWord ar id n m w = if opForbidden ar id (fOp w) then some 10 else none))) ∧
    (∀ k forced, (Tbl.find? s.cores c).isSome → k < 4 → (x.context k).state = .opened → (x.context k).closing = some forced →
      ((s.settleClosures.core c).context k).state = (if (x.context k).quiet then .free else .closed) ∧
      ((s.settleClosures.core c).context k).bin = none))

/-- R107, R121, R128, R151, R416, R489: ADMIT_THREAD admits the chosen candidate, which is in flight from then on with an instance
of its context's block in which nothing has fired, its source instructions firing next; one that was saved in the rendezvous latch goes
on with the instance that it waited there with. A user thread whose block's page is not for user mode, as soon as it is a candidate, or
one whose block touches a failed slot, takes its fault instead. R351: a thread that resumes at the entry of its region enters a
region again, and where that block is not marked AR it takes a region fault. -/
def Obligations.Admissions : Prop :=
  ∀ (s : State) (c sl k : Nat), s.args = [c] → s.openRegion c sl = none → (s.thread c sl).region = none →
    let t := s.thread c sl
    let ctx := (s.core c).context k
    let b := ctx.block
    ((s.core c).admitAt ≠ some s.clk → s.keptOut c = none → s.admitChoice c = some (k, sl) →
      (∀ r, t.priv = true ∨ maskMeets t.failMask b.touchSet = false → hdrAR b.hdr = false → t.reenters b = true →
        s.admissionHeld c sl b = false → (s.core c).freeRegion? = some r → ∃ w tr, exec .admitThread s = .next w ∧
          (w.thread c sl).place = .fault ∧ (w.thread c sl).trap = some tr ∧ tr.cause = .regionFault ∧ tr.blk = b.addr ∧
          (w.thread c sl).reArmed = false) ∧
      (t.priv = true ∨ maskMeets t.failMask b.touchSet = false → hdrAR b.hdr = false → b.termOp ≠ 0xe0 → t.reenters b = false →
        (s.admissionHeld c sl b = true → exec .admitThread s = .next s) ∧
        (s.admissionHeld c sl b = false →
          (t.resume = none → ∃ w y, exec .admitThread s = .next w ∧ (w.thread c sl).place = .inFlight ∧
            (w.thread c sl).inst = some y ∧ y.ctx = k ∧ y.blk = b.addr ∧ y.n = b.words.length ∧ y.tokens = [] ∧ y.fired = [] ∧
            y.squash = none ∧ y.priv = t.priv ∧ (w.core c).admitAt = some s.clk ∧
            w.urgent = s.urgent ++ b.sources.map (Choice.fire c sl ·) ∧ w.mem = s.mem) ∧
          (∀ v, t.resume = some v → ∃ w, exec .admitThread s = .next w ∧ (w.thread c sl).place = .inFlight ∧
            (w.thread c sl).inst = some { v.inst with ctx := k } ∧ (w.core c).admitAt = some s.clk ∧ w.urgent = s.urgent ∧
            w.mem = s.mem))) ∧
      (∀ f, t.priv = false → maskMeets t.failMask b.touchSet = true → t.failRec = some f →
        ∃ w, exec .admitThread s = .next w ∧ (w.thread c sl).place = .fault ∧
          (w.thread c sl).trap = some (s.trapOf c sl f.cause f.blk b.addr false false f.va f.detail .none))) ∧
    (s.keptOut c = some (k, sl) → ∃ w, exec .admitThread s = .next w ∧ (w.thread c sl).place = .fault ∧
      (w.thread c sl).trap = some (s.trapOf c sl .permission b.addr b.ft false false (b.addr.setWidth 64) (memDetail 0 3 0 3) .none))

/-- R41, R43, R45, R151, R395: THREAD_RETIRE frees the slot of a thread whose exit is complete, which arrives and drops at its
barriers, and lets one that is not wait; one with a failed deferred load faults instead; GROUP_RETIRE removes a group whose
threads have retired and whose engines are done, and counts it; GRID_RETIRE completes a grid whose groups have all retired.
R44: what ends a context ends each of its grids, whose groups leave their
cores, with a status. (That the NEXT of a retiring thread's fault is its own next block is the model's choice, log entry 28; that a
wait on a channel is timed by the clk that its group counts is log entry 35.) R279, R280, R281: BARRIER_TIMEOUT breaks the barrier whose time has run out, and every thread that waits on it takes a
barrier-timeout fault; ROPE_PHASE_COMPLETE starts the counts of every member again, 24 clk after the last group arrival;
CHANNEL_WAIT_TIMEOUT gives the thread of an expired `waitp` a fault that names the channel. -/
def Obligations.Retirements : Prop :=
  (∀ (s : State) (c n : Nat),
    (s.args = [c, n] → (s.retireReady c n = false → exec .threadRetire s = .next s) ∧
      (s.retireReady c n = true → (s.thread c n).task = none → (s.groupOf c n).carrier = false →
        (s.thread c n).failMask = 0 → exec .threadRetire s = .next (((s.retireBars c n).releaseToken c n).freeSlot c n)) ∧
      (∀ f, s.retireReady c n = true → (s.thread c n).failMask ≠ 0 → (s.thread c n).failRec = some f →
        (s.groupOf c n).isSaving = false → s.openRegion c n = none → ∃ w, exec .threadRetire s = .next w ∧ (w.thread c n).place = .fault ∧
          (w.thread c n).trap = some (s.trapOf c n f.cause f.blk (s.thread c n).next true false f.va f.detail .none))) ∧
    (∀ gd, s.args = [c, n] → Tbl.find? s.grids (s.group c n).grid = some gd →
      (s.mayRetire c n = false → exec .groupRetire s = .next s) ∧
      (s.mayRetire c n = true → ∃ w, exec .groupRetire s = .next w ∧
        (w.grid (s.group c n).grid).retired = gd.retired + 1 ∧ (c, n) ∉ (w.grid (s.group c n).grid).resident)) ∧
    (∀ gd, s.args = [c] → Tbl.find? s.grids c = some gd → gd.launch.done = 0 → (∀ e ∈ s.cores, ∀ g ∈ e.2.groups, g.2.grid ≠ c) →
      (gd.retired ≠ gd.launch.groups ∨ gd.resident ≠ [] → exec .gridRetire s = .next s) ∧
      (gd.retired = gd.launch.groups → gd.resident = [] → ∃ w, exec .gridRetire s = .next w ∧
        w.grids = Tbl.erase s.grids c ∧ (w.queue gd.queue).dcnt = (s.queue gd.queue).dcnt + 1 ∧
        (w.queue gd.queue).open_ = (s.queue gd.queue).open_ - 1 ∧ (w.queue gd.queue).dstat = (s.queue gd.queue).dstat)) ∧
    (∀ g, Tbl.find? (s.core c).groups (s.thread c n).group = some g →
     let t := s.thread c n
     let u := s.retireBars c n
     let v := s.freeSlot c n
     (∀ b, b < 18 → (u.group c t.group).bar b =
       if t.arrived.contains b then { g.bar b with drop := ((g.bar b).drop + 1) % 2048 }
       else if (g.bar b).brk ≠ none then g.bar b
       else { g.bar b with cnt := ((g.bar b).cnt + 1) % 2048, drop := ((g.bar b).drop + 1) % 2048 }) ∧
     (u.group c t.group).ropeDrop = g.ropeDrop + 1 ∧
     (u.group c t.group).ropeCnt = g.ropeCnt + (if t.arrived.contains ropeBit then 0 else 1) ∧
     (v.core c).threads = Tbl.erase (s.core c).threads n ∧ (v.group c t.group).live = g.live - 1 ∧
     (g.carrier = false → n ∉ (v.group c t.group).slots ∧ ∀ sl ∈ g.slots, sl ≠ n → sl ∈ (v.group c t.group).slots)) ∧
    (∀ status, s.endContext c status =
      (Tbl.keysWhere (fun _ g => g.ctx == c) s.grids).foldl (fun s gn => s.endGrid gn status) s) ∧
    (∀ gd status, Tbl.find? s.grids n = some gd → gd.launch.done = 0 →
      let w := s.endGrid n status
      (w.queue gd.queue).dcnt = (s.queue gd.queue).dcnt + 1 ∧
      (w.queue gd.queue).open_ = (s.queue gd.queue).open_ - 1 ∧
      (w.queue gd.queue).dstat = (if status = 0 then (s.queue gd.queue).dstat else status) ∧
      (∀ k, (∀ e ∈ (s.core k).groups, e.2.grid = n) → (w.core k).groups = []) ∧
      ((∀ e ∈ s.cores, ∀ g ∈ e.2.groups, g.2.grid ≠ n) ∨ (∃ k x g y, s.cores = [(k, x)] ∧ x.groups = [(g, y)] ∧ y.grid = n) →
        w.grids = Tbl.erase s.grids n))) ∧
  (∀ (s : State) (c n : Nat),
    (∀ bar gr t, s.args = [c, n, bar] → Tbl.find? (s.core c).groups n = some gr → gr.counts = true → bar < 18 →
      (gr.bar bar).since = some t → (gr.bar bar).brk = none →
      (timedOut gr.barTimeout t gr.clock = false → exec .barrierTimeout s = .next s) ∧
      (timedOut gr.barTimeout t gr.clock = true → ∃ w, exec .barrierTimeout s = .next w ∧
        ((w.group c n).bar bar).brk = some .timeout ∧ ∀ sl ∈ gr.slots, (s.thread c sl).place = .barrier bar →
          (s.thread c sl).save = none → (w.thread c sl).place = .fault ∧ ∃ tr, (w.thread c sl).trap = some tr ∧
            tr.cause = .barTimeout ∧
            tr.detail = barDetail (barName bar).1 (barName bar).2 (gr.bar bar).cnt (gr.bar bar).exp)) ∧
    (∀ gr t, s.args = [c, n, 18] → Tbl.find? (s.core c).groups n = some gr → gr.counts = true → s.ropeSince c n = some t →
      (timedOut gr.barTimeout t gr.clock = false → exec .barrierTimeout s = .next s) ∧
      (timedOut gr.barTimeout t gr.clock = true → ∃ w, exec .barrierTimeout s = .next w ∧
        (w.ropeBar gr.grid (s.ropeOf c n)).brk = true ∧ ∀ m ∈ s.ropeMembers gr.grid (s.ropeOf c n), ∀ sl ∈ (s.group m.1 m.2).slots,
          (s.thread m.1 sl).place = .rope → (s.thread m.1 sl).save = none → (w.thread m.1 sl).place = .fault ∧
            ∃ tr, (w.thread m.1 sl).trap = some tr ∧ tr.cause = .barTimeout)) ∧
    (∀ rope t, s.args = [c, rope] → (s.ropeBar c rope).due = some t →
      (s.clk < t → exec .ropePhaseComplete s = .next s) ∧
      (t ≤ s.clk → ∃ w, exec .ropePhaseComplete s = .next w ∧ (w.ropeBar c rope).due = none ∧
        ∀ m ∈ s.ropeMembers c rope, (w.group m.1 m.2).ropeCnt = 0)) ∧
    (∀ ch, s.args = [c, n] → (s.thread c n).place = .channel ch → (s.thread c n).save = none → (s.groupOf c n).counts = true →
      let t := s.thread c n
      (timedOut (s.groupOf c n).barTimeout t.waitSince (s.groupOf c n).clock = false → exec .channelWaitTimeout s = .next s) ∧
      (timedOut (s.groupOf c n).barTimeout t.waitSince (s.groupOf c n).clock = true → exec .channelWaitTimeout s =
        .next (s.takeTrap c n ⟨.barTimeout, t.priv, t.waitBlk, t.next, false, false, 0, BitVec.ofNat 64 (ch + 48), t.waitBlk,
          ⟨.none, t.waitBlk, t.waitIdx, t.hdoneArg⟩, false⟩))))

/-! ## Engine events (spec/14 to spec/18) -/

/-- R43, R189, R289, R290, R294, R295: ENGINE_PORT_ACCEPT takes the command at the head of a port when its unit admits it;
COPY_RUN_ISSUE adds the next run of a copy, once its pages translate, to the channel's runs, and breaks the channel on a page
that may not be accessed; COPY_RUN_PERFORMED writes the run's bytes at its destination, unless that is the scratchpad of a group that has retired, and the write
pointer of a channel whose only copy is now whole is that of all its accepted bytes. -/
def Obligations.CopyEvents : Prop :=
  ∀ (s : State) (c ch n : Nat),
    let x := (s.core c).channel ch
    (∀ k rest, s.args = [c] → (s.core c).port = k :: rest →
      (s.admits c k = false → exec .enginePortAccept s = .next s) ∧
      (s.admits c k = true → exec .enginePortAccept s = .next ((s.modCore c fun y => { y with port := rest }).acceptCmd c k))) ∧
    (∀ cp, s.args = [c, ch] → x.issuing = some cp → cp.stalled = false →
      let v := s.copyAccessor c cp
      let m := cp.desc.runLen cp.issued
      let a := cp.desc.addrs cp.issued
      let issued (dst : List Seg) (nc dead : Bool) (src : List Seg) : Prop := ∃ w, exec .copyRunIssue s = .next w ∧
        (w.core c).channel ch = { x with
          copies := x.copies.map fun q => if q.id = cp.id then { q with issued := q.issued + m } else q
          runs := x.runs ++ [⟨cp.id, cp.group, cp.slot, cp.issued, m, src, dst, nc, cp.desc.sb, dead⟩] } ∧ w.mem = s.mem
      (∀ src mt' dst mt, s.judgeEngine v .engineRead a.1 m = .ok src mt' → cp.goneAt c a.2 = none →
        s.judgeEngine v .engineWrite a.2 m = .ok dst mt → issued dst (mt == .nonCoherent) false src) ∧
      (∀ src mt' l, s.judgeEngine v .engineRead a.1 m = .ok src mt' → cp.goneAt c a.2 = some l →
        issued [⟨l, m, false⟩] false true src) ∧
      (∀ va why lvl, s.judgeEngine v .engineRead a.1 m = .bad .permission va why lvl → why ≠ 6 →
        ∃ w, exec .copyRunIssue s = .next w ∧ w.mem = s.mem ∧
          (w.core c).channel ch = { x with brk := true, cause := 1, infl := 0, copies := [] })) ∧
    (∀ r, s.args = [c, ch, n] → x.runs[n]? = some r →
      (s.runFree r = false → exec .copyRunPerformed s = .next s) ∧
      (s.runFree r = true → ∃ w, exec .copyRunPerformed s = .next w ∧
        (r.dead = true → w.mem = s.mem) ∧
        (∀ l m i, s.Safe → r.dead = false → r.dstNc = false → r.src = [⟨l, r.len, false⟩] → r.dst = [⟨m, r.len, false⟩] →
          memRead w.mem i = if m ≤ i ∧ i < m + r.len then memRead s.mem (l + (i - m)) else memRead s.mem i) ∧
        ((w.core c).channel ch).runs = removeAt x.runs n ∧
        (∀ cp, x.brk = false → x.copies = [cp] → cp.id = r.copy → cp.performed = [] → r.pos = 0 → r.len = cp.size → 0 < cp.size →
          ((w.core c).channel ch).wptr = x.iptr ∧ ((w.core c).channel ch).infl = x.infl - 1 ∧
            ((w.core c).channel ch).copies = [])))

/-- R305, R306, R307, R314, R317: MATRIX_STEP takes one step of the context whose turn it is; MMA_COMPLETE takes a spent `mma`
from the queue and counts its panel; MACC_COMPLETE loads the next row of a `macc.ld` into its context, or writes that of a
`macc.st`, whose context is freed with the last when its bit says so. R306: one element after a step: in the integer mode the exact
sum of products is added modulo 2^32. R310, R311, R312: GANG_ROUND_COMPLETE of a gang whose members, on cores of their own, agree
performs it: each command enters its matrix array's queue with the operand that the lowest rank's array reads and broadcasts; a round
that does not agree is refused with code 11; LATCH_TIMEOUT refuses a member whose time has run out with code 12. -/
def Obligations.MatrixEvents : Prop :=
  (∀ (s : State) (c ac i : Nat) (q : MatCmd), (s.core c).headOn ac = some (i, q) →
    let x := s.core c
    let rest := removeAt x.matQ i
    (s.args = [c] → x.nextStep = some ac →
      let a := (x.claim ac q.group).acc ac
      let r := s.mmaStep (q.start a).1 (q.start a).2
      exec .matrixStep s = .next (s.setCore c { (x.modAcc ac fun _ => r.2) with matQ := replaceAt x.matQ i r.1, matLast := ac })) ∧
    (s.args = [c, ac] → q.kind = .mma → q.started = true → q.stopped = false →
      (q.step < q.steps → exec .mmaComplete s = .next s) ∧
      (q.steps ≤ q.step → q.m ≠ 0 → q.n ≠ 0 →
        let n := (x.acc ac).counts q.m q.n
        exec .mmaComplete s = .next ((s.setCore c { (x.modAcc ac fun a => { a with v := true, owner := q.group }) with
          matQ := rest }).modDie (dieOf c) fun d => d.census_ q.asp q.blk q.idx n.1 n.2.1 0 n.2.2))) ∧
    (s.args = [c, ac] →
      let a := (x.claim ac q.group).acc ac
      let kept := if q.lastRow then rest else replaceAt x.matQ i { q with step := q.step + 1 }
      (q.kind = .mma → exec .maccComplete s = .next s) ∧
      (∀ i32, q.kind = .ld i32 →
        let a0 := if q.step = 0 then { a with i32 := i32, err := 0, pois := false } else a
        exec .maccComplete s = .next (s.setCore c
          { (x.modAcc ac fun _ => if q.step < q.m then s.ldRow q q.step a0 else a0) with matQ := kept })) ∧
      (∀ raw, q.kind = .st raw →
        let n := if raw then 128 else fmtRowBytes (entFmt q.ea)
        let row := (List.range q.n).foldl (fun u j => u.stWrite q a.pois (q.da.byteAddr n 0 q.step (n / 32 * j))
          (stElem raw q.ea (a.elem q.step j)).1) s
        ∃ w, exec .maccComplete s = .next w ∧ (w.core c).matQ = kept ∧ w.mem = (if q.step < q.m then row.mem else s.mem) ∧
          (q.lastRow = true → q.flag = true → (rest.find? fun p => p.ac == ac) = none → (w.core c).accs = Tbl.erase x.accs ac)))) ∧
  (∀ (acc : Word) (ps : List (BitVec 8 × BitVec 8)),
    let num (b : BitVec 8) : FpNum := if b.toInt < 0 then .fin true b.toInt.natAbs 0 else .fin false b.toInt.natAbs 0
    mmaElem true acc (ps.map fun p => num p.1) (ps.map fun p => num p.2) =
      acc + BitVec.ofInt 32 ((ps.map fun p => p.1.toInt * p.2.toInt).foldl (· + ·) 0)) ∧
  (∀ (s : State) (d grid rope : Nat) (ms : List LatchEntry), s.args = [d, grid, rope] → s.gangRound d grid rope = some ms →
    let left := s.modDie d fun x => { x with latch := x.latch.filter fun y => !ms.contains y }
    (s.gangAgrees ms = false → exec .gangRoundComplete s = .next (ms.foldl (fun u e =>
      u.refusePort e.cmd.core e.port .engine (engDetail 11 e.cmd.idx e.cmd.ac 0xd4) doneTok) left)) ∧
    (∀ low, s.gangAgrees ms = true → bestBy (fun x y => decide (x.rank < y.rank)) ms = some low →
      (ms.map fun e => e.cmd.core).Nodup →
      (∀ e ∈ ms, ((s.core e.cmd.core).acc e.cmd.ac).v = true → ((s.core e.cmd.core).acc e.cmd.ac).owner = e.cmd.group) →
      exec .gangRoundComplete s = .next (ms.foldl (fun u e => (u.modCore e.cmd.core fun x =>
        { (x.claim e.cmd.ac e.cmd.group) with
          matQ := (x.claim e.cmd.ac e.cmd.group).matQ ++ [{ e.cmd with units := s.broadcast low }] }).finishPort
        e.cmd.core e.port 0 doneTok nullTok) left))) ∧
  (∀ (s : State) (c sl : Nat) (e : LatchEntry), s.args = [c, sl] → (s.groupOf c sl).counts = true →
    let now := (s.group c e.cmd.group).clock
    ((s.die (dieOf c)).latch.find? fun y => y.cmd.core == c && y.cmd.slot == sl) = some e →
    (timedOut (s.group c e.cmd.group).barTimeout e.arrived now = false → exec .latchTimeout s = .next s) ∧
    (timedOut (s.group c e.cmd.group).barTimeout e.arrived now = true → exec .latchTimeout s =
      .next ((s.modDie (dieOf c) fun x => { x with latch := x.latch.filter fun y => y != e }).refusePort c e.port .engine
        (engDetail 12 e.cmd.idx e.cmd.ac 0xd4) doneTok)))

/-- R20, R322-R326, R329, R332: a temporal command starts, and completes, when its time has passed, with its effect on the array's
state; a launch ends 8 clk and its window, in ticks, after it starts: one that matches writes its results, one that does not slows the
tick by one step and starts again, and at the last takes the array offline and is LOST;
TICK_REPLAN sets tick and margin in an idle window of 100 µs; TEMPORAL_ARRAY_RESET brings an offline array back. R322, R323: a
column of a temporal array that takes the first arrival has the earliest of its terms, and one that takes the last the latest,
when every term arrives before the window ends, with the lowest row that has it; a launch writes the time and that row, or 0x3ff and
63, into the column's capture word, and with CHAIN the time into its input. R265, R330: `tcap` waits for the atomics that are queued
at its bytes, and writes its words, poisoned while POIS is 1. -/
def Obligations.TemporalEvents : Prop :=
  (∀ (s : State) (c m : Nat) (q : TempCmd) (rest : List TempCmd),
    let a := (s.core c).temp
    let sets (i : Instr) (st : Temporal) : Prop :=
      exec i s = .next (s.modTemp c fun y => { y with queue := rest, idleSince := s.clk, st := st })
    (a.queue = q :: rest → s.args = [c] → q.start = none →
      exec .temporalCommandStart s = .next (s.modTemp c fun y => { y with queue := { q with start := some s.clk } :: rest })) ∧
    (∀ t, a.queue = q :: rest → s.args = [c] → q.start = some t → s.clk < t + a.lasts c q.op →
      exec .temporalCommandComplete s = .next s) ∧
    (∀ t, a.queue = q :: rest → s.args = [c] → q.start = some t → t + a.lasts c q.op ≤ s.clk →
      (∀ w mode, q.op = .twin w mode → sets .temporalCommandComplete { a.st with w := w, mode := mode }) ∧
      (∀ sel segs row n, q.op = .tload sel segs row n →
        sets .temporalCommandComplete (loadCodes a.st sel row (halfwords (s.cmdBytes c q segs)))) ∧
      (q.op = .trst → sets .temporalCommandComplete Temporal.reset) ∧
      (∀ k j code, q.op = .tcode false k j code → sets .temporalCommandComplete (a.st.setDelay k j code)) ∧
      (∀ k j code, q.op = .tcode true k j code → sets .temporalCommandComplete (a.st.setInput k code)) ∧
      (∀ segs, q.op = .tcap segs →
        (s.atomicFirst segs = true → exec .temporalCommandComplete s = .next s) ∧
        (s.atomicFirst segs = false → ∃ w, exec .temporalCommandComplete s = .next w ∧ (w.core c).temp.queue = rest ∧
          ∀ l e, segs = [⟨l, 64, e⟩] → q.units = [] → s.Safe →
            (∀ i < 64, (memRead w.mem (l + i)).toNat = (a.st.capture (i / 2)).toNat / 256 ^ (i % 2) % 256 ∧
              (l + i ∈ w.poison ↔ a.st.pois = true)) ∧
            ∀ x, x < l ∨ l + 64 ≤ x → memRead w.mem x = memRead s.mem x)) ∧
      (∀ j, q.op = .tval j → exec .temporalCommandComplete s =
        .next ((s.modTemp c fun y => { y with queue := rest, idleSince := s.clk }).finishPort c ⟨q.slot, q.idx, .trst, q.t0, q.t1⟩ 0
          (dword ((a.st.capture j).toNat / 1024)) (dword ((a.st.capture j).toNat % 1024))))) ∧
    (∀ chain t, a.queue = q :: rest → q.start = some t → q.op = .tlaunch chain → a.tick ≠ 3 →
      let ends := t + (8 + (a.st.w.toNat * tickPs a.tick + 999) / 1000)
      (∀ x, s.args = [c, x] → s.clk < ends → exec .tlaunchAttemptEnd s = .next s) ∧
      (s.args = [c, 0] → ends ≤ s.clk → sets .tlaunchAttemptEnd (a.st.launch chain)) ∧
      (s.args = [c, 1] → ends ≤ s.clk → ∃ w, exec .tlaunchAttemptEnd s = .next w ∧ (w.core c).temp.tick = a.tick + 1 ∧
        (w.core c).temp.retry = a.retry + 1 ∧
        (a.tick ≠ 2 → (w.core c).temp.queue = { q with start := some s.clk } :: rest ∧ (w.core c).temp.st = a.st) ∧
        (a.tick = 2 → (w.core c).temp.queue = rest ∧ (w.core c).temp.st = { a.st with lost := true }))) ∧
    (∀ tick, s.args = [c, tick, m] → a.queue = [] → a.tick ≠ 3 →
      (s.clk < a.idleSince + 100000 → exec .tickReplan s = .next s) ∧
      (a.idleSince + 100000 ≤ s.clk → ∃ w, exec .tickReplan s = .next w ∧
        (w.core c).temp = { a with tick := BitVec.ofNat 2 tick, margin := BitVec.ofNat 8 m } ∧ w.mem = s.mem)) ∧
    (s.args = [c] → (a.tick ≠ 3 → exec .temporalArrayReset s = .next s) ∧
      (a.tick = 3 → ∃ w, exec .temporalArrayReset s = .next w ∧
        (w.core c).temp = { a with tick := Config.calibratedTick c, margin := Config.calibratedMargin c, idleSince := s.clk }))) ∧
  (∀ (t : Temporal) (j : Nat),
    (t.mode.getLsbD j = false →
      (t.column j = none ↔ ∀ k < 32, t.term k j = none) ∧
      ∀ v k, t.column j = some (v, k) → k < 32 ∧ t.term k j = some v ∧ (∀ k' < 32, ∀ v', t.term k' j = some v' → v ≤ v') ∧
        ∀ k' < k, t.term k' j ≠ some v) ∧
    (t.mode.getLsbD j = true →
      (t.column j = none ↔ ∃ k, k < 32 ∧ t.term k j = none) ∧
      ∀ v k, t.column j = some (v, k) → k < 32 ∧ t.term k j = some v ∧ (∀ k' < 32, ∀ v', t.term k' j = some v' → v' ≤ v) ∧
        ∀ k' < k, t.term k' j ≠ some v) ∧
    ∀ chain, j < 32 →
      (t.column j = none → (t.launch chain).capture j = 0xffff) ∧
      (∀ v k, t.column j = some (v, k) → ((t.launch chain).capture j).toNat % 1024 = v ∧
        ((t.launch chain).capture j).toNat / 1024 = k) ∧
      (t.launch false).input j = t.input j ∧
      ((t.launch true).input j).toNat = (match t.column j with | some (v, _) => v | none => 1023))

/-- R343, R344, R345, R348: COMMIT_ENGINE_START takes a region's commit once its thread's store buffer is empty;
LINE_LOCK_GRANTED asks for the next free line, and locks it once its time has passed (log entry 4); with every line locked, after the
time of R344, the region ends: its stale inputs are read again, and where a pinned one has changed, or a constraint fails, it aborts;
else its stores are performed together, its tagged slots take their values, its lines are free again and its thread is filed to the
target, in the clk after; SERIAL_TOKEN_GRANT gives a free token to the thread that waits first.
R338: the load of a region takes the next input, with its tag, and watches its lines; one that a single store of the region covers
takes that store's value, with its record's tag at b64, and pins the record's input at a smaller size; any other overlap is an abort for
forwarding, and a 17th input one for capacity. R342: a watched line that leaves its L1 marks its inputs stale.
R339, R340: `mov`, `addi`, `add` and `sub` keep a tag as the table says; a compare with the immediate of a tagged operand records a
constraint, or pins when 32 stand; `apin` and the other operations pin the input of a tagged operand. R341: a commit in a region adds
the instance's stores to it, a tagged one as a record, and its tagged live-out writes to its tags. R346: what an abort restores and
where it files the thread. -/
def Obligations.RegionCommits : Prop :=
  (∀ (s : State) (c sl k : Nat) (r : Region) (target : VAddr), s.openRegion c sl = some (k, r) →
    let lines := (r.readLines ++ r.writeLines).foldl (fun acc l => insertNat l acc) []
    let aborted (w : State) (cause : Nat) : Prop :=
      (w.thread c sl).abortCause = cause ∧ (w.thread c sl).live = r.snapshot ∧ w.mem = s.mem ∧ (∀ e ∈ w.locks, ¬ (e.2.1 = c ∧ e.2.2 = k)) ∧
      (if cause = 6 then (w.thread c sl).region = none ∧ (w.thread c sl).aborts = 0 ∧ (w.thread c sl).next = r.abortPath
       else (w.thread c sl).aborts = min 255 ((s.thread c sl).aborts + 1) ∧ (w.thread c sl).next = r.entry ∧
         ∃ ser, Tbl.find? (w.core c).regions k = some ⟨r.slot, r.entry, r.abortPath, r.snapshot, [], [], [], [], [], [], 0, r.opened,
           ser, r.yieldTo⟩)
    (∀ rest, s.args = [c] → (s.core c).commit = none → (s.core c).commitQ = (sl, target) :: rest → s.commitYields c sl = false →
      ((s.thread c sl).buf ≠ [] ∨ (s.thread c sl).deferred ≠ [] → exec .commitEngineStart s = .next s) ∧
      ((s.thread c sl).buf = [] → (s.thread c sl).deferred = [] → ∀ todo,
        lines.filter (fun l => !s.locks.contains (l, c, k)) = todo →
        exec .commitEngineStart s = .next (s.modCore c fun y => { y with
          commitQ := rest.filter (· != (sl, target))
          commit := some ⟨sl, target, todo, [], if todo = [] then some (s.clk + s.commitTime r) else none⟩ }))) ∧
    (∀ l todo held, s.args = [c] → s.engineOwns l = false → s.atomicFirst [lineSeg l] = false → s.holder l = none →
      ((s.core c).commit = some ⟨sl, target, l :: todo, held, none⟩ →
        exec .lineLockGranted s = .next (s.modCore c fun y => { y with
          commit := some ⟨sl, target, l :: todo, held, some (s.clk + s.lockTime c l)⟩ })) ∧
      (∀ t, (s.core c).commit = some ⟨sl, target, l :: todo, held, some t⟩ → t ≤ s.clk → (s.obtain c [lineSeg l] true).2 = true →
        ∃ w due, exec .lineLockGranted s = .next w ∧ w.locks = s.locks ++ [(l, c, k)] ∧
          (w.core c).commit = some ⟨sl, target, todo, held ++ [l], due⟩ ∧ w.mem = s.mem ∧ (due = none ↔ todo ≠ []))) ∧
    (∀ held due, s.args = [c] → (s.core c).commit = some ⟨sl, target, [], held, some due⟩ → due ≤ s.clk →
      (s.core c).tagRoom r = true → (s.core c).roomAll = true →
      let ins := r.inputs.map fun i => if i.stale then { i with v := s.lockedRead i.segs, stale := false } else i
      let changed := r.inputs.any fun i => i.stale && i.pin && s.lockedRead i.segs != i.v
      let fails := r.constraints.any fun q => !q.holds (match ins[q.input]? with | some i => i.v.setWidth 64 | none => 0)
      let s0 := s.modCore c fun x => { x with commit := none }
      (changed = true → ∃ w, exec .lineLockGranted s = .next w ∧ aborted w 1 ∧ (w.thread c sl).filed = s.clk + 1) ∧
      (changed = false → fails = true → ∃ w, exec .lineLockGranted s = .next w ∧ aborted w 2 ∧ (w.thread c sl).filed = s.clk + 1) ∧
      (changed = false → fails = false → ∃ w, exec .lineLockGranted s = .next w ∧ w.mem = (s0.performEntries c ins r.stores).mem ∧
        (w.thread c sl).live = (r.tags.foldl (fun (t : Thread) e => t.setPair e.1 (tagValue ins e.2)) (s.thread c sl)).live ∧
        (w.thread c sl).next = target ∧ (w.thread c sl).region = none ∧ (w.thread c sl).aborts = 0 ∧
        (w.thread c sl).filed = s.clk + 1 ∧ (w.core c).commit = none ∧ ∀ e ∈ w.locks, ¬ (e.2.1 = c ∧ e.2.2 = k))) ∧
    (∀ d n, s.args = [d] → (s.die d).nextSerial = some (c, sl, n) →
      ((s.die d).serial ≠ none → exec .serialTokenGrant s = .next s) ∧
      ((s.die d).serial = none → exec .serialTokenGrant s = .next (s.modDie d fun y =>
        { y with serial := some (c, sl, s.tsc d), serialWait := y.serialWait.filter (· != (c, sl, n)) }))) ∧
    (∀ (x : Inst) (q : Req) n, s.args = [c, sl, n] → (s.thread c sl).inst = some x → x.req? n = some q → q.kind.isLoad = true →
      q.stage = .ready → q.due ≤ s.clk → x.squash = none → x.mayRead s.clk q = true → r.ser = false →
      (s.thread c sl).readsFirst (s.blockOf c sl) n q.kind.acquires q.segs = false → s.mustWait q.segs c (some k) = false →
      (∀ e, r.stores.filter (fun e => e.meets q.segs) = [e] → e.segs = q.segs → e.bytes = q.bytes →
        (e.record = none → exec .loadReturn s = .next (s.finishLoad c sl q (e.data.toNat % 2 ^ (8 * e.bytes)) none)) ∧
        (∀ i off inp, e.record = some (i, off) → r.inputs[i]? = some inp →
          let v := (inp.v.setWidth 64 + off).toNat % 2 ^ (8 * e.bytes)
          (q.bytes = 8 → exec .loadReturn s = .next (s.finishLoad c sl q v (some (i, off)))) ∧
          (q.bytes ≠ 8 → ∃ u, exec .loadReturn s = .next (State.finishLoad u c sl q v none) ∧
            Tbl.find? (u.core c).regions k = some { r with inputs := replaceAt r.inputs i { inp with pin := true } }))) ∧
      ((∃ e ∈ r.stores, e.meets q.segs = true) →
        (∀ e, r.stores.filter (fun e => e.meets q.segs) = [e] → e.segs ≠ q.segs ∨ e.bytes ≠ q.bytes) →
        ∃ v, exec .loadReturn s = .next ((s.modInst c sl fun y => y.abortWith s.clk n 5 0).finishLoad c sl q v none)) ∧
      (∀ bs, (∀ e ∈ r.stores, e.meets q.segs = false) → (s.thread c sl).forward q.segs = .memory →
        (s.obtain c q.segs false).2 = true → s.readBytes (dieOf c) true q.segs = some bs →
        let v := bytesToNat bs
        let watched := (segLines q.segs).foldl (fun a l => insertNat l a) r.readLines
        let fresh (i : RInput) : RInput := { i with stale := false }
        (16 ≤ r.inputs.length ∨ 64 < watched.length →
          ∃ u w, exec .loadReturn s = .next w ∧ w = State.finishLoad u c sl q v none ∧
            ∃ y, (u.thread c sl).inst = some y ∧ y.regionCause = (x.abortWith s.clk n 3 0).regionCause) ∧
        (r.inputs.length < 16 → watched.length ≤ 64 →
          ∃ u g, exec .loadReturn s = .next (State.finishLoad u c sl q v (if q.bytes = 16 then none else some (r.inputs.length, 0))) ∧
            Tbl.find? (u.core c).regions k = some g ∧ g.readLines = watched ∧
            g.inputs.map fresh = r.inputs.map fresh ++ [⟨q.va, q.segs, q.bytes, BitVec.ofNat 128 v, false, q.bytes == 16⟩]))) ∧
    (∀ (g i : Nat) (inp : RInput) (l : Nat), s.args = [g] → s.granule g = 2 → r.inputs[i]? = some inp → l ∈ segLines inp.segs → l / 512 = g →
      l ∈ (s.core (s.l1Core c l)).l1 → ∃ w r', exec .granuleReclassify s = .next w ∧ Tbl.find? (w.core c).regions k = some r' ∧
        r'.inputs[i]? = some ({ inp with stale := true } : RInput)) ∧
    (∀ (x : Inst), s.args = [c, sl] → s.nextCommit c = some (sl, x) → (s.thread c sl).inst = some x → (s.groupOf c sl).isSaving = false →
      (∀ rc, x.aborts = some rc → ∃ w, exec .blockCommit s = .next w ∧ aborted w rc.cause ∧
        (rc.cause = 6 → (w.thread c sl).abortCode = rc.code)) ∧
      (∀ a own, x.aborts = none → s.commitFault c sl x = none → x.term = .goto a none →
        (s.thread c sl).buf.filter (fun e => !e.committed) = own →
        ∃ w g, exec .blockCommit s = .next w ∧ Tbl.find? (w.core c).regions k = some g ∧ (w.thread c sl).next = a ∧ w.mem = s.mem ∧
          g.stores = r.stores ++ own.map (fun e =>
            (⟨e.kind, e.segs, e.data.length, BitVec.ofNat 128 (bytesToNat e.data), e.tag⟩ : RStore)) ∧
          (∀ l tag, x.writes (s.thread c sl).deferred = [l] → l.wide = true → l.tag = some tag → Tbl.find? g.tags l.slot = some tag)))) ∧
  (∀ (s : State) (x : Inst) (t1 t0 : Target) (a b : Token) (k i : Nat) (g : Region) (inp : RInput) (off : DWord) (imm : BitVec 15),
    s.live x → s.has .a a → x.region = some k → Tbl.find? (s.core s.cur.core).regions k = some g → a.tag = some (i, off) →
    g.inputs[i]? = some inp → s.guardTrue = true → (s.opTok .c).tag = none →
    let c := s.cur.core
    let plain : IntMod := ⟨.i64, false, false, false⟩
    let pinned : List RInput := replaceAt g.inputs i { inp with pin := true }
    let sends (ins : Instr) (h : Region) (v : Token) : Prop := ∃ t, exec ins s = .next t ∧
      Emitted s t 1 1 (match ins with | .addi _ _ | .setpiLt _ _ => .none | _ => t1) t0 v v ∧ Tbl.find? (t.core c).regions k = some h
    sends (.mov false t1 t0) g a ∧
    sends (.addi imm t0) g { dword (a.lo + (imm.signExtend 64).toNat) with tag := some (i, off + imm.signExtend 64) } ∧
    (s.has .b b → b.tag = none → ∃ va vb : Token,
      sends (.add plain t1 t0) g { va with tag := some (i, off + b.data.setWidth 64) } ∧
      sends (.sub plain t1 t0) g { vb with tag := some (i, off - b.data.setWidth 64) }) ∧
    (let p := decide ((a.data.setWidth 64).toInt < imm.toInt)
     let q : Constraint := ⟨i, off, .lt, true, imm.signExtend 64, true, p⟩
     sends (.setpiLt imm t0) (if q ∈ g.constraints then g
       else if 32 ≤ g.constraints.length then { g with inputs := pinned } else { g with constraints := g.constraints ++ [q] }) (predTok p)) ∧
    (∀ ins ∈ [Instr.apin t1 t0, .andi imm t0, .muli imm t0, .fneg ⟨.f64, false, false, false⟩ t1 t0],
      ∀ t, exec ins s = .next t → ∃ h, Tbl.find? (t.core c).regions k = some h ∧ h.inputs = pinned)) ∧
  (∀ (q : Constraint) (v : DWord), q.rel = .lt → q.signed = true → q.tagLeft = true →
    (q.holds v = true ↔ (((v + q.c).toInt < q.k.toInt) ↔ q.outcome = true)))

/-- R360, R365, R369, R371, R383, R387: HEAP_OPERATION_APPLY applies, after the pops of the clk, the request that reached a heap first,
one in a clk, while the heap does not wait for the driver; one whose task another die holds goes on to that die (log entry 32); a refused one is answered with its code; a gain operation on a task that its heap holds answers with the old gain, and
one that no gain results from with code 3; a handle that names no valid task is code 2; `hspawn` makes the next task of its heap, and
at the capacity is code 4; HEAP_REPLY returns an answer to its instruction. R359, R364, R366, R367, R368: HEAP_POP takes the pending task of the largest gain, which runs from
then on, for a free slot of a carrier group; TASK_THREAD_CREATE creates its thread with the frame in l0-l15 and files it to
its entry block; HEAP_LEND lends a pending task to a die of the grid. R373-R379: RESID_INCLUSION adds a change that is due to
the residual; HEAP_TOL_EFFECT lets a due write of the tolerance take effect; what is due in one clk takes effect together, and one
settle test follows, which settles a grid whose residual is below the tolerance or that has no task left; SETTLE_POP_STOP ends pops and lending 80 clk after the settle;
HEAP_DRAIN writes the drained tasks and then the header; DRAIN_COMPLETE lets the carrier groups retire. -/
def Obligations.HeapOperations : Prop :=
  (∀ (s : State) (d i gn : Nat) (r : HeapReq) (hg : HeapGrid),
    let u := s.popAll
    let h := (u.die d).heap
    let took := u.modDie d fun y => { y with heap := { y.heap with queue := removeAt y.heap.queue i, opAt := some u.clk } }
    let gives (w : State) : Prop := exec .heapOperationApply s = .next w
    (s.args = [d] → h.opAt = some u.clk ∨ h.stalled = true → gives u) ∧
    (s.args = [d] → h.opAt ≠ some u.clk → h.stalled = false → h.nextReq u.clk = some (i, r) →
      (∀ code handle, r.op = .refuse code handle → gives (took.refuseHeap r code handle)) ∧
      (h.grid = some gn → (u.grid gn).heap = some hg →
        (∀ k handle v, r.op = .gain k handle v ∨ r.op = .dep handle → u.entryHeld gn hg d (handleIdx handle) = false →
          (u.taskOf hg handle = none → took.taskOf hg handle = none → gives (took.refuseHeap r 2 handle)) ∧
          (∀ x, u.taskOf hg handle = some x → handleDie handle ≠ d → gives ((u.modDie d fun y =>
            { y with heap := { y.heap with queue := removeAt y.heap.queue i } }).modDie (handleDie handle) fun y =>
              { y with heap := { y.heap with queue := y.heap.queue ++ [{ r with due := u.clk + 80, delay := 100 }] } }))) ∧
        (∀ k handle v t x, r.op = .gain k handle v → took.taskOf hg handle = some x → handleDie handle = d →
          u.entryHeld gn hg d (handleIdx handle) = false →
          took.fetchTask gn hg d (handleIdx handle) = .ok took t →
          let old := if t.running then t.q else t.g
          (t.valid = false → gives (took.refuseHeap r 2 handle)) ∧
          (t.valid = true → gainOp k old v = none → gives (took.refuseHeap r 3 handle)) ∧
          (∀ g w t', t.valid = true → gainOp k old v = some g →
            took.updateTask gn hg d (handleIdx handle) t (if t.running then { t with q := g } else { t with g := g }) = .ok w t' →
            (w.die d).heap.stalled = false → gives (w.answer r (some 0) (some (old.setWidth 64)) none))) ∧
        (∀ handle t x w t', r.op = .dep handle → took.taskOf hg handle = some x → handleDie handle = d →
          u.entryHeld gn hg d (handleIdx handle) = false → took.fetchTask gn hg d (handleIdx handle) = .ok took t → t.valid = true → t.c ≠ 0 →
          took.updateTask gn hg d (handleIdx handle) t { t with c := t.c - 1 } = .ok w t' → (w.die d).heap.stalled = false →
          gives (w.answer r (some 0) (some (BitVec.ofNat 64 t.c)) none)) ∧
        (∀ frame gain cnt, r.op = .spawn frame gain cnt → u.entryHeld gn hg d h.nextIdx = false →
          (h.nextIdx = hg.cap → gives (took.refuseHeap r 4 0)) ∧
          (∀ w t', h.nextIdx ≠ hg.cap → validGain gain = true → frameOk frame = true →
            took.updateTask gn hg d h.nextIdx noTask (newTask frame gain cnt u.clk) = .ok w t' → (w.die d).heap.stalled = false →
            gives ((w.modDie d fun y => { y with heap := { y.heap with nextIdx := h.nextIdx + 1 } }).answer r (some 0)
              (some ((handleOf d h.nextIdx).setWidth 64)) none))))) ∧
    (∀ c sl k p, s.args = [c, sl, k] →
      (s.replies.find? fun q => q.core == c && q.slot == sl && q.idx == k && decide (q.due ≤ s.clk)) = some p →
      p.resid = false → p.fault = none →
      let tok (v : Option DWord) : Token := match v with | some w => dword w.toNat | none => nullTok
      exec .heapReply s = .next ({ s with replies := removeOne p s.replies }.finishPort c ⟨sl, k, .hself, p.t0, p.t1⟩ 0 (tok p.v1) (tok p.v0)))) ∧
  (∀ (s : State) (d gn : Nat) (hg : HeapGrid) (h : Word), (s.grid gn).heap = some hg →
    (∀ u t c g sl w t', s.args = [d] → (s.die d).heap.grid = some gn → (s.die d).heap.stalled = false → hg.popping s.clk = true →
      (s.die d).heap.popAt ≠ some s.clk → (s.die d).heap.opAt ≠ some s.clk → popChoice (s.poppable hg d) = some (h, u) → s.carrierFor gn d = some (c, g, sl) →
      (s.die (handleDie h)).heap.stalled = false → (s.die (handleDie h)).heap.opAt ≠ some s.clk →
      s.entryHeld gn hg (handleDie h) (handleIdx h) = false →
      s.fetchTask gn hg (handleDie h) (handleIdx h) = .ok s t → s.withinSpread hg u.g = true → t.pending = true →
      s.updateTask gn hg (handleDie h) (handleIdx h) t { t with ran := true, q := 0, g := 0, running := true, lent := none } = .ok w t' →
      exec .heapPop s = .next (w.modDie d fun y => { y with heap := { y.heap with
        popAt := some s.clk
        creating := y.heap.creating ++ [(c, (s.clk + (if handleDie h = d then 12 else 100) +
          s.entryLatency gn hg (handleDie h) (handleIdx h) u), sl, gn, h, t.g)] } })) ∧
    (∀ n c due sl g gain t, s.args = [d, n] → (s.die d).heap.creating[n]? = some (c, due, sl, gn, h, gain) →
      (s.clk < due → exec .taskThreadCreate s = .next s) ∧
      (due ≤ s.clk → s.entryHeld gn hg (handleDie h) (handleIdx h) = false → (s.core c).roomFor (List.range 16) = true →
        (s.core c).groupOfSlot sl = some g → s.fetchTask gn hg (handleDie h) (handleIdx h) = .ok s t →
        Tbl.find? (s.core c).groups g ≠ none →
        ∃ w, exec .taskThreadCreate s = .next w ∧ (w.thread c sl).live = frameSlots t.frame ∧
          (w.thread c sl).next = BitVec.ofNat 56 (fieldAt t.frame 0 8) ∧ (w.thread c sl).task = some (h, gain) ∧
          (w.thread c sl).group = g ∧ (w.group c g).live = (s.group c g).live + 1 ∧
          (w.die d).heap.creating = removeAt (s.die d).heap.creating n ∧ w.mem = s.mem)) ∧
    (∀ t, s.args = [d, h.toNat] → (s.die d).heap.grid = some gn → s.taskOf hg h = some t → hg.popping s.clk = true →
      t.pending = true → hg.mask.getLsbD d = true →
      exec .heapLend s = .next (s.modDie (handleDie h) fun y => { y with heap := { y.heap with
        tasks := Tbl.set y.heap.tasks (handleIdx h) { t with lent := if d = handleDie h then none else some d } } }))) ∧
  (∀ (s : State) (gn : Nat) (gd : Grid) (h : HeapGrid), Tbl.find? s.grids gn = some gd → gd.heap = some h → s.args = [gn] →
    let now (h' : HeapGrid) : State := s.modGrid gn fun g => { g with heap := some h' }
    let tests (i : Instr) (h' : HeapGrid) : Prop :=
      (h'.settled ≠ none → exec i s = .next (now h')) ∧
      (h'.settled = none → h'.resid < (h'.tol.toNat : Int) → exec i s = .next (now { h' with
        settled := some (s.clk, false), tset := s.tsc ((leastBelow 8 fun d => h.mask.getLsbD d).getD 0) })) ∧
      (h'.settled = none → ¬ h'.resid < (h'.tol.toNat : Int) → h'.active = 0 → exec i s = .next (now { h' with
        settled := some (s.clk, true), tset := s.tsc ((leastBelow 8 fun d => h.mask.getLsbD d).getD 0) })) ∧
      (h'.settled = none → ¬ h'.resid < (h'.tol.toNat : Int) → h'.active ≠ 0 → exec i s = .next (now h'))
    (∀ due a b, h.incl = [(due, a, b)] → h.effects = [] → (s.clk < due → exec .residInclusion s = .next s) ∧
      (due ≤ s.clk → tests .residInclusion { h with resid := h.resid + a, active := h.active + b, incl := [] })) ∧
    (∀ due a b due' v, h.incl = [(due, a, b)] → h.effects = [(due', false, v)] → due ≤ s.clk → due' ≤ s.clk →
      let h' := { h with resid := h.resid + a, active := h.active + b, incl := [], tol := v, effects := [] }
      tests .residInclusion h' ∧ tests .heapTolEffect h') ∧
    (∀ due v, h.incl = [] → h.effects = [(due, false, v)] → (s.clk < due → exec .heapTolEffect s = .next s) ∧
      (due ≤ s.clk → tests .heapTolEffect { h with tol := v, effects := [] })) ∧
    (∀ n why, h.settled = some (n, why) → h.stopped = false →
      (s.clk < n + 80 → exec .settlePopStop s = .next s) ∧
      (n + 80 ≤ s.clk → exec .settlePopStop s = .next { now { h with stopped := true } with
        dies := Tbl.mapVals (fun _ d => if d.heap.grid = some gn then
          { d with heap := { d.heap with tasks := Tbl.mapVals (fun _ t => { t with lent := none }) d.heap.tasks } } else d) s.dies })) ∧
    (s.mayDrain h = false → exec .heapDrain s = .next s) ∧
    (∀ u n bad gs mt, s.mayDrain h = true →
      ((h.dies.flatMap fun d => (s.die d).heap.tasks.map fun e => (d, e.1)).any fun e => s.entryHeld gn h e.1 e.2) = false →
      (h.dies.flatMap fun d => (s.die d).heap.tasks.map fun e => (d, e.1)).foldl (fun r e => drainTask gn h e.1 e.2 r) (.going s 0 0) =
        .going u n bad →
      u.judgeUnit (u.gridRoot gn) .store h.dbase.toNat 128 = .ok gs mt →
      exec .heapDrain s = .next ((u.drainWrite ((h.dies.head?).getD 0) gs (u.drainHeader h n (n - h.dcap + bad))).modGrid gn fun g =>
        { g with heap := g.heap.map fun y => { y with drained := some (n, n - h.dcap + bad) } })) ∧
    (h.drained ≠ none → exec .drainComplete s = .next (now { h with complete := true })))

/-! ## Traps, saves, coherence and observation (spec/20, spec/21, spec/22) -/

/-- R403, R405, R406, R408, R409: FAULT_RECORD_PERFORMED writes the 32 bytes of the trap record, as R406 lays them out; a fault that FAULTS gives to
the device takes the thread to the handler of its cause, at trap.base + 16 times the cause, in privileged mode, its slots as
the fault left them; any other stays in the fault bin and is reported to the host. R113, R407, R425: the commit of an `eret`
leaves privileged mode and resumes the thread at the block of its record, or where its record says next: there, or retired
where RET says so. -/
def Obligations.TrapRecords : Prop :=
  (∀ (s : State) (c sl : Nat) (tr : Trap) (gs : List Seg) (mt : MemType), s.args = [c, sl] → (s.thread c sl).trap = some tr →
    (s.thread c sl).place = .fault → tr.recorded = false → s.reported c sl = false →
    s.judgeUnit (s.rootOf c sl) .store (s.recordAddr c sl tr.nest) 32 = .ok gs mt →
    s.mustWait gs 0 none = false → (s.groupOf c sl).isSaving = false →
    let cause : BitVec 8 := BitVec.ofNat 8 (tr.cause.code + (if tr.nest then 64 else 0) + 128)
    (s.toDevice c sl tr = true → ∃ w, exec .faultRecordPerformed s = .next w ∧
      w.mem = (s.agentStoreNc 8 gs (recordBytes tr)).mem ∧ (w.thread c sl).priv = true ∧ (w.thread c sl).trap = none ∧
      (w.thread c sl).next = (s.thread c sl).trapBase.setWidth 56 + BitVec.ofNat 56 (16 * tr.cause.code) ∧
      (w.thread c sl).live = (s.thread c sl).live ∧ (w.thread c sl).filed = s.clk + 1 ∧ (w.thread c sl).trapCause = cause ∧
      (w.thread c sl).trapFblk = tr.fblk.setWidth 64) ∧
    (s.toDevice c sl tr = false → ∃ w, exec .faultRecordPerformed s = .next w ∧ (w.thread c sl).place = .fault ∧
      (w.thread c sl).trap = some { tr with recorded := true } ∧ (w.thread c sl).trapCause = cause ∧
      ∃ r ∈ w.reports, (c, sl) ∈ r.joined ∧ (r.kind = 0 ∨ r.kind = 1))) ∧
  (∀ (s : State) (c sl : Nat) (x : Inst) (useNext : Bool) (blk nxt : DWord), s.args = [c, sl] → s.nextCommit c = some (sl, x) →
    (s.thread c sl).inst = some x → s.openRegion c sl = none → (s.groupOf c sl).isSaving = false →
    s.commitFault c sl x = none → x.term = .eret useNext blk nxt →
    ∃ w, exec .blockCommit s = .next w ∧ (w.thread c sl).priv = false ∧ (w.thread c sl).nestOpen = false ∧
      (w.thread c sl).inst = none ∧
      (useNext = false → (w.thread c sl).next = blk.setWidth 56) ∧
      (useNext = true → nxt.getLsbD 63 = false → nxt.getLsbD 62 = false → (w.thread c sl).next = nxt.setWidth 56) ∧
      (useNext = true → nxt.getLsbD 63 = true → (w.thread c sl).place = .retiring)) ∧
  (∀ (tr : Trap),
    let bs := recordBytes tr
    bs.length = 32 ∧ fieldAt bs 0 7 = tr.blk.toNat ∧ fieldAt bs 7 1 = tr.cause.code + (if tr.nest then 64 else 0) + 128 ∧
      (fieldAt bs 8 8 % 2 ^ 56 = tr.next.toNat ∧ fieldAt bs 8 8 / 2 ^ 56 % 64 = 0 ∧ ((fieldAt bs 8 8).testBit 62 ↔ tr.def_ = true) ∧
        ((fieldAt bs 8 8).testBit 63 ↔ tr.ret = true)) ∧
      fieldAt bs 16 8 = tr.va.toNat ∧ fieldAt bs 24 8 = tr.detail.toNat)

/-- R409, R419, R466: the driver's commands answer the report that they name, and nothing where none of their kinds waits
under that name: REPLAY resumes the thread at its faulting block, NEXT at its next block; KILL ends the grids of the report's
context with status 11 (what the end of a grid does, Retirements says); RESUME lets a halted group run on; DEBUG_HALT halts a group. R219: TLB_INVALIDATE takes every entry of
the address space that meets the range out of every TLB; TLB_INVALIDATE_DONE then sets DONE. -/
def Obligations.DriverCommands : Prop :=
  (∀ (s u : State) (name c sl : Nat) (r : Report) (tr : Trap),
    (s.args = [name] →
      (s.takeReport name [0, 1, 4, 5] = none → exec .replayCommand s = .next s) ∧
      (s.takeReport name [0, 1, 5] = none → exec .nextCommand s = .next s) ∧
      (s.takeReport name [0, 1, 2, 4, 5] = none → exec .killCommand s = .next s) ∧
      (s.takeReport name [2] = none → exec .resumeCommand s = .next s) ∧
      (r.kind ≤ 1 → r.joined = [(c, sl)] → c < 2 ^ 64 → (u.thread c sl).save = none → (u.thread c sl).trap = some tr →
        tr.recorded = true →
        (s.takeReport name [0, 1, 4, 5] = some (u, r) → ∃ w, exec .replayCommand s = .next w ∧
          (w.thread c sl).next = tr.blk ∧ (w.thread c sl).trap = none ∧ w.mem = u.mem) ∧
        (s.takeReport name [0, 1, 5] = some (u, r) → tr.ret = false → tr.def_ = false → ∃ w, exec .nextCommand s = .next w ∧
          (w.thread c sl).next = tr.next ∧ (w.thread c sl).trap = none ∧ w.mem = u.mem) ∧
        (s.takeReport name [0, 1, 5] = some (u, r) → tr.ret = true → ∃ w, exec .nextCommand s = .next w ∧
          (w.thread c sl).place = .retiring)) ∧
      (s.takeReport name [0, 1, 2, 4, 5] = some (u, r) → r.kind ≠ 4 →
        exec .killCommand s = .next (u.endContext (r.ident.toNat / 2 ^ 25 % 64) 11)) ∧
      (s.takeReport name [2] = some (u, r) → r.joined = [(c, sl)] → c < 2 ^ 64 →
        Tbl.find? (u.core c).groups (u.thread c sl).group ≠ none →
        ∃ w, exec .resumeCommand s = .next w ∧ (w.group c (u.thread c sl).group).halted = false)) ∧
    (∀ g gr, s.args = [c, g] → Tbl.find? (s.core c).groups g = some gr → gr.save ≠ .discarded →
      (gr.halted = true → exec .debugHalt s = .next s) ∧
      (gr.halted = false → gr.slots = [sl] → (s.thread c sl).place ≠ .free → exec .debugHalt s =
        .next ((s.modGroup c g fun y => { y with halted := true }).reportHalt c sl)))) ∧
  (∀ (s : State) (ctx vpn count : Nat),
    let meets (e : TlbEntry) : Prop := e.asp = ctx ∧ e.base < vpn + count ∧ vpn < e.base + e.pages
    (s.args = [ctx, vpn, count] → ∃ w, exec .tlbInvalidate s = .next w ∧ w.mgmt.invDone = false ∧ w.mgmt.invPending = true ∧
      w.mem = s.mem ∧
      (∀ c e, e ∈ (w.core c).tlb ↔ e ∈ (s.core c).tlb ∧ ¬ meets e) ∧ ∀ d e, e ∈ (w.die d).tlb ↔ e ∈ (s.die d).tlb ∧ ¬ meets e) ∧
    (s.mgmt.invPending = true → exec .tlbInvalidateDone s = .next (s.modMgmt fun m => { m with invDone := true, invPending := false })) ∧
    (s.mgmt.invPending = false → exec .tlbInvalidateDone s = .next s))

/-- R152, R414, R415, R417, R418: SAVE_START sends a chosen victim's thread that stands at a piton with nothing pending (log entry 25), or
waits on a barrier or a channel, to the save handler, leaves one with a slot pending in its piton's bin, or leaves a group that stands wholly in idempotent blocks to GROUP_DISCARD; SCRATCH_SAVE_PASS sends the thread of the lowest slot there once more, with SCR
= 1; SAVE_COMPLETE removes the group, saved, from its core, with its records as the model keeps them (log entry 24); PREEMPT_LIMIT_EXPIRY
ends every grid of the context with status 8, also where a discarded group waits for a fill (what the end of a grid does, Retirements
says); GROUP_DISCARD gives back the group's scratchpad and grant, its threads to restart at their idempotent entries, an instance in
flight squashed. -/
def Obligations.Saves : Prop :=
  ∀ (s : State) (c g : Nat) (gr : Group), s.args = [c, g] → Tbl.find? (s.core c).groups g = some gr →
    let saving := s.modGroup c g fun x => { x with save := .saving s.clk, entered := false, saveClk := 0 }
    (gr.save ≠ .chosen → exec .saveStart s = .next s) ∧
    (gr.save = .chosen → saving.mayDiscard c g = true → exec .saveStart s = .next (saving.urge (.event .groupDiscard [c, g]))) ∧
    (∀ sl b, gr.save = .chosen → saving.mayDiscard c g = false → saving.liveSlotsOf c g = [sl] → (s.thread c sl).group = g →
      (s.thread c sl).place = .binned b → (s.thread c sl).pending ≠ 0 → exec .saveStart s = .next saving) ∧
    (∀ sl b, gr.save = .chosen → saving.mayDiscard c g = false → saving.liveSlotsOf c g = [sl] → (s.thread c sl).group = g →
      gr.halted = false → (s.thread c sl).place = .binned b → (s.thread c sl).region = none → (s.thread c sl).reArmed = false →
      (s.thread c sl).save = none → (s.thread c sl).pending = 0 → s.isPiton gr.root (s.thread c sl).next = true →
      ∃ w, exec .saveStart s = .next w ∧ (w.thread c sl).priv = true ∧ (w.thread c sl).trap = none ∧
        (w.thread c sl).next = (s.thread c sl).trapBase.setWidth 56 ∧
        (w.thread c sl).save = some ⟨true, false, false, s.pitonMask gr.root (s.thread c sl).next, false, .free, (s.thread c sl).next,
          (s.thread c sl).priv, (s.thread c sl).trap, none, (s.thread c sl).haltNext, (s.thread c sl).waitIdx,
          (s.thread c sl).hdoneArg, false⟩) ∧
    (∀ sl b, gr.save = .chosen → saving.mayDiscard c g = false → saving.liveSlotsOf c g = [sl] → (s.thread c sl).group = g →
      (s.thread c sl).place ∈ [.barrier b, .rope, .channel b] → (s.thread c sl).save = none → (s.thread c sl).region = none →
      ∃ w, exec .saveStart s = .next w ∧ (w.thread c sl).priv = true ∧
        (w.thread c sl).next = (s.thread c sl).trapBase.setWidth 56 ∧
        (w.thread c sl).save = some ⟨true, false, true, BitVec.allOnes 64, false, (s.thread c sl).place, (s.thread c sl).next,
          (s.thread c sl).priv, (s.thread c sl).trap, none, (s.thread c sl).haltNext, (s.thread c sl).waitIdx,
          (s.thread c sl).hdoneArg, (s.thread c sl).reArmed⟩) ∧
    (∀ n sl rest v, gr.save = .saving n → s.liveSlotsOf c g = sl :: rest → (s.thread c sl).group = g → (s.thread c sl).save = some v →
      (s.allHalted c g = false → exec .scratchSavePass s = .next s) ∧
      (s.allHalted c g = true → ∃ w, exec .scratchSavePass s = .next w ∧ (w.group c g).save = .scratch n ∧
        (w.thread c sl).save = some { v with scr := true, done := false } ∧
        (w.thread c sl).next = (s.thread c sl).trapBase.setWidth 56)) ∧
    (∀ n gd, gr.save = .scratch n → Tbl.find? s.grids gr.grid = some gd → s.frameReported gr.grid gr.lin = false →
      (s.allHalted c g = false ∨ s.allAcked c g = false → exec .saveComplete s = .next s) ∧
      (s.allHalted c g = true → s.allAcked c g = true → s.frameAccess gr.root gr.grid gr.lin .store = .ok →
        ∃ w v, exec .saveComplete s = .next w ∧ (c, g) ∉ (w.grid gr.grid).resident ∧
          Tbl.find? (w.grid gr.grid).saved gr.lin = some v ∧ v.discarded = false ∧ v.at_ = n ∧
          v.threads = (s.liveSlotsOf c g).map fun sl => ((s.thread c sl).lin, (s.thread c sl).forRecord))) ∧
    (gr.halted = false →
      ((∃ n, gr.save = .saving n) ∧
        ((s.liveSlotsOf c g).all fun sl => match (s.thread c sl).save with | some v => v.done | none => false) = false) ∨
      (gr.save = .discarded ∧ ∃ sl ∈ gr.slots, (s.thread c sl).pending ≠ 0) →
      (gr.saveClk < gr.preemptLimit.toNat % 2 ^ 32 → exec .preemptLimitExpiry s = .next s) ∧
      (gr.preemptLimit.toNat % 2 ^ 32 ≤ gr.saveClk → exec .preemptLimitExpiry s = .next (s.endContext (s.grid gr.grid).ctx 8))) ∧
    (∀ gd, Tbl.find? s.grids gr.grid = some gd →
      (s.mayDiscard c g = false → exec .groupDiscard s = .next s) ∧
      (s.mayDiscard c g = true → ∃ w, exec .groupDiscard s = .next w ∧ (w.group c g).save = .discarded ∧
        (w.group c g).spSize = 0 ∧ (w.group c g).grant = 0 ∧ (c, g) ∉ (w.grid gr.grid).resident ∧
        ∀ sl ∈ s.liveSlotsOf c g, (w.thread c sl).next = (s.thread c sl).idem ∧ (w.thread c sl).live = (s.thread c sl).live ∧
          ((s.thread c sl).inst = none → (w.thread c sl).inst = none ∧ ((s.core c).fifo = [] → (w.thread c sl).place = .saved)) ∧
          ((s.thread c sl).inst ≠ none → ∃ y, (w.thread c sl).inst = some y ∧ y.squash ≠ none ∧ y.region = none)))

/-- R152, R154, R260, R262, R416, R418: GROUP_RESTORE of a saved group reads its scratchpad from its frame, then gives each thread,
one at a time, its slots from its image, and at the end the group runs on; a record that reads as poison ends the grid with status 7
(log entry 24); of a discarded one it waits until its threads have ended and nothing of them is pending, and then clears its scratchpad, and the group runs on. -/
def Obligations.Restores : Prop :=
  ∀ (s : State) (c g : Nat) (gr : Group) (gd : Grid) (v : SavedGroup), s.args = [c, g] →
    Tbl.find? (s.core c).groups g = some gr → gr.save = .restoring → Tbl.find? s.grids gr.grid = some gd →
    Tbl.find? gd.saved gr.lin = some v →
    let f := s.frameOf gr.grid gr.lin
    (v.discarded = false → s.frameReported gr.grid gr.lin = true → exec .groupRestore s = .next s) ∧
    (v.discarded = false → s.frameReported gr.grid gr.lin = false → s.frameAccess gr.root gr.grid gr.lin .load = .ok →
      s.recordBad gr v = true → exec .groupRestore s = .next (s.endGrid gr.grid 7)) ∧
    (v.discarded = false → s.frameReported gr.grid gr.lin = false → s.frameAccess gr.root gr.grid gr.lin .load = .ok →
      s.recordBad gr v = false →
      (∀ bs, s.Safe → v.begun = false → gr.spSize ≠ 0 → s.unitRead gr.root (f.1 + f.2) gr.spSize = some bs →
        ∃ w, exec .groupRestore s = .next w ∧ (w.group c g).save = .restoring ∧
          Tbl.find? (w.grid gr.grid).saved gr.lin = some { v with begun := true } ∧
          ∀ i, i < bs.length → memRead w.mem (spLoc c gr.spBase + i) = bs.getD i 0) ∧
      (∀ i t rest k live, v.begun = true → v.threads = (i, t) :: rest → t.save = some k → gr.carrier = false →
        s.imageSlots gr.root gr.grid gr.lin i k.mask = some live →
        let sl := gr.slots.getD (gr.slots.length - v.threads.length) 0
        ((s.core c).roomAll = false → exec .groupRestore s = .next s) ∧
        ((s.core c).roomAll = true → ∃ w, exec .groupRestore s = .next w ∧ (w.thread c sl).live = live ∧
          (w.thread c sl).group = g ∧ (w.thread c sl).save = some k ∧
          Tbl.find? (w.grid gr.grid).saved gr.lin = some { v with threads := rest })) ∧
      (v.begun = true → v.threads = [] → gd.saved = [(gr.lin, v)] → ∃ w, exec .groupRestore s = .next w ∧
        (w.group c g).save = .none ∧ (w.grid gr.grid).saved = [])) ∧
    (v.discarded = true →
      let ready := (s.liveSlotsOf c g).all fun sl =>
        (s.thread c sl).place == .saved && (s.thread c sl).pending == 0 && (s.thread c sl).buf.isEmpty && (s.thread c sl).unacked == 0
      (ready = false → exec .groupRestore s = .next s) ∧
      (ready = true → s.Safe → ∃ w, exec .groupRestore s = .next w ∧ (w.group c g).save = .none ∧
        ∀ i, i < gr.spSize → memRead w.mem (spLoc c gr.spBase + i) = 0))

/-- R344, R433, R435, R436, R442: the directory grants the line of its first request when no die need be probed, and otherwise
probes those that may hold it; an answer to an invalidation takes the line from the die's L2; a granule that another agent waits
for is flushed; the driver's command flushes a shared granule from every cache; a host that takes a line takes it from the dies,
and one that reads it leaves it without an owner; a probe and a host wait while a region has the line locked. None of them changes
a byte of memory. -/
def Obligations.CoherenceEvents : Prop :=
  ∀ (s : State) (h : Nat),
    (∀ r rest, s.args = [h] → (s.die h).dirQ = r :: rest → (∀ o ∈ r :: rest, o.inc = Tbl.get 0 s.incarnations o.from_) →
      (r.begun = true → r.waiting = []) →
      (r.begun = false → ∀ o ∈ rest, o.begun = true → o.waiting ≠ []) →
      (r.begun = true ∨ s.probeTargets h r = [] →
        ∃ w, exec .directoryTransaction s = .next w ∧ (w.die h).dirQ = rest ∧ r.line ∈ (w.die r.from_).grants ∧ w.mem = s.mem) ∧
      (r.begun = false → s.probeTargets h r ≠ [] → ∃ w, exec .directoryTransaction s = .next w ∧
        (w.die h).dirQ = { r with begun := true, waiting := s.probeTargets h r } :: rest ∧ w.mem = s.mem ∧
        ∀ d ∈ s.probeTargets h r, (r.line, h, r.write) ∈ (w.die d).probes)) ∧
    (∀ d l inval rest, s.args = [d] → (s.die d).probes = (l, h, inval) :: rest →
      ((∀ p ∈ (s.die d).probes, s.lockedAt d (· == p.1) = true) → exec .probeAnswer s = .next s) ∧
      (s.lockedAt d (· == l) = false → ((s.die d).grants.contains l && s.accessWaits (fun c => dieOf c == d) (· == l)) = false →
        ∃ w, exec .probeAnswer s = .next w ∧ (w.die d).probes = rest ∧ (inval = true → l ∉ (w.die d).l2) ∧ w.mem = s.mem)) ∧
    (∀ o k, s.args = [h] → s.granuleOwner h = some o → classHome s h = some k → (s.die k).wanted.contains h = true →
      (s.locks.any fun e => e.1 / 512 == h) = false → exec .granuleFlush s = .next (s.flushGranule h 2)) ∧
    (s.args = [h] → (s.granule h ≠ 2 → exec .granuleReclassify s = .next s) ∧
      (s.granule h = 2 → ∃ w, exec .granuleReclassify s = .next w ∧ w.mem = s.mem ∧
        (∀ c, ∀ l ∈ (w.core c).l1, l / 512 ≠ h) ∧ ∀ d < 8, ∀ l ∈ (w.die d).l2, l / 512 ≠ h)) ∧
    (∀ line x, s.args = [h, line, x] → (s.locks.any fun e => e.1 == line) = true → exec .hostSnoop s = .next s) ∧
    (∀ line e, h < 2 → Tbl.find? (s.die (8 + h)).dir line = some e → (s.locks.any fun e => e.1 == line) = false →
      (s.args = [h, line, 0] → ∃ w, exec .hostSnoop s = .next w ∧
        (w.die (8 + h)).dir = Tbl.set (s.die (8 + h)).dir line (e.setOwner 0 none) ∧ w.mem = s.mem) ∧
      (s.args = [h, line, 1] → ∃ w, exec .hostSnoop s = .next w ∧ w.mem = s.mem ∧
        ∀ d < 8, e.dv.getLsbD d = true → line ∉ (w.die d).l2))

/-- R223, R439, R444-R449, R467: what the module's agents come to: a link that has failed is counted at both ends and rerouted, and a die
that has lost its links to both I/O dies is dead (log entry 38); a die declared dead holds no core any more, and the driver is notified; a
peer that does not answer within LTO is gone, its load answered with poison, and its deferred load failed; a message with an old
incarnation number is counted; I/O die 9 may be lost, and I/O die 8 with its queues and tables (log entry 38); a dead die comes back with
its incarnation number one higher; bring-up sets READY, and the dies that its argument names are absent (the argument is the model's, log
entry 6); a reset, while the standby controller is in charge, keeps memory and time (log entry 38). -/
def Obligations.AgentEvents : Prop :=
  ∀ (s : State) (a b : Nat),
    (∀ n, s.args = [a, b, n] → s.fitted ≤ a ∨ (s.fitted ≤ b ∧ b ≠ 8 ∧ b ≠ 9) ∨ (n ≠ 1 ∧ Tbl.get 0 (s.die a).retries b < 8) →
      exec .linkFail s = .next s) ∧
    (∀ n, s.args = [a, b, n] → a < s.fitted → b < s.fitted → b < 8 → a ≠ b → n = 1 ∨ 8 ≤ Tbl.get 0 (s.die a).retries b →
      (s.die a).rerouted.contains b = false → (s.die a).rerouted.contains 8 = false →
      exec .linkFail s = .next ((s.countLink a b).countLink b a)) ∧
    (∀ n, s.args = [a, b, n] → a < s.fitted → a < 8 → b = 8 ∨ b = 9 → n = 1 ∨ 8 ≤ Tbl.get 0 (s.die a).retries b →
      (s.die a).rerouted.contains b = false →
      ((s.die a).rerouted.contains (17 - b) = false → s.mgmt.gone.contains 10 = false → exec .linkFail s = .next (s.countLink a b)) ∧
      ((s.die a).rerouted.contains (17 - b) = true → ∃ w, exec .linkFail s = .next w ∧ (w.die a).dead = true)) ∧
    (s.args = [a] → a < 8 → (s.die a).dead = false → ∀ i ∈ [Instr.agentDead, .heartbeatMiss], ∃ w, exec i s = .next w ∧
      (w.die a).dead = true ∧ a ∈ w.mgmt.notices ∧ ∀ e ∈ w.cores, dieOf e.1 ≠ a) ∧
    (∀ n, s.args = [a, b, n] → a < 8 →
      (s.agentGone b = true ∨ BitVec.ofNat 16 n ≠ Tbl.get 0 s.incarnations b → exec .lateMessage s = .next (s.modDie a fun x =>
        { x with errors := { x.errors with late := min (2 ^ 32 - 1) (x.errors.late + 1) } })) ∧
      (s.agentGone b = false → BitVec.ofNat 16 n = Tbl.get 0 s.incarnations b → exec .lateMessage s = .next s)) ∧
    (s.args = [a] → a < 8 → (s.die a).dead = true → s.mgmt.absent.contains a = false →
      exec .agentBroughtBackUp s = .next ({ s with incarnations := Tbl.set s.incarnations a (Tbl.get 0 s.incarnations a + 1) }.modDie a
        fun x => { x with dead := false })) ∧
    (∀ k x r l, s.args = [a, b, 0, k] → (s.thread a b).inst = some x → x.req? k = some r → r.kind.isLoad = true → r.kind ≠ .record →
      r.stage = .ready → (∀ e ∈ s.dies, e.2.tiles = []) →
      let isPeer (l : Nat) : Bool := !isSp l && match paKind s l with | .peer _ => true | _ => false
      (segLocs r.segs).find? isPeer = some l → (r.segs.any fun g => isPeer g.loc) = true →
      let p := l / 2 ^ 40 % 2 ^ 10
      let limit := 1000 * max 1 ((Tbl.get 0 s.mgmt.peers p).toNat / 2 ^ 104 % 2 ^ 16)
      (s.clk < r.due + limit → exec .peerTimeout s = .next s) ∧
      (r.due + limit ≤ s.clk → exec .peerTimeout s = .next ((s.poisonLoad a b r).markGone (16 + p)))) ∧
    (∀ n d l, s.args = [a, b, 2, n] → (s.thread a b).deferred[n]? = some d → d.returned = none →
      let isPeer (l : Nat) : Bool := !isSp l && match paKind s l with | .peer _ => true | _ => false
      (segLocs d.segs).find? isPeer = some l → (d.segs.any fun g => isPeer g.loc) = true →
      let p := l / 2 ^ 40 % 2 ^ 10
      let limit := 1000 * max 1 ((Tbl.get 0 s.mgmt.peers p).toNat / 2 ^ 104 % 2 ^ 16)
      (s.clk < d.due + limit → exec .peerTimeout s = .next s) ∧
      (d.due + limit ≤ s.clk → exec .peerTimeout s = .next ((s.answerDeferred a b n d none).markGone (16 + p)))) ∧
    (s.mgmt.standby = false → s.mgmt.gone.contains 10 = false → ∃ w, exec .ioDieFailover s = .next w ∧ w.mgmt.standby = true ∧
      w.mgmt.ready = false ∧ w.queues = [] ∧ w.mgmt.ctxs = [] ∧ w.mgmt.watch = [] ∧ w.mgmt.peers = []) ∧
    ((s.mgmt.standby = false → exec .moduleReset s = .next s) ∧
      (s.mgmt.standby = true → ∃ w, exec .moduleReset s = .next w ∧ w.mem = s.mem ∧ w.clk = s.clk ∧ w.mgmt.ready = false ∧
        w.cores = State.reset.cores ∧ w.queues = State.reset.queues ∧ w.grids = State.reset.grids)) ∧
    (s.args = [a] → s.mgmt.ready = false → s.mgmt.down = false → s.mgmt.standby = false → a.testBit 8 = false →
      a.testBit 9 = false → ∃ w, exec .bringUp s = .next w ∧ w.mgmt.ready = true ∧ w.mem = s.mem ∧
        ∀ d < 8, a.testBit d = true → (w.die d).dead = true)

/-- R451, R457, R459, R462, R464, R468: the trace unit writes the head of its queue at WIDX; a sample that is due is taken; a
µs of energy is charged to the contexts; an idle die's voltage is planned again; at 95 °C a die enters thermal hold, which it
leaves at 90 °C; at 105 °C the module shuts down; the time-stamp copies are corrected, while die 8 is alive. R219, R449, R454, R459,
R465, R469: host writes: of a management register, whose read-only words stay and whose invalidation word starts one (the numbers that
name the registers are the model's, log entry 21); of a sampler's PERIOD, which starts its count; of an error counter, which is cleared;
a quote takes the next index of its block of 1,024, and a new block when there is none or the last is spent; with none left its
status is "signatures exhausted". The order in which a die's unit writes what it has accepted is log entry 36, the thermal steps' records
log entry 37, the clk of a correction log entry 50. -/
def Obligations.ObservationEvents : Prop :=
  (∀ (s : State) (d n : Nat),
    let t := (s.die d).trace
    (∀ r rest, s.args = [d] → d < 8 → t.queue = r :: rest →
      let s1 := s.modDie d fun x => { x with trace := { t with queue := rest } }
      (t.en = false ∨ s.traceRoom d (t.place t.widx) = false → exec .traceAccept s = .next s1) ∧
      (t.en = true → s.traceRoom d (t.place t.widx) = true → t.gap = 0 → t.full = false → ∃ w, exec .traceAccept s = .next w ∧
        w.mem = (s1.agentStore d [⟨t.place t.widx, 32, false⟩] r.bytes).mem ∧ (w.die d).trace.widx = t.widx + 1 ∧
        (w.die d).trace.queue = rest)) ∧
    (s.args = [d] → (s.sampleDue d = false → exec .sampleTake s = .next s) ∧
      (∀ sl, s.sampleDue d = true → (s.core d).sampledSlot = some sl → (s.die (dieOf d)).trace.takes 8 = true →
        (s.core d).sampler.held.length < 4 → exec .sampleTake s = .next (s.modCore d fun x => { x with sampler := { x.sampler with
          k := x.sampler.k + 1, last := some sl, held := x.sampler.held ++ [s.sampleRec d sl], drops := 0 } }))) ∧
    (s.args = [d] → d < 8 → (s.clk < (s.die d).energyAt + 1000 → exec .energyUpdate s = .next s) ∧
      ((s.die d).energyAt + 1000 ≤ s.clk → ∃ w, exec .energyUpdate s = .next w ∧ (w.die d).energyAt = (s.die d).energyAt + 1000 ∧
        w.mem = s.mem ∧ ∀ k < 64, Tbl.get 0 (w.die d).energy k = (Tbl.get 0 (s.die d).energy k + Config.energyEvents d k s.clk +
          staticShare d k s.clk (s.slotsOfCtx d k) (sumNat ((List.range 64).map (s.slotsOfCtx d)))) % 2 ^ 64)) ∧
    (s.args = [d] → d < 8 → (s.dieIdle d = false → exec .voltageReplan s = .next s) ∧
      (s.dieIdle d = true → exec .voltageReplan s = .next
        (s.offer d ⟨s.tsc d, 2048 + d * 32 + 3, 6, 255, Config.voltageMargin d s.clk, Config.pathMargin d s.clk, 0, none⟩))) ∧
    (s.args = [d, n] → d < 8 →
      (n < 1520 → exec .thermalHoldStart s = .next s) ∧
      (1520 ≤ n → (s.die d).hot = false → exec .thermalHoldStart s = .next ((s.modDie d fun x => { x with hot := true }).offer d
        ⟨s.tsc d, 2048 + d * 32 + 3, 9, 255, 1, BitVec.ofNat 64 n, 0, none⟩)) ∧
      (1440 < n → exec .thermalHoldEnd s = .next s) ∧
      (n ≤ 1440 → (s.die d).hot = true → exec .thermalHoldEnd s = .next ((s.modDie d fun x => { x with hot := false }).offer d
        ⟨s.tsc d, 2048 + d * 32 + 3, 9, 255, 0, BitVec.ofNat 64 n, 0, none⟩))) ∧
    (∃ w, exec .thermalShutdown s = .next w ∧ w.mgmt.down = true ∧ w.mgmt.ready = false ∧ ∀ k < 8, (w.die k).dead = true) ∧
    (s.args = [8, n, 0] → s.mgmt.standby = true → exec .tscCorrection s = .next s) ∧
    (s.args = [8, n, 0] → s.mgmt.standby = false → 1000000 < n → (∀ e ∈ s.grids, e.2.resident = []) → ∃ w, exec .tscCorrection s = .next w ∧
      ∀ k < 10, (w.die k).tscOff = (s.die k).tscOff + n)) ∧
  (∀ (s : State) (a b v : Nat),
    (s.args = [a, b, v] → (∀ r, mregOf a b = some r → exec .mgmtRegisterWrite s = .next (s.mregWrite r (BitVec.ofNat 64 v))) ∧
      (a = 0 → exec .mgmtRegisterWrite s = .next s) ∧
      (a = 8 → ∃ w, exec .mgmtRegisterWrite s = .next w ∧ w.mgmt.invDone = false ∧ w.mgmt.invPending = true) ∧
      (∀ w, exec .mgmtRegisterWrite s = .next w → a = 3 → b < 256 → w.mregRead (.watch b) = BitVec.ofNat 64 v) ∧
      (∀ w, exec .mgmtRegisterWrite s = .next w → a = 2 → b < 64 → w.mregRead (.ctxSlice b) = BitVec.ofNat 64 (v % 2 ^ 32)) ∧
      (∀ w, exec .mgmtRegisterWrite s = .next w → a = 1 → b < 64 →
        (w.ctxEntry b).en = v.testBit 63 ∧ (w.ctxEntry b).maxp = v / 2 ^ 58 % 32 ∧ (w.ctxEntry b).root = v / 2 ^ 13 % 2 ^ 39 * 2 ^ 13)) ∧
    (s.args = [a, b] → a < 2048 → exec .samplerWrite s = .next (s.modCore a fun x => { x with sampler := { x.sampler with
      period := b % 2 ^ 16, start := s.clk, k := 0, last := none, drops := 0 } })) ∧
    (s.args = [a, b] → a < 8 → b < 8 → exec .counterClear s = .next (s.modDie b fun x => { x with errors := x.errors.clear a })) ∧
    (s.args = [8, b] → b < 8 → exec .counterClear s = .next (s.modDie b fun x => { x with trace := { x.trace with drop := 0 } })) ∧
    (let q := s.mgmt.attest
     let becomes (q' : Attest) : Prop := exec .attestationQuote s = .next (s.modMgmt fun m => { m with attest := q' })
     (q.hasBlock = true → q.used < 1024 → becomes { q with used := q.used + 1, exhausted := false }) ∧
     (q.hasBlock = false ∨ 1024 ≤ q.used → 0 < q.qblk → becomes ⟨q.qblk - 1, 1, true, false⟩) ∧
     (q.hasBlock = false ∨ 1024 ≤ q.used → q.qblk = 0 → becomes { q with exhausted := true })))

/-! ## The machine as a whole -/

/-- R60-R66, R71-R73: an instruction that is no machine step has a word when it is well-formed, and that word decodes to it,
with every operand at every value that the encoding admits. -/
def Obligations.EncodeThenDecode : Prop :=
  ∀ (i : Instr), i.wf = true → i.isStep = false → ∃ w, encode i = some w ∧ decode w = .ok i

/-- R60-R66, R71-R73: what the decoder accepts is a well-formed instruction, and the word is that instruction's: no two words
have one meaning, and no reserved bit is dropped. -/
def Obligations.DecodeThenEncode : Prop :=
  ∀ (w : Word) (i : Instr), decode w = .ok i → i.wf = true ∧ encode i = some w

/-- The model's memory keeps its canonical form in every step of the module (its form is the model's own, log entry 2). -/
def Obligations.StepsKeepMemoryForm : Prop :=
 ∀ (s t : State), s.Safe → step s = .next t → t.Safe

/-- Reset leaves (R15, R98, R213, R388, R389, R454, R459, R465) a module that is not up yet, in which no thread slot holds a
thread, no context is open and no page is translated, with every queue and context entry disabled, no grid, the trace units
off with a ring of 2^12 bytes, the launch window's 1,024 queues, the invalidation done, the samplers off and the power budgets
of DIECAP; its memory is in canonical form. That memory then reads as zero is the model's choice (log entry 3), as are the form of memory (log entry 2), clk 0, the empty
TLBs, regions and FIFO, the dies that are not fused, and the zeros of a free thread slot (log entry 42). -/
def Obligations.ResetFacts : Prop :=
  let r := State.reset
  r.Safe ∧ r.clk = 0 ∧ r.mgmt.ready = false ∧ r.mgmt.invDone = true ∧ r.mgmt.attest.qblk = 1024 ∧ r.mgmt.down = false ∧ r.grids = [] ∧
    (∀ a, memRead r.mem a = 0) ∧
    (∀ c, (r.core c).tlb = [] ∧ (r.core c).regions = [] ∧ (r.core c).sampler.period = 0 ∧ (r.core c).fifo = []) ∧
    (∀ c k, ((r.core c).context k).state = .free ∧ ((r.core c).bin k).key = none) ∧
    (∀ c sl, (r.thread c sl).place = .free ∧ (r.thread c sl).inst = none ∧ (r.thread c sl).trap = none ∧
      ∀ n, (r.thread c sl).slot n = 0) ∧
    (∀ q, (r.queue q).en = false ∧ (r.queue q).ridx = 0 ∧ (r.queue q).dcnt = 0) ∧ (∀ n, (r.ctxEntry n).en = false) ∧
    (∀ d, (r.die d).fused = false ∧ (r.die d).dead = false ∧ (r.die d).trace.en = false ∧ (r.die d).trace.log2n = 12)

/-- R121, R123: one step fires the instruction whose firing comes next: when the word of the PE decodes to `i` and the firing
is ready, the step is `exec i` with the focus on it, and when it is not ready the step does nothing else; a machine step that
comes next is `exec` of it with its arguments; a module that is shut down stops (R468). The order in which firings come is the
model's choice (log entry 1). -/
def Obligations.StepRunsDecoded : Prop :=
  ∀ (s : State),
    (s.mgmt.down = true → step s = .fault .moduleDown) ∧
    (s.mgmt.down = false →
      (∀ c sl k ks, s.urgent = .fire c sl k :: ks →
        let u := { s with urgent := ks }
        (u.ready c sl k = false → step s = .next u) ∧
        (∀ x w i, u.ready c sl k = true → (u.thread c sl).inst = some x →
          ((u.core c).context x.ctx).block.words[k]? = some w → decode w = .ok i →
          step s = exec i { u with cur := ⟨c, sl, k⟩ })) ∧
      (∀ i args ks, s.urgent = .event i args :: ks → i.isStep = true →
        step s = exec i { s with urgent := ks, args := args }))

/-- R60, R61, R63, R65-R67, R70, R73: words written out from the encodings of chapters 3, 4 and 8 to 20 decode to the
instructions that they stand for, and a word of an unassigned opcode (R75) to none. -/
def Obligations.DecodeWords : Prop :=
  decode 0x01060702 = .ok (.read 1 (.port .b 3) (.port .b 2)) ∧
  decode 0x0500c904 = .ok (.const 100 (.port .b 4)) ∧
  decode 0x07000084 = .ok (.gate false .none (.port .a 4)) ∧
  decode 0x11fffffa = .ok (.brc (-6)) ∧
  decode 0x17000000 = .ok .ret ∧
  decode 0x20980083 = .ok (.add ⟨.i16x4, true, true, false⟩ .none (.port .a 3)) ∧
  decode 0x22ffc587 = .ok (.addi (-30) (.port .c 7)) ∧
  decode 0x3e2a8883 = .ok (.lea ⟨.n32, 2⟩ (.pairLive 4) (.port .a 3)) ∧
  decode 0x4f003c85 = .ok (.setpiLt 30 (.port .a 5)) ∧
  decode 0x71450a83 = .ok (.cvtF32 ⟨.e4m3, .rtz⟩ (.port .a 5) (.port .a 3)) ∧
  decode 0x80620c85 = .ok (.ld .b64 (.port .b 6) (.port .a 5)) ∧
  decode 0x896e0600 = .ok (.fence .sc .device (.port .b 3)) ∧
  decode 0xb1910a84 = .ok (.acasAr .b128 .system (.port .a 5) (.port .a 4)) ∧
  decode 0xc40a0600 = .ok (.stgExpect true false (.port .b 3)) ∧
  decode 0xc5100005 = .ok (.stgWait 1 5) ∧
  decode 0xd00e08c8 = .ok (.cpy 3 (.port .b 4) (.live 8)) ∧
  decode 0xd4020e00 = .ok (.mma (.port .b 7)) ∧
  decode 0xdb060a00 = .ok (.tlaunch true (.port .b 5)) ∧
  decode 0xe0000004 = .ok (.abegin 4) ∧
  decode 0xe90208c6 = .ok (.hgainAdd (.port .b 4) (.live 6)) ∧
  decode 0xf1000a00 = .ok (.brk 5) ∧
  decode 0xf2040000 = .ok (.eret true) ∧
  decode 0xff000000 = .error .opcodeFF ∧
  decode 0x1a000000 = .error .unassigned
end

