-- ==== Sys2Proof/Laws/Encoding.lean ====
section
/-! SUPPORT. The fields of an encoded word read back (R60, R61, R65, R71), for the round trip of every instruction. -/

namespace Sys2Proof

/-! Targets and formats -/

theorem Target.code_lt (t : Target) : t.code < 512 := by
  cases t with
  | none => decide
  | port p k => have := k.isLt; cases p <;> simp only [Target.code] <;> omega
  | live k => have := k.isLt; simp only [Target.code]; omega
  | pairLive k => have := k.isLt; simp only [Target.code]; omega

theorem targetOf_code (t : Target) (h : t.ok = true) : targetOf t.code = some t := by
  cases t with
  | none => rfl
  | port p k =>
    have hk := k.isLt
    cases p
    · have h1 : (128 + k.toNat) / 64 = 2 := by omega
      simp only [Target.code, targetOf, h1]
      congr 2
      apply BitVec.eq_of_toNat_eq
      simp only [BitVec.toNat_ofNat]; omega
    · have h1 : (256 + k.toNat) / 64 = 4 := by omega
      simp only [Target.code, targetOf, h1]
      congr 2
      apply BitVec.eq_of_toNat_eq
      simp only [BitVec.toNat_ofNat]; omega
    · have h1 : (384 + k.toNat) / 64 = 6 := by omega
      simp only [Target.code, targetOf, h1]
      congr 2
      apply BitVec.eq_of_toNat_eq
      simp only [BitVec.toNat_ofNat]; omega
  | live k =>
    have hk := k.isLt
    have h1 : (192 + k.toNat) / 64 = 3 := by omega
    simp only [Target.code, targetOf, h1]
    congr 2
    apply BitVec.eq_of_toNat_eq
    simp only [BitVec.toNat_ofNat]; omega
  | pairLive k =>
    have hk := k.isLt
    simp only [Target.ok, beq_iff_eq] at h
    have h1 : (320 + k.toNat) / 64 = 5 := by omega
    have h2 : (320 + k.toNat) % 2 = 0 := by omega
    simp only [Target.code, targetOf, h1, h2, if_true]
    congr 2
    apply BitVec.eq_of_toNat_eq
    simp only [BitVec.toNat_ofNat]; omega

/-- What the fields of a word of formats D and S read as. -/
structure FieldsD (n op md t1 t0 : Nat) : Prop where
  lt : n < 2 ^ 32
  op : fOp n = op
  md : fMod n = md
  t1 : fT1 n = t1
  t0 : fT0 n = t0

theorem fieldsD {n op md t1 t0 : Nat} (e : some (wordD op md t1 t0) = some n) (ho : op < 256) (hm : md < 64)
    (h1 : t1 < 512) (h0 : t0 < 512) : FieldsD n op md t1 t0 := by
  have e := Option.some.inj e
  unfold wordD at e
  constructor <;> (try unfold fOp) <;> (try unfold fMod) <;> (try unfold fT1) <;> (try unfold fT0) <;> omega

/-- What the fields of a word of format I read as. -/
structure FieldsI (n op imm t0 : Nat) : Prop where
  lt : n < 2 ^ 32
  op : fOp n = op
  imm : fImm n = imm
  t0 : fT0 n = t0

theorem fieldsI {n op imm t0 : Nat} (e : some (wordI op imm t0) = some n) (ho : op < 256) (hi : imm < 2 ^ 15)
    (h0 : t0 < 512) : FieldsI n op imm t0 := by
  have e := Option.some.inj e
  unfold wordI at e
  constructor <;> (try unfold fOp) <;> (try unfold fImm) <;> (try unfold fT0) <;> omega

/-- What the fields of a word of format B20 read as. -/
structure FieldsB (n op num off : Nat) : Prop where
  lt : n < 2 ^ 32
  op : fOp n = op
  num : fNum n = num
  off : fOff20 n = off

theorem fieldsB {n op num off : Nat} (e : some (wordB op num off) = some n) (ho : op < 256) (hn : num < 16)
    (hf : off < 2 ^ 20) : FieldsB n op num off := by
  have e := Option.some.inj e
  unfold wordB at e
  constructor <;> (try unfold fOp) <;> (try unfold fNum) <;> (try unfold fOff20) <;> omega

/-- What the fields of a word of format B24 read as. -/
structure FieldsB0 (n op off : Nat) : Prop where
  lt : n < 2 ^ 32
  op : fOp n = op
  off : fOff24 n = off

theorem fieldsB0 {n op off : Nat} (e : some (wordB op 0 off) = some n) (ho : op < 256) (hf : off < 2 ^ 24) :
    FieldsB0 n op off := by
  have e := Option.some.inj e
  unfold wordB at e
  constructor <;> (try unfold fOp) <;> (try unfold fOff24) <;> omega

/-- A word is decoded by its opcode. -/
theorem decodeNat_op {n op : Nat} (h : fOp n = op) : decodeNat n = decodeOp n op := by rw [decodeNat, h]

/-! Target fields -/

theorem targets2_ok {n : Nat} {t1 t0 : Target} (f1 : fT1 n = t1.code) (f0 : fT0 n = t0.code) (h1 : t1.ok = true)
    (h0 : t0.ok = true) (k : Target → Target → Instr) : targets2 n k = .ok (k t1 t0) := by
  rw [targets2, f1, f0, targetOf_code _ h1, targetOf_code _ h0]

theorem targets1_ok {n : Nat} {t1 : Target} (f1 : fT1 n = t1.code) (f0 : fT0 n = 0) (h1 : t1.ok = true)
    (k : Target → Instr) : targets1 n k = .ok (k t1) := by
  rw [targets1, f1, f0, targetOf_code _ h1]; rfl

theorem noTargets_ok {n : Nat} (f1 : fT1 n = 0) (f0 : fT0 n = 0) (i : Instr) : noTargets n i = .ok i := by
  rw [noTargets, f1, f0]; rfl

theorem targets0_ok {n : Nat} {t0 : Target} (f0 : fT0 n = t0.code) (h0 : t0.ok = true)
    (k : Target → Instr) : targets0 n k = .ok (k t0) := by
  rw [targets0, f0, targetOf_code _ h0]

theorem noTarget0_ok {n : Nat} (f0 : fT0 n = 0) (i : Instr) : noTarget0 n i = .ok i := by
  rw [noTarget0, f0]; rfl

/-! MOD fields -/

theorem bitN_lt (b : Bool) : bitN b < 2 := by cases b <;> decide

theorem intTyOf_code (t : IntTy) : intTyOf t.code = some t := by cases t <;> rfl
theorem IntTy.code_lt (t : IntTy) : t.code < 6 := by cases t <;> decide
theorem FpTy.code_lt (t : FpTy) : t.code < 4 := by cases t <;> decide
theorem Rnd.code_lt (t : Rnd) : t.code < 4 := by cases t <;> decide
theorem CvtFmt.code_lt (t : CvtFmt) : t.code < 10 := by cases t <;> decide
theorem Size.code_lt (t : Size) : t.code < 5 := by cases t <;> decide
theorem Scope.code_lt (t : Scope) : t.code < 5 := by cases t <;> decide
theorem FenceKind.code_lt (t : FenceKind) : t.code < 4 := by cases t <;> decide
theorem BarRef.code_lt (t : BarRef) : t.code < 32 := by
  cases t with
  | named n => have := n.isLt; simp only [BarRef.code]; omega
  | stage n => have := n.isLt; simp only [BarRef.code]; omega
  | rope => decide

theorem IntMod.code_lt (m : IntMod) : m.code < 64 := by
  obtain ⟨t, a, b, z⟩ := m
  cases t <;> cases a <;> cases b <;> cases z <;> decide
theorem LeaMod.code_lt (m : LeaMod) : m.code < 64 := by
  have h := m.ty.code_lt
  have := m.scale.isLt
  simp only [LeaMod.code]; omega
theorem FpMod.code_lt (m : FpMod) : m.code < 64 := by
  obtain ⟨t, a, b, z⟩ := m
  cases t <;> cases a <;> cases b <;> cases z <;> decide
theorem FroundMod.code_lt (m : FroundMod) : m.code < 64 := by
  obtain ⟨t, a, r⟩ := m
  cases t <;> cases a <;> cases r <;> decide
theorem CvtMod.code_lt (m : CvtMod) : m.code < 64 := by
  obtain ⟨t, r⟩ := m
  cases t <;> cases r <;> decide

theorem intModOf_code (m : IntMod) : intModOf m.code = some m := by
  obtain ⟨t, a, b, z⟩ := m
  cases t <;> cases a <;> cases b <;> cases z <;> rfl
theorem leaModOf_code (m : LeaMod) : leaModOf m.code = some m := by
  obtain ⟨t, k⟩ := m
  have hk := k.isLt
  have h1 : (t.code * 8 + k.toNat) / 8 = t.code := by omega
  simp only [LeaMod.code, leaModOf, h1, intTyOf_code, Option.map_some]
  congr 2
  apply BitVec.eq_of_toNat_eq
  simp only [BitVec.toNat_ofNat]; omega
theorem fpModOf_code (m : FpMod) : fpModOf m.code = some m := by
  obtain ⟨t, a, b, z⟩ := m
  cases t <;> cases a <;> cases b <;> cases z <;> rfl
theorem froundModOf_code (m : FroundMod) : froundModOf m.code = some m := by
  obtain ⟨t, a, r⟩ := m
  cases t <;> cases a <;> cases r <;> rfl
theorem cvtModOf_code (m : CvtMod) : cvtModOf m.code = some m := by
  obtain ⟨t, r⟩ := m
  cases t <;> cases r <;> rfl
theorem sizeOf'_code (z : Size) : sizeOf' z.code = some z := by cases z <;> rfl
theorem scopeOf_code (p : Scope) : scopeOf p.code = some p := by cases p <;> rfl
theorem fenceKindOf_code (k : FenceKind) : fenceKindOf k.code = some k := by cases k <;> rfl
theorem barRefOf_code (b : BarRef) : barRefOf b.code = some b := by
  cases b with
  | named n =>
    have hn := n.isLt
    have h1 : n.toNat / 16 = 0 := by omega
    simp only [BarRef.code, barRefOf, h1]
    congr 2
    apply BitVec.eq_of_toNat_eq
    simp only [BitVec.toNat_ofNat]; omega
  | stage n =>
    have hn := n.isLt
    have h1 : (16 + n.toNat) / 16 = 1 := by omega
    have h2 : (16 + n.toNat) % 16 ≤ 1 := by omega
    simp only [BarRef.code, barRefOf, h1, h2, if_true]
    congr 2
    apply BitVec.eq_of_toNat_eq
    simp only [BitVec.toNat_ofNat]; omega
  | rope => rfl

theorem withMod_some {α : Type} {m : α} {okv : α → Bool} {k : α → Dec} (h : okv m = true) :
    withMod (some m) okv k = k m := by simp [withMod, h]
theorem withMod_any {α : Type} {m : α} {k : α → Dec} : withMod (some m) (fun _ => true) k = k m := rfl
theorem zeroMod_zero {k : Dec} : zeroMod 0 k = k := rfl
theorem withSlot_true {k : Dec} : withSlot true k = k := rfl
theorem withSlot_of {c : Bool} {k : Dec} (h : c = true) : withSlot c k = k := by simp [withSlot, h]

theorem ofNat_toNat6 (x : BitVec 6) : BitVec.ofNat 6 x.toNat = x := BitVec.ofNat_toNat ..|>.trans (by simp)
theorem ofNat_toNat4 (x : BitVec 4) : BitVec.ofNat 4 x.toNat = x := BitVec.ofNat_toNat ..|>.trans (by simp)
theorem ofNat_toNat15 (x : BitVec 15) : BitVec.ofNat 15 x.toNat = x := BitVec.ofNat_toNat ..|>.trans (by simp)
theorem ofNat_toNat20 (x : BitVec 20) : BitVec.ofNat 20 x.toNat = x := BitVec.ofNat_toNat ..|>.trans (by simp)
theorem ofNat_toNat24 (x : BitVec 24) : BitVec.ofNat 24 x.toNat = x := BitVec.ofNat_toNat ..|>.trans (by simp)
theorem ofNat4_add16 (b : Bool) (x : BitVec 4) : BitVec.ofNat 4 (bitN b * 16 + x.toNat) = x := by
  apply BitVec.eq_of_toNat_eq
  have := x.isLt
  simp only [BitVec.toNat_ofNat]; omega
theorem bitN_beq (b : Bool) : (bitN b == 1) = b := by cases b <;> rfl

end Sys2Proof
end

