-- ==== Sys2Proof/Laws/Tables.lean ====
section
/-! SUPPORT. What a sparse table reads as after an entry of it is replaced, for every table, in canonical form or not. -/

namespace Sys2Proof.Machine

/-- The replaced entry reads as its new value. -/
@[simp] theorem Tbl.find?_set_self {α : Type} (t : Tbl α) (n : Nat) (v : α) : Tbl.find? (Tbl.set t n v) n = some v := by
  induction t with
  | nil => simp [Tbl.set, Tbl.find?]
  | cons e t ih =>
    obtain ⟨k, w⟩ := e
    simp only [Tbl.set]
    split
    · simp [Tbl.find?]
    · split
      · simp [Tbl.find?]
      · simp [Tbl.find?, *]

/-- Every other entry reads as before. -/
theorem Tbl.find?_set_ne {α : Type} (t : Tbl α) {n m : Nat} (v : α) (h : m ≠ n) :
    Tbl.find? (Tbl.set t n v) m = Tbl.find? t m := by
  induction t with
  | nil => simp [Tbl.set, Tbl.find?, Ne.symm h]
  | cons e t ih =>
    obtain ⟨k, w⟩ := e
    simp only [Tbl.set]
    split
    · next hk => subst hk; simp [Tbl.find?, Ne.symm h]
    · split
      · next hk hlt =>
        simp only [Tbl.find?, Ne.symm h, if_false]
        split
        · next hm => rw [if_neg (by omega), if_pos (by omega)]
        · rfl
      · simp [Tbl.find?, ih]

/-- The replaced entry, read with a default. -/
@[simp] theorem Tbl.get_set_self {α : Type} (d : α) (t : Tbl α) (n : Nat) (v : α) : Tbl.get d (Tbl.set t n v) n = v := by
  simp [Tbl.get]

/-- Every other entry, read with a default. -/
theorem Tbl.get_set_ne {α : Type} (d : α) (t : Tbl α) {n m : Nat} (v : α) (h : m ≠ n) :
    Tbl.get d (Tbl.set t n v) m = Tbl.get d t m := by
  simp [Tbl.get, Tbl.find?_set_ne t v h]

/-- Of two replacements of one entry the second stands. -/
@[simp] theorem Tbl.set_set {α : Type} (t : Tbl α) (n : Nat) (v w : α) : Tbl.set (Tbl.set t n v) n w = Tbl.set t n w := by
  induction t with
  | nil => simp [Tbl.set]
  | cons e t ih =>
    obtain ⟨k, u⟩ := e
    by_cases h : k = n
    · simp [Tbl.set, h]
    · by_cases h2 : n < k
      · simp [Tbl.set, h, h2]
      · simp [Tbl.set, h, h2, ih]

/-- An entry of an empty table. -/
@[simp] theorem Tbl.get_nil {α : Type} (d : α) (n : Nat) : Tbl.get d ([] : Tbl α) n = d := rfl

end Sys2Proof.Machine
end

