-- ==== Sys2Proof/Laws/State.lean ====
section
/-! SUPPORT. One lemma per field per update of the state: a field that an update does not touch reads as before. Then what
the updated component reads as. -/

namespace Sys2Proof.Machine

variable (s : State)


/-! `State.setCore` -/

@[simp] theorem State.setCore_clk (c : Nat) (x : Core) : (s.setCore c x).clk = s.clk := rfl
@[simp] theorem State.setCore_urgent (c : Nat) (x : Core) : (s.setCore c x).urgent = s.urgent := rfl
@[simp] theorem State.setCore_agenda (c : Nat) (x : Core) : (s.setCore c x).agenda = s.agenda := rfl
@[simp] theorem State.setCore_cur (c : Nat) (x : Core) : (s.setCore c x).cur = s.cur := rfl
@[simp] theorem State.setCore_args (c : Nat) (x : Core) : (s.setCore c x).args = s.args := rfl
@[simp] theorem State.setCore_mem (c : Nat) (x : Core) : (s.setCore c x).mem = s.mem := rfl
@[simp] theorem State.setCore_poison (c : Nat) (x : Core) : (s.setCore c x).poison = s.poison := rfl
@[simp] theorem State.setCore_locks (c : Nat) (x : Core) : (s.setCore c x).locks = s.locks := rfl
@[simp] theorem State.setCore_owned (c : Nat) (x : Core) : (s.setCore c x).owned = s.owned := rfl
@[simp] theorem State.setCore_hostQ (c : Nat) (x : Core) : (s.setCore c x).hostQ = s.hostQ := rfl
@[simp] theorem State.setCore_hostGot (c : Nat) (x : Core) : (s.setCore c x).hostGot = s.hostGot := rfl
@[simp] theorem State.setCore_before (c : Nat) (x : Core) : (s.setCore c x).before = s.before := rfl
@[simp] theorem State.setCore_oldBytes (c : Nat) (x : Core) : (s.setCore c x).oldBytes = s.oldBytes := rfl
@[simp] theorem State.setCore_dies (c : Nat) (x : Core) : (s.setCore c x).dies = s.dies := rfl
@[simp] theorem State.setCore_queues (c : Nat) (x : Core) : (s.setCore c x).queues = s.queues := rfl
@[simp] theorem State.setCore_grids (c : Nat) (x : Core) : (s.setCore c x).grids = s.grids := rfl
@[simp] theorem State.setCore_nextGrid (c : Nat) (x : Core) : (s.setCore c x).nextGrid = s.nextGrid := rfl
@[simp] theorem State.setCore_lastServed (c : Nat) (x : Core) : (s.setCore c x).lastServed = s.lastServed := rfl
@[simp] theorem State.setCore_placeClk (c : Nat) (x : Core) : (s.setCore c x).placeClk = s.placeClk := rfl
@[simp] theorem State.setCore_reports (c : Nat) (x : Core) : (s.setCore c x).reports = s.reports := rfl
@[simp] theorem State.setCore_incarnations (c : Nat) (x : Core) : (s.setCore c x).incarnations = s.incarnations := rfl
@[simp] theorem State.setCore_mgmt (c : Nat) (x : Core) : (s.setCore c x).mgmt = s.mgmt := rfl
@[simp] theorem State.setCore_copyNext (c : Nat) (x : Core) : (s.setCore c x).copyNext = s.copyNext := rfl
@[simp] theorem State.setCore_replies (c : Nat) (x : Core) : (s.setCore c x).replies = s.replies := rfl
@[simp] theorem State.setCore_cfginvs (c : Nat) (x : Core) : (s.setCore c x).cfginvs = s.cfginvs := rfl

/-! `State.modCore` -/

@[simp] theorem State.modCore_clk (c : Nat) (f : Core → Core) : (s.modCore c f).clk = s.clk := rfl
@[simp] theorem State.modCore_urgent (c : Nat) (f : Core → Core) : (s.modCore c f).urgent = s.urgent := rfl
@[simp] theorem State.modCore_agenda (c : Nat) (f : Core → Core) : (s.modCore c f).agenda = s.agenda := rfl
@[simp] theorem State.modCore_cur (c : Nat) (f : Core → Core) : (s.modCore c f).cur = s.cur := rfl
@[simp] theorem State.modCore_args (c : Nat) (f : Core → Core) : (s.modCore c f).args = s.args := rfl
@[simp] theorem State.modCore_mem (c : Nat) (f : Core → Core) : (s.modCore c f).mem = s.mem := rfl
@[simp] theorem State.modCore_poison (c : Nat) (f : Core → Core) : (s.modCore c f).poison = s.poison := rfl
@[simp] theorem State.modCore_locks (c : Nat) (f : Core → Core) : (s.modCore c f).locks = s.locks := rfl
@[simp] theorem State.modCore_owned (c : Nat) (f : Core → Core) : (s.modCore c f).owned = s.owned := rfl
@[simp] theorem State.modCore_hostQ (c : Nat) (f : Core → Core) : (s.modCore c f).hostQ = s.hostQ := rfl
@[simp] theorem State.modCore_hostGot (c : Nat) (f : Core → Core) : (s.modCore c f).hostGot = s.hostGot := rfl
@[simp] theorem State.modCore_before (c : Nat) (f : Core → Core) : (s.modCore c f).before = s.before := rfl
@[simp] theorem State.modCore_oldBytes (c : Nat) (f : Core → Core) : (s.modCore c f).oldBytes = s.oldBytes := rfl
@[simp] theorem State.modCore_dies (c : Nat) (f : Core → Core) : (s.modCore c f).dies = s.dies := rfl
@[simp] theorem State.modCore_queues (c : Nat) (f : Core → Core) : (s.modCore c f).queues = s.queues := rfl
@[simp] theorem State.modCore_grids (c : Nat) (f : Core → Core) : (s.modCore c f).grids = s.grids := rfl
@[simp] theorem State.modCore_nextGrid (c : Nat) (f : Core → Core) : (s.modCore c f).nextGrid = s.nextGrid := rfl
@[simp] theorem State.modCore_lastServed (c : Nat) (f : Core → Core) : (s.modCore c f).lastServed = s.lastServed := rfl
@[simp] theorem State.modCore_placeClk (c : Nat) (f : Core → Core) : (s.modCore c f).placeClk = s.placeClk := rfl
@[simp] theorem State.modCore_reports (c : Nat) (f : Core → Core) : (s.modCore c f).reports = s.reports := rfl
@[simp] theorem State.modCore_incarnations (c : Nat) (f : Core → Core) : (s.modCore c f).incarnations = s.incarnations := rfl
@[simp] theorem State.modCore_mgmt (c : Nat) (f : Core → Core) : (s.modCore c f).mgmt = s.mgmt := rfl
@[simp] theorem State.modCore_copyNext (c : Nat) (f : Core → Core) : (s.modCore c f).copyNext = s.copyNext := rfl
@[simp] theorem State.modCore_replies (c : Nat) (f : Core → Core) : (s.modCore c f).replies = s.replies := rfl
@[simp] theorem State.modCore_cfginvs (c : Nat) (f : Core → Core) : (s.modCore c f).cfginvs = s.cfginvs := rfl

/-! `State.modThread` -/

@[simp] theorem State.modThread_clk (c sl : Nat) (f : Thread → Thread) : (s.modThread c sl f).clk = s.clk := rfl
@[simp] theorem State.modThread_urgent (c sl : Nat) (f : Thread → Thread) : (s.modThread c sl f).urgent = s.urgent := rfl
@[simp] theorem State.modThread_agenda (c sl : Nat) (f : Thread → Thread) : (s.modThread c sl f).agenda = s.agenda := rfl
@[simp] theorem State.modThread_cur (c sl : Nat) (f : Thread → Thread) : (s.modThread c sl f).cur = s.cur := rfl
@[simp] theorem State.modThread_args (c sl : Nat) (f : Thread → Thread) : (s.modThread c sl f).args = s.args := rfl
@[simp] theorem State.modThread_mem (c sl : Nat) (f : Thread → Thread) : (s.modThread c sl f).mem = s.mem := rfl
@[simp] theorem State.modThread_poison (c sl : Nat) (f : Thread → Thread) : (s.modThread c sl f).poison = s.poison := rfl
@[simp] theorem State.modThread_locks (c sl : Nat) (f : Thread → Thread) : (s.modThread c sl f).locks = s.locks := rfl
@[simp] theorem State.modThread_owned (c sl : Nat) (f : Thread → Thread) : (s.modThread c sl f).owned = s.owned := rfl
@[simp] theorem State.modThread_hostQ (c sl : Nat) (f : Thread → Thread) : (s.modThread c sl f).hostQ = s.hostQ := rfl
@[simp] theorem State.modThread_hostGot (c sl : Nat) (f : Thread → Thread) : (s.modThread c sl f).hostGot = s.hostGot := rfl
@[simp] theorem State.modThread_before (c sl : Nat) (f : Thread → Thread) : (s.modThread c sl f).before = s.before := rfl
@[simp] theorem State.modThread_oldBytes (c sl : Nat) (f : Thread → Thread) : (s.modThread c sl f).oldBytes = s.oldBytes := rfl
@[simp] theorem State.modThread_dies (c sl : Nat) (f : Thread → Thread) : (s.modThread c sl f).dies = s.dies := rfl
@[simp] theorem State.modThread_queues (c sl : Nat) (f : Thread → Thread) : (s.modThread c sl f).queues = s.queues := rfl
@[simp] theorem State.modThread_grids (c sl : Nat) (f : Thread → Thread) : (s.modThread c sl f).grids = s.grids := rfl
@[simp] theorem State.modThread_nextGrid (c sl : Nat) (f : Thread → Thread) : (s.modThread c sl f).nextGrid = s.nextGrid := rfl
@[simp] theorem State.modThread_lastServed (c sl : Nat) (f : Thread → Thread) : (s.modThread c sl f).lastServed = s.lastServed := rfl
@[simp] theorem State.modThread_placeClk (c sl : Nat) (f : Thread → Thread) : (s.modThread c sl f).placeClk = s.placeClk := rfl
@[simp] theorem State.modThread_reports (c sl : Nat) (f : Thread → Thread) : (s.modThread c sl f).reports = s.reports := rfl
@[simp] theorem State.modThread_incarnations (c sl : Nat) (f : Thread → Thread) : (s.modThread c sl f).incarnations = s.incarnations := rfl
@[simp] theorem State.modThread_mgmt (c sl : Nat) (f : Thread → Thread) : (s.modThread c sl f).mgmt = s.mgmt := rfl
@[simp] theorem State.modThread_copyNext (c sl : Nat) (f : Thread → Thread) : (s.modThread c sl f).copyNext = s.copyNext := rfl
@[simp] theorem State.modThread_replies (c sl : Nat) (f : Thread → Thread) : (s.modThread c sl f).replies = s.replies := rfl
@[simp] theorem State.modThread_cfginvs (c sl : Nat) (f : Thread → Thread) : (s.modThread c sl f).cfginvs = s.cfginvs := rfl

/-! `State.modInst` -/

@[simp] theorem State.modInst_clk (c sl : Nat) (f : Inst → Inst) : (s.modInst c sl f).clk = s.clk := rfl
@[simp] theorem State.modInst_urgent (c sl : Nat) (f : Inst → Inst) : (s.modInst c sl f).urgent = s.urgent := rfl
@[simp] theorem State.modInst_agenda (c sl : Nat) (f : Inst → Inst) : (s.modInst c sl f).agenda = s.agenda := rfl
@[simp] theorem State.modInst_cur (c sl : Nat) (f : Inst → Inst) : (s.modInst c sl f).cur = s.cur := rfl
@[simp] theorem State.modInst_args (c sl : Nat) (f : Inst → Inst) : (s.modInst c sl f).args = s.args := rfl
@[simp] theorem State.modInst_mem (c sl : Nat) (f : Inst → Inst) : (s.modInst c sl f).mem = s.mem := rfl
@[simp] theorem State.modInst_poison (c sl : Nat) (f : Inst → Inst) : (s.modInst c sl f).poison = s.poison := rfl
@[simp] theorem State.modInst_locks (c sl : Nat) (f : Inst → Inst) : (s.modInst c sl f).locks = s.locks := rfl
@[simp] theorem State.modInst_owned (c sl : Nat) (f : Inst → Inst) : (s.modInst c sl f).owned = s.owned := rfl
@[simp] theorem State.modInst_hostQ (c sl : Nat) (f : Inst → Inst) : (s.modInst c sl f).hostQ = s.hostQ := rfl
@[simp] theorem State.modInst_hostGot (c sl : Nat) (f : Inst → Inst) : (s.modInst c sl f).hostGot = s.hostGot := rfl
@[simp] theorem State.modInst_before (c sl : Nat) (f : Inst → Inst) : (s.modInst c sl f).before = s.before := rfl
@[simp] theorem State.modInst_oldBytes (c sl : Nat) (f : Inst → Inst) : (s.modInst c sl f).oldBytes = s.oldBytes := rfl
@[simp] theorem State.modInst_dies (c sl : Nat) (f : Inst → Inst) : (s.modInst c sl f).dies = s.dies := rfl
@[simp] theorem State.modInst_queues (c sl : Nat) (f : Inst → Inst) : (s.modInst c sl f).queues = s.queues := rfl
@[simp] theorem State.modInst_grids (c sl : Nat) (f : Inst → Inst) : (s.modInst c sl f).grids = s.grids := rfl
@[simp] theorem State.modInst_nextGrid (c sl : Nat) (f : Inst → Inst) : (s.modInst c sl f).nextGrid = s.nextGrid := rfl
@[simp] theorem State.modInst_lastServed (c sl : Nat) (f : Inst → Inst) : (s.modInst c sl f).lastServed = s.lastServed := rfl
@[simp] theorem State.modInst_placeClk (c sl : Nat) (f : Inst → Inst) : (s.modInst c sl f).placeClk = s.placeClk := rfl
@[simp] theorem State.modInst_reports (c sl : Nat) (f : Inst → Inst) : (s.modInst c sl f).reports = s.reports := rfl
@[simp] theorem State.modInst_incarnations (c sl : Nat) (f : Inst → Inst) : (s.modInst c sl f).incarnations = s.incarnations := rfl
@[simp] theorem State.modInst_mgmt (c sl : Nat) (f : Inst → Inst) : (s.modInst c sl f).mgmt = s.mgmt := rfl
@[simp] theorem State.modInst_copyNext (c sl : Nat) (f : Inst → Inst) : (s.modInst c sl f).copyNext = s.copyNext := rfl
@[simp] theorem State.modInst_replies (c sl : Nat) (f : Inst → Inst) : (s.modInst c sl f).replies = s.replies := rfl
@[simp] theorem State.modInst_cfginvs (c sl : Nat) (f : Inst → Inst) : (s.modInst c sl f).cfginvs = s.cfginvs := rfl

/-! `State.modGroup` -/

@[simp] theorem State.modGroup_clk (c g : Nat) (f : Group → Group) : (s.modGroup c g f).clk = s.clk := rfl
@[simp] theorem State.modGroup_urgent (c g : Nat) (f : Group → Group) : (s.modGroup c g f).urgent = s.urgent := rfl
@[simp] theorem State.modGroup_agenda (c g : Nat) (f : Group → Group) : (s.modGroup c g f).agenda = s.agenda := rfl
@[simp] theorem State.modGroup_cur (c g : Nat) (f : Group → Group) : (s.modGroup c g f).cur = s.cur := rfl
@[simp] theorem State.modGroup_args (c g : Nat) (f : Group → Group) : (s.modGroup c g f).args = s.args := rfl
@[simp] theorem State.modGroup_mem (c g : Nat) (f : Group → Group) : (s.modGroup c g f).mem = s.mem := rfl
@[simp] theorem State.modGroup_poison (c g : Nat) (f : Group → Group) : (s.modGroup c g f).poison = s.poison := rfl
@[simp] theorem State.modGroup_locks (c g : Nat) (f : Group → Group) : (s.modGroup c g f).locks = s.locks := rfl
@[simp] theorem State.modGroup_owned (c g : Nat) (f : Group → Group) : (s.modGroup c g f).owned = s.owned := rfl
@[simp] theorem State.modGroup_hostQ (c g : Nat) (f : Group → Group) : (s.modGroup c g f).hostQ = s.hostQ := rfl
@[simp] theorem State.modGroup_hostGot (c g : Nat) (f : Group → Group) : (s.modGroup c g f).hostGot = s.hostGot := rfl
@[simp] theorem State.modGroup_before (c g : Nat) (f : Group → Group) : (s.modGroup c g f).before = s.before := rfl
@[simp] theorem State.modGroup_oldBytes (c g : Nat) (f : Group → Group) : (s.modGroup c g f).oldBytes = s.oldBytes := rfl
@[simp] theorem State.modGroup_dies (c g : Nat) (f : Group → Group) : (s.modGroup c g f).dies = s.dies := rfl
@[simp] theorem State.modGroup_queues (c g : Nat) (f : Group → Group) : (s.modGroup c g f).queues = s.queues := rfl
@[simp] theorem State.modGroup_grids (c g : Nat) (f : Group → Group) : (s.modGroup c g f).grids = s.grids := rfl
@[simp] theorem State.modGroup_nextGrid (c g : Nat) (f : Group → Group) : (s.modGroup c g f).nextGrid = s.nextGrid := rfl
@[simp] theorem State.modGroup_lastServed (c g : Nat) (f : Group → Group) : (s.modGroup c g f).lastServed = s.lastServed := rfl
@[simp] theorem State.modGroup_placeClk (c g : Nat) (f : Group → Group) : (s.modGroup c g f).placeClk = s.placeClk := rfl
@[simp] theorem State.modGroup_reports (c g : Nat) (f : Group → Group) : (s.modGroup c g f).reports = s.reports := rfl
@[simp] theorem State.modGroup_incarnations (c g : Nat) (f : Group → Group) : (s.modGroup c g f).incarnations = s.incarnations := rfl
@[simp] theorem State.modGroup_mgmt (c g : Nat) (f : Group → Group) : (s.modGroup c g f).mgmt = s.mgmt := rfl
@[simp] theorem State.modGroup_copyNext (c g : Nat) (f : Group → Group) : (s.modGroup c g f).copyNext = s.copyNext := rfl
@[simp] theorem State.modGroup_replies (c g : Nat) (f : Group → Group) : (s.modGroup c g f).replies = s.replies := rfl
@[simp] theorem State.modGroup_cfginvs (c g : Nat) (f : Group → Group) : (s.modGroup c g f).cfginvs = s.cfginvs := rfl

/-! `State.setDie` -/

@[simp] theorem State.setDie_clk (d : Nat) (x : Die) : (s.setDie d x).clk = s.clk := rfl
@[simp] theorem State.setDie_urgent (d : Nat) (x : Die) : (s.setDie d x).urgent = s.urgent := rfl
@[simp] theorem State.setDie_agenda (d : Nat) (x : Die) : (s.setDie d x).agenda = s.agenda := rfl
@[simp] theorem State.setDie_cur (d : Nat) (x : Die) : (s.setDie d x).cur = s.cur := rfl
@[simp] theorem State.setDie_args (d : Nat) (x : Die) : (s.setDie d x).args = s.args := rfl
@[simp] theorem State.setDie_mem (d : Nat) (x : Die) : (s.setDie d x).mem = s.mem := rfl
@[simp] theorem State.setDie_poison (d : Nat) (x : Die) : (s.setDie d x).poison = s.poison := rfl
@[simp] theorem State.setDie_locks (d : Nat) (x : Die) : (s.setDie d x).locks = s.locks := rfl
@[simp] theorem State.setDie_owned (d : Nat) (x : Die) : (s.setDie d x).owned = s.owned := rfl
@[simp] theorem State.setDie_hostQ (d : Nat) (x : Die) : (s.setDie d x).hostQ = s.hostQ := rfl
@[simp] theorem State.setDie_hostGot (d : Nat) (x : Die) : (s.setDie d x).hostGot = s.hostGot := rfl
@[simp] theorem State.setDie_before (d : Nat) (x : Die) : (s.setDie d x).before = s.before := rfl
@[simp] theorem State.setDie_oldBytes (d : Nat) (x : Die) : (s.setDie d x).oldBytes = s.oldBytes := rfl
@[simp] theorem State.setDie_cores (d : Nat) (x : Die) : (s.setDie d x).cores = s.cores := rfl
@[simp] theorem State.setDie_queues (d : Nat) (x : Die) : (s.setDie d x).queues = s.queues := rfl
@[simp] theorem State.setDie_grids (d : Nat) (x : Die) : (s.setDie d x).grids = s.grids := rfl
@[simp] theorem State.setDie_nextGrid (d : Nat) (x : Die) : (s.setDie d x).nextGrid = s.nextGrid := rfl
@[simp] theorem State.setDie_lastServed (d : Nat) (x : Die) : (s.setDie d x).lastServed = s.lastServed := rfl
@[simp] theorem State.setDie_placeClk (d : Nat) (x : Die) : (s.setDie d x).placeClk = s.placeClk := rfl
@[simp] theorem State.setDie_reports (d : Nat) (x : Die) : (s.setDie d x).reports = s.reports := rfl
@[simp] theorem State.setDie_incarnations (d : Nat) (x : Die) : (s.setDie d x).incarnations = s.incarnations := rfl
@[simp] theorem State.setDie_mgmt (d : Nat) (x : Die) : (s.setDie d x).mgmt = s.mgmt := rfl
@[simp] theorem State.setDie_copyNext (d : Nat) (x : Die) : (s.setDie d x).copyNext = s.copyNext := rfl
@[simp] theorem State.setDie_replies (d : Nat) (x : Die) : (s.setDie d x).replies = s.replies := rfl
@[simp] theorem State.setDie_cfginvs (d : Nat) (x : Die) : (s.setDie d x).cfginvs = s.cfginvs := rfl

/-! `State.modDie` -/

@[simp] theorem State.modDie_clk (d : Nat) (f : Die → Die) : (s.modDie d f).clk = s.clk := rfl
@[simp] theorem State.modDie_urgent (d : Nat) (f : Die → Die) : (s.modDie d f).urgent = s.urgent := rfl
@[simp] theorem State.modDie_agenda (d : Nat) (f : Die → Die) : (s.modDie d f).agenda = s.agenda := rfl
@[simp] theorem State.modDie_cur (d : Nat) (f : Die → Die) : (s.modDie d f).cur = s.cur := rfl
@[simp] theorem State.modDie_args (d : Nat) (f : Die → Die) : (s.modDie d f).args = s.args := rfl
@[simp] theorem State.modDie_mem (d : Nat) (f : Die → Die) : (s.modDie d f).mem = s.mem := rfl
@[simp] theorem State.modDie_poison (d : Nat) (f : Die → Die) : (s.modDie d f).poison = s.poison := rfl
@[simp] theorem State.modDie_locks (d : Nat) (f : Die → Die) : (s.modDie d f).locks = s.locks := rfl
@[simp] theorem State.modDie_owned (d : Nat) (f : Die → Die) : (s.modDie d f).owned = s.owned := rfl
@[simp] theorem State.modDie_hostQ (d : Nat) (f : Die → Die) : (s.modDie d f).hostQ = s.hostQ := rfl
@[simp] theorem State.modDie_hostGot (d : Nat) (f : Die → Die) : (s.modDie d f).hostGot = s.hostGot := rfl
@[simp] theorem State.modDie_before (d : Nat) (f : Die → Die) : (s.modDie d f).before = s.before := rfl
@[simp] theorem State.modDie_oldBytes (d : Nat) (f : Die → Die) : (s.modDie d f).oldBytes = s.oldBytes := rfl
@[simp] theorem State.modDie_cores (d : Nat) (f : Die → Die) : (s.modDie d f).cores = s.cores := rfl
@[simp] theorem State.modDie_queues (d : Nat) (f : Die → Die) : (s.modDie d f).queues = s.queues := rfl
@[simp] theorem State.modDie_grids (d : Nat) (f : Die → Die) : (s.modDie d f).grids = s.grids := rfl
@[simp] theorem State.modDie_nextGrid (d : Nat) (f : Die → Die) : (s.modDie d f).nextGrid = s.nextGrid := rfl
@[simp] theorem State.modDie_lastServed (d : Nat) (f : Die → Die) : (s.modDie d f).lastServed = s.lastServed := rfl
@[simp] theorem State.modDie_placeClk (d : Nat) (f : Die → Die) : (s.modDie d f).placeClk = s.placeClk := rfl
@[simp] theorem State.modDie_reports (d : Nat) (f : Die → Die) : (s.modDie d f).reports = s.reports := rfl
@[simp] theorem State.modDie_incarnations (d : Nat) (f : Die → Die) : (s.modDie d f).incarnations = s.incarnations := rfl
@[simp] theorem State.modDie_mgmt (d : Nat) (f : Die → Die) : (s.modDie d f).mgmt = s.mgmt := rfl
@[simp] theorem State.modDie_copyNext (d : Nat) (f : Die → Die) : (s.modDie d f).copyNext = s.copyNext := rfl
@[simp] theorem State.modDie_replies (d : Nat) (f : Die → Die) : (s.modDie d f).replies = s.replies := rfl
@[simp] theorem State.modDie_cfginvs (d : Nat) (f : Die → Die) : (s.modDie d f).cfginvs = s.cfginvs := rfl

/-! `State.modQueue` -/

@[simp] theorem State.modQueue_clk (q : Nat) (f : Queue → Queue) : (s.modQueue q f).clk = s.clk := rfl
@[simp] theorem State.modQueue_urgent (q : Nat) (f : Queue → Queue) : (s.modQueue q f).urgent = s.urgent := rfl
@[simp] theorem State.modQueue_agenda (q : Nat) (f : Queue → Queue) : (s.modQueue q f).agenda = s.agenda := rfl
@[simp] theorem State.modQueue_cur (q : Nat) (f : Queue → Queue) : (s.modQueue q f).cur = s.cur := rfl
@[simp] theorem State.modQueue_args (q : Nat) (f : Queue → Queue) : (s.modQueue q f).args = s.args := rfl
@[simp] theorem State.modQueue_mem (q : Nat) (f : Queue → Queue) : (s.modQueue q f).mem = s.mem := rfl
@[simp] theorem State.modQueue_poison (q : Nat) (f : Queue → Queue) : (s.modQueue q f).poison = s.poison := rfl
@[simp] theorem State.modQueue_locks (q : Nat) (f : Queue → Queue) : (s.modQueue q f).locks = s.locks := rfl
@[simp] theorem State.modQueue_owned (q : Nat) (f : Queue → Queue) : (s.modQueue q f).owned = s.owned := rfl
@[simp] theorem State.modQueue_hostQ (q : Nat) (f : Queue → Queue) : (s.modQueue q f).hostQ = s.hostQ := rfl
@[simp] theorem State.modQueue_hostGot (q : Nat) (f : Queue → Queue) : (s.modQueue q f).hostGot = s.hostGot := rfl
@[simp] theorem State.modQueue_before (q : Nat) (f : Queue → Queue) : (s.modQueue q f).before = s.before := rfl
@[simp] theorem State.modQueue_oldBytes (q : Nat) (f : Queue → Queue) : (s.modQueue q f).oldBytes = s.oldBytes := rfl
@[simp] theorem State.modQueue_cores (q : Nat) (f : Queue → Queue) : (s.modQueue q f).cores = s.cores := rfl
@[simp] theorem State.modQueue_dies (q : Nat) (f : Queue → Queue) : (s.modQueue q f).dies = s.dies := rfl
@[simp] theorem State.modQueue_grids (q : Nat) (f : Queue → Queue) : (s.modQueue q f).grids = s.grids := rfl
@[simp] theorem State.modQueue_nextGrid (q : Nat) (f : Queue → Queue) : (s.modQueue q f).nextGrid = s.nextGrid := rfl
@[simp] theorem State.modQueue_lastServed (q : Nat) (f : Queue → Queue) : (s.modQueue q f).lastServed = s.lastServed := rfl
@[simp] theorem State.modQueue_placeClk (q : Nat) (f : Queue → Queue) : (s.modQueue q f).placeClk = s.placeClk := rfl
@[simp] theorem State.modQueue_reports (q : Nat) (f : Queue → Queue) : (s.modQueue q f).reports = s.reports := rfl
@[simp] theorem State.modQueue_incarnations (q : Nat) (f : Queue → Queue) : (s.modQueue q f).incarnations = s.incarnations := rfl
@[simp] theorem State.modQueue_mgmt (q : Nat) (f : Queue → Queue) : (s.modQueue q f).mgmt = s.mgmt := rfl
@[simp] theorem State.modQueue_copyNext (q : Nat) (f : Queue → Queue) : (s.modQueue q f).copyNext = s.copyNext := rfl
@[simp] theorem State.modQueue_replies (q : Nat) (f : Queue → Queue) : (s.modQueue q f).replies = s.replies := rfl
@[simp] theorem State.modQueue_cfginvs (q : Nat) (f : Queue → Queue) : (s.modQueue q f).cfginvs = s.cfginvs := rfl

/-! `State.modMgmt` -/

@[simp] theorem State.modMgmt_clk (f : Mgmt → Mgmt) : (s.modMgmt f).clk = s.clk := rfl
@[simp] theorem State.modMgmt_urgent (f : Mgmt → Mgmt) : (s.modMgmt f).urgent = s.urgent := rfl
@[simp] theorem State.modMgmt_agenda (f : Mgmt → Mgmt) : (s.modMgmt f).agenda = s.agenda := rfl
@[simp] theorem State.modMgmt_cur (f : Mgmt → Mgmt) : (s.modMgmt f).cur = s.cur := rfl
@[simp] theorem State.modMgmt_args (f : Mgmt → Mgmt) : (s.modMgmt f).args = s.args := rfl
@[simp] theorem State.modMgmt_mem (f : Mgmt → Mgmt) : (s.modMgmt f).mem = s.mem := rfl
@[simp] theorem State.modMgmt_poison (f : Mgmt → Mgmt) : (s.modMgmt f).poison = s.poison := rfl
@[simp] theorem State.modMgmt_locks (f : Mgmt → Mgmt) : (s.modMgmt f).locks = s.locks := rfl
@[simp] theorem State.modMgmt_owned (f : Mgmt → Mgmt) : (s.modMgmt f).owned = s.owned := rfl
@[simp] theorem State.modMgmt_hostQ (f : Mgmt → Mgmt) : (s.modMgmt f).hostQ = s.hostQ := rfl
@[simp] theorem State.modMgmt_hostGot (f : Mgmt → Mgmt) : (s.modMgmt f).hostGot = s.hostGot := rfl
@[simp] theorem State.modMgmt_before (f : Mgmt → Mgmt) : (s.modMgmt f).before = s.before := rfl
@[simp] theorem State.modMgmt_oldBytes (f : Mgmt → Mgmt) : (s.modMgmt f).oldBytes = s.oldBytes := rfl
@[simp] theorem State.modMgmt_cores (f : Mgmt → Mgmt) : (s.modMgmt f).cores = s.cores := rfl
@[simp] theorem State.modMgmt_dies (f : Mgmt → Mgmt) : (s.modMgmt f).dies = s.dies := rfl
@[simp] theorem State.modMgmt_queues (f : Mgmt → Mgmt) : (s.modMgmt f).queues = s.queues := rfl
@[simp] theorem State.modMgmt_grids (f : Mgmt → Mgmt) : (s.modMgmt f).grids = s.grids := rfl
@[simp] theorem State.modMgmt_nextGrid (f : Mgmt → Mgmt) : (s.modMgmt f).nextGrid = s.nextGrid := rfl
@[simp] theorem State.modMgmt_lastServed (f : Mgmt → Mgmt) : (s.modMgmt f).lastServed = s.lastServed := rfl
@[simp] theorem State.modMgmt_placeClk (f : Mgmt → Mgmt) : (s.modMgmt f).placeClk = s.placeClk := rfl
@[simp] theorem State.modMgmt_reports (f : Mgmt → Mgmt) : (s.modMgmt f).reports = s.reports := rfl
@[simp] theorem State.modMgmt_incarnations (f : Mgmt → Mgmt) : (s.modMgmt f).incarnations = s.incarnations := rfl
@[simp] theorem State.modMgmt_copyNext (f : Mgmt → Mgmt) : (s.modMgmt f).copyNext = s.copyNext := rfl
@[simp] theorem State.modMgmt_replies (f : Mgmt → Mgmt) : (s.modMgmt f).replies = s.replies := rfl
@[simp] theorem State.modMgmt_cfginvs (f : Mgmt → Mgmt) : (s.modMgmt f).cfginvs = s.cfginvs := rfl

/-! `State.urge` -/

@[simp] theorem State.urge_clk (k : Choice) : (s.urge k).clk = s.clk := rfl
@[simp] theorem State.urge_agenda (k : Choice) : (s.urge k).agenda = s.agenda := rfl
@[simp] theorem State.urge_cur (k : Choice) : (s.urge k).cur = s.cur := rfl
@[simp] theorem State.urge_args (k : Choice) : (s.urge k).args = s.args := rfl
@[simp] theorem State.urge_mem (k : Choice) : (s.urge k).mem = s.mem := rfl
@[simp] theorem State.urge_poison (k : Choice) : (s.urge k).poison = s.poison := rfl
@[simp] theorem State.urge_locks (k : Choice) : (s.urge k).locks = s.locks := rfl
@[simp] theorem State.urge_owned (k : Choice) : (s.urge k).owned = s.owned := rfl
@[simp] theorem State.urge_hostQ (k : Choice) : (s.urge k).hostQ = s.hostQ := rfl
@[simp] theorem State.urge_hostGot (k : Choice) : (s.urge k).hostGot = s.hostGot := rfl
@[simp] theorem State.urge_before (k : Choice) : (s.urge k).before = s.before := rfl
@[simp] theorem State.urge_oldBytes (k : Choice) : (s.urge k).oldBytes = s.oldBytes := rfl
@[simp] theorem State.urge_cores (k : Choice) : (s.urge k).cores = s.cores := rfl
@[simp] theorem State.urge_dies (k : Choice) : (s.urge k).dies = s.dies := rfl
@[simp] theorem State.urge_queues (k : Choice) : (s.urge k).queues = s.queues := rfl
@[simp] theorem State.urge_grids (k : Choice) : (s.urge k).grids = s.grids := rfl
@[simp] theorem State.urge_nextGrid (k : Choice) : (s.urge k).nextGrid = s.nextGrid := rfl
@[simp] theorem State.urge_lastServed (k : Choice) : (s.urge k).lastServed = s.lastServed := rfl
@[simp] theorem State.urge_placeClk (k : Choice) : (s.urge k).placeClk = s.placeClk := rfl
@[simp] theorem State.urge_reports (k : Choice) : (s.urge k).reports = s.reports := rfl
@[simp] theorem State.urge_incarnations (k : Choice) : (s.urge k).incarnations = s.incarnations := rfl
@[simp] theorem State.urge_mgmt (k : Choice) : (s.urge k).mgmt = s.mgmt := rfl
@[simp] theorem State.urge_copyNext (k : Choice) : (s.urge k).copyNext = s.copyNext := rfl
@[simp] theorem State.urge_replies (k : Choice) : (s.urge k).replies = s.replies := rfl
@[simp] theorem State.urge_cfginvs (k : Choice) : (s.urge k).cfginvs = s.cfginvs := rfl

/-! `State.wr` -/

@[simp] theorem State.wr_clk (loc : Nat) (bs : List Byte) : (s.wr loc bs).clk = s.clk := rfl
@[simp] theorem State.wr_urgent (loc : Nat) (bs : List Byte) : (s.wr loc bs).urgent = s.urgent := rfl
@[simp] theorem State.wr_agenda (loc : Nat) (bs : List Byte) : (s.wr loc bs).agenda = s.agenda := rfl
@[simp] theorem State.wr_cur (loc : Nat) (bs : List Byte) : (s.wr loc bs).cur = s.cur := rfl
@[simp] theorem State.wr_args (loc : Nat) (bs : List Byte) : (s.wr loc bs).args = s.args := rfl
@[simp] theorem State.wr_locks (loc : Nat) (bs : List Byte) : (s.wr loc bs).locks = s.locks := rfl
@[simp] theorem State.wr_owned (loc : Nat) (bs : List Byte) : (s.wr loc bs).owned = s.owned := rfl
@[simp] theorem State.wr_hostQ (loc : Nat) (bs : List Byte) : (s.wr loc bs).hostQ = s.hostQ := rfl
@[simp] theorem State.wr_hostGot (loc : Nat) (bs : List Byte) : (s.wr loc bs).hostGot = s.hostGot := rfl
@[simp] theorem State.wr_before (loc : Nat) (bs : List Byte) : (s.wr loc bs).before = s.before := rfl
@[simp] theorem State.wr_oldBytes (loc : Nat) (bs : List Byte) : (s.wr loc bs).oldBytes = s.oldBytes := rfl
@[simp] theorem State.wr_cores (loc : Nat) (bs : List Byte) : (s.wr loc bs).cores = s.cores := rfl
@[simp] theorem State.wr_dies (loc : Nat) (bs : List Byte) : (s.wr loc bs).dies = s.dies := rfl
@[simp] theorem State.wr_queues (loc : Nat) (bs : List Byte) : (s.wr loc bs).queues = s.queues := rfl
@[simp] theorem State.wr_grids (loc : Nat) (bs : List Byte) : (s.wr loc bs).grids = s.grids := rfl
@[simp] theorem State.wr_nextGrid (loc : Nat) (bs : List Byte) : (s.wr loc bs).nextGrid = s.nextGrid := rfl
@[simp] theorem State.wr_lastServed (loc : Nat) (bs : List Byte) : (s.wr loc bs).lastServed = s.lastServed := rfl
@[simp] theorem State.wr_placeClk (loc : Nat) (bs : List Byte) : (s.wr loc bs).placeClk = s.placeClk := rfl
@[simp] theorem State.wr_reports (loc : Nat) (bs : List Byte) : (s.wr loc bs).reports = s.reports := rfl
@[simp] theorem State.wr_incarnations (loc : Nat) (bs : List Byte) : (s.wr loc bs).incarnations = s.incarnations := rfl
@[simp] theorem State.wr_mgmt (loc : Nat) (bs : List Byte) : (s.wr loc bs).mgmt = s.mgmt := rfl
@[simp] theorem State.wr_copyNext (loc : Nat) (bs : List Byte) : (s.wr loc bs).copyNext = s.copyNext := rfl
@[simp] theorem State.wr_replies (loc : Nat) (bs : List Byte) : (s.wr loc bs).replies = s.replies := rfl
@[simp] theorem State.wr_cfginvs (loc : Nat) (bs : List Byte) : (s.wr loc bs).cfginvs = s.cfginvs := rfl

/-! What the updated component reads as -/

@[simp] theorem State.core_setCore_self (c : Nat) (x : Core) : (s.setCore c x).core c = x := by
  simp [State.core, State.setCore]
theorem State.core_setCore_ne {c d : Nat} (x : Core) (h : d ≠ c) : (s.setCore c x).core d = s.core d := by
  simp [State.core, State.setCore, Tbl.get_set_ne _ _ _ h]
@[simp] theorem State.core_modCore_self (c : Nat) (f : Core → Core) : (s.modCore c f).core c = f (s.core c) := by
  simp [State.modCore]
theorem State.core_modCore_ne {c d : Nat} (f : Core → Core) (h : d ≠ c) : (s.modCore c f).core d = s.core d :=
  State.core_setCore_ne s _ h
@[simp] theorem State.setCore_setCore (c : Nat) (x y : Core) : (s.setCore c x).setCore c y = s.setCore c y := by
  simp [State.setCore]
@[simp] theorem State.modCore_modCore (c : Nat) (f g : Core → Core) :
    (s.modCore c f).modCore c g = s.modCore c fun x => g (f x) := by
  simp [State.modCore]
@[simp] theorem State.die_setDie_self (d : Nat) (x : Die) : (s.setDie d x).die d = x := by
  simp [State.die, State.setDie]
theorem State.die_setDie_ne {d e : Nat} (x : Die) (h : e ≠ d) : (s.setDie d x).die e = s.die e := by
  simp [State.die, State.setDie, Tbl.get_set_ne _ _ _ h]
@[simp] theorem State.die_modDie_self (d : Nat) (f : Die → Die) : (s.modDie d f).die d = f (s.die d) := by
  simp [State.modDie]
theorem State.die_modDie_ne {d e : Nat} (f : Die → Die) (h : e ≠ d) : (s.modDie d f).die e = s.die e :=
  State.die_setDie_ne s _ h
@[simp] theorem State.core_setDie (d c : Nat) (x : Die) : (s.setDie d x).core c = s.core c := rfl
@[simp] theorem State.core_modDie (d c : Nat) (f : Die → Die) : (s.modDie d f).core c = s.core c := rfl
@[simp] theorem State.die_setCore (c d : Nat) (x : Core) : (s.setCore c x).die d = s.die d := rfl
@[simp] theorem State.die_modCore (c d : Nat) (f : Core → Core) : (s.modCore c f).die d = s.die d := rfl
@[simp] theorem State.core_wr (loc c : Nat) (bs : List Byte) : (s.wr loc bs).core c = s.core c := rfl
@[simp] theorem State.die_wr (loc d : Nat) (bs : List Byte) : (s.wr loc bs).die d = s.die d := rfl
@[simp] theorem Core.thread_setThread_self (x : Core) (sl : Nat) (t : Thread) : (x.setThread sl t).thread sl = t := by
  simp [Core.thread, Core.setThread]
theorem Core.thread_setThread_ne (x : Core) {sl k : Nat} (t : Thread) (h : k ≠ sl) :
    (x.setThread sl t).thread k = x.thread k := by
  simp [Core.thread, Core.setThread, Tbl.get_set_ne _ _ _ h]
@[simp] theorem Core.thread_modThread_self (x : Core) (sl : Nat) (f : Thread → Thread) :
    (x.modThread sl f).thread sl = f (x.thread sl) := by simp [Core.modThread]
theorem Core.thread_modThread_ne (x : Core) {sl k : Nat} (f : Thread → Thread) (h : k ≠ sl) :
    (x.modThread sl f).thread k = x.thread k := Core.thread_setThread_ne x _ h
@[simp] theorem State.thread_modThread_self (c sl : Nat) (f : Thread → Thread) :
    (s.modThread c sl f).thread c sl = f (s.thread c sl) := by
  simp [State.thread, State.modThread]
theorem State.thread_modThread_ne {c sl k : Nat} (f : Thread → Thread) (h : k ≠ sl) :
    (s.modThread c sl f).thread c k = s.thread c k := by
  simp [State.thread, State.modThread, Core.thread_modThread_ne _ _ h]
theorem State.thread_modThread_core {c d sl k : Nat} (f : Thread → Thread) (h : d ≠ c) :
    (s.modThread c sl f).thread d k = s.thread d k := by
  simp [State.thread, State.modThread, State.core_modCore_ne _ _ h]
@[simp] theorem State.queue_modQueue_self (q : Nat) (f : Queue → Queue) : (s.modQueue q f).queue q = f (s.queue q) := by
  simp [State.queue, State.modQueue]
theorem State.queue_modQueue_ne {q r : Nat} (f : Queue → Queue) (h : r ≠ q) : (s.modQueue q f).queue r = s.queue r := by
  simp [State.queue, State.modQueue, Tbl.get_set_ne _ _ _ h]

/-! Whole updates that touch one component leave the others' readings -/

@[simp] theorem Core.groups_modThread (x : Core) (sl : Nat) (f : Thread → Thread) : (x.modThread sl f).groups = x.groups := rfl
@[simp] theorem Core.contexts_modThread (x : Core) (sl : Nat) (f : Thread → Thread) :
    (x.modThread sl f).contexts = x.contexts := rfl
@[simp] theorem Core.bins_modThread (x : Core) (sl : Nat) (f : Thread → Thread) : (x.modThread sl f).bins = x.bins := rfl
@[simp] theorem Core.regions_modThread (x : Core) (sl : Nat) (f : Thread → Thread) :
    (x.modThread sl f).regions = x.regions := rfl
@[simp] theorem Core.group_modThread (x : Core) (sl g : Nat) (f : Thread → Thread) :
    (x.modThread sl f).group g = x.group g := rfl

/-! `State.modGrid` -/

@[simp] theorem State.modGrid_clk (g : Nat) (f : Grid → Grid) : (s.modGrid g f).clk = s.clk := by
  unfold State.modGrid; split <;> rfl
@[simp] theorem State.modGrid_urgent (g : Nat) (f : Grid → Grid) : (s.modGrid g f).urgent = s.urgent := by
  unfold State.modGrid; split <;> rfl
@[simp] theorem State.modGrid_agenda (g : Nat) (f : Grid → Grid) : (s.modGrid g f).agenda = s.agenda := by
  unfold State.modGrid; split <;> rfl
@[simp] theorem State.modGrid_cur (g : Nat) (f : Grid → Grid) : (s.modGrid g f).cur = s.cur := by
  unfold State.modGrid; split <;> rfl
@[simp] theorem State.modGrid_args (g : Nat) (f : Grid → Grid) : (s.modGrid g f).args = s.args := by
  unfold State.modGrid; split <;> rfl
@[simp] theorem State.modGrid_mem (g : Nat) (f : Grid → Grid) : (s.modGrid g f).mem = s.mem := by
  unfold State.modGrid; split <;> rfl
@[simp] theorem State.modGrid_poison (g : Nat) (f : Grid → Grid) : (s.modGrid g f).poison = s.poison := by
  unfold State.modGrid; split <;> rfl
@[simp] theorem State.modGrid_locks (g : Nat) (f : Grid → Grid) : (s.modGrid g f).locks = s.locks := by
  unfold State.modGrid; split <;> rfl
@[simp] theorem State.modGrid_owned (g : Nat) (f : Grid → Grid) : (s.modGrid g f).owned = s.owned := by
  unfold State.modGrid; split <;> rfl
@[simp] theorem State.modGrid_hostQ (g : Nat) (f : Grid → Grid) : (s.modGrid g f).hostQ = s.hostQ := by
  unfold State.modGrid; split <;> rfl
@[simp] theorem State.modGrid_hostGot (g : Nat) (f : Grid → Grid) : (s.modGrid g f).hostGot = s.hostGot := by
  unfold State.modGrid; split <;> rfl
@[simp] theorem State.modGrid_before (g : Nat) (f : Grid → Grid) : (s.modGrid g f).before = s.before := by
  unfold State.modGrid; split <;> rfl
@[simp] theorem State.modGrid_oldBytes (g : Nat) (f : Grid → Grid) : (s.modGrid g f).oldBytes = s.oldBytes := by
  unfold State.modGrid; split <;> rfl
@[simp] theorem State.modGrid_cores (g : Nat) (f : Grid → Grid) : (s.modGrid g f).cores = s.cores := by
  unfold State.modGrid; split <;> rfl
@[simp] theorem State.modGrid_dies (g : Nat) (f : Grid → Grid) : (s.modGrid g f).dies = s.dies := by
  unfold State.modGrid; split <;> rfl
@[simp] theorem State.modGrid_queues (g : Nat) (f : Grid → Grid) : (s.modGrid g f).queues = s.queues := by
  unfold State.modGrid; split <;> rfl
@[simp] theorem State.modGrid_nextGrid (g : Nat) (f : Grid → Grid) : (s.modGrid g f).nextGrid = s.nextGrid := by
  unfold State.modGrid; split <;> rfl
@[simp] theorem State.modGrid_lastServed (g : Nat) (f : Grid → Grid) : (s.modGrid g f).lastServed = s.lastServed := by
  unfold State.modGrid; split <;> rfl
@[simp] theorem State.modGrid_placeClk (g : Nat) (f : Grid → Grid) : (s.modGrid g f).placeClk = s.placeClk := by
  unfold State.modGrid; split <;> rfl
@[simp] theorem State.modGrid_reports (g : Nat) (f : Grid → Grid) : (s.modGrid g f).reports = s.reports := by
  unfold State.modGrid; split <;> rfl
@[simp] theorem State.modGrid_incarnations (g : Nat) (f : Grid → Grid) : (s.modGrid g f).incarnations = s.incarnations := by
  unfold State.modGrid; split <;> rfl
@[simp] theorem State.modGrid_mgmt (g : Nat) (f : Grid → Grid) : (s.modGrid g f).mgmt = s.mgmt := by
  unfold State.modGrid; split <;> rfl
@[simp] theorem State.modGrid_copyNext (g : Nat) (f : Grid → Grid) : (s.modGrid g f).copyNext = s.copyNext := by
  unfold State.modGrid; split <;> rfl
@[simp] theorem State.modGrid_replies (g : Nat) (f : Grid → Grid) : (s.modGrid g f).replies = s.replies := by
  unfold State.modGrid; split <;> rfl
@[simp] theorem State.modGrid_cfginvs (g : Nat) (f : Grid → Grid) : (s.modGrid g f).cfginvs = s.cfginvs := by
  unfold State.modGrid; split <;> rfl
@[simp] theorem State.core_modGrid (g c : Nat) (f : Grid → Grid) : (s.modGrid g f).core c = s.core c := by
  unfold State.modGrid; split <;> rfl
@[simp] theorem State.die_modGrid (g d : Nat) (f : Grid → Grid) : (s.modGrid g f).die d = s.die d := by
  unfold State.modGrid; split <;> rfl
theorem State.grid_modGrid_self {g : Nat} {x : Grid} (h : Tbl.find? s.grids g = some x) (f : Grid → Grid) :
    (s.modGrid g f).grid g = f x := by
  simp [State.modGrid, State.grid, h]

/-! `Core.setThread` -/

@[simp] theorem Core.setThread_groups (x : Core) (sl : Nat) (t : Thread) : (x.setThread sl t).groups = x.groups := rfl
@[simp] theorem Core.setThread_bins (x : Core) (sl : Nat) (t : Thread) : (x.setThread sl t).bins = x.bins := rfl
@[simp] theorem Core.setThread_fifo (x : Core) (sl : Nat) (t : Thread) : (x.setThread sl t).fifo = x.fifo := rfl
@[simp] theorem Core.setThread_contexts (x : Core) (sl : Nat) (t : Thread) : (x.setThread sl t).contexts = x.contexts := rfl
@[simp] theorem Core.setThread_fetch (x : Core) (sl : Nat) (t : Thread) : (x.setThread sl t).fetch = x.fetch := rfl
@[simp] theorem Core.setThread_lastCtx (x : Core) (sl : Nat) (t : Thread) : (x.setThread sl t).lastCtx = x.lastCtx := rfl
@[simp] theorem Core.setThread_admitAt (x : Core) (sl : Nat) (t : Thread) : (x.setThread sl t).admitAt = x.admitAt := rfl
@[simp] theorem Core.setThread_forcing (x : Core) (sl : Nat) (t : Thread) : (x.setThread sl t).forcing = x.forcing := rfl
@[simp] theorem Core.setThread_filedAll (x : Core) (sl : Nat) (t : Thread) : (x.setThread sl t).filedAll = x.filedAll := rfl
@[simp] theorem Core.setThread_freed (x : Core) (sl : Nat) (t : Thread) : (x.setThread sl t).freed = x.freed := rfl
@[simp] theorem Core.setThread_sfuFree (x : Core) (sl : Nat) (t : Thread) : (x.setThread sl t).sfuFree = x.sfuFree := rfl
@[simp] theorem Core.setThread_memAt (x : Core) (sl : Nat) (t : Thread) : (x.setThread sl t).memAt = x.memAt := rfl
@[simp] theorem Core.setThread_memUsed (x : Core) (sl : Nat) (t : Thread) : (x.setThread sl t).memUsed = x.memUsed := rfl
@[simp] theorem Core.setThread_memQ (x : Core) (sl : Nat) (t : Thread) : (x.setThread sl t).memQ = x.memQ := rfl
@[simp] theorem Core.setThread_lvqAt (x : Core) (sl : Nat) (t : Thread) : (x.setThread sl t).lvqAt = x.lvqAt := rfl
@[simp] theorem Core.setThread_lvq (x : Core) (sl : Nat) (t : Thread) : (x.setThread sl t).lvq = x.lvq := rfl
@[simp] theorem Core.setThread_peNext (x : Core) (sl : Nat) (t : Thread) : (x.setThread sl t).peNext = x.peNext := rfl
@[simp] theorem Core.setThread_bankFree (x : Core) (sl : Nat) (t : Thread) : (x.setThread sl t).bankFree = x.bankFree := rfl
@[simp] theorem Core.setThread_tlb (x : Core) (sl : Nat) (t : Thread) : (x.setThread sl t).tlb = x.tlb := rfl
@[simp] theorem Core.setThread_regions (x : Core) (sl : Nat) (t : Thread) : (x.setThread sl t).regions = x.regions := rfl
@[simp] theorem Core.setThread_commitQ (x : Core) (sl : Nat) (t : Thread) : (x.setThread sl t).commitQ = x.commitQ := rfl
@[simp] theorem Core.setThread_commit (x : Core) (sl : Nat) (t : Thread) : (x.setThread sl t).commit = x.commit := rfl
@[simp] theorem Core.setThread_channels (x : Core) (sl : Nat) (t : Thread) : (x.setThread sl t).channels = x.channels := rfl
@[simp] theorem Core.setThread_chan (x : Core) (sl : Nat) (t : Thread) : (x.setThread sl t).chan = x.chan := rfl
@[simp] theorem Core.setThread_accs (x : Core) (sl : Nat) (t : Thread) : (x.setThread sl t).accs = x.accs := rfl
@[simp] theorem Core.setThread_matQ (x : Core) (sl : Nat) (t : Thread) : (x.setThread sl t).matQ = x.matQ := rfl
@[simp] theorem Core.setThread_matLast (x : Core) (sl : Nat) (t : Thread) : (x.setThread sl t).matLast = x.matLast := rfl
@[simp] theorem Core.setThread_temp (x : Core) (sl : Nat) (t : Thread) : (x.setThread sl t).temp = x.temp := rfl
@[simp] theorem Core.setThread_port (x : Core) (sl : Nat) (t : Thread) : (x.setThread sl t).port = x.port := rfl
@[simp] theorem Core.setThread_sampler (x : Core) (sl : Nat) (t : Thread) : (x.setThread sl t).sampler = x.sampler := rfl
@[simp] theorem Core.setThread_excess (x : Core) (sl : Nat) (t : Thread) : (x.setThread sl t).excess = x.excess := rfl
@[simp] theorem Core.setThread_lastFire (x : Core) (sl : Nat) (t : Thread) : (x.setThread sl t).lastFire = x.lastFire := rfl

/-! `Core.modThread` -/

@[simp] theorem Core.modThread_fifo (x : Core) (sl : Nat) (f : Thread → Thread) : (x.modThread sl f).fifo = x.fifo := rfl
@[simp] theorem Core.modThread_fetch (x : Core) (sl : Nat) (f : Thread → Thread) : (x.modThread sl f).fetch = x.fetch := rfl
@[simp] theorem Core.modThread_lastCtx (x : Core) (sl : Nat) (f : Thread → Thread) : (x.modThread sl f).lastCtx = x.lastCtx := rfl
@[simp] theorem Core.modThread_admitAt (x : Core) (sl : Nat) (f : Thread → Thread) : (x.modThread sl f).admitAt = x.admitAt := rfl
@[simp] theorem Core.modThread_forcing (x : Core) (sl : Nat) (f : Thread → Thread) : (x.modThread sl f).forcing = x.forcing := rfl
@[simp] theorem Core.modThread_filedAll (x : Core) (sl : Nat) (f : Thread → Thread) : (x.modThread sl f).filedAll = x.filedAll := rfl
@[simp] theorem Core.modThread_freed (x : Core) (sl : Nat) (f : Thread → Thread) : (x.modThread sl f).freed = x.freed := rfl
@[simp] theorem Core.modThread_sfuFree (x : Core) (sl : Nat) (f : Thread → Thread) : (x.modThread sl f).sfuFree = x.sfuFree := rfl
@[simp] theorem Core.modThread_memAt (x : Core) (sl : Nat) (f : Thread → Thread) : (x.modThread sl f).memAt = x.memAt := rfl
@[simp] theorem Core.modThread_memUsed (x : Core) (sl : Nat) (f : Thread → Thread) : (x.modThread sl f).memUsed = x.memUsed := rfl
@[simp] theorem Core.modThread_memQ (x : Core) (sl : Nat) (f : Thread → Thread) : (x.modThread sl f).memQ = x.memQ := rfl
@[simp] theorem Core.modThread_lvqAt (x : Core) (sl : Nat) (f : Thread → Thread) : (x.modThread sl f).lvqAt = x.lvqAt := rfl
@[simp] theorem Core.modThread_lvq (x : Core) (sl : Nat) (f : Thread → Thread) : (x.modThread sl f).lvq = x.lvq := rfl
@[simp] theorem Core.modThread_peNext (x : Core) (sl : Nat) (f : Thread → Thread) : (x.modThread sl f).peNext = x.peNext := rfl
@[simp] theorem Core.modThread_bankFree (x : Core) (sl : Nat) (f : Thread → Thread) : (x.modThread sl f).bankFree = x.bankFree := rfl
@[simp] theorem Core.modThread_tlb (x : Core) (sl : Nat) (f : Thread → Thread) : (x.modThread sl f).tlb = x.tlb := rfl
@[simp] theorem Core.modThread_commitQ (x : Core) (sl : Nat) (f : Thread → Thread) : (x.modThread sl f).commitQ = x.commitQ := rfl
@[simp] theorem Core.modThread_commit (x : Core) (sl : Nat) (f : Thread → Thread) : (x.modThread sl f).commit = x.commit := rfl
@[simp] theorem Core.modThread_channels (x : Core) (sl : Nat) (f : Thread → Thread) : (x.modThread sl f).channels = x.channels := rfl
@[simp] theorem Core.modThread_chan (x : Core) (sl : Nat) (f : Thread → Thread) : (x.modThread sl f).chan = x.chan := rfl
@[simp] theorem Core.modThread_accs (x : Core) (sl : Nat) (f : Thread → Thread) : (x.modThread sl f).accs = x.accs := rfl
@[simp] theorem Core.modThread_matQ (x : Core) (sl : Nat) (f : Thread → Thread) : (x.modThread sl f).matQ = x.matQ := rfl
@[simp] theorem Core.modThread_matLast (x : Core) (sl : Nat) (f : Thread → Thread) : (x.modThread sl f).matLast = x.matLast := rfl
@[simp] theorem Core.modThread_temp (x : Core) (sl : Nat) (f : Thread → Thread) : (x.modThread sl f).temp = x.temp := rfl
@[simp] theorem Core.modThread_port (x : Core) (sl : Nat) (f : Thread → Thread) : (x.modThread sl f).port = x.port := rfl
@[simp] theorem Core.modThread_sampler (x : Core) (sl : Nat) (f : Thread → Thread) : (x.modThread sl f).sampler = x.sampler := rfl
@[simp] theorem Core.modThread_excess (x : Core) (sl : Nat) (f : Thread → Thread) : (x.modThread sl f).excess = x.excess := rfl
@[simp] theorem Core.modThread_lastFire (x : Core) (sl : Nat) (f : Thread → Thread) : (x.modThread sl f).lastFire = x.lastFire := rfl

/-! `Core.modGroup` -/

@[simp] theorem Core.modGroup_threads (x : Core) (g : Nat) (f : Group → Group) : (x.modGroup g f).threads = x.threads := by
  unfold Core.modGroup; split <;> rfl
@[simp] theorem Core.modGroup_bins (x : Core) (g : Nat) (f : Group → Group) : (x.modGroup g f).bins = x.bins := by
  unfold Core.modGroup; split <;> rfl
@[simp] theorem Core.modGroup_fifo (x : Core) (g : Nat) (f : Group → Group) : (x.modGroup g f).fifo = x.fifo := by
  unfold Core.modGroup; split <;> rfl
@[simp] theorem Core.modGroup_contexts (x : Core) (g : Nat) (f : Group → Group) : (x.modGroup g f).contexts = x.contexts := by
  unfold Core.modGroup; split <;> rfl
@[simp] theorem Core.modGroup_fetch (x : Core) (g : Nat) (f : Group → Group) : (x.modGroup g f).fetch = x.fetch := by
  unfold Core.modGroup; split <;> rfl
@[simp] theorem Core.modGroup_lastCtx (x : Core) (g : Nat) (f : Group → Group) : (x.modGroup g f).lastCtx = x.lastCtx := by
  unfold Core.modGroup; split <;> rfl
@[simp] theorem Core.modGroup_admitAt (x : Core) (g : Nat) (f : Group → Group) : (x.modGroup g f).admitAt = x.admitAt := by
  unfold Core.modGroup; split <;> rfl
@[simp] theorem Core.modGroup_forcing (x : Core) (g : Nat) (f : Group → Group) : (x.modGroup g f).forcing = x.forcing := by
  unfold Core.modGroup; split <;> rfl
@[simp] theorem Core.modGroup_filedAll (x : Core) (g : Nat) (f : Group → Group) : (x.modGroup g f).filedAll = x.filedAll := by
  unfold Core.modGroup; split <;> rfl
@[simp] theorem Core.modGroup_freed (x : Core) (g : Nat) (f : Group → Group) : (x.modGroup g f).freed = x.freed := by
  unfold Core.modGroup; split <;> rfl
@[simp] theorem Core.modGroup_sfuFree (x : Core) (g : Nat) (f : Group → Group) : (x.modGroup g f).sfuFree = x.sfuFree := by
  unfold Core.modGroup; split <;> rfl
@[simp] theorem Core.modGroup_memAt (x : Core) (g : Nat) (f : Group → Group) : (x.modGroup g f).memAt = x.memAt := by
  unfold Core.modGroup; split <;> rfl
@[simp] theorem Core.modGroup_memUsed (x : Core) (g : Nat) (f : Group → Group) : (x.modGroup g f).memUsed = x.memUsed := by
  unfold Core.modGroup; split <;> rfl
@[simp] theorem Core.modGroup_memQ (x : Core) (g : Nat) (f : Group → Group) : (x.modGroup g f).memQ = x.memQ := by
  unfold Core.modGroup; split <;> rfl
@[simp] theorem Core.modGroup_lvqAt (x : Core) (g : Nat) (f : Group → Group) : (x.modGroup g f).lvqAt = x.lvqAt := by
  unfold Core.modGroup; split <;> rfl
@[simp] theorem Core.modGroup_lvq (x : Core) (g : Nat) (f : Group → Group) : (x.modGroup g f).lvq = x.lvq := by
  unfold Core.modGroup; split <;> rfl
@[simp] theorem Core.modGroup_peNext (x : Core) (g : Nat) (f : Group → Group) : (x.modGroup g f).peNext = x.peNext := by
  unfold Core.modGroup; split <;> rfl
@[simp] theorem Core.modGroup_bankFree (x : Core) (g : Nat) (f : Group → Group) : (x.modGroup g f).bankFree = x.bankFree := by
  unfold Core.modGroup; split <;> rfl
@[simp] theorem Core.modGroup_tlb (x : Core) (g : Nat) (f : Group → Group) : (x.modGroup g f).tlb = x.tlb := by
  unfold Core.modGroup; split <;> rfl
@[simp] theorem Core.modGroup_regions (x : Core) (g : Nat) (f : Group → Group) : (x.modGroup g f).regions = x.regions := by
  unfold Core.modGroup; split <;> rfl
@[simp] theorem Core.modGroup_commitQ (x : Core) (g : Nat) (f : Group → Group) : (x.modGroup g f).commitQ = x.commitQ := by
  unfold Core.modGroup; split <;> rfl
@[simp] theorem Core.modGroup_commit (x : Core) (g : Nat) (f : Group → Group) : (x.modGroup g f).commit = x.commit := by
  unfold Core.modGroup; split <;> rfl
@[simp] theorem Core.modGroup_channels (x : Core) (g : Nat) (f : Group → Group) : (x.modGroup g f).channels = x.channels := by
  unfold Core.modGroup; split <;> rfl
@[simp] theorem Core.modGroup_chan (x : Core) (g : Nat) (f : Group → Group) : (x.modGroup g f).chan = x.chan := by
  unfold Core.modGroup; split <;> rfl
@[simp] theorem Core.modGroup_accs (x : Core) (g : Nat) (f : Group → Group) : (x.modGroup g f).accs = x.accs := by
  unfold Core.modGroup; split <;> rfl
@[simp] theorem Core.modGroup_matQ (x : Core) (g : Nat) (f : Group → Group) : (x.modGroup g f).matQ = x.matQ := by
  unfold Core.modGroup; split <;> rfl
@[simp] theorem Core.modGroup_matLast (x : Core) (g : Nat) (f : Group → Group) : (x.modGroup g f).matLast = x.matLast := by
  unfold Core.modGroup; split <;> rfl
@[simp] theorem Core.modGroup_temp (x : Core) (g : Nat) (f : Group → Group) : (x.modGroup g f).temp = x.temp := by
  unfold Core.modGroup; split <;> rfl
@[simp] theorem Core.modGroup_port (x : Core) (g : Nat) (f : Group → Group) : (x.modGroup g f).port = x.port := by
  unfold Core.modGroup; split <;> rfl
@[simp] theorem Core.modGroup_sampler (x : Core) (g : Nat) (f : Group → Group) : (x.modGroup g f).sampler = x.sampler := by
  unfold Core.modGroup; split <;> rfl
@[simp] theorem Core.modGroup_excess (x : Core) (g : Nat) (f : Group → Group) : (x.modGroup g f).excess = x.excess := by
  unfold Core.modGroup; split <;> rfl
@[simp] theorem Core.modGroup_lastFire (x : Core) (g : Nat) (f : Group → Group) : (x.modGroup g f).lastFire = x.lastFire := by
  unfold Core.modGroup; split <;> rfl

/-! `Core.modContext` -/

@[simp] theorem Core.modContext_threads (x : Core) (k : Nat) (f : Context → Context) : (x.modContext k f).threads = x.threads := rfl
@[simp] theorem Core.modContext_groups (x : Core) (k : Nat) (f : Context → Context) : (x.modContext k f).groups = x.groups := rfl
@[simp] theorem Core.modContext_bins (x : Core) (k : Nat) (f : Context → Context) : (x.modContext k f).bins = x.bins := rfl
@[simp] theorem Core.modContext_fifo (x : Core) (k : Nat) (f : Context → Context) : (x.modContext k f).fifo = x.fifo := rfl
@[simp] theorem Core.modContext_fetch (x : Core) (k : Nat) (f : Context → Context) : (x.modContext k f).fetch = x.fetch := rfl
@[simp] theorem Core.modContext_lastCtx (x : Core) (k : Nat) (f : Context → Context) : (x.modContext k f).lastCtx = x.lastCtx := rfl
@[simp] theorem Core.modContext_admitAt (x : Core) (k : Nat) (f : Context → Context) : (x.modContext k f).admitAt = x.admitAt := rfl
@[simp] theorem Core.modContext_forcing (x : Core) (k : Nat) (f : Context → Context) : (x.modContext k f).forcing = x.forcing := rfl
@[simp] theorem Core.modContext_filedAll (x : Core) (k : Nat) (f : Context → Context) : (x.modContext k f).filedAll = x.filedAll := rfl
@[simp] theorem Core.modContext_freed (x : Core) (k : Nat) (f : Context → Context) : (x.modContext k f).freed = x.freed := rfl
@[simp] theorem Core.modContext_sfuFree (x : Core) (k : Nat) (f : Context → Context) : (x.modContext k f).sfuFree = x.sfuFree := rfl
@[simp] theorem Core.modContext_memAt (x : Core) (k : Nat) (f : Context → Context) : (x.modContext k f).memAt = x.memAt := rfl
@[simp] theorem Core.modContext_memUsed (x : Core) (k : Nat) (f : Context → Context) : (x.modContext k f).memUsed = x.memUsed := rfl
@[simp] theorem Core.modContext_memQ (x : Core) (k : Nat) (f : Context → Context) : (x.modContext k f).memQ = x.memQ := rfl
@[simp] theorem Core.modContext_lvqAt (x : Core) (k : Nat) (f : Context → Context) : (x.modContext k f).lvqAt = x.lvqAt := rfl
@[simp] theorem Core.modContext_lvq (x : Core) (k : Nat) (f : Context → Context) : (x.modContext k f).lvq = x.lvq := rfl
@[simp] theorem Core.modContext_peNext (x : Core) (k : Nat) (f : Context → Context) : (x.modContext k f).peNext = x.peNext := rfl
@[simp] theorem Core.modContext_bankFree (x : Core) (k : Nat) (f : Context → Context) : (x.modContext k f).bankFree = x.bankFree := rfl
@[simp] theorem Core.modContext_tlb (x : Core) (k : Nat) (f : Context → Context) : (x.modContext k f).tlb = x.tlb := rfl
@[simp] theorem Core.modContext_regions (x : Core) (k : Nat) (f : Context → Context) : (x.modContext k f).regions = x.regions := rfl
@[simp] theorem Core.modContext_commitQ (x : Core) (k : Nat) (f : Context → Context) : (x.modContext k f).commitQ = x.commitQ := rfl
@[simp] theorem Core.modContext_commit (x : Core) (k : Nat) (f : Context → Context) : (x.modContext k f).commit = x.commit := rfl
@[simp] theorem Core.modContext_channels (x : Core) (k : Nat) (f : Context → Context) : (x.modContext k f).channels = x.channels := rfl
@[simp] theorem Core.modContext_chan (x : Core) (k : Nat) (f : Context → Context) : (x.modContext k f).chan = x.chan := rfl
@[simp] theorem Core.modContext_accs (x : Core) (k : Nat) (f : Context → Context) : (x.modContext k f).accs = x.accs := rfl
@[simp] theorem Core.modContext_matQ (x : Core) (k : Nat) (f : Context → Context) : (x.modContext k f).matQ = x.matQ := rfl
@[simp] theorem Core.modContext_matLast (x : Core) (k : Nat) (f : Context → Context) : (x.modContext k f).matLast = x.matLast := rfl
@[simp] theorem Core.modContext_temp (x : Core) (k : Nat) (f : Context → Context) : (x.modContext k f).temp = x.temp := rfl
@[simp] theorem Core.modContext_port (x : Core) (k : Nat) (f : Context → Context) : (x.modContext k f).port = x.port := rfl
@[simp] theorem Core.modContext_sampler (x : Core) (k : Nat) (f : Context → Context) : (x.modContext k f).sampler = x.sampler := rfl
@[simp] theorem Core.modContext_excess (x : Core) (k : Nat) (f : Context → Context) : (x.modContext k f).excess = x.excess := rfl
@[simp] theorem Core.modContext_lastFire (x : Core) (k : Nat) (f : Context → Context) : (x.modContext k f).lastFire = x.lastFire := rfl

/-! `Core.modBin` -/

@[simp] theorem Core.modBin_threads (x : Core) (n : Nat) (f : Bin → Bin) : (x.modBin n f).threads = x.threads := rfl
@[simp] theorem Core.modBin_groups (x : Core) (n : Nat) (f : Bin → Bin) : (x.modBin n f).groups = x.groups := rfl
@[simp] theorem Core.modBin_fifo (x : Core) (n : Nat) (f : Bin → Bin) : (x.modBin n f).fifo = x.fifo := rfl
@[simp] theorem Core.modBin_contexts (x : Core) (n : Nat) (f : Bin → Bin) : (x.modBin n f).contexts = x.contexts := rfl
@[simp] theorem Core.modBin_fetch (x : Core) (n : Nat) (f : Bin → Bin) : (x.modBin n f).fetch = x.fetch := rfl
@[simp] theorem Core.modBin_lastCtx (x : Core) (n : Nat) (f : Bin → Bin) : (x.modBin n f).lastCtx = x.lastCtx := rfl
@[simp] theorem Core.modBin_admitAt (x : Core) (n : Nat) (f : Bin → Bin) : (x.modBin n f).admitAt = x.admitAt := rfl
@[simp] theorem Core.modBin_forcing (x : Core) (n : Nat) (f : Bin → Bin) : (x.modBin n f).forcing = x.forcing := rfl
@[simp] theorem Core.modBin_filedAll (x : Core) (n : Nat) (f : Bin → Bin) : (x.modBin n f).filedAll = x.filedAll := rfl
@[simp] theorem Core.modBin_freed (x : Core) (n : Nat) (f : Bin → Bin) : (x.modBin n f).freed = x.freed := rfl
@[simp] theorem Core.modBin_sfuFree (x : Core) (n : Nat) (f : Bin → Bin) : (x.modBin n f).sfuFree = x.sfuFree := rfl
@[simp] theorem Core.modBin_memAt (x : Core) (n : Nat) (f : Bin → Bin) : (x.modBin n f).memAt = x.memAt := rfl
@[simp] theorem Core.modBin_memUsed (x : Core) (n : Nat) (f : Bin → Bin) : (x.modBin n f).memUsed = x.memUsed := rfl
@[simp] theorem Core.modBin_memQ (x : Core) (n : Nat) (f : Bin → Bin) : (x.modBin n f).memQ = x.memQ := rfl
@[simp] theorem Core.modBin_lvqAt (x : Core) (n : Nat) (f : Bin → Bin) : (x.modBin n f).lvqAt = x.lvqAt := rfl
@[simp] theorem Core.modBin_lvq (x : Core) (n : Nat) (f : Bin → Bin) : (x.modBin n f).lvq = x.lvq := rfl
@[simp] theorem Core.modBin_peNext (x : Core) (n : Nat) (f : Bin → Bin) : (x.modBin n f).peNext = x.peNext := rfl
@[simp] theorem Core.modBin_bankFree (x : Core) (n : Nat) (f : Bin → Bin) : (x.modBin n f).bankFree = x.bankFree := rfl
@[simp] theorem Core.modBin_tlb (x : Core) (n : Nat) (f : Bin → Bin) : (x.modBin n f).tlb = x.tlb := rfl
@[simp] theorem Core.modBin_regions (x : Core) (n : Nat) (f : Bin → Bin) : (x.modBin n f).regions = x.regions := rfl
@[simp] theorem Core.modBin_commitQ (x : Core) (n : Nat) (f : Bin → Bin) : (x.modBin n f).commitQ = x.commitQ := rfl
@[simp] theorem Core.modBin_commit (x : Core) (n : Nat) (f : Bin → Bin) : (x.modBin n f).commit = x.commit := rfl
@[simp] theorem Core.modBin_channels (x : Core) (n : Nat) (f : Bin → Bin) : (x.modBin n f).channels = x.channels := rfl
@[simp] theorem Core.modBin_chan (x : Core) (n : Nat) (f : Bin → Bin) : (x.modBin n f).chan = x.chan := rfl
@[simp] theorem Core.modBin_accs (x : Core) (n : Nat) (f : Bin → Bin) : (x.modBin n f).accs = x.accs := rfl
@[simp] theorem Core.modBin_matQ (x : Core) (n : Nat) (f : Bin → Bin) : (x.modBin n f).matQ = x.matQ := rfl
@[simp] theorem Core.modBin_matLast (x : Core) (n : Nat) (f : Bin → Bin) : (x.modBin n f).matLast = x.matLast := rfl
@[simp] theorem Core.modBin_temp (x : Core) (n : Nat) (f : Bin → Bin) : (x.modBin n f).temp = x.temp := rfl
@[simp] theorem Core.modBin_port (x : Core) (n : Nat) (f : Bin → Bin) : (x.modBin n f).port = x.port := rfl
@[simp] theorem Core.modBin_sampler (x : Core) (n : Nat) (f : Bin → Bin) : (x.modBin n f).sampler = x.sampler := rfl
@[simp] theorem Core.modBin_excess (x : Core) (n : Nat) (f : Bin → Bin) : (x.modBin n f).excess = x.excess := rfl
@[simp] theorem Core.modBin_lastFire (x : Core) (n : Nat) (f : Bin → Bin) : (x.modBin n f).lastFire = x.lastFire := rfl

end Sys2Proof.Machine
end

