-- ==== Sys2Proof/Laws/Firing.lean ====
section
/-! SUPPORT. What the shared operations of a firing do (R122, R129, R131, R339), said once: spending the tokens, pinning
inputs, emitting values, deciding. -/

namespace Sys2Proof.Machine

/-! Pins -/

@[simp] theorem Region.bare_inputs (r : Region) (l) : Region.bare { r with inputs := l } = Region.bare r := rfl
@[simp] theorem Region.bare_constraints (r : Region) (l) : Region.bare { r with constraints := l } = Region.bare r := rfl

theorem sameRegions_refl (a : Tbl Region) : sameRegions a a := fun _ => rfl
theorem sameRegions_trans {a b c : Tbl Region} (h : sameRegions a b) (g : sameRegions b c) : sameRegions a c :=
  fun k => (g k).trans (h k)

/-- Changing one region in what `Region.bare` forgets. -/
theorem sameRegions_set {a : Tbl Region} {k : Nat} {r r' : Region} (h : Tbl.find? a k = some r)
    (hb : Region.bare r' = Region.bare r) : sameRegions a (Tbl.set a k r') := by
  intro n
  by_cases hn : n = k
  · subst hn; simp [h, hb]
  · rw [Tbl.find?_set_ne _ _ hn]

/-- Two states that differ in the regions of the firing's core only, and there only in pins and constraints. -/
def PinnedOnly (s t : State) : Prop :=
  (t = s) ∨ ((∀ x, s.curInst? = some x → x.region ≠ none) ∧
    ∃ rg, sameRegions (s.core s.cur.core).regions rg ∧ t = s.setCore s.cur.core { s.core s.cur.core with regions := rg })

theorem PinnedOnly.refl (s : State) : PinnedOnly s s := .inl rfl

theorem State.thread_setRegions (s : State) (c sl : Nat) (rg : Tbl Region) :
    (s.setCore c { s.core c with regions := rg }).thread c sl = s.thread c sl := by
  simp [State.thread, Core.thread]

/-- The firing's instance is the same after a change of regions. -/
theorem PinnedOnly.curThread {s t : State} (h : PinnedOnly s t) : t.curThread = s.curThread := by
  rcases h with rfl | ⟨-, rg, -, rfl⟩
  · rfl
  · exact State.thread_setRegions s s.cur.core s.cur.slot rg

theorem PinnedOnly.curInst {s t : State} (h : PinnedOnly s t) : t.curInst? = s.curInst? := by
  unfold State.curInst?; rw [h.curThread]

theorem PinnedOnly.cur {s t : State} (h : PinnedOnly s t) : t.cur = s.cur := by
  rcases h with rfl | ⟨-, rg, -, rfl⟩ <;> rfl

theorem PinnedOnly.clk {s t : State} (h : PinnedOnly s t) : t.clk = s.clk := by
  rcases h with rfl | ⟨-, rg, -, rfl⟩ <;> rfl

theorem PinnedOnly.trans {s t u : State} (h : PinnedOnly s t) (g : PinnedOnly t u) : PinnedOnly s u := by
  have hc := h.curInst
  rcases h with rfl | ⟨h1, rg, hr, rfl⟩
  · exact g
  · rcases g with rfl | ⟨-, rg', hr', rfl⟩
    · exact .inr ⟨h1, rg, hr, rfl⟩
    · refine .inr ⟨h1, rg', ?_, ?_⟩
      · simp only [State.setCore_cur, State.core_setCore_self] at hr'
        exact sameRegions_trans hr hr'
      · simp

/-- A change of one held region in what `Region.bare` forgets. -/
theorem PinnedOnly.modRegion {s : State} {x : Inst} {r : Nat} (hx : s.curInst? = some x) (hr : x.region = some r)
    (f : Region → Region) (hf : ∀ g, Region.bare (f g) = Region.bare g) :
    PinnedOnly s (s.modCore s.cur.core fun y => y.modRegion r f) := by
  simp only [State.modCore, Core.modRegion]
  split
  · next g hg =>
    refine .inr ⟨?_, _, sameRegions_set hg (hf g), rfl⟩
    intro z hz
    rw [hx] at hz
    cases hz
    simp [hr]
  · refine .inr ⟨?_, (s.core s.cur.core).regions, sameRegions_refl _, rfl⟩
    intro z hz
    rw [hx] at hz
    cases hz
    simp [hr]

/-- R339: pinning an input. -/
theorem State.pinInput_pinned (s : State) (i : Nat) : PinnedOnly s (s.pinInput i) := by
  unfold State.pinInput
  split
  · exact .refl s
  · next x hx =>
    split
    · exact .refl s
    · next r hr => exact PinnedOnly.modRegion hx hr _ fun g => rfl

/-- R339: pinning the inputs of tokens. -/
theorem State.pin_pinned (s : State) (ops : List Token) : PinnedOnly s (s.pin ops) := by
  induction ops generalizing s with
  | nil => exact .refl s
  | cons t ts ih =>
    simp only [State.pin]
    split
    · exact (State.pinInput_pinned s _).trans (ih _)
    · exact ih s

/-- R340: recording a constraint. -/
theorem State.constrain_pinned (s : State) (k : Constraint) : PinnedOnly s (s.constrain k) := by
  unfold State.constrain
  split
  · exact .refl s
  · next x hx =>
    split
    · exact .refl s
    · next r hr =>
      split
      · exact .refl s
      · split
        · exact .refl s
        · split
          · exact State.pinInput_pinned s _
          · exact PinnedOnly.modRegion hx hr _ fun g => rfl

/-! Firing -/

/-- The thread of the firing, whatever else of its core changed. -/
theorem Core.chargeLoss_parts (x : Core) (k d cause now idx : Nat) :
    ∃ ex lf, x.chargeLoss k d cause now idx = { x with excess := ex, lastFire := lf } := by
  unfold Core.chargeLoss
  split
  · exact ⟨x.excess, x.lastFire, rfl⟩
  · exact ⟨_, _, rfl⟩

/-- R122: a firing spends its tokens; everything but the parts that `Fired` names stays as it was. -/
theorem State.fireWith_fired {s t : State} {x : Inst} (h : PinnedOnly s t) (hx : s.curInst? = some x) (busy : Nat)
    (f : Inst → Inst) : Fired s (t.fireWith busy f) busy (f (x.consume s.clk s.cur.idx)) := by
  have hcur := h.cur
  have hclk := h.clk
  have hct := h.curThread
  have hxt : t.curInst? = some x := by rw [h.curInst, hx]
  have hrg : ∃ rg, sameRegions (s.core s.cur.core).regions rg ∧
      (∀ x, s.curInst? = some x → x.region = none → rg = (s.core s.cur.core).regions) ∧
      t = s.setCore s.cur.core { s.core s.cur.core with regions := rg } ∨ t = s := by
    rcases h with rfl | ⟨h1, rg, hr, rfl⟩
    · exact ⟨[], .inr rfl⟩
    · exact ⟨rg, .inl ⟨hr, fun x hx hn => absurd hn (h1 x hx), rfl⟩⟩
  unfold Fired
  simp only [State.fireWith, State.takePE, hxt, State.modInst, State.modThread, hcur, hclk]
  obtain ⟨ex, lf, hl⟩ := Core.chargeLoss_parts
    { t.core s.cur.core with peNext := Tbl.set (t.core s.cur.core).peNext s.cur.idx (s.clk + busy) } x.ctx
    (if ((t.core s.cur.core).context x.ctx).state == CtxState.opened then ((t.core s.cur.core).context x.ctx).block.dii else 0)
    (lossCause x s.clk s.cur.idx (Tbl.get 0 (t.core s.cur.core).peNext s.cur.idx)) s.clk s.cur.idx
  have hth : (t.core s.cur.core).thread s.cur.slot = s.curThread := by
    have := hct
    unfold State.curThread State.thread at this
    rw [hcur] at this
    exact this
  have hinst : s.curThread.inst = some x := hx
  rw [State.modCore_modCore]
  simp only [State.modCore, Core.modThread, Core.setThread]
  have e1 : ∀ z : Core, ∀ ex lf, ({ z with excess := ex, lastFire := lf } : Core).thread s.cur.slot = z.thread s.cur.slot :=
    fun _ _ _ => rfl
  have e2 : ∀ z : Core, ∀ pn, ({ z with peNext := pn } : Core).thread s.cur.slot = z.thread s.cur.slot := fun _ _ => rfl
  rw [hl, e1, e2, hth]
  simp only [Thread.modInst, hinst]
  obtain ⟨rg, ⟨hr, hn, rfl⟩ | rfl⟩ := hrg
  · refine ⟨ex, lf, rg, hr, hn, ?_⟩
    simp
  · exact ⟨ex, lf, (t.core t.cur.core).regions, sameRegions_refl _, fun _ _ _ => rfl, rfl⟩

/-- R122, R129: the firing of a live instance emits its values. -/
theorem State.emit_emitted {s t : State} {x : Inst} (h : PinnedOnly s t) (hx : s.live x) (busy lat : Nat)
    (t1 t0 : Target) (v1 v0 : Token) : Emitted s (t.emit busy lat t1 t0 v1 v0) busy lat t1 t0 v1 v0 := by
  refine ⟨x, hx.1, ?_⟩
  have hsq : t.squashed = false := by
    unfold State.squashed
    rw [h.curInst, hx.1]
    simp [hx.2]
  unfold State.emit
  simp only [hsq, h.cur, h.clk]
  exact State.fireWith_fired h hx.1 busy fun x => x.produce s.clk s.cur.idx lat t1 t0 v1 v0

/-- R133: the firing of a squashed instance emits null. -/
theorem State.emit_squashed {s t : State} {x : Inst} (h : PinnedOnly s t) (hx : s.curInst? = some x)
    (hs : x.squash.isSome = true) (busy lat : Nat) (t1 t0 : Target) (v1 v0 : Token) :
    Emitted s (t.emit busy lat t1 t0 v1 v0) busy lat t1 t0 nullTok nullTok := by
  refine ⟨x, hx, ?_⟩
  have hsq : t.squashed = true := by
    unfold State.squashed
    rw [h.curInst, hx]
    simp [hs]
  unfold State.emit
  simp only [hsq, h.cur, h.clk, if_true]
  exact State.fireWith_fired h hx busy fun x => x.produce s.clk s.cur.idx lat t1 t0 nullTok nullTok

/-- R129: the operands of a live instance that are not null. -/
theorem State.runs_of {s : State} {x : Inst} (hx : s.live x) {ops : List Token} (h : ∀ v ∈ ops, v.null = false) :
    s.runs ops = true := by
  have hsq : s.squashed = false := by unfold State.squashed; rw [hx.1]; simp [hx.2]
  simp only [State.runs, hsq, Bool.not_false, Bool.true_and, List.all_eq_true]
  intro v hv
  simp [h v hv]

/-- A token that has arrived is the operand. -/
theorem State.has.opTok {s : State} {p : PortSel} {v : Token} (h : s.has p v) : s.opTok p = v := by
  simp [State.opTok, h.1]

/-- R129: a computation whose operands and guard allow it. -/
theorem State.compute_emitted {s : State} {x : Inst} (hx : s.live x) {ops : List Token} (h : ∀ v ∈ ops, v.null = false)
    (hg : s.guardTrue = true) (busy lat : Nat) (t1 t0 : Target) (v : Token) :
    Emitted s (s.compute busy lat t1 t0 ops v) busy lat t1 t0 v v := by
  simp only [State.compute, State.runs_of hx h, hg, Bool.and_self, if_true]
  exact State.emit_emitted (State.pin_pinned s _) hx busy lat t1 t0 v v

/-- R129, R133: a computation that a squash, the guard or a null operand keeps from its value. -/
theorem State.compute_null {s : State} {x : Inst} (hx : s.curInst? = some x) (ops : List Token)
    (h : x.squash ≠ none ∨ s.guardTrue = false ∨ ∃ v ∈ ops, v.null = true)
    (busy lat : Nat) (t1 t0 : Target) (v : Token) :
    Emitted s (s.compute busy lat t1 t0 ops v) busy lat t1 t0 nullTok nullTok := by
  by_cases hsq : x.squash = none
  · have : (s.runs ops && s.guardTrue) = false := by
      rcases h with h | h | ⟨v, hv, hn⟩
      · exact absurd hsq h
      · simp [h]
      · have : s.runs ops = false := by
          simp only [State.runs, Bool.and_eq_false_iff, List.all_eq_false]
          exact .inr ⟨v, hv, by simp [hn]⟩
        simp [this]
    simp only [State.compute, this]
    exact State.emit_emitted (State.pin_pinned s _) ⟨hx, hsq⟩ busy lat t1 t0 nullTok nullTok
  · have hs : x.squash.isSome = true := by cases h : x.squash <;> simp_all
    simp only [State.compute]
    split <;> exact State.emit_squashed (State.pin_pinned s _) hx hs _ _ _ _ _ _

/-- R129, R339: a computation whose result may carry a tag. -/
theorem State.computeTag_emitted {s : State} {x : Inst} (hx : s.live x) {ops : List Token} (h : ∀ v ∈ ops, v.null = false)
    (hg : s.guardTrue = true) (busy lat : Nat) (t1 t0 : Target) (v : Token) (tag : Option (Nat × DWord)) (hv : v.tag = none) :
    Emitted s (s.computeTag busy lat t1 t0 ops v tag) busy lat t1 t0 { v with tag := tag } { v with tag := tag } := by
  cases tag with
  | none =>
    have : ({ v with tag := none } : Token) = v := by cases v; simp_all
    rw [this]
    exact State.compute_emitted hx h hg busy lat t1 t0 v
  | some g =>
    simp only [State.computeTag, State.runs_of hx h, hg, Bool.and_self, if_true]
    exact State.emit_emitted (State.pin_pinned s _) hx busy lat t1 t0 _ _

/-- R129: a computation whose port c is data. -/
theorem State.computeC_emitted {s : State} {x : Inst} (hx : s.live x) {ops : List Token} (h : ∀ v ∈ ops, v.null = false)
    (busy lat : Nat) (t1 t0 : Target) (v : Token) : Emitted s (s.computeC busy lat t1 t0 ops v) busy lat t1 t0 v v := by
  simp only [State.computeC, State.runs_of hx h, if_true]
  exact State.emit_emitted (State.pin_pinned s _) hx busy lat t1 t0 v v

/-- R113: a terminator of a live instance decides; a decision that raises no fault, or outside a region. -/
theorem State.settle_decided {s : State} {x : Inst} (hx : s.live x) (ops : List Token) (d : Term)
    (hd : d.faults = false ∨ x.region = none) : Decided s (s.settle ops d) d := by
  refine ⟨x, hx.1, ?_⟩
  have hp := State.pin_pinned s ops
  have hsq : s.squashed = false := by unfold State.squashed; rw [hx.1]; simp [hx.2]
  have key := State.fireWith_fired hp hx.1 1 fun x =>
    let y : Inst := { x with term := d }.complete s.clk
    if d.faults && x.region.isSome then y.abortWith s.clk s.cur.idx 7 0 else y
  simp only [State.settle, hsq]
  have hreg : ((x.consume s.clk s.cur.idx).region) = x.region := rfl
  have hz : (d.faults && (x.consume s.clk s.cur.idx).region.isSome) = false := by
    rcases hd with h | h
    · simp [h]
    · simp [hreg, h]
  simp only [hz, Bool.false_eq_true, if_false] at key
  simp only [Bool.false_eq_true, if_false, Bool.not_false, Bool.true_and]
  exact key

/-! What a firing leaves as it was -/

theorem Fired.mem {s t : State} {busy : Nat} {y : Inst} (h : Fired s t busy y) : t.mem = s.mem := by
  obtain ⟨_, _, _, -, -, rfl⟩ := h; rfl
theorem Fired.dies {s t : State} {busy : Nat} {y : Inst} (h : Fired s t busy y) : t.dies = s.dies := by
  obtain ⟨_, _, _, -, -, rfl⟩ := h; rfl
theorem Fired.core_ne {s t : State} {busy : Nat} {y : Inst} (h : Fired s t busy y) {c : Nat} (hc : c ≠ s.cur.core) :
    t.core c = s.core c := by
  obtain ⟨_, _, _, -, -, rfl⟩ := h; exact State.core_setCore_ne s _ hc
theorem Fired.curInst {s t : State} {busy : Nat} {y : Inst} (h : Fired s t busy y) : t.curInst? = some y := by
  obtain ⟨_, _, _, -, -, rfl⟩ := h
  simp [State.curInst?, State.curThread, State.thread, Core.thread]

/-! Special-function ports -/

/-- R119, R200: what sending an emission by a special-function port adds to its firing: the port that is free first is held, and
the emission is due that much later. -/
theorem State.viaPort_fired {s t : State} {busy : Nat} {y : Inst} (h : Fired s t busy y) (hold : Nat) :
    let k := s.core s.cur.core
    let wait := k.sfuWait s.clk
    ∃ u, Fired s u busy { y with emits := y.emits.map fun e =>
        if e.idx = s.cur.idx then { e with port := true, due := e.due + wait } else e } ∧
      t.viaPort hold = u.modCore s.cur.core fun z => { z with sfuFree := replaceAt k.sfuFree k.sfuPort.1 (s.clk + wait + hold) } := by
  obtain ⟨ex, lf, rg, hr, hn, rfl⟩ := h
  refine ⟨_, ⟨ex, lf, rg, hr, hn, rfl⟩, ?_⟩
  simp only [State.viaPort, State.modInst, State.modThread, State.modCore, State.setCore_cur, State.setCore_clk, State.core_setCore_self,
    State.setCore_setCore, Core.modThread, Core.setThread, Core.thread]
  simp [Thread.modInst, Core.sfuWait, Core.sfuPort]

/-- R119: an instruction whose meaning sends a computation by a special-function port. -/
theorem State.yieldsByPort {s u : State} {i : Instr} {busy lat : Nat} (hold : Nat) {t1 t0 : Target} {v : Token} {P : Token → Prop}
    (he : Emitted s u busy lat t1 t0 v v) (hi : exec i s = .next (u.viaPort hold)) (hp : P v) :
    s.YieldsByPort i busy lat hold t1 t0 P := by
  obtain ⟨y, hy, hf⟩ := he
  obtain ⟨w, hw, hq⟩ := State.viaPort_fired hf hold
  exact ⟨_, w, v, y, hi, hy, hp, hw, hq⟩

end Sys2Proof.Machine
end

