-- ==== Sys2Proof/Laws/Memory.lean ====
section
/-! SUPPORT. The list of memory bytes: reading after writing, and the canonical form that every memory operation keeps. -/

namespace Sys2Proof.Machine

/-- A bound below the first place may be lowered. -/
theorem memWfFrom_none {lo : Option Nat} {m : List Host.Cell} (h : memWfFrom lo m = true) : memWfFrom none m = true := by
  cases m with
  | nil => rfl
  | cons e t => obtain ⟨k, v⟩ := e; simp_all [memWfFrom]

/-- A bound may be lowered. -/
theorem memWfFrom_mono {a b : Nat} {m : List Host.Cell} (hab : a ≤ b) (h : memWfFrom (some b) m = true) :
    memWfFrom (some a) m = true := by
  cases m with
  | nil => rfl
  | cons e t =>
    obtain ⟨k, v⟩ := e
    simp only [memWfFrom, Bool.and_eq_true, decide_eq_true_eq] at h ⊢
    exact ⟨⟨by omega, h.1.2⟩, h.2⟩

/-- The tail of a list in canonical form. -/
theorem memWfFrom_tail {lo : Option Nat} {k : Nat} {v : Byte} {t : List Host.Cell}
    (h : memWfFrom lo ((k, v) :: t) = true) : memWfFrom (some k) t = true := by
  simp_all [memWfFrom]

/-- A write above a bound keeps the form above that bound. -/
theorem memWfFrom_write {b : Nat} (m : List Host.Cell) (a : Nat) (v : Byte) (hb : b < a)
    (h : memWfFrom (some b) m = true) : memWfFrom (some b) (memWrite m a v) = true := by
  induction m generalizing b with
  | nil =>
    simp only [memWrite]
    split <;> simp_all [memWfFrom]
  | cons e t ih =>
    obtain ⟨k, w⟩ := e
    have ht := memWfFrom_tail h
    simp only [memWfFrom, Bool.and_eq_true, decide_eq_true_eq] at h
    simp only [memWrite]
    split
    · next hk =>
      subst hk
      split
      · exact memWfFrom_mono (by omega) ht
      · simp_all [memWfFrom]
    · split
      · split
        · simp_all [memWfFrom]
        · simp_all [memWfFrom]
      · have := ih (b := k) (by omega) ht
        simp_all [memWfFrom]

/-- A write of one byte keeps the canonical form. -/
theorem memWrite_wf {m : List Host.Cell} (a : Nat) (v : Byte) (h : Memory.wf m = true) :
    Memory.wf (memWrite m a v) = true := by
  unfold Memory.wf at *
  cases m with
  | nil =>
    simp only [memWrite]
    split <;> simp_all [memWfFrom]
  | cons e t =>
    obtain ⟨k, w⟩ := e
    have ht := memWfFrom_tail h
    simp only [memWrite]
    split
    · next hk =>
      subst hk
      split
      · exact memWfFrom_none ht
      · simp_all [memWfFrom]
    · split
      · split <;> simp_all [memWfFrom]
      · have := memWfFrom_write t a v (b := k) (by omega) ht
        simp_all [memWfFrom]

/-- A write of consecutive bytes keeps the canonical form. -/
theorem memWriteAll_wf {m : List Host.Cell} (a : Nat) (bs : List Byte) (h : Memory.wf m = true) :
    Memory.wf (memWriteAll m a bs) = true := by
  induction bs generalizing m a with
  | nil => exact h
  | cons b t ih => exact ih _ (memWrite_wf a b h)

/-- A write of a list of bytes at their own places keeps the canonical form. -/
theorem memFoldWrite_wf {m : List Host.Cell} (bs : List (Nat × Byte)) (h : Memory.wf m = true) :
    Memory.wf (bs.foldl (fun m e => memWrite m e.1 e.2) m) = true := by
  induction bs generalizing m with
  | nil => exact h
  | cons b t ih => exact ih (memWrite_wf b.1 b.2 h)

/-- `State.wr` keeps the canonical form. -/
@[simp] theorem State.wr_wf {s : State} (loc : Nat) (bs : List Byte) (h : Memory.wf s.mem = true) :
    Memory.wf (s.wr loc bs).mem = true := memWriteAll_wf loc bs h

/-- `State.wrSegs` keeps the canonical form. -/
@[simp] theorem State.wrSegs_wf {s : State} (gs : List Seg) (bs : List Byte) (h : Memory.wf s.mem = true) :
    Memory.wf (s.wrSegs gs bs).mem = true := by
  induction gs generalizing s bs with
  | nil => exact h
  | cons g t ih => exact ih _ (State.wr_wf _ _ h)

/-- Memory at reset has the canonical form. -/
theorem State.reset_wf : Memory.wf State.reset.mem = true := rfl

/-- A place below a bound reads as unlisted. -/
theorem memRead_below {b a : Nat} {m : List Host.Cell} (h : memWfFrom (some b) m = true) (ha : a ≤ b) :
    memRead m a = memDefault := by
  cases m with
  | nil => rfl
  | cons e t =>
    obtain ⟨k, w⟩ := e
    simp only [memWfFrom, Bool.and_eq_true, decide_eq_true_eq] at h
    simp only [memRead]
    rw [if_neg (by omega), if_pos (by omega)]

/-- A written byte reads as written. -/
theorem memRead_write_self {m : List Host.Cell} (a : Nat) (v : Byte) (h : Memory.wf m = true) :
    memRead (memWrite m a v) a = v := by
  have key : ∀ (m : List Host.Cell) (lo : Option Nat), memWfFrom lo m = true → memRead (memWrite m a v) a = v := by
    intro m
    induction m with
    | nil =>
      intro _ _
      simp only [memWrite]
      split <;> simp_all [memRead]
    | cons e t ih =>
      intro lo h
      obtain ⟨k, w⟩ := e
      have ht := memWfFrom_tail h
      simp only [memWrite]
      split
      · next hk =>
        subst hk
        split
        · next hv => rw [memRead_below ht (Nat.le_refl _), hv]
        · simp [memRead]
      · next hk =>
        split
        · next hlt =>
          split
          · next hv => simp [memRead, hk, hlt, hv]
          · simp [memRead]
        · next hlt => simp [memRead, hk, hlt, ih _ ht]
  exact key m none h

/-- A write leaves every other byte as it was. -/
theorem memRead_write_ne {m : List Host.Cell} {a x : Nat} (v : Byte) (h : Memory.wf m = true) (hx : x ≠ a) :
    memRead (memWrite m a v) x = memRead m x := by
  have key : ∀ (m : List Host.Cell) (lo : Option Nat), memWfFrom lo m = true →
      memRead (memWrite m a v) x = memRead m x := by
    intro m
    induction m with
    | nil =>
      intro _ _
      simp only [memWrite]
      split
      · rfl
      · simp [memRead, Ne.symm hx]
    | cons e t ih =>
      intro lo h
      obtain ⟨k, w⟩ := e
      have ht := memWfFrom_tail h
      simp only [memWrite]
      split
      · next hk =>
        subst hk
        split
        · simp only [memRead, Ne.symm hx, if_false]
          split
          · next hlt => exact memRead_below ht (by omega)
          · rfl
        · simp [memRead, Ne.symm hx]
      · next hk =>
        split
        · next hlt =>
          split
          · rfl
          · simp only [memRead, Ne.symm hx, if_false]
            split
            · next h2 => rw [if_neg (by omega), if_pos (by omega)]
            · rfl
        · simp only [memRead]
          rw [ih _ ht]
  exact key m none h

end Sys2Proof.Machine
end

