-- ==== Sys2Proof/Laws/MemFrame.lean ====
section
/-! SUPPORT. What each operation over the state does to memory, said once: it leaves memory as it is (`…_mem`), or it keeps the
canonical form of memory (`…_wf`, `…_ok`). Provers cite these and never unfold the operation for it. -/

namespace Sys2Proof.Machine

@[simp] theorem foldl_mem {α : Type} (f : State → α → State) (hf : ∀ s a, (f s a).mem = s.mem) (l : List α) :
    ∀ s, (l.foldl f s).mem = s.mem := by
  induction l with
  | nil => intro s; rfl
  | cons a t ih => intro s; rw [List.foldl_cons, ih, hf]
@[simp] theorem foldl_wf {α : Type} (f : State → α → State) (hf : ∀ s a, Memory.wf s.mem = true → Memory.wf (f s a).mem = true) (l : List α) :
    ∀ s, Memory.wf s.mem = true → Memory.wf (l.foldl f s).mem = true := by
  induction l with
  | nil => intro s h; exact h
  | cons a t ih => intro s h; exact ih _ (hf s a h)

@[simp] theorem State.countRefused_mem (s : State) (d : Nat) : (State.countRefused s d).mem = s.mem := by
  simp only [State.countRefused]
  simp_all

@[simp] theorem State.takePE_mem (s : State) (busy : Nat) : (State.takePE s busy).mem = s.mem := by
  simp only [State.takePE]
  (repeat' split) <;> simp_all

@[simp] theorem State.fireWith_mem (s : State) (busy : Nat) (f : Inst → Inst) : (State.fireWith s busy f).mem = s.mem := by
  simp only [State.fireWith]
  simp_all

@[simp] theorem State.emit_mem (s : State) (busy lat : Nat) (t1 t0 : Target) (v1 v0 : Token) : (State.emit s busy lat t1 t0 v1 v0).mem = s.mem := by
  simp only [State.emit]
  (repeat' split) <;> simp_all

@[simp] theorem State.pinInput_mem (s : State) (i : Nat) : (State.pinInput s i).mem = s.mem := by
  simp only [State.pinInput]
  (repeat' split) <;> simp_all

@[simp] theorem State.pin_mem (s : State) (ts : List Token) : (s.pin ts).mem = s.mem := by
  induction ts generalizing s with
  | nil => rfl
  | cons t u ih => rw [State.pin, ih]; split <;> simp

@[simp] theorem State.compute_mem (s : State) (busy lat : Nat) (t1 t0 : Target) (ops : List Token) (v : Token) : (State.compute s busy lat t1 t0 ops v).mem = s.mem := by
  simp only [State.compute]
  (repeat' split) <;> simp_all

@[simp] theorem State.nullResult_mem (s : State) (busy lat : Nat) (t1 t0 : Target) (ops : List Token) : (State.nullResult s busy lat t1 t0 ops).mem = s.mem := by
  simp only [State.nullResult]
  (repeat' split) <;> simp_all

@[simp] theorem State.computeTag_mem (s : State) (busy lat : Nat) (t1 t0 : Target) (ops : List Token) (v : Token) (tag : Option (Nat × DWord)) : (State.computeTag s busy lat t1 t0 ops v tag).mem = s.mem := by
  simp only [State.computeTag]
  (repeat' split) <;> simp_all

@[simp] theorem State.computeC_mem (s : State) (busy lat : Nat) (t1 t0 : Target) (ops : List Token) (v : Token) : (State.computeC s busy lat t1 t0 ops v).mem = s.mem := by
  simp only [State.computeC]
  (repeat' split) <;> simp_all

@[simp] theorem State.fillTlbs_mem (s : State) (c asp vpn : Nat) (leaf : DWord) : (State.fillTlbs s c asp vpn leaf).mem = s.mem := by
  simp only [State.fillTlbs]
  simp_all

@[simp] theorem State.dropNc_mem (s : State) (d line : Nat) : (State.dropNc s d line).mem = s.mem := by
  simp only [State.dropNc]
  simp_all

@[simp] theorem State.writeBackNc_wf (s : State) (d line : Nat) (h : Memory.wf s.mem = true) : Memory.wf (State.writeBackNc s d line).mem = true := by
  simp only [State.writeBackNc]
  split
  · simp [memFoldWrite_wf _ h]
  · exact h

@[simp] theorem State.evictL2_wf (s : State) (d line : Nat) (hm : Memory.wf s.mem = true) : Memory.wf (State.evictL2 s d line).mem = true := by
  simp only [State.evictL2]
  simp_all

@[simp] theorem State.enterL2_mem (s : State) (d : Nat) (lines : List Nat) : (State.enterL2 s d lines).mem = s.mem := by
  simp only [State.enterL2]
  exact foldl_mem (fun s l => s.urge (.evictL2 d l)) (fun s a => rfl) _ _

@[simp] theorem State.holdNc_mem (s : State) (d : Nat) (gs : List Seg) : (State.holdNc s d gs).mem = s.mem := by
  simp only [State.holdNc]
  split <;> simp

@[simp] theorem State.clearNc_wf (s : State) (d : Nat) (gs : List Seg) (hm : Memory.wf s.mem = true) : Memory.wf (State.clearNc s d gs).mem = true := by
  simp only [State.clearNc]
  simp_all

@[simp] theorem State.markStale_mem (s : State) (lines : List Nat) : (State.markStale s lines).mem = s.mem := by
  simp only [State.markStale]
  (repeat' split) <;> simp_all

@[simp] theorem State.leaveL1_mem (s : State) (p : Nat → Bool) (q : Nat → Bool) : (State.leaveL1 s p q).mem = s.mem := by
  simp only [State.leaveL1]

@[simp] theorem State.setGranule_mem (s : State) (g : Nat) (v : BitVec 13) : (State.setGranule s g v).mem = s.mem := by
  simp only [State.setGranule]
  (repeat' split) <;> simp_all

@[simp] theorem State.keepClass_mem (s : State) (line : Nat) : (State.keepClass s line).mem = s.mem := by
  simp only [State.keepClass]
  (repeat' split) <;> simp_all

@[simp] theorem State.evictClass_mem (s : State) (d g : Nat) : (State.evictClass s d g).mem = s.mem := by
  simp only [State.evictClass]
  (repeat' split) <;> simp_all

@[simp] theorem State.dropL1_mem (s : State) (d line : Nat) (keep : Option Nat) : (State.dropL1 s d line keep).mem = s.mem := by
  simp only [State.dropL1]
  (repeat' split) <;> simp_all

@[simp] theorem State.dropLine_mem (s : State) (d line : Nat) : (State.dropLine s d line).mem = s.mem := by
  simp only [State.dropLine]
  simp_all

@[simp] theorem State.flushGranule_mem (s : State) (g : Nat) (cls : BitVec 13) : (State.flushGranule s g cls).mem = s.mem := by
  simp only [State.flushGranule]
  simp_all

@[simp] theorem State.evictRegion_mem (s : State) (h region : Nat) : (State.evictRegion s h region).mem = s.mem := by
  simp only [State.evictRegion]
  (repeat' split) <;> simp_all

@[simp] theorem State.dirRoom_mem (s : State) (h region : Nat) : (State.dirRoom s h region).mem = s.mem := by
  simp only [State.dirRoom]
  (repeat' split) <;> simp_all

@[simp] theorem State.setDir_mem (s : State) (h line : Nat) (e : DirEntry) : (State.setDir s h line e).mem = s.mem := by
  simp only [State.setDir]
  (repeat' split) <;> simp_all

@[simp] theorem State.setHostDir_mem (s : State) (d line : Nat) (held own : Bool) : (State.setHostDir s d line held own).mem = s.mem := by
  simp only [State.setHostDir]
  (repeat' split) <;> simp_all

@[simp] theorem State.dropHost_mem (s : State) (d line : Nat) : (State.dropHost s d line).mem = s.mem := by
  simp only [State.dropHost]
  simp_all

@[simp] theorem State.hostGrant_mem (s : State) (line d : Nat) (write : Bool) : (s.hostGrant line d write).mem = s.mem := by
  simp only [State.hostGrant]
  split
  · rw [State.modDie_mem, State.setHostDir_mem]
    split
    · exact foldl_mem _ (fun s a => by split <;> simp) _ _
    · exact foldl_mem _ (fun s a => by split <;> simp) _ _
  · rfl

@[simp] theorem State.dirGrant_mem (s : State) (line d : Nat) (write : Bool) : (State.dirGrant s line d write).mem = s.mem := by
  simp only [State.dirGrant]
  split
  · simp
  · split
    · rw [State.setDir_mem]
      exact foldl_mem _ (fun s a => by split <;> simp) _ _
    · simp

@[simp] theorem State.touch_mem (s : State) (c line : Nat) : (State.touch s c line).mem = s.mem := by
  simp only [State.touch]
  (repeat' split) <;> simp_all

@[simp] theorem State.touchOther_mem (s : State) (line : Nat) : (State.touchOther s line).mem = s.mem := by
  simp only [State.touchOther]
  (repeat' split) <;> simp_all

@[simp] theorem State.walkReads_mem (s : State) (d root vpn : Nat) : (State.walkReads s d root vpn).mem = s.mem := by
  simp only [State.walkReads]
  (repeat' split) <;> simp_all

@[simp] theorem State.walked_mem (s : State) (w : Accessor) (va bytes : Nat) : (State.walked s w va bytes).mem = s.mem := by
  simp only [State.walked]
  (refine foldl_mem _ (fun s a => ?_) _ _; (repeat' split) <;> simp_all)

@[simp] theorem State.askHome_mem (s : State) (d line : Nat) (write : Bool) : (State.askHome s d line write).mem = s.mem := by
  simp only [State.askHome]
  (repeat' split) <;> simp_all

@[simp] theorem State.wantGranule_mem (s : State) (g : Nat) : (State.wantGranule s g).mem = s.mem := by
  simp only [State.wantGranule]
  (repeat' split) <;> simp_all

@[simp] theorem State.takeLine_mem (s : State) (who : Option Nat) (d line : Nat) (write : Bool) : (State.takeLine s who d line write).mem = s.mem := by
  simp only [State.takeLine]
  (repeat' split) <;> simp_all

@[simp] theorem State.obtainAt_mem (s : State) (who : Option Nat) (d : Nat) (lines : List Nat) (write : Bool) : (State.obtainAt s who d lines write).1.mem = s.mem := by
  simp only [State.obtainAt]
  split
  · simp
  · exact foldl_mem _ (fun s a => by split <;> simp) _ _

@[simp] theorem State.obtain_mem (s : State) (c : Nat) (gs : List Seg) (write : Bool) : (State.obtain s c gs write).1.mem = s.mem := by
  simp [State.obtain]

@[simp] theorem State.obtainUnit_mem (s : State) (d : Nat) (gs : List Seg) (write : Bool) : (State.obtainUnit s d gs write).1.mem = s.mem := by
  simp only [State.obtainUnit]
  (repeat' split) <;> simp_all

@[simp] theorem State.foldAccess_mem (s : State) (d : Nat) (write : Bool) (gs : List Seg) : (State.foldAccess s d write gs).mem = s.mem := by
  simp only [State.foldAccess]
  simp_all

@[simp] theorem State.putBytes_wf (d : Nat) (s : State) (ls : List (Nat × Bool)) (bs : List Byte) (h : Memory.wf s.mem = true) :
    Memory.wf (State.putBytes d s ls bs).mem = true := by
  induction ls generalizing s bs with
  | nil => simpa [State.putBytes] using h
  | cons e t ih =>
    obtain ⟨loc, nc⟩ := e
    cases bs with
    | nil => simpa [State.putBytes] using h
    | cons b u => rw [State.putBytes]; exact ih _ _ (by split <;> simp [h, State.wr_wf])

@[simp] theorem State.performStore_wf (s : State) (d : Nat) (gs : List Seg) (bs : List Byte) (hm : Memory.wf s.mem = true) : Memory.wf (State.performStore s d gs bs).mem = true := by
  simp only [State.performStore]
  simp_all

@[simp] theorem State.putBytesNc_wf (d : Nat) (s : State) (ls : List (Nat × Bool)) (bs : List Byte) (h : Memory.wf s.mem = true) :
    Memory.wf (State.putBytesNc d s ls bs).mem = true := by
  induction ls generalizing s bs with
  | nil => simpa [State.putBytesNc] using h
  | cons e t ih =>
    obtain ⟨loc, nc⟩ := e
    cases bs with
    | nil => simpa [State.putBytesNc] using h
    | cons b u => rw [State.putBytesNc]; exact ih _ _ (by split <;> simp [h, State.wr_wf])

@[simp] theorem State.performStoreNc_wf (s : State) (d : Nat) (gs : List Seg) (bs : List Byte) (hm : Memory.wf s.mem = true) : Memory.wf (State.performStoreNc s d gs bs).mem = true := by
  simp only [State.performStoreNc]
  simp_all

@[simp] theorem State.agentStore_wf (s : State) (d : Nat) (gs : List Seg) (bs : List Byte) (hm : Memory.wf s.mem = true) : Memory.wf (State.agentStore s d gs bs).mem = true := by
  simp only [State.agentStore]
  simp_all

@[simp] theorem State.agentStoreNc_wf (s : State) (d : Nat) (gs : List Seg) (bs : List Byte) (hm : Memory.wf s.mem = true) : Memory.wf (State.agentStoreNc s d gs bs).mem = true := by
  simp only [State.agentStoreNc]
  simp_all

@[simp] theorem State.performCache_wf (s : State) (d : Nat) (inv : Bool) (gs : List Seg) (hm : Memory.wf s.mem = true) : Memory.wf (State.performCache s d inv gs).mem = true := by
  simp only [State.performCache]
  (repeat' split) <;> (refine foldl_wf _ (fun s a hs => ?_) _ _ ?_ <;> (repeat' split) <;> simp_all)

@[simp] theorem State.evictL1_mem (s : State) (c line : Nat) : (State.evictL1 s c line).mem = s.mem := by
  simp only [State.evictL1]
  simp_all

@[simp] theorem State.evictFilter_mem (s : State) (d line : Nat) : (State.evictFilter s d line).mem = s.mem := by
  simp only [State.evictFilter]
  (repeat' split) <;> simp_all

@[simp] theorem State.filterRoom_mem (s : State) (d line : Nat) : (State.filterRoom s d line).mem = s.mem := by
  simp only [State.filterRoom]
  (repeat' split) <;> simp_all

@[simp] theorem State.keepOld_mem (s : State) (gs : List Seg) : (State.keepOld s gs).mem = s.mem := by
  rfl

@[simp] theorem State.seeOwn_mem (s : State) (c sl : Nat) (gs : List Seg) : (State.seeOwn s c sl gs).mem = s.mem := by
  simp only [State.seeOwn]
  (repeat' split) <;> simp_all

@[simp] theorem State.holdL1_mem (s : State) (c : Nat) (lines : List Nat) : (State.holdL1 s c lines).mem = s.mem := by
  simp only [State.holdL1]
  (refine foldl_mem _ (fun s a => ?_) _ _; (repeat' split) <;> simp_all)

@[simp] theorem State.cacheLines_mem (s : State) (c : Nat) (l1 : Bool) (gs : List Seg) : (State.cacheLines s c l1 gs).mem = s.mem := by
  simp only [State.cacheLines]
  (repeat' split) <;> simp_all

@[simp] theorem State.fileFrom_mem (s : State) (c sl from_ : Nat) (addr : VAddr) : (State.fileFrom s c sl from_ addr).mem = s.mem := by
  simp only [State.fileFrom]
  simp_all

@[simp] theorem State.enterSave_mem (s : State) (c sl : Nat) (mask : DWord) (all : Bool) : (State.enterSave s c sl mask all).mem = s.mem := by
  simp only [State.enterSave]
  simp_all

@[simp] theorem State.rollback_mem (s : State) (c sl : Nat) (cause : Nat) : (State.rollback s c sl cause).mem = s.mem := by
  simp only [State.rollback]
  (repeat' split) <;> simp_all

@[simp] theorem State.releaseToken_mem (s : State) (c sl : Nat) : (State.releaseToken s c sl).mem = s.mem := by
  simp only [State.releaseToken]
  simp_all

@[simp] theorem State.endYield_mem (s : State) (c sl : Nat) : (State.endYield s c sl).mem = s.mem := by
  simp only [State.endYield]

@[simp] theorem State.freeRegion_mem (s : State) (c sl : Nat) : (State.freeRegion s c sl).mem = s.mem := by
  simp only [State.freeRegion]
  (repeat' split) <;> simp_all

@[simp] theorem State.leaveRegion_mem (s : State) (c sl : Nat) (addr : VAddr) : (s.leaveRegion c sl addr).1.mem = s.mem := by
  simp only [State.leaveRegion]
  (repeat' split) <;> simp_all

@[simp] theorem State.saveFrom_mem (s : State) (c sl : Nat) (p : Place) (addr : VAddr) (all : Bool) : (State.saveFrom s c sl p addr all).mem = s.mem := by
  simp only [State.saveFrom]
  (repeat' split) <;> simp_all

@[simp] theorem State.fileTo_mem (s : State) (c sl : Nat) (addr : VAddr) : (State.fileTo s c sl addr).mem = s.mem := by
  simp only [State.fileTo]
  simp_all

@[simp] theorem State.fileHere_mem (s : State) (c sl : Nat) : (State.fileHere s c sl).mem = s.mem := by
  simp only [State.fileHere]
  simp_all

@[simp] theorem State.fileNow_mem (s : State) (c sl : Nat) : (State.fileNow s c sl).mem = s.mem := by
  simp only [State.fileNow]
  (repeat' split) <;> simp_all

@[simp] theorem State.settleFilings_mem (s : State) : (State.settleFilings s).mem = s.mem := by
  simp only [State.settleFilings]
  (refine foldl_mem _ (fun s a => ?_) _ _; (repeat' split) <;> simp_all)

@[simp] theorem State.noteIdem_mem (s : State) (c sl : Nat) (fromId : Bool) (addr : VAddr) : (State.noteIdem s c sl fromId addr).mem = s.mem := by
  simp only [State.noteIdem]
  (repeat' split) <;> simp_all

@[simp] theorem State.trapThread_mem (s : State) (c sl : Nat) (tr : Trap) : (State.trapThread s c sl tr).mem = s.mem := by
  simp only [State.trapThread]
  (repeat' split) <;> simp_all

@[simp] theorem State.modSaved_mem (s : State) (gn rope : Nat) (f : SavedGroup → SavedGroup) : (State.modSaved s gn rope f).mem = s.mem := by
  simp only [State.modSaved]
  (repeat' split) <;> simp_all

@[simp] theorem State.wake_mem (s : State) (c sl : Nat) (p : Place) : (State.wake s c sl p).mem = s.mem := by
  simp only [State.wake]
  (repeat' split) <;> simp_all

@[simp] theorem State.trapWaiter_mem (s : State) (c sl : Nat) (p : Place) (cause : Cause) (detail : DWord) : (State.trapWaiter s c sl p cause detail).mem = s.mem := by
  simp only [State.trapWaiter]
  (repeat' split) <;> simp_all

@[simp] theorem State.breakRope_mem (s : State) (gn rope : Nat) : (State.breakRope s gn rope).mem = s.mem := by
  simp only [State.breakRope]
  simp_all

@[simp] theorem State.ropeAfterFault_mem (s : State) (c sl : Nat) : (State.ropeAfterFault s c sl).mem = s.mem := by
  simp only [State.ropeAfterFault]
  (repeat' split) <;> simp_all

@[simp] theorem State.takeTrap_mem (s : State) (c sl : Nat) (tr : Trap) : (State.takeTrap s c sl tr).mem = s.mem := by
  simp only [State.takeTrap]
  simp_all

@[simp] theorem State.enterHandler_mem (s : State) (c sl : Nat) (cause : Nat) : (State.enterHandler s c sl cause).mem = s.mem := by
  simp only [State.enterHandler]
  simp_all

@[simp] theorem State.queueSerial_mem (s : State) (c sl : Nat) : (State.queueSerial s c sl).mem = s.mem := by
  simp only [State.queueSerial]
  simp_all

@[simp] theorem State.goTo_mem (s : State) (c sl : Nat) (addr : VAddr) : (State.goTo s c sl addr).mem = s.mem := by
  simp only [State.goTo]
  (repeat' split) <;> simp_all

@[simp] theorem State.resumeAt_mem (s : State) (c sl : Nat) (addr : VAddr) : (State.resumeAt s c sl addr).mem = s.mem := by
  simp only [State.resumeAt]
  simp_all

@[simp] theorem State.startRetire_mem (s : State) (c sl : Nat) : (State.startRetire s c sl).mem = s.mem := by
  simp only [State.startRetire]
  simp_all

@[simp] theorem State.breakBar_mem (s : State) (c g b : Nat) (why : Broken) : (State.breakBar s c g b why).mem = s.mem := by
  simp only [State.breakBar]
  (repeat' split) <;> simp_all

@[simp] theorem State.clearArrivals_mem (s : State) (c g b : Nat) : (State.clearArrivals s c g b).mem = s.mem := by
  simp only [State.clearArrivals]
  (refine foldl_mem _ (fun s a => ?_) _ _; simp_all)

@[simp] theorem State.freeWaiters_mem (s : State) (c g : Nat) (p : Place) (b : Nat) : (State.freeWaiters s c g p b).mem = s.mem := by
  simp only [State.freeWaiters]
  simp_all

@[simp] theorem State.completePhase_mem (s : State) (c g b : Nat) : (State.completePhase s c g b).mem = s.mem := by
  simp only [State.completePhase]
  refine (foldl_mem _ (fun s a => ?_) _ _).trans ((foldl_mem _ (fun s a => ?_) _ _).trans ?_)
  all_goals simp_all

@[simp] theorem State.settleBar_mem (s : State) (c g b : Nat) : (State.settleBar s c g b).mem = s.mem := by
  simp only [State.settleBar]
  (repeat' split) <;> simp_all

@[simp] theorem State.arriveBar_mem (s : State) (c sl b : Nat) (drop : Bool) : (State.arriveBar s c sl b drop).mem = s.mem := by
  simp only [State.arriveBar]
  (repeat' split) <;> simp_all

@[simp] theorem State.settleRope_mem (s : State) (gn rope : Nat) : (State.settleRope s gn rope).mem = s.mem := by
  simp only [State.settleRope]
  (repeat' split) <;> simp_all

@[simp] theorem State.arriveRope_mem (s : State) (c sl : Nat) : (State.arriveRope s c sl).mem = s.mem := by
  simp only [State.arriveRope]
  simp_all

@[simp] theorem State.arriveHeld_mem (s : State) (c sl : Nat) : (State.arriveHeld s c sl).mem = s.mem := by
  simp only [State.arriveHeld]
  (repeat' split) <;> simp_all

@[simp] theorem State.waitBar_mem (s : State) (c sl b : Nat) (blk target : VAddr) : (State.waitBar s c sl b blk target).mem = s.mem := by
  simp only [State.waitBar]
  (repeat' split) <;> simp_all

@[simp] theorem State.waitRope_mem (s : State) (c sl : Nat) (blk target : VAddr) : (State.waitRope s c sl blk target).mem = s.mem := by
  simp only [State.waitRope]
  (repeat' split) <;> simp_all

@[simp] theorem State.waitChannel_wf (s : State) (c sl ch : Nat) (thr : Word) (idx : Nat) (blk target : VAddr) (hm : Memory.wf s.mem = true) : Memory.wf (State.waitChannel s c sl ch thr idx blk target).mem = true := by
  simp only [State.waitChannel]
  (repeat' split) <;> simp_all

@[simp] theorem State.enterRegion_mem (s : State) (c sl k : Nat) (entry abortPath : VAddr) : (State.enterRegion s c sl k entry abortPath).mem = s.mem := by
  simp only [State.enterRegion]
  (repeat' split) <;> simp_all

@[simp] theorem State.carryOut_wf (s : State) (c sl : Nat) (h : HeldStep) (next : VAddr) (hm : Memory.wf s.mem = true) : Memory.wf (State.carryOut s c sl h next).mem = true := by
  simp only [State.carryOut]
  (repeat' split) <;> simp_all

@[simp] theorem State.resumeNext_wf (s : State) (c sl : Nat) (h : HeldStep) (next : VAddr) (def_ ret : Bool) (hm : Memory.wf s.mem = true) : Memory.wf (State.resumeNext s c sl h next def_ ret).mem = true := by
  simp only [State.resumeNext]
  (repeat' split) <;> simp_all

@[simp] theorem State.returnFromTrap_wf (s : State) (c sl : Nat) (h : HeldStep) (useNext : Bool) (blk nxt : DWord) (hm : Memory.wf s.mem = true) : Memory.wf (State.returnFromTrap s c sl h useNext blk nxt).mem = true := by
  simp only [State.returnFromTrap]
  (repeat' split) <;> simp_all

@[simp] theorem State.constrain_mem (s : State) (k : Constraint) : (State.constrain s k).mem = s.mem := by
  simp only [State.constrain]
  (repeat' split) <;> simp_all

@[simp] theorem State.parityError_mem (s : State) (c sl pe : Nat) : (State.parityError s c sl pe).mem = s.mem := by
  simp only [State.parityError]
  (repeat' split) <;> simp_all

@[simp] theorem State.checkParity_mem (s : State) (slots : List Nat) : (State.checkParity s slots).mem = s.mem := by
  simp only [State.checkParity]
  (repeat' split) <;> simp_all

@[simp] theorem State.source_mem (s : State) (lat : Nat) (t1 t0 : Target) (v : Token) : (State.source s lat t1 t0 v).mem = s.mem := by
  simp only [State.source]
  simp_all

@[simp] theorem State.gateOp_mem (s : State) (want : Bool) (t1 t0 : Target) : (State.gateOp s want t1 t0).mem = s.mem := by
  simp only [State.gateOp]
  (repeat' split) <;> simp_all

@[simp] theorem State.intOp1_mem (s : State) (m : IntMod) (t1 t0 : Target) (f : Int → Int) : (State.intOp1 s m t1 t0 f).mem = s.mem := by
  simp only [State.intOp1]
  simp_all

@[simp] theorem State.intOp2_mem (s : State) (busy lat : Nat) (m : IntMod) (t1 t0 : Target) (f : Int → Int → Nat → Int) (tag : Token → Token → Option (Nat × DWord)) : (State.intOp2 s busy lat m t1 t0 f tag).mem = s.mem := by
  simp only [State.intOp2]
  simp_all

@[simp] theorem State.compare_mem (s : State) (m : IntMod) (r : Rel) (t1 t0 : Target) : (State.compare s m r t1 t0).mem = s.mem := by
  simp only [State.compare]
  (repeat' split) <;> simp_all

@[simp] theorem State.predOp_mem (s : State) (t1 t0 : Target) (f : Bool → Bool → Bool) : (State.predOp s t1 t0 f).mem = s.mem := by
  simp only [State.predOp]
  simp_all

@[simp] theorem State.immOp_mem (s : State) (lat : Nat) (t0 : Target) (f : Nat → Nat) : (State.immOp s lat t0 f).mem = s.mem := by
  simp only [State.immOp]
  simp_all

@[simp] theorem State.compareImm_mem (s : State) (r : Rel) (imm : BitVec 15) (t0 : Target) : (State.compareImm s r imm t0).mem = s.mem := by
  simp only [State.compareImm]
  (repeat' split) <;> simp_all

@[simp] theorem State.fp1_mem (s : State) (ty : FpTy) (lat : Nat) (t1 t0 : Target) (f : Nat → Nat) : (State.fp1 s ty lat t1 t0 f).mem = s.mem := by
  simp only [State.fp1]
  simp_all

@[simp] theorem State.fp2_mem (s : State) (ty : FpTy) (lat : Nat) (t1 t0 : Target) (f : Nat → Nat → Nat) : (State.fp2 s ty lat t1 t0 f).mem = s.mem := by
  simp only [State.fp2]
  simp_all

@[simp] theorem State.fcompare_mem (s : State) (m : FpMod) (r : FRel) (t1 t0 : Target) : (State.fcompare s m r t1 t0).mem = s.mem := by
  simp only [State.fcompare]
  simp_all

@[simp] theorem State.viaPort_mem (s : State) (hold : Nat) : (State.viaPort s hold).mem = s.mem := by
  simp only [State.viaPort]
  simp_all

@[simp] theorem State.port1_mem (s : State) (m : FpMod) (lat : Nat) (t1 t0 : Target) (f : Nat → Nat) : (State.port1 s m lat t1 t0 f).mem = s.mem := by
  simp only [State.port1]
  simp_all

@[simp] theorem State.convert_mem (s : State) (src : CvtFmt) (m : CvtMod) (t1 t0 : Target) : (State.convert s src m t1 t0).mem = s.mem := by
  simp only [State.convert]
  (repeat' split) <;> simp_all

@[simp] theorem State.judgedAt_mem (s : State) (c sl idx : Nat) : (State.judgedAt s c sl idx).mem = s.mem := by
  simp only [State.judgedAt]
  (repeat' split) <;> simp_all

@[simp] theorem State.failRequest_mem (s : State) (c sl idx : Nat) (f : ThreadFault) (t1 t0 : Target) (completes : Bool) : (State.failRequest s c sl idx f t1 t0 completes).mem = s.mem := by
  simp only [State.failRequest]
  (repeat' split) <;> simp_all

@[simp] theorem State.finishReq_mem (s : State) (c sl idx : Nat) (t1 t0 : Target) (v1 v0 : Token) : (State.finishReq s c sl idx t1 t0 v1 v0).mem = s.mem := by
  simp only [State.finishReq]
  simp_all

@[simp] theorem State.regionOverflow_mem (s : State) (c sl idx : Nat) : (State.regionOverflow s c sl idx).mem = s.mem := by
  simp only [State.regionOverflow]
  (repeat' split) <;> simp_all

@[simp] theorem State.enterBuffer_mem (s : State) (c sl : Nat) (r : Req) : (State.enterBuffer s c sl r).mem = s.mem := by
  simp only [State.enterBuffer]
  (repeat' split) <;> simp_all

@[simp] theorem State.prefetchLine_mem (s : State) (c sl : Nat) (l2 : Bool) (va : Nat) : (State.prefetchLine s c sl l2 va).mem = s.mem := by
  simp only [State.prefetchLine]
  (repeat' split) <;> simp

@[simp] theorem State.passRequest_mem (s : State) (c sl : Nat) (r : Req) : (State.passRequest s c sl r).mem = s.mem := by
  simp only [State.passRequest]
  (repeat' split) <;> simp_all

@[simp] theorem State.judgeReq_mem (s : State) (c sl idx : Nat) : (State.judgeReq s c sl idx).mem = s.mem := by
  simp only [State.judgeReq]
  (repeat' split) <;> simp_all

@[simp] theorem State.sendReq_mem (s : State) (c sl : Nat) (r : Req) : (State.sendReq s c sl r).mem = s.mem := by
  simp only [State.sendReq]
  (repeat' split) <;> simp_all

@[simp] theorem State.memOp_mem (s : State) (kind : ReqKind) (bytes : Nat) (data : Option Token) (t1 t0 : Target) : (State.memOp s kind bytes data t1 t0).mem = s.mem := by
  simp only [State.memOp]
  (repeat' split) <;> simp_all

@[simp] theorem State.lineOp_mem (s : State) (kind : ReqKind) (t1 : Target) : (State.lineOp s kind t1).mem = s.mem := by
  simp only [State.lineOp]
  simp_all

@[simp] theorem State.sendAtomic_wf (s : State) (c sl : Nat) (r : Req) (hm : Memory.wf s.mem = true) : Memory.wf (State.sendAtomic s c sl r).mem = true := by
  simp only [State.sendAtomic]
  split
  · simp only [State.modDie_mem, State.modInst_mem]
    split <;> simp [hm]
  · exact hm

@[simp] theorem State.atomicOp_wf (s : State) (op : AtomicOp) (ar : Option Scope) (ret : Bool) (z : Size) (t1 t0 : Target) (hm : Memory.wf s.mem = true) : Memory.wf (State.atomicOp s op ar ret z t1 t0).mem = true := by
  simp only [State.atomicOp]
  (repeat' split) <;> simp_all

@[simp] theorem State.settle_mem (s : State) (ops : List Token) (t : Term) : (State.settle s ops t).mem = s.mem := by
  simp only [State.settle]
  (repeat' split) <;> simp_all

@[simp] theorem State.onPred_mem (s : State) (ifTrue ifFalse : Term) : (State.onPred s ifTrue ifFalse).mem = s.mem := by
  simp only [State.onPred]
  (repeat' split) <;> simp_all

@[simp] theorem State.onAddress_mem (s : State) (link : Option VAddr) : (State.onAddress s link).mem = s.mem := by
  simp only [State.onAddress]
  (repeat' split) <;> simp_all

theorem State.immediate_mem (s : State) (t1 t0 : Target) (ops : List Token) (f : State → State) (v1 v0 : Token)
    (hf : ∀ s, (f s).mem = s.mem) : (s.immediate t1 t0 ops f v1 v0).mem = s.mem := by
  simp only [State.immediate]
  split <;> simp [hf]

@[simp] theorem State.arriveAt_mem (s : State) (b : BarRef) (drop : Bool) : (State.arriveAt s b drop).mem = s.mem := by
  simp only [State.arriveAt]
  (repeat' split) <;> simp_all

@[simp] theorem State.initRope_mem (s : State) (c g k : Nat) : (State.initRope s c g k).mem = s.mem := by
  simp only [State.initRope]
  (repeat' split) <;> simp_all

@[simp] theorem State.applyBarInit_mem (s : State) (b : BarRef) (k : Nat) : (State.applyBarInit s b k).mem = s.mem := by
  simp only [State.applyBarInit]
  (repeat' split) <;> simp_all

@[simp] theorem State.expectBytes_mem (s : State) (c sl b : Nat) (delta : Int) (arr : Bool) : (State.expectBytes s c sl b delta arr).mem = s.mem := by
  simp only [State.expectBytes]
  (repeat' split) <;> simp_all

@[simp] theorem State.offer_mem (s : State) (d : Nat) (r : TraceRec) : (State.offer s d r).mem = s.mem := by
  simp only [State.offer]
  (repeat' split) <;> simp_all

@[simp] theorem State.acceptTrace_mem (s : State) (d : Nat) (r : TraceRec) : (State.acceptTrace s d r).mem = s.mem := by
  simp only [State.acceptTrace]
  simp_all

@[simp] theorem State.acceptCairn_mem (s : State) (d : Nat) (r : TraceRec) (sl idx : Nat) (t0 : Target) : (State.acceptCairn s d r sl idx t0).mem = s.mem := by
  simp only [State.acceptCairn]
  (repeat' split) <;> simp_all

@[simp] theorem State.acceptOffered_mem (s : State) (d : Nat) (r : TraceRec) : (State.acceptOffered s d r).mem = s.mem := by
  simp only [State.acceptOffered]
  (repeat' split) <;> simp_all

@[simp] theorem State.takeOffered_mem (s : State) (d : Nat) : (State.takeOffered s d).mem = s.mem := by
  simp only [State.takeOffered]
  (repeat' split) <;> simp_all

@[simp] theorem State.settleTraces_mem (s : State) : (State.settleTraces s).mem = s.mem := by
  simp only [State.settleTraces]
  simp_all

@[simp] theorem State.writeHeapReg_mem (s : State) (c sl : Nat) (isSpread : Bool) (v : DWord) : (State.writeHeapReg s c sl isSpread v).mem = s.mem := by
  simp only [State.writeHeapReg]
  simp_all

@[simp] theorem State.sysWrite_mem (s : State) (c sl idx : Nat) (v : DWord) : (State.sysWrite s c sl idx v).mem = s.mem := by
  simp only [State.sysWrite]
  (repeat' split) <;> simp_all

@[simp] theorem State.finishPort_mem (s : State) (c : Nat) (k : EngCmd) (lat : Nat) (v1 v0 : Token) : (State.finishPort s c k lat v1 v0).mem = s.mem := by
  simp only [State.finishPort]
  (repeat' split) <;> simp_all

@[simp] theorem State.refusePort_mem (s : State) (c : Nat) (k : EngCmd) (cause : Cause) (detail : DWord) (v1 : Token) : (State.refusePort s c k cause detail v1).mem = s.mem := by
  simp only [State.refusePort]
  simp_all

@[simp] theorem State.walkedDie_mem (s : State) (w : Accessor) (va bytes : Nat) : (State.walkedDie s w va bytes).mem = s.mem := by
  simp only [State.walkedDie]
  (refine foldl_mem _ (fun s a => ?_) _ _; (repeat' split) <;> simp_all)

@[simp] theorem State.reown_mem (s : State) : (State.reown s).mem = s.mem := by
  simp only [State.reown]

@[simp] theorem State.placeAtomics_mem (s : State) : (State.placeAtomics s).mem = s.mem := by
  rfl

@[simp] theorem State.acceptCopy_wf (s : State) (c : Nat) (k : EngCmd) (coll : Bool) (ch : Nat) (segs : List Seg) (hm : Memory.wf s.mem = true) : Memory.wf (State.acceptCopy s c k coll ch segs).mem = true := by
  simp only [State.acceptCopy]
  (repeat' split) <;> simp_all

@[simp] theorem State.endChannelWait_wf (s : State) (c sl ch code : Nat) (hm : Memory.wf s.mem = true) : Memory.wf (State.endChannelWait s c sl ch code).mem = true := by
  simp only [State.endChannelWait]
  simp_all

@[simp] theorem State.faultWaiters_wf (s : State) (c ch code : Nat) (hm : Memory.wf s.mem = true) : Memory.wf (State.faultWaiters s c ch code).mem = true := by
  simp only [State.faultWaiters]
  simp_all

@[simp] theorem State.wakeChannel_mem (s : State) (c ch : Nat) : (State.wakeChannel s c ch).mem = s.mem := by
  simp only [State.wakeChannel]
  (refine foldl_mem _ (fun s a => ?_) _ _; (repeat' split) <;> simp_all)

@[simp] theorem State.acceptCchan_wf (s : State) (c : Nat) (k : EngCmd) (ch : Nat) (free : Bool) (hm : Memory.wf s.mem = true) : Memory.wf (State.acceptCchan s c k ch free).mem = true := by
  simp only [State.acceptCchan]
  (repeat' split) <;> simp_all

@[simp] theorem State.acceptCwptr_mem (s : State) (c : Nat) (k : EngCmd) (acq : Bool) (ch : Nat) : (State.acceptCwptr s c k acq ch).mem = s.mem := by
  simp only [State.acceptCwptr]
  (repeat' split) <;> simp_all

@[simp] theorem State.stepRecord_wf (s : State) (c ch : Nat) (cp : Copy) (type cause : Nat) (hm : Memory.wf s.mem = true) : Memory.wf (State.stepRecord s c ch cp type cause).mem = true := by
  simp only [State.stepRecord]
  (repeat' split) <;> simp_all

@[simp] theorem State.breakChannel_wf (s : State) (c ch cause : Nat) (hm : Memory.wf s.mem = true) : Memory.wf (State.breakChannel s c ch cause).mem = true := by
  simp only [State.breakChannel]
  (refine foldl_wf _ (fun s a hs => ?_) _ _ ?_ <;> simp_all)

@[simp] theorem State.post_wf (s : State) (r : Report) (hm : Memory.wf s.mem = true) : Memory.wf (State.post s r).mem = true := by
  simp only [State.post]
  (repeat' split) <;> simp_all

@[simp] theorem State.copyFault_wf (s : State) (c ch : Nat) (cp : Copy) (cause : Cause) (va why lvl : Nat) (write : Bool) (hm : Memory.wf s.mem = true) : Memory.wf (State.copyFault s c ch cp cause va why lvl write).mem = true := by
  simp only [State.copyFault]
  (repeat' split) <;> simp_all

@[simp] theorem State.issueRun_wf (s : State) (c ch : Nat) (hm : Memory.wf s.mem = true) : Memory.wf (State.issueRun s c ch).mem = true := by
  simp only [State.issueRun]
  (repeat' split) <;> simp_all

@[simp] theorem State.writeRun_wf (s : State) (d : Nat) (r : CopyRun) (hm : Memory.wf s.mem = true) : Memory.wf (State.writeRun s d r).mem = true := by
  simp only [State.writeRun]
  (repeat' split) <;> simp_all

@[simp] theorem State.performRun_wf (s : State) (c ch n : Nat) (hm : Memory.wf s.mem = true) : Memory.wf (State.performRun s c ch n).mem = true := by
  simp only [State.performRun]
  (repeat' split) <;> simp_all

@[simp] theorem State.acceptMat_wf (s : State) (c : Nat) (k : EngCmd) (kind : MatKind) (a b : Quad) (ctl : DWord) (ra rb : Nat) (hm : Memory.wf s.mem = true) : Memory.wf (State.acceptMat s c k kind a b ctl ra rb).mem = true := by
  simp only [State.acceptMat]
  (repeat' split) <;> simp_all

@[simp] theorem State.acceptMgang_mem (s : State) (c : Nat) (k : EngCmd) (v : DWord) : (State.acceptMgang s c k v).mem = s.mem := by
  simp only [State.acceptMgang]
  (repeat' split) <;> simp_all

@[simp] theorem State.acceptMchan_mem (s : State) (c : Nat) (k : EngCmd) (v : DWord) : (State.acceptMchan s c k v).mem = s.mem := by
  simp only [State.acceptMchan]
  (repeat' split) <;> simp_all

@[simp] theorem State.matrixStep_mem (s : State) (c : Nat) : (State.matrixStep s c).mem = s.mem := by
  simp only [State.matrixStep]
  (repeat' split) <;> simp_all

@[simp] theorem State.mmaComplete_mem (s : State) (c ac : Nat) : (State.mmaComplete s c ac).mem = s.mem := by
  simp only [State.mmaComplete]
  (repeat' split) <;> simp_all

@[simp] theorem State.stWrite_wf (s : State) (q : MatCmd) (pois : Bool) (va : Nat) (bs : List Byte) (hm : Memory.wf s.mem = true) : Memory.wf (State.stWrite s q pois va bs).mem = true := by
  simp only [State.stWrite]
  (repeat' split) <;> simp_all

@[simp] theorem State.maccComplete_wf (s : State) (c ac : Nat) (hm : Memory.wf s.mem = true) : Memory.wf (State.maccComplete s c ac).mem = true := by
  simp only [State.maccComplete]
  (repeat' split) <;> simp_all

@[simp] theorem State.gangComplete_wf (s : State) (d grid rope : Nat) (hm : Memory.wf s.mem = true) : Memory.wf (State.gangComplete s d grid rope).mem = true := by
  simp only [State.gangComplete]
  (repeat' split) <;> first
    | (simp_all; done)
    | (refine foldl_wf _ (fun s a hs => ?_) _ _ ?_ <;> (repeat' split) <;> simp_all; done)

@[simp] theorem State.latchTimeout_wf (s : State) (c sl : Nat) (hm : Memory.wf s.mem = true) : Memory.wf (State.latchTimeout s c sl).mem = true := by
  simp only [State.latchTimeout]
  (repeat' split) <;> simp_all

@[simp] theorem State.acceptTemp_wf (s : State) (c : Nat) (k : EngCmd) (hm : Memory.wf s.mem = true) : Memory.wf (State.acceptTemp s c k).mem = true := by
  simp only [State.acceptTemp]
  (repeat' split) <;> simp_all

@[simp] theorem State.modTemp_mem (s : State) (c : Nat) (f : TempArray → TempArray) : (State.modTemp s c f).mem = s.mem := by
  simp only [State.modTemp]
  simp_all

@[simp] theorem State.tempStart_mem (s : State) (c : Nat) : (State.tempStart s c).mem = s.mem := by
  simp only [State.tempStart]
  (repeat' split) <;> simp_all

@[simp] theorem State.tcapBytes_wf (s : State) (t : Temporal) (segs : List Seg) (ns : List Nat) (hm : Memory.wf s.mem = true) : Memory.wf (State.tcapBytes s t segs ns).mem = true := by
  simp only [State.tcapBytes]
  refine foldl_wf _ (fun s a hs => ?_) _ _ hm
  split
  · exact hs
  · split <;> simpa using State.wr_wf _ _ hs

@[simp] theorem State.tcapWrite_wf (s : State) (t : Temporal) (q : TempCmd) (segs : List Seg) (hm : Memory.wf s.mem = true) : Memory.wf (State.tcapWrite s t q segs).mem = true := by
  simp only [State.tcapWrite]
  (repeat' split) <;> simp_all

@[simp] theorem State.tempUnit_wf (s : State) (c n : Nat) (hm : Memory.wf s.mem = true) : Memory.wf (State.tempUnit s c n).mem = true := by
  simp only [State.tempUnit]
  (repeat' split) <;> simp_all

@[simp] theorem State.tempComplete_wf (s : State) (c : Nat) (hm : Memory.wf s.mem = true) : Memory.wf (State.tempComplete s c).mem = true := by
  simp only [State.tempComplete]
  (repeat' split) <;> simp_all

@[simp] theorem State.tickRecord_wf (s : State) (c : Nat) (hm : Memory.wf s.mem = true) : Memory.wf (State.tickRecord s c).mem = true := by
  simp only [State.tickRecord]
  (repeat' split) <;> simp_all

@[simp] theorem State.tlaunchEnd_wf (s : State) (c : Nat) (mismatch : Bool) (hm : Memory.wf s.mem = true) : Memory.wf (State.tlaunchEnd s c mismatch).mem = true := by
  simp only [State.tlaunchEnd]
  (repeat' split) <;> simp_all

@[simp] theorem State.settleTemporals_wf (s : State) (hm : Memory.wf s.mem = true) : Memory.wf (State.settleTemporals s).mem = true := by
  simp only [State.settleTemporals]
  (refine foldl_wf _ (fun s a hs => ?_) _ _ ?_ <;> (repeat' split) <;> simp_all)

@[simp] theorem State.tickReplan_wf (s : State) (c tick margin : Nat) (hm : Memory.wf s.mem = true) : Memory.wf (State.tickReplan s c tick margin).mem = true := by
  simp only [State.tickReplan]
  (repeat' split) <;> simp_all

@[simp] theorem State.tempReset_wf (s : State) (c : Nat) (hm : Memory.wf s.mem = true) : Memory.wf (State.tempReset s c).mem = true := by
  simp only [State.tempReset]
  (repeat' split) <;> simp_all

@[simp] theorem State.sendHeap_mem (s : State) (c : Nat) (k : EngCmd) (die delay : Nat) (op : HeapOp) : (State.sendHeap s c k die delay op).mem = s.mem := by
  simp only [State.sendHeap]
  simp_all

@[simp] theorem State.sendHandle_mem (s : State) (c : Nat) (k : EngCmd) (handle : Word) (op : HeapOp) : (State.sendHandle s c k handle op).mem = s.mem := by
  simp only [State.sendHandle]
  (repeat' split) <;> simp_all

@[simp] theorem State.acceptHspawn_mem (s : State) (c : Nat) (k : EngCmd) (segs : List Seg) (b : DWord) : (State.acceptHspawn s c k segs b).mem = s.mem := by
  simp only [State.acceptHspawn]
  (repeat' split) <;> simp_all

@[simp] theorem State.acceptHresid_mem (s : State) (c : Nat) (k : EngCmd) : (State.acceptHresid s c k).mem = s.mem := by
  simp only [State.acceptHresid]
  (repeat' split) <;> simp_all

@[simp] theorem State.acceptHself_mem (s : State) (c : Nat) (k : EngCmd) : (State.acceptHself s c k).mem = s.mem := by
  simp only [State.acceptHself]
  (repeat' split) <;> simp_all

@[simp] theorem State.seeCvt_mem (s : State) (c sl : Nat) (a b : DWord) : (State.seeCvt s c sl a b).mem = s.mem := by
  simp only [State.seeCvt]
  (repeat' split) <;> simp_all

@[simp] theorem State.acceptCvt_wf (s : State) (c : Nat) (k : EngCmd) (m : CvtMod) (a b : DWord) (hm : Memory.wf s.mem = true) : Memory.wf (State.acceptCvt s c k m a b).mem = true := by
  simp only [State.acceptCvt]
  (repeat' split) <;> simp_all

@[simp] theorem State.acceptCmd_wf (s : State) (c : Nat) (k : EngCmd) (hm : Memory.wf s.mem = true) : Memory.wf (State.acceptCmd s c k).mem = true := by
  simp only [State.acceptCmd]
  (repeat' split) <;> simp_all

@[simp] theorem State.acceptHead_wf (s : State) (c : Nat) (hm : Memory.wf s.mem = true) : Memory.wf (State.acceptHead s c).mem = true := by
  simp only [State.acceptHead]
  (repeat' split) <;> simp_all

@[simp] theorem State.toPort_wf (s : State) (c : Nat) (k : EngCmd) (hm : Memory.wf s.mem = true) : Memory.wf (State.toPort s c k).mem = true := by
  simp only [State.toPort]
  (repeat' split) <;> simp_all

@[simp] theorem State.engineFor_wf (s : State) (busy : Nat) (t1 t0 : Target) (op : EngOp) (hm : Memory.wf s.mem = true) : Memory.wf (State.engineFor s busy t1 t0 op).mem = true := by
  simp only [State.engineFor]
  simp_all

@[simp] theorem State.engine_wf (s : State) (t1 t0 : Target) (op : EngOp) (hm : Memory.wf s.mem = true) : Memory.wf (State.engine s t1 t0 op).mem = true := by
  simp only [State.engine]
  simp_all

@[simp] theorem State.engineNull_mem (s : State) (t1 t0 : Target) : (State.engineNull s t1 t0).mem = s.mem := by
  simp only [State.engineNull]
  simp_all

@[simp] theorem State.engineOp_wf (s : State) (t1 t0 : Target) (ops : List Token) (op : EngOp) (hm : Memory.wf s.mem = true) : Memory.wf (State.engineOp s t1 t0 ops op).mem = true := by
  simp only [State.engineOp]
  (repeat' split) <;> simp_all

@[simp] theorem State.passAddr_mem (s : State) (segs : List Seg) (ra rb : Nat) : (State.passAddr s segs ra rb).mem = s.mem := by
  simp only [State.passAddr]
  simp_all

@[simp] theorem State.engineAddr_wf (s : State) (t1 t0 : Target) (needs rest : List Token) (check : State → AddrCheck) (op : List Seg → Nat → Nat → EngOp) (hm : Memory.wf s.mem = true) : Memory.wf (State.engineAddr s t1 t0 needs rest check op).mem = true := by
  simp only [State.engineAddr]
  (repeat' split) <;> simp_all

@[simp] theorem State.gainInstr_wf (s : State) (k : Nat) (t1 t0 : Target) (hm : Memory.wf s.mem = true) : Memory.wf (State.gainInstr s k t1 t0).mem = true := by
  simp only [State.gainInstr]
  simp_all

@[simp] theorem State.rearmSerial_mem (s : State) (c sl k : Nat) : (State.rearmSerial s c sl k).mem = s.mem := by
  simp only [State.rearmSerial]
  (repeat' split) <;> simp_all

@[simp] theorem State.abortFrom_mem (s : State) (c sl from_ cause : Nat) (code : BitVec 8) : (State.abortFrom s c sl from_ cause code).mem = s.mem := by
  simp only [State.abortFrom]
  (repeat' split) <;> simp_all

@[simp] theorem State.abortRegion_mem (s : State) (c sl cause : Nat) (code : BitVec 8) : (State.abortRegion s c sl cause code).mem = s.mem := by
  simp only [State.abortRegion]
  (repeat' split) <;> simp_all

@[simp] theorem State.performEntries_wf (s : State) (c : Nat) (ins : List RInput) (es : List RStore) (hm : Memory.wf s.mem = true) : Memory.wf (State.performEntries s c ins es).mem = true := by
  simp only [State.performEntries]
  (refine foldl_wf _ (fun s a hs => ?_) _ _ ?_ <;> simp_all)

@[simp] theorem State.settleTags_mem (s : State) (c sl : Nat) (ins : List RInput) (tags : Tbl (Nat × DWord)) : (State.settleTags s c sl ins tags).mem = s.mem := by
  simp only [State.settleTags]
  (refine foldl_mem _ (fun s a => ?_) _ _; simp_all)

@[simp] theorem State.unlockAll_mem (s : State) (c k : Nat) : (State.unlockAll s c k).mem = s.mem := by
  simp only [State.unlockAll]

@[simp] theorem State.finishCommit_wf (s : State) (c : Nat) (run : CommitRun) (hm : Memory.wf s.mem = true) : Memory.wf (State.finishCommit s c run).mem = true := by
  simp only [State.finishCommit]
  (repeat' split) <;> simp_all

@[simp] theorem State.commitStart_wf (s : State) (c : Nat) (hm : Memory.wf s.mem = true) : Memory.wf (State.commitStart s c).mem = true := by
  simp only [State.commitStart]
  (repeat' split) <;> simp_all

@[simp] theorem State.addLock_mem (s : State) (c k l : Nat) : (State.addLock s c k l).mem = s.mem := by
  simp only [State.addLock]
  simp_all

@[simp] theorem State.restartSerial_mem (s : State) (young old : Nat × Nat) : (State.restartSerial s young old).mem = s.mem := by
  simp only [State.restartSerial]
  (repeat' split) <;> simp_all

@[simp] theorem State.unitWrite_wf (s : State) (root va : Nat) (bs : List Byte) (hm : Memory.wf s.mem = true) : Memory.wf (State.unitWrite s root va bs).mem = true := by
  simp only [State.unitWrite]
  (repeat' split) <;> simp_all

@[simp] theorem State.addDone_wf (s : State) (ctx : Nat) (done : DWord) (hm : Memory.wf s.mem = true) :
    Memory.wf (s.addDone ctx done).1.mem = true := by
  simp only [State.addDone]
  (repeat' split) <;> simp_all

@[simp] theorem State.signal_wf (s : State) (q slot ctx : Nat) (done : DWord) (status : Nat) (hm : Memory.wf s.mem = true) : Memory.wf (State.signal s q slot ctx done status).mem = true := by
  simp only [State.signal]
  simp [State.addDone_wf s ctx done hm]

@[simp] theorem State.dropThread_mem (s : State) (c sl : Nat) : (State.dropThread s c sl).mem = s.mem := by
  simp only [State.dropThread]
  (repeat' split) <;> simp_all

@[simp] theorem State.dropRequests_mem (s : State) (c g : Nat) (slots : List Nat) : (State.dropRequests s c g slots).mem = s.mem := by
  simp only [State.dropRequests]

@[simp] theorem State.orphanCopies_mem (s : State) (lo n : Nat) : (State.orphanCopies s lo n).mem = s.mem := by
  simp only [State.orphanCopies]

@[simp] theorem State.removeGroup_mem (s : State) (c g : Nat) : (State.removeGroup s c g).mem = s.mem := by
  simp only [State.removeGroup]
  simp_all

@[simp] theorem State.freeHeaps_mem (s : State) (gn : Nat) : (State.freeHeaps s gn).mem = s.mem := by
  simp only [State.freeHeaps]

@[simp] theorem State.dropSavedReports_mem (s : State) (gn : Nat) : (State.dropSavedReports s gn).mem = s.mem := by
  simp only [State.dropSavedReports]

@[simp] theorem State.endGrid_wf (s : State) (gn status : Nat) (hm : Memory.wf s.mem = true) : Memory.wf (State.endGrid s gn status).mem = true := by
  simp only [State.endGrid]
  (repeat' split) <;> simp_all

@[simp] theorem State.endContext_wf (s : State) (ctx status : Nat) (hm : Memory.wf s.mem = true) : Memory.wf (State.endContext s ctx status).mem = true := by
  simp only [State.endContext]
  simp_all

@[simp] theorem State.blockRope_mem (s : State) (gn rope : Nat) : (State.blockRope s gn rope).mem = s.mem := by
  simp only [State.blockRope]
  simp_all

theorem heapFailure_ok {kind : Nat} {j : Judged} {w : State} {t : Task} (h : heapFailure kind j = .ok w t) : False := by
  unfold heapFailure at h
  split at h <;> cases h

theorem State.fetchTask_ok {s w : State} {gn : Nat} {hg : HeapGrid} {die idx : Nat} {t : Task}
    (h : s.fetchTask gn hg die idx = .ok w t) : w = s := by
  unfold State.fetchTask at h
  (repeat' split at h) <;> first
    | cases h; done
    | (cases h; rfl)
    | skip
  extract_lets +onlyGivenNames j at h
  clear_value j
  (repeat' split at h) <;> first
    | exact (heapFailure_ok h).elim
    | (cases h; rfl)
    | cases h

theorem State.keepTask_ok {s w : State} {gn : Nat} {hg : HeapGrid} {die idx : Nat} {t t' : Task}
    (h : s.keepTask gn hg die idx t = .ok w t') (hm : Memory.wf s.mem = true) : Memory.wf w.mem = true := by
  unfold State.keepTask at h
  extract_lets was chip t1 put j at h
  clear_value j
  split at h
  · rw [← (HeapAccess.ok.inj h).1]; exact hm
  · split at h
    · rw [← (HeapAccess.ok.inj h).1]; exact State.agentStoreNc_wf _ _ _ _ hm
    · exact (heapFailure_ok h).elim

@[simp] theorem State.stallHeap_wf (s : State) (gn die va : Nat) (detail : DWord) (hm : Memory.wf s.mem = true) : Memory.wf (State.stallHeap s gn die va detail).mem = true := by
  simp only [State.stallHeap]
  simp_all

@[simp] theorem State.heapFail_wf (s : State) (gn die : Nat) (e : HeapAccess) (hm : Memory.wf s.mem = true) :
    Memory.wf (s.heapFail gn die e).mem = true := by
  cases e <;> simp [State.heapFail, hm]

@[simp] theorem State.noteChange_mem (s : State) (gn : Nat) (old new : Task) : (State.noteChange s gn old new).mem = s.mem := by
  simp only [State.noteChange]
  simp_all

theorem State.updateTask_ok {s w : State} {gn : Nat} {hg : HeapGrid} {die idx : Nat} {t t' t'' : Task}
    (h : s.updateTask gn hg die idx t t' = .ok w t'') (hm : Memory.wf s.mem = true) : Memory.wf w.mem = true := by
  simp only [State.updateTask] at h
  split at h
  · next s1 u hk =>
    cases h
    simp [State.keepTask_ok hk hm]
  · next hk => exact absurd h (by intro h'; exact hk _ _ h')

@[simp] theorem State.settleTest_mem (s : State) (gn : Nat) : (State.settleTest s gn).mem = s.mem := by
  simp only [State.settleTest]
  simp_all

@[simp] theorem State.homeClk_mem (s : State) (grid : Nat) : (State.homeClk s grid).mem = s.mem := by
  simp only [State.homeClk]
  (repeat' split) <;> simp_all

@[simp] theorem State.answer_mem (s : State) (r : HeapReq) (v1 v0 : Option DWord) (f : Option DWord) : (State.answer s r v1 v0 f).mem = s.mem := by
  simp only [State.answer]
  simp_all

@[simp] theorem State.refuseHeap_mem (s : State) (r : HeapReq) (code : Nat) (handle : Word) : (State.refuseHeap s r code handle).mem = s.mem := by
  simp only [State.refuseHeap]
  simp_all

@[simp] theorem State.applySpawn_wf (s : State) (gn : Nat) (hg : HeapGrid) (die : Nat) (r : HeapReq) (frame : List Byte) (gain : Word)
    (cnt : Nat) (hm : Memory.wf s.mem = true) : Memory.wf (s.applySpawn gn hg die r frame gain cnt).mem = true := by
  simp only [State.applySpawn]
  (repeat' split) <;> first
    | (simp only [State.heapFail_wf, State.refuseHeap_mem, State.answer_mem, hm]; done)
    | exact hm
    | (rename_i h; simp only [State.answer_mem, State.modDie_mem]; exact State.updateTask_ok h hm)

@[simp] theorem State.applyGain_wf (s : State) (gn : Nat) (hg : HeapGrid) (die : Nat) (r : HeapReq) (k : Nat) (handle v : Word)
    (hm : Memory.wf s.mem = true) : Memory.wf (s.applyGain gn hg die r k handle v).mem = true := by
  simp only [State.applyGain]
  (repeat' split) <;> first
    | (simp only [State.heapFail_wf, State.refuseHeap_mem, State.answer_mem, hm]; done)
    | exact hm
    | (rename_i h _; simp only [State.answer_mem]; exact State.updateTask_ok h hm)

@[simp] theorem State.applyDep_wf (s : State) (gn : Nat) (hg : HeapGrid) (die : Nat) (r : HeapReq) (handle : Word)
    (hm : Memory.wf s.mem = true) : Memory.wf (s.applyDep gn hg die r handle).mem = true := by
  simp only [State.applyDep]
  split
  · split
    · rw [State.refuseHeap_mem]; exact hm
    · split
      · next h =>
        rw [State.answer_mem]
        split
        · rw [State.modDie_mem]; exact State.updateTask_ok h hm
        · exact State.updateTask_ok h hm
      · exact State.heapFail_wf _ _ _ _ hm
  · exact State.heapFail_wf _ _ _ _ hm

@[simp] theorem State.passOn_mem (s : State) (die i : Nat) (r : HeapReq) (handle : Word) : (State.passOn s die i r handle).mem = s.mem := by
  simp only [State.passOn]
  (repeat' split) <;> simp_all

@[simp] theorem State.applyHeapOp_wf (s : State) (die : Nat) (hm : Memory.wf s.mem = true) : Memory.wf (State.applyHeapOp s die).mem = true := by
  simp only [State.applyHeapOp]
  (repeat' split) <;> simp_all

@[simp] theorem State.popTask_wf (s : State) (die : Nat) (hm : Memory.wf s.mem = true) : Memory.wf (s.popTask die).mem = true := by
  simp only [State.popTask]
  (repeat' split) <;> first
    | exact hm
    | (exact State.heapFail_wf _ _ _ _ hm)
    | (rename_i h; exact State.updateTask_ok h hm)
    | (rw [State.modDie_mem]; rename_i h _; exact State.updateTask_ok h hm)

@[simp] theorem State.popAll_wf (s : State) (hm : Memory.wf s.mem = true) : Memory.wf (State.popAll s).mem = true := by
  simp only [State.popAll]
  (repeat' split) <;> simp_all

@[simp] theorem State.createTaskThread_wf (s : State) (die n : Nat) (hm : Memory.wf s.mem = true) :
    Memory.wf (s.createTaskThread die n).mem = true := by
  simp only [State.createTaskThread]
  (repeat' split) <;> simp_all

@[simp] theorem State.settleHeaps_wf (s : State) (hm : Memory.wf s.mem = true) : Memory.wf (State.settleHeaps s).mem = true := by
  unfold State.settleHeaps
  refine foldl_wf _ (fun s a hs => foldl_wf _ (fun s a hs => ?_) _ _ ?_) _ _ (State.popAll_wf s hm)
  · split
    · exact State.createTaskThread_wf _ _ _ hs
    · exact hs
  · exact State.applyHeapOp_wf _ _ hs

theorem State.finishTask_done {s w : State} {c sl : Nat} {bad : Bool} (h : s.finishTask c sl = .done w bad)
    (hm : Memory.wf s.mem = true) : Memory.wf w.mem = true := by
  simp only [State.finishTask] at h
  (repeat' split at h) <;> first
    | (cases h; exact hm)
    | (rename_i hu; cases h; rw [State.modThread_mem]; exact State.updateTask_ok hu hm)
    | cases h
theorem State.finishTask_notYet {s w : State} {c sl : Nat} (h : s.finishTask c sl = .notYet w)
    (hm : Memory.wf s.mem = true) : Memory.wf w.mem = true := by
  simp only [State.finishTask] at h
  (repeat' split at h) <;> first
    | (cases h; exact hm)
    | (cases h; exact State.heapFail_wf _ _ _ _ hm)
    | cases h

@[simp] theorem State.drainWrite_wf (s : State) (die : Nat) (gs : List Seg) (bs : List Byte) (hm : Memory.wf s.mem = true) : Memory.wf (State.drainWrite s die gs bs).mem = true := by
  simp only [State.drainWrite]
  (repeat' split) <;> simp_all

@[simp] theorem State.enableQueue_mem (s : State) (q ctx : Nat) : (State.enableQueue s q ctx).mem = s.mem := by
  simp only [State.enableQueue]
  (repeat' split) <;> simp_all

@[simp] theorem State.disableQueue_mem (s : State) (q : Nat) : (State.disableQueue s q).mem = s.mem := by
  simp only [State.disableQueue]
  (repeat' split) <;> simp_all

@[simp] theorem State.blockStore_mem (s : State) (q off : Nat) (bs : List Byte) : (State.blockStore s q off bs).mem = s.mem := by
  simp only [State.blockStore]
  (repeat' split) <;> simp_all

@[simp] theorem State.startHeaps_wf (s : State) (gn : Nat) (h : HeapGrid) (init : List (Nat × Tbl Task)) (hm : Memory.wf s.mem = true) : Memory.wf (State.startHeaps s gn h init).mem = true := by
  simp only [State.startHeaps]
  rw [State.settleTest_mem]
  refine foldl_wf _ (fun s a hs => foldl_wf _ (fun s a hs => ?_) _ _ hs) _ _ ?_
  · split
    · split
      · exact hs
      · split
        · next h => exact State.keepTask_ok h hs
        · exact State.heapFail_wf _ _ _ _ hs
    · exact hs
  · rw [State.modGrid_mem, foldl_mem _ (fun s a => by simp)]
    exact hm

@[simp] theorem State.launchHead_wf (s : State) (q : Nat) (hm : Memory.wf s.mem = true) : Memory.wf (State.launchHead s q).mem = true := by
  simp only [State.launchHead]
  (repeat' split) <;> simp_all

@[simp] theorem State.keepTemporal_mem (s : State) (c : Nat) : (State.keepTemporal s c).mem = s.mem := by
  simp only [State.keepTemporal]
  (repeat' split) <;> simp_all

@[simp] theorem State.ownTemporal_mem (s : State) (c g : Nat) (r : LaunchRec) (st : Temporal) : (State.ownTemporal s c g r st).mem = s.mem := by
  simp only [State.ownTemporal]
  (repeat' split) <;> simp_all

@[simp] theorem State.createThreads_mem (s : State) (c g : Nat) (r : LaunchRec) : (State.createThreads s c g r).mem = s.mem := by
  simp only [State.createThreads]
  simp_all

@[simp] theorem State.placeFresh_mem (s : State) (c gn lin : Nat) (m : Room) : (State.placeFresh s c gn lin m).mem = s.mem := by
  simp only [State.placeFresh]
  (repeat' split) <;> simp_all

@[simp] theorem State.placeSaved_mem (s : State) (c gn lin : Nat) (m : Room) (v : SavedGroup) : (State.placeSaved s c gn lin m v).mem = s.mem := by
  simp only [State.placeSaved]
  (repeat' split) <;> simp_all

@[simp] theorem State.placeGroup_mem (s : State) (c gn lin : Nat) : (State.placeGroup s c gn lin).mem = s.mem := by
  simp only [State.placeGroup]
  (repeat' split) <;> simp_all

@[simp] theorem State.unblock_mem (s : State) (u : BlockedRef) (cores : List Nat) : (State.unblock s u cores).mem = s.mem := by
  simp only [State.unblock]
  simp_all

@[simp] theorem State.placeUnitAt_mem (s : State) (u : BlockedRef) (first : Nat) : (State.placeUnitAt s u first).mem = s.mem := by
  simp only [State.placeUnitAt]
  simp_all

@[simp] theorem State.chooseVictims_mem (s : State) (vs : List (Nat × Nat)) : (State.chooseVictims s vs).mem = s.mem := by
  simp only [State.chooseVictims]
  (refine foldl_mem _ (fun s a => ?_) _ _; simp_all)

@[simp] theorem State.preemptFor_mem (s : State) (u : BlockedRef) : (State.preemptFor s u).mem = s.mem := by
  simp only [State.preemptFor]
  (repeat' split) <;> simp_all

@[simp] theorem State.gather_mem (s : State) (u : BlockedRef) (first : Nat) : (State.gather s u first).mem = s.mem := by
  simp only [State.gather]
  (repeat' split) <;> simp_all

@[simp] theorem State.cannotPlace_mem (s : State) (u : BlockedRef) (highest : Nat) : (State.cannotPlace s u highest).mem = s.mem := by
  simp only [State.cannotPlace]
  (repeat' split) <;> simp_all

@[simp] theorem State.settleMoving_mem (s : State) : (State.settleMoving s).mem = s.mem := by
  simp only [State.settleMoving]

@[simp] theorem State.renameReports_mem (s : State) (f : Nat × Nat → Nat × Nat) : (State.renameReports s f).mem = s.mem := by
  simp only [State.renameReports]

@[simp] theorem State.migrate_wf (s : State) (c g dst : Nat) (m : Room) (hm : Memory.wf s.mem = true) : Memory.wf (State.migrate s c g dst m).mem = true := by
  unfold State.migrate
  extract_lets +onlyGivenNames x e ts bytes bad s1 s2 slots x' s3 s4 s5 move s6 home s7
  have h3 : s3.mem = s.mem := by
    simp only [s3, State.modCore_mem]
    split <;> (simp only [State.keepTemporal_mem, s2, State.modCore_mem, s1]; exact foldl_mem _ (fun s a => by simp) _ _)
  have h5 : Memory.wf s5.mem = true := by
    apply State.wr_wf
    rw [h3]; exact hm
  have h6 : s6.mem = s5.mem := by
    refine foldl_mem _ (fun s a => ?_) _ _
    obtain ⟨sl, t⟩ := a
    simp only
    split <;> simp
  have h7 : s7.mem = s6.mem := rfl
  simp [h7, h6, h5]

@[simp] theorem State.obey_wf (s : State) (c sl cmd : Nat) (hm : Memory.wf s.mem = true) : Memory.wf (State.obey s c sl cmd).mem = true := by
  simp only [State.obey]
  (repeat' split) <;> simp_all

@[simp] theorem State.command_wf (s : State) (cmd : Nat) (now : Bool) (who : Nat × Nat) (hm : Memory.wf s.mem = true) : Memory.wf (State.command s cmd now who).mem = true := by
  simp only [State.command]
  (repeat' split) <;> simp_all

@[simp] theorem State.reportKey_wf (s : State) (c sl : Nat) (va rec detail : DWord) (hm : Memory.wf s.mem = true) : Memory.wf (State.reportKey s c sl va rec detail).mem = true := by
  simp only [State.reportKey]
  (repeat' split) <;> simp_all

@[simp] theorem State.reportFault_wf (s : State) (c sl : Nat) (tr : Trap) (hm : Memory.wf s.mem = true) : Memory.wf (State.reportFault s c sl tr).mem = true := by
  simp only [State.reportFault]
  (repeat' split) <;> simp_all

@[simp] theorem State.saveLatched_mem (s : State) (c sl : Nat) (w : LatchWait) : (s.saveLatched c sl w).mem = s.mem := by
  simp only [State.saveLatched, State.modThread_mem, State.enterSave_mem, State.modCore_mem, State.modDie_mem]

@[simp] theorem State.saveWaiter_mem (s : State) (c sl : Nat) : (s.saveWaiter c sl).mem = s.mem := by
  unfold State.saveWaiter
  extract_lets +onlyGivenNames t waits
  clear_value waits
  split
  · rfl
  · split
    · exact State.saveFrom_mem _ _ _ _ _ _
    · split
      · exact State.saveLatched_mem _ _ _ _
      · rfl

@[simp] theorem State.settleLatchSaves_mem (s : State) : (State.settleLatchSaves s).mem = s.mem := by
  simp only [State.settleLatchSaves]
  simp_all

@[simp] theorem State.routeTrap_wf (s : State) (c sl : Nat) (tr : Trap) (hm : Memory.wf s.mem = true) : Memory.wf (State.routeTrap s c sl tr).mem = true := by
  simp only [State.routeTrap]
  (repeat' split) <;> simp_all

@[simp] theorem State.performRecord_wf (s : State) (c sl : Nat) (hm : Memory.wf s.mem = true) : Memory.wf (State.performRecord s c sl).mem = true := by
  simp only [State.performRecord]
  (repeat' split) <;> simp_all

theorem State.takeReport_wf {s t : State} {name : Nat} {ks : List Nat} {r : Report} (h : s.takeReport name ks = some (t, r))
    (hm : Memory.wf s.mem = true) : Memory.wf t.mem = true := by
  simp only [State.takeReport] at h
  (repeat' split at h) <;> first | (cases h; done) | (cases h; exact hm)

@[simp] theorem State.resumeCopy_mem (s : State) (c ch : Nat) : (State.resumeCopy s c ch).mem = s.mem := by
  simp only [State.resumeCopy]
  simp_all

@[simp] theorem State.replayCommand_wf (s : State) (name : Nat) (hm : Memory.wf s.mem = true) : Memory.wf (State.replayCommand s name).mem = true := by
  simp only [State.replayCommand]
  split
  · exact hm
  · next h =>
    have h1 := State.takeReport_wf h hm
    split
    · exact foldl_wf _ (fun s a hs => State.command_wf _ _ _ _ hs) _ _ h1
    · split
      · exact foldl_wf _ (fun s a hs => by simpa using hs) _ _ h1
      · exact foldl_wf _ (fun s a hs => by simpa using hs) _ _ h1

@[simp] theorem State.nextCommand_wf (s : State) (name : Nat) (hm : Memory.wf s.mem = true) : Memory.wf (State.nextCommand s name).mem = true := by
  simp only [State.nextCommand]
  split
  · exact hm
  · next h =>
    have h1 := State.takeReport_wf h hm
    split
    · exact foldl_wf _ (fun s a hs => State.command_wf _ _ _ _ hs) _ _ h1
    · exact foldl_wf _ (fun s a hs => State.breakChannel_wf _ _ _ _ hs) _ _ h1

@[simp] theorem State.killCommand_wf (s : State) (name : Nat) (hm : Memory.wf s.mem = true) : Memory.wf (State.killCommand s name).mem = true := by
  simp only [State.killCommand]
  split
  · exact hm
  · next h =>
    have h1 := State.takeReport_wf h hm
    split
    · exact foldl_wf _ (fun s a hs => State.endGrid_wf _ _ _ hs) _ _ h1
    · exact State.endContext_wf _ _ _ h1

@[simp] theorem State.reportHalt_wf (s : State) (c sl : Nat) (hm : Memory.wf s.mem = true) : Memory.wf (State.reportHalt s c sl).mem = true := by
  simp only [State.reportHalt]
  simp_all

@[simp] theorem State.haltGroup_wf (s : State) (core g : Nat) (hm : Memory.wf s.mem = true) : Memory.wf (State.haltGroup s core g).mem = true := by
  simp only [State.haltGroup]
  (repeat' split) <;> simp_all

@[simp] theorem State.resumeGroup_wf (s : State) (c g : Nat) (hm : Memory.wf s.mem = true) : Memory.wf (State.resumeGroup s c g).mem = true := by
  simp only [State.resumeGroup]
  refine foldl_wf _ (fun s a hs => ?_) _ _ (by simpa using hm)
  split
  · exact State.command_wf _ _ _ _ hs
  · exact hs

@[simp] theorem State.resumeSaved_mem (s : State) (gn lin : Nat) : (State.resumeSaved s gn lin).mem = s.mem := by
  simp only [State.resumeSaved]
  (repeat' split) <;> simp_all

@[simp] theorem State.resumeCommand_wf (s : State) (name : Nat) (hm : Memory.wf s.mem = true) : Memory.wf (State.resumeCommand s name).mem = true := by
  simp only [State.resumeCommand]
  split
  · exact hm
  · next h =>
    refine foldl_wf _ (fun s a hs => ?_) _ _ (State.takeReport_wf h hm)
    split
    · exact State.resumeGroup_wf _ _ _ hs
    · simpa using hs

@[simp] theorem State.driverCommand_wf (s : State) (op name : Nat) (hm : Memory.wf s.mem = true) : Memory.wf (State.driverCommand s op name).mem = true := by
  simp only [State.driverCommand]
  (repeat' split) <;> simp_all

@[simp] theorem State.haltControl_wf (s : State) (c g : Nat) (halt : Bool) (hm : Memory.wf s.mem = true) : Memory.wf (State.haltControl s c g halt).mem = true := by
  simp only [State.haltControl]
  (repeat' split) <;> simp_all

@[simp] theorem State.tlbInvalidate_mem (s : State) (ctx vpn count : Nat) : (State.tlbInvalidate s ctx vpn count).mem = s.mem := by
  simp only [State.tlbInvalidate]
  (repeat' split) <;> simp_all

@[simp] theorem State.startSave_mem (s : State) (c sl : Nat) : (State.startSave s c sl).mem = s.mem := by
  simp only [State.startSave]
  (repeat' split) <;> simp_all

@[simp] theorem State.settleSaves_mem (s : State) : (State.settleSaves s).mem = s.mem := by
  simp only [State.settleSaves]
  refine foldl_mem _ (fun s a => foldl_mem _ (fun s b => foldl_mem _ (fun s c => ?_) _ _) _ _) _ _
  split <;> simp

@[simp] theorem State.frameFail_wf (s : State) (c g : Nat) (e : FrameAccess) (hm : Memory.wf s.mem = true) :
    Memory.wf (s.frameFail c g e).mem = true := by
  cases e <;> simp [State.frameFail, hm]

@[simp] theorem State.writeRecords_wf (s : State) (gr : Group) (lins : List Nat) (hm : Memory.wf s.mem = true) :
    Memory.wf (s.writeRecords gr lins).mem = true := by
  unfold State.writeRecords
  exact foldl_wf _ (fun s a hs => State.unitWrite_wf _ _ _ _ hs) _ _ (State.unitWrite_wf _ _ _ _ hm)

@[simp] theorem State.saveComplete_wf (s : State) (c g : Nat) (hm : Memory.wf s.mem = true) : Memory.wf (State.saveComplete s c g).mem = true := by
  unfold State.saveComplete
  extract_lets +onlyGivenNames gr
  split
  · split
    · exact hm
    · split
      · extract_lets +onlyGivenNames e v s0 s1 s2
        rw [State.blockRope_mem, State.modGrid_mem, State.leaveL1_mem, State.removeGroup_mem, State.renameReports_mem]
        exact State.writeRecords_wf _ _ _ hm
      · simp [hm]
  · exact hm

@[simp] theorem State.discardThread_mem (s : State) (c sl : Nat) : (State.discardThread s c sl).mem = s.mem := by
  simp only [State.discardThread]
  (repeat' split) <;> simp_all

@[simp] theorem State.putBack_wf (s : State) (c sl : Nat) (v : SaveInfo) (hm : Memory.wf s.mem = true) : Memory.wf (State.putBack s c sl v).mem = true := by
  simp only [State.putBack]
  (repeat' split) <;> simp_all

@[simp] theorem State.restoreThread_wf (s : State) (c g : Nat) (gr : Group) (v : SavedGroup) (i : Nat) (t : Thread) (rest : List (Nat × Thread)) (hm : Memory.wf s.mem = true) : Memory.wf (State.restoreThread s c g gr v i t rest).mem = true := by
  simp only [State.restoreThread]
  (repeat' split) <;> simp_all

@[simp] theorem State.restoreImage_wf (s : State) (c g : Nat) (gr : Group) (v : SavedGroup) (hm : Memory.wf s.mem = true) : Memory.wf (State.restoreImage s c g gr v).mem = true := by
  simp only [State.restoreImage]
  (repeat' split) <;> simp_all

@[simp] theorem State.restoreEnd_wf (s : State) (c g : Nat) (gr : Group) (hm : Memory.wf s.mem = true) : Memory.wf (State.restoreEnd s c g gr).mem = true := by
  unfold State.restoreEnd
  extract_lets +onlyGivenNames s1 s2 s3
  rw [State.settleRope_mem, State.modCore_mem]
  refine foldl_wf _ (fun s a hs => ?_) _ _ (foldl_wf _ (fun s a hs => ?_) _ _ (by simpa [s1] using hm))
  · split
    · rw [State.fileNow_mem]; exact hs
    · exact hs
  · split
    · exact State.putBack_wf _ _ _ _ hs
    · exact hs

@[simp] theorem State.restoreSaved_wf (s : State) (c g : Nat) (v : SavedGroup) (hm : Memory.wf s.mem = true) :
    Memory.wf (s.restoreSaved c g v).mem = true := by
  simp only [State.restoreSaved]
  (repeat' split) <;> simp [hm]

@[simp] theorem State.restoreDiscarded_wf (s : State) (c g : Nat) (hm : Memory.wf s.mem = true) : Memory.wf (State.restoreDiscarded s c g).mem = true := by
  simp only [State.restoreDiscarded]
  (repeat' split) <;> simp_all

@[simp] theorem State.lossRecord_mem (s : State) (c k : Nat) : (State.lossRecord s c k).mem = s.mem := by
  simp only [State.lossRecord]
  (repeat' split) <;> simp_all

@[simp] theorem State.closeCtx_mem (s : State) (c k : Nat) (forced : Bool) : (State.closeCtx s c k forced).mem = s.mem := by
  simp only [State.closeCtx]
  simp_all

@[simp] theorem State.settleClosures_mem (s : State) : s.settleClosures.mem = s.mem := by
  unfold State.settleClosures
  refine foldl_mem _ (fun s a => foldl_mem _ (fun s b => ?_) _ _) _ _
  simp only
  split <;> simp

@[simp] theorem State.settleFetches_mem (s : State) : (State.settleFetches s).mem = s.mem := by
  simp only [State.settleFetches]

@[simp] theorem State.rejectBlock_mem (s : State) (c k b : Nat) (cause : Cause) (va : Nat) (detail : DWord) (addr next : VAddr) : (State.rejectBlock s c k b cause va detail addr next).mem = s.mem := by
  simp only [State.rejectBlock]
  simp_all

@[simp] theorem State.admitInto_mem (s : State) (c sl k : Nat) (b : Block) : (s.admitInto c sl k b).mem = s.mem := by
  unfold State.admitInto
  extract_lets +onlyGivenNames s1 s2 s3
  have h3 : s3.mem = s.mem := by simp only [s3, s2, s1, State.modCore_mem, State.modThread_mem, State.modGroup_mem]
  split
  · rw [State.modDie_mem, h3]
  · exact (foldl_mem _ (fun s a => by simp) _ _).trans h3

@[simp] theorem State.refuseAdmission_mem (s : State) (c sl : Nat) (b : Block) (cause : Cause) (va detail : DWord) : (State.refuseAdmission s c sl b cause va detail).mem = s.mem := by
  simp only [State.refuseAdmission]
  simp_all

@[simp] theorem State.regionAdmission_mem (s : State) (c sl k : Nat) (b : Block) : (State.regionAdmission s c sl k b).mem = s.mem := by
  simp only [State.regionAdmission]
  (repeat' split) <;> simp_all

@[simp] theorem State.failFault_mem (s : State) (c sl : Nat) (next : VAddr) (ret : Bool) : (State.failFault s c sl next ret).mem = s.mem := by
  simp only [State.failFault]
  (repeat' split) <;> simp_all

@[simp] theorem State.admitOne_mem (s : State) (c : Nat) : (State.admitOne s c).mem = s.mem := by
  simp only [State.admitOne]
  (repeat' split) <;> simp_all

@[simp] theorem State.admitThread_mem (s : State) (c : Nat) : (State.admitThread s c).mem = s.mem := by
  simp only [State.admitThread]
  (repeat' split) <;> simp_all

@[simp] theorem State.fetched_mem (s : State) (c : Nat) (f : Fetch) : (s.fetched c f).mem = s.mem := by
  unfold State.fetched
  extract_lets w
  rw [State.cacheLines_mem, foldl_mem _ ?_, State.walked_mem]
  intro u l
  split
  · split
    · rfl
    · rw [State.dirGrant_mem, State.touchOther_mem]
  · exact State.takeLine_mem _ _ _ _ _

@[simp] theorem State.completeConfig_mem (s : State) (c : Nat) : (State.completeConfig s c).mem = s.mem := by
  simp only [State.completeConfig]
  (repeat' split) <;> simp_all

@[simp] theorem State.setPeriod_mem (s : State) (c p : Nat) : (State.setPeriod s c p).mem = s.mem := by
  simp only [State.setPeriod]
  (repeat' split) <;> simp_all

@[simp] theorem State.clearEnergy_mem (s : State) (k : Nat) : (State.clearEnergy s k).mem = s.mem := by
  simp only [State.clearEnergy]

@[simp] theorem State.mregPut_wf (s : State) (r : MReg) (v : DWord) (low high : Bool) (hm : Memory.wf s.mem = true) : Memory.wf (State.mregPut s r v low high).mem = true := by
  unfold State.mregPut
  cases r <;> simp only [] <;> (repeat' split) <;> first
    | exact hm
    | (simp; exact hm)
    | (apply State.driverCommand_wf; exact hm)
    | (apply State.haltControl_wf; exact hm)
    | (apply State.tempReset_wf; exact hm)

@[simp] theorem State.mregWrite_wf (s : State) (r : MReg) (v : DWord) (hm : Memory.wf s.mem = true) : Memory.wf (State.mregWrite s r v).mem = true := by
  simp only [State.mregWrite]
  (repeat' split) <;> simp_all

@[simp] theorem State.deviceWrite_wf (s : State) (pa : Nat) (bs : List Byte) (hm : Memory.wf s.mem = true) : Memory.wf (State.deviceWrite s pa bs).mem = true := by
  rw [State.deviceWrite.eq_def]
  split
  · exact hm
  · apply State.mregPut_wf
    exact hm

@[simp] theorem State.failWalk_mem (s : State) (c sl idx : Nat) (cause : Cause) (why lvl : Nat) : (State.failWalk s c sl idx cause why lvl).mem = s.mem := by
  simp only [State.failWalk]
  (repeat' split) <;> simp_all

@[simp] theorem State.resumeReq_mem (s : State) (c sl idx : Nat) : (State.resumeReq s c sl idx).mem = s.mem := by
  simp only [State.resumeReq]
  (repeat' split) <;> simp_all

@[simp] theorem State.walkComplete_mem (s : State) (d asp vpn : Nat) : (State.walkComplete s d asp vpn).mem = s.mem := by
  simp only [State.walkComplete]
  (repeat' split) <;> simp_all

theorem State.readStep_wait {s w : State} {c sl epoch : Nat} {home l1 acq : Bool} {va : DWord} {bytes : Nat} {segs : List Seg} {mt : MemType}
    {got : List (Byte × Bool)} (h : s.readStep c sl epoch home l1 acq va bytes segs mt got = .wait w) : w.mem = s.mem := by
  simp only [State.readStep] at h
  (repeat' split at h) <;> (cases h; try simp)
theorem State.readStep_part {s w : State} {c sl epoch : Nat} {home l1 acq : Bool} {va : DWord} {bytes : Nat} {segs : List Seg} {mt : MemType}
    {got g : List (Byte × Bool)} (h : s.readStep c sl epoch home l1 acq va bytes segs mt got = .part w g) : w.mem = s.mem := by
  simp only [State.readStep] at h
  (repeat' split at h) <;> (cases h; try simp)
theorem State.readStep_done {s w : State} {c sl epoch : Nat} {home l1 acq : Bool} {va : DWord} {bytes : Nat} {segs : List Seg} {mt : MemType}
    {got : List (Byte × Bool)} {b : Option (List Byte)}
    (h : s.readStep c sl epoch home l1 acq va bytes segs mt got = .done w b) : w.mem = s.mem := by
  simp only [State.readStep] at h
  (repeat' split at h) <;> (cases h; try simp)

@[simp] theorem State.poisonLoad_mem (s : State) (c sl : Nat) (r : Req) : (State.poisonLoad s c sl r).mem = s.mem := by
  simp only [State.poisonLoad]
  simp_all

@[simp] theorem State.finishLoad_mem (s : State) (c sl : Nat) (r : Req) (v : Nat) (tag : Option (Nat × DWord)) : (State.finishLoad s c sl r v tag).mem = s.mem := by
  simp only [State.finishLoad]
  simp_all

@[simp] theorem State.serialLoad_mem (s : State) (c sl k : Nat) (g : Region) (r : Req) : (State.serialLoad s c sl k g r).mem = s.mem := by
  simp only [State.serialLoad]
  (repeat' split) <;> simp_all

@[simp] theorem State.regionLoad_mem (s : State) (c sl k : Nat) (g : Region) (r : Req) : (s.regionLoad c sl k g r).mem = s.mem := by
  simp only [State.regionLoad]
  (repeat' split) <;> simp

@[simp] theorem State.loadReturn_mem (s : State) (c sl idx : Nat) : (s.loadReturn c sl idx).mem = s.mem := by
  unfold State.loadReturn
  (repeat' split) <;> first
    | rfl
    | (simp; done)
    | (next h => simp [State.readStep_wait h]; done)
    | (next h => simp [State.readStep_part h]; done)
    | (next h => simp [State.readStep_done h]; done)
    | (next h _ => simp [State.readStep_done h]; done)

@[simp] theorem State.fillSlots_mem (s : State) (c sl : Nat) (d : Deferred) (v : DWord) : (State.fillSlots s c sl d v).mem = s.mem := by
  simp only [State.fillSlots]
  (repeat' split) <;> simp_all

@[simp] theorem State.answerDeferred_mem (s : State) (c sl pos : Nat) (d : Deferred) (v : Option DWord) : (State.answerDeferred s c sl pos d v).mem = s.mem := by
  simp only [State.answerDeferred]
  (repeat' split) <;> simp_all

@[simp] theorem State.deferredFill_mem (s : State) (c sl pos : Nat) : (s.deferredFill c sl pos).mem = s.mem := by
  unfold State.deferredFill
  (repeat' split) <;> first
    | rfl
    | (simp; done)
    | (next h => simp [State.readStep_wait h]; done)
    | (next h => simp [State.readStep_part h]; done)
    | (next h => simp [State.readStep_done h]; done)

@[simp] theorem State.storeSend_mem (s : State) (c sl : Nat) : (State.storeSend s c sl).mem = s.mem := by
  simp only [State.storeSend]
  (repeat' split) <;> simp_all

@[simp] theorem State.ackEntry_mem (s : State) (c sl pos : Nat) : (State.ackEntry s c sl pos).mem = s.mem := by
  simp only [State.ackEntry]
  simp_all

theorem State.performEntry_wait {s w : State} {c : Nat} {e : BufEntry} (h : s.performEntry c e = .wait w)
    (hm : Memory.wf s.mem = true) : Memory.wf w.mem = true := by
  simp only [State.performEntry, State.deviceEntry] at h
  (repeat' split at h) <;> first
    | (cases h; done)
    | (cases h; simp [hm]; done)
    | (cases h; refine State.performStoreNc_wf _ _ _ _ ?_; rw [State.keepOld_mem]; split <;> simp [hm]; done)
    | (cases h; exact State.deviceWrite_wf _ _ _ hm)

theorem State.performEntry_part {s w : State} {c : Nat} {e : BufEntry} (h : s.performEntry c e = .part w)
    (hm : Memory.wf s.mem = true) : Memory.wf w.mem = true := by
  simp only [State.performEntry, State.deviceEntry] at h
  (repeat' split at h) <;> first
    | (cases h; done)
    | (cases h; simp [hm]; done)
    | (cases h; refine State.performStoreNc_wf _ _ _ _ ?_; rw [State.keepOld_mem]; split <;> simp [hm]; done)
    | (cases h; exact State.deviceWrite_wf _ _ _ hm)

theorem State.performEntry_done {s w : State} {c : Nat} {e : BufEntry} (h : s.performEntry c e = .done w)
    (hm : Memory.wf s.mem = true) : Memory.wf w.mem = true := by
  simp only [State.performEntry, State.deviceEntry] at h
  (repeat' split at h) <;> first
    | (cases h; done)
    | (cases h; simp [hm]; done)
    | (cases h; refine State.performStoreNc_wf _ _ _ _ ?_; rw [State.keepOld_mem]; split <;> simp [hm]; done)
    | (cases h; exact State.deviceWrite_wf _ _ _ hm)

@[simp] theorem State.storeAck_wf (s : State) (c sl pos : Nat) (hm : Memory.wf s.mem = true) : Memory.wf (State.storeAck s c sl pos).mem = true := by
  unfold State.storeAck
  split
  · exact hm
  · split
    · exact hm
    · split
      · simp [hm]
      · split
        · next h => exact State.performEntry_wait h hm
        · next h => simpa using State.performEntry_part h hm
        · next h => split <;> simp [State.performEntry_done h hm]

@[simp] theorem State.emitDue_mem (s : State) (c sl idx : Nat) (port : Bool) : (State.emitDue s c sl idx port).mem = s.mem := by
  simp only [State.emitDue]
  (repeat' split) <;> simp_all

@[simp] theorem State.performAtomic_wf (s : State) (q : AtomicReq) (hm : Memory.wf s.mem = true) :
    Memory.wf (s.performAtomic q).1.mem = true := by
  simp only [State.performAtomic]
  (repeat' split) <;> simp_all

@[simp] theorem State.tileObtain_mem (s : State) (die : Nat) (q : AtomicReq) : (State.tileObtain s die q).1.mem = s.mem := by
  unfold State.tileObtain
  extract_lets +onlyGivenNames lines ob
  split
  · exact (foldl_mem _ (fun s l => by simp) _ _).trans (by simp [ob])
  · simp [ob]

@[simp] theorem State.tilePerform_wf (s : State) (die tile : Nat) (hm : Memory.wf s.mem = true) :
    Memory.wf (s.tilePerform die tile).mem = true := by
  unfold State.tilePerform
  split
  · exact hm
  · extract_lets +onlyGivenNames first
    clear_value first
    split
    · exact hm
    · extract_lets +onlyGivenNames ob
      have ho : Memory.wf ob.1.mem = true := by simpa [ob] using hm
      split
      · exact ho
      · rw [State.modDie_mem]
        exact State.performAtomic_wf _ _ ho

@[simp] theorem State.atomicReturn_mem (s : State) (c sl idx : Nat) : (State.atomicReturn s c sl idx).mem = s.mem := by
  simp only [State.atomicReturn]
  (repeat' split) <;> simp_all

@[simp] theorem State.eretDecide_mem (s : State) (c sl : Nat) (x : Inst) (r : Req) (bs? : Option (List Byte)) : (State.eretDecide s c sl x r bs?).mem = s.mem := by
  simp only [State.eretDecide]
  (repeat' split) <;> simp_all

@[simp] theorem State.eretReturn_mem (s : State) (c sl : Nat) : (s.eretReturn c sl).mem = s.mem := by
  unfold State.eretReturn
  (repeat' split) <;> first
    | rfl
    | (simp; done)
    | (next h => simp [State.readStep_wait h]; done)
    | (next h => simp [State.readStep_part h]; done)
    | (next h => simp [State.readStep_done h]; done)

@[simp] theorem State.endUnanswered_mem (s : State) (c sl : Nat) (u : Unanswered) (away : Nat → Bool) : (State.endUnanswered s c sl u away).mem = s.mem := by
  simp only [State.endUnanswered]
  (repeat' split) <;> simp_all

@[simp] theorem State.writeLive_mem (s : State) (c sl : Nat) (ws : List LiveOut) : (State.writeLive s c sl ws).mem = s.mem := by
  simp only [State.writeLive]
  (repeat' split) <;> simp_all

@[simp] theorem State.commitRegionBuf_mem (s : State) (c sl k : Nat) : (State.commitRegionBuf s c sl k).mem = s.mem := by
  simp only [State.commitRegionBuf]
  simp_all

@[simp] theorem State.commitEffects_mem (s : State) (c sl : Nat) (x : Inst) : (State.commitEffects s c sl x).mem = s.mem := by
  simp only [State.commitEffects]
  (repeat' split) <;> simp_all

@[simp] theorem State.leaveContext_mem (s : State) (c sl k : Nat) : (State.leaveContext s c sl k).mem = s.mem := by
  simp only [State.leaveContext]
  simp_all

@[simp] theorem State.clearValid_wf (s : State) (c sl : Nat) (hm : Memory.wf s.mem = true) : Memory.wf (State.clearValid s c sl).mem = true := by
  simp only [State.clearValid]
  (repeat' split) <;> simp_all

@[simp] theorem State.noteNext_mem (s : State) (c sl : Nat) (b : Block) (a : VAddr) : (State.noteNext s c sl b a).mem = s.mem := by
  simp only [State.noteNext]
  simp_all

@[simp] theorem State.haltThread_wf (s : State) (c sl : Nat) (next : VAddr) (hm : Memory.wf s.mem = true) : Memory.wf (State.haltThread s c sl next).mem = true := by
  simp only [State.haltThread]
  (repeat' split) <;> simp_all

@[simp] theorem State.moveTo_mem (s : State) (c sl : Nat) (b : Block) (a : VAddr) : (State.moveTo s c sl b a).mem = s.mem := by
  simp only [State.moveTo]
  simp_all

@[simp] theorem State.terminate_wf (s : State) (c sl : Nat) (x : Inst) (b : Block) (hm : Memory.wf s.mem = true) : Memory.wf (State.terminate s c sl x b).mem = true := by
  simp only [State.terminate]
  (repeat' split) <;> simp_all

@[simp] theorem State.faultAtCommit_mem (s : State) (c sl : Nat) (x : Inst) (b : Block) (f : ThreadFault) : (State.faultAtCommit s c sl x b f).mem = s.mem := by
  simp only [State.faultAtCommit]
  (repeat' split) <;> simp_all

@[simp] theorem State.commitInst_wf (s : State) (c sl : Nat) (x : Inst) (hm : Memory.wf s.mem = true) : Memory.wf (State.commitInst s c sl x).mem = true := by
  simp only [State.commitInst]
  (repeat' split) <;> simp_all

@[simp] theorem State.blockCommit_wf (s : State) (c sl : Nat) (hm : Memory.wf s.mem = true) : Memory.wf (State.blockCommit s c sl).mem = true := by
  simp only [State.blockCommit]
  (repeat' split) <;> simp_all

@[simp] theorem State.squashedEnd_mem (s : State) (c sl : Nat) : (State.squashedEnd s c sl).mem = s.mem := by
  simp only [State.squashedEnd]
  (repeat' split) <;> simp_all

@[simp] theorem State.retireBars_mem (s : State) (c sl : Nat) : (s.retireBars c sl).mem = s.mem := by
  simp only [State.retireBars]
  split
  · rw [State.modGroup_mem]
    exact foldl_mem _ (fun w b => by split <;> simp) _ _
  · rw [State.arriveRope_mem, State.modGroup_mem]
    exact foldl_mem _ (fun w b => by split <;> simp) _ _

@[simp] theorem State.freeSlot_mem (s : State) (c sl : Nat) : (State.freeSlot s c sl).mem = s.mem := by
  simp only [State.freeSlot]
  simp_all

@[simp] theorem State.threadRetire_wf (s : State) (c sl : Nat) (hm : Memory.wf s.mem = true) : Memory.wf (s.threadRetire c sl).mem = true := by
  simp only [State.threadRetire]
  split
  · exact hm
  · split
    · simp [hm]
    · split
      · next h => exact State.finishTask_notYet h hm
      · next h => simp [State.finishTask_done h hm]
      · next h => split <;> simp [State.finishTask_done h hm]

@[simp] theorem State.barrierTimeout_mem (s : State) (c g bar : Nat) : (State.barrierTimeout s c g bar).mem = s.mem := by
  simp only [State.barrierTimeout]
  (repeat' split) <;> simp_all

@[simp] theorem State.ropeRestart_mem (s : State) (c g : Nat) : (s.ropeRestart c g).mem = s.mem := by
  simp only [State.ropeRestart]
  refine (foldl_mem _ (fun s a => ?_) _ _).trans ((foldl_mem _ (fun s a => ?_) _ _).trans ?_) <;> simp

@[simp] theorem State.ropeComplete_mem (s : State) (gn rope : Nat) : (State.ropeComplete s gn rope).mem = s.mem := by
  simp only [State.ropeComplete]
  (repeat' split) <;> simp_all

@[simp] theorem State.dropLate_mem (s : State) (h : Nat) : (State.dropLate s h).mem = s.mem := by
  simp only [State.dropLate]
  (repeat' split) <;> simp_all

@[simp] theorem State.grantLine_mem (s : State) (h : Nat) (pos : Nat) (r : DirReq) : (State.grantLine s h pos r).mem = s.mem := by
  simp only [State.grantLine]
  simp_all

@[simp] theorem State.directory_mem (s : State) (h : Nat) : (State.directory s h).mem = s.mem := by
  simp only [State.directory]
  (repeat' split) <;> first
    | (simp_all; done)
    | (refine foldl_mem _ (fun s a => ?_) _ _; simp_all; done)

@[simp] theorem State.probeAnswer_mem (s : State) (d : Nat) : (State.probeAnswer s d).mem = s.mem := by
  simp only [State.probeAnswer]
  (repeat' split) <;> simp_all

@[simp] theorem State.poisonLines_mem (s : State) (h : Nat) (lines : List Nat) : (State.poisonLines s h lines).mem = s.mem := by
  simp only [State.poisonLines]
  simp_all

@[simp] theorem State.homeForgets_mem (s : State) (h d : Nat) : (State.homeForgets s h d).mem = s.mem := by
  simp only [State.homeForgets]
  simp_all

@[simp] theorem State.hostForgets_mem (s : State) (port d : Nat) : (State.hostForgets s port d).mem = s.mem := by
  simp only [State.hostForgets]
  simp_all

@[simp] theorem State.dieDead_mem (s : State) (d : Nat) : (State.dieDead s d).mem = s.mem := by
  simp only [State.dieDead]
  (repeat' split) <;> simp_all

@[simp] theorem State.markGone_mem (s : State) (a : Nat) : (State.markGone s a).mem = s.mem := by
  simp only [State.markGone]
  simp_all

@[simp] theorem State.agentDead_mem (s : State) (a : Nat) : (State.agentDead s a).mem = s.mem := by
  simp only [State.agentDead]
  (repeat' split) <;> simp_all

@[simp] theorem State.peerReport_mem (s : State) (n : Nat) (inc : BitVec 16) : (State.peerReport s n inc).mem = s.mem := by
  simp only [State.peerReport]
  (repeat' split) <;> simp_all

@[simp] theorem State.countLink_mem (s : State) (d peer : Nat) : (State.countLink s d peer).mem = s.mem := by
  simp only [State.countLink]
  simp_all

@[simp] theorem State.endGridLost_mem (s : State) (gn : Nat) : (State.endGridLost s gn).mem = s.mem := by
  simp only [State.endGridLost]
  simp_all

@[simp] theorem State.failover_wf (s : State) (hm : Memory.wf s.mem = true) : Memory.wf (State.failover s).mem = true := by
  simp only [State.failover]
  (repeat' split) <;> simp_all

@[simp] theorem State.writeTrace_wf (s : State) (d : Nat) (r : TraceRec) (hm : Memory.wf s.mem = true) : Memory.wf (State.writeTrace s d r).mem = true := by
  simp only [State.writeTrace]
  simp_all

@[simp] theorem State.writeGap_wf (s : State) (d : Nat) (hm : Memory.wf s.mem = true) : Memory.wf (State.writeGap s d).mem = true := by
  simp only [State.writeGap]
  (repeat' split) <;> simp_all

@[simp] theorem State.traceHead_wf (s : State) (d : Nat) (hm : Memory.wf s.mem = true) : Memory.wf (State.traceHead s d).mem = true := by
  simp only [State.traceHead]
  (repeat' split) <;> simp_all

@[simp] theorem State.sampleTake_mem (s : State) (c : Nat) : (State.sampleTake s c).mem = s.mem := by
  simp only [State.sampleTake]
  (repeat' split) <;> simp_all

@[simp] theorem State.chargeEnergy_mem (s : State) (d : Nat) : (State.chargeEnergy s d).mem = s.mem := by
  simp only [State.chargeEnergy]
  (repeat' split) <;> simp_all

@[simp] theorem State.setHold_mem (s : State) (d temp : Nat) (on : Bool) : (State.setHold s d temp on).mem = s.mem := by
  simp only [State.setHold]
  (repeat' split) <;> simp_all

@[simp] theorem State.outPerform_wf (s : State) (r : OutReq) (hm : Memory.wf s.mem = true) : Memory.wf (State.outPerform s r).mem = true := by
  simp only [State.outPerform]
  (repeat' split) <;> simp_all

theorem State.hostDrain_wf (l : List OutReq) : ∀ (s : State) (wait : List OutReq),
    Memory.wf s.mem = true → Memory.wf (s.hostDrain l wait).mem = true := by
  induction l with
  | nil => intro s wait hm; exact hm
  | cons w t ih =>
    intro s wait hm
    rw [State.hostDrain]
    split
    · exact ih _ _ hm
    · extract_lets +onlyGivenNames ob
      have ho : Memory.wf ob.1.mem = true := by simpa [ob] using hm
      split
      · exact ih _ _ (State.outPerform_wf _ _ ho)
      · exact ih _ _ ho

@[simp] theorem State.settleHosts_wf (s : State) (hm : Memory.wf s.mem = true) : Memory.wf s.settleHosts.mem = true :=
  State.hostDrain_wf _ _ _ hm

@[simp] theorem State.outer_wf (s : State) (r : OutReq) (hm : Memory.wf s.mem = true) : Memory.wf (State.outer s r).mem = true := by
  simp only [State.outer]
  (repeat' split) <;> simp_all

@[simp] theorem State.hostStore_wf (s : State) (pa : Nat) (bs : List Byte) (hm : Memory.wf s.mem = true) : Memory.wf (State.hostStore s pa bs).mem = true := by
  simp only [State.hostStore]
  (repeat' split) <;> simp_all

theorem State.blockStores_wf (fuel : Nat) : ∀ (off : Nat) (bs : List Byte) (s : State),
    Memory.wf s.mem = true → Memory.wf (State.blockStores fuel off bs s).mem = true := by
  induction fuel with
  | zero => intro off bs s hm; exact hm
  | succ n ih =>
    intro off bs s hm
    rw [State.blockStores]
    split
    · exact hm
    · exact ih _ _ _ (by simpa using hm)

@[simp] theorem State.windowStore_wf (s : State) (off : Nat) (bs : List Byte) (hm : Memory.wf s.mem = true) : Memory.wf (State.windowStore s off bs).mem = true := by
  simp only [State.windowStore]
  split
  · exact hm
  · refine State.blockStores_wf _ _ _ _ ?_
    split
    · exact hm
    · exact State.wr_wf _ _ hm

@[simp] theorem State.slotParity_mem (s : State) (c sl n : Nat) : (State.slotParity s c sl n).mem = s.mem := by
  simp only [State.slotParity]
  simp_all

@[simp] theorem State.softError_mem (s : State) (d loc : Nat) (corrected : Bool) : (State.softError s d loc corrected).mem = s.mem := by
  simp only [State.softError]
  (repeat' split) <;> simp_all

@[simp] theorem State.directoryError_mem (s : State) (h line : Nat) : (State.directoryError s h line).mem = s.mem := by
  simp only [State.directoryError]
  simp_all

@[simp] theorem State.filterError_mem (s : State) (d line : Nat) : (State.filterError s d line).mem = s.mem := by
  simp only [State.filterError]
  (repeat' split) <;> simp_all

@[simp] theorem State.heapError_wf (s : State) (d gn : Nat) (hm : Memory.wf s.mem = true) : Memory.wf (State.heapError s d gn).mem = true := by
  simp only [State.heapError]
  (repeat' split) <;> simp_all

@[simp] theorem State.l1Parity_mem (s : State) (c line : Nat) (dirty : Bool) : (State.l1Parity s c line dirty).mem = s.mem := by
  simp only [State.l1Parity]
  (repeat' split) <;> simp_all

@[simp] theorem State.flipToken_mem (s : State) (c sl port bit : Nat) : (State.flipToken s c sl port bit).mem = s.mem := by
  simp only [State.flipToken]
  (repeat' split) <;> simp_all

@[simp] theorem State.flipResult_mem (s : State) (c sl idx bit : Nat) (live : Bool) : (State.flipResult s c sl idx bit live).mem = s.mem := by
  simp only [State.flipResult]
  (repeat' split) <;> simp_all

@[simp] theorem State.flipAcc_mem (s : State) (c acc elem bit : Nat) : (State.flipAcc s c acc elem bit).mem = s.mem := by
  simp only [State.flipAcc]
  (repeat' split) <;> simp_all

@[simp] theorem State.flipCopy_wf (s : State) (c ch n loc bit : Nat) (hm : Memory.wf s.mem = true) : Memory.wf (State.flipCopy s c ch n loc bit).mem = true := by
  simp only [State.flipCopy]
  (repeat' split) <;> simp_all

@[simp] theorem State.flitRetry_mem (s : State) (d peer : Nat) : (State.flitRetry s d peer).mem = s.mem := by
  simp only [State.flitRetry]
  split <;> rfl

@[simp] theorem State.flitSent_mem (s : State) (d peer : Nat) : (State.flitSent s d peer).mem = s.mem := by
  simp only [State.flitSent]
  (repeat' split) <;> simp_all

@[simp] theorem State.acceptQueued_wf (s : State) (c sl idx : Nat) (hm : Memory.wf s.mem = true) : Memory.wf (State.acceptQueued s c sl idx).mem = true := by
  unfold State.acceptQueued
  (repeat' split) <;> first
    | exact hm
    | (simp; exact hm)
    | (apply State.sendAtomic_wf; simpa using hm)

@[simp] theorem State.settleMemPorts_wf (s : State) (hm : Memory.wf s.mem = true) : Memory.wf (State.settleMemPorts s).mem = true := by
  unfold State.settleMemPorts
  exact foldl_wf _ (fun s a hs => foldl_wf _ (fun s b hs => State.acceptQueued_wf _ _ _ _ hs) _ _ (by simpa using hs)) _ _ hm

@[simp] theorem State.settleBars_mem (s : State) : (State.settleBars s).mem = s.mem := by
  simp only [State.settleBars]
  (refine foldl_mem _ (fun s a => ?_) _ _; simp_all)

@[simp] theorem State.takeSamples_mem (s : State) : (State.takeSamples s).mem = s.mem := by
  simp only [State.takeSamples]
  simp_all

@[simp] theorem State.endClk_mem (s : State) : (State.endClk s).mem = s.mem := by
  simp only [State.endClk]

@[simp] theorem State.tick_wf (s : State) (hm : Memory.wf s.mem = true) : Memory.wf s.tick.mem = true := by
  have h1 := State.settleHosts_wf _ (State.settleHeaps_wf s hm)
  have h2 : Memory.wf (s.settleHeaps.settleHosts.settleLatchSaves.settleSaves.settleFilings.settleBars.takeSamples.settleFetches.settleClosures.settleMoving).mem = true := by
    simpa using h1
  have h3 := State.settleTemporals_wf _ h2
  simp only [State.tick]
  apply State.settleMemPorts_wf
  simpa using h3

@[simp] theorem State.placeWord_mem (s : State) (w : Word) : (State.placeWord s w).mem = s.mem := by
  simp only [State.placeWord]
  simp_all

@[simp] theorem State.withFetchWord_mem (s : State) (nbits w : Nat) : (State.withFetchWord s nbits w).mem = s.mem := by
  simp only [State.withFetchWord]
  simp_all

end Sys2Proof.Machine
end

