-- ==== Sys2Proof/Laws/PerInstr.lean ====
section
/-! SUPPORT. The round trip of every instruction (R60-R66, R71-R73): the word of a well-formed instruction decodes to it, one
lemma for each constructor. A machine step has no word. -/

namespace Sys2Proof.Laws.RoundTrip

-- One proof at a time: each asks the kernel, and proofs that wait for it side by side hold much memory.
set_option Elab.async false

/-- The word that the encoder gives a well-formed instruction has 32 bits and decodes to that instruction. -/
def Statement (i : Instr) : Prop := i.wf = true → ∀ n, encodeNat i = some n → n < 2 ^ 32 ∧ decodeNat n = .ok i

theorem read {s t1 t0} : Statement (.read s t1 t0) := by
  intro h n e
  replace h : (slotAny s && t1.ok && t0.ok) = true := h
  simp only [Bool.and_eq_true] at h
  obtain ⟨⟨hx0, h1⟩, h0⟩ := h
  have F := fieldsD (op := 0x01) e (by decide) (by have := s.isLt; omega) t1.code_lt t0.code_lt
  refine ⟨F.lt, ?_⟩
  rw [decodeNat_op F.op]
  show (withSlot (slotAny (BitVec.ofNat 6 (fMod n))) (targets2 n (Instr.read (BitVec.ofNat 6 (fMod n)))) : Dec) = _
  rw [F.md, ofNat_toNat6, withSlot_of hx0]; exact targets2_ok F.t1 F.t0 h1 h0 _

theorem readD {s t1 t0} : Statement (.readD s t1 t0) := by
  intro h n e
  replace h : (slotEven s && t1.ok && t0.ok) = true := h
  simp only [Bool.and_eq_true] at h
  obtain ⟨⟨hx0, h1⟩, h0⟩ := h
  have F := fieldsD (op := 0x02) e (by decide) (by have := s.isLt; omega) t1.code_lt t0.code_lt
  refine ⟨F.lt, ?_⟩
  rw [decodeNat_op F.op]
  show (withSlot (slotEven (BitVec.ofNat 6 (fMod n))) (targets2 n (Instr.readD (BitVec.ofNat 6 (fMod n)))) : Dec) = _
  rw [F.md, ofNat_toNat6, withSlot_of hx0]; exact targets2_ok F.t1 F.t0 h1 h0 _

theorem lit {s t1 t0} : Statement (.lit s t1 t0) := by
  intro h n e
  replace h : (slotAny s && t1.ok && t0.ok) = true := h
  simp only [Bool.and_eq_true] at h
  obtain ⟨⟨hx0, h1⟩, h0⟩ := h
  have F := fieldsD (op := 0x03) e (by decide) (by have := s.isLt; omega) t1.code_lt t0.code_lt
  refine ⟨F.lt, ?_⟩
  rw [decodeNat_op F.op]
  show (withSlot (slotAny (BitVec.ofNat 6 (fMod n))) (targets2 n (Instr.lit (BitVec.ofNat 6 (fMod n)))) : Dec) = _
  rw [F.md, ofNat_toNat6, withSlot_of hx0]; exact targets2_ok F.t1 F.t0 h1 h0 _

theorem litD {s t1 t0} : Statement (.litD s t1 t0) := by
  intro h n e
  replace h : (slotAny s && t1.ok && t0.ok) = true := h
  simp only [Bool.and_eq_true] at h
  obtain ⟨⟨hx0, h1⟩, h0⟩ := h
  have F := fieldsD (op := 0x04) e (by decide) (by have := s.isLt; omega) t1.code_lt t0.code_lt
  refine ⟨F.lt, ?_⟩
  rw [decodeNat_op F.op]
  show (withSlot (slotAny (BitVec.ofNat 6 (fMod n))) (targets2 n (Instr.litD (BitVec.ofNat 6 (fMod n)))) : Dec) = _
  rw [F.md, ofNat_toNat6, withSlot_of hx0]; exact targets2_ok F.t1 F.t0 h1 h0 _

theorem const {imm t0} : Statement (.const imm t0) := by
  intro h n e
  replace h : (t0.ok) = true := h
  have h0 := h
  have F := fieldsI (op := 0x05) e (by decide) imm.isLt t0.code_lt
  refine ⟨F.lt, ?_⟩
  rw [decodeNat_op F.op]
  show (targets0 n (Instr.const (BitVec.ofNat 15 (fImm n))) : Dec) = _
  rw [F.imm, ofNat_toNat15]; exact targets0_ok F.t0 h0 _

theorem mov {w t1 t0} : Statement (.mov w t1 t0) := by
  intro h n e
  replace h : (t1.ok && t0.ok) = true := h
  simp only [Bool.and_eq_true] at h
  obtain ⟨h1, h0⟩ := h
  have F := fieldsD (op := 0x06) e (by decide) (by have := bitN_lt w; omega) t1.code_lt t0.code_lt
  refine ⟨F.lt, ?_⟩
  rw [decodeNat_op F.op]
  show (zeroMod (fMod n % 32) (targets2 n (Instr.mov (fMod n / 32 == 1))) : Dec) = _
  cases w <;> (rw [F.md]; exact targets2_ok F.t1 F.t0 h1 h0 _)

theorem gate {w t1 t0} : Statement (.gate w t1 t0) := by
  intro h n e
  replace h : (t1.ok && t0.ok) = true := h
  simp only [Bool.and_eq_true] at h
  obtain ⟨h1, h0⟩ := h
  have F := fieldsD (op := 0x07) e (by decide) (by have := bitN_lt w; omega) t1.code_lt t0.code_lt
  refine ⟨F.lt, ?_⟩
  rw [decodeNat_op F.op]
  show (zeroMod (fMod n % 32) (targets2 n (Instr.gate (fMod n / 32 == 1))) : Dec) = _
  cases w <;> (rw [F.md]; exact targets2_ok F.t1 F.t0 h1 h0 _)

theorem gaten {w t1 t0} : Statement (.gaten w t1 t0) := by
  intro h n e
  replace h : (t1.ok && t0.ok) = true := h
  simp only [Bool.and_eq_true] at h
  obtain ⟨h1, h0⟩ := h
  have F := fieldsD (op := 0x08) e (by decide) (by have := bitN_lt w; omega) t1.code_lt t0.code_lt
  refine ⟨F.lt, ?_⟩
  rw [decodeNat_op F.op]
  show (zeroMod (fMod n % 32) (targets2 n (Instr.gaten (fMod n / 32 == 1))) : Dec) = _
  cases w <;> (rw [F.md]; exact targets2_ok F.t1 F.t0 h1 h0 _)

theorem sel {w t1 t0} : Statement (.sel w t1 t0) := by
  intro h n e
  replace h : (t1.ok && t0.ok) = true := h
  simp only [Bool.and_eq_true] at h
  obtain ⟨h1, h0⟩ := h
  have F := fieldsD (op := 0x09) e (by decide) (by have := bitN_lt w; omega) t1.code_lt t0.code_lt
  refine ⟨F.lt, ?_⟩
  rw [decodeNat_op F.op]
  show (zeroMod (fMod n % 32) (targets2 n (Instr.sel (fMod n / 32 == 1))) : Dec) = _
  cases w <;> (rw [F.md]; exact targets2_ok F.t1 F.t0 h1 h0 _)

theorem pick {w t1 t0} : Statement (.pick w t1 t0) := by
  intro h n e
  replace h : (t1.ok && t0.ok) = true := h
  simp only [Bool.and_eq_true] at h
  obtain ⟨h1, h0⟩ := h
  have F := fieldsD (op := 0x0a) e (by decide) (by have := bitN_lt w; omega) t1.code_lt t0.code_lt
  refine ⟨F.lt, ?_⟩
  rw [decodeNat_op F.op]
  show (zeroMod (fMod n % 32) (targets2 n (Instr.pick (fMod n / 32 == 1))) : Dec) = _
  cases w <;> (rw [F.md]; exact targets2_ok F.t1 F.t0 h1 h0 _)

theorem pair {t1 t0} : Statement (.pair t1 t0) := by
  intro h n e
  replace h : (t1.ok && t0.ok) = true := h
  simp only [Bool.and_eq_true] at h
  obtain ⟨h1, h0⟩ := h
  have F := fieldsD (op := 0x0b) e (by decide) (by decide) t1.code_lt t0.code_lt
  refine ⟨F.lt, ?_⟩
  rw [decodeNat_op F.op]
  show (zeroMod (fMod n) (targets2 n Instr.pair) : Dec) = _
  rw [F.md]; exact targets2_ok F.t1 F.t0 h1 h0 _

theorem split {t1 t0} : Statement (.split t1 t0) := by
  intro h n e
  replace h : (t1.ok && t0.ok) = true := h
  simp only [Bool.and_eq_true] at h
  obtain ⟨h1, h0⟩ := h
  have F := fieldsD (op := 0x0c) e (by decide) (by decide) t1.code_lt t0.code_lt
  refine ⟨F.lt, ?_⟩
  rw [decodeNat_op F.op]
  show (zeroMod (fMod n) (targets2 n Instr.split) : Dec) = _
  rw [F.md]; exact targets2_ok F.t1 F.t0 h1 h0 _

theorem sink {w} : Statement (.sink w) := by
  intro h n e
  have F := fieldsD (op := 0x0d) e (by decide) (by have := bitN_lt w; omega) (by decide) (by decide)
  refine ⟨F.lt, ?_⟩
  rw [decodeNat_op F.op]
  show (zeroMod (fMod n % 32) (noTargets n (Instr.sink (fMod n / 32 == 1))) : Dec) = _
  cases w <;> first | exact absurd hx0 (by decide) | (rw [F.md]; exact noTargets_ok F.t1 F.t0 _)

theorem isnull {w t1 t0} : Statement (.isnull w t1 t0) := by
  intro h n e
  replace h : (t1.ok && t0.ok) = true := h
  simp only [Bool.and_eq_true] at h
  obtain ⟨h1, h0⟩ := h
  have F := fieldsD (op := 0x0e) e (by decide) (by have := bitN_lt w; omega) t1.code_lt t0.code_lt
  refine ⟨F.lt, ?_⟩
  rw [decodeNat_op F.op]
  show (zeroMod (fMod n % 32) (targets2 n (Instr.isnull (fMod n / 32 == 1))) : Dec) = _
  cases w <;> (rw [F.md]; exact targets2_ok F.t1 F.t0 h1 h0 _)

theorem id {s t1 t0} : Statement (.id s t1 t0) := by
  intro h n e
  replace h : (slotSelector s && t1.ok && t0.ok) = true := h
  simp only [Bool.and_eq_true] at h
  obtain ⟨⟨hx0, h1⟩, h0⟩ := h
  have F := fieldsD (op := 0x0f) e (by decide) (by have := s.isLt; omega) t1.code_lt t0.code_lt
  refine ⟨F.lt, ?_⟩
  rw [decodeNat_op F.op]
  show (withSlot (slotSelector (BitVec.ofNat 6 (fMod n))) (targets2 n (Instr.id (BitVec.ofNat 6 (fMod n)))) : Dec) = _
  rw [F.md, ofNat_toNat6, withSlot_of hx0]; exact targets2_ok F.t1 F.t0 h1 h0 _

theorem br {off} : Statement (.br off) := by
  intro h n e
  have F := fieldsB0 (op := 0x10) e (by decide) off.isLt
  refine ⟨F.lt, ?_⟩
  rw [decodeNat_op F.op]
  show (.ok (Instr.br (BitVec.ofNat 24 (fOff24 n))) : Dec) = _
  rw [F.off, ofNat_toNat24]

theorem brc {off} : Statement (.brc off) := by
  intro h n e
  have F := fieldsB0 (op := 0x11) e (by decide) off.isLt
  refine ⟨F.lt, ?_⟩
  rw [decodeNat_op F.op]
  show (.ok (Instr.brc (BitVec.ofNat 24 (fOff24 n))) : Dec) = _
  rw [F.off, ofNat_toNat24]

theorem brcn {off} : Statement (.brcn off) := by
  intro h n e
  have F := fieldsB0 (op := 0x12) e (by decide) off.isLt
  refine ⟨F.lt, ?_⟩
  rw [decodeNat_op F.op]
  show (.ok (Instr.brcn (BitVec.ofNat 24 (fOff24 n))) : Dec) = _
  rw [F.off, ofNat_toNat24]

theorem brx : Statement (.brx) := by
  intro h n e
  have F := fieldsD (op := 0x13) e (by decide) (by decide) (by decide) (by decide)
  refine ⟨F.lt, ?_⟩
  rw [decodeNat_op F.op]
  show (zeroMod (fMod n) (noTargets n Instr.brx) : Dec) = _
  rw [F.md]; exact noTargets_ok F.t1 F.t0 _

theorem call {off} : Statement (.call off) := by
  intro h n e
  have F := fieldsB0 (op := 0x14) e (by decide) off.isLt
  refine ⟨F.lt, ?_⟩
  rw [decodeNat_op F.op]
  show (.ok (Instr.call (BitVec.ofNat 24 (fOff24 n))) : Dec) = _
  rw [F.off, ofNat_toNat24]

theorem callc {off} : Statement (.callc off) := by
  intro h n e
  have F := fieldsB0 (op := 0x15) e (by decide) off.isLt
  refine ⟨F.lt, ?_⟩
  rw [decodeNat_op F.op]
  show (.ok (Instr.callc (BitVec.ofNat 24 (fOff24 n))) : Dec) = _
  rw [F.off, ofNat_toNat24]

theorem callx : Statement (.callx) := by
  intro h n e
  have F := fieldsD (op := 0x16) e (by decide) (by decide) (by decide) (by decide)
  refine ⟨F.lt, ?_⟩
  rw [decodeNat_op F.op]
  show (zeroMod (fMod n) (noTargets n Instr.callx) : Dec) = _
  rw [F.md]; exact noTargets_ok F.t1 F.t0 _

theorem ret : Statement (.ret) := by
  intro h n e
  have F := fieldsD (op := 0x17) e (by decide) (by decide) (by decide) (by decide)
  refine ⟨F.lt, ?_⟩
  rw [decodeNat_op F.op]
  show (zeroMod (fMod n) (noTargets n Instr.ret) : Dec) = _
  rw [F.md]; exact noTargets_ok F.t1 F.t0 _

theorem exit : Statement (.exit) := by
  intro h n e
  have F := fieldsD (op := 0x18) e (by decide) (by decide) (by decide) (by decide)
  refine ⟨F.lt, ?_⟩
  rw [decodeNat_op F.op]
  show (zeroMod (fMod n) (noTargets n Instr.exit) : Dec) = _
  rw [F.md]; exact noTargets_ok F.t1 F.t0 _

theorem exitc : Statement (.exitc) := by
  intro h n e
  have F := fieldsD (op := 0x19) e (by decide) (by decide) (by decide) (by decide)
  refine ⟨F.lt, ?_⟩
  rw [decodeNat_op F.op]
  show (zeroMod (fMod n) (noTargets n Instr.exitc) : Dec) = _
  rw [F.md]; exact noTargets_ok F.t1 F.t0 _

theorem add {m t1 t0} : Statement (.add m t1 t0) := by
  intro h n e
  replace h : (m.ok IntTy.all true true true && t1.ok && t0.ok) = true := h
  simp only [Bool.and_eq_true] at h
  obtain ⟨⟨hx0, h1⟩, h0⟩ := h
  have F := fieldsD (op := 0x20) e (by decide) m.code_lt t1.code_lt t0.code_lt
  refine ⟨F.lt, ?_⟩
  rw [decodeNat_op F.op]
  show (withMod (intModOf (fMod n)) (fun m => m.ok IntTy.all true true true) fun m => targets2 n (Instr.add m) : Dec) = _
  rw [F.md, intModOf_code, withMod_some (m := m) (okv := (fun m => m.ok IntTy.all true true true)) hx0]; exact targets2_ok F.t1 F.t0 h1 h0 _

theorem sub {m t1 t0} : Statement (.sub m t1 t0) := by
  intro h n e
  replace h : (m.ok IntTy.all true true true && t1.ok && t0.ok) = true := h
  simp only [Bool.and_eq_true] at h
  obtain ⟨⟨hx0, h1⟩, h0⟩ := h
  have F := fieldsD (op := 0x21) e (by decide) m.code_lt t1.code_lt t0.code_lt
  refine ⟨F.lt, ?_⟩
  rw [decodeNat_op F.op]
  show (withMod (intModOf (fMod n)) (fun m => m.ok IntTy.all true true true) fun m => targets2 n (Instr.sub m) : Dec) = _
  rw [F.md, intModOf_code, withMod_some (m := m) (okv := (fun m => m.ok IntTy.all true true true)) hx0]; exact targets2_ok F.t1 F.t0 h1 h0 _

theorem addi {imm t0} : Statement (.addi imm t0) := by
  intro h n e
  replace h : (t0.ok) = true := h
  have h0 := h
  have F := fieldsI (op := 0x22) e (by decide) imm.isLt t0.code_lt
  refine ⟨F.lt, ?_⟩
  rw [decodeNat_op F.op]
  show (targets0 n (Instr.addi (BitVec.ofNat 15 (fImm n))) : Dec) = _
  rw [F.imm, ofNat_toNat15]; exact targets0_ok F.t0 h0 _

theorem mul {m t1 t0} : Statement (.mul m t1 t0) := by
  intro h n e
  replace h : (m.ok IntTy.all true false false && t1.ok && t0.ok) = true := h
  simp only [Bool.and_eq_true] at h
  obtain ⟨⟨hx0, h1⟩, h0⟩ := h
  have F := fieldsD (op := 0x23) e (by decide) m.code_lt t1.code_lt t0.code_lt
  refine ⟨F.lt, ?_⟩
  rw [decodeNat_op F.op]
  show (withMod (intModOf (fMod n)) (fun m => m.ok IntTy.all true false false) fun m => targets2 n (Instr.mul m) : Dec) = _
  rw [F.md, intModOf_code, withMod_some (m := m) (okv := (fun m => m.ok IntTy.all true false false)) hx0]; exact targets2_ok F.t1 F.t0 h1 h0 _

theorem mulhi {m t1 t0} : Statement (.mulhi m t1 t0) := by
  intro h n e
  replace h : (m.ok IntTy.all false false false && t1.ok && t0.ok) = true := h
  simp only [Bool.and_eq_true] at h
  obtain ⟨⟨hx0, h1⟩, h0⟩ := h
  have F := fieldsD (op := 0x24) e (by decide) m.code_lt t1.code_lt t0.code_lt
  refine ⟨F.lt, ?_⟩
  rw [decodeNat_op F.op]
  show (withMod (intModOf (fMod n)) (fun m => m.ok IntTy.all false false false) fun m => targets2 n (Instr.mulhi m) : Dec) = _
  rw [F.md, intModOf_code, withMod_some (m := m) (okv := (fun m => m.ok IntTy.all false false false)) hx0]; exact targets2_ok F.t1 F.t0 h1 h0 _

theorem mulw {m t1 t0} : Statement (.mulw m t1 t0) := by
  intro h n e
  replace h : (m.ok IntTy.scalar false false false && t1.ok && t0.ok) = true := h
  simp only [Bool.and_eq_true] at h
  obtain ⟨⟨hx0, h1⟩, h0⟩ := h
  have F := fieldsD (op := 0x25) e (by decide) m.code_lt t1.code_lt t0.code_lt
  refine ⟨F.lt, ?_⟩
  rw [decodeNat_op F.op]
  show (withMod (intModOf (fMod n)) (fun m => m.ok IntTy.scalar false false false) fun m => targets2 n (Instr.mulw m) : Dec) = _
  rw [F.md, intModOf_code, withMod_some (m := m) (okv := (fun m => m.ok IntTy.scalar false false false)) hx0]; exact targets2_ok F.t1 F.t0 h1 h0 _

theorem mad {m t1 t0} : Statement (.mad m t1 t0) := by
  intro h n e
  replace h : (m.ok IntTy.all true false false && t1.ok && t0.ok) = true := h
  simp only [Bool.and_eq_true] at h
  obtain ⟨⟨hx0, h1⟩, h0⟩ := h
  have F := fieldsD (op := 0x26) e (by decide) m.code_lt t1.code_lt t0.code_lt
  refine ⟨F.lt, ?_⟩
  rw [decodeNat_op F.op]
  show (withMod (intModOf (fMod n)) (fun m => m.ok IntTy.all true false false) fun m => targets2 n (Instr.mad m) : Dec) = _
  rw [F.md, intModOf_code, withMod_some (m := m) (okv := (fun m => m.ok IntTy.all true false false)) hx0]; exact targets2_ok F.t1 F.t0 h1 h0 _

theorem div {m t1 t0} : Statement (.div m t1 t0) := by
  intro h n e
  replace h : (m.ok IntTy.scalar true false false && t1.ok && t0.ok) = true := h
  simp only [Bool.and_eq_true] at h
  obtain ⟨⟨hx0, h1⟩, h0⟩ := h
  have F := fieldsD (op := 0x27) e (by decide) m.code_lt t1.code_lt t0.code_lt
  refine ⟨F.lt, ?_⟩
  rw [decodeNat_op F.op]
  show (withMod (intModOf (fMod n)) (fun m => m.ok IntTy.scalar true false false) fun m => targets2 n (Instr.div m) : Dec) = _
  rw [F.md, intModOf_code, withMod_some (m := m) (okv := (fun m => m.ok IntTy.scalar true false false)) hx0]; exact targets2_ok F.t1 F.t0 h1 h0 _

theorem rem {m t1 t0} : Statement (.rem m t1 t0) := by
  intro h n e
  replace h : (m.ok IntTy.scalar false false false && t1.ok && t0.ok) = true := h
  simp only [Bool.and_eq_true] at h
  obtain ⟨⟨hx0, h1⟩, h0⟩ := h
  have F := fieldsD (op := 0x28) e (by decide) m.code_lt t1.code_lt t0.code_lt
  refine ⟨F.lt, ?_⟩
  rw [decodeNat_op F.op]
  show (withMod (intModOf (fMod n)) (fun m => m.ok IntTy.scalar false false false) fun m => targets2 n (Instr.rem m) : Dec) = _
  rw [F.md, intModOf_code, withMod_some (m := m) (okv := (fun m => m.ok IntTy.scalar false false false)) hx0]; exact targets2_ok F.t1 F.t0 h1 h0 _

theorem min {m t1 t0} : Statement (.min m t1 t0) := by
  intro h n e
  replace h : (m.ok IntTy.all false false false && t1.ok && t0.ok) = true := h
  simp only [Bool.and_eq_true] at h
  obtain ⟨⟨hx0, h1⟩, h0⟩ := h
  have F := fieldsD (op := 0x29) e (by decide) m.code_lt t1.code_lt t0.code_lt
  refine ⟨F.lt, ?_⟩
  rw [decodeNat_op F.op]
  show (withMod (intModOf (fMod n)) (fun m => m.ok IntTy.all false false false) fun m => targets2 n (Instr.min m) : Dec) = _
  rw [F.md, intModOf_code, withMod_some (m := m) (okv := (fun m => m.ok IntTy.all false false false)) hx0]; exact targets2_ok F.t1 F.t0 h1 h0 _

theorem max {m t1 t0} : Statement (.max m t1 t0) := by
  intro h n e
  replace h : (m.ok IntTy.all false false false && t1.ok && t0.ok) = true := h
  simp only [Bool.and_eq_true] at h
  obtain ⟨⟨hx0, h1⟩, h0⟩ := h
  have F := fieldsD (op := 0x2a) e (by decide) m.code_lt t1.code_lt t0.code_lt
  refine ⟨F.lt, ?_⟩
  rw [decodeNat_op F.op]
  show (withMod (intModOf (fMod n)) (fun m => m.ok IntTy.all false false false) fun m => targets2 n (Instr.max m) : Dec) = _
  rw [F.md, intModOf_code, withMod_some (m := m) (okv := (fun m => m.ok IntTy.all false false false)) hx0]; exact targets2_ok F.t1 F.t0 h1 h0 _

theorem abs {m t1 t0} : Statement (.abs m t1 t0) := by
  intro h n e
  replace h : (m.ok IntTy.isSigned true false false && t1.ok && t0.ok) = true := h
  simp only [Bool.and_eq_true] at h
  obtain ⟨⟨hx0, h1⟩, h0⟩ := h
  have F := fieldsD (op := 0x2b) e (by decide) m.code_lt t1.code_lt t0.code_lt
  refine ⟨F.lt, ?_⟩
  rw [decodeNat_op F.op]
  show (withMod (intModOf (fMod n)) (fun m => m.ok IntTy.isSigned true false false) fun m => targets2 n (Instr.abs m) : Dec) = _
  rw [F.md, intModOf_code, withMod_some (m := m) (okv := (fun m => m.ok IntTy.isSigned true false false)) hx0]; exact targets2_ok F.t1 F.t0 h1 h0 _

theorem neg {m t1 t0} : Statement (.neg m t1 t0) := by
  intro h n e
  replace h : (m.ok IntTy.all true false false && t1.ok && t0.ok) = true := h
  simp only [Bool.and_eq_true] at h
  obtain ⟨⟨hx0, h1⟩, h0⟩ := h
  have F := fieldsD (op := 0x2c) e (by decide) m.code_lt t1.code_lt t0.code_lt
  refine ⟨F.lt, ?_⟩
  rw [decodeNat_op F.op]
  show (withMod (intModOf (fMod n)) (fun m => m.ok IntTy.all true false false) fun m => targets2 n (Instr.neg m) : Dec) = _
  rw [F.md, intModOf_code, withMod_some (m := m) (okv := (fun m => m.ok IntTy.all true false false)) hx0]; exact targets2_ok F.t1 F.t0 h1 h0 _

theorem and {m t1 t0} : Statement (.and m t1 t0) := by
  intro h n e
  replace h : (m.ok IntTy.all false true true && t1.ok && t0.ok) = true := h
  simp only [Bool.and_eq_true] at h
  obtain ⟨⟨hx0, h1⟩, h0⟩ := h
  have F := fieldsD (op := 0x2d) e (by decide) m.code_lt t1.code_lt t0.code_lt
  refine ⟨F.lt, ?_⟩
  rw [decodeNat_op F.op]
  show (withMod (intModOf (fMod n)) (fun m => m.ok IntTy.all false true true) fun m => targets2 n (Instr.and m) : Dec) = _
  rw [F.md, intModOf_code, withMod_some (m := m) (okv := (fun m => m.ok IntTy.all false true true)) hx0]; exact targets2_ok F.t1 F.t0 h1 h0 _

theorem or {m t1 t0} : Statement (.or m t1 t0) := by
  intro h n e
  replace h : (m.ok IntTy.all false true true && t1.ok && t0.ok) = true := h
  simp only [Bool.and_eq_true] at h
  obtain ⟨⟨hx0, h1⟩, h0⟩ := h
  have F := fieldsD (op := 0x2e) e (by decide) m.code_lt t1.code_lt t0.code_lt
  refine ⟨F.lt, ?_⟩
  rw [decodeNat_op F.op]
  show (withMod (intModOf (fMod n)) (fun m => m.ok IntTy.all false true true) fun m => targets2 n (Instr.or m) : Dec) = _
  rw [F.md, intModOf_code, withMod_some (m := m) (okv := (fun m => m.ok IntTy.all false true true)) hx0]; exact targets2_ok F.t1 F.t0 h1 h0 _

theorem xor {m t1 t0} : Statement (.xor m t1 t0) := by
  intro h n e
  replace h : (m.ok IntTy.all false true true && t1.ok && t0.ok) = true := h
  simp only [Bool.and_eq_true] at h
  obtain ⟨⟨hx0, h1⟩, h0⟩ := h
  have F := fieldsD (op := 0x2f) e (by decide) m.code_lt t1.code_lt t0.code_lt
  refine ⟨F.lt, ?_⟩
  rw [decodeNat_op F.op]
  show (withMod (intModOf (fMod n)) (fun m => m.ok IntTy.all false true true) fun m => targets2 n (Instr.xor m) : Dec) = _
  rw [F.md, intModOf_code, withMod_some (m := m) (okv := (fun m => m.ok IntTy.all false true true)) hx0]; exact targets2_ok F.t1 F.t0 h1 h0 _

theorem andn {m t1 t0} : Statement (.andn m t1 t0) := by
  intro h n e
  replace h : (m.ok IntTy.all false false true && t1.ok && t0.ok) = true := h
  simp only [Bool.and_eq_true] at h
  obtain ⟨⟨hx0, h1⟩, h0⟩ := h
  have F := fieldsD (op := 0x30) e (by decide) m.code_lt t1.code_lt t0.code_lt
  refine ⟨F.lt, ?_⟩
  rw [decodeNat_op F.op]
  show (withMod (intModOf (fMod n)) (fun m => m.ok IntTy.all false false true) fun m => targets2 n (Instr.andn m) : Dec) = _
  rw [F.md, intModOf_code, withMod_some (m := m) (okv := (fun m => m.ok IntTy.all false false true)) hx0]; exact targets2_ok F.t1 F.t0 h1 h0 _

theorem not {m t1 t0} : Statement (.not m t1 t0) := by
  intro h n e
  replace h : (m.ok IntTy.all false false false && t1.ok && t0.ok) = true := h
  simp only [Bool.and_eq_true] at h
  obtain ⟨⟨hx0, h1⟩, h0⟩ := h
  have F := fieldsD (op := 0x31) e (by decide) m.code_lt t1.code_lt t0.code_lt
  refine ⟨F.lt, ?_⟩
  rw [decodeNat_op F.op]
  show (withMod (intModOf (fMod n)) (fun m => m.ok IntTy.all false false false) fun m => targets2 n (Instr.not m) : Dec) = _
  rw [F.md, intModOf_code, withMod_some (m := m) (okv := (fun m => m.ok IntTy.all false false false)) hx0]; exact targets2_ok F.t1 F.t0 h1 h0 _

theorem shl {m t1 t0} : Statement (.shl m t1 t0) := by
  intro h n e
  replace h : (m.ok IntTy.all true false false && t1.ok && t0.ok) = true := h
  simp only [Bool.and_eq_true] at h
  obtain ⟨⟨hx0, h1⟩, h0⟩ := h
  have F := fieldsD (op := 0x32) e (by decide) m.code_lt t1.code_lt t0.code_lt
  refine ⟨F.lt, ?_⟩
  rw [decodeNat_op F.op]
  show (withMod (intModOf (fMod n)) (fun m => m.ok IntTy.all true false false) fun m => targets2 n (Instr.shl m) : Dec) = _
  rw [F.md, intModOf_code, withMod_some (m := m) (okv := (fun m => m.ok IntTy.all true false false)) hx0]; exact targets2_ok F.t1 F.t0 h1 h0 _

theorem shr {m t1 t0} : Statement (.shr m t1 t0) := by
  intro h n e
  replace h : (m.ok IntTy.all false false false && t1.ok && t0.ok) = true := h
  simp only [Bool.and_eq_true] at h
  obtain ⟨⟨hx0, h1⟩, h0⟩ := h
  have F := fieldsD (op := 0x33) e (by decide) m.code_lt t1.code_lt t0.code_lt
  refine ⟨F.lt, ?_⟩
  rw [decodeNat_op F.op]
  show (withMod (intModOf (fMod n)) (fun m => m.ok IntTy.all false false false) fun m => targets2 n (Instr.shr m) : Dec) = _
  rw [F.md, intModOf_code, withMod_some (m := m) (okv := (fun m => m.ok IntTy.all false false false)) hx0]; exact targets2_ok F.t1 F.t0 h1 h0 _

theorem sar {m t1 t0} : Statement (.sar m t1 t0) := by
  intro h n e
  replace h : (m.ok IntTy.all false false false && t1.ok && t0.ok) = true := h
  simp only [Bool.and_eq_true] at h
  obtain ⟨⟨hx0, h1⟩, h0⟩ := h
  have F := fieldsD (op := 0x34) e (by decide) m.code_lt t1.code_lt t0.code_lt
  refine ⟨F.lt, ?_⟩
  rw [decodeNat_op F.op]
  show (withMod (intModOf (fMod n)) (fun m => m.ok IntTy.all false false false) fun m => targets2 n (Instr.sar m) : Dec) = _
  rw [F.md, intModOf_code, withMod_some (m := m) (okv := (fun m => m.ok IntTy.all false false false)) hx0]; exact targets2_ok F.t1 F.t0 h1 h0 _

theorem rotl {m t1 t0} : Statement (.rotl m t1 t0) := by
  intro h n e
  replace h : (m.ok IntTy.all false false false && t1.ok && t0.ok) = true := h
  simp only [Bool.and_eq_true] at h
  obtain ⟨⟨hx0, h1⟩, h0⟩ := h
  have F := fieldsD (op := 0x35) e (by decide) m.code_lt t1.code_lt t0.code_lt
  refine ⟨F.lt, ?_⟩
  rw [decodeNat_op F.op]
  show (withMod (intModOf (fMod n)) (fun m => m.ok IntTy.all false false false) fun m => targets2 n (Instr.rotl m) : Dec) = _
  rw [F.md, intModOf_code, withMod_some (m := m) (okv := (fun m => m.ok IntTy.all false false false)) hx0]; exact targets2_ok F.t1 F.t0 h1 h0 _

theorem rotr {m t1 t0} : Statement (.rotr m t1 t0) := by
  intro h n e
  replace h : (m.ok IntTy.all false false false && t1.ok && t0.ok) = true := h
  simp only [Bool.and_eq_true] at h
  obtain ⟨⟨hx0, h1⟩, h0⟩ := h
  have F := fieldsD (op := 0x36) e (by decide) m.code_lt t1.code_lt t0.code_lt
  refine ⟨F.lt, ?_⟩
  rw [decodeNat_op F.op]
  show (withMod (intModOf (fMod n)) (fun m => m.ok IntTy.all false false false) fun m => targets2 n (Instr.rotr m) : Dec) = _
  rw [F.md, intModOf_code, withMod_some (m := m) (okv := (fun m => m.ok IntTy.all false false false)) hx0]; exact targets2_ok F.t1 F.t0 h1 h0 _

theorem clz {m t1 t0} : Statement (.clz m t1 t0) := by
  intro h n e
  replace h : (m.ok IntTy.all false false false && t1.ok && t0.ok) = true := h
  simp only [Bool.and_eq_true] at h
  obtain ⟨⟨hx0, h1⟩, h0⟩ := h
  have F := fieldsD (op := 0x37) e (by decide) m.code_lt t1.code_lt t0.code_lt
  refine ⟨F.lt, ?_⟩
  rw [decodeNat_op F.op]
  show (withMod (intModOf (fMod n)) (fun m => m.ok IntTy.all false false false) fun m => targets2 n (Instr.clz m) : Dec) = _
  rw [F.md, intModOf_code, withMod_some (m := m) (okv := (fun m => m.ok IntTy.all false false false)) hx0]; exact targets2_ok F.t1 F.t0 h1 h0 _

theorem ctz {m t1 t0} : Statement (.ctz m t1 t0) := by
  intro h n e
  replace h : (m.ok IntTy.all false false false && t1.ok && t0.ok) = true := h
  simp only [Bool.and_eq_true] at h
  obtain ⟨⟨hx0, h1⟩, h0⟩ := h
  have F := fieldsD (op := 0x38) e (by decide) m.code_lt t1.code_lt t0.code_lt
  refine ⟨F.lt, ?_⟩
  rw [decodeNat_op F.op]
  show (withMod (intModOf (fMod n)) (fun m => m.ok IntTy.all false false false) fun m => targets2 n (Instr.ctz m) : Dec) = _
  rw [F.md, intModOf_code, withMod_some (m := m) (okv := (fun m => m.ok IntTy.all false false false)) hx0]; exact targets2_ok F.t1 F.t0 h1 h0 _

theorem popc {m t1 t0} : Statement (.popc m t1 t0) := by
  intro h n e
  replace h : (m.ok IntTy.all false false false && t1.ok && t0.ok) = true := h
  simp only [Bool.and_eq_true] at h
  obtain ⟨⟨hx0, h1⟩, h0⟩ := h
  have F := fieldsD (op := 0x39) e (by decide) m.code_lt t1.code_lt t0.code_lt
  refine ⟨F.lt, ?_⟩
  rw [decodeNat_op F.op]
  show (withMod (intModOf (fMod n)) (fun m => m.ok IntTy.all false false false) fun m => targets2 n (Instr.popc m) : Dec) = _
  rw [F.md, intModOf_code, withMod_some (m := m) (okv := (fun m => m.ok IntTy.all false false false)) hx0]; exact targets2_ok F.t1 F.t0 h1 h0 _

theorem brev {m t1 t0} : Statement (.brev m t1 t0) := by
  intro h n e
  replace h : (m.ok IntTy.all false false false && t1.ok && t0.ok) = true := h
  simp only [Bool.and_eq_true] at h
  obtain ⟨⟨hx0, h1⟩, h0⟩ := h
  have F := fieldsD (op := 0x3a) e (by decide) m.code_lt t1.code_lt t0.code_lt
  refine ⟨F.lt, ?_⟩
  rw [decodeNat_op F.op]
  show (withMod (intModOf (fMod n)) (fun m => m.ok IntTy.all false false false) fun m => targets2 n (Instr.brev m) : Dec) = _
  rw [F.md, intModOf_code, withMod_some (m := m) (okv := (fun m => m.ok IntTy.all false false false)) hx0]; exact targets2_ok F.t1 F.t0 h1 h0 _

theorem bswap {m t1 t0} : Statement (.bswap m t1 t0) := by
  intro h n e
  replace h : (m.ok IntTy.all false false false && t1.ok && t0.ok) = true := h
  simp only [Bool.and_eq_true] at h
  obtain ⟨⟨hx0, h1⟩, h0⟩ := h
  have F := fieldsD (op := 0x3b) e (by decide) m.code_lt t1.code_lt t0.code_lt
  refine ⟨F.lt, ?_⟩
  rw [decodeNat_op F.op]
  show (withMod (intModOf (fMod n)) (fun m => m.ok IntTy.all false false false) fun m => targets2 n (Instr.bswap m) : Dec) = _
  rw [F.md, intModOf_code, withMod_some (m := m) (okv := (fun m => m.ok IntTy.all false false false)) hx0]; exact targets2_ok F.t1 F.t0 h1 h0 _

theorem bfx {m t1 t0} : Statement (.bfx m t1 t0) := by
  intro h n e
  replace h : (m.ok IntTy.scalar false false false && t1.ok && t0.ok) = true := h
  simp only [Bool.and_eq_true] at h
  obtain ⟨⟨hx0, h1⟩, h0⟩ := h
  have F := fieldsD (op := 0x3c) e (by decide) m.code_lt t1.code_lt t0.code_lt
  refine ⟨F.lt, ?_⟩
  rw [decodeNat_op F.op]
  show (withMod (intModOf (fMod n)) (fun m => m.ok IntTy.scalar false false false) fun m => targets2 n (Instr.bfx m) : Dec) = _
  rw [F.md, intModOf_code, withMod_some (m := m) (okv := (fun m => m.ok IntTy.scalar false false false)) hx0]; exact targets2_ok F.t1 F.t0 h1 h0 _

theorem bfi {m t1 t0} : Statement (.bfi m t1 t0) := by
  intro h n e
  replace h : (m.ok IntTy.scalar false false false && t1.ok && t0.ok) = true := h
  simp only [Bool.and_eq_true] at h
  obtain ⟨⟨hx0, h1⟩, h0⟩ := h
  have F := fieldsD (op := 0x3d) e (by decide) m.code_lt t1.code_lt t0.code_lt
  refine ⟨F.lt, ?_⟩
  rw [decodeNat_op F.op]
  show (withMod (intModOf (fMod n)) (fun m => m.ok IntTy.scalar false false false) fun m => targets2 n (Instr.bfi m) : Dec) = _
  rw [F.md, intModOf_code, withMod_some (m := m) (okv := (fun m => m.ok IntTy.scalar false false false)) hx0]; exact targets2_ok F.t1 F.t0 h1 h0 _

theorem lea {m t1 t0} : Statement (.lea m t1 t0) := by
  intro h n e
  replace h : (m.ok && t1.ok && t0.ok) = true := h
  simp only [Bool.and_eq_true] at h
  obtain ⟨⟨hx0, h1⟩, h0⟩ := h
  have F := fieldsD (op := 0x3e) e (by decide) m.code_lt t1.code_lt t0.code_lt
  refine ⟨F.lt, ?_⟩
  rw [decodeNat_op F.op]
  show (withMod (leaModOf (fMod n)) (fun m => m.ok) fun m => targets2 n (Instr.lea m) : Dec) = _
  rw [F.md, leaModOf_code, withMod_some (m := m) (okv := (fun m => m.ok)) hx0]; exact targets2_ok F.t1 F.t0 h1 h0 _

theorem absdiff {m t1 t0} : Statement (.absdiff m t1 t0) := by
  intro h n e
  replace h : (m.ok IntTy.all false false false && t1.ok && t0.ok) = true := h
  simp only [Bool.and_eq_true] at h
  obtain ⟨⟨hx0, h1⟩, h0⟩ := h
  have F := fieldsD (op := 0x3f) e (by decide) m.code_lt t1.code_lt t0.code_lt
  refine ⟨F.lt, ?_⟩
  rw [decodeNat_op F.op]
  show (withMod (intModOf (fMod n)) (fun m => m.ok IntTy.all false false false) fun m => targets2 n (Instr.absdiff m) : Dec) = _
  rw [F.md, intModOf_code, withMod_some (m := m) (okv := (fun m => m.ok IntTy.all false false false)) hx0]; exact targets2_ok F.t1 F.t0 h1 h0 _

theorem setpEq {m t1 t0} : Statement (.setpEq m t1 t0) := by
  intro h n e
  replace h : (m.ok IntTy.scalar false false true && t1.ok && t0.ok) = true := h
  simp only [Bool.and_eq_true] at h
  obtain ⟨⟨hx0, h1⟩, h0⟩ := h
  have F := fieldsD (op := 0x40) e (by decide) m.code_lt t1.code_lt t0.code_lt
  refine ⟨F.lt, ?_⟩
  rw [decodeNat_op F.op]
  show (withMod (intModOf (fMod n)) (fun m => m.ok IntTy.scalar false false true) fun m => targets2 n (Instr.setpEq m) : Dec) = _
  rw [F.md, intModOf_code, withMod_some (m := m) (okv := (fun m => m.ok IntTy.scalar false false true)) hx0]; exact targets2_ok F.t1 F.t0 h1 h0 _

theorem setpNe {m t1 t0} : Statement (.setpNe m t1 t0) := by
  intro h n e
  replace h : (m.ok IntTy.scalar false false true && t1.ok && t0.ok) = true := h
  simp only [Bool.and_eq_true] at h
  obtain ⟨⟨hx0, h1⟩, h0⟩ := h
  have F := fieldsD (op := 0x41) e (by decide) m.code_lt t1.code_lt t0.code_lt
  refine ⟨F.lt, ?_⟩
  rw [decodeNat_op F.op]
  show (withMod (intModOf (fMod n)) (fun m => m.ok IntTy.scalar false false true) fun m => targets2 n (Instr.setpNe m) : Dec) = _
  rw [F.md, intModOf_code, withMod_some (m := m) (okv := (fun m => m.ok IntTy.scalar false false true)) hx0]; exact targets2_ok F.t1 F.t0 h1 h0 _

theorem setpLt {m t1 t0} : Statement (.setpLt m t1 t0) := by
  intro h n e
  replace h : (m.ok IntTy.scalar false false true && t1.ok && t0.ok) = true := h
  simp only [Bool.and_eq_true] at h
  obtain ⟨⟨hx0, h1⟩, h0⟩ := h
  have F := fieldsD (op := 0x42) e (by decide) m.code_lt t1.code_lt t0.code_lt
  refine ⟨F.lt, ?_⟩
  rw [decodeNat_op F.op]
  show (withMod (intModOf (fMod n)) (fun m => m.ok IntTy.scalar false false true) fun m => targets2 n (Instr.setpLt m) : Dec) = _
  rw [F.md, intModOf_code, withMod_some (m := m) (okv := (fun m => m.ok IntTy.scalar false false true)) hx0]; exact targets2_ok F.t1 F.t0 h1 h0 _

theorem setpLe {m t1 t0} : Statement (.setpLe m t1 t0) := by
  intro h n e
  replace h : (m.ok IntTy.scalar false false true && t1.ok && t0.ok) = true := h
  simp only [Bool.and_eq_true] at h
  obtain ⟨⟨hx0, h1⟩, h0⟩ := h
  have F := fieldsD (op := 0x43) e (by decide) m.code_lt t1.code_lt t0.code_lt
  refine ⟨F.lt, ?_⟩
  rw [decodeNat_op F.op]
  show (withMod (intModOf (fMod n)) (fun m => m.ok IntTy.scalar false false true) fun m => targets2 n (Instr.setpLe m) : Dec) = _
  rw [F.md, intModOf_code, withMod_some (m := m) (okv := (fun m => m.ok IntTy.scalar false false true)) hx0]; exact targets2_ok F.t1 F.t0 h1 h0 _

theorem setpGt {m t1 t0} : Statement (.setpGt m t1 t0) := by
  intro h n e
  replace h : (m.ok IntTy.scalar false false true && t1.ok && t0.ok) = true := h
  simp only [Bool.and_eq_true] at h
  obtain ⟨⟨hx0, h1⟩, h0⟩ := h
  have F := fieldsD (op := 0x44) e (by decide) m.code_lt t1.code_lt t0.code_lt
  refine ⟨F.lt, ?_⟩
  rw [decodeNat_op F.op]
  show (withMod (intModOf (fMod n)) (fun m => m.ok IntTy.scalar false false true) fun m => targets2 n (Instr.setpGt m) : Dec) = _
  rw [F.md, intModOf_code, withMod_some (m := m) (okv := (fun m => m.ok IntTy.scalar false false true)) hx0]; exact targets2_ok F.t1 F.t0 h1 h0 _

theorem setpGe {m t1 t0} : Statement (.setpGe m t1 t0) := by
  intro h n e
  replace h : (m.ok IntTy.scalar false false true && t1.ok && t0.ok) = true := h
  simp only [Bool.and_eq_true] at h
  obtain ⟨⟨hx0, h1⟩, h0⟩ := h
  have F := fieldsD (op := 0x45) e (by decide) m.code_lt t1.code_lt t0.code_lt
  refine ⟨F.lt, ?_⟩
  rw [decodeNat_op F.op]
  show (withMod (intModOf (fMod n)) (fun m => m.ok IntTy.scalar false false true) fun m => targets2 n (Instr.setpGe m) : Dec) = _
  rw [F.md, intModOf_code, withMod_some (m := m) (okv := (fun m => m.ok IntTy.scalar false false true)) hx0]; exact targets2_ok F.t1 F.t0 h1 h0 _

theorem pand {t1 t0} : Statement (.pand t1 t0) := by
  intro h n e
  replace h : (t1.ok && t0.ok) = true := h
  simp only [Bool.and_eq_true] at h
  obtain ⟨h1, h0⟩ := h
  have F := fieldsD (op := 0x46) e (by decide) (by decide) t1.code_lt t0.code_lt
  refine ⟨F.lt, ?_⟩
  rw [decodeNat_op F.op]
  show (zeroMod (fMod n) (targets2 n Instr.pand) : Dec) = _
  rw [F.md]; exact targets2_ok F.t1 F.t0 h1 h0 _

theorem por {t1 t0} : Statement (.por t1 t0) := by
  intro h n e
  replace h : (t1.ok && t0.ok) = true := h
  simp only [Bool.and_eq_true] at h
  obtain ⟨h1, h0⟩ := h
  have F := fieldsD (op := 0x47) e (by decide) (by decide) t1.code_lt t0.code_lt
  refine ⟨F.lt, ?_⟩
  rw [decodeNat_op F.op]
  show (zeroMod (fMod n) (targets2 n Instr.por) : Dec) = _
  rw [F.md]; exact targets2_ok F.t1 F.t0 h1 h0 _

theorem pxor {t1 t0} : Statement (.pxor t1 t0) := by
  intro h n e
  replace h : (t1.ok && t0.ok) = true := h
  simp only [Bool.and_eq_true] at h
  obtain ⟨h1, h0⟩ := h
  have F := fieldsD (op := 0x48) e (by decide) (by decide) t1.code_lt t0.code_lt
  refine ⟨F.lt, ?_⟩
  rw [decodeNat_op F.op]
  show (zeroMod (fMod n) (targets2 n Instr.pxor) : Dec) = _
  rw [F.md]; exact targets2_ok F.t1 F.t0 h1 h0 _

theorem pnot {t1 t0} : Statement (.pnot t1 t0) := by
  intro h n e
  replace h : (t1.ok && t0.ok) = true := h
  simp only [Bool.and_eq_true] at h
  obtain ⟨h1, h0⟩ := h
  have F := fieldsD (op := 0x49) e (by decide) (by decide) t1.code_lt t0.code_lt
  refine ⟨F.lt, ?_⟩
  rw [decodeNat_op F.op]
  show (zeroMod (fMod n) (targets2 n Instr.pnot) : Dec) = _
  rw [F.md]; exact targets2_ok F.t1 F.t0 h1 h0 _

theorem andi {imm t0} : Statement (.andi imm t0) := by
  intro h n e
  replace h : (t0.ok) = true := h
  have h0 := h
  have F := fieldsI (op := 0x4a) e (by decide) imm.isLt t0.code_lt
  refine ⟨F.lt, ?_⟩
  rw [decodeNat_op F.op]
  show (targets0 n (Instr.andi (BitVec.ofNat 15 (fImm n))) : Dec) = _
  rw [F.imm, ofNat_toNat15]; exact targets0_ok F.t0 h0 _

theorem shli {imm t0} : Statement (.shli imm t0) := by
  intro h n e
  replace h : (t0.ok) = true := h
  have h0 := h
  have F := fieldsI (op := 0x4b) e (by decide) imm.isLt t0.code_lt
  refine ⟨F.lt, ?_⟩
  rw [decodeNat_op F.op]
  show (targets0 n (Instr.shli (BitVec.ofNat 15 (fImm n))) : Dec) = _
  rw [F.imm, ofNat_toNat15]; exact targets0_ok F.t0 h0 _

theorem shri {imm t0} : Statement (.shri imm t0) := by
  intro h n e
  replace h : (t0.ok) = true := h
  have h0 := h
  have F := fieldsI (op := 0x4c) e (by decide) imm.isLt t0.code_lt
  refine ⟨F.lt, ?_⟩
  rw [decodeNat_op F.op]
  show (targets0 n (Instr.shri (BitVec.ofNat 15 (fImm n))) : Dec) = _
  rw [F.imm, ofNat_toNat15]; exact targets0_ok F.t0 h0 _

theorem muli {imm t0} : Statement (.muli imm t0) := by
  intro h n e
  replace h : (t0.ok) = true := h
  have h0 := h
  have F := fieldsI (op := 0x4d) e (by decide) imm.isLt t0.code_lt
  refine ⟨F.lt, ?_⟩
  rw [decodeNat_op F.op]
  show (targets0 n (Instr.muli (BitVec.ofNat 15 (fImm n))) : Dec) = _
  rw [F.imm, ofNat_toNat15]; exact targets0_ok F.t0 h0 _

theorem setpiEq {imm t0} : Statement (.setpiEq imm t0) := by
  intro h n e
  replace h : (t0.ok) = true := h
  have h0 := h
  have F := fieldsI (op := 0x4e) e (by decide) imm.isLt t0.code_lt
  refine ⟨F.lt, ?_⟩
  rw [decodeNat_op F.op]
  show (targets0 n (Instr.setpiEq (BitVec.ofNat 15 (fImm n))) : Dec) = _
  rw [F.imm, ofNat_toNat15]; exact targets0_ok F.t0 h0 _

theorem setpiLt {imm t0} : Statement (.setpiLt imm t0) := by
  intro h n e
  replace h : (t0.ok) = true := h
  have h0 := h
  have F := fieldsI (op := 0x4f) e (by decide) imm.isLt t0.code_lt
  refine ⟨F.lt, ?_⟩
  rw [decodeNat_op F.op]
  show (targets0 n (Instr.setpiLt (BitVec.ofNat 15 (fImm n))) : Dec) = _
  rw [F.imm, ofNat_toNat15]; exact targets0_ok F.t0 h0 _

theorem fadd {m t1 t0} : Statement (.fadd m t1 t0) := by
  intro h n e
  replace h : (m.ok FpTy.all true true true && t1.ok && t0.ok) = true := h
  simp only [Bool.and_eq_true] at h
  obtain ⟨⟨hx0, h1⟩, h0⟩ := h
  have F := fieldsD (op := 0x50) e (by decide) m.code_lt t1.code_lt t0.code_lt
  refine ⟨F.lt, ?_⟩
  rw [decodeNat_op F.op]
  show (withMod (fpModOf (fMod n)) (fun m => m.ok FpTy.all true true true) fun m => targets2 n (Instr.fadd m) : Dec) = _
  rw [F.md, fpModOf_code, withMod_some (m := m) (okv := (fun m => m.ok FpTy.all true true true)) hx0]; exact targets2_ok F.t1 F.t0 h1 h0 _

theorem fmul {m t1 t0} : Statement (.fmul m t1 t0) := by
  intro h n e
  replace h : (m.ok FpTy.all true true true && t1.ok && t0.ok) = true := h
  simp only [Bool.and_eq_true] at h
  obtain ⟨⟨hx0, h1⟩, h0⟩ := h
  have F := fieldsD (op := 0x51) e (by decide) m.code_lt t1.code_lt t0.code_lt
  refine ⟨F.lt, ?_⟩
  rw [decodeNat_op F.op]
  show (withMod (fpModOf (fMod n)) (fun m => m.ok FpTy.all true true true) fun m => targets2 n (Instr.fmul m) : Dec) = _
  rw [F.md, fpModOf_code, withMod_some (m := m) (okv := (fun m => m.ok FpTy.all true true true)) hx0]; exact targets2_ok F.t1 F.t0 h1 h0 _

theorem ffma {m t1 t0} : Statement (.ffma m t1 t0) := by
  intro h n e
  replace h : (m.ok FpTy.all true true true && t1.ok && t0.ok) = true := h
  simp only [Bool.and_eq_true] at h
  obtain ⟨⟨hx0, h1⟩, h0⟩ := h
  have F := fieldsD (op := 0x52) e (by decide) m.code_lt t1.code_lt t0.code_lt
  refine ⟨F.lt, ?_⟩
  rw [decodeNat_op F.op]
  show (withMod (fpModOf (fMod n)) (fun m => m.ok FpTy.all true true true) fun m => targets2 n (Instr.ffma m) : Dec) = _
  rw [F.md, fpModOf_code, withMod_some (m := m) (okv := (fun m => m.ok FpTy.all true true true)) hx0]; exact targets2_ok F.t1 F.t0 h1 h0 _

theorem fmin {m t1 t0} : Statement (.fmin m t1 t0) := by
  intro h n e
  replace h : (m.ok FpTy.all true false true && t1.ok && t0.ok) = true := h
  simp only [Bool.and_eq_true] at h
  obtain ⟨⟨hx0, h1⟩, h0⟩ := h
  have F := fieldsD (op := 0x53) e (by decide) m.code_lt t1.code_lt t0.code_lt
  refine ⟨F.lt, ?_⟩
  rw [decodeNat_op F.op]
  show (withMod (fpModOf (fMod n)) (fun m => m.ok FpTy.all true false true) fun m => targets2 n (Instr.fmin m) : Dec) = _
  rw [F.md, fpModOf_code, withMod_some (m := m) (okv := (fun m => m.ok FpTy.all true false true)) hx0]; exact targets2_ok F.t1 F.t0 h1 h0 _

theorem fmax {m t1 t0} : Statement (.fmax m t1 t0) := by
  intro h n e
  replace h : (m.ok FpTy.all true false true && t1.ok && t0.ok) = true := h
  simp only [Bool.and_eq_true] at h
  obtain ⟨⟨hx0, h1⟩, h0⟩ := h
  have F := fieldsD (op := 0x54) e (by decide) m.code_lt t1.code_lt t0.code_lt
  refine ⟨F.lt, ?_⟩
  rw [decodeNat_op F.op]
  show (withMod (fpModOf (fMod n)) (fun m => m.ok FpTy.all true false true) fun m => targets2 n (Instr.fmax m) : Dec) = _
  rw [F.md, fpModOf_code, withMod_some (m := m) (okv := (fun m => m.ok FpTy.all true false true)) hx0]; exact targets2_ok F.t1 F.t0 h1 h0 _

theorem fabs {m t1 t0} : Statement (.fabs m t1 t0) := by
  intro h n e
  replace h : (m.ok FpTy.all false false false && t1.ok && t0.ok) = true := h
  simp only [Bool.and_eq_true] at h
  obtain ⟨⟨hx0, h1⟩, h0⟩ := h
  have F := fieldsD (op := 0x55) e (by decide) m.code_lt t1.code_lt t0.code_lt
  refine ⟨F.lt, ?_⟩
  rw [decodeNat_op F.op]
  show (withMod (fpModOf (fMod n)) (fun m => m.ok FpTy.all false false false) fun m => targets2 n (Instr.fabs m) : Dec) = _
  rw [F.md, fpModOf_code, withMod_some (m := m) (okv := (fun m => m.ok FpTy.all false false false)) hx0]; exact targets2_ok F.t1 F.t0 h1 h0 _

theorem fneg {m t1 t0} : Statement (.fneg m t1 t0) := by
  intro h n e
  replace h : (m.ok FpTy.all false false false && t1.ok && t0.ok) = true := h
  simp only [Bool.and_eq_true] at h
  obtain ⟨⟨hx0, h1⟩, h0⟩ := h
  have F := fieldsD (op := 0x56) e (by decide) m.code_lt t1.code_lt t0.code_lt
  refine ⟨F.lt, ?_⟩
  rw [decodeNat_op F.op]
  show (withMod (fpModOf (fMod n)) (fun m => m.ok FpTy.all false false false) fun m => targets2 n (Instr.fneg m) : Dec) = _
  rw [F.md, fpModOf_code, withMod_some (m := m) (okv := (fun m => m.ok FpTy.all false false false)) hx0]; exact targets2_ok F.t1 F.t0 h1 h0 _

theorem fcopysign {m t1 t0} : Statement (.fcopysign m t1 t0) := by
  intro h n e
  replace h : (m.ok FpTy.all false false true && t1.ok && t0.ok) = true := h
  simp only [Bool.and_eq_true] at h
  obtain ⟨⟨hx0, h1⟩, h0⟩ := h
  have F := fieldsD (op := 0x57) e (by decide) m.code_lt t1.code_lt t0.code_lt
  refine ⟨F.lt, ?_⟩
  rw [decodeNat_op F.op]
  show (withMod (fpModOf (fMod n)) (fun m => m.ok FpTy.all false false true) fun m => targets2 n (Instr.fcopysign m) : Dec) = _
  rw [F.md, fpModOf_code, withMod_some (m := m) (okv := (fun m => m.ok FpTy.all false false true)) hx0]; exact targets2_ok F.t1 F.t0 h1 h0 _

theorem fsetpEq {m t1 t0} : Statement (.fsetpEq m t1 t0) := by
  intro h n e
  replace h : (m.ok FpTy.wide true false true && t1.ok && t0.ok) = true := h
  simp only [Bool.and_eq_true] at h
  obtain ⟨⟨hx0, h1⟩, h0⟩ := h
  have F := fieldsD (op := 0x58) e (by decide) m.code_lt t1.code_lt t0.code_lt
  refine ⟨F.lt, ?_⟩
  rw [decodeNat_op F.op]
  show (withMod (fpModOf (fMod n)) (fun m => m.ok FpTy.wide true false true) fun m => targets2 n (Instr.fsetpEq m) : Dec) = _
  rw [F.md, fpModOf_code, withMod_some (m := m) (okv := (fun m => m.ok FpTy.wide true false true)) hx0]; exact targets2_ok F.t1 F.t0 h1 h0 _

theorem fsetpNe {m t1 t0} : Statement (.fsetpNe m t1 t0) := by
  intro h n e
  replace h : (m.ok FpTy.wide true false true && t1.ok && t0.ok) = true := h
  simp only [Bool.and_eq_true] at h
  obtain ⟨⟨hx0, h1⟩, h0⟩ := h
  have F := fieldsD (op := 0x59) e (by decide) m.code_lt t1.code_lt t0.code_lt
  refine ⟨F.lt, ?_⟩
  rw [decodeNat_op F.op]
  show (withMod (fpModOf (fMod n)) (fun m => m.ok FpTy.wide true false true) fun m => targets2 n (Instr.fsetpNe m) : Dec) = _
  rw [F.md, fpModOf_code, withMod_some (m := m) (okv := (fun m => m.ok FpTy.wide true false true)) hx0]; exact targets2_ok F.t1 F.t0 h1 h0 _

theorem fsetpLt {m t1 t0} : Statement (.fsetpLt m t1 t0) := by
  intro h n e
  replace h : (m.ok FpTy.wide true false true && t1.ok && t0.ok) = true := h
  simp only [Bool.and_eq_true] at h
  obtain ⟨⟨hx0, h1⟩, h0⟩ := h
  have F := fieldsD (op := 0x5a) e (by decide) m.code_lt t1.code_lt t0.code_lt
  refine ⟨F.lt, ?_⟩
  rw [decodeNat_op F.op]
  show (withMod (fpModOf (fMod n)) (fun m => m.ok FpTy.wide true false true) fun m => targets2 n (Instr.fsetpLt m) : Dec) = _
  rw [F.md, fpModOf_code, withMod_some (m := m) (okv := (fun m => m.ok FpTy.wide true false true)) hx0]; exact targets2_ok F.t1 F.t0 h1 h0 _

theorem fsetpLe {m t1 t0} : Statement (.fsetpLe m t1 t0) := by
  intro h n e
  replace h : (m.ok FpTy.wide true false true && t1.ok && t0.ok) = true := h
  simp only [Bool.and_eq_true] at h
  obtain ⟨⟨hx0, h1⟩, h0⟩ := h
  have F := fieldsD (op := 0x5b) e (by decide) m.code_lt t1.code_lt t0.code_lt
  refine ⟨F.lt, ?_⟩
  rw [decodeNat_op F.op]
  show (withMod (fpModOf (fMod n)) (fun m => m.ok FpTy.wide true false true) fun m => targets2 n (Instr.fsetpLe m) : Dec) = _
  rw [F.md, fpModOf_code, withMod_some (m := m) (okv := (fun m => m.ok FpTy.wide true false true)) hx0]; exact targets2_ok F.t1 F.t0 h1 h0 _

theorem fsetpUn {m t1 t0} : Statement (.fsetpUn m t1 t0) := by
  intro h n e
  replace h : (m.ok FpTy.wide true false true && t1.ok && t0.ok) = true := h
  simp only [Bool.and_eq_true] at h
  obtain ⟨⟨hx0, h1⟩, h0⟩ := h
  have F := fieldsD (op := 0x5c) e (by decide) m.code_lt t1.code_lt t0.code_lt
  refine ⟨F.lt, ?_⟩
  rw [decodeNat_op F.op]
  show (withMod (fpModOf (fMod n)) (fun m => m.ok FpTy.wide true false true) fun m => targets2 n (Instr.fsetpUn m) : Dec) = _
  rw [F.md, fpModOf_code, withMod_some (m := m) (okv := (fun m => m.ok FpTy.wide true false true)) hx0]; exact targets2_ok F.t1 F.t0 h1 h0 _

theorem fclass {m t1 t0} : Statement (.fclass m t1 t0) := by
  intro h n e
  replace h : (m.ok FpTy.all true false false && t1.ok && t0.ok) = true := h
  simp only [Bool.and_eq_true] at h
  obtain ⟨⟨hx0, h1⟩, h0⟩ := h
  have F := fieldsD (op := 0x5d) e (by decide) m.code_lt t1.code_lt t0.code_lt
  refine ⟨F.lt, ?_⟩
  rw [decodeNat_op F.op]
  show (withMod (fpModOf (fMod n)) (fun m => m.ok FpTy.all true false false) fun m => targets2 n (Instr.fclass m) : Dec) = _
  rw [F.md, fpModOf_code, withMod_some (m := m) (okv := (fun m => m.ok FpTy.all true false false)) hx0]; exact targets2_ok F.t1 F.t0 h1 h0 _

theorem fdiv {m t1 t0} : Statement (.fdiv m t1 t0) := by
  intro h n e
  replace h : (m.ok FpTy.wide true true true && t1.ok && t0.ok) = true := h
  simp only [Bool.and_eq_true] at h
  obtain ⟨⟨hx0, h1⟩, h0⟩ := h
  have F := fieldsD (op := 0x5e) e (by decide) m.code_lt t1.code_lt t0.code_lt
  refine ⟨F.lt, ?_⟩
  rw [decodeNat_op F.op]
  show (withMod (fpModOf (fMod n)) (fun m => m.ok FpTy.wide true true true) fun m => targets2 n (Instr.fdiv m) : Dec) = _
  rw [F.md, fpModOf_code, withMod_some (m := m) (okv := (fun m => m.ok FpTy.wide true true true)) hx0]; exact targets2_ok F.t1 F.t0 h1 h0 _

theorem fsqrt {m t1 t0} : Statement (.fsqrt m t1 t0) := by
  intro h n e
  replace h : (m.ok FpTy.wide true true false && t1.ok && t0.ok) = true := h
  simp only [Bool.and_eq_true] at h
  obtain ⟨⟨hx0, h1⟩, h0⟩ := h
  have F := fieldsD (op := 0x5f) e (by decide) m.code_lt t1.code_lt t0.code_lt
  refine ⟨F.lt, ?_⟩
  rw [decodeNat_op F.op]
  show (withMod (fpModOf (fMod n)) (fun m => m.ok FpTy.wide true true false) fun m => targets2 n (Instr.fsqrt m) : Dec) = _
  rw [F.md, fpModOf_code, withMod_some (m := m) (okv := (fun m => m.ok FpTy.wide true true false)) hx0]; exact targets2_ok F.t1 F.t0 h1 h0 _

theorem frcp {m t1 t0} : Statement (.frcp m t1 t0) := by
  intro h n e
  replace h : (m.ok FpTy.sfu true true false && t1.ok && t0.ok) = true := h
  simp only [Bool.and_eq_true] at h
  obtain ⟨⟨hx0, h1⟩, h0⟩ := h
  have F := fieldsD (op := 0x60) e (by decide) m.code_lt t1.code_lt t0.code_lt
  refine ⟨F.lt, ?_⟩
  rw [decodeNat_op F.op]
  show (withMod (fpModOf (fMod n)) (fun m => m.ok FpTy.sfu true true false) fun m => targets2 n (Instr.frcp m) : Dec) = _
  rw [F.md, fpModOf_code, withMod_some (m := m) (okv := (fun m => m.ok FpTy.sfu true true false)) hx0]; exact targets2_ok F.t1 F.t0 h1 h0 _

theorem frsq {m t1 t0} : Statement (.frsq m t1 t0) := by
  intro h n e
  replace h : (m.ok FpTy.sfu true true false && t1.ok && t0.ok) = true := h
  simp only [Bool.and_eq_true] at h
  obtain ⟨⟨hx0, h1⟩, h0⟩ := h
  have F := fieldsD (op := 0x61) e (by decide) m.code_lt t1.code_lt t0.code_lt
  refine ⟨F.lt, ?_⟩
  rw [decodeNat_op F.op]
  show (withMod (fpModOf (fMod n)) (fun m => m.ok FpTy.sfu true true false) fun m => targets2 n (Instr.frsq m) : Dec) = _
  rw [F.md, fpModOf_code, withMod_some (m := m) (okv := (fun m => m.ok FpTy.sfu true true false)) hx0]; exact targets2_ok F.t1 F.t0 h1 h0 _

theorem fex2 {m t1 t0} : Statement (.fex2 m t1 t0) := by
  intro h n e
  replace h : (m.ok FpTy.sfu true true false && t1.ok && t0.ok) = true := h
  simp only [Bool.and_eq_true] at h
  obtain ⟨⟨hx0, h1⟩, h0⟩ := h
  have F := fieldsD (op := 0x62) e (by decide) m.code_lt t1.code_lt t0.code_lt
  refine ⟨F.lt, ?_⟩
  rw [decodeNat_op F.op]
  show (withMod (fpModOf (fMod n)) (fun m => m.ok FpTy.sfu true true false) fun m => targets2 n (Instr.fex2 m) : Dec) = _
  rw [F.md, fpModOf_code, withMod_some (m := m) (okv := (fun m => m.ok FpTy.sfu true true false)) hx0]; exact targets2_ok F.t1 F.t0 h1 h0 _

theorem flg2 {m t1 t0} : Statement (.flg2 m t1 t0) := by
  intro h n e
  replace h : (m.ok FpTy.sfu true true false && t1.ok && t0.ok) = true := h
  simp only [Bool.and_eq_true] at h
  obtain ⟨⟨hx0, h1⟩, h0⟩ := h
  have F := fieldsD (op := 0x63) e (by decide) m.code_lt t1.code_lt t0.code_lt
  refine ⟨F.lt, ?_⟩
  rw [decodeNat_op F.op]
  show (withMod (fpModOf (fMod n)) (fun m => m.ok FpTy.sfu true true false) fun m => targets2 n (Instr.flg2 m) : Dec) = _
  rw [F.md, fpModOf_code, withMod_some (m := m) (okv := (fun m => m.ok FpTy.sfu true true false)) hx0]; exact targets2_ok F.t1 F.t0 h1 h0 _

theorem fsin {m t1 t0} : Statement (.fsin m t1 t0) := by
  intro h n e
  replace h : (m.ok FpTy.sfu true true false && t1.ok && t0.ok) = true := h
  simp only [Bool.and_eq_true] at h
  obtain ⟨⟨hx0, h1⟩, h0⟩ := h
  have F := fieldsD (op := 0x64) e (by decide) m.code_lt t1.code_lt t0.code_lt
  refine ⟨F.lt, ?_⟩
  rw [decodeNat_op F.op]
  show (withMod (fpModOf (fMod n)) (fun m => m.ok FpTy.sfu true true false) fun m => targets2 n (Instr.fsin m) : Dec) = _
  rw [F.md, fpModOf_code, withMod_some (m := m) (okv := (fun m => m.ok FpTy.sfu true true false)) hx0]; exact targets2_ok F.t1 F.t0 h1 h0 _

theorem fcos {m t1 t0} : Statement (.fcos m t1 t0) := by
  intro h n e
  replace h : (m.ok FpTy.sfu true true false && t1.ok && t0.ok) = true := h
  simp only [Bool.and_eq_true] at h
  obtain ⟨⟨hx0, h1⟩, h0⟩ := h
  have F := fieldsD (op := 0x65) e (by decide) m.code_lt t1.code_lt t0.code_lt
  refine ⟨F.lt, ?_⟩
  rw [decodeNat_op F.op]
  show (withMod (fpModOf (fMod n)) (fun m => m.ok FpTy.sfu true true false) fun m => targets2 n (Instr.fcos m) : Dec) = _
  rw [F.md, fpModOf_code, withMod_some (m := m) (okv := (fun m => m.ok FpTy.sfu true true false)) hx0]; exact targets2_ok F.t1 F.t0 h1 h0 _

theorem ftanh {m t1 t0} : Statement (.ftanh m t1 t0) := by
  intro h n e
  replace h : (m.ok FpTy.sfu true true false && t1.ok && t0.ok) = true := h
  simp only [Bool.and_eq_true] at h
  obtain ⟨⟨hx0, h1⟩, h0⟩ := h
  have F := fieldsD (op := 0x66) e (by decide) m.code_lt t1.code_lt t0.code_lt
  refine ⟨F.lt, ?_⟩
  rw [decodeNat_op F.op]
  show (withMod (fpModOf (fMod n)) (fun m => m.ok FpTy.sfu true true false) fun m => targets2 n (Instr.ftanh m) : Dec) = _
  rw [F.md, fpModOf_code, withMod_some (m := m) (okv := (fun m => m.ok FpTy.sfu true true false)) hx0]; exact targets2_ok F.t1 F.t0 h1 h0 _

theorem fround {m t1 t0} : Statement (.fround m t1 t0) := by
  intro h n e
  replace h : (t1.ok && t0.ok) = true := h
  simp only [Bool.and_eq_true] at h
  obtain ⟨h1, h0⟩ := h
  have F := fieldsD (op := 0x67) e (by decide) m.code_lt t1.code_lt t0.code_lt
  refine ⟨F.lt, ?_⟩
  rw [decodeNat_op F.op]
  show (withMod (froundModOf (fMod n)) (fun m => let _ := m; true) fun m => targets2 n (Instr.fround m) : Dec) = _
  rw [F.md, froundModOf_code]; exact targets2_ok F.t1 F.t0 h1 h0 _

theorem fdot2 {m t1 t0} : Statement (.fdot2 m t1 t0) := by
  intro h n e
  replace h : (m.ok FpTy.packed true true true && t1.ok && t0.ok) = true := h
  simp only [Bool.and_eq_true] at h
  obtain ⟨⟨hx0, h1⟩, h0⟩ := h
  have F := fieldsD (op := 0x68) e (by decide) m.code_lt t1.code_lt t0.code_lt
  refine ⟨F.lt, ?_⟩
  rw [decodeNat_op F.op]
  show (withMod (fpModOf (fMod n)) (fun m => m.ok FpTy.packed true true true) fun m => targets2 n (Instr.fdot2 m) : Dec) = _
  rw [F.md, fpModOf_code, withMod_some (m := m) (okv := (fun m => m.ok FpTy.packed true true true)) hx0]; exact targets2_ok F.t1 F.t0 h1 h0 _

theorem cvtF64 {m t1 t0} : Statement (.cvtF64 m t1 t0) := by
  intro h n e
  replace h : (CvtMod.okFloat m && t1.ok && t0.ok) = true := h
  simp only [Bool.and_eq_true] at h
  obtain ⟨⟨hx0, h1⟩, h0⟩ := h
  have F := fieldsD (op := 0x70) e (by decide) m.code_lt t1.code_lt t0.code_lt
  refine ⟨F.lt, ?_⟩
  rw [decodeNat_op F.op]
  show (withMod (cvtModOf (fMod n)) (fun m => CvtMod.okFloat m) fun m => targets2 n (Instr.cvtF64 m) : Dec) = _
  rw [F.md, cvtModOf_code, withMod_some (m := m) (okv := (fun m => CvtMod.okFloat m)) hx0]; exact targets2_ok F.t1 F.t0 h1 h0 _

theorem cvtF32 {m t1 t0} : Statement (.cvtF32 m t1 t0) := by
  intro h n e
  replace h : (CvtMod.okFloat m && t1.ok && t0.ok) = true := h
  simp only [Bool.and_eq_true] at h
  obtain ⟨⟨hx0, h1⟩, h0⟩ := h
  have F := fieldsD (op := 0x71) e (by decide) m.code_lt t1.code_lt t0.code_lt
  refine ⟨F.lt, ?_⟩
  rw [decodeNat_op F.op]
  show (withMod (cvtModOf (fMod n)) (fun m => CvtMod.okFloat m) fun m => targets2 n (Instr.cvtF32 m) : Dec) = _
  rw [F.md, cvtModOf_code, withMod_some (m := m) (okv := (fun m => CvtMod.okFloat m)) hx0]; exact targets2_ok F.t1 F.t0 h1 h0 _

theorem cvtF16 {m t1 t0} : Statement (.cvtF16 m t1 t0) := by
  intro h n e
  replace h : (CvtMod.okFloat m && t1.ok && t0.ok) = true := h
  simp only [Bool.and_eq_true] at h
  obtain ⟨⟨hx0, h1⟩, h0⟩ := h
  have F := fieldsD (op := 0x72) e (by decide) m.code_lt t1.code_lt t0.code_lt
  refine ⟨F.lt, ?_⟩
  rw [decodeNat_op F.op]
  show (withMod (cvtModOf (fMod n)) (fun m => CvtMod.okFloat m) fun m => targets2 n (Instr.cvtF16 m) : Dec) = _
  rw [F.md, cvtModOf_code, withMod_some (m := m) (okv := (fun m => CvtMod.okFloat m)) hx0]; exact targets2_ok F.t1 F.t0 h1 h0 _

theorem cvtBf16 {m t1 t0} : Statement (.cvtBf16 m t1 t0) := by
  intro h n e
  replace h : (CvtMod.okFloat m && t1.ok && t0.ok) = true := h
  simp only [Bool.and_eq_true] at h
  obtain ⟨⟨hx0, h1⟩, h0⟩ := h
  have F := fieldsD (op := 0x73) e (by decide) m.code_lt t1.code_lt t0.code_lt
  refine ⟨F.lt, ?_⟩
  rw [decodeNat_op F.op]
  show (withMod (cvtModOf (fMod n)) (fun m => CvtMod.okFloat m) fun m => targets2 n (Instr.cvtBf16 m) : Dec) = _
  rw [F.md, cvtModOf_code, withMod_some (m := m) (okv := (fun m => CvtMod.okFloat m)) hx0]; exact targets2_ok F.t1 F.t0 h1 h0 _

theorem cvtE4m3 {m t1 t0} : Statement (.cvtE4m3 m t1 t0) := by
  intro h n e
  replace h : (CvtMod.okFloat m && t1.ok && t0.ok) = true := h
  simp only [Bool.and_eq_true] at h
  obtain ⟨⟨hx0, h1⟩, h0⟩ := h
  have F := fieldsD (op := 0x74) e (by decide) m.code_lt t1.code_lt t0.code_lt
  refine ⟨F.lt, ?_⟩
  rw [decodeNat_op F.op]
  show (withMod (cvtModOf (fMod n)) (fun m => CvtMod.okFloat m) fun m => targets2 n (Instr.cvtE4m3 m) : Dec) = _
  rw [F.md, cvtModOf_code, withMod_some (m := m) (okv := (fun m => CvtMod.okFloat m)) hx0]; exact targets2_ok F.t1 F.t0 h1 h0 _

theorem cvtE5m2 {m t1 t0} : Statement (.cvtE5m2 m t1 t0) := by
  intro h n e
  replace h : (CvtMod.okFloat m && t1.ok && t0.ok) = true := h
  simp only [Bool.and_eq_true] at h
  obtain ⟨⟨hx0, h1⟩, h0⟩ := h
  have F := fieldsD (op := 0x75) e (by decide) m.code_lt t1.code_lt t0.code_lt
  refine ⟨F.lt, ?_⟩
  rw [decodeNat_op F.op]
  show (withMod (cvtModOf (fMod n)) (fun m => CvtMod.okFloat m) fun m => targets2 n (Instr.cvtE5m2 m) : Dec) = _
  rw [F.md, cvtModOf_code, withMod_some (m := m) (okv := (fun m => CvtMod.okFloat m)) hx0]; exact targets2_ok F.t1 F.t0 h1 h0 _

theorem cvtI32 {m t1 t0} : Statement (.cvtI32 m t1 t0) := by
  intro h n e
  replace h : (CvtMod.okInt m && t1.ok && t0.ok) = true := h
  simp only [Bool.and_eq_true] at h
  obtain ⟨⟨hx0, h1⟩, h0⟩ := h
  have F := fieldsD (op := 0x76) e (by decide) m.code_lt t1.code_lt t0.code_lt
  refine ⟨F.lt, ?_⟩
  rw [decodeNat_op F.op]
  show (withMod (cvtModOf (fMod n)) (fun m => CvtMod.okInt m) fun m => targets2 n (Instr.cvtI32 m) : Dec) = _
  rw [F.md, cvtModOf_code, withMod_some (m := m) (okv := (fun m => CvtMod.okInt m)) hx0]; exact targets2_ok F.t1 F.t0 h1 h0 _

theorem cvtN32 {m t1 t0} : Statement (.cvtN32 m t1 t0) := by
  intro h n e
  replace h : (CvtMod.okInt m && t1.ok && t0.ok) = true := h
  simp only [Bool.and_eq_true] at h
  obtain ⟨⟨hx0, h1⟩, h0⟩ := h
  have F := fieldsD (op := 0x77) e (by decide) m.code_lt t1.code_lt t0.code_lt
  refine ⟨F.lt, ?_⟩
  rw [decodeNat_op F.op]
  show (withMod (cvtModOf (fMod n)) (fun m => CvtMod.okInt m) fun m => targets2 n (Instr.cvtN32 m) : Dec) = _
  rw [F.md, cvtModOf_code, withMod_some (m := m) (okv := (fun m => CvtMod.okInt m)) hx0]; exact targets2_ok F.t1 F.t0 h1 h0 _

theorem cvtI64 {m t1 t0} : Statement (.cvtI64 m t1 t0) := by
  intro h n e
  replace h : (CvtMod.okInt m && t1.ok && t0.ok) = true := h
  simp only [Bool.and_eq_true] at h
  obtain ⟨⟨hx0, h1⟩, h0⟩ := h
  have F := fieldsD (op := 0x78) e (by decide) m.code_lt t1.code_lt t0.code_lt
  refine ⟨F.lt, ?_⟩
  rw [decodeNat_op F.op]
  show (withMod (cvtModOf (fMod n)) (fun m => CvtMod.okInt m) fun m => targets2 n (Instr.cvtI64 m) : Dec) = _
  rw [F.md, cvtModOf_code, withMod_some (m := m) (okv := (fun m => CvtMod.okInt m)) hx0]; exact targets2_ok F.t1 F.t0 h1 h0 _

theorem cvtN64 {m t1 t0} : Statement (.cvtN64 m t1 t0) := by
  intro h n e
  replace h : (CvtMod.okInt m && t1.ok && t0.ok) = true := h
  simp only [Bool.and_eq_true] at h
  obtain ⟨⟨hx0, h1⟩, h0⟩ := h
  have F := fieldsD (op := 0x79) e (by decide) m.code_lt t1.code_lt t0.code_lt
  refine ⟨F.lt, ?_⟩
  rw [decodeNat_op F.op]
  show (withMod (cvtModOf (fMod n)) (fun m => CvtMod.okInt m) fun m => targets2 n (Instr.cvtN64 m) : Dec) = _
  rw [F.md, cvtModOf_code, withMod_some (m := m) (okv := (fun m => CvtMod.okInt m)) hx0]; exact targets2_ok F.t1 F.t0 h1 h0 _

theorem cvtPk {m t1 t0} : Statement (.cvtPk m t1 t0) := by
  intro h n e
  replace h : (CvtMod.okPk m && t1.ok && t0.ok) = true := h
  simp only [Bool.and_eq_true] at h
  obtain ⟨⟨hx0, h1⟩, h0⟩ := h
  have F := fieldsD (op := 0x7a) e (by decide) m.code_lt t1.code_lt t0.code_lt
  refine ⟨F.lt, ?_⟩
  rw [decodeNat_op F.op]
  show (withMod (cvtModOf (fMod n)) (fun m => CvtMod.okPk m) fun m => targets2 n (Instr.cvtPk m) : Dec) = _
  rw [F.md, cvtModOf_code, withMod_some (m := m) (okv := (fun m => CvtMod.okPk m)) hx0]; exact targets2_ok F.t1 F.t0 h1 h0 _

theorem cvtCh {m t1 t0} : Statement (.cvtCh m t1 t0) := by
  intro h n e
  replace h : (CvtMod.okCh m && t1.ok && t0.ok) = true := h
  simp only [Bool.and_eq_true] at h
  obtain ⟨⟨hx0, h1⟩, h0⟩ := h
  have F := fieldsD (op := 0x7b) e (by decide) m.code_lt t1.code_lt t0.code_lt
  refine ⟨F.lt, ?_⟩
  rw [decodeNat_op F.op]
  show (withMod (cvtModOf (fMod n)) (fun m => CvtMod.okCh m) fun m => targets2 n (Instr.cvtCh m) : Dec) = _
  rw [F.md, cvtModOf_code, withMod_some (m := m) (okv := (fun m => CvtMod.okCh m)) hx0]; exact targets2_ok F.t1 F.t0 h1 h0 _

theorem ld {z t1 t0} : Statement (.ld z t1 t0) := by
  intro h n e
  replace h : (Size.any z && t1.ok && t0.ok) = true := h
  simp only [Bool.and_eq_true] at h
  obtain ⟨⟨hx0, h1⟩, h0⟩ := h
  have F := fieldsD (op := 0x80) e (by decide) (by have := z.code_lt; omega) t1.code_lt t0.code_lt
  refine ⟨F.lt, ?_⟩
  rw [decodeNat_op F.op]
  show (zeroMod (fMod n % 8) (withMod (sizeOf' (fMod n / 8)) (fun z => Size.any z) fun z => targets2 n (Instr.ld z)) : Dec) = _
  cases z <;> first | exact absurd hx0 (by decide) | (rw [F.md]; exact targets2_ok F.t1 F.t0 h1 h0 _)

theorem lds {z t1 t0} : Statement (.lds z t1 t0) := by
  intro h n e
  replace h : (Size.any z && t1.ok && t0.ok) = true := h
  simp only [Bool.and_eq_true] at h
  obtain ⟨⟨hx0, h1⟩, h0⟩ := h
  have F := fieldsD (op := 0x81) e (by decide) (by have := z.code_lt; omega) t1.code_lt t0.code_lt
  refine ⟨F.lt, ?_⟩
  rw [decodeNat_op F.op]
  show (zeroMod (fMod n % 8) (withMod (sizeOf' (fMod n / 8)) (fun z => Size.any z) fun z => targets2 n (Instr.lds z)) : Dec) = _
  cases z <;> first | exact absurd hx0 (by decide) | (rw [F.md]; exact targets2_ok F.t1 F.t0 h1 h0 _)

theorem ldAcq {z p t1 t0} : Statement (.ldAcq z p t1 t0) := by
  intro h n e
  replace h : (Size.any z && t1.ok && t0.ok) = true := h
  simp only [Bool.and_eq_true] at h
  obtain ⟨⟨hx0, h1⟩, h0⟩ := h
  have F := fieldsD (op := 0x82) e (by decide) (by have := z.code_lt; have := p.code_lt; omega) t1.code_lt t0.code_lt
  refine ⟨F.lt, ?_⟩
  rw [decodeNat_op F.op]
  show (withMod (sizeOf' (fMod n / 8)) (fun z => Size.any z) fun z => withMod (scopeOf (fMod n % 8)) (fun _ => true) fun p => targets2 n (Instr.ldAcq z p) : Dec) = _
  cases p <;> cases z <;> first | exact absurd hx0 (by decide) | (rw [F.md]; exact targets2_ok F.t1 F.t0 h1 h0 _)

theorem ldd {z t1 t0} : Statement (.ldd z t1 t0) := by
  intro h n e
  replace h : (Size.upTo64 z && t1.ok && t0.ok) = true := h
  simp only [Bool.and_eq_true] at h
  obtain ⟨⟨hx0, h1⟩, h0⟩ := h
  have F := fieldsD (op := 0x83) e (by decide) (by have := z.code_lt; omega) t1.code_lt t0.code_lt
  refine ⟨F.lt, ?_⟩
  rw [decodeNat_op F.op]
  show (zeroMod (fMod n % 8) (withMod (sizeOf' (fMod n / 8)) (fun z => Size.upTo64 z) fun z => targets2 n (Instr.ldd z)) : Dec) = _
  cases z <;> first | exact absurd hx0 (by decide) | (rw [F.md]; exact targets2_ok F.t1 F.t0 h1 h0 _)

theorem ldnc {z t1 t0} : Statement (.ldnc z t1 t0) := by
  intro h n e
  replace h : (Size.any z && t1.ok && t0.ok) = true := h
  simp only [Bool.and_eq_true] at h
  obtain ⟨⟨hx0, h1⟩, h0⟩ := h
  have F := fieldsD (op := 0x84) e (by decide) (by have := z.code_lt; omega) t1.code_lt t0.code_lt
  refine ⟨F.lt, ?_⟩
  rw [decodeNat_op F.op]
  show (zeroMod (fMod n % 8) (withMod (sizeOf' (fMod n / 8)) (fun z => Size.any z) fun z => targets2 n (Instr.ldnc z)) : Dec) = _
  cases z <;> first | exact absurd hx0 (by decide) | (rw [F.md]; exact targets2_ok F.t1 F.t0 h1 h0 _)

theorem st {z t1} : Statement (.st z t1) := by
  intro h n e
  replace h : (Size.any z && t1.ok) = true := h
  simp only [Bool.and_eq_true] at h
  obtain ⟨hx0, h1⟩ := h
  have F := fieldsD (op := 0x85) e (by decide) (by have := z.code_lt; omega) t1.code_lt (by decide)
  refine ⟨F.lt, ?_⟩
  rw [decodeNat_op F.op]
  show (zeroMod (fMod n % 8) (withMod (sizeOf' (fMod n / 8)) (fun z => Size.any z) fun z => targets1 n (Instr.st z)) : Dec) = _
  cases z <;> first | exact absurd hx0 (by decide) | (rw [F.md]; exact targets1_ok F.t1 F.t0 h1 _)

theorem stRel {z p t1} : Statement (.stRel z p t1) := by
  intro h n e
  replace h : (Size.any z && t1.ok) = true := h
  simp only [Bool.and_eq_true] at h
  obtain ⟨hx0, h1⟩ := h
  have F := fieldsD (op := 0x86) e (by decide) (by have := z.code_lt; have := p.code_lt; omega) t1.code_lt (by decide)
  refine ⟨F.lt, ?_⟩
  rw [decodeNat_op F.op]
  show (withMod (sizeOf' (fMod n / 8)) (fun z => Size.any z) fun z => withMod (scopeOf (fMod n % 8)) (fun _ => true) fun p => targets1 n (Instr.stRel z p) : Dec) = _
  cases p <;> cases z <;> first | exact absurd hx0 (by decide) | (rw [F.md]; exact targets1_ok F.t1 F.t0 h1 _)

theorem stnc {z t1} : Statement (.stnc z t1) := by
  intro h n e
  replace h : (Size.any z && t1.ok) = true := h
  simp only [Bool.and_eq_true] at h
  obtain ⟨hx0, h1⟩ := h
  have F := fieldsD (op := 0x87) e (by decide) (by have := z.code_lt; omega) t1.code_lt (by decide)
  refine ⟨F.lt, ?_⟩
  rw [decodeNat_op F.op]
  show (zeroMod (fMod n % 8) (withMod (sizeOf' (fMod n / 8)) (fun z => Size.any z) fun z => targets1 n (Instr.stnc z)) : Dec) = _
  cases z <;> first | exact absurd hx0 (by decide) | (rw [F.md]; exact targets1_ok F.t1 F.t0 h1 _)

theorem prefetch {l2 t1} : Statement (.prefetch l2 t1) := by
  intro h n e
  replace h : (t1.ok) = true := h
  have h1 := h
  have F := fieldsD (op := 0x88) e (by decide) (by have := bitN_lt l2; omega) t1.code_lt (by decide)
  refine ⟨F.lt, ?_⟩
  rw [decodeNat_op F.op]
  show (zeroMod (fMod n % 8) (zeroMod (fMod n / 16) (targets1 n (Instr.prefetch (fMod n / 8 == 1)))) : Dec) = _
  cases l2 <;> (rw [F.md]; exact targets1_ok F.t1 F.t0 h1 _)

theorem fence {k p t1} : Statement (.fence k p t1) := by
  intro h n e
  replace h : (t1.ok) = true := h
  have h1 := h
  have F := fieldsD (op := 0x89) e (by decide) (by have := k.code_lt; have := p.code_lt; omega) t1.code_lt (by decide)
  refine ⟨F.lt, ?_⟩
  rw [decodeNat_op F.op]
  show (withMod (fenceKindOf (fMod n / 8)) (fun _ => true) fun k => withMod (scopeOf (fMod n % 8)) (fun _ => true) fun p => targets1 n (Instr.fence k p) : Dec) = _
  cases k <;> cases p <;> (rw [F.md]; exact targets1_ok F.t1 F.t0 h1 _)

theorem fenceEng {t1} : Statement (.fenceEng t1) := by
  intro h n e
  replace h : (t1.ok) = true := h
  have h1 := h
  have F := fieldsD (op := 0x8a) e (by decide) (by decide) t1.code_lt (by decide)
  refine ⟨F.lt, ?_⟩
  rw [decodeNat_op F.op]
  show (zeroMod (fMod n) (targets1 n Instr.fenceEng) : Dec) = _
  rw [F.md]; exact targets1_ok F.t1 F.t0 h1 _

theorem cinv {t1} : Statement (.cinv t1) := by
  intro h n e
  replace h : (t1.ok) = true := h
  have h1 := h
  have F := fieldsD (op := 0x8b) e (by decide) (by decide) t1.code_lt (by decide)
  refine ⟨F.lt, ?_⟩
  rw [decodeNat_op F.op]
  show (zeroMod (fMod n) (targets1 n Instr.cinv) : Dec) = _
  rw [F.md]; exact targets1_ok F.t1 F.t0 h1 _

theorem cwb {t1} : Statement (.cwb t1) := by
  intro h n e
  replace h : (t1.ok) = true := h
  have h1 := h
  have F := fieldsD (op := 0x8c) e (by decide) (by decide) t1.code_lt (by decide)
  refine ⟨F.lt, ?_⟩
  rw [decodeNat_op F.op]
  show (zeroMod (fMod n) (targets1 n Instr.cwb) : Dec) = _
  rw [F.md]; exact targets1_ok F.t1 F.t0 h1 _

theorem probe {t1 t0} : Statement (.probe t1 t0) := by
  intro h n e
  replace h : (t1.ok && t0.ok) = true := h
  simp only [Bool.and_eq_true] at h
  obtain ⟨h1, h0⟩ := h
  have F := fieldsD (op := 0x8d) e (by decide) (by decide) t1.code_lt t0.code_lt
  refine ⟨F.lt, ?_⟩
  rw [decodeNat_op F.op]
  show (zeroMod (fMod n) (targets2 n Instr.probe) : Dec) = _
  rw [F.md]; exact targets2_ok F.t1 F.t0 h1 h0 _

theorem aadd {z t1 t0} : Statement (.aadd z t1 t0) := by
  intro h n e
  replace h : (Size.word z && t1.ok && t0.ok) = true := h
  simp only [Bool.and_eq_true] at h
  obtain ⟨⟨hx0, h1⟩, h0⟩ := h
  have F := fieldsD (op := 0xa0) e (by decide) (by have := z.code_lt; omega) t1.code_lt t0.code_lt
  refine ⟨F.lt, ?_⟩
  rw [decodeNat_op F.op]
  show (zeroMod (fMod n % 8) (withMod (sizeOf' (fMod n / 8)) (fun z => Size.word z) fun z => targets2 n (Instr.aadd z)) : Dec) = _
  cases z <;> first | exact absurd hx0 (by decide) | (rw [F.md]; exact targets2_ok F.t1 F.t0 h1 h0 _)

theorem aaddAr {z p t1 t0} : Statement (.aaddAr z p t1 t0) := by
  intro h n e
  replace h : (Size.word z && t1.ok && t0.ok) = true := h
  simp only [Bool.and_eq_true] at h
  obtain ⟨⟨hx0, h1⟩, h0⟩ := h
  have F := fieldsD (op := 0xa1) e (by decide) (by have := z.code_lt; have := p.code_lt; omega) t1.code_lt t0.code_lt
  refine ⟨F.lt, ?_⟩
  rw [decodeNat_op F.op]
  show (withMod (sizeOf' (fMod n / 8)) (fun z => Size.word z) fun z => withMod (scopeOf (fMod n % 8)) (fun _ => true) fun p => targets2 n (Instr.aaddAr z p) : Dec) = _
  cases p <;> cases z <;> first | exact absurd hx0 (by decide) | (rw [F.md]; exact targets2_ok F.t1 F.t0 h1 h0 _)

theorem amin {z t1 t0} : Statement (.amin z t1 t0) := by
  intro h n e
  replace h : (Size.word z && t1.ok && t0.ok) = true := h
  simp only [Bool.and_eq_true] at h
  obtain ⟨⟨hx0, h1⟩, h0⟩ := h
  have F := fieldsD (op := 0xa2) e (by decide) (by have := z.code_lt; omega) t1.code_lt t0.code_lt
  refine ⟨F.lt, ?_⟩
  rw [decodeNat_op F.op]
  show (zeroMod (fMod n % 8) (withMod (sizeOf' (fMod n / 8)) (fun z => Size.word z) fun z => targets2 n (Instr.amin z)) : Dec) = _
  cases z <;> first | exact absurd hx0 (by decide) | (rw [F.md]; exact targets2_ok F.t1 F.t0 h1 h0 _)

theorem aminAr {z p t1 t0} : Statement (.aminAr z p t1 t0) := by
  intro h n e
  replace h : (Size.word z && t1.ok && t0.ok) = true := h
  simp only [Bool.and_eq_true] at h
  obtain ⟨⟨hx0, h1⟩, h0⟩ := h
  have F := fieldsD (op := 0xa3) e (by decide) (by have := z.code_lt; have := p.code_lt; omega) t1.code_lt t0.code_lt
  refine ⟨F.lt, ?_⟩
  rw [decodeNat_op F.op]
  show (withMod (sizeOf' (fMod n / 8)) (fun z => Size.word z) fun z => withMod (scopeOf (fMod n % 8)) (fun _ => true) fun p => targets2 n (Instr.aminAr z p) : Dec) = _
  cases p <;> cases z <;> first | exact absurd hx0 (by decide) | (rw [F.md]; exact targets2_ok F.t1 F.t0 h1 h0 _)

theorem amax {z t1 t0} : Statement (.amax z t1 t0) := by
  intro h n e
  replace h : (Size.word z && t1.ok && t0.ok) = true := h
  simp only [Bool.and_eq_true] at h
  obtain ⟨⟨hx0, h1⟩, h0⟩ := h
  have F := fieldsD (op := 0xa4) e (by decide) (by have := z.code_lt; omega) t1.code_lt t0.code_lt
  refine ⟨F.lt, ?_⟩
  rw [decodeNat_op F.op]
  show (zeroMod (fMod n % 8) (withMod (sizeOf' (fMod n / 8)) (fun z => Size.word z) fun z => targets2 n (Instr.amax z)) : Dec) = _
  cases z <;> first | exact absurd hx0 (by decide) | (rw [F.md]; exact targets2_ok F.t1 F.t0 h1 h0 _)

theorem amaxAr {z p t1 t0} : Statement (.amaxAr z p t1 t0) := by
  intro h n e
  replace h : (Size.word z && t1.ok && t0.ok) = true := h
  simp only [Bool.and_eq_true] at h
  obtain ⟨⟨hx0, h1⟩, h0⟩ := h
  have F := fieldsD (op := 0xa5) e (by decide) (by have := z.code_lt; have := p.code_lt; omega) t1.code_lt t0.code_lt
  refine ⟨F.lt, ?_⟩
  rw [decodeNat_op F.op]
  show (withMod (sizeOf' (fMod n / 8)) (fun z => Size.word z) fun z => withMod (scopeOf (fMod n % 8)) (fun _ => true) fun p => targets2 n (Instr.amaxAr z p) : Dec) = _
  cases p <;> cases z <;> first | exact absurd hx0 (by decide) | (rw [F.md]; exact targets2_ok F.t1 F.t0 h1 h0 _)

theorem aminn {z t1 t0} : Statement (.aminn z t1 t0) := by
  intro h n e
  replace h : (Size.word z && t1.ok && t0.ok) = true := h
  simp only [Bool.and_eq_true] at h
  obtain ⟨⟨hx0, h1⟩, h0⟩ := h
  have F := fieldsD (op := 0xa6) e (by decide) (by have := z.code_lt; omega) t1.code_lt t0.code_lt
  refine ⟨F.lt, ?_⟩
  rw [decodeNat_op F.op]
  show (zeroMod (fMod n % 8) (withMod (sizeOf' (fMod n / 8)) (fun z => Size.word z) fun z => targets2 n (Instr.aminn z)) : Dec) = _
  cases z <;> first | exact absurd hx0 (by decide) | (rw [F.md]; exact targets2_ok F.t1 F.t0 h1 h0 _)

theorem amaxn {z t1 t0} : Statement (.amaxn z t1 t0) := by
  intro h n e
  replace h : (Size.word z && t1.ok && t0.ok) = true := h
  simp only [Bool.and_eq_true] at h
  obtain ⟨⟨hx0, h1⟩, h0⟩ := h
  have F := fieldsD (op := 0xa7) e (by decide) (by have := z.code_lt; omega) t1.code_lt t0.code_lt
  refine ⟨F.lt, ?_⟩
  rw [decodeNat_op F.op]
  show (zeroMod (fMod n % 8) (withMod (sizeOf' (fMod n / 8)) (fun z => Size.word z) fun z => targets2 n (Instr.amaxn z)) : Dec) = _
  cases z <;> first | exact absurd hx0 (by decide) | (rw [F.md]; exact targets2_ok F.t1 F.t0 h1 h0 _)

theorem aand {z t1 t0} : Statement (.aand z t1 t0) := by
  intro h n e
  replace h : (Size.word z && t1.ok && t0.ok) = true := h
  simp only [Bool.and_eq_true] at h
  obtain ⟨⟨hx0, h1⟩, h0⟩ := h
  have F := fieldsD (op := 0xa8) e (by decide) (by have := z.code_lt; omega) t1.code_lt t0.code_lt
  refine ⟨F.lt, ?_⟩
  rw [decodeNat_op F.op]
  show (zeroMod (fMod n % 8) (withMod (sizeOf' (fMod n / 8)) (fun z => Size.word z) fun z => targets2 n (Instr.aand z)) : Dec) = _
  cases z <;> first | exact absurd hx0 (by decide) | (rw [F.md]; exact targets2_ok F.t1 F.t0 h1 h0 _)

theorem aandAr {z p t1 t0} : Statement (.aandAr z p t1 t0) := by
  intro h n e
  replace h : (Size.word z && t1.ok && t0.ok) = true := h
  simp only [Bool.and_eq_true] at h
  obtain ⟨⟨hx0, h1⟩, h0⟩ := h
  have F := fieldsD (op := 0xa9) e (by decide) (by have := z.code_lt; have := p.code_lt; omega) t1.code_lt t0.code_lt
  refine ⟨F.lt, ?_⟩
  rw [decodeNat_op F.op]
  show (withMod (sizeOf' (fMod n / 8)) (fun z => Size.word z) fun z => withMod (scopeOf (fMod n % 8)) (fun _ => true) fun p => targets2 n (Instr.aandAr z p) : Dec) = _
  cases p <;> cases z <;> first | exact absurd hx0 (by decide) | (rw [F.md]; exact targets2_ok F.t1 F.t0 h1 h0 _)

theorem aor {z t1 t0} : Statement (.aor z t1 t0) := by
  intro h n e
  replace h : (Size.word z && t1.ok && t0.ok) = true := h
  simp only [Bool.and_eq_true] at h
  obtain ⟨⟨hx0, h1⟩, h0⟩ := h
  have F := fieldsD (op := 0xaa) e (by decide) (by have := z.code_lt; omega) t1.code_lt t0.code_lt
  refine ⟨F.lt, ?_⟩
  rw [decodeNat_op F.op]
  show (zeroMod (fMod n % 8) (withMod (sizeOf' (fMod n / 8)) (fun z => Size.word z) fun z => targets2 n (Instr.aor z)) : Dec) = _
  cases z <;> first | exact absurd hx0 (by decide) | (rw [F.md]; exact targets2_ok F.t1 F.t0 h1 h0 _)

theorem aorAr {z p t1 t0} : Statement (.aorAr z p t1 t0) := by
  intro h n e
  replace h : (Size.word z && t1.ok && t0.ok) = true := h
  simp only [Bool.and_eq_true] at h
  obtain ⟨⟨hx0, h1⟩, h0⟩ := h
  have F := fieldsD (op := 0xab) e (by decide) (by have := z.code_lt; have := p.code_lt; omega) t1.code_lt t0.code_lt
  refine ⟨F.lt, ?_⟩
  rw [decodeNat_op F.op]
  show (withMod (sizeOf' (fMod n / 8)) (fun z => Size.word z) fun z => withMod (scopeOf (fMod n % 8)) (fun _ => true) fun p => targets2 n (Instr.aorAr z p) : Dec) = _
  cases p <;> cases z <;> first | exact absurd hx0 (by decide) | (rw [F.md]; exact targets2_ok F.t1 F.t0 h1 h0 _)

theorem axor {z t1 t0} : Statement (.axor z t1 t0) := by
  intro h n e
  replace h : (Size.word z && t1.ok && t0.ok) = true := h
  simp only [Bool.and_eq_true] at h
  obtain ⟨⟨hx0, h1⟩, h0⟩ := h
  have F := fieldsD (op := 0xac) e (by decide) (by have := z.code_lt; omega) t1.code_lt t0.code_lt
  refine ⟨F.lt, ?_⟩
  rw [decodeNat_op F.op]
  show (zeroMod (fMod n % 8) (withMod (sizeOf' (fMod n / 8)) (fun z => Size.word z) fun z => targets2 n (Instr.axor z)) : Dec) = _
  cases z <;> first | exact absurd hx0 (by decide) | (rw [F.md]; exact targets2_ok F.t1 F.t0 h1 h0 _)

theorem axorAr {z p t1 t0} : Statement (.axorAr z p t1 t0) := by
  intro h n e
  replace h : (Size.word z && t1.ok && t0.ok) = true := h
  simp only [Bool.and_eq_true] at h
  obtain ⟨⟨hx0, h1⟩, h0⟩ := h
  have F := fieldsD (op := 0xad) e (by decide) (by have := z.code_lt; have := p.code_lt; omega) t1.code_lt t0.code_lt
  refine ⟨F.lt, ?_⟩
  rw [decodeNat_op F.op]
  show (withMod (sizeOf' (fMod n / 8)) (fun z => Size.word z) fun z => withMod (scopeOf (fMod n % 8)) (fun _ => true) fun p => targets2 n (Instr.axorAr z p) : Dec) = _
  cases p <;> cases z <;> first | exact absurd hx0 (by decide) | (rw [F.md]; exact targets2_ok F.t1 F.t0 h1 h0 _)

theorem axchg {z t1 t0} : Statement (.axchg z t1 t0) := by
  intro h n e
  replace h : (Size.word z && t1.ok && t0.ok) = true := h
  simp only [Bool.and_eq_true] at h
  obtain ⟨⟨hx0, h1⟩, h0⟩ := h
  have F := fieldsD (op := 0xae) e (by decide) (by have := z.code_lt; omega) t1.code_lt t0.code_lt
  refine ⟨F.lt, ?_⟩
  rw [decodeNat_op F.op]
  show (zeroMod (fMod n % 8) (withMod (sizeOf' (fMod n / 8)) (fun z => Size.word z) fun z => targets2 n (Instr.axchg z)) : Dec) = _
  cases z <;> first | exact absurd hx0 (by decide) | (rw [F.md]; exact targets2_ok F.t1 F.t0 h1 h0 _)

theorem axchgAr {z p t1 t0} : Statement (.axchgAr z p t1 t0) := by
  intro h n e
  replace h : (Size.word z && t1.ok && t0.ok) = true := h
  simp only [Bool.and_eq_true] at h
  obtain ⟨⟨hx0, h1⟩, h0⟩ := h
  have F := fieldsD (op := 0xaf) e (by decide) (by have := z.code_lt; have := p.code_lt; omega) t1.code_lt t0.code_lt
  refine ⟨F.lt, ?_⟩
  rw [decodeNat_op F.op]
  show (withMod (sizeOf' (fMod n / 8)) (fun z => Size.word z) fun z => withMod (scopeOf (fMod n % 8)) (fun _ => true) fun p => targets2 n (Instr.axchgAr z p) : Dec) = _
  cases p <;> cases z <;> first | exact absurd hx0 (by decide) | (rw [F.md]; exact targets2_ok F.t1 F.t0 h1 h0 _)

theorem acas {z t1 t0} : Statement (.acas z t1 t0) := by
  intro h n e
  replace h : (Size.casOk z && t1.ok && t0.ok) = true := h
  simp only [Bool.and_eq_true] at h
  obtain ⟨⟨hx0, h1⟩, h0⟩ := h
  have F := fieldsD (op := 0xb0) e (by decide) (by have := z.code_lt; omega) t1.code_lt t0.code_lt
  refine ⟨F.lt, ?_⟩
  rw [decodeNat_op F.op]
  show (zeroMod (fMod n % 8) (withMod (sizeOf' (fMod n / 8)) (fun z => Size.casOk z) fun z => targets2 n (Instr.acas z)) : Dec) = _
  cases z <;> first | exact absurd hx0 (by decide) | (rw [F.md]; exact targets2_ok F.t1 F.t0 h1 h0 _)

theorem acasAr {z p t1 t0} : Statement (.acasAr z p t1 t0) := by
  intro h n e
  replace h : (Size.casOk z && t1.ok && t0.ok) = true := h
  simp only [Bool.and_eq_true] at h
  obtain ⟨⟨hx0, h1⟩, h0⟩ := h
  have F := fieldsD (op := 0xb1) e (by decide) (by have := z.code_lt; have := p.code_lt; omega) t1.code_lt t0.code_lt
  refine ⟨F.lt, ?_⟩
  rw [decodeNat_op F.op]
  show (withMod (sizeOf' (fMod n / 8)) (fun z => Size.casOk z) fun z => withMod (scopeOf (fMod n % 8)) (fun _ => true) fun p => targets2 n (Instr.acasAr z p) : Dec) = _
  cases p <;> cases z <;> first | exact absurd hx0 (by decide) | (rw [F.md]; exact targets2_ok F.t1 F.t0 h1 h0 _)

theorem ainc {z t1 t0} : Statement (.ainc z t1 t0) := by
  intro h n e
  replace h : (Size.word z && t1.ok && t0.ok) = true := h
  simp only [Bool.and_eq_true] at h
  obtain ⟨⟨hx0, h1⟩, h0⟩ := h
  have F := fieldsD (op := 0xb2) e (by decide) (by have := z.code_lt; omega) t1.code_lt t0.code_lt
  refine ⟨F.lt, ?_⟩
  rw [decodeNat_op F.op]
  show (zeroMod (fMod n % 8) (withMod (sizeOf' (fMod n / 8)) (fun z => Size.word z) fun z => targets2 n (Instr.ainc z)) : Dec) = _
  cases z <;> first | exact absurd hx0 (by decide) | (rw [F.md]; exact targets2_ok F.t1 F.t0 h1 h0 _)

theorem adec {z t1 t0} : Statement (.adec z t1 t0) := by
  intro h n e
  replace h : (Size.word z && t1.ok && t0.ok) = true := h
  simp only [Bool.and_eq_true] at h
  obtain ⟨⟨hx0, h1⟩, h0⟩ := h
  have F := fieldsD (op := 0xb3) e (by decide) (by have := z.code_lt; omega) t1.code_lt t0.code_lt
  refine ⟨F.lt, ?_⟩
  rw [decodeNat_op F.op]
  show (zeroMod (fMod n % 8) (withMod (sizeOf' (fMod n / 8)) (fun z => Size.word z) fun z => targets2 n (Instr.adec z)) : Dec) = _
  cases z <;> first | exact absurd hx0 (by decide) | (rw [F.md]; exact targets2_ok F.t1 F.t0 h1 h0 _)

theorem aaddb {z t1 t0} : Statement (.aaddb z t1 t0) := by
  intro h n e
  replace h : (Size.word z && t1.ok && t0.ok) = true := h
  simp only [Bool.and_eq_true] at h
  obtain ⟨⟨hx0, h1⟩, h0⟩ := h
  have F := fieldsD (op := 0xb4) e (by decide) (by have := z.code_lt; omega) t1.code_lt t0.code_lt
  refine ⟨F.lt, ?_⟩
  rw [decodeNat_op F.op]
  show (zeroMod (fMod n % 8) (withMod (sizeOf' (fMod n / 8)) (fun z => Size.word z) fun z => targets2 n (Instr.aaddb z)) : Dec) = _
  cases z <;> first | exact absurd hx0 (by decide) | (rw [F.md]; exact targets2_ok F.t1 F.t0 h1 h0 _)

theorem aaddbAr {z p t1 t0} : Statement (.aaddbAr z p t1 t0) := by
  intro h n e
  replace h : (Size.word z && t1.ok && t0.ok) = true := h
  simp only [Bool.and_eq_true] at h
  obtain ⟨⟨hx0, h1⟩, h0⟩ := h
  have F := fieldsD (op := 0xb5) e (by decide) (by have := z.code_lt; have := p.code_lt; omega) t1.code_lt t0.code_lt
  refine ⟨F.lt, ?_⟩
  rw [decodeNat_op F.op]
  show (withMod (sizeOf' (fMod n / 8)) (fun z => Size.word z) fun z => withMod (scopeOf (fMod n % 8)) (fun _ => true) fun p => targets2 n (Instr.aaddbAr z p) : Dec) = _
  cases p <;> cases z <;> first | exact absurd hx0 (by decide) | (rw [F.md]; exact targets2_ok F.t1 F.t0 h1 h0 _)

theorem afadd {z t1 t0} : Statement (.afadd z t1 t0) := by
  intro h n e
  replace h : (Size.word z && t1.ok && t0.ok) = true := h
  simp only [Bool.and_eq_true] at h
  obtain ⟨⟨hx0, h1⟩, h0⟩ := h
  have F := fieldsD (op := 0xb6) e (by decide) (by have := z.code_lt; omega) t1.code_lt t0.code_lt
  refine ⟨F.lt, ?_⟩
  rw [decodeNat_op F.op]
  show (zeroMod (fMod n % 8) (withMod (sizeOf' (fMod n / 8)) (fun z => Size.word z) fun z => targets2 n (Instr.afadd z)) : Dec) = _
  cases z <;> first | exact absurd hx0 (by decide) | (rw [F.md]; exact targets2_ok F.t1 F.t0 h1 h0 _)

theorem afadd2 {z t1 t0} : Statement (.afadd2 z t1 t0) := by
  intro h n e
  replace h : (Size.only32 z && t1.ok && t0.ok) = true := h
  simp only [Bool.and_eq_true] at h
  obtain ⟨⟨hx0, h1⟩, h0⟩ := h
  have F := fieldsD (op := 0xb7) e (by decide) (by have := z.code_lt; omega) t1.code_lt t0.code_lt
  refine ⟨F.lt, ?_⟩
  rw [decodeNat_op F.op]
  show (zeroMod (fMod n % 8) (withMod (sizeOf' (fMod n / 8)) (fun z => Size.only32 z) fun z => targets2 n (Instr.afadd2 z)) : Dec) = _
  cases z <;> first | exact absurd hx0 (by decide) | (rw [F.md]; exact targets2_ok F.t1 F.t0 h1 h0 _)

theorem afmin {z t1 t0} : Statement (.afmin z t1 t0) := by
  intro h n e
  replace h : (Size.word z && t1.ok && t0.ok) = true := h
  simp only [Bool.and_eq_true] at h
  obtain ⟨⟨hx0, h1⟩, h0⟩ := h
  have F := fieldsD (op := 0xb8) e (by decide) (by have := z.code_lt; omega) t1.code_lt t0.code_lt
  refine ⟨F.lt, ?_⟩
  rw [decodeNat_op F.op]
  show (zeroMod (fMod n % 8) (withMod (sizeOf' (fMod n / 8)) (fun z => Size.word z) fun z => targets2 n (Instr.afmin z)) : Dec) = _
  cases z <;> first | exact absurd hx0 (by decide) | (rw [F.md]; exact targets2_ok F.t1 F.t0 h1 h0 _)

theorem afmax {z t1 t0} : Statement (.afmax z t1 t0) := by
  intro h n e
  replace h : (Size.word z && t1.ok && t0.ok) = true := h
  simp only [Bool.and_eq_true] at h
  obtain ⟨⟨hx0, h1⟩, h0⟩ := h
  have F := fieldsD (op := 0xb9) e (by decide) (by have := z.code_lt; omega) t1.code_lt t0.code_lt
  refine ⟨F.lt, ?_⟩
  rw [decodeNat_op F.op]
  show (zeroMod (fMod n % 8) (withMod (sizeOf' (fMod n / 8)) (fun z => Size.word z) fun z => targets2 n (Instr.afmax z)) : Dec) = _
  cases z <;> first | exact absurd hx0 (by decide) | (rw [F.md]; exact targets2_ok F.t1 F.t0 h1 h0 _)

theorem aredAdd {z t1} : Statement (.aredAdd z t1) := by
  intro h n e
  replace h : (Size.word z && t1.ok) = true := h
  simp only [Bool.and_eq_true] at h
  obtain ⟨hx0, h1⟩ := h
  have F := fieldsD (op := 0xba) e (by decide) (by have := z.code_lt; omega) t1.code_lt (by decide)
  refine ⟨F.lt, ?_⟩
  rw [decodeNat_op F.op]
  show (zeroMod (fMod n % 8) (withMod (sizeOf' (fMod n / 8)) (fun z => Size.word z) fun z => targets1 n (Instr.aredAdd z)) : Dec) = _
  cases z <;> first | exact absurd hx0 (by decide) | (rw [F.md]; exact targets1_ok F.t1 F.t0 h1 _)

theorem aredFadd {z t1} : Statement (.aredFadd z t1) := by
  intro h n e
  replace h : (Size.word z && t1.ok) = true := h
  simp only [Bool.and_eq_true] at h
  obtain ⟨hx0, h1⟩ := h
  have F := fieldsD (op := 0xbb) e (by decide) (by have := z.code_lt; omega) t1.code_lt (by decide)
  refine ⟨F.lt, ?_⟩
  rw [decodeNat_op F.op]
  show (zeroMod (fMod n % 8) (withMod (sizeOf' (fMod n / 8)) (fun z => Size.word z) fun z => targets1 n (Instr.aredFadd z)) : Dec) = _
  cases z <;> first | exact absurd hx0 (by decide) | (rw [F.md]; exact targets1_ok F.t1 F.t0 h1 _)

theorem aredMin {z t1} : Statement (.aredMin z t1) := by
  intro h n e
  replace h : (Size.word z && t1.ok) = true := h
  simp only [Bool.and_eq_true] at h
  obtain ⟨hx0, h1⟩ := h
  have F := fieldsD (op := 0xbc) e (by decide) (by have := z.code_lt; omega) t1.code_lt (by decide)
  refine ⟨F.lt, ?_⟩
  rw [decodeNat_op F.op]
  show (zeroMod (fMod n % 8) (withMod (sizeOf' (fMod n / 8)) (fun z => Size.word z) fun z => targets1 n (Instr.aredMin z)) : Dec) = _
  cases z <;> first | exact absurd hx0 (by decide) | (rw [F.md]; exact targets1_ok F.t1 F.t0 h1 _)

theorem aredMax {z t1} : Statement (.aredMax z t1) := by
  intro h n e
  replace h : (Size.word z && t1.ok) = true := h
  simp only [Bool.and_eq_true] at h
  obtain ⟨hx0, h1⟩ := h
  have F := fieldsD (op := 0xbd) e (by decide) (by have := z.code_lt; omega) t1.code_lt (by decide)
  refine ⟨F.lt, ?_⟩
  rw [decodeNat_op F.op]
  show (zeroMod (fMod n % 8) (withMod (sizeOf' (fMod n / 8)) (fun z => Size.word z) fun z => targets1 n (Instr.aredMax z)) : Dec) = _
  cases z <;> first | exact absurd hx0 (by decide) | (rw [F.md]; exact targets1_ok F.t1 F.t0 h1 _)

theorem aredOr {z t1} : Statement (.aredOr z t1) := by
  intro h n e
  replace h : (Size.word z && t1.ok) = true := h
  simp only [Bool.and_eq_true] at h
  obtain ⟨hx0, h1⟩ := h
  have F := fieldsD (op := 0xbe) e (by decide) (by have := z.code_lt; omega) t1.code_lt (by decide)
  refine ⟨F.lt, ?_⟩
  rw [decodeNat_op F.op]
  show (zeroMod (fMod n % 8) (withMod (sizeOf' (fMod n / 8)) (fun z => Size.word z) fun z => targets1 n (Instr.aredOr z)) : Dec) = _
  cases z <;> first | exact absurd hx0 (by decide) | (rw [F.md]; exact targets1_ok F.t1 F.t0 h1 _)

theorem aredAnd {z t1} : Statement (.aredAnd z t1) := by
  intro h n e
  replace h : (Size.word z && t1.ok) = true := h
  simp only [Bool.and_eq_true] at h
  obtain ⟨hx0, h1⟩ := h
  have F := fieldsD (op := 0xbf) e (by decide) (by have := z.code_lt; omega) t1.code_lt (by decide)
  refine ⟨F.lt, ?_⟩
  rw [decodeNat_op F.op]
  show (zeroMod (fMod n % 8) (withMod (sizeOf' (fMod n / 8)) (fun z => Size.word z) fun z => targets1 n (Instr.aredAnd z)) : Dec) = _
  cases z <;> first | exact absurd hx0 (by decide) | (rw [F.md]; exact targets1_ok F.t1 F.t0 h1 _)

theorem barWait {num off} : Statement (.barWait num off) := by
  intro h n e
  have F := fieldsB (op := 0xc0) e (by decide) num.isLt off.isLt
  refine ⟨F.lt, ?_⟩
  rw [decodeNat_op F.op]
  show (withSlot (true) (.ok (Instr.barWait (BitVec.ofNat 4 (fNum n)) (BitVec.ofNat 20 (fOff20 n)))) : Dec) = _
  rw [F.num, F.off, ofNat_toNat20, ofNat_toNat4]; rfl

theorem barArrive {b t1} : Statement (.barArrive b t1) := by
  intro h n e
  replace h : (BarRef.okArrive b && t1.ok) = true := h
  simp only [Bool.and_eq_true] at h
  obtain ⟨hx0, h1⟩ := h
  have F := fieldsD (op := 0xc1) e (by decide) (by have := b.code_lt; omega) t1.code_lt (by decide)
  refine ⟨F.lt, ?_⟩
  rw [decodeNat_op F.op]
  show (withMod (barRefOf (fMod n)) (fun b => BarRef.okArrive b) fun b => targets1 n (Instr.barArrive b) : Dec) = _
  rw [F.md, barRefOf_code, withMod_some (m := b) (okv := (fun b => BarRef.okArrive b)) hx0]; exact targets1_ok F.t1 F.t0 h1 _

theorem barDrop {b t1} : Statement (.barDrop b t1) := by
  intro h n e
  replace h : (BarRef.okArrive b && t1.ok) = true := h
  simp only [Bool.and_eq_true] at h
  obtain ⟨hx0, h1⟩ := h
  have F := fieldsD (op := 0xc2) e (by decide) (by have := b.code_lt; omega) t1.code_lt (by decide)
  refine ⟨F.lt, ?_⟩
  rw [decodeNat_op F.op]
  show (withMod (barRefOf (fMod n)) (fun b => BarRef.okArrive b) fun b => targets1 n (Instr.barDrop b) : Dec) = _
  rw [F.md, barRefOf_code, withMod_some (m := b) (okv := (fun b => BarRef.okArrive b)) hx0]; exact targets1_ok F.t1 F.t0 h1 _

theorem barInit {b t1 t0} : Statement (.barInit b t1 t0) := by
  intro h n e
  replace h : (BarRef.okInit b && t1.ok && t0.ok) = true := h
  simp only [Bool.and_eq_true] at h
  obtain ⟨⟨hx0, h1⟩, h0⟩ := h
  have F := fieldsD (op := 0xc3) e (by decide) (by have := b.code_lt; omega) t1.code_lt t0.code_lt
  refine ⟨F.lt, ?_⟩
  rw [decodeNat_op F.op]
  show (withMod (barRefOf (fMod n)) (fun b => BarRef.okInit b) fun b => targets2 n (Instr.barInit b) : Dec) = _
  rw [F.md, barRefOf_code, withMod_some (m := b) (okv := (fun b => BarRef.okInit b)) hx0]; exact targets2_ok F.t1 F.t0 h1 h0 _

theorem stgExpect {arr stg t1} : Statement (.stgExpect arr stg t1) := by
  intro h n e
  replace h : (t1.ok) = true := h
  have h1 := h
  have F := fieldsD (op := 0xc4) e (by decide) (by have := bitN_lt arr; have := bitN_lt stg; omega) t1.code_lt (by decide)
  refine ⟨F.lt, ?_⟩
  rw [decodeNat_op F.op]
  show (zeroMod (fMod n / 4) (targets1 n (Instr.stgExpect (fMod n / 2 % 2 == 1) (fMod n % 2 == 1))) : Dec) = _
  cases arr <;> cases stg <;> (rw [F.md]; exact targets1_ok F.t1 F.t0 h1 _)

theorem stgWait {num off} : Statement (.stgWait num off) := by
  intro h n e
  replace h : (stageNumOk num) = true := h
  have hx0 := h
  have F := fieldsB (op := 0xc5) e (by decide) num.isLt off.isLt
  refine ⟨F.lt, ?_⟩
  rw [decodeNat_op F.op]
  show (withSlot (stageNumOk (BitVec.ofNat 4 (fNum n))) (.ok (Instr.stgWait (BitVec.ofNat 4 (fNum n)) (BitVec.ofNat 20 (fOff20 n)))) : Dec) = _
  rw [F.num, F.off, ofNat_toNat20, ofNat_toNat4, withSlot_of hx0]

theorem waitp {num off} : Statement (.waitp num off) := by
  intro h n e
  have F := fieldsB (op := 0xc6) e (by decide) num.isLt off.isLt
  refine ⟨F.lt, ?_⟩
  rw [decodeNat_op F.op]
  show (withSlot (true) (.ok (Instr.waitp (BitVec.ofNat 4 (fNum n)) (BitVec.ofNat 20 (fOff20 n)))) : Dec) = _
  rw [F.num, F.off, ofNat_toNat20, ofNat_toNat4]; rfl

theorem ropeWait {off} : Statement (.ropeWait off) := by
  intro h n e
  have F := fieldsB (op := 0xc7) e (by decide) (by decide) off.isLt
  refine ⟨F.lt, ?_⟩
  rw [decodeNat_op F.op]
  show (withSlot (fNum n == 0) (.ok (Instr.ropeWait (BitVec.ofNat 20 (fOff20 n)))) : Dec) = _
  rw [F.num, F.off, ofNat_toNat20]; rfl

theorem cpy {ch t1 t0} : Statement (.cpy ch t1 t0) := by
  intro h n e
  replace h : (t1.ok && t0.ok) = true := h
  simp only [Bool.and_eq_true] at h
  obtain ⟨h1, h0⟩ := h
  have F := fieldsD (op := 0xd0) e (by decide) (by have := ch.isLt; omega) t1.code_lt t0.code_lt
  refine ⟨F.lt, ?_⟩
  rw [decodeNat_op F.op]
  show (zeroMod (fMod n / 16) (targets2 n (Instr.cpy (BitVec.ofNat 4 (fMod n)))) : Dec) = _
  rw [F.md, ofNat_toNat4, Nat.div_eq_of_lt ch.isLt]; exact targets2_ok F.t1 F.t0 h1 h0 _

theorem cpyColl {ch t1 t0} : Statement (.cpyColl ch t1 t0) := by
  intro h n e
  replace h : (t1.ok && t0.ok) = true := h
  simp only [Bool.and_eq_true] at h
  obtain ⟨h1, h0⟩ := h
  have F := fieldsD (op := 0xd1) e (by decide) (by have := ch.isLt; omega) t1.code_lt t0.code_lt
  refine ⟨F.lt, ?_⟩
  rw [decodeNat_op F.op]
  show (zeroMod (fMod n / 16) (targets2 n (Instr.cpyColl (BitVec.ofNat 4 (fMod n)))) : Dec) = _
  rw [F.md, ofNat_toNat4, Nat.div_eq_of_lt ch.isLt]; exact targets2_ok F.t1 F.t0 h1 h0 _

theorem cwptr {acq ch t1 t0} : Statement (.cwptr acq ch t1 t0) := by
  intro h n e
  replace h : (t1.ok && t0.ok) = true := h
  simp only [Bool.and_eq_true] at h
  obtain ⟨h1, h0⟩ := h
  have F := fieldsD (op := 0xd2) e (by decide) (by have := bitN_lt acq; have := ch.isLt; omega) t1.code_lt t0.code_lt
  refine ⟨F.lt, ?_⟩
  rw [decodeNat_op F.op]
  show (zeroMod (fMod n / 32) (targets2 n (Instr.cwptr (fMod n / 16 == 1) (BitVec.ofNat 4 (fMod n)))) : Dec) = _
  rw [F.md, ofNat4_add16]
  have hd : (bitN acq * 16 + ch.toNat) / 16 = bitN acq := by have := ch.isLt; omega
  have hz : (bitN acq * 16 + ch.toNat) / 32 = 0 := by have := ch.isLt; have := bitN_lt acq; omega
  rw [hd, hz, bitN_beq]; exact targets2_ok F.t1 F.t0 h1 h0 _

theorem cchan {ch t1 t0} : Statement (.cchan ch t1 t0) := by
  intro h n e
  replace h : (t1.ok && t0.ok) = true := h
  simp only [Bool.and_eq_true] at h
  obtain ⟨h1, h0⟩ := h
  have F := fieldsD (op := 0xd3) e (by decide) (by have := ch.isLt; omega) t1.code_lt t0.code_lt
  refine ⟨F.lt, ?_⟩
  rw [decodeNat_op F.op]
  show (zeroMod (fMod n / 16) (targets2 n (Instr.cchan (BitVec.ofNat 4 (fMod n)))) : Dec) = _
  rw [F.md, ofNat_toNat4, Nat.div_eq_of_lt ch.isLt]; exact targets2_ok F.t1 F.t0 h1 h0 _

theorem mma {t1} : Statement (.mma t1) := by
  intro h n e
  replace h : (t1.ok) = true := h
  have h1 := h
  have F := fieldsD (op := 0xd4) e (by decide) (by decide) t1.code_lt (by decide)
  refine ⟨F.lt, ?_⟩
  rw [decodeNat_op F.op]
  show (zeroMod (fMod n) (targets1 n Instr.mma) : Dec) = _
  rw [F.md]; exact targets1_ok F.t1 F.t0 h1 _

theorem maccLd {f t1} : Statement (.maccLd f t1) := by
  intro h n e
  replace h : (t1.ok) = true := h
  have h1 := h
  have F := fieldsD (op := 0xd5) e (by decide) (by have := bitN_lt f; omega) t1.code_lt (by decide)
  refine ⟨F.lt, ?_⟩
  rw [decodeNat_op F.op]
  show (zeroMod (fMod n % 32) (targets1 n (Instr.maccLd (fMod n / 32 == 1))) : Dec) = _
  cases f <;> (rw [F.md]; exact targets1_ok F.t1 F.t0 h1 _)

theorem maccSt {f t1} : Statement (.maccSt f t1) := by
  intro h n e
  replace h : (t1.ok) = true := h
  have h1 := h
  have F := fieldsD (op := 0xd6) e (by decide) (by have := bitN_lt f; omega) t1.code_lt (by decide)
  refine ⟨F.lt, ?_⟩
  rw [decodeNat_op F.op]
  show (zeroMod (fMod n % 32) (targets1 n (Instr.maccSt (fMod n / 32 == 1))) : Dec) = _
  cases f <;> (rw [F.md]; exact targets1_ok F.t1 F.t0 h1 _)

theorem mgang {t1 t0} : Statement (.mgang t1 t0) := by
  intro h n e
  replace h : (t1.ok && t0.ok) = true := h
  simp only [Bool.and_eq_true] at h
  obtain ⟨h1, h0⟩ := h
  have F := fieldsD (op := 0xd7) e (by decide) (by decide) t1.code_lt t0.code_lt
  refine ⟨F.lt, ?_⟩
  rw [decodeNat_op F.op]
  show (zeroMod (fMod n) (targets2 n Instr.mgang) : Dec) = _
  rw [F.md]; exact targets2_ok F.t1 F.t0 h1 h0 _

theorem mchan {t1 t0} : Statement (.mchan t1 t0) := by
  intro h n e
  replace h : (t1.ok && t0.ok) = true := h
  simp only [Bool.and_eq_true] at h
  obtain ⟨h1, h0⟩ := h
  have F := fieldsD (op := 0xd8) e (by decide) (by decide) t1.code_lt t0.code_lt
  refine ⟨F.lt, ?_⟩
  rw [decodeNat_op F.op]
  show (zeroMod (fMod n) (targets2 n Instr.mchan) : Dec) = _
  rw [F.md]; exact targets2_ok F.t1 F.t0 h1 h0 _

theorem twin {t1} : Statement (.twin t1) := by
  intro h n e
  replace h : (t1.ok) = true := h
  have h1 := h
  have F := fieldsD (op := 0xd9) e (by decide) (by decide) t1.code_lt (by decide)
  refine ⟨F.lt, ?_⟩
  rw [decodeNat_op F.op]
  show (zeroMod (fMod n) (targets1 n Instr.twin) : Dec) = _
  rw [F.md]; exact targets1_ok F.t1 F.t0 h1 _

theorem tload {f t1} : Statement (.tload f t1) := by
  intro h n e
  replace h : (t1.ok) = true := h
  have h1 := h
  have F := fieldsD (op := 0xda) e (by decide) (by have := bitN_lt f; omega) t1.code_lt (by decide)
  refine ⟨F.lt, ?_⟩
  rw [decodeNat_op F.op]
  show (zeroMod (fMod n / 2) (targets1 n (Instr.tload (fMod n % 2 == 1))) : Dec) = _
  cases f <;> (rw [F.md]; exact targets1_ok F.t1 F.t0 h1 _)

theorem tlaunch {f t1} : Statement (.tlaunch f t1) := by
  intro h n e
  replace h : (t1.ok) = true := h
  have h1 := h
  have F := fieldsD (op := 0xdb) e (by decide) (by have := bitN_lt f; omega) t1.code_lt (by decide)
  refine ⟨F.lt, ?_⟩
  rw [decodeNat_op F.op]
  show (zeroMod (fMod n / 2) (targets1 n (Instr.tlaunch (fMod n % 2 == 1))) : Dec) = _
  cases f <;> (rw [F.md]; exact targets1_ok F.t1 F.t0 h1 _)

theorem tcap {t1} : Statement (.tcap t1) := by
  intro h n e
  replace h : (t1.ok) = true := h
  have h1 := h
  have F := fieldsD (op := 0xdc) e (by decide) (by decide) t1.code_lt (by decide)
  refine ⟨F.lt, ?_⟩
  rw [decodeNat_op F.op]
  show (zeroMod (fMod n) (targets1 n Instr.tcap) : Dec) = _
  rw [F.md]; exact targets1_ok F.t1 F.t0 h1 _

theorem trst {t1} : Statement (.trst t1) := by
  intro h n e
  replace h : (t1.ok) = true := h
  have h1 := h
  have F := fieldsD (op := 0xdd) e (by decide) (by decide) t1.code_lt (by decide)
  refine ⟨F.lt, ?_⟩
  rw [decodeNat_op F.op]
  show (zeroMod (fMod n) (targets1 n Instr.trst) : Dec) = _
  rw [F.md]; exact targets1_ok F.t1 F.t0 h1 _

theorem tcode {t1 t0} : Statement (.tcode t1 t0) := by
  intro h n e
  replace h : (t1.ok && t0.ok) = true := h
  simp only [Bool.and_eq_true] at h
  obtain ⟨h1, h0⟩ := h
  have F := fieldsD (op := 0xde) e (by decide) (by decide) t1.code_lt t0.code_lt
  refine ⟨F.lt, ?_⟩
  rw [decodeNat_op F.op]
  show (zeroMod (fMod n) (targets2 n Instr.tcode) : Dec) = _
  rw [F.md]; exact targets2_ok F.t1 F.t0 h1 h0 _

theorem tval {t1 t0} : Statement (.tval t1 t0) := by
  intro h n e
  replace h : (t1.ok && t0.ok) = true := h
  simp only [Bool.and_eq_true] at h
  obtain ⟨h1, h0⟩ := h
  have F := fieldsD (op := 0xdf) e (by decide) (by decide) t1.code_lt t0.code_lt
  refine ⟨F.lt, ?_⟩
  rw [decodeNat_op F.op]
  show (zeroMod (fMod n) (targets2 n Instr.tval) : Dec) = _
  rw [F.md]; exact targets2_ok F.t1 F.t0 h1 h0 _

theorem abegin {off} : Statement (.abegin off) := by
  intro h n e
  have F := fieldsB0 (op := 0xe0) e (by decide) off.isLt
  refine ⟨F.lt, ?_⟩
  rw [decodeNat_op F.op]
  show (.ok (Instr.abegin (BitVec.ofNat 24 (fOff24 n))) : Dec) = _
  rw [F.off, ofNat_toNat24]

theorem acommit {off} : Statement (.acommit off) := by
  intro h n e
  have F := fieldsB0 (op := 0xe1) e (by decide) off.isLt
  refine ⟨F.lt, ?_⟩
  rw [decodeNat_op F.op]
  show (.ok (Instr.acommit (BitVec.ofNat 24 (fOff24 n))) : Dec) = _
  rw [F.off, ofNat_toNat24]

theorem aabort {t1} : Statement (.aabort t1) := by
  intro h n e
  replace h : (t1.ok) = true := h
  have h1 := h
  have F := fieldsD (op := 0xe2) e (by decide) (by decide) t1.code_lt (by decide)
  refine ⟨F.lt, ?_⟩
  rw [decodeNat_op F.op]
  show (zeroMod (fMod n) (targets1 n Instr.aabort) : Dec) = _
  rw [F.md]; exact targets1_ok F.t1 F.t0 h1 _

theorem astat {t1 t0} : Statement (.astat t1 t0) := by
  intro h n e
  replace h : (t1.ok && t0.ok) = true := h
  simp only [Bool.and_eq_true] at h
  obtain ⟨h1, h0⟩ := h
  have F := fieldsD (op := 0xe3) e (by decide) (by decide) t1.code_lt t0.code_lt
  refine ⟨F.lt, ?_⟩
  rw [decodeNat_op F.op]
  show (zeroMod (fMod n) (targets2 n Instr.astat) : Dec) = _
  rw [F.md]; exact targets2_ok F.t1 F.t0 h1 h0 _

theorem apin {t1 t0} : Statement (.apin t1 t0) := by
  intro h n e
  replace h : (t1.ok && t0.ok) = true := h
  simp only [Bool.and_eq_true] at h
  obtain ⟨h1, h0⟩ := h
  have F := fieldsD (op := 0xe4) e (by decide) (by decide) t1.code_lt t0.code_lt
  refine ⟨F.lt, ?_⟩
  rw [decodeNat_op F.op]
  show (zeroMod (fMod n) (targets2 n Instr.apin) : Dec) = _
  rw [F.md]; exact targets2_ok F.t1 F.t0 h1 h0 _

theorem hspawn {t1 t0} : Statement (.hspawn t1 t0) := by
  intro h n e
  replace h : (t1.ok && t0.ok) = true := h
  simp only [Bool.and_eq_true] at h
  obtain ⟨h1, h0⟩ := h
  have F := fieldsD (op := 0xe8) e (by decide) (by decide) t1.code_lt t0.code_lt
  refine ⟨F.lt, ?_⟩
  rw [decodeNat_op F.op]
  show (zeroMod (fMod n) (targets2 n Instr.hspawn) : Dec) = _
  rw [F.md]; exact targets2_ok F.t1 F.t0 h1 h0 _

theorem hgainAdd {t1 t0} : Statement (.hgainAdd t1 t0) := by
  intro h n e
  replace h : (t1.ok && t0.ok) = true := h
  simp only [Bool.and_eq_true] at h
  obtain ⟨h1, h0⟩ := h
  have F := fieldsD (op := 0xe9) e (by decide) (by decide) t1.code_lt t0.code_lt
  refine ⟨F.lt, ?_⟩
  rw [decodeNat_op F.op]
  show (zeroMod (fMod n) (targets2 n Instr.hgainAdd) : Dec) = _
  rw [F.md]; exact targets2_ok F.t1 F.t0 h1 h0 _

theorem hgainMax {t1 t0} : Statement (.hgainMax t1 t0) := by
  intro h n e
  replace h : (t1.ok && t0.ok) = true := h
  simp only [Bool.and_eq_true] at h
  obtain ⟨h1, h0⟩ := h
  have F := fieldsD (op := 0xea) e (by decide) (by decide) t1.code_lt t0.code_lt
  refine ⟨F.lt, ?_⟩
  rw [decodeNat_op F.op]
  show (zeroMod (fMod n) (targets2 n Instr.hgainMax) : Dec) = _
  rw [F.md]; exact targets2_ok F.t1 F.t0 h1 h0 _

theorem hgainSet {t1 t0} : Statement (.hgainSet t1 t0) := by
  intro h n e
  replace h : (t1.ok && t0.ok) = true := h
  simp only [Bool.and_eq_true] at h
  obtain ⟨h1, h0⟩ := h
  have F := fieldsD (op := 0xeb) e (by decide) (by decide) t1.code_lt t0.code_lt
  refine ⟨F.lt, ?_⟩
  rw [decodeNat_op F.op]
  show (zeroMod (fMod n) (targets2 n Instr.hgainSet) : Dec) = _
  rw [F.md]; exact targets2_ok F.t1 F.t0 h1 h0 _

theorem hdep {t1 t0} : Statement (.hdep t1 t0) := by
  intro h n e
  replace h : (t1.ok && t0.ok) = true := h
  simp only [Bool.and_eq_true] at h
  obtain ⟨h1, h0⟩ := h
  have F := fieldsD (op := 0xec) e (by decide) (by decide) t1.code_lt t0.code_lt
  refine ⟨F.lt, ?_⟩
  rw [decodeNat_op F.op]
  show (zeroMod (fMod n) (targets2 n Instr.hdep) : Dec) = _
  rw [F.md]; exact targets2_ok F.t1 F.t0 h1 h0 _

theorem hdone : Statement (.hdone) := by
  intro h n e
  have F := fieldsD (op := 0xed) e (by decide) (by decide) (by decide) (by decide)
  refine ⟨F.lt, ?_⟩
  rw [decodeNat_op F.op]
  show (zeroMod (fMod n) (noTargets n Instr.hdone) : Dec) = _
  rw [F.md]; exact noTargets_ok F.t1 F.t0 _

theorem hresid {t1 t0} : Statement (.hresid t1 t0) := by
  intro h n e
  replace h : (t1.ok && t0.ok) = true := h
  simp only [Bool.and_eq_true] at h
  obtain ⟨h1, h0⟩ := h
  have F := fieldsD (op := 0xee) e (by decide) (by decide) t1.code_lt t0.code_lt
  refine ⟨F.lt, ?_⟩
  rw [decodeNat_op F.op]
  show (zeroMod (fMod n) (targets2 n Instr.hresid) : Dec) = _
  rw [F.md]; exact targets2_ok F.t1 F.t0 h1 h0 _

theorem hself {t1 t0} : Statement (.hself t1 t0) := by
  intro h n e
  replace h : (t1.ok && t0.ok) = true := h
  simp only [Bool.and_eq_true] at h
  obtain ⟨h1, h0⟩ := h
  have F := fieldsD (op := 0xef) e (by decide) (by decide) t1.code_lt t0.code_lt
  refine ⟨F.lt, ?_⟩
  rw [decodeNat_op F.op]
  show (zeroMod (fMod n) (targets2 n Instr.hself) : Dec) = _
  rw [F.md]; exact targets2_ok F.t1 F.t0 h1 h0 _

theorem trap {code} : Statement (.trap code) := by
  intro h n e
  have F := fieldsI (op := 0xf0) e (by decide) code.isLt (by decide)
  refine ⟨F.lt, ?_⟩
  rw [decodeNat_op F.op]
  show (noTarget0 n (Instr.trap (BitVec.ofNat 15 (fImm n))) : Dec) = _
  rw [F.imm, ofNat_toNat15]; exact noTarget0_ok F.t0 _

theorem brk {code} : Statement (.brk code) := by
  intro h n e
  have F := fieldsI (op := 0xf1) e (by decide) code.isLt (by decide)
  refine ⟨F.lt, ?_⟩
  rw [decodeNat_op F.op]
  show (noTarget0 n (Instr.brk (BitVec.ofNat 15 (fImm n))) : Dec) = _
  rw [F.imm, ofNat_toNat15]; exact noTarget0_ok F.t0 _

theorem eret {f} : Statement (.eret f) := by
  intro h n e
  have F := fieldsD (op := 0xf2) e (by decide) (by have := bitN_lt f; omega) (by decide) (by decide)
  refine ⟨F.lt, ?_⟩
  rw [decodeNat_op F.op]
  show (zeroMod (fMod n / 2) (noTargets n (Instr.eret (fMod n % 2 == 1))) : Dec) = _
  cases f <;> first | exact absurd hx0 (by decide) | (rw [F.md]; exact noTargets_ok F.t1 F.t0 _)

theorem sysrd {s t1 t0} : Statement (.sysrd s t1 t0) := by
  intro h n e
  replace h : (slotSysreg s && t1.ok && t0.ok) = true := h
  simp only [Bool.and_eq_true] at h
  obtain ⟨⟨hx0, h1⟩, h0⟩ := h
  have F := fieldsD (op := 0xf3) e (by decide) (by have := s.isLt; omega) t1.code_lt t0.code_lt
  refine ⟨F.lt, ?_⟩
  rw [decodeNat_op F.op]
  show (withSlot (slotSysreg (BitVec.ofNat 6 (fMod n))) (targets2 n (Instr.sysrd (BitVec.ofNat 6 (fMod n)))) : Dec) = _
  rw [F.md, ofNat_toNat6, withSlot_of hx0]; exact targets2_ok F.t1 F.t0 h1 h0 _

theorem syswr {s t1} : Statement (.syswr s t1) := by
  intro h n e
  replace h : (slotSysreg s && t1.ok) = true := h
  simp only [Bool.and_eq_true] at h
  obtain ⟨hx0, h1⟩ := h
  have F := fieldsD (op := 0xf4) e (by decide) (by have := s.isLt; omega) t1.code_lt (by decide)
  refine ⟨F.lt, ?_⟩
  rw [decodeNat_op F.op]
  show (withSlot (slotSysreg (BitVec.ofNat 6 (fMod n))) (targets1 n (Instr.syswr (BitVec.ofNat 6 (fMod n)))) : Dec) = _
  rw [F.md, ofNat_toNat6, withSlot_of hx0]; exact targets1_ok F.t1 F.t0 h1 _

theorem cfginv {t1} : Statement (.cfginv t1) := by
  intro h n e
  replace h : (t1.ok) = true := h
  have h1 := h
  have F := fieldsD (op := 0xf5) e (by decide) (by decide) t1.code_lt (by decide)
  refine ⟨F.lt, ?_⟩
  rw [decodeNat_op F.op]
  show (zeroMod (fMod n) (targets1 n Instr.cfginv) : Dec) = _
  rw [F.md]; exact targets1_ok F.t1 F.t0 h1 _

theorem cairn {code t0} : Statement (.cairn code t0) := by
  intro h n e
  replace h : (t0.ok) = true := h
  have h0 := h
  have F := fieldsI (op := 0xf6) e (by decide) code.isLt t0.code_lt
  refine ⟨F.lt, ?_⟩
  rw [decodeNat_op F.op]
  show (targets0 n (Instr.cairn (BitVec.ofNat 15 (fImm n))) : Dec) = _
  rw [F.imm, ofNat_toNat15]; exact targets0_ok F.t0 h0 _

theorem tsc {t1 t0} : Statement (.tsc t1 t0) := by
  intro h n e
  replace h : (t1.ok && t0.ok) = true := h
  simp only [Bool.and_eq_true] at h
  obtain ⟨h1, h0⟩ := h
  have F := fieldsD (op := 0xf7) e (by decide) (by decide) t1.code_lt t0.code_lt
  refine ⟨F.lt, ?_⟩
  rw [decodeNat_op F.op]
  show (zeroMod (fMod n) (targets2 n Instr.tsc) : Dec) = _
  rw [F.md]; exact targets2_ok F.t1 F.t0 h1 h0 _

theorem nop : Statement (.nop) := by
  intro h n e
  have F := fieldsD (op := 0xf8) e (by decide) (by decide) (by decide) (by decide)
  refine ⟨F.lt, ?_⟩
  rw [decodeNat_op F.op]
  show (zeroMod (fMod n) (noTargets n Instr.nop) : Dec) = _
  rw [F.md]; exact noTargets_ok F.t1 F.t0 _

theorem halt : Statement (.halt) := by
  intro h n e
  have F := fieldsD (op := 0xf9) e (by decide) (by decide) (by decide) (by decide)
  refine ⟨F.lt, ?_⟩
  rw [decodeNat_op F.op]
  show (zeroMod (fMod n) (noTargets n Instr.halt) : Dec) = _
  rw [F.md]; exact noTargets_ok F.t1 F.t0 _

theorem takeRecord : Statement .takeRecord := fun _ _ e => nomatch (e : (none : Option Nat) = some _)

theorem launchStart : Statement .launchStart := fun _ _ e => nomatch (e : (none : Option Nat) = some _)

theorem queueEnable : Statement .queueEnable := fun _ _ e => nomatch (e : (none : Option Nat) = some _)

theorem queueDisable : Statement .queueDisable := fun _ _ e => nomatch (e : (none : Option Nat) = some _)

theorem placeUnit : Statement .placeUnit := fun _ _ e => nomatch (e : (none : Option Nat) = some _)

theorem timeSliceExpiry : Statement .timeSliceExpiry := fun _ _ e => nomatch (e : (none : Option Nat) = some _)

theorem migrateGroup : Statement .migrateGroup := fun _ _ e => nomatch (e : (none : Option Nat) = some _)

theorem dieModeChangeDone : Statement .dieModeChangeDone := fun _ _ e => nomatch (e : (none : Option Nat) = some _)

theorem binHeaderReturn : Statement .binHeaderReturn := fun _ _ e => nomatch (e : (none : Option Nat) = some _)

theorem configStart : Statement .configStart := fun _ _ e => nomatch (e : (none : Option Nat) = some _)

theorem configComplete : Statement .configComplete := fun _ _ e => nomatch (e : (none : Option Nat) = some _)

theorem admitThread : Statement .admitThread := fun _ _ e => nomatch (e : (none : Option Nat) = some _)

theorem forcedClosure : Statement .forcedClosure := fun _ _ e => nomatch (e : (none : Option Nat) = some _)

theorem binSeal : Statement .binSeal := fun _ _ e => nomatch (e : (none : Option Nat) = some _)

theorem quiescenceSet : Statement .quiescenceSet := fun _ _ e => nomatch (e : (none : Option Nat) = some _)

theorem walkComplete : Statement .walkComplete := fun _ _ e => nomatch (e : (none : Option Nat) = some _)

theorem squashedEnd : Statement .squashedEnd := fun _ _ e => nomatch (e : (none : Option Nat) = some _)

theorem loadReturn : Statement .loadReturn := fun _ _ e => nomatch (e : (none : Option Nat) = some _)

theorem deferredFill : Statement .deferredFill := fun _ _ e => nomatch (e : (none : Option Nat) = some _)

theorem sfuReturn : Statement .sfuReturn := fun _ _ e => nomatch (e : (none : Option Nat) = some _)

theorem atomicTilePerform : Statement .atomicTilePerform := fun _ _ e => nomatch (e : (none : Option Nat) = some _)

theorem atomicReturn : Statement .atomicReturn := fun _ _ e => nomatch (e : (none : Option Nat) = some _)

theorem eretRecordReturn : Statement .eretRecordReturn := fun _ _ e => nomatch (e : (none : Option Nat) = some _)

theorem blockCommit : Statement .blockCommit := fun _ _ e => nomatch (e : (none : Option Nat) = some _)

theorem liveWritePerform : Statement .liveWritePerform := fun _ _ e => nomatch (e : (none : Option Nat) = some _)

theorem storeSend : Statement .storeSend := fun _ _ e => nomatch (e : (none : Option Nat) = some _)

theorem storeAcknowledge : Statement .storeAcknowledge := fun _ _ e => nomatch (e : (none : Option Nat) = some _)

theorem threadRetire : Statement .threadRetire := fun _ _ e => nomatch (e : (none : Option Nat) = some _)

theorem groupRetire : Statement .groupRetire := fun _ _ e => nomatch (e : (none : Option Nat) = some _)

theorem gridRetire : Statement .gridRetire := fun _ _ e => nomatch (e : (none : Option Nat) = some _)

theorem barrierTimeout : Statement .barrierTimeout := fun _ _ e => nomatch (e : (none : Option Nat) = some _)

theorem ropePhaseComplete : Statement .ropePhaseComplete := fun _ _ e => nomatch (e : (none : Option Nat) = some _)

theorem channelWaitTimeout : Statement .channelWaitTimeout := fun _ _ e => nomatch (e : (none : Option Nat) = some _)

theorem enginePortAccept : Statement .enginePortAccept := fun _ _ e => nomatch (e : (none : Option Nat) = some _)

theorem copyRunIssue : Statement .copyRunIssue := fun _ _ e => nomatch (e : (none : Option Nat) = some _)

theorem copyRunPerformed : Statement .copyRunPerformed := fun _ _ e => nomatch (e : (none : Option Nat) = some _)

theorem matrixStep : Statement .matrixStep := fun _ _ e => nomatch (e : (none : Option Nat) = some _)

theorem mmaComplete : Statement .mmaComplete := fun _ _ e => nomatch (e : (none : Option Nat) = some _)

theorem maccComplete : Statement .maccComplete := fun _ _ e => nomatch (e : (none : Option Nat) = some _)

theorem gangRoundComplete : Statement .gangRoundComplete := fun _ _ e => nomatch (e : (none : Option Nat) = some _)

theorem latchTimeout : Statement .latchTimeout := fun _ _ e => nomatch (e : (none : Option Nat) = some _)

theorem temporalCommandStart : Statement .temporalCommandStart := fun _ _ e => nomatch (e : (none : Option Nat) = some _)

theorem temporalCommandComplete : Statement .temporalCommandComplete := fun _ _ e => nomatch (e : (none : Option Nat) = some _)

theorem tlaunchAttemptEnd : Statement .tlaunchAttemptEnd := fun _ _ e => nomatch (e : (none : Option Nat) = some _)

theorem tickReplan : Statement .tickReplan := fun _ _ e => nomatch (e : (none : Option Nat) = some _)

theorem temporalArrayReset : Statement .temporalArrayReset := fun _ _ e => nomatch (e : (none : Option Nat) = some _)

theorem commitEngineStart : Statement .commitEngineStart := fun _ _ e => nomatch (e : (none : Option Nat) = some _)

theorem lineLockGranted : Statement .lineLockGranted := fun _ _ e => nomatch (e : (none : Option Nat) = some _)

theorem serialTokenGrant : Statement .serialTokenGrant := fun _ _ e => nomatch (e : (none : Option Nat) = some _)

theorem heapOperationApply : Statement .heapOperationApply := fun _ _ e => nomatch (e : (none : Option Nat) = some _)

theorem heapReply : Statement .heapReply := fun _ _ e => nomatch (e : (none : Option Nat) = some _)

theorem heapPop : Statement .heapPop := fun _ _ e => nomatch (e : (none : Option Nat) = some _)

theorem taskThreadCreate : Statement .taskThreadCreate := fun _ _ e => nomatch (e : (none : Option Nat) = some _)

theorem heapLend : Statement .heapLend := fun _ _ e => nomatch (e : (none : Option Nat) = some _)

theorem residInclusion : Statement .residInclusion := fun _ _ e => nomatch (e : (none : Option Nat) = some _)

theorem heapTolEffect : Statement .heapTolEffect := fun _ _ e => nomatch (e : (none : Option Nat) = some _)

theorem settlePopStop : Statement .settlePopStop := fun _ _ e => nomatch (e : (none : Option Nat) = some _)

theorem heapDrain : Statement .heapDrain := fun _ _ e => nomatch (e : (none : Option Nat) = some _)

theorem drainComplete : Statement .drainComplete := fun _ _ e => nomatch (e : (none : Option Nat) = some _)

theorem faultRecordPerformed : Statement .faultRecordPerformed := fun _ _ e => nomatch (e : (none : Option Nat) = some _)

theorem replayCommand : Statement .replayCommand := fun _ _ e => nomatch (e : (none : Option Nat) = some _)

theorem nextCommand : Statement .nextCommand := fun _ _ e => nomatch (e : (none : Option Nat) = some _)

theorem killCommand : Statement .killCommand := fun _ _ e => nomatch (e : (none : Option Nat) = some _)

theorem resumeCommand : Statement .resumeCommand := fun _ _ e => nomatch (e : (none : Option Nat) = some _)

theorem tlbInvalidate : Statement .tlbInvalidate := fun _ _ e => nomatch (e : (none : Option Nat) = some _)

theorem tlbInvalidateDone : Statement .tlbInvalidateDone := fun _ _ e => nomatch (e : (none : Option Nat) = some _)

theorem saveStart : Statement .saveStart := fun _ _ e => nomatch (e : (none : Option Nat) = some _)

theorem scratchSavePass : Statement .scratchSavePass := fun _ _ e => nomatch (e : (none : Option Nat) = some _)

theorem saveComplete : Statement .saveComplete := fun _ _ e => nomatch (e : (none : Option Nat) = some _)

theorem groupRestore : Statement .groupRestore := fun _ _ e => nomatch (e : (none : Option Nat) = some _)

theorem preemptLimitExpiry : Statement .preemptLimitExpiry := fun _ _ e => nomatch (e : (none : Option Nat) = some _)

theorem groupDiscard : Statement .groupDiscard := fun _ _ e => nomatch (e : (none : Option Nat) = some _)

theorem debugHalt : Statement .debugHalt := fun _ _ e => nomatch (e : (none : Option Nat) = some _)

theorem cfginvPerform : Statement .cfginvPerform := fun _ _ e => nomatch (e : (none : Option Nat) = some _)

theorem directoryTransaction : Statement .directoryTransaction := fun _ _ e => nomatch (e : (none : Option Nat) = some _)

theorem probeAnswer : Statement .probeAnswer := fun _ _ e => nomatch (e : (none : Option Nat) = some _)

theorem granuleFlush : Statement .granuleFlush := fun _ _ e => nomatch (e : (none : Option Nat) = some _)

theorem granuleReclassify : Statement .granuleReclassify := fun _ _ e => nomatch (e : (none : Option Nat) = some _)

theorem hostSnoop : Statement .hostSnoop := fun _ _ e => nomatch (e : (none : Option Nat) = some _)

theorem linkFail : Statement .linkFail := fun _ _ e => nomatch (e : (none : Option Nat) = some _)

theorem peerTimeout : Statement .peerTimeout := fun _ _ e => nomatch (e : (none : Option Nat) = some _)

theorem heartbeatMiss : Statement .heartbeatMiss := fun _ _ e => nomatch (e : (none : Option Nat) = some _)

theorem agentDead : Statement .agentDead := fun _ _ e => nomatch (e : (none : Option Nat) = some _)

theorem lateMessage : Statement .lateMessage := fun _ _ e => nomatch (e : (none : Option Nat) = some _)

theorem ioDieFailover : Statement .ioDieFailover := fun _ _ e => nomatch (e : (none : Option Nat) = some _)

theorem moduleReset : Statement .moduleReset := fun _ _ e => nomatch (e : (none : Option Nat) = some _)

theorem bringUp : Statement .bringUp := fun _ _ e => nomatch (e : (none : Option Nat) = some _)

theorem traceAccept : Statement .traceAccept := fun _ _ e => nomatch (e : (none : Option Nat) = some _)

theorem samplerWrite : Statement .samplerWrite := fun _ _ e => nomatch (e : (none : Option Nat) = some _)

theorem sampleTake : Statement .sampleTake := fun _ _ e => nomatch (e : (none : Option Nat) = some _)

theorem energyUpdate : Statement .energyUpdate := fun _ _ e => nomatch (e : (none : Option Nat) = some _)

theorem voltageReplan : Statement .voltageReplan := fun _ _ e => nomatch (e : (none : Option Nat) = some _)

theorem thermalHoldStart : Statement .thermalHoldStart := fun _ _ e => nomatch (e : (none : Option Nat) = some _)

theorem thermalHoldEnd : Statement .thermalHoldEnd := fun _ _ e => nomatch (e : (none : Option Nat) = some _)

theorem thermalShutdown : Statement .thermalShutdown := fun _ _ e => nomatch (e : (none : Option Nat) = some _)

theorem tscCorrection : Statement .tscCorrection := fun _ _ e => nomatch (e : (none : Option Nat) = some _)

theorem attestationQuote : Statement .attestationQuote := fun _ _ e => nomatch (e : (none : Option Nat) = some _)

theorem counterClear : Statement .counterClear := fun _ _ e => nomatch (e : (none : Option Nat) = some _)

theorem mgmtRegisterWrite : Statement .mgmtRegisterWrite := fun _ _ e => nomatch (e : (none : Option Nat) = some _)

theorem pipelinedOperationEmit : Statement .pipelinedOperationEmit := fun _ _ e => nomatch (e : (none : Option Nat) = some _)

theorem dieTlbHit : Statement .dieTlbHit := fun _ _ e => nomatch (e : (none : Option Nat) = some _)

theorem completionTimeout : Statement .completionTimeout := fun _ _ e => nomatch (e : (none : Option Nat) = some _)

theorem agentBroughtBackUp : Statement .agentBroughtBackUp := fun _ _ e => nomatch (e : (none : Option Nat) = some _)

end Sys2Proof.Laws.RoundTrip
end

