-- ==== Sys2Proof/Tests/Slice0.lean ====
section
/-! SUPPORT. Tests of the model: ill-formed terms, words of the spec's encodings, results from the spec's own tables, and for
every statement a state and operands that meet its hypotheses. -/

namespace Sys2Proof.Tests

open Sys2Proof Sys2Proof.Machine

-- One proof at a time: each asks the kernel, and proofs that wait for it side by side hold much memory.
set_option Elab.async false

/-! Small states -/

/-- An instance of a block of one word, with tokens at the ports of instruction 0. -/
def inst0 (toks : Tbl Token) : Inst := { oneWordInst 0 5 with tokens := toks, checkAt := some 4 }
/-- A group of one thread, in slot 0, with scratchpad. -/
def group0 : Group := { Group.reset with slots := [0], live := 1, spSize := 4096, bars := [(0, Barrier.fresh 1), (16, Barrier.fresh 1)] }
/-- A core whose slot 0 holds a thread, and whose context 0 holds a block of the given words. -/
def core0 (ws : List Word) (t : Thread) : Core :=
  { Core.reset 0 with
    temp := { TempArray.reset 0 with tick := 0, margin := 0 }
    threads := [(0, t)], groups := [(0, group0)]
    contexts := [(0, { Context.reset with state := .opened, block := ⟨0, 0, 0, ws, []⟩, quiet := false })] }
/-- A module with one core in use, at clk 5. -/
def at5 (k : Core) : State := { State.reset with clk := 5, cores := [(0, k)], grids := [(0, Grid.reset)] }
/-- A module with one instance in flight. -/
def flying (x : Inst) : State := at5 (core0 [0] { Thread.reset with place := .inFlight, inst := some x })
/-- The operands 7 and 9 and a true guard. -/
def ops : Tbl Token := [(0, dword 7), (1, dword 9), (2, dword 1)]
/-- A module with one instance, whose operands have arrived. -/
def firing : State := flying (inst0 ops)
/-- The same instance, with null at every port. -/
def nulls : State := flying (inst0 [(0, nullTok), (1, nullTok), (2, nullTok)])
/-- The same instance, squashed. -/
def squashed : State := flying { inst0 ops with squash := some ⟨.permission, 0, 0, 0⟩ }
/-- The value that an instruction sends to port a of instruction 1 in a step from a state. -/
def sends (s : State) (i : Instr) : Option Nat :=
  match exec i s with
  | .next t => (match (t.thread 0 0).inst with
    | some x => (match Tbl.find? x.tokens 3 with | some v => some v.nat | none => (x.emits.head?).map fun e => if e.t0 = .none then e.v1.nat else e.v0.nat)
    | none => none)
  | _ => none
/-- The operands a and b of a step. -/
def with2 (a b : Nat) : State := flying (inst0 [(0, dword a), (1, dword b)])
/-- Port a of instruction 1. -/
def out : Target := .port .a 1

/-! Statements about computing instructions: operands that meet their hypotheses -/

theorem witness_LaneArithmetic : (0 < laneCount .i32) ∧ (3 < laneCount .i16x4) ∧ firing.live (inst0 ops) ∧ firing.has .a (dword 7) ∧
    firing.hasB false (dword 9) ∧ firing.has .b (dword 9) ∧ firing.guardTrue = true ∧
    (flying (inst0 [(0, dword 7), (1, nullTok)])).hasB true (dword 0) := by
  repeat' apply And.intro
  all_goals decide
theorem witness_BitwiseLanes : firing.live (inst0 ops) ∧ firing.has .a (dword 7) ∧ firing.hasB true (dword 9) ∧
    firing.guardTrue = true ∧ (⟨.i32, false, true, true⟩ : IntMod).sat = false := by
  repeat' apply And.intro
  all_goals decide
theorem witness_ShiftAndFieldResults : firing.live (inst0 ops) ∧ firing.has .a (dword 7) ∧ firing.hasB false (dword 9) ∧
    firing.has .b (dword 9) ∧ firing.has .c (dword 1) ∧ firing.guardTrue = true ∧ IntTy.scalar .i64 = true := by
  repeat' apply And.intro
  all_goals decide
theorem witness_Comparisons : firing.live (inst0 ops) ∧ firing.has .a (dword 7) ∧ firing.hasB false (dword 9) ∧
    firing.has .b (dword 9) ∧ firing.guardTrue = true := by
  repeat' apply And.intro
  all_goals decide
theorem witness_ImmediateForms : firing.live (inst0 ops) ∧ firing.has .a (dword 7) ∧ firing.guardTrue = true ∧
    (-1 : BitVec 15).toInt < 0 ∧ encode (.addi (-1) (.port .a 6)) = some 0x22fffe86 := by
  repeat' apply And.intro
  all_goals decide
theorem witness_SourceValues : firing.live (inst0 ops) ∧ (15 : BitVec 6).toNat = 15 ∧
    Tbl.find? ({ inst0 [] with sys := [(0, 77)] } : Inst).sys firing.cur.idx = some 77 ∧ (2 : BitVec 6).toNat ≠ 15 ∧
    maskMeets firing.curThread.badParity [2] = false ∧ maskMeets firing.curThread.badParity [2, 3] = false := by
  repeat' apply And.intro
  all_goals decide
/-- A thread of index (1, 2, 3) in a group of index (0, 1, 2), and the bounds of the index registers. -/
theorem witness_IdentityValues :
    let t : Thread := { Thread.reset with place := .inFlight, inst := some (inst0 []), lin := 1 + 2 * (2 + 4 * 3) }
    let g : Group := { group0 with lin := 0 + 3 * (1 + 2 * 2) }
    let r : LaunchRec := { LaunchRec.reset with bx := 2, by_ := 4, bz := 4, gx := 3, gy := 2, gz := 3, ropeG := 1, ropeP := 1 }
    let s : State := { at5 { core0 [0] t with groups := [(0, g)] } with grids := [(0, { Grid.reset with launch := r })] }
    s.live (inst0 []) ∧ (s.groupOf 0 0).carrier = false ∧ 1 < r.bx ∧ 2 < r.by_ ∧ 0 < r.gx ∧ 1 < r.gy ∧
      s.curThread.lin = 1 + r.bx * (2 + r.by_ * 3) ∧ (s.groupOf 0 0).lin = 0 + r.gx * (1 + r.gy * 2) ∧ 0 < r.ropeG ∧
      s.cur.core < 2048 ∧ s.cur.slot < 1024 := by
  repeat' apply And.intro
  all_goals decide
theorem witness_PlumbingValues : firing.live (inst0 ops) ∧ firing.opTok? .a = some (dword 7) ∧ (dword 7).null = false ∧
    firing.has .b (dword 9) ∧ firing.has .c (dword 1) ∧ firing.opTok? .b = some (dword 9) ∧ firing.guardTrue = true ∧
    nulls.opTok? .a = some nullTok ∧ Target.none ≠ out := by
  repeat' apply And.intro
  all_goals decide
theorem witness_NullResults : squashed.curInst?.isSome = true ∧ squashed.curInst? ≠ some (inst0 ops) ∧
    nulls.curInst?.isSome = true ∧ (nulls.opTok .a).null = true ∧ nulls.guardTrue = false ∧ (nulls.opTok .b).null = true ∧
    (nulls.opTok .c).null = true ∧ (⟨.i32, false, false, false⟩ : IntMod).z = false ∧ (⟨.i32, false, false, true⟩ : IntMod).z = true ∧
    (with2 7 0).opTok .b ≠ nullTok := by
  repeat' apply And.intro
  all_goals decide
theorem witness_RoundingSteps : 0x3f800000 < 2 ^ fmtF32.width ∧ fmtF32.value 0x3f800000 ≠ .nan ∧
    max ((Nat.log2 3 : Int) - fmtF32.m + 0) fmtF32.kMin ≤ 0 ∧
    (0 : Int) < max ((Nat.log2 (2 ^ 24 + 1) : Int) - fmtF32.m + 0) fmtF32.kMin := by decide
theorem witness_FloatArithmetic : firing.live (inst0 ops) ∧ firing.has .a (dword 7) ∧ firing.has .b (dword 9) ∧
    firing.has .c (dword 1) ∧ firing.guardTrue = true ∧ FpNum.isNaN .nan = true ∧ FpNum.isNaN (.fin false 3 0) = false := by
  repeat' apply And.intro
  all_goals decide
/-- The operand of R195's example, and a NaN beside 1.0 and two subnormals (R196). -/
theorem witness_SignBits : (with2 0x7fc01234 9).live (inst0 [(0, dword 0x7fc01234), (1, dword 9)]) ∧
    (with2 0x7fc01234 9).has .a (dword 0x7fc01234) ∧ (with2 0x7fc01234 9).has .b (dword 9) ∧
    (with2 0x7fc01234 9).guardTrue = true ∧ (dword 0x7fc01234).nat = 0x7fc01234 := by
  repeat' apply And.intro
  all_goals decide
theorem witness_Extrema : (with2 0x80000000 0).has .a (dword 0x80000000) ∧ (with2 0x80000000 0).has .b (dword 0) ∧
    (with2 0x80000000 0).guardTrue = true ∧ fmtF32.value 0x80000000 = .fin true 0 fmtF32.kMin ∧
    fmtF32.value 0 = .fin false 0 fmtF32.kMin ∧ fmtF32.value 0x7fc00000 = .nan ∧
    (fmtF32.value 0x3f800000).lt (fmtF32.value 0x40000000) = true := by
  repeat' apply And.intro
  all_goals decide
theorem witness_FloatComparisons : (with2 1 1).has .a (dword 1) ∧ (with2 1 1).has .b (dword 1) ∧ (with2 1 1).guardTrue = true ∧
    (dword 1).nat = 1 ∧ (with2 0x7fc00000 0x3f800000).has .a (dword 0x7fc00000) ∧
    (with2 0x7fc00000 0x3f800000).has .b (dword 0x3f800000) ∧ fmtF32.value (fmtF32.flush false 0x7fc00000) = .nan ∧
    (dword 0x3f800000).nat = 0x3f800000 := by
  repeat' apply And.intro
  all_goals decide
theorem witness_SpecialFunctions : firing.live (inst0 ops) ∧ firing.has .a (dword 7) ∧ firing.has .b (dword 9) ∧
    firing.guardTrue = true ∧ FpTy.f32 ≠ .f64 := by
  repeat' apply And.intro
  all_goals decide
theorem witness_SpecialFunctionPorts : firing.curInst? = some (inst0 ops) ∧ (inst0 ops).squash = none ∧ firing.guardTrue = true ∧
    firing.has .a (dword 7) ∧ firing.has .b (dword 9) ∧ (nulls.opTok .a).null = true ∧ (nulls.opTok .b).null = true ∧
    nulls.guardTrue = false ∧ FpTy.f16x2 ≠ .f64 ∧
    squashed.curInst? = some { inst0 ops with squash := some ⟨.permission, 0, 0, 0⟩ } := by
  repeat' apply And.intro
  all_goals decide
theorem witness_Conversions : firing.live (inst0 ops) ∧ firing.has .a (dword 7) ∧ firing.has .b (dword 9) ∧ firing.guardTrue = true ∧
    cvtFloat .e4m3 = some fmtE4m3 ∧ fmtE4m3.hasInf = false ∧ cvtFloat .f16 = some fmtF16 ∧ fmtF16.hasInf = true ∧
    cvtFloat .i32 = none := by
  repeat' apply And.intro
  all_goals decide

/-! Statements about control, waits and system instructions -/

/-- A thread in flight in a region of number 0. -/
def inRegion : State := flying { inst0 ops with region := some 0 }
/-- A thread of privileged mode. -/
def privileged : State := flying { inst0 ops with priv := true }
/-- No operand. -/
def bare : State := flying (inst0 [])

theorem witness_ControlTransfers : firing.live (inst0 ops) ∧ (inst0 ops).region = none ∧ firing.has .a (dword 7) ∧
    nulls.live (inst0 [(0, nullTok), (1, nullTok), (2, nullTok)]) ∧ nulls.opTok? .a = some nullTok ∧ nullTok.null = true ∧
    (dword 8).lo < 2 ^ 56 ∧ (dword 8).lo % 4 = 0 ∧ privileged.curInst? = some { inst0 ops with priv := true } ∧
    bare.live (inst0 []) ∧ bare.opTok? .a = none ∧ maskMeets firing.curThread.badParity [62, 63] = false ∧
    squashed.curInst? = some { inst0 ops with squash := some ⟨.permission, 0, 0, 0⟩ } := by
  repeat' apply And.intro
  all_goals decide

/-- A group whose barriers 0, 1 and 17 stand unarrived, arrived at, and broken. -/
def barriers (cnt : Nat) : State :=
  let g : Group := { group0 with bars := [(0, Barrier.fresh 2), (1, { Barrier.fresh 2 with cnt := 1 }),
    (17, { Barrier.fresh 2 with brk := some .timeout })] }
  at5 { core0 [0] { Thread.reset with place := .inFlight, inst := some (inst0 [(0, dword cnt)]) } with groups := [(0, g)] }

theorem witness_BarrierInstructions : (barriers 1).live (inst0 [(0, dword 1)]) ∧ (barriers 1).has .a (dword 1) ∧
    (BarRef.named (BitVec.ofNat 4 0) = .named 0 ∧ 0 < 16) ∧ (BarRef.named (BitVec.ofNat 4 15) = .named 15 ∧ 15 < 16) ∧
    17 = 16 + (1 : BitVec 1).toNat ∧ (((barriers 1).group 0 0).bar 0).brk = none ∧ (((barriers 1).group 0 0).bar 17).brk ≠ none ∧
    ((barriers 1).group 0 0).carrier = false ∧ (((barriers 1).group 0 0).bar 0).cnt = 0 ∧
    (((barriers 1).group 0 0).bar 1).cnt ≠ 0 ∧ 1 ≤ (dword 1).nat % 2 ^ 32 ∧ (dword 1024).nat % 2 ^ 32 ≤ 1024 ∧
    (dword 0).nat % 2 ^ 32 < 1 ∧ 1024 < (dword 1025).nat % 2 ^ 32 ∧ 17 = (if true then 17 else 16) ∧
    (((barriers 1).modGroup 0 0 fun g => { g with carrier := true }).group 0 0).carrier = true := by
  repeat' apply And.intro
  all_goals decide
/-- A group whose one thread waits on a barrier, with some bytes awaited and some arrivals of one expected. -/
def phases (k cnt : Nat) (bytes : Int) : State :=
  at5 { core0 [0] { Thread.reset with place := .barrier k } with
    groups := [(0, { group0 with bars := [(k, { Barrier.fresh 1 with cnt := cnt, bytes := bytes })] })] }
/-- The ends of the ranges of `settleBar`: too few bytes, too many, all there, and not yet. -/
theorem witness_settleBar : (∀ s ∈ [phases 16 1 (-1), phases 16 1 (2 ^ 47), phases 16 1 0, phases 16 1 (2 ^ 47 - 1), phases 16 0 0],
      (Tbl.find? (s.core 0).groups 0).isSome = true ∧ ((s.group 0 0).bar 16).brk = none ∧ (s.group 0 0).slots = [0] ∧
        (s.thread 0 0).place = .barrier 16 ∧ (s.thread 0 0).save = none ∧ (s.thread 0 0).region = none ∧ (s.thread 0 0).holdArrive ≠ some 16) ∧
    ((phases 16 1 (-1)).group 0 0).bars.all (fun e => decide (e.2.bytes < 0)) = true ∧
    (((phases 16 1 (2 ^ 47 - 1)).group 0 0).bar 16).bytes ≠ 0 ∧ (((phases 16 0 0).group 0 0).bar 16).cnt < max 1 1 ∧
    max (((phases 16 1 0).group 0 0).bar 16).exp 1 ≤ (((phases 16 1 0).group 0 0).bar 16).cnt ∧
    (((phases 16 1 0).settleBar 0 0 16).group 0 0).bars.map (fun e => (e.2.ph, e.2.cnt)) = [(1, 0)] := by decide
theorem witness_RopeInit : (barriers 1).has .a (dword 1) ∧ ((barriers 1).group 0 0).ropeCnt = 0 ∧
    ((barriers 1).group 0 0).carrier = false ∧ (Tbl.get RopeBar.reset ((barriers 1).grid 0).ropes 0).brk = false ∧
    ({ RopeBar.reset with brk := true } : RopeBar).brk = true ∧ (∀ k, k < 1 → k ∈ insertNat 0 []) ∧
    ¬ (∀ k, k < 2 → k ∈ insertNat 0 [] ∨ k ∈ RopeBar.reset.retired) := by
  repeat' apply And.intro
  all_goals decide
theorem witness_RegionInstructions : firing.live (inst0 ops) ∧ firing.has .a (dword 7) ∧ (inst0 ops).regionCause = none ∧
    (⟨4, 0, 6, 0⟩ : RegionCause).clk ≠ firing.clk ∧ (⟨5, 0, 6, 0⟩ : RegionCause).idx ≤ firing.cur.idx := by
  repeat' apply And.intro
  all_goals decide
theorem witness_SystemRegisters : privileged.live { inst0 ops with priv := true } ∧ privileged.has .a (dword 7) ∧
    privileged.has .b (dword 9) ∧ (63 : BitVec 6).toNat ∉ [2, 3, 9, 10, 11, 12, 13, 14, 17, 19] ∧ (14 : BitVec 6).toNat = 14 ∧
    (inst0 ops).priv = false ∧ (inst0 ops).region = none ∧ (firing.die 0).trace.en = false ∧
    (let t := firing.modDie 0 fun y => { y with trace := { Trace.reset with en := true, mask := 1 } }
     t.live (inst0 ops) ∧ t.has .a (dword 7) ∧ (t.die 0).trace.en = true ∧ (t.die 0).trace.mask.getLsbD 0 = true ∧
       0 ∉ t.mgmt.absent ∧ (t.die 0).dead = false) ∧ (firing.thread 0 firing.cur.slot).inst = some (inst0 ops) ∧
    (inst0 ops).squash = none ∧ (2 : BitVec 6).toNat = 2 := by
  repeat' apply And.intro
  all_goals decide

/-! Statements about memory and the engine ports -/

/-- The address of a scratchpad byte of the own group. -/
def spVa (off : Nat) : Nat := 0xf1000000000000 + off
/-- A request of instruction 0 that stands for its translation. -/
def req (k : ReqKind) (va : Nat) : Req :=
  ⟨0, k, BitVec.ofNat 64 va, 4, .walking, [], .coherent, 0, 0, none, .none, .none, [], 0⟩
/-- A thread in flight with a request. -/
def asking (r : Req) : State := flying { inst0 ops with reqs := [r] }
/-- What the judgement of the request says: passed, its page missing, or failed. -/
def judged (s : State) (r : Req) : Nat :=
  match s.judge (s.accessor 0 0) r.row r.va.toNat r.bytes r.segs r.mt with | .ok _ _ => 0 | .miss _ _ _ => 1 | .bad _ _ _ _ => 2

theorem witness_MemoryRequests : firing.live (inst0 ops) ∧ firing.has .a (dword 7) ∧ firing.has .c (dword 1) ∧
    (firing.core 0).memQ = [] ∧ (firing.core 0).memTaken firing.clk < 4 ∧
    (let s := firing.modCore 0 fun x => { x with memAt := 5, memUsed := 4 }
     s.live (inst0 ops) ∧ s.has .a (dword 7) ∧ ¬ (s.core 0).memTaken s.clk < 4) := by
  repeat' apply And.intro
  all_goals decide
theorem witness_RequestOutcomes : ∀ k ∈ [ReqKind.load, .lds, .loadAcq .device, .loadNc, .store, .storeRel .device, .storeNc, .cwb,
      .cinv, .deferred 3 false, .atomic .add none true, .frame, .record, .prefetch true],
    ((asking (req k (spVa 8))).thread 0 0).inst.isSome = true ∧ ({ inst0 ops with reqs := [req k (spVa 8)] } : Inst).req? 0 = some (req k (spVa 8)) ∧
    (inst0 ops).region = none ∧ (inst0 ops).squash = none ∧ (req k (spVa 8)).stage ≠ .queued ∧ judged (asking (req k (spVa 8))) (req k (spVa 8)) = 0 ∧
    judged (asking (req k 0x10000)) (req k 0x10000) = 1 ∧ judged (asking (req k (spVa 4096))) (req k (spVa 4096)) = 2 := by decide
theorem witness_queued : let r : Req := { req .load (spVa 8) with stage := .queued }
    ((asking r).thread 0 0).inst = some { inst0 ops with reqs := [r] } ∧ ({ inst0 ops with reqs := [r] } : Inst).req? 0 = some r ∧
      r.stage = .queued := by decide
theorem witness_probe : 2 ^ 56 ≤ (req .probe (2 ^ 56)).va.toNat ∧ ReqStage.ready = .ready := by decide
/-- Leaf entries of coherent, non-coherent and device pages for user mode, that allow everything. -/
theorem witness_PagePermissions : (0x1b0 : DWord).getLsbD 7 = true ∧ (0x1b0 : DWord).toNat / 2 ^ 9 % 4 = 0 ∧
    (0x3b0 : DWord).toNat / 2 ^ 9 % 4 = 1 ∧ (0x5b0 : DWord).toNat / 2 ^ 9 % 4 = 2 ∧ (0x130 : DWord).getLsbD 7 = false ∧
    (0x1b0 : DWord).getLsbD 4 = true := by decide
theorem witness_NullOperands : nulls.curInst?.isSome = true ∧ (nulls.opTok .a).null = true ∧ (nulls.opTok .b).null = true ∧
    (nulls.opTok .c).null = true ∧ nulls.guardTrue = false := by decide
theorem witness_FencesAndPrefetch :
    let x : Inst := { inst0 [(0, dword 0)] with fired := [], checkAt := some 4 }
    let s := at5 (core0 [0x896c0000] { Thread.reset with place := .inFlight, inst := some x })
    let b : Block := ⟨0, 0, 0, [0x896c0000], []⟩
    s.live x ∧ x.region = none ∧ b.opAt 0 = 0x89 ∧ (b.instr? 0).isSome = true ∧ s.ready 0 0 0 = true := by
  repeat' apply And.intro
  all_goals decide
theorem witness_AtomicRequests :
    let r : Req := { req (.atomic .cas none true) (spVa 8) with stage := .ready, segs := [⟨spLoc 0 8, 4, false⟩] }
    let x : Inst := { inst0 [(0, dword (spVa 8)), (1, dword 1), (2, dword 2)] with reqs := [r], judged := [0] }
    let s := flying x
    firing.live (inst0 ops) ∧ firing.opTok? .a = some (dword 7) ∧ (inst0 ops).judged.contains firing.cur.idx = false ∧
      s.live x ∧ s.opTok? .a = some (dword (spVa 8)) ∧ x.judged.contains s.cur.idx = true ∧ s.has .b (dword 1) ∧ s.has .c (dword 2) ∧
      x.req? s.cur.idx = some r ∧ r.kind = .atomic .cas none true ∧ ((s.core 0).memQ = [] ∧ (s.core 0).memTaken s.clk < 4) ∧
      ((s.modCore 0 fun y => { y with memQ := [(0, 1)] }).core 0).memQ ≠ [] ∧ nulls.opTok? .a = some nullTok ∧ (nulls.opTok .c).null = true := by
  repeat' apply And.intro
  all_goals decide
theorem witness_AtomicValues : (4 ∈ [1, 2, 4, 8, 16]) ∧ 0x7fc00000 < 2 ^ (8 * 4) ∧ fmtF32.value 0x7fc00000 = .nan ∧
    fmtF32.value 0x80000000 = .fin true 0 fmtF32.kMin ∧ fmtF32.value 0 = .fin false 0 fmtF32.kMin := by decide
theorem witness_EngineCommands : firing.live (inst0 ops) ∧ firing.has .a (dword 7) ∧ firing.has .b (dword 9) ∧
    firing.guardTrue = true ∧ (firing.core 0).port = [] ∧ firing.opTok? .b = some (dword 9) ∧ (dword 9).null = false ∧
    nulls.opTok? .b = some nullTok ∧ (flying (inst0 [(0, dword 7)])).opTok? .b = none := by
  repeat' apply And.intro
  all_goals decide
theorem witness_AddressedCommands :
    let x := inst0 [(0, dword (spVa 64)), (1, dword 9), (2, dword 0)]
    let y := { x with judged := [0], reqs := [req .descriptor 0] }
    (flying x).live x ∧ x.judged.contains 0 = false ∧ (match (flying x).copyAddr (dword (spVa 64)).lo with | .pass _ _ _ => true | _ => false) = true ∧
      (match (flying x).tempAddr (dword (spVa 64)).lo 64 1 with | .pass _ _ _ => true | _ => false) = true ∧
      (flying y).live y ∧ y.judged.contains 0 = true ∧ y.req? 0 = some (req .descriptor 0) ∧ (flying y).has .b (dword 9) ∧
      (flying y).has .c (dword 0) := by
  repeat' apply And.intro
  all_goals decide

/-- A channel of group 0 of core 0, with no copy in flight. -/
def channel0 : Channel := { Channel.reset with cfg := true, owner := 0 }
/-- A core with that channel as channel 3. -/
def channels : State := at5 { core0 [0] { Thread.reset with place := .inFlight, inst := some (inst0 ops) } with channels := [(3, channel0)] }
/-- The same core with an f32 and an ex8 entry in its channel table. -/
def entries : State := channels.modCore 0 fun x => { x with chan := [(5, 0x10000), (6, 0x10002)] }
/-- The bytes of a copy descriptor: 64 bytes, linear. -/
def descBytes : List Byte := natToBytes 64 (2 ^ 64 * 64 + 64 * 2 ^ 128 + 2 ^ 192)

theorem witness_CopyCommands : (channels.readForThread 0 0 [⟨spLoc 0 0, 64, false⟩]).isSome = true ∧
    copyReject descBytes false true = none ∧ copyReject descBytes false false = some 7 ∧
    (channels.core 0).channelWaiters 3 = [] ∧ ((channels.core 0).channel 3).cfg = true ∧ ((channels.core 0).channel 3).owner = 0 ∧
    ((channels.core 0).channel 3).infl = 0 ∧ ((channels.core 0).channel 4).cfg = false ∧
    (channels.thread 0 0).inst = some (inst0 ops) ∧ (inst0 ops).squash = none ∧ chanError 0 0 = true ∧ chanError 0x10000 0 = false ∧
    chanError 0x10002 0 = false ∧ (match channels.chValue 0 0 0 0 with | .code n => decide (n = 1) | _ => false) = true ∧
    (match entries.chValue 0 0 0 5 with | .value _ => true | _ => false) = true ∧
    (match ({ entries with poison := [spLoc 0 0] } : State).chValue 0 0 0 6 with | .poison => true | _ => false) = true ∧
    ((channels.core 0).channel 3).runs = [] ∧ (0x10002 : Nat) % 16 = 2 ∧ (0x10000 : Nat) % 16 ≠ 2 := by decide
/-- A poisoned source: the descriptor cannot be read. -/
theorem witness_poison : ({ channels with poison := [spLoc 0 0] }).readForThread 0 0 [⟨spLoc 0 0, 64, false⟩] = none := by decide
theorem witness_MatrixCommands : gangList (2 ^ 49 + 256) 4 1 1 = some [0, 1] ∧ gangList (2 ^ 48) 4 1 0 = none ∧
    (0 : Word).getLsbD 16 = false ∧ (0x10000 : DWord).toNat / 2 ^ 21 % 2 ^ 11 = 0 ∧ (0x10000 : DWord).toNat < 2 ^ 37 ∧
    (0 : DWord).toNat / 2 ^ 48 % 8 = 0 ∧ (2 ^ 49 + 256 : DWord).toNat / 2 ^ 48 % 8 ≠ 0 ∧
    firing.matRefusal 0 0 (.ld false) (matCtlOf 0) (opDescOf 0) (opDescOf 0) 0 0 = none ∧ (matCtlOf 0).gang = false ∧
    (firing.matRefusal 0 0 .mma (matCtlOf 0) (opDescOf 0) (opDescOf 0) 0 0).isSome = true ∧
    (let s := (entries.modCore 0 fun x => { x with chan := [(0, 0x10005)] }).modGroup 0 0 fun g => { g with gang := [0, 1] }
     let t : MatCtl := { matCtlOf 0 with gang := true, flag := true }
     s.matRefusal 0 0 .mma t ⟨BitVec.ofNat 64 (spVa 0), 128, 0, 0, 0, false⟩ ⟨0xf0000000000000, 128, 0, 0, 0, false⟩ 200 200 = none ∧ t.gang = true) := by decide
theorem witness_TemporalCommands :
    let s := at5 { core0 [0] { Thread.reset with place := .inFlight, inst := some (inst0 ops) } with
      temp := { TempArray.reset 0 with owner := some 0, tick := 0 } }
    (firing.core 0).temp.owner ≠ some 0 ∧ (s.core 0).temp.owner = some 0 ∧ (s.core 0).temp.st.lost = false ∧ (s.core 0).temp.tick ≠ 3 ∧
      ({ Temporal.reset with lost := true } : Temporal).lost = true ∧ ({ TempArray.reset 0 with tick := 3 } : TempArray).tick = 3 := by
  refine ⟨by decide, by decide, by decide, by decide, by decide, rfl⟩
/-- A heap on die 0 with one task. -/
def heapGrid : HeapGrid := ⟨0, 0, 16, 1, false, 1024, 5, 0, 10, 1, [], [], none, 0, false, none, false⟩
/-- A module whose grid 0 has that heap. -/
def heaps (t : Tbl Task) : State :=
  { firing with grids := [(0, { Grid.reset with heap := some heapGrid })]
                dies := [(0, { Die.reset with heap := { Heap.reset with grid := some 0, tasks := t } })] }
/-- A pending task of gain 1.0. -/
def task0 : Task := ⟨[], 0x3f800000, 0, 1, false, false, false, false, true, none, some 0, true⟩

theorem witness_HeapCommands : firing.heapGridOf 0 0 = none ∧ (heaps [(7, task0)]).heapGridOf 0 0 = some heapGrid ∧
    ((heaps [(7, task0)]).taskOf heapGrid 7).isSome = true ∧ (heaps []).taskOf heapGrid 7 = none ∧
    ((heaps []).readForThread 0 0 [⟨spLoc 0 0, 64, false⟩]).isSome = true ∧ heapGrid.mask.getLsbD 0 = true ∧
    (firing.readForThread 0 0 [⟨spLoc 0 0, 64, false⟩]).isSome = true ∧
    ({ heaps [] with poison := [spLoc 0 0] } : State).readForThread 0 0 [⟨spLoc 0 0, 64, false⟩] = none ∧
    ({ Thread.reset with task := some (7, 0x3f800000) } : Thread).task = some (7, 0x3f800000) ∧ (firing.thread 0 0).task = none := by
  decide

/-! Statements about memory events -/

/-- A load request that has passed its checks, of 4 scratchpad bytes. -/
def spLoad : Req := { req .load (spVa 8) with stage := .ready, segs := [⟨spLoc 0 8, 4, false⟩] }
/-- A store-buffer entry of 4 scratchpad bytes. -/
def spStore (kind : BufKind) : BufEntry := ⟨0, kind, BitVec.ofNat 64 (spVa 8), [⟨spLoc 0 8, 4, false⟩], .coherent, [1, 2, 3, 4], none, true,
  false, 0, [], false, 0, false, 0⟩
/-- A module whose one thread has an instance, a store buffer and deferred loads, with the arguments of an event. -/
def pending (args : List Nat) (x : Inst) (buf : List BufEntry) (ds : List Deferred) : State :=
  { at5 (core0 [0] { Thread.reset with place := .inFlight, inst := some x, buf := buf, deferred := ds }) with args := args }
/-- An instance with one request. -/
def instReq (r : Req) : Inst := { inst0 ops with reqs := [r] }

theorem witness_LoadReturns :
    let s := pending [0, 0, 0] (instReq spLoad) [] []
    let f := pending [0, 0, 0] (instReq spLoad) [spStore .store] []
    s.args = [0, 0, 0] ∧ (s.thread 0 0).inst = some (instReq spLoad) ∧ (instReq spLoad).req? 0 = some spLoad ∧ spLoad.kind.isLoad = true ∧
      spLoad.stage = .ready ∧ (instReq spLoad).squash = none ∧ s.openRegion 0 0 = none ∧ s.mustWait spLoad.segs 0 none = false ∧ (s.thread 0 0).readsFirst (s.blockOf 0 0) 0 false spLoad.segs = false ∧ spLoad.due ≤ s.clk ∧
      (instReq spLoad).mayRead s.clk spLoad = true ∧
      spLoad.mt ≠ .device ∧ spLoad.got = [] ∧ (s.thread 0 0).forward spLoad.segs = .memory ∧
      (f.thread 0 0).forward spLoad.segs = .buffer [1, 2, 3, 4] ∧ f.mustWait spLoad.segs 0 none = false ∧
      spLoad.kind.acquiresWide = false ∧ 4 < ({ spLoad with due := 5 } : Req).due ∧
      (∀ e ∈ (s.thread 0 0).buf, e.committed = false ∨ e.seen = false) ∧ spLoad.mt = .coherent ∧ spLoad.kind ≠ .loadNc ∧
      isSplit spLoad.va spLoad.bytes spLoad.mt = false ∧ segLen spLoad.segs = spLoad.bytes ∧ (∀ g ∈ spLoad.segs, g.nc = false) ∧
      s.segsPoisoned spLoad.segs = false ∧ s.obtain 0 spLoad.segs false = (s, true) ∧
      ({ instReq spLoad with squash := some ⟨.permission, 0, 0, 0⟩ } : Inst).squash ≠ none := by
  intro s f
  repeat' apply And.intro
  all_goals first | rfl | decide

/-- A page table whose root stands at 0x2000, with a leaf of 64 KiB for the page at 0x10000: coherent, for user mode. -/
def pageTable : List Host.Cell :=
  [(0x2000, 1), (0x2001, 0x40), (0x4000, 1), (0x4001, 0x60), (0x6000, 1), (0x6001, 0x80), (0x8008, 0xf3), (0x8009, 1)]
/-- A module whose thread waits for a page. -/
def walking (va : Nat) (args : List Nat) : State :=
  let x := instReq (req .load va)
  { pending args x [] [] with
    mem := pageTable
    cores := [(0, { core0 [0] { Thread.reset with place := .inFlight, inst := some x } with groups := [(0, { group0 with root := 0x2000 })] })] }

theorem witness_TranslationEvents :
    let e : TlbEntry := ⟨0, 1, 1, 0x1f3⟩
    let s := { walking 0x10000 [0, 0, 1] with clk := 5000 }
    let b := { walking 0x20000 [0, 0, 2] with clk := 5000 }
    let p : State := { s with poison := [0x6000] }
    let h : State := { s with dies := [(0, { Die.reset with tlb := [e] })] }
    (s.thread 0 0).inst = some (instReq (req .load 0x10000)) ∧ (instReq (req .load 0x10000)).req? 0 = some (req .load 0x10000) ∧
      tlbFind (h.die (dieOf 0)).tlb 0 1 = some e ∧ h.waitingOn 0 0 1 = [(0, 0)] ∧ tlbFind (s.die (dieOf 0)).tlb 0 1 = none ∧
      s.dieWaiting (dieOf 0) 0 1 = [(0, 0, 0)] ∧ (match s.walk (s.rootOf 0 0) (1 * 2 ^ 16) with | .found _ _ => true | _ => false) = true ∧
      b.dieWaiting (dieOf 0) 0 2 = [(0, 0, 0)] ∧ (match b.walk (b.rootOf 0 0) (2 * 2 ^ 16) with | .bad _ _ => true | _ => false) = true ∧
      (match p.walk (p.rootOf 0 0) (1 * 2 ^ 16) with | .poison _ => true | _ => false) = true ∧
      (∀ z ∈ [(s, 1), (b, 2), (p, 1)], z.1.walkHeld (z.1.rootOf 0 0) z.2 = false ∧
        min ((req .load 0x10000).due - 24) z.1.clk + z.1.walkLatency 0 (z.1.rootOf 0 0) z.2 ≤ z.1.clk ∧
        (z.1.walkReads (dieOf 0) (z.1.rootOf 0 0) z.2).thread 0 0 = z.1.thread 0 0) ∧
      (req .load 0x20000).kind ≠ .probe ∧ (req .load 0x10000).due ≤ h.clk ∧
      ({ h.modInst 0 0 fun x => { x with reqs := [req .probe 0x10000] } with args := [0, 0, 1] } : State).waitingOn 0 0 1 = [(0, 0)] := by
  intro e s b p h
  repeat' apply And.intro
  all_goals first | rfl | decide
/-- A prefetch of a coherent line that is free, of one that an engine holds, and of a page that is not there. -/
theorem witness_prefetch :
    let s := walking 0x10000 []
    let h : State := { s with owned := [(0, 0, 0)] }
    let w : Accessor := { s.accessor 0 0 with region := false }
    let gs : List Seg := match s.judgeWalk w .load 0x10000 1 with | .ok gs _ => gs | _ => []
    (match s.judgeWalk w .load 0x10000 1 with | .ok _ .coherent => true | _ => false) = true ∧
      (s.walked w 0x10000 1).lineHeld gs 0 none = false ∧ (h.walked w 0x10000 1).lineHeld gs 0 none = true ∧ ((s.walked w 0x10000 1).obtain 0 gs false).2 = true ∧
      (match s.judgeWalk w .load 0x20000 1 with | .ok _ .coherent => true | _ => false) = false := by decide
theorem witness_LateAnswers :
    let d : Deferred := ⟨0, 0, 3, false, 0, 4, [⟨spLoc 0 8, 4, false⟩], .coherent, true, some (some 77), [], 0, false, 0, []⟩
    let s := pending [0, 0, 0] (inst0 []) [] [d]
    let r : Req := { req .record (spVa 0) with bytes := 16, stage := .ready, segs := [⟨spLoc 0 0, 16, false⟩] }
    let t := pending [0, 0] (instReq r) [] []
    let far : Seg := ⟨2 ^ 51, 4, false⟩
    let lost : Req := { req .load 0x10000 with stage := .ready, segs := [far] }
    let u := pending [0, 0, 0, 0] (instReq lost) [] []
    let e : Deferred := { d with segs := [far], returned := none, committed := false }
    let v := pending [0, 0, 2, 0] (inst0 []) [] [e]
    (s.thread 0 0).holdArrive = none ∧ (s.thread 0 0).deferred[0]? = some d ∧ d.committed = true ∧ d.wide = false ∧
      d.returned = some (some 77) ∧ (s.core 0).roomFor [d.slot] = true ∧ (instReq r).squash = none ∧
      ((instReq r).reqs.find? fun r => r.kind == .record && r.stage == .ready) = some r ∧
      r.due ≤ t.clk ∧ (match t.readStep 0 0 (t.thread 0 0).epoch false true false r.va r.bytes r.segs r.mt r.got with | .done _ (some _) => true | _ => false) = true ∧
      (instReq lost).req? 0 = some lost ∧ lost.kind.isLoad = true ∧ (instReq lost).region = none ∧
      (lost.segs.any fun g => outside u g.loc) = true ∧
      ((pending [0, 0, 1, 0] (inst0 []) [{ spStore .store with segs := [far], sent := true }] []).thread 0 0).buf[0]?.isSome = true ∧
      (v.thread 0 0).deferred[0]? = some e ∧ (e.segs.any fun g => outside v g.loc) = true := by
  intro d s r t far lost u e v
  repeat' apply And.intro
  all_goals first | rfl | decide
theorem witness_StoreBuffer :
    let e := spStore .store
    let s := pending [0, 0] (inst0 []) [e] []
    let q : BufEntry := { e with sent := true }
    let t := pending [0, 0, 0] (inst0 []) [q] []
    let r := spStore (.rel .device)
    let two := pending [0, 0] (inst0 []) [q, r] []
    (s.thread 0 0).buf[0]? = some e ∧ e.committed = true ∧ e.sent = false ∧ (∀ f ∈ (s.thread 0 0).buf.take 0, f.committed = true → f.sent = true) ∧
      (two.thread 0 0).buf[1]? = some r ∧ (∀ f ∈ (two.thread 0 0).buf.take 1, f.committed = true → f.sent = true) ∧
      ({ r with reads := [3] } : BufEntry).reads ≠ [] ∧ r.reads = [] ∧ r.kind = .rel .device ∧
      (t.thread 0 0).buf[0]? = some q ∧ q.sent = true ∧ q.kind = .store ∧ (t.thread 0 0).holdArrive = none ∧
      (((t.thread 0 0).buf.take 0).any fun f => q.behind f || t.peerBehind q f) = false ∧ t.mustWait q.segs 0 none = false ∧ (t.thread 0 0).readsBefore q = false ∧
      Memory.wf t.mem = true ∧ (segLocs q.segs).Nodup ∧ (segLocs q.segs).length = q.data.length ∧
      (q.segs.any fun g => t.lost g.loc) = false ∧ isSplit q.va q.data.length q.mt = false ∧ t.obtain 0 q.segs true = (t, true) := by
  intro e s q t r two
  repeat' apply And.intro
  all_goals first | rfl | decide
theorem witness_LaterResults :
    let e : Emission := ⟨0, 5, false, false, dword 3, dword 3, out, .none⟩
    let x : Inst := { inst0 [] with emits := [e] }
    let s := pending [0, 0, 0] x [] []
    (s.thread 0 0).inst = some x ∧ (x.emits.find? fun e => e.idx == 0 && e.port == false) = some e ∧ e.due ≤ s.clk ∧
      s.clk < ({ e with due := 6 } : Emission).due ∧ ({ e with voids := true } : Emission).voids = true ∧ x.squash = none ∧ ({ e with port := true } : Emission).port = true := by
  intro e x s
  repeat' apply And.intro
  all_goals first | rfl | decide
theorem witness_AtomicEvents :
    let q : AtomicReq := ⟨0, 1, 0, 0, 0, .add, 4, [⟨spLoc 0 8, 4, false⟩], .coherent, 0, 5, true, 4, 0, false, none⟩
    let s : State := { firing with args := [0, 1], dies := [(0, { Die.reset with tiles := [q] })] }
    let a : AtomicReq := { q with answer := some (some (0, false)) }
    let r : Req := { req (.atomic .add none true) (spVa 8) with stage := .sent }
    let t : State := { pending [0, 0, 0] (instReq r) [] [] with dies := [(0, { Die.reset with tiles := [a] })] }
    (s.die 0).tileHead 1 = some (0, q) ∧ q.came < s.clk ∧ (∀ t ∈ q.at_, (s.die 0).tileHead t = some (0, q)) ∧
      (∀ l ∈ segLines q.segs, ∀ e ∈ s.locks, e.1 ≠ l) ∧ q.behind = false ∧ s.lineOwned q.segs = false ∧ r.due ≤ t.clk ∧ a.due ≤ t.clk ∧ q.mt = .coherent ∧ (∀ g ∈ q.segs, g.nc = false) ∧
      s.segsPoisoned q.segs = false ∧ s.tileObtain 0 q = (s, true) ∧ (t.thread 0 0).inst = some (instReq r) ∧
      (instReq r).squash = none ∧ (instReq r).req? 0 = some r ∧
      t.answered 0 0 0 = some (0, 0, a) ∧ a.answer = some (some (0, false)) := by
  intro q s a r t
  repeat' apply And.intro
  all_goals first | rfl | decide

/-! Statements about the fabric, placement and retirement -/

/-- An instance that has completed its one instruction at clk 3. -/
def done (tm : Term) : Inst := { inst0 [] with count := 1, fullAt := some 3, term := tm }
/-- A faulting instance. -/
def faulty : Inst := { done (.goto 0x40 none) with faults := [⟨.permission, 0, 8, 9⟩] }

theorem witness_Commits :
    let s := pending [0, 0] (done (.goto 0x40 none)) [] []
    let f := pending [0, 0] faulty [] []
    s.nextCommit 0 = some (0, done (.goto 0x40 none)) ∧ (s.thread 0 0).inst = some (done (.goto 0x40 none)) ∧ s.openRegion 0 0 = none ∧
      (s.groupOf 0 0).isSaving = false ∧ (s.groupOf 0 0).halted = false ∧ s.commitFault 0 0 (done (.goto 0x40 none)) = none ∧
      f.nextCommit 0 = some (0, faulty) ∧ f.commitFault 0 0 faulty = some (⟨.permission, 0, 8, 9⟩, false) := by
  intro s f
  repeat' apply And.intro
  all_goals decide
theorem witness_SquashedEnds :
    let x : Inst := { done .undecided with squash := some ⟨.permission, 0, 8, 9⟩ }
    let y : Inst := { x with count := 0 }
    let s := pending [0, 0] x [] []
    let k : Core := { core0 [0] Thread.reset with lvq := [(3, [(0, 3)])] }
    (s.thread 0 0).inst = some x ∧ x.squash = some ⟨.permission, 0, 8, 9⟩ ∧ x.fullAt = some 3 ∧ s.openRegion 0 0 = none ∧
      (s.groupOf 0 0).isSaving = false ∧ x.n ≤ x.count ∧ 3 ≤ s.clk ∧ x.reqs = [] ∧ y.count < y.n ∧
      (((at5 k).core 0).lvq.any fun e => !e.2.isEmpty) = true ∧ ((at5 k).core 0).lvqAt ≠ some (at5 k).clk := by
  intro x y s k
  repeat' apply And.intro
  all_goals decide

/-- A module with a queue of a record at its head, of a context that is enabled or not. -/
def queues (en : Bool) (r : LaunchRec) : State :=
  { State.reset with
    args := [3]
    queues := [(3, { Queue.reset with en := true, ctx := 2, taken := [(0, r)] })]
    mgmt := { Mgmt.reset with ctxs := [(2, ⟨en, 5, 0x2000, 0⟩)] } }
/-- The bytes of an image header, at physical address 0x100, under the page table above. -/
def image : List Host.Cell := [(0x100, 0x31), (0x101, 0x4b), (0x102, 0x44), (0x103, 0x4a), (0x104, 0xf8), (0x105, 0x1b)]
/-- A record that passes every check. -/
def record0 : LaunchRec := { LaunchRec.reset with image := 0x10100, entry := 0x10000 }

set_option maxRecDepth 100000 in
theorem witness_QueueEvents :
    let s : State := { queues true record0 with mem := image ++ pageTable }
    (State.reset.queue 7).en = false ∧ (s.queue 3).en = true ∧ (s.queue 3).taken = (0, record0) :: [] ∧ (s.queue 3).stage = 0 ∧ (s.queue 3).heapDesc = none ∧
      ((queues false record0).ctxEntry 2).en = false ∧ (s.ctxEntry 2).en = true ∧ ({ record0 with live := 0 } : LaunchRec).live = 0 ∧
      s.earlyReject (s.ctxEntry 2) record0 = none ∧ ¬ (record0.order = true ∧ 0 < (s.queue 3).open_) ∧ record0.wait = 0 ∧
      (match s.lateVerdict (s.ctxEntry 2).root record0 with | .start none => true | _ => false) = true ∧
      bytesToNat ((memReadAll ([] : List Host.Cell) (winLoc 0) 256).drop 255) ≠ 1 - (0 : Word).toNat / 64 % 2 ∧
      bytesToNat ((memReadAll [(winLoc 255, 1)] (winLoc 0) 256).drop 255) = 1 - (0 : Word).toNat / 64 % 2 ∧
      s.earlyReject (s.ctxEntry 2) { record0 with live := 65 } = some 9 ∧ ({ record0 with live := 65 } : LaunchRec).live > 64 ∧
      s.unitRead 0x2000 0x30000 64 = none ∧ (s.unitRead 0x2000 0x10200 64).map (fieldAt · 0 4) = some 0 ∧
      (s.unitRead 0x2000 0x10100 64).map (fieldAt · 0 4) = some 0x4a444b31 ∧ record0.reject s.grade 7080 0 = some 1 := by
  intro s
  repeat' apply And.intro
  all_goals decide

/-- A launch that was started, whose one group waits for its place. -/
def waiting : State :=
  { queues true record0 with
    args := []
    mem := image ++ pageTable
    grids := [(0, { Grid.reset with queue := 3, ctx := 2, launch := record0 })] }
/-- The one group that waits. -/
def unit0 : BlockedRef := ⟨0, 0, 0, 2, none⟩

set_option maxRecDepth 100000 in
theorem witness_PlaceUnit : waiting.placeClk ≠ some waiting.clk ∧ waiting.unitsInOrder = [unit0] ∧ waiting.placeFor unit0 = some 0 ∧
    (waiting.grid 0).launch.ropeG = 1 ∧ (waiting.grid 0).launch.ropeP = 1 ∧ (waiting.grid 0).heap = none ∧
    waiting.seats unit0 0 = [0] ∧ waiting.savedOf 0 0 = none ∧
    (waiting.core 0).roomOf 0 0 (waiting.grid 0).launch none 0 = some ⟨0, [0], 0⟩ := by
  repeat' apply And.intro
  all_goals decide

/-- A module of one die, whose core 0 holds a group of context 1 that has used up its slice, and a rope of 256 groups of
context 2 that needs all 256 cores. -/
def crowded : State :=
  let r : LaunchRec := { LaunchRec.reset with gx := 256, ropeG := 256, scratch := 262144 }
  { at5 (core0 [0] { Thread.reset with place := .fifo }) with
    clk := 2000
    args := [0, 0]
    mgmt := { Mgmt.reset with absent := [1, 2, 3, 4, 5, 6, 7], ctxs := [(1, ⟨true, 5, 0, 1⟩), (2, ⟨true, 5, 0, 1⟩)] }
    grids := [(0, { Grid.reset with ctx := 1, unplaced := 1, resident := [(0, 0)] }), (1, { Grid.reset with ctx := 2, launch := r })] }
def ropeUnit : BlockedRef := ⟨1, 0, 0, 2, none⟩

/-- A block of `exit` at virtual address 0x10000, a piton or not, under the page table above. -/
def codeAt (piton : Bool) : List Host.Cell := [(2, if piton then 2 else 4), (7, 0x18)] ++ pageTable
/-- A module whose thread stands in bin 0 of that block, with an argument list. -/
def binned (args : List Nat) (f : Thread → Thread) (g : Group → Group) (k : Core → Core) : State :=
  let t : Thread := f { Thread.reset with place := .binned 0, next := 0x10000, filed := 1 }
  let x : Core := { core0 [] t with
    groups := [(0, g { group0 with root := 0x2000 })]
    contexts := []
    bins := [(0, ⟨some (0, 0x10000), [0], none, 64, 0x2000, 1, none, false⟩)] }
  { at5 (k x) with args := args, mem := codeAt true }

/-- The fetch of that block, whose time has passed. -/
def fetch0 : Fetch := ⟨1, 0, 5, 0x2000, 0, 0x10000, [], true, [], 2, none⟩

set_option maxRecDepth 100000 in
theorem witness_GroupMoves :
    let s : State := { binned [0, 0, 1] id (fun g => { g with moving := true }) id with grids := [(0, { Grid.reset with reserved := [(1, 0)] })] }
    let d : State := { State.reset with args := [0], dies := [(0, { Die.reset with modeDue := some 0 })] }
    let cands := (crowded.spotsFor ropeUnit).flatMap fun f => crowded.preemptCases.flatMap fun case => crowded.runVictims ropeUnit case f
    (crowded.unitsInOrder.find? fun u => decide (u.prio = (crowded.unitsInOrder.map (·.prio)).foldl max 0) &&
        u.prio == (crowded.group 0 0).prio && crowded.mayPreempt u (some (crowded.grid (crowded.group 0 0).grid).ctx) (crowded.group 0 0) && (crowded.placeFor u).isNone) =
        some ropeUnit ∧
      cands.any (·.isEmpty) = false ∧ bestBy crowded.victimsBetter cands = some [(0, 0)] ∧
      Memory.wf s.mem = true ∧ s.mayMigrate 0 0 = true ∧ s.migrateTo 0 0 = some 1 ∧ ((s.core 1).roomOf 1 0 (s.grid 0).launch
        (some (s.asSaved 0 0)) 0).isSome = true ∧ (d.die 0).modeDue = some 0 ∧ 0 ≤ d.clk := by
  intro s d cands
  repeat' apply And.intro
  all_goals decide
theorem witness_ContextEvents :
    let s := binned [0, 0] id id id
    let r := binned [0] id id fun x => { x with bins := [(0, ⟨some (0, 0x10000), [0], some 0, 64, 0x2000, 1, none, false⟩)] }
    let o := binned [0] id id fun x => { x with
      fetch := some fetch0
      contexts := [(1, { Context.reset with state := .configuring, bin := some 0 })] }
    let q := binned [0, 1] id id fun x => { x with contexts := [(1, { Context.reset with state := .closed, quiet := false, idleSince := 2 })] }
    ((s.core 0).bin 0).key = some (0, 0x10000) ∧ ((s.core 0).bin 0).window = none ∧ (s.core 0).oldest ((s.core 0).bin 0) = some 0 ∧
      (s.headerAt ((s.core 0).bin 0).root 0x10000).isSome = true ∧ (s.headerAt ((s.core 0).bin 0).root 0x20000) = none ∧ (r.core 0).fetch = none ∧
      (r.core 0).chosenBin r.clk = some (0, (r.core 0).bin 0) ∧ (r.core 0).contextToTake = some 0 ∧ ((r.core 0).context 0).state = .free ∧
      ((r.core 0).context 0).bin = none ∧ (match r.fetchWord 0x2000 0 0 0x10000 with | .ok _ => true | _ => false) = true ∧
      (match r.fetchWord 0x2000 0 0 0x20000 with | .ok _ => true | _ => false) = false ∧
      (o.core 0).fetch = some fetch0 ∧ ((o.core 0).context 1).bin = some 0 ∧ fetch0.due ≤ o.clk ∧
      (match (({ o with mem := codeAt false } : State).fetchWords 0 fetch0.need fetch0).result with | .block _ _ => true | _ => false) = true ∧
      ((q.core 0).context 1).quiet = false ∧ ((q.core 0).context 1).forced = false ∧
      ((q.core 0).inFlight.any fun e => e.2.ctx == 1) = false ∧ ((q.core 0).context 1).idleSince + 3 ≤ q.clk := by
  intro s r o q
  repeat' apply And.intro
  all_goals decide
theorem witness_ContextClosures :
    let full : Tbl Context := [0, 1, 2, 3].map fun k => (k, { Context.reset with state := .opened, bin := some (k + 1), quiet := false, openAt := k })
    let s : State := { (binned [0] id id fun x => { x with
      contexts := full, bins := [(0, ⟨some (0, 0x10000), [0], some 0, 64, 0x2000, 1, none, false⟩)] }) with clk := 100 }
    let b : State := { (binned [0] (fun t => { t with place := .fifo }) id fun x => { x with contexts := full, fifo := [(0, 0, 0x10000)], bins := [] }) with clk := 300 }
    let i := pending [0, 0, 0] (inst0 []) [] []
    let i : State := { i with cfginvs := [(0, 0, 0, 5, 0, 64)] }
    let o := s.modCore 0 fun x => x.modContext 0 fun y => { y with closing := some true }
    (s.core 0).fetch = none ∧ (s.core 0).forcing = false ∧
      (∀ j ∈ [0, 1, 2, 3], ((s.core 0).context j).state ≠ .free ∧ (s.core 0).reclaimable j = false) ∧
      ((s.core 0).agedBin s.clk).isSome = true ∧ (s.core 0).closureVictim s.clk ((s.core 0).binPrio s.clk ((s.core 0).bin 0)) = some 0 ∧
      (b.core 0).fifo = [(0, 0, 0x10000)] ∧ ((b.core 0).bins.any fun e => e.2.isSealed) = false ∧
      bestBy (fun i j => decide (((b.core 0).context i).openAt < ((b.core 0).context j).openAt))
        (ctxNums.filter fun k => ((b.core 0).context k).state == .opened && ((b.core 0).context k).bin.isSome) = some 0 ∧
      ((b.core 0).context 0).bin = some 1 ∧ ((b.core 0).thread 0).filed + 256 ≤ b.clk ∧
      (i.cfginvs.find? fun e => e.1 == 0 && e.2.1 == 0 && e.2.2.1 == 0) = some (0, 0, 0, 5, 0, 64) ∧
      (i.thread 0 0).inst = some (inst0 []) ∧ 5 ≤ i.clk ∧
      (Tbl.find? o.cores 0).isSome ∧ ((o.core 0).context 0).closing = some true ∧ ((o.core 0).context 0).state = .opened ∧
      0 ∈ (i.core 0).overlapping (i.aspOf 0 0) 0 64 := by
  intro full s b i0 i o
  repeat' apply And.intro
  all_goals decide

/-- A module with an open context whose bin holds one thread. -/
def entering (f : Thread → Thread) (user : Bool) : State :=
  binned [0] f id fun x => { x with
    bins := [(0, ⟨some (0, 0x10000), [0], some 0, 64, 0x2000, 1, some 1, false⟩)]
    contexts := [(1, { Context.reset with
      state := .opened, bin := some 0, userOk := user, block := ⟨0x10000, 0x40000, 1, [0x01000000], []⟩ })] }
/-- A matrix command of group 0 on context 1. -/
def mat (k : MatKind) : MatCmd :=
  ⟨k, 0, 0, 0, 0, 0, 0, 1, 1, 1, 2, true, false, ⟨BitVec.ofNat 64 (spVa 0), 128, 0, 0, 0, false⟩, ⟨BitVec.ofNat 64 (spVa 0), 128, 0, 0, 0, false⟩,
    0x10005, 0x10005, [], 0, false, false⟩
/-- What a thread that was saved in the rendezvous latch waited with. -/
def latched0 : LatchWait := ⟨inst0 [], [], [], ⟨0, 0, 0, mat .mma, .none, 1⟩⟩
/-- The record of a deferred load that failed. -/
def failRec0 : FailRec := ⟨.poison, 0x10000, 0, 0⟩

set_option maxRecDepth 100000 in
theorem witness_Admissions :
    let s := entering id true
    let u := entering id false
    let f := entering (fun t => { t with failMask := 1, failRec := some failRec0 }) true
    let v := entering (fun t => { t with resume := some latched0 }) true
    (s.core 0).admitAt ≠ some s.clk ∧ s.keptOut 0 = none ∧ s.admitChoice 0 = some (1, 0) ∧ (s.thread 0 0).resume = none ∧ s.openRegion 0 0 = none ∧ (s.thread 0 0).region = none ∧
      ((s.core 0).context 1).userOk = true ∧ maskMeets (s.thread 0 0).failMask ((s.core 0).context 1).block.touchSet = false ∧
      hdrAR ((s.core 0).context 1).block.hdr = false ∧ ((s.core 0).context 1).block.termOp ≠ 0xe0 ∧
      s.admissionHeld 0 0 ((s.core 0).context 1).block = false ∧ (u.thread 0 0).priv = false ∧ ((u.core 0).context 1).userOk = false ∧
      u.keptOut 0 = some (1, 0) ∧ f.admitChoice 0 = some (1, 0) ∧ (v.thread 0 0).resume = some latched0 ∧ v.admitChoice 0 = some (1, 0) ∧
      maskMeets (f.thread 0 0).failMask ((f.core 0).context 1).block.touchSet = true ∧ (f.thread 0 0).failRec = some failRec0 := by
  intro s u f v
  repeat' apply And.intro
  all_goals decide
theorem witness_Retirements :
    let s := binned [0, 0] (fun t => { t with place := .retiring }) id fun x => { x with bins := [] }
    let f := binned [0, 0] (fun t => { t with place := .retiring, failMask := 1, failRec := some failRec0 }) id id
    let g := binned [0, 0] id (fun g => { g with live := 0 }) fun x => { x with threads := [], bins := [] }
    let d : State := { State.reset with args := [0], grids := [(0, { Grid.reset with retired := 1 })] }
    s.retireReady 0 0 = true ∧ (s.thread 0 0).task = none ∧ (s.groupOf 0 0).carrier = false ∧ (s.thread 0 0).failMask = 0 ∧
      firing.retireReady 0 0 = false ∧ f.retireReady 0 0 = true ∧ (f.thread 0 0).priv = false ∧ (f.thread 0 0).failMask ≠ 0 ∧
      (f.thread 0 0).failRec = some failRec0 ∧ (f.groupOf 0 0).isSaving = false ∧ f.openRegion 0 0 = none ∧
      Tbl.find? g.grids (g.group 0 0).grid = some Grid.reset ∧ g.mayRetire 0 0 = true ∧ firing.mayRetire 0 0 = false ∧
      Tbl.find? d.grids 0 = some { Grid.reset with retired := 1 } ∧ (∀ e ∈ d.cores, ∀ g ∈ e.2.groups, g.2.grid ≠ 0) ∧
      LaunchRec.reset.done = 0 ∧ 1 = LaunchRec.reset.groups := by
  intro s f g d
  repeat' apply And.intro
  all_goals decide
theorem witness_WaitTimers :
    let b : Group → Group := fun g => { g with barTimeout := 0x8000000000000003, clock := 5, bars := [(0, { Barrier.fresh 2 with since := some 1 })] }
    let s := binned [0, 0, 0] (fun t => { t with place := .barrier 0 }) b fun x => { x with bins := [] }
    let c := binned [0, 0] (fun t => { t with place := .channel 3, waitSince := 1 }) b fun x => { x with bins := [] }
    let r : State := { firing with
      args := [0, 0]
      grids := [(0, { Grid.reset with resident := [(0, 0)], ropes := [(0, { RopeBar.reset with due := some 4 })] })] }
    let w : State := { binned [0, 0, 18] (fun t => { t with place := .rope, waitSince := 1 }) b (fun x => { x with bins := [] }) with
      grids := [(0, { Grid.reset with resident := [(0, 0)] })] }
    Tbl.find? (s.core 0).groups 0 = some (b { group0 with root := 0x2000 }) ∧ (s.group 0 0).counts = true ∧
      ((s.group 0 0).bar 0).since = some 1 ∧ ((s.group 0 0).bar 0).brk = none ∧ timedOut (s.group 0 0).barTimeout 1 (s.group 0 0).clock = true ∧
      timedOut (s.group 0 0).barTimeout 3 (s.group 0 0).clock = false ∧ (s.thread 0 0).place = .barrier 0 ∧ (s.thread 0 0).save = none ∧
      (r.ropeBar 0 0).due = some 4 ∧ 4 ≤ r.clk ∧ (c.thread 0 0).place = .channel 3 ∧ (c.groupOf 0 0).counts = true ∧
      timedOut (c.groupOf 0 0).barTimeout (c.thread 0 0).waitSince (c.groupOf 0 0).clock = true ∧ w.ropeSince 0 0 = some 1 ∧
      (w.group 0 0).counts = true ∧ (w.thread 0 0).place = .rope ∧ w.ropeMembers 0 0 = [(0, 0)] := by
  intro b s c r w
  repeat' apply And.intro
  all_goals decide

/-! Statements about engine events -/

/-- A core of one group with channels, a command at its port, and so on, under an argument list. -/
def engine (args : List Nat) (f : Core → Core) : State :=
  { at5 (f (core0 [0] { Thread.reset with place := .inFlight, inst := some (inst0 ops) })) with args := args }
/-- A copy of 64 scratchpad bytes to the bytes behind them. -/
def copy0 (dst : Nat) : Copy :=
  ⟨0, 0, 0, 0, true, false, 0, ⟨BitVec.ofNat 64 (spVa 0), BitVec.ofNat 64 dst, 64, 1, 1, 0, 0, 0, 0, none, 0⟩, 64, 0, [], false, []⟩
/-- Its one run. -/
def run0 : CopyRun := ⟨0, 0, 0, 0, 64, [⟨spLoc 0 0, 64, false⟩], [⟨spLoc 0 64, 64, false⟩], false, none, false⟩

theorem witness_CopyEvents :
    let k : EngCmd := ⟨0, 0, .hself, .none, .none⟩
    let p := engine [0] fun x => { x with port := [k] }
    let s := engine [0, 3] fun x => { x with channels := [(3, { channel0 with infl := 1, copies := [copy0 (spVa 64)] })] }
    let b := engine [0, 3] fun x => { x with channels := [(3, { channel0 with infl := 1, copies := [copy0 (spVa 4096)] })] }
    let r := engine [0, 3, 0] fun x => { x with
      channels := [(3, { channel0 with infl := 1, copies := [{ copy0 (spVa 64) with issued := 64 }], runs := [run0] })] }
    (p.core 0).port = [k] ∧ p.admits 0 k = true ∧ ((s.core 0).channel 3).issuing = some (copy0 (spVa 64)) ∧
      (copy0 (spVa 64)).stalled = false ∧ (copy0 (spVa 64)).coll = false ∧
      (match s.judgeEngine (s.copyAccessor 0 (copy0 (spVa 64))) .engineWrite (spVa 64) 64 with | .ok _ _ => true | _ => false) = true ∧
      (match b.judgeEngine (b.copyAccessor 0 (copy0 (spVa 4096))) .engineRead (spVa 4096) 64 with
        | .bad .permission _ 5 _ => true | _ => false) = true ∧
      ((r.core 0).channel 3).runs[0]? = some run0 ∧ r.runFree run0 = true ∧ run0.dstNc = false ∧ ((r.core 0).channel 3).brk = false ∧
      run0.len = (copy0 (spVa 64)).size ∧ (s.judgeEngine (s.copyAccessor 0 (copy0 (spVa 64))) .engineRead (spVa 0) 64 matches .ok _ _) = true ∧
      (copy0 (spVa 64)).goneAt 0 (spVa 64) = none ∧
      ({ copy0 0xf0000000000040 with gone := [(spLoc 0 64, 64)] } : Copy).goneAt 0 0xf0000000000040 = some (spLoc 0 64) ∧
      ({ run0 with dead := true } : CopyRun).dead = true ∧ Memory.wf r.mem = true := by
  intro k p s b r
  repeat' apply And.intro
  all_goals decide

theorem witness_MatrixEvents :
    let s := engine [0] fun x => { x with matQ := [mat .mma] }
    let d : MatCmd := { mat .mma with started := true, step := 99 }
    (s.core 0).headOn 1 = some (0, mat .mma) ∧ (s.core 0).nextStep = some 1 ∧ d.started = true ∧ d.stopped = false ∧ d.steps ≤ d.step ∧
      ((engine [0, 1] fun x => { x with matQ := [d] }).core 0).headOn 1 = some (0, d) ∧ (mat .mma).step < (mat .mma).steps ∧
      ((engine [0, 1] fun x => { x with matQ := [mat (.ld false)] }).core 0).headOn 1 = some (0, mat (.ld false)) ∧
      ((engine [0, 1] fun x => { x with matQ := [mat (.st true)] }).core 0).headOn 1 = some (0, mat (.st true)) ∧
      (mat .mma).m ≠ 0 ∧ (mat .mma).n ≠ 0 ∧ (mat (.st true)).lastRow = true ∧ (mat (.st true)).flag = true ∧
      ({ mat (.st true) with m := 2 } : MatCmd).lastRow = false := by
  intro s d
  repeat' apply And.intro
  all_goals decide
theorem witness_GangEvents :
    let q : MatCmd := { mat .mma with gang := true, db := ⟨0xf0000000000000, 128, 0, 0, 0, false⟩ }
    let e : LatchEntry := ⟨0, 0, 0, q, .none, 1⟩
    let bad : LatchEntry := { e with cmd := { q with db := ⟨BitVec.ofNat 64 (spVa 0), 128, 0, 0, 0, false⟩ } }
    let at_ (e : LatchEntry) (args : List Nat) : State :=
      { (engine args fun x => { x with groups := [(0, { group0 with gang := [0], barTimeout := 0x8000000000000003, clock := 5 })] }) with
        dies := [(0, { Die.reset with latch := [e] })] }
    (at_ e []).gangRound 0 0 0 = some [e] ∧ (at_ e []).gangAgrees [e] = true ∧ (at_ bad []).gangRound 0 0 0 = some [bad] ∧
      (at_ bad []).gangAgrees [bad] = false ∧ ((at_ e [0, 0]).groupOf 0 0).counts = true ∧
      (((at_ e [0, 0]).die 0).latch.find? fun y => y.cmd.core == 0 && y.cmd.slot == 0) = some e ∧
      timedOut ((at_ e [0, 0]).group 0 e.cmd.group).barTimeout e.arrived ((at_ e [0, 0]).group 0 e.cmd.group).clock = true ∧
      timedOut ((at_ e [0, 0]).group 0 e.cmd.group).barTimeout 5 ((at_ e [0, 0]).group 0 e.cmd.group).clock = false ∧ dieOf 0 = 0 ∧
      bestBy (fun x y => decide (x.rank < y.rank)) [e] = some e ∧ ([e].map fun e => e.cmd.core).Nodup ∧
      (((at_ e []).core e.cmd.core).acc e.cmd.ac).v = false := by
  intro q e bad at_
  repeat' apply And.intro
  all_goals decide

/-- A temporal array of group 0 with a command at the head of its queue. -/
def temporal (op : TempOp) (start : Option Nat) (tick : BitVec 2) (args : List Nat) : State :=
  engine args fun x => { x with temp := ⟨some 0, Temporal.reset, [⟨op, 0, 0, .none, .none, start, []⟩], tick, 0, 0, 0⟩ }

theorem witness_TemporalEvents :
    let i : State := { (engine [0, 1, 0] id) with clk := 100000 }
    ((temporal .trst none 0 [0]).core 0).temp.queue = [⟨.trst, 0, 0, .none, .none, none, []⟩] ∧
      (∀ op ∈ [TempOp.twin 5 0, .tload false [] 0 0, .trst, .tcode false 0 0 0, .tcode true 0 0 0, .tcap [⟨spLoc 0 0, 64, false⟩], .tval 3, .tlaunch true],
        ((temporal op (some 1) 0 [0]).core 0).temp.queue = [⟨op, 0, 0, .none, .none, some 1, []⟩]) ∧
      ((temporal (.tlaunch true) (some 1) 2 [0, 1]).core 0).temp.tick = 2 ∧ (i.core 0).temp.queue = [] ∧ (i.core 0).temp.tick ≠ 3 ∧
      (i.core 0).temp.idleSince + 100000 ≤ i.clk ∧
      (∀ op ∈ [TempOp.twin 5 0, .tload false [] 0 0, .trst, .tcode false 0 0 0, .tcode true 0 0 0, .tcap [⟨spLoc 0 0, 64, false⟩], .tval 3, .tlaunch true],
        let s := temporal op (some 1) 0 [0]
        s.clk < 5 + (s.core 0).temp.lasts 0 op ∧ 1 + (s.core 0).temp.lasts 0 op ≤ 300) ∧ ((temporal .trst none 3 [0]).core 0).temp.tick = 3 ∧
      (1 : Word).getLsbD 0 = true ∧ (0 : Word).getLsbD 0 = false := by
  intro i
  repeat' apply And.intro
  all_goals decide

/-- An open region of slot 0 that has written one line. -/
def region0 : Region := ⟨0, 0, 0, [], [], [], [], [], [7], [], 1, true, false, none⟩
/-- A core whose slot 0 is in that region. -/
def committing (args : List Nat) (f : Core → Core) : State :=
  { at5 (f { core0 [0] { Thread.reset with place := .commitEngine, region := some 2 } with regions := [(2, region0)] }) with args := args }

theorem witness_RegionCommits :
    let s := committing [0] fun x => { x with commitQ := [(0, 0x40)] }
    let asks := committing [0] fun x => { x with commit := some ⟨0, 0x40, [7, 8], [], none⟩ }
    let t := committing [0] fun x => { x with commit := some ⟨0, 0x40, [7, 8], [], some 0⟩ }
    let u := committing [0] fun x => { x with commit := some ⟨0, 0x40, [], [7], some 0⟩ }
    let d : State := { committing [0] id with dies := [(0, { Die.reset with serialWait := [(0, 0, 4)] })] }
    s.openRegion 0 0 = some (2, region0) ∧ (s.core 0).commit = none ∧ (s.core 0).commitQ = [(0, 0x40)] ∧ (s.thread 0 0).buf = [] ∧
      ((region0.readLines ++ region0.writeLines).foldl (fun acc l => insertNat l acc) []).filter (fun l => !s.locks.contains (l, 0, 2)) = [7] ∧
      (s.thread 0 0).deferred = [] ∧ ((committing [0] fun x => { x with threads := [(0, { Thread.reset with region := some 2, buf := [spStore .store] })] }).thread 0 0).buf ≠ [] ∧
      (t.core 0).commit = some ⟨0, 0x40, [7, 8], [], some 0⟩ ∧ t.engineOwns 7 = false ∧ t.holder 7 = none ∧ t.atomicFirst [lineSeg 7] = false ∧
      (t.obtain 0 [lineSeg 7] true).2 = true ∧ (u.obtain 0 [lineSeg 7] true).2 = true ∧
      s.commitYields 0 0 = false ∧ (asks.core 0).commit = some ⟨0, 0x40, [7, 8], [], none⟩ ∧ asks.holder 7 = none ∧ asks.engineOwns 7 = false ∧
      asks.atomicFirst [lineSeg 7] = false ∧ 0 ≤ t.clk ∧ (u.core 0).roomAll = true ∧ (d.die 0).serial = none ∧
      (match exec .lineLockGranted t with | .next w => w.locks | _ => []) = [(7, 0, 2)] ∧ (u.core 0).commit = some ⟨0, 0x40, [], [7], some 0⟩ ∧
      (u.core 0).tagRoom region0 = true ∧ (∀ i ∈ region0.inputs, i.stale = false ∧ u.lockedRead i.segs = i.v) ∧
      (region0.constraints.any fun q => !q.holds (match region0.inputs[q.input]? with | some i => i.v.setWidth 64 | none => 0)) = false ∧
      (d.die 0).nextSerial = some (0, 0, 4) ∧ (d.die 0).serial = none ∧ d.openRegion 0 0 = some (2, region0) := by
  intro s asks t u d
  repeat' apply And.intro
  all_goals decide

/-- A region that has one input, of 8 bytes with the value 5. -/
def region1 (f : Region → Region) : Region :=
  f { region0 with inputs := [⟨0x10000, [⟨0x40000, 8, false⟩], 8, 5, false, false⟩], writeLines := [] }
/-- A module whose one instance is in that region. -/
def regional (args : List Nat) (toks : Tbl Token) (rs : List Req) (f : Region → Region) (g : Inst → Inst) : State :=
  let x : Inst := g { inst0 toks with region := some 2, reqs := rs }
  { at5 { core0 [0] { Thread.reset with place := .inFlight, region := some 2, inst := some x } with regions := [(2, region1 f)] } with
    args := args }
/-- A load of some bytes that has passed its checks. -/
def load40000 (n : Nat) : Req := { req .load 0x40000 with bytes := n, stage := .ready, segs := [⟨0x40000, n, false⟩] }
/-- A region with a store of some bytes there, concrete or a record. -/
def storing (n : Nat) (tag : Option (Nat × DWord)) (r : Region) : Region :=
  { r with stores := [⟨.store, [⟨0x40000, n, false⟩], n, 77, tag⟩] }

set_option maxRecDepth 100000 in
theorem witness_RegionLoads :
    let s (n : Nat) (f : Region → Region) := regional [0, 0, 0] [] [load40000 n] f id
    let full (r : Region) : Region := { r with inputs := List.replicate 16 ⟨0, [], 8, 0, false, false⟩ }
    (∀ z ∈ [(s 8 id, 8, region1 id), (s 8 (storing 8 none), 8, region1 (storing 8 none)),
        (s 8 (storing 8 (some (0, 3))), 8, region1 (storing 8 (some (0, 3)))), (s 4 (storing 4 (some (0, 3))), 4, region1 (storing 4 (some (0, 3)))),
        (s 4 (storing 8 none), 4, region1 (storing 8 none)), (s 4 full, 4, region1 full)],
      z.1.openRegion 0 0 = some (2, z.2.2) ∧ z.1.args = [0, 0, 0] ∧
        ((z.1.thread 0 0).inst.bind (·.req? 0)) = some (load40000 z.2.1) ∧ (load40000 z.2.1).kind.isLoad = true ∧
        (load40000 z.2.1).stage = .ready ∧ (load40000 z.2.1).due ≤ z.1.clk ∧ z.2.2.ser = false ∧
        ((z.1.thread 0 0).inst.map fun x => (x.squash, x.mayRead z.1.clk (load40000 z.2.1))) = some (none, true) ∧
        (z.1.thread 0 0).readsFirst (z.1.blockOf 0 0) 0 false (load40000 z.2.1).segs = false ∧
        z.1.mustWait (load40000 z.2.1).segs 0 (some 2) = false) ∧
      ((s 8 id).thread 0 0).forward (load40000 8).segs = .memory ∧ ((s 8 id).obtain 0 (load40000 8).segs false).2 = true ∧
      ((s 8 id).readBytes 0 true (load40000 8).segs).isSome = true ∧ (region1 id).stores = [] ∧
      (∃ e, (region1 (storing 8 none)).stores.filter (fun e => e.meets (load40000 8).segs) = [e] ∧ e.segs = (load40000 8).segs ∧ e.bytes = 8 ∧
        e.record = none) ∧
      (∃ e, (region1 (storing 8 none)).stores.filter (fun e => e.meets (load40000 4).segs) = [e] ∧ e.segs ≠ (load40000 4).segs) ∧
      (region1 full).inputs.length = 16 ∧ (region1 (storing 8 (some (0, 3)))).inputs[0]?.isSome = true := by
  intro s full
  refine ⟨?_, ?_, ?_, ?_, ?_, ?_, ?_, ?_, ?_⟩
  case refine_6 => exact ⟨_, rfl, rfl, rfl, rfl⟩
  case refine_7 => exact ⟨_, rfl, by decide⟩
  all_goals decide
/-- A token with a tag of the input. -/
def tagged : Token := { dword 12 with tag := some (0, 7) }
theorem witness_RegionTags :
    let s := regional [] [(0, tagged), (1, dword 9), (2, dword 1)] [] id id
    (s.curInst?.map fun x => (x.squash, x.region)) = some (none, some 2) ∧ s.has .a tagged ∧ s.has .b (dword 9) ∧ (dword 9).tag = none ∧
      Tbl.find? (s.core s.cur.core).regions 2 = some (region1 id) ∧ tagged.tag = some (0, 7) ∧ (region1 id).inputs[0]?.isSome = true ∧
      s.guardTrue = true ∧ (s.opTok .c).tag = none ∧ (⟨0, 7, .lt, true, 3, true, true⟩ : Constraint).rel = .lt := by
  repeat' apply And.intro
  all_goals decide
/-- Ends of a region: with a pinned input that changed, with a constraint that fails, with an explicit abort, and at a commit in it. -/
theorem witness_RegionEnds :
    let run : Core → Core := fun x => { x with commit := some ⟨0, 0x40, [], [7], some 0⟩ }
    let z (f : Region → Region) := committing [0] fun x => { (run x) with regions := [(2, region1 f)] }
    let stale (p : Bool) (r : Region) : Region := { r with inputs := [⟨0x10000, [⟨0x40000, 8, false⟩], 8, 5, true, p⟩] }
    let pinned := z (stale true)
    let broken := z fun r => { (stale false r) with constraints := [⟨0, 0, .lt, true, 3, true, false⟩] }
    let x (f : Inst → Inst) := regional [0, 0] [] [] id fun x => f { x with count := 1, fullAt := some 3, term := .goto 0x40 none }
    let aborting := x fun x => { x with regionCause := some ⟨3, 0, 6, 9⟩ }
    (∀ w ∈ [pinned, broken], w.args = [0] ∧ (w.core 0).commit = some ⟨0, 0x40, [], [7], some 0⟩ ∧ (w.core 0).roomAll = true ∧
        (w.openRegion 0 0).isSome = true) ∧
      (((pinned.openRegion 0 0).map fun e => e.2.inputs.any fun i => i.stale && i.pin && pinned.lockedRead i.segs != i.v) = some true) ∧
      (((broken.openRegion 0 0).map fun e => e.2.inputs.any fun i => i.stale && i.pin && broken.lockedRead i.segs != i.v) = some false) ∧
      (match exec .lineLockGranted pinned with | .next w => (w.thread 0 0).abortCause | _ => 0) = 1 ∧
      (match exec .lineLockGranted broken with | .next w => (w.thread 0 0).abortCause | _ => 0) = 2 ∧
      ((aborting.nextCommit 0).map fun e => (e.1, e.2.aborts)) = some (0, some ⟨3, 0, 6, 9⟩) ∧ (aborting.groupOf 0 0).isSaving = false ∧
      (((x id).nextCommit 0).map fun e => (e.1, e.2.aborts, e.2.term)) = some (0, none, .goto 0x40 none) ∧
      (((x id).thread 0 0).inst.bind ((x id).commitFault 0 0)) = none ∧
      (match exec .blockCommit aborting with | .next w => (w.thread 0 0).abortCode | _ => 0) = 9 := by
  intro run z stale pinned broken x aborting
  repeat' apply And.intro
  all_goals decide
/-- R342: a watched line in an L1, whose granule is reclassified. -/
theorem witness_Reclassify :
    let s : State := (regional [4] [] [] id id).modCore 0 fun x => { x with l1 := [2048] }
    let t := s.setGranule 4 2
    t.args = [4] ∧ t.granule 4 = 2 ∧ 2048 ∈ segLines [⟨0x40000, 8, false⟩] ∧ 2048 / 512 = 4 ∧ 2048 ∈ (t.core (t.l1Core 0 2048)).l1 ∧
      (match exec .granuleReclassify t with
        | .next w => (Tbl.find? (w.core 0).regions 2).map fun r => r.inputs.map (·.stale) | _ => none) = some [true] := by
  intro s t
  repeat' apply And.intro
  all_goals decide

/-- A task frame whose entry is aligned. -/
def frame0 : List Byte := natToBytes 64 0x40
/-- The heap above with a request at its head, its table at 0x10000. -/
def applying (op : HeapOp) (t : Tbl Task) : State :=
  { heaps t with
    args := [0]
    mem := pageTable
    grids := [(0, { Grid.reset with ctx := 2, heap := some { heapGrid with tbase := 0x10000 } })]
    mgmt := { Mgmt.reset with ctxs := [(2, ⟨true, 5, 0x2000, 0⟩)] }
    dies := [(0, { Die.reset with heap := { Heap.reset with grid := some 0, tasks := t, queue := [⟨0, 0, 0, op, 4, 20, .none, .none⟩] } })] }
/-- That heap's grid. -/
def hg0 : HeapGrid := { heapGrid with tbase := 0x10000 }

set_option maxRecDepth 100000 in
theorem witness_HeapOperations :
    let s := applying (.gain 0 7 0x3f800000) [(7, task0)]
    ((s.die 0).heap.opAt ≠ some s.clk) ∧ ((s.die 0).heap.nextReq s.clk).isSome = true ∧ (s.die 0).heap.grid = some 0 ∧
      (s.grid 0).heap = some hg0 ∧ (s.die 0).heap.stalled = false ∧ s.taskOf hg0 7 = some task0 ∧ s.taskOf hg0 8 = none ∧
      (match s.fetchTask 0 hg0 0 7 with | .ok _ t => decide (t = task0) | _ => false) = true ∧ gainOp 0 task0.g 0x7fc00000 = none ∧
      (gainOp 0 task0.g 0x3f800000).isSome = true ∧ task0.c ≠ 0 ∧ task0.valid = true ∧ s.popTask 0 = s ∧ frameOk frame0 = true ∧ validGain 0x3f800000 = true ∧ Heap.reset.nextIdx = ({ hg0 with cap := 0 } : HeapGrid).cap := by
  intro s
  repeat' apply And.intro
  all_goals first | decide +kernel | decide
set_option maxRecDepth 100000 in
/-- Whether the heap keeps an entry on-chip or writes it to its table, an update completes. -/
theorem witness_updateTask : ∃ w t', (applying (.dep 7) [(7, task0)]).updateTask 0 hg0 0 7 task0 { task0 with c := 0 } = .ok w t' ∧
    (w.die 0).heap.stalled = false := by
  unfold State.updateTask State.keepTask
  generalize Config.heapOnChip _ _ = b
  cases b
  · exact ⟨_, _, rfl, rfl⟩
  · exact ⟨_, _, rfl, rfl⟩
theorem witness_HeapReply :
    let p : HeapAns := ⟨0, 0, 0, 4, some 1, none, false, none, .none, .none⟩
    let s : State := { firing with args := [0, 0, 0], replies := [p] }
    (s.replies.find? fun q => q.core == 0 && q.slot == 0 && q.idx == 0 && decide (q.due ≤ s.clk)) = some p ∧ p.resid = false ∧
      p.fault = none := by decide
/-- A pending task of gain 1.0 that waits on nothing, with a carrier group of one free slot. -/
def popping (creating : Bool) : State :=
  let t : Task := { task0 with c := 0, frame := natToBytes 64 0x40, running := creating }
  { engine [0] (fun x => { x with threads := [], groups := [(1, { group0 with carrier := true, slots := [3] })] }) with
    grids := [(0, { Grid.reset with heap := some heapGrid, resident := [(0, 1)] })]
    dies := [(0, { Die.reset with heap := { Heap.reset with
      grid := some 0, tasks := [(7, t)], creating := if creating then [(0, 5, 3, 0, 7, 0x3f800000)] else [] } })] }

theorem witness_HeapTasks :
    let s := popping false
    let t := popping true
    (s.grid 0).heap = some heapGrid ∧ (s.die 0).heap.grid = some 0 ∧ (s.die 0).heap.stalled = false ∧ heapGrid.popping s.clk = true ∧
      (s.die 0).heap.popAt ≠ some s.clk ∧ (popChoice (s.poppable heapGrid 0)).map (·.1) = some 7 ∧ s.carrierFor 0 0 = some (0, 1, 3) ∧
      (match s.fetchTask 0 heapGrid (handleDie 7) (handleIdx 7) with | .ok _ t => t.pending | _ => false) = true ∧
      s.withinSpread heapGrid 0x3f800000 = true ∧ (t.die 0).heap.creating = [(0, 5, 3, 0, 7, 0x3f800000)] ∧ 5 ≤ t.clk ∧
      (t.die 0).heap.creating[0]? = some (0, 5, 3, 0, 7, 0x3f800000) ∧ (t.core 0).groupOfSlot 3 = some 1 ∧ (s.die 0).heap.opAt ≠ some s.clk ∧
      Tbl.find? (t.core 0).groups 1 ≠ none ∧ (s.taskOf heapGrid 7).isSome = true ∧ heapGrid.mask.getLsbD 0 = true := by
  intro s t
  repeat' apply And.intro
  all_goals decide
theorem witness_HeapSettling :
    let g (h : HeapGrid) : State := { popping false with grids := [(0, { Grid.reset with heap := some h })] }
    let due : HeapGrid := { heapGrid with incl := [(5, 1, 0)] }
    let eff : HeapGrid := { heapGrid with effects := [(5, false, 3)] }
    let low : HeapGrid := { heapGrid with incl := [(5, -8, 0)] }
    let stop : HeapGrid := { heapGrid with settled := some (1, false), stopped := true, dbase := 0x10000 }
    Tbl.find? (g due).grids 0 = some { Grid.reset with heap := some due } ∧ 5 ≤ (g due).clk ∧ heapGrid.settled = none ∧
      ¬ (heapGrid.resid + 1 < (heapGrid.tol.toNat : Int)) ∧ heapGrid.active ≠ 0 ∧ low.resid + -8 < (low.tol.toNat : Int) ∧
      eff.effects = [(5, false, 3)] ∧ stop.settled = some (1, false) ∧ heapGrid.stopped = false ∧
      (g heapGrid).mayDrain heapGrid = false ∧ ({ g stop with clk := 82 } : State).mayDrain stop = true ∧ (g stop).mayDrain stop = false ∧
      ({ due with effects := [(5, false, 3)] } : HeapGrid).incl = [(5, 1, 0)] ∧
      ({ stop with drained := some (0, 0) } : HeapGrid).drained ≠ none := by
  intro g due eff low stop
  repeat' apply And.intro
  all_goals decide

/-- A thread in the fault bin, with a trap. -/
def trap0 : Trap := ⟨.nullBranch, false, 0x10000, 0x10040, false, false, 0, 3, 0x10000, ⟨.none, 0x10000, 3, none⟩, false⟩
/-- A module with that thread; its grid's FAULTS gives causes to the device or not. -/
def trapped (args : List Nat) (faults : DWord) (f : Thread → Thread) : State :=
  { (binned args (fun t => f { t with place := .fault, trap := some trap0 }) id fun x => { x with bins := [] }) with
    grids := [(0, { Grid.reset with launch := { LaunchRec.reset with biv := 0x10000, faults := faults } })] }

set_option maxRecDepth 100000 in
theorem witness_TrapRecords :
    let s := trapped [0, 0] 0 id
    let d := trapped [0, 0] (BitVec.allOnes 64) id
    (s.thread 0 0).trap = some trap0 ∧ (s.thread 0 0).place = .fault ∧ trap0.recorded = false ∧ s.reported 0 0 = false ∧
      (match s.judgeUnit (s.rootOf 0 0) .store (s.recordAddr 0 0 trap0.nest) 32 with | .ok _ _ => true | _ => false) = true ∧
      (s.groupOf 0 0).isSaving = false ∧ s.mustWait [⟨0x10000, 32, false⟩] 0 none = false ∧ s.toDevice 0 0 trap0 = false ∧
      d.toDevice 0 0 trap0 = true ∧
      (match d.judgeUnit (d.rootOf 0 0) .store (d.recordAddr 0 0 trap0.nest) 32 with | .ok _ _ => true | _ => false) = true := by
  intro s d
  repeat' apply And.intro
  all_goals decide
theorem witness_TrapReturns :
    let s (u : Bool) (n : DWord) : State := { flying (done (.eret u 0x10000 n)) with args := [0, 0] }
    (s true 0x8000000000000000).nextCommit 0 = some (0, done (.eret true 0x10000 0x8000000000000000)) ∧
      (s true 0x10040).nextCommit 0 = some (0, done (.eret true 0x10000 0x10040)) ∧
      (s false 0).nextCommit 0 = some (0, done (.eret false 0x10000 0)) ∧ (s false 0).openRegion 0 0 = none ∧
      ((s false 0).groupOf 0 0).isSaving = false ∧ (s false 0).commitFault 0 0 (done (.eret false 0x10000 0)) = none ∧
      (s true 0x10040).commitFault 0 0 (done (.eret true 0x10000 0x10040)) = none ∧
      (s true 0x8000000000000000).commitFault 0 0 (done (.eret true 0x10000 0x8000000000000000)) = none := by
  intro s
  repeat' apply And.intro
  all_goals first | rfl | decide

/-- A report of a kind in the name of the thread in slot 0 of core 0. -/
def report0 (kind : Nat) : Report := ⟨kind, 3, 0, 0, 0, 0, [(0, 0)]⟩
/-- A module that has reported a thread's fault, or a halted group. -/
def reporting (kind : Nat) (tr : Trap) (h : Bool) : State :=
  let s := trapped [(report0 kind).name] 0 fun t => { t with trap := some tr }
  { (s.modGroup 0 0 fun g => { g with halted := h }) with reports := [report0 kind] }

set_option maxRecDepth 100000 in
theorem witness_DriverCommands :
    let tr : Trap := { trap0 with recorded := true }
    let s := reporting 0 tr false
    let h := reporting 2 tr true
    let z : State := { firing with args := [77] }
    z.takeReport 77 [0, 1, 4, 5] = none ∧ z.takeReport 77 [0, 1, 5] = none ∧ z.takeReport 77 [0, 1, 2, 4, 5] = none ∧
      z.takeReport 77 [2] = none ∧ s.takeReport (report0 0).name [0, 1, 4, 5] = some ({ s with reports := [] }, report0 0) ∧
      s.takeReport (report0 0).name [0, 1, 5] = some ({ s with reports := [] }, report0 0) ∧
      s.takeReport (report0 0).name [0, 1, 2, 4, 5] = some ({ s with reports := [] }, report0 0) ∧ (s.thread 0 0).save = none ∧
      (s.thread 0 0).trap = some tr ∧ tr.recorded = true ∧ tr.ret = false ∧ tr.def_ = false ∧ (s.groupOf 0 0).isSaving = false ∧
      ((reporting 0 { tr with ret := true } false).thread 0 0).trap = some { tr with ret := true } ∧
      h.takeReport (report0 2).name [2] = some ({ h with reports := [] }, report0 2) ∧
      Tbl.find? (h.core 0).groups (h.thread 0 0).group ≠ none ∧ (h.group 0 0).halted = true ∧ (s.group 0 0).halted = false ∧
      (s.group 0 0).slots = [0] ∧ (s.group 0 0).save ≠ .discarded := by
  intro tr s h z
  repeat' apply And.intro
  all_goals first | rfl | decide
theorem witness_TlbInvalidation :
    let e : TlbEntry := ⟨2, 16, 4, 0x1f3⟩
    let s : State := { (firing.modDie 0 fun x => { x with tlb := [e] }) with args := [2, 18, 1] }
    s.args = [2, 18, 1] ∧ e ∈ (s.die 0).tlb ∧ (e.asp = 2 ∧ e.base < 18 + 1 ∧ 18 < e.base + e.pages) ∧ s.mgmt.invPending = false ∧
      (s.modMgmt fun m => { m with invPending := true }).mgmt.invPending = true := by
  intro e s
  repeat' apply And.intro
  all_goals first | rfl | decide

/-- The thread of a save: its part, and whether it has halted. -/
def saved0 (halted scr : Bool) : SaveInfo := ⟨true, scr, false, 0xff, halted, .free, 0x10000, false, none, none, 0x10000, 0, none, false⟩
/-- A module whose group 0 stands in a stage of a save. -/
def saving (st : SaveStage) (f : Thread → Thread) : State :=
  { (binned [0, 0] f (fun g => { g with save := st, preemptLimit := 3, spSize := 64 }) id) with
    grids := [(0, { Grid.reset with launch := { LaunchRec.reset with biv := 0x10000 }, resident := [(0, 0)] })] }

set_option maxRecDepth 100000 in
theorem witness_Saves :
    let s := saving .chosen id
    let start : State → State := fun s => s.modGroup 0 0 fun x => { x with save := .saving s.clk, entered := false }
    let q : State := { saving .chosen (fun t => { t with idem := 0x10000, lastId := true }) with mem := (2, 3) :: (7, 0x18) :: pageTable }
    let w := saving (.saving 2) fun t => { t with save := some (saved0 true false) }
    let v := saving (.scratch 2) fun t => { t with save := some (saved0 true true) }
    let d := saving (.saving 2) fun t => { t with save := some (saved0 false false) }
    firing.args = [] ∧ (start s).mayDiscard 0 0 = false ∧ (start s).liveSlotsOf 0 0 = [0] ∧ (s.thread 0 0).place = .binned 0 ∧
      (s.thread 0 0).region = none ∧ (s.thread 0 0).reArmed = false ∧ s.isPiton (s.group 0 0).root (s.thread 0 0).next = true ∧
      (s.group 0 0).halted = false ∧ w.liveSlotsOf 0 0 = 0 :: [] ∧ (w.thread 0 0).save = some (saved0 true false) ∧
      w.allHalted 0 0 = true ∧ d.allHalted 0 0 = false ∧ v.allHalted 0 0 = true ∧ v.allAcked 0 0 = true ∧
      v.frameReported 0 0 = false ∧ v.frameAccess (v.group 0 0).root 0 0 .store = .ok ∧
      (d.group 0 0).saveClk < (d.group 0 0).preemptLimit.toNat % 2 ^ 32 ∧
      (((d.modGroup 0 0 fun g => { g with saveClk := 3 }).group 0 0).preemptLimit.toNat % 2 ^ 32 ≤ 3) ∧
      (∀ p ∈ [Place.barrier 0, .rope, .channel 3], let b := saving .chosen fun t => { t with place := p }
        (start b).mayDiscard 0 0 = false ∧ (start b).liveSlotsOf 0 0 = [0] ∧ (b.thread 0 0).place = p ∧ (b.thread 0 0).save = none) ∧
      (Tbl.find? v.grids 0).isSome = true ∧ (start q).mayDiscard 0 0 = true ∧
      (saving (.saving 2) id).mayDiscard 0 0 = false := by
  intro s start q w v d
  repeat' apply And.intro
  all_goals first | rfl | decide

/-- A module whose group is being restored from a record. -/
def restoring (disc begun : Bool) : State :=
  let s := saving .restoring id
  { s with grids := [(0, { s.grid 0 with saved := [(0, ⟨s.group 0 0, [(0, { (s.thread 0 0) with save := some (saved0 true false) })],
      [], [], [], none, 0, disc, 2, begun, 0⟩)] })] }

set_option maxRecDepth 100000 in
theorem witness_Restores :
    let s := restoring false false
    let b := restoring false true
    let d := restoring true false
    (s.group 0 0).save = .restoring ∧ (Tbl.find? (s.grid 0).saved 0).isSome = true ∧ s.frameReported 0 0 = false ∧
      s.frameAccess (s.group 0 0).root 0 0 .load = .ok ∧ (s.group 0 0).spSize ≠ 0 ∧
      (s.unitRead (s.group 0 0).root ((s.frameOf 0 0).1 + (s.frameOf 0 0).2) 64).isSome = true ∧ Memory.wf s.mem = true ∧
      b.imageSlots (b.group 0 0).root 0 0 0 0xff ≠ none ∧ (b.group 0 0).carrier = false ∧
      (b.core 0).roomFor ((List.range 64).filter fun j => (0xff : DWord).getLsbD j) = true ∧ (saved0 true false).mask = 0xff ∧
      s.args = [0, 0] ∧ b.frameReported 0 0 = false ∧
      ((d.liveSlotsOf 0 0).all fun sl => (d.thread 0 sl).pending == 0 && (d.thread 0 sl).buf.isEmpty && (d.thread 0 sl).unacked == 0) =
        true ∧ Memory.wf d.mem = true := by
  intro s b d
  repeat' apply And.intro
  all_goals decide
theorem witness_CoherenceEvents :
    let r : DirReq := ⟨5, 1, true, false, [], 0⟩
    let h (x : Die → Die) : State := { firing with args := [0], dies := [(0, x { Die.reset with dirQ := [r] })] }
    let p := h fun x => { x with dir := [(1, ⟨0, 4⟩)] }
    let o : State := { pending [0] (instReq { spLoad with segs := [⟨8, 4, false⟩] }) [] [] with dies := [(0, { Die.reset with granules := [(0, 13)] })] }
    let q : State := { firing with args := [1], dies := [(1, { Die.reset with probes := [(5, 0, true)] })] }
    ((h id).die 0).dirQ = [r] ∧ (h id).probeTargets 0 r = [] ∧ p.probeTargets 0 r = [2] ∧
      ((q.die 1).grants.contains 5 && q.accessWaits (fun c => dieOf c == 1) (· == 5)) = false ∧
      (q.die 1).probes = [(5, 0, true)] ∧ o.granuleOwner 0 = some 3 ∧ o.accessWaits (· != 3) (fun l => l / 512 == 0) = true ∧
      firing.granule 7 ≠ 2 ∧ (firing.setGranule 7 2).granule 7 = 2 ∧ q.lockedAt 1 (· == 5) = false ∧
      ({ q with locks := [(5, 256, 0)] } : State).lockedAt 1 (· == 5) = true ∧ (o.locks.any fun e => e.1 / 512 == 0) = false ∧
      (({ q with locks := [(5, 256, 0)] } : State).locks.any fun e => e.1 == 5) = true ∧
      Tbl.find? (({ firing with dies := [(8, { Die.reset with dir := [(5, ⟨0, 3⟩)] })] } : State).die (8 + 0)).dir 5 = some ⟨0, 3⟩ ∧
      (3 : BitVec 8).getLsbD 1 = true := by
  intro r h p o q
  repeat' apply And.intro
  all_goals first | rfl | decide

/-- A deferred load of some bytes whose answer has not come. -/
def late0 (gs : List Seg) : Deferred := ⟨0, 0, 3, false, 0x40000, 4, gs, .coherent, true, none, [], 0, false, 0, []⟩
/-- A load of a thread from peer device 3, whose answer is due. -/
def peerLoad : State := { asking { req .load 0x40000 with stage := .ready, segs := [⟨3 * 2 ^ 50 + 3 * 2 ^ 40 + 64, 4, false⟩] } with
    args := [0, 0, 0, 0]
    mgmt := { Mgmt.reset with peers := [(3, 2 ^ 127)] } }

set_option maxRecDepth 100000 in
theorem witness_AgentEvents :
    let f (args : List Nat) : State := { firing with args := args }
    let d : State := { f [1] with dies := [(1, { Die.reset with dead := true })] }
    let late : State := { f [1] with mgmt := { Mgmt.reset with gone := [9] } }
    let r : Req := { req .load 0x40000 with stage := .ready, segs := [⟨3 * 2 ^ 50 + 3 * 2 ^ 40 + 64, 4, false⟩] }
    ((f [1, 2]).die 1).rerouted.contains 2 = false ∧ ((f [1, 2]).die 1).rerouted.contains 8 = false ∧ ((f [1, 8]).die 1).rerouted.contains 9 = false ∧
      ((({ f [1, 8] with dies := [(1, { Die.reset with rerouted := [9] })] } : State)).die 1).rerouted.contains (17 - 8) = true ∧ ((f [1]).die 1).dead = false ∧
      late.mgmt.gone ≠ [] ∧ (d.die 1).dead = true ∧ d.mgmt.absent.contains 1 = false ∧ (peerLoad.thread 0 0).inst = some (instReq r) ∧
      (instReq r).req? 0 = some r ∧ r.kind.isLoad = true ∧ r.kind ≠ .record ∧ r.stage = .ready ∧
      ((pending [0, 0, 2, 0] (inst0 []) [] [late0 r.segs]).thread 0 0).deferred[0]? = some (late0 r.segs) ∧ (late0 r.segs).returned = none ∧
      ((segLocs r.segs).find? fun l => !isSp l && match paKind peerLoad l with | .peer _ => true | _ => false) = some (3 * 2 ^ 50 + 3 * 2 ^ 40 + 64) ∧
      firing.mgmt.standby = false ∧ firing.mgmt.gone.contains 10 = false ∧
      ({ firing with mgmt := { Mgmt.reset with standby := true } } : State).mgmt.standby = true ∧
      State.reset.mgmt.ready = false ∧ State.reset.mgmt.down = false ∧ State.reset.mgmt.standby = false ∧ (6 : Nat).testBit 8 = false ∧
      (6 : Nat).testBit 1 = true := by
  intro f d late r
  repeat' apply And.intro
  all_goals first | rfl | decide
theorem witness_ObservationEvents :
    let rec0 : TraceRec := ⟨7, 3, 1, 2, 3, 4, 5, none⟩
    let s : State := { (flying (inst0 ops)).modDie 0 fun x => { x with trace := { x.trace with en := true, queue := [rec0] } } with args := [0] }
    let m : State := { flying (inst0 ops) with
      args := [0]
      cores := [(0, { core0 [0] { Thread.reset with place := .inFlight, inst := some (inst0 ops) } with
        sampler := { Sampler.reset with period := 5 } })]
      dies := [(0, { Die.reset with trace := { Trace.reset with en := true, mask := 127 } })] }
    let u : State := { State.reset with args := [0], clk := 1000 }
    let hot : State := { State.reset with args := [0, 1440], dies := [(0, { Die.reset with hot := true })] }
    (s.die 0).trace.queue = rec0 :: [] ∧ s.traceRoom 0 ((s.die 0).trace.place (s.die 0).trace.widx) = true ∧ (s.die 0).trace.gap = 0 ∧
      (s.die 0).trace.full = false ∧ (∀ e ∈ s.cores, e.2.sampler.held = []) ∧ firing.sampleDue 0 = false ∧ m.sampleDue 0 = true ∧
      (m.core 0).sampledSlot = some 0 ∧ (m.die (dieOf 0)).trace.takes 8 = true ∧ (m.core 0).sampler.held.length < 4 ∧
      firing.clk < (firing.die 0).energyAt + 1000 ∧ (u.die 0).energyAt + 1000 ≤ u.clk ∧ firing.dieIdle 0 = false ∧ u.dieIdle 0 = true ∧
      (u.die 0).hot = false ∧ (hot.die 0).hot = true ∧ (∀ e ∈ u.grids, e.2.resident = []) := by
  intro rec0 s m u hot
  repeat' apply And.intro
  all_goals first | rfl | decide
theorem witness_HostWrites :
    let s (a : Attest) : State := { State.reset with mgmt := { Mgmt.reset with attest := a } }
    (mregOf 3 7).isSome = true ∧ (mregOf 2 7).isSome = true ∧ (mregOf 1 7).isSome = true ∧
      (s ⟨5, 9, true, false⟩).mgmt.attest.hasBlock = true ∧ (s ⟨5, 9, true, false⟩).mgmt.attest.used < 1024 ∧
      (s ⟨5, 1024, true, false⟩).mgmt.attest.qblk = 5 ∧ (s ⟨0, 0, false, false⟩).mgmt.attest.qblk = 0 := by decide

/-! Further witnesses: the clauses of the wider statements -/

/-- A thread whose deferred loads are of its running instance: one whose data has not come, and two that failed. -/
def lateLoads (failed : Bool) : List Deferred :=
  let d : Deferred := ⟨0, 0, 3, false, 0x40000, 4, [⟨0x40000, 4, false⟩], .coherent, false, none, [], 0, false, 0, []⟩
  d :: if failed then [{ d with slot := 4, returned := some none }] else []

theorem witness_CommitsLate :
    let x := done (.goto 0x40 none)
    let s (b : Bool) := pending [0, 0] x [] (lateLoads b)
    let t : State := pending [0, 0] (done (.trap .brk 7)) [] []
    let h : State := pending [0, 0] { done (.hdone none) with faults := [⟨.nullBranch, 0, 0, 0⟩] } [] []
    (∀ b ∈ [true, false], (s b).nextCommit 0 = some (0, x) ∧ (s b).commitFault 0 0 x = none ∧ (s b).openRegion 0 0 = none ∧
        ((s b).thread 0 0).failMask = 0) ∧
      (((s false).thread 0 0).deferred.filter fun d => !d.committed && d.returned == some none) = [] ∧
      ((((s true).thread 0 0).deferred.filter fun d => !d.committed && d.returned == some none).map fun d => (d.slot, slotMask d.slots != 0)) =
        [(4, true)] ∧
      (((s true).thread 0 0).deferred.filter fun d => !d.committed && d.returned.isNone).length = 1 ∧
      t.nextCommit 0 = some (0, done (.trap .brk 7)) ∧ t.commitFault 0 0 (done (.trap .brk 7)) = some (⟨.brk, 0, 0, 7⟩, true) ∧
      ((h.nextCommit 0).map (·.1)) = some 0 ∧ (h.groupOf 0 0).isSaving = false ∧ (h.groupOf 0 0).halted = false := by
  intro x s t h
  repeat' apply And.intro
  all_goals decide
/-- A squashed instance of a group that was discarded, and is saved. -/
theorem witness_SquashedDiscarded :
    let x : Inst := { done .undecided with squash := some ⟨.permission, 0, 8, 9⟩ }
    let s : State := { pending [0, 0] x [] [] with
      grids := [(0, { Grid.reset with saved := [(0, ⟨Group.reset, [], [], [], [], none, 0, true, 2, false, 0⟩)] })] }
    (s.thread 0 0).inst = some x ∧ ((s.savedOf (s.groupOf 0 0).grid (s.groupOf 0 0).lin).map (·.discarded)) = some true ∧
      s.openRegion 0 0 = none ∧ (s.groupOf 0 0).isSaving = false ∧ x.n ≤ x.count ∧ x.reqs = [] ∧
      (pending [0, 0] x [] []).savedOf 0 0 = none := by
  intro x s
  repeat' apply And.intro
  all_goals decide
set_option maxRecDepth 100000 in
theorem witness_QueueChecks :
    let s (v b : Nat) : State := { queues true record0 with mem := [(0x100, 0x31), (0x101, 0x4b), (0x102, 0x44), (0x103, 0x4a), (0x104, 0xf8),
      (0x105, 0x1b)] ++ (if v = 0 then [] else [(0x107, BitVec.ofNat 8 v)]) ++ (if b = 0 then [] else [(0x130, BitVec.ofNat 8 b)]) ++ pageTable }
    let g : Seg := ⟨0x40, 8, false⟩
    ((s 0 0).unitRead 0x2000 0x10100 64).map (fun i => decide (fieldAt i 6 2 < 2 ^ 7) && (i.drop 36).all (· == 0)) = some true ∧
      ((s 128 0).unitRead 0x2000 0x10100 64).map (fun i => decide (2 ^ 7 ≤ fieldAt i 6 2)) = some true ∧
      ((s 0 1).unitRead 0x2000 0x10100 64).map (fun i => (i.drop 36).any (· != 0)) = some true ∧
      ((s 0 0).earlyReject ((s 0 0).ctxEntry 2) record0) = none ∧
      ({ State.reset with mgmt := { Mgmt.reset with standby := true } } : State).mgmt.standby = true ∧ State.reset.mgmt.standby = false ∧
      (0x10040 : DWord).toNat % 8 = 0 ∧ (match (s 0 0).judgeUnit 0x2000 (.atomic false) 0x10040 8 with
        | .ok gs _ => decide (gs = [g]) | _ => false) = true ∧ (s 0 0).atomicPoisoned [g] = false ∧ g.len = 8 ∧ g.nc = false ∧
      Memory.wf (s 0 0).mem = true := by
  intro s g
  repeat' apply And.intro
  all_goals decide
/-- The two cases of R400: a lower priority, and a slice of a context that has run out. -/
theorem witness_MayPreempt : crowded.mayPreempt ropeUnit (some 1) (crowded.group 0 0) = true ∧
    crowded.mayPreempt { ropeUnit with prio := 3 } none (crowded.group 0 0) = true ∧
    ({ State.reset with args := [0], clk := 1, dies := [(0, { Die.reset with modeDue := some 2 })] } : State).clk < 2 := by
  repeat' apply And.intro
  all_goals decide
/-- A block is held while a line of its words is locked, and rejected where a word fails its check. -/
theorem witness_ConfigHeld :
    let o (lock : Bool) (code : Bool) : State := { binned [0] id id (fun x => { x with
        fetch := some fetch0, contexts := [(1, { Context.reset with state := .configuring, bin := some 0 })] }) with
      mem := if code then codeAt false else pageTable
      locks := if lock then [(0, 7, 0)] else [] }
    let f (s : State) := s.fetchWords 0 fetch0.need fetch0
    (o true true).lineHeld (f (o true true)).places 0 none = true ∧ (o false true).lineHeld (f (o false true)).places 0 none = false ∧
      (match (f (o true true)).result with | .block _ _ => true | _ => false) = true ∧
      (match (f (o false false)).result with | .reject .encoding 0 _ _ => true | _ => false) = true ∧
      (o false false).lineHeld (f (o false false)).places 0 none = false ∧ (((o false false).core 0).bin 0).vec = [0] ∧
      ((o false false).core 0).fifo = [] ∧ ((o false false).thread 0 0).place = .binned 0 ∧ ((o false false).thread 0 0).save = none ∧
      ((o false false).thread 0 0).region = none ∧ ({ fetch0 with due := 9 } : Fetch).due > (o true true).clk := by
  intro o f
  repeat' apply And.intro
  all_goals decide
/-- The word of an instruction. -/
def wordOf (i : Instr) : Nat := (encodeNat i).getD 0
/-- The check of a block of some instructions. -/
def checkOf (is : List Instr) : Option CheckFail := checkBlock (2 ^ 26 * (is.length - 1)) (is.map wordOf)
/-- R76: a block for every check that a clause names. -/
theorem witness_BlockChecks :
    let add : Instr := .add ⟨.i32, false, false, false⟩ .none (.live 4)
    let loop : Instr := .mov false .none (.port .a 0)
    let four : Instr := .const 5 (.live 4)
    1 % 16 ≠ 0 ∧ checkBlock 1 [] = some (1, 0) ∧ checkWord false false 1 0 0xff000000 = some 3 ∧
      checkOf [.exit] = none ∧ checkOf [.const 5 (.port .a 1), .exit] = some (11, 1) ∧ checkOf [add, .exit] = some (13, 1) ∧
      checkOf [loop, .exit] = some (14, 1) ∧ checkOf [.exit, four] = some (16, 1) ∧ checkOf [four] = some (16, 1) ∧
      (∀ is ∈ [[.exit], [.const 5 (.port .a 1), .exit], [add, .exit], [loop, .exit], [.exit, four], [four]],
        ∀ w ∈ is.map wordOf, checkWord false false is.length 0 w = none) ∧
      badPort [.const 5 (.port .a 1), .exit] (.const 5 (.port .a 1)) = true ∧
      missingPort (([add, Instr.exit].map portKeys).flatten) 0 add = true ∧ cycleIdx ([loop, .exit].map (fOp <| wordOf ·)) [loop, .exit] = some 0 ∧
      opIsTerminator (fOp (wordOf .exit)) = true ∧ opIsTerminator (fOp (wordOf four)) = false ∧
      fOp 0x03000000 = 3 ∧ 0 ≤ fMod 0x03000000 ∧ fOp 0x04000000 = 4 ∧ 0 ≤ fMod 0x04000000 + 1 ∧ fOp 0xff000000 = 0xff ∧
      (match decodeNat (wordOf loop) with | .ok i => decide (i = loop) | _ => false) = true ∧ (targetsOf loop).2 = .port .a 0 ∧ checkWord false false 0 0 (wordOf loop) = some 9 ∧
      opForbidden false true (fOp (wordOf .hdone)) = true := by
  intro add loop four
  repeat' apply And.intro
  all_goals decide
/-- R351: a thread that resumes at the entry of its region, in a block that is not marked AR. -/
theorem witness_Reentry :
    let s := entering (fun t => { t with reenter := some (0x10000, 0), reArmed := true }) true
    s.keptOut 0 = none ∧ s.admitChoice 0 = some (1, 0) ∧ (s.thread 0 0).reenters ((s.core 0).context 1).block = true ∧
      hdrAR ((s.core 0).context 1).block.hdr = false ∧ s.admissionHeld 0 0 ((s.core 0).context 1).block = false ∧
      (s.core 0).freeRegion?.isSome = true ∧ ((entering id true).thread 0 0).reenters ((s.core 0).context 1).block = false ∧
      (s.thread 0 0).failMask = 0 ∧ s.openRegion 0 0 = none ∧ (s.thread 0 0).region = none := by
  intro s
  repeat' apply And.intro
  all_goals decide
theorem witness_GridEnds :
    let s := binned [0, 0] (fun t => { t with arrived := [0] }) (fun g => { g with bars := [(3, { Barrier.fresh 1 with brk := some .timeout })] }) id
    Tbl.find? (s.core 0).groups (s.thread 0 0).group = some (s.group 0 0) ∧ (s.thread 0 0).arrived.contains 0 = true ∧
      (s.thread 0 0).arrived.contains 1 = false ∧ ((s.group 0 0).bar 3).brk ≠ none ∧ ((s.group 0 0).bar 1).brk = none ∧
      (s.group 0 0).carrier = false ∧ 0 ∈ (s.group 0 0).slots ∧ Tbl.find? s.grids 0 = some Grid.reset ∧ Grid.reset.launch.done = 0 ∧
      (∀ e ∈ (s.core 0).groups, e.2.grid = 0) ∧ s.cores.map (·.1) = [0] ∧ (s.core 0).groups.map (fun e => (e.1, e.2.grid)) = [(0, 0)] ∧
      (∀ e ∈ s.cores, ∀ g ∈ e.2.groups, g.2.grid ≠ 1) := by
  intro s
  repeat' apply And.intro
  all_goals decide
theorem witness_TemporalCaptures :
    let seg : Seg := ⟨spLoc 0 0, 64, false⟩
    let s := temporal (.tcap [seg]) (some 1) 0 [0]
    let a : AtomicReq := ⟨0, 256, 0, 0, 0, .add, 4, [⟨spLoc 0 8, 4, false⟩], .coherent, 0, 3, true, 0, 0, false, none⟩
    let t : State := { s with clk := 300, dies := [(0, { Die.reset with tiles := [a] })] }
    ({ s with clk := 300 } : State).atomicFirst [seg] = false ∧ t.atomicFirst [seg] = true ∧ Memory.wf s.mem = true ∧
      ((s.core 0).temp.queue.map fun q => q.units.length) = [0] ∧
      1 + (t.core 0).temp.lasts 0 (.tcap [seg]) ≤ t.clk := by
  intro seg s a t
  repeat' apply And.intro
  all_goals decide
theorem witness_TemporalColumns :
    let t : Temporal := { Temporal.reset with mode := 1 }
    t.mode.getLsbD 0 = true ∧ t.mode.getLsbD 1 = false ∧ ((t.column 1).isSome ∨ t.column 1 = none) ∧
      ∃ u : Temporal, (u.column 3).isSome = true ∧ u.mode.getLsbD 3 = false := by
  refine ⟨by decide, by decide, by cases Temporal.column _ 1 <;> simp, (Temporal.reset.setInput 0 5).setDelay 0 3 7, by decide, by decide⟩
set_option maxRecDepth 100000 in
theorem witness_HeapEntries :
    let s := applying (.gain 0 7 0x3f800000) [(7, task0)]
    let sp := applying (.spawn frame0 0x3f800000 1) [(7, task0)]
    let busy : State := s.modDie 0 fun y => { y with heap := { y.heap with opAt := some s.clk } }
    let stalled : State := s.modDie 0 fun y => { y with heap := { y.heap with stalled := true } }
    s.popAll = s ∧ sp.popAll = sp ∧ busy.popAll = busy ∧ stalled.popAll = stalled ∧ s.entryHeld 0 hg0 0 7 = false ∧
      sp.entryHeld 0 hg0 0 (sp.die 0).heap.nextIdx = false ∧ (busy.die 0).heap.opAt = some busy.clk ∧ (stalled.die 0).heap.stalled = true ∧
      (popping true).entryHeld 0 heapGrid 0 7 = false ∧ ((popping true).core 0).roomFor (List.range 16) = true := by
  intro s sp busy stalled
  refine ⟨by decide +kernel, by decide +kernel, by decide +kernel, by decide +kernel, ?_, ?_, by decide, by decide, ?_, by decide⟩
  all_goals
    unfold State.entryHeld
    generalize Config.heapOnChip _ _ = b
    cases b <;> decide
set_option maxRecDepth 100000 in
theorem witness_SavesWider :
    let start : State → State := fun s => s.modGroup 0 0 fun x => { x with save := .saving s.clk, entered := false, saveClk := 0 }
    let p := saving .chosen fun t => { t with pending := 1 }
    let a := saving .chosen fun t => { t with place := .barrier 0, reArmed := true }
    let q (f : Thread → Thread) : State := { saving .chosen (fun t => f { t with idem := 0x10000, lastId := true }) with
      mem := (2, 3) :: (7, 0x18) :: pageTable }
    let r := q fun t => { t with place := .inFlight, inst := some { oneWordInst 0 5 with blk := 0x10000 } }
    let l := saving .discarded fun t => { t with pending := 1 }
    (start p).mayDiscard 0 0 = false ∧ (p.thread 0 0).pending ≠ 0 ∧ (p.thread 0 0).place = .binned 0 ∧ (start p).liveSlotsOf 0 0 = [0] ∧
      (p.thread 0 0).group = 0 ∧ (start a).mayDiscard 0 0 = false ∧ (a.thread 0 0).reArmed = true ∧ (start a).liveSlotsOf 0 0 = [0] ∧
      (a.thread 0 0).place = .barrier 0 ∧ (a.thread 0 0).save = none ∧ (a.thread 0 0).region = none ∧
      (l.group 0 0).save = .discarded ∧ (∃ sl ∈ (l.group 0 0).slots, (l.thread 0 sl).pending ≠ 0) ∧ (l.group 0 0).halted = false ∧
      ((start (q id)).mayDiscard 0 0 = true ∧ ((q id).thread 0 0).inst = none ∧ ((q id).core 0).fifo = []) ∧
      (r.thread 0 0).inst ≠ none := by
  intro start p a q r l
  repeat' apply And.intro
  all_goals decide
set_option maxRecDepth 100000 in
theorem witness_RestoresWider :
    let b := restoring false true
    let full : State := b.modCore 0 fun x => { x with lvq := [(3, List.replicate 64 (0, 3))] }
    let bad : State := { restoring false false with poison := [0] }
    let ended : State := b.modGrid 0 fun g => { g with saved := Tbl.mapVals (fun _ v => { v with threads := [] }) g.saved }
    let d : State := (restoring true false).modThread 0 0 fun t => { t with place := .saved }
    let rep : State := { restoring false false with reports := [{ report0 1 with joined := [(savedKey 0 0, 2 ^ 64)] }] }
    (b.core 0).roomAll = true ∧ (full.core 0).roomAll = false ∧ ((ended.grid 0).saved.map fun e => (e.1, e.2.threads, e.2.begun)) = [(0, [], true)] ∧
      ((d.liveSlotsOf 0 0).all fun sl => (d.thread 0 sl).place == .saved && (d.thread 0 sl).pending == 0 && (d.thread 0 sl).buf.isEmpty &&
        (d.thread 0 sl).unacked == 0) = true ∧
      (((restoring true false).liveSlotsOf 0 0).all fun sl => ((restoring true false).thread 0 sl).place == .saved) = false ∧
      Memory.wf d.mem = true ∧ (Tbl.find? (b.grid 0).saved 0).isSome = true ∧
      ((Tbl.find? ((restoring false false).grid 0).saved 0).map fun v => (restoring false false).recordBad ((restoring false false).group 0 0) v) = some false ∧
      ((Tbl.find? (bad.grid 0).saved 0).map fun v => bad.recordBad (bad.group 0 0) v) = some true ∧ rep.frameReported 0 0 = true ∧
      bad.frameReported 0 0 = false ∧ bad.frameAccess (bad.group 0 0).root 0 0 .load = .ok := by
  intro b full bad ended d rep
  repeat' apply And.intro
  all_goals decide
set_option maxRecDepth 100000 in
/-- R433, R436, R446: messages of the incarnation that is accepted now, and of another. -/
theorem witness_Messages :
    let r : DirReq := ⟨5, 1, true, false, [], 0⟩
    let o : State := { firing with dies := [(0, { Die.reset with dirQ := [r], granules := [(0, 13)], wanted := [0] })] }
    let f (n : Nat) : State := { firing with args := [1, 2, n] }
    let g : State := { f 0 with dies := [(2, { Die.reset with dead := true })] }
    r.inc = Tbl.get 0 o.incarnations r.from_ ∧ o.granuleOwner 0 = some 3 ∧ classHome o 0 = some 0 ∧ (o.die 0).wanted.contains 0 = true ∧
      (o.locks.any fun e => e.1 / 512 == 0) = false ∧ g.agentGone 2 = true ∧ (f 0).agentGone 2 = false ∧
      BitVec.ofNat 16 0 = Tbl.get 0 (f 0).incarnations 2 ∧ BitVec.ofNat 16 5 ≠ Tbl.get 0 (f 5).incarnations 2 := by
  intro r o f g
  repeat' apply And.intro
  all_goals decide
/-- R439: links that fail, and that do not. -/
theorem witness_LinkFailures :
    let f (n : Nat) : State := { firing with args := [1, 2, n] }
    let w : State := (f 0).modDie 1 fun x => { x with retries := [(2, 8), (8, 8)] }
    let t : State := { w with mgmt := { Mgmt.reset with small := true } }
    t.fitted = 4 ∧ w.fitted = 8 ∧ t.fitted ≤ 5 ∧ 8 ≤ Tbl.get 0 (w.die 1).retries 2 ∧ Tbl.get 0 ((f 0).die 1).retries 2 < 8 ∧
      (w.die 1).rerouted.contains 2 = false ∧ (w.die 1).rerouted.contains 8 = false ∧ w.mgmt.gone.contains 10 = false ∧
      8 ≤ Tbl.get 0 (w.die 1).retries 8 := by
  intro f w t
  repeat' apply And.intro
  all_goals decide
set_option maxRecDepth 100000 in
/-- R445: a request to a peer, before and after its limit. -/
theorem witness_PeerLimits :
    let p (n : Nat) : State := { peerLoad with clk := n }
    let limit := 1000 * max 1 ((Tbl.get 0 peerLoad.mgmt.peers 3).toNat / 2 ^ 104 % 2 ^ 16)
    limit = 1000 ∧ (p 5).clk < 0 + limit ∧ 0 + limit ≤ (p 1000).clk ∧ (∀ e ∈ peerLoad.dies, e.2.tiles = []) ∧
      ((segLocs (late0 [⟨3 * 2 ^ 50 + 3 * 2 ^ 40 + 64, 4, false⟩]).segs).find? fun l => !isSp l &&
        match paKind peerLoad l with | .peer _ => true | _ => false) = some (3 * 2 ^ 50 + 3 * 2 ^ 40 + 64) := by
  intro p limit
  repeat' apply And.intro
  all_goals decide
theorem witness_Trace :
    let rec0 : TraceRec := ⟨7, 3, 1, 2, 3, 4, 5, none⟩
    let s (en : Bool) : State := { (flying (inst0 ops)).modDie 0 fun x => { x with trace := { x.trace with en := en, queue := [rec0] } } with args := [0] }
    let y : State := { State.reset with mgmt := { Mgmt.reset with standby := true } }
    let m (e : Bool) : State := { State.reset with mgmt := { Mgmt.reset with attest := ⟨0, 0, false, e⟩ } }
    ((s false).die 0).trace.en = false ∧ ((s true).die 0).trace.en = true ∧ ((s true).die 0).trace.full = false ∧ ((s true).die 0).trace.gap = 0 ∧
      (s true).traceRoom 0 (((s true).die 0).trace.place ((s true).die 0).trace.widx) = true ∧ y.mgmt.standby = true ∧
      State.reset.mgmt.standby = false ∧ (∀ e ∈ State.reset.grids, e.2.resident = []) ∧ (m false).mgmt.attest.hasBlock = false ∧
      (m false).mgmt.attest.qblk = 0 := by
  intro rec0 s y m
  repeat' apply And.intro
  all_goals decide

/-! Statements about every instruction, every step -/

theorem witness_EncodeThenDecode : (Instr.brk 5).wf = true ∧ (Instr.brk 5).isStep = false := by decide
theorem witness_DecodeThenEncode : decode 0xf1000a00 = .ok (.brk 5) := by rfl
/-- A module that fires instruction 0 of its instance next, and one that performs a machine step next. -/
def firesNext (w : Word) : State :=
  { at5 (core0 [w] { Thread.reset with place := .inFlight, inst := some (inst0 ops) }) with urgent := [.fire 0 0 0] }
theorem witness_StepRunsDecoded :
    let s := firesNext 0x20018884
    let r : State := { s with urgent := [] }
    let n : State := { firing with cores := [(0, core0 [0x20018884] Thread.reset)], urgent := [.fire 0 0 0] }
    let m : State := { State.reset with urgent := [.event .energyUpdate [0]] }
    s.mgmt.down = false ∧ ({ s with mgmt := { Mgmt.reset with down := true } } : State).mgmt.down = true ∧ r.ready 0 0 0 = true ∧
      (r.thread 0 0).inst = some (inst0 ops) ∧ ((r.core 0).context (inst0 ops).ctx).block.words[0]? = some 0x20018884 ∧
      (match decode 0x20018884 with | .ok (.add _ _ _) => true | _ => false) = true ∧
      ({ n with urgent := [] } : State).ready 0 0 0 = false ∧
      m.urgent = .event .energyUpdate [0] :: [] ∧ Instr.energyUpdate.isStep = true := by
  intro s r n m
  repeat' apply And.intro
  all_goals first | rfl | decide
theorem witness_StepsKeepMemoryForm :
    (firesNext 0x20018884).Safe ∧ (match step (firesNext 0x20018884) with | .next _ => true | _ => false) = true := by
  refine ⟨rfl, ?_⟩
  decide

/-! Ill-formed instructions, which the check refuses -/

theorem test_wf_target : (Instr.sink false).wf = true ∧ (Instr.const 1 (.pairLive 3)).wf = false ∧ (Instr.const 1 (.pairLive 4)).wf = true := by decide
theorem test_wf_slots : (Instr.readD 3 .none out).wf = false ∧ (Instr.readD 4 .none out).wf = true ∧ (Instr.id 11 .none out).wf = false ∧
    (Instr.id 10 .none out).wf = true ∧ (Instr.sysrd 25 .none out).wf = false ∧ (Instr.syswr 24 .none).wf = true := by decide
theorem test_wf_integer_mod : (Instr.mul ⟨.i32, false, true, false⟩ .none out).wf = false ∧
    (Instr.and ⟨.i32, true, false, false⟩ .none out).wf = false ∧ (Instr.setpEq ⟨.i16x4, false, false, false⟩ .none out).wf = false ∧
    (Instr.abs ⟨.n32, false, false, false⟩ .none out).wf = false ∧ (Instr.lea ⟨.i32, 5⟩ .none out).wf = false ∧
    (Instr.lea ⟨.i16x4, 0⟩ .none out).wf = false ∧ (Instr.add ⟨.i32, true, true, true⟩ .none out).wf = true := by decide
theorem test_wf_float_mod : (Instr.fdiv ⟨.f16x2, false, false, false⟩ .none out).wf = false ∧
    (Instr.frcp ⟨.f64, false, false, false⟩ .none out).wf = false ∧ (Instr.fdot2 ⟨.f32, false, false, false⟩ .none out).wf = false ∧
    (Instr.fmin ⟨.f32, false, true, false⟩ .none out).wf = false ∧ (Instr.fadd ⟨.f64, true, true, true⟩ .none out).wf = true := by decide
theorem test_wf_conversion_mod : (Instr.cvtI32 ⟨.n32, .rtz⟩ .none out).wf = false ∧ (Instr.cvtPk ⟨.f32, .rne⟩ .none out).wf = false ∧
    (Instr.cvtCh ⟨.e4m3, .rne⟩ .none out).wf = false ∧ (Instr.cvtF32 ⟨.i32, .rtz⟩ .none out).wf = true := by decide
theorem test_wf_sizes : (Instr.ldd .b128 .none out).wf = false ∧ (Instr.aadd .b16 .none out).wf = false ∧
    (Instr.acas .b8 .none out).wf = false ∧ (Instr.afadd2 .b64 .none out).wf = false ∧ (Instr.acas .b128 .none out).wf = true := by decide
theorem test_wf_barriers : (Instr.barArrive .rope .none).wf = false ∧ (Instr.barInit .rope .none out).wf = true ∧
    (Instr.stgWait 2 0).wf = false := by decide

/-! Words written out from the encodings of the spec -/

/-- R97, R60: `add.i32 -> i4.a, l4` is opcode 0x20, T1 0x0c4, T0 0x084; `mov` and `pick` of chapter 5. -/
theorem test_decode_plumbing : decode 0x20018884 = .ok (.add ⟨.i32, false, false, false⟩ (.live 4) (.port .a 4)) ∧
    decode 0x0a0000c2 = .ok (.pick false .none (.live 2)) ∧ decode 0x06010ac3 = .ok (.mov false (.port .a 5) (.live 3)) ∧
    decode 0x02000082 = .ok (.readD 0 .none (.port .a 2)) ∧ decode 0x03000102 = .ok (.lit 0 .none (.port .b 2)) ∧
    decode 0x0f018502 = .ok (.id 0 (.live 2) (.port .b 2)) := by refine ⟨?_, ?_, ?_, ?_, ?_, ?_⟩ <;> rfl
/-- R74: `br` forward by 10 words, and `callx`, always 0x1600_0000. -/
theorem test_decode_control : decode 0x1000000a = .ok (.br 10) ∧ decode 0x16000000 = .ok .callx := ⟨rfl, rfl⟩
/-- R166: `shri 3 -> i2.a` and `addi -1 -> i6.a`; R164: `setp.lt.i32 -> i5.a`. -/
theorem test_decode_integer : decode 0x4c000682 = .ok (.shri 3 (.port .a 2)) ∧ decode 0x22fffe86 = .ok (.addi (-1) (.port .a 6)) ∧
    decode 0x42000085 = .ok (.setpLt ⟨.i32, false, false, false⟩ .none (.port .a 5)) := ⟨rfl, rfl, rfl⟩
/-- R71, R193, R198: TYPE 001 is f64 (0x0020_0000), FTZI bit 20, FTZO bit 19, NEGB bit 18; the rounding of `fround` is [19:18]. -/
theorem test_decode_float : decode 0x50200083 = .ok (.fadd ⟨.f64, false, false, false⟩ .none (.port .a 3)) ∧
    decode 0x50100083 = .ok (.fadd ⟨.f32, true, false, false⟩ .none (.port .a 3)) ∧
    decode 0x50080083 = .ok (.fadd ⟨.f32, false, true, false⟩ .none (.port .a 3)) ∧
    decode 0x50040083 = .ok (.fadd ⟨.f32, false, false, true⟩ .none (.port .a 3)) := ⟨rfl, rfl, rfl, rfl⟩
/-- R240, R268: `ld.b32 -> l4` and `ainc.b32 -> l6`. -/
theorem test_decode_memory : decode 0x804000c4 = .ok (.ld .b32 .none (.live 4)) ∧ decode 0xb24000c6 = .ok (.ainc .b32 .none (.live 6)) :=
  ⟨rfl, rfl⟩
/-- R282, R281: NUM of `bar.arrive 5` and K of `bar.arrive stg 1`; `waitp 3` names channel 3 in [23:20]. -/
theorem test_decode_barriers : decode 0xc1140000 = .ok (.barArrive (.named 5) .none) ∧ decode 0xc1440000 = .ok (.barArrive (.stage 1) .none) ∧
    decode 0xc3fc0083 = .error .badMod ∧ decode 0xc6300005 = .ok (.waitp 3 5) := by refine ⟨?_, ?_, ?_, ?_⟩ <;> rfl
/-- R331, R352: `tval -> l6, l7`; `apin -> i3.a`, `acommit`, `aabort`. -/
theorem test_decode_engines : decode 0xdf018ec6 = .ok (.tval (.live 7) (.live 6)) ∧ decode 0xe4000083 = .ok (.apin .none (.port .a 3)) ∧
    decode 0xe100000d = .ok (.acommit 13) ∧ decode 0xe2000000 = .ok (.aabort .none) := ⟨rfl, rfl, rfl, rfl⟩
/-- R381, R427, R430: `hspawn -> i3.a`, `hdone`; `sysrd` of register 2; `nop`. -/
theorem test_decode_system : decode 0xe8000083 = .ok (.hspawn .none (.port .a 3)) ∧ decode 0xed000000 = .ok .hdone ∧
    decode 0xf3080083 = .ok (.sysrd 2 .none (.port .a 3)) ∧ decode 0xf8000000 = .ok .nop := ⟨rfl, rfl, rfl, rfl⟩

/-! Values of the spec's own tables -/

/-- R160: `div.i32` of 7 by −2, of the most negative number by −1, with and without `.sat`. -/
theorem test_div : sends (with2 7 0xfffffffe) (.div ⟨.i32, false, false, false⟩ .none out) = some 0xfffffffffffffffd ∧
    sends (with2 0x80000000 0xffffffff) (.div ⟨.i32, false, false, false⟩ .none out) = some 0xffffffff80000000 ∧
    sends (with2 0x80000000 0xffffffff) (.div ⟨.i32, true, false, false⟩ .none out) = some 0x7fffffff := by decide
/-- R160: `div.n32` and `rem.n32` of 5 by 0, and `rem.i32` of −7 by 2. -/
theorem test_div_zero : sends (with2 5 0) (.div ⟨.n32, false, false, false⟩ .none out) = some 0xffffffff ∧
    sends (with2 5 0) (.rem ⟨.n32, false, false, false⟩ .none out) = some 5 ∧
    sends (with2 0xfffffff9 2) (.rem ⟨.i32, false, false, false⟩ .none out) = some 0xffffffffffffffff := by decide
/-- R160: the shift rows. -/
theorem test_shifts : sends (with2 1 32) (.shl ⟨.i32, false, false, false⟩ .none out) = some 0 ∧
    sends (with2 0xffffffff 40) (.shl ⟨.i32, true, false, false⟩ .none out) = some 0xffffffff80000000 ∧
    sends (with2 0x80000000 100) (.sar ⟨.i32, false, false, false⟩ .none out) = some 0xffffffffffffffff ∧
    sends (with2 0x80000000 31) (.shr ⟨.i32, false, false, false⟩ .none out) = some 1 ∧
    sends (with2 0x80000001 33) (.rotl ⟨.n32, false, false, false⟩ .none out) = some 3 := by decide
/-- R160: `abs`, `neg`, `absdiff` and `clz`. -/
theorem test_lanes : sends (with2 0x80000000 0) (.abs ⟨.i32, true, false, false⟩ .none out) = some 0x7fffffff ∧
    sends (with2 5 0) (.neg ⟨.n32, true, false, false⟩ .none out) = some 0 ∧
    sends (with2 0x7fffffff 0x80000000) (.absdiff ⟨.i32, false, false, false⟩ .none out) = some 0xffffffff ∧
    sends (with2 0x00010000ffff8000 0) (.clz ⟨.n16x4, false, false, false⟩ .none out) = some 0x000f001000000000 := by decide
/-- R160: `add.i16x4.sat.invb`, its worked example. -/
theorem test_add_lanes : sends (with2 0x7ff080000001fffe 0x002000017fff0005) (.add ⟨.i16x4, true, true, false⟩ .none out) =
    some 0x7fcf80008001fff8 := by decide
/-- R162: `bfx.i32` of 0xf00 with pos 8, len 4; `bfx.n32` of 0xa000_0000 with pos 28, len 8. -/
theorem test_bfx : sends (with2 0x00000f00 0x0408) (.bfx ⟨.i32, false, false, false⟩ .none out) = some 0xffffffffffffffff ∧
    sends (with2 0xa0000000 0x081c) (.bfx ⟨.n32, false, false, false⟩ .none out) = some 0xa := by decide
/-- R203: conversions to e4m3, f16 and integers, with T1 where it is 1. -/
theorem test_cvt_narrow : sends (with2 0x43eb0000 0) (.cvtF32 ⟨.e4m3, .rtz⟩ .none out) = some 0x7e ∧
    sends (with2 0x43eb0000 0) (.cvtF32 ⟨.e4m3, .rtz⟩ out .none) = some 0 ∧
    sends (with2 0x43eb0000 0) (.cvtF32 ⟨.e4m3, .rne⟩ out .none) = some 1 ∧
    sends (with2 0xff800000 0) (.cvtF32 ⟨.e4m3, .rne⟩ .none out) = some 0xfe ∧
    sends (with2 0x7fc00000 0) (.cvtF32 ⟨.e4m3, .rne⟩ .none out) = some 0x7f ∧
    sends (with2 0x4788b800 0) (.cvtF32 ⟨.f16, .rne⟩ .none out) = some 0x7bff := by decide
/-- R203: conversions to and from integers. -/
theorem test_cvt_integer : sends (with2 0xc0600000 0) (.cvtF32 ⟨.i32, .rne⟩ .none out) = some 0xfffffffffffffffc ∧
    sends (with2 0xbf333333 0) (.cvtF32 ⟨.n32, .rne⟩ out .none) = some 1 ∧
    sends (with2 0x4f32d05e 0) (.cvtF32 ⟨.i32, .rtz⟩ .none out) = some 0x7fffffff ∧
    sends (with2 0xffffffffffffffff 0) (.cvtN64 ⟨.f32, .rne⟩ .none out) = some 0x5f800000 ∧
    sends (with2 0x100000000 0) (.cvtI64 ⟨.i32, .rne⟩ .none out) = some 0x7fffffff := by decide
/-- R269: `ainc` and `adec`: new value, written, and s. -/
theorem test_ainc : atomicEval .inc 4 2 0 3 = (3, true, false) ∧ atomicEval .inc 4 3 0 3 = (0, true, false) ∧
    atomicEval .inc 4 7 0 0 = (0, true, false) ∧ atomicEval .dec 4 0 0 3 = (3, true, false) ∧
    atomicEval .dec 4 9 0 3 = (3, true, false) ∧ atomicEval .dec 4 3 0 3 = (2, true, false) := by decide
/-- R269: `aaddb` and `acas`: whether they write, and s. -/
theorem test_aaddb : (atomicEval .addb 4 10 12 5).2 = (false, false) ∧ atomicEval .addb 4 10 15 5 = (15, true, true) ∧
    (atomicEval .addb 4 20 12 0).2 = (false, false) ∧ (atomicEval .addb 4 0xfffffff0 0xffffffff 0x20).2 = (false, false) ∧
    atomicEval .cas 8 5 5 9 = (9, true, true) ∧ (atomicEval .cas 8 6 5 9).2 = (false, false) := by decide

end Sys2Proof.Tests
end

section
/-! The seven immediate forms (R166): they act on all 64 bits of port a with the sign-extended immediate, and their words are
of format I (R60). -/

namespace Sys2Proof.Machine

/-! Dword and predicate tokens -/

/-- A dword token holds its number reduced to 64 bits, whatever tag it carries. -/
theorem isDword_dword_tag (n : Nat) (g : Option (Nat × DWord)) : IsDword (n % 2 ^ 64) { dword n with tag := g } := by
  refine ⟨rfl, rfl, ?_⟩
  simp only [dword, Token.nat, BitVec.toNat_ofNat]
  omega

theorem isDword_dword (n : Nat) : IsDword (n % 2 ^ 64) (dword n) := isDword_dword_tag n none

theorem isDword_dword_of_lt {n : Nat} (h : n < 2 ^ 64) : IsDword n (dword n) := by
  simpa only [Nat.mod_eq_of_lt h] using isDword_dword n

theorem isPred_predTok {b : Bool} {p : Prop} (h : b = true ↔ p) : IsPred p (predTok b) := by
  cases b with
  | true => exact ⟨rfl, rfl, .inl ⟨h.mp rfl, rfl⟩⟩
  | false => exact ⟨rfl, rfl, .inr ⟨mt h.mpr Bool.false_ne_true, rfl⟩⟩

theorem Token.lo_lt (v : Token) : v.lo < 2 ^ 64 := Nat.mod_lt _ (by decide)

/-! The immediate as a pattern and as a number (R61) -/

theorem immVal_range (imm : BitVec 15) : -16384 ≤ immVal imm ∧ immVal imm ≤ 16383 := by
  have hlo := BitVec.le_toInt imm
  have hhi := BitVec.toInt_lt (x := imm)
  simp only [immVal]
  omega

theorem immPat_eq_signExtend (imm : BitVec 15) : immPat imm = (imm.signExtend 64).toNat := by
  simp only [immPat, immVal, lowBits, BitVec.signExtend, BitVec.toNat_ofInt]
  rfl

/-- A negative immediate reads as one of the greatest 64-bit patterns. -/
theorem le_immPat_of_neg {imm : BitVec 15} (h : immVal imm < 0) : 2 ^ 64 - 16384 ≤ immPat imm := by
  have := immVal_range imm
  simp only [immPat, lowBits]
  omega

/-! Shift counts: from 64 on, every bit is shifted out, so that the cut of `cutCount` does not show -/

theorem shiftLeft_cutCount (a n : Nat) : a * 2 ^ cutCount n % 2 ^ 64 = a * 2 ^ n % 2 ^ 64 := by
  have out {k : Nat} (hk : 64 ≤ k) : a * 2 ^ k % 2 ^ 64 = 0 :=
    Nat.mod_eq_zero_of_dvd (Nat.dvd_mul_left_of_dvd (Nat.pow_dvd_pow 2 hk) a)
  rcases Nat.le_total n 128 with h | h
  · rw [cutCount, Nat.min_eq_left h]
  · rw [cutCount, Nat.min_eq_right h, out (by decide), out (by omega)]

theorem shiftRight_cutCount {a : Nat} (ha : a < 2 ^ 64) (n : Nat) : a / 2 ^ cutCount n = a / 2 ^ n := by
  have out {k : Nat} (hk : 64 ≤ k) : a / 2 ^ k = 0 :=
    Nat.div_eq_of_lt (Nat.lt_of_lt_of_le ha (Nat.pow_le_pow_right (by decide) hk))
  rcases Nat.le_total n 128 with h | h
  · rw [cutCount, Nat.min_eq_left h]
  · rw [cutCount, Nat.min_eq_right h, out (by decide), out (by omega)]

/-! What the two shared operations of the immediate forms emit -/

section
variable {s : State} {x : Inst} {a : Token} {i : Instr} {imm : BitVec 15} {t0 : Target} {P : Token → Prop}

/-- The operands of an immediate form, of which none is null. -/
theorem State.has.operands (ha : s.has .a a) : ∀ v ∈ [s.opTok .a], v.null = false := by
  simp [ha.opTok, ha.2]

/-- R166: an immediate form whose result is a function of the 64 bits of port a. -/
theorem State.immOp_yields (hx : s.live x) (ha : s.has .a a) (hg : s.guardTrue = true) {lat : Nat} {f : Nat → Nat}
    (hi : exec i s = .next (s.immOp lat t0 f)) (hp : P (dword (f a.lo))) : s.Yields i 1 lat .none t0 P := by
  refine ⟨_, _, hi, State.compute_emitted hx ha.operands hg 1 lat .none t0 _, ?_⟩
  rwa [ha.opTok]

/-- R166, R339: `addi` carries the tag of its operand on, which changes no bit of the sum. -/
theorem State.addi_yields (hx : s.live x) (ha : s.has .a a) (hg : s.guardTrue = true) :
    s.Yields (.addi imm t0) 1 1 .none t0 (IsDword ((a.lo + immPat imm) % 2 ^ 64)) := by
  refine ⟨_, _, rfl, State.computeTag_emitted hx ha.operands hg 1 1 .none t0 _ _ rfl, ?_⟩
  rw [ha.opTok]
  exact isDword_dword_tag _ _

/-- R166, R340: a comparison with the immediate emits the same predicate with and without a tag on its operand; with one it
records a constraint besides, which pins at most. -/
theorem State.compareImm_emitted (hx : s.live x) (ha : s.has .a a) (hg : s.guardTrue = true) (r : Rel) :
    let p := predTok (relHolds r (sextNat 64 a.lo) (immVal imm))
    Emitted s (s.compareImm r imm t0) 1 1 .none t0 p p := by
  have hruns := State.runs_of hx ha.operands
  rw [ha.opTok] at hruns
  simp only [State.compareImm, ha.opTok, hruns, hg, Bool.and_self, if_true]
  split
  next =>
    exact State.emit_emitted ((State.pin_pinned s _).trans (State.constrain_pinned _ _)) hx 1 1 .none t0 _ _
  next => exact State.compute_emitted hx (ha.opTok ▸ ha.operands) hg 1 1 .none t0 _

/-- R166: a comparison with the immediate answers whether the relation holds of the 64 bits of port a, read as signed. -/
theorem State.compareImm_yields (hx : s.live x) (ha : s.has .a a) (hg : s.guardTrue = true) {r : Rel} {q : Prop}
    (hi : exec i s = .next (s.compareImm r imm t0)) (hq : relHolds r (sextNat 64 a.lo) (immVal imm) = true ↔ q) :
    s.Yields i 1 1 .none t0 (IsPred q) :=
  ⟨_, _, hi, State.compareImm_emitted hx ha hg r, isPred_predTok hq⟩

end

/-! Words of format I -/

/-- R60: the opcode and the immediate of a word of format I. -/
theorem encode_formatI_fields {i : Instr} {op : Nat} {imm : BitVec 15} {t0 : Target} {w : Word}
    (hi : encodeNat i = some (wordI op imm.toNat t0.code)) (ho : op < 256) (hw : encode i = some w) :
    w.toNat / 2 ^ 24 = op ∧ w.toNat / 2 ^ 9 % 2 ^ 15 = imm.toNat := by
  obtain ⟨hlt, hop, himm, -⟩ := fieldsI (n := wordI op imm.toNat t0.code) rfl ho imm.isLt t0.code_lt
  have hn : w.toNat = wordI op imm.toNat t0.code := by
    rw [encode, hi, Option.map_some, Option.some.injEq] at hw
    rw [← hw, BitVec.toNat_ofNat, Nat.mod_eq_of_lt hlt]
  rw [hn]
  unfold fOp at hop
  exact ⟨by omega, himm⟩

end Sys2Proof.Machine

open Sys2Proof Sys2Proof.Machine

/-- Settles O5: each form is an equation of `exec` with one of the shared operations above; the value follows from
`immPat_eq_signExtend` and, for the shifts, from the cut of the count. -/
theorem immediateForms : Obligations.ImmediateForms := by
  unfold Obligations.ImmediateForms
  refine ⟨?results, ?words, rfl, rfl⟩
  case results =>
    intro s x imm t0 a hx ha hg
    simp only [← immPat_eq_signExtend]
    have hlo := a.lo_lt
    obtain ⟨hmin, hmax⟩ := immVal_range imm
    refine ⟨hmin, hmax, le_immPat_of_neg, State.addi_yields hx ha hg, ?andi, ?shli, ?shri, ?muli, ?setpiEq, ?setpiLt⟩
    case andi =>
      exact State.immOp_yields hx ha hg rfl (isDword_dword_of_lt (Nat.lt_of_le_of_lt Nat.and_le_left hlo))
    case shli =>
      exact State.immOp_yields hx ha hg rfl (shiftLeft_cutCount a.lo _ ▸ isDword_dword _)
    case shri =>
      refine State.immOp_yields hx ha hg rfl ?_
      rw [shiftRight_cutCount hlo]
      exact isDword_dword_of_lt (Nat.lt_of_le_of_lt (Nat.div_le_self ..) hlo)
    case muli => exact State.immOp_yields hx ha hg rfl (isDword_dword _)
    case setpiEq => exact State.compareImm_yields hx ha hg (r := .eq) rfl beq_iff_eq
    case setpiLt => exact State.compareImm_yields hx ha hg (r := .lt) rfl decide_eq_true_iff
  case words =>
    intro imm t0 e he
    simp only [List.mem_cons, List.not_mem_nil, or_false] at he
    rcases he with rfl | rfl | rfl | rfl | rfl | rfl | rfl <;>
      exact ⟨rfl, fun w hw => encode_formatI_fields rfl (by simp) hw⟩

end

section
/-! The selection, sign and comparison operations of floating point (R194-R196): what they do to the sign bit and to the
order of the patterns of a lane, and what their firings emit. -/

namespace Sys2Proof.Machine

/-! The sign bit of a pattern (R171) -/

section
variable (f : FFmt)

theorem FFmt.width_sub_one : f.width - 1 = f.e + f.m := by
  simp only [width]
  omega

theorem FFmt.two_pow_width_sub_one : 2 ^ (f.width - 1) = f.signBit := by rw [width_sub_one, signBit]

theorem FFmt.two_pow_width : 2 ^ f.width = 2 * f.signBit := by
  rw [width, signBit, ← Nat.pow_succ', Nat.add_assoc, Nat.add_comm]

theorem FFmt.signBit_pos : 0 < f.signBit := Nat.two_pow_pos _

theorem FFmt.neg_eq_testBit (x : Nat) : f.neg x = x.testBit (f.width - 1) := by
  rw [width_sub_one, Nat.testBit_eq_decide_div_mod_eq]
  rfl

theorem FFmt.withSign_lt (n : Bool) {x : Nat} (hx : x < f.signBit) : f.withSign n x < 2 ^ f.width := by
  rw [two_pow_width]
  cases n <;> simp only [withSign, if_true, Bool.false_eq_true, if_false] <;> omega

theorem FFmt.neg_withSign (n : Bool) {x : Nat} (hx : x < f.signBit) : f.neg (f.withSign n x) = n := by
  cases n <;> simp [neg, withSign, Nat.add_div_left x f.signBit_pos, Nat.div_eq_of_lt hx]

/-- A pattern is its magnitude with its sign. -/
theorem FFmt.withSign_neg_mod {x : Nat} (hx : x < 2 ^ f.width) : f.withSign (f.neg x) (x % f.signBit) = x := by
  have hdiv : x / f.signBit < 2 := Nat.div_lt_of_lt_mul (by rwa [two_pow_width, Nat.mul_comm] at hx)
  have hx' := Nat.div_add_mod x f.signBit
  obtain h | h : x / f.signBit = 0 ∨ x / f.signBit = 1 := Nat.le_one_iff_eq_zero_or_eq_one.mp (Nat.le_of_lt_succ hdiv)
  all_goals
    rw [h] at hx'
    simpa [withSign, neg, h] using hx'

theorem FFmt.flush_lt (on : Bool) {x : Nat} (hx : x < 2 ^ f.width) : f.flush on x < 2 ^ f.width := by
  unfold flush
  split
  · exact f.withSign_lt _ f.signBit_pos
  · exact hx

theorem negB_lt (negb : Bool) {x : Nat} (hx : x < 2 ^ f.width) : negB f negb x < 2 ^ f.width := by
  cases negb with
  | false => exact hx
  | true => exact f.withSign_lt _ (Nat.mod_lt _ f.signBit_pos)

theorem neg_negB (negb : Bool) (x : Nat) : f.neg (negB f negb x) = (f.neg x != negb) := by
  cases negb with
  | false => simp [negB]
  | true => simp [negB, f.neg_withSign _ (Nat.mod_lt x f.signBit_pos)]

/-- R192: to invert the sign bit is to add its weight, and to drop the carry out of the pattern. -/
theorem negB_true_eq_add {x : Nat} (hx : x < 2 ^ f.width) : negB f true x = (x + f.signBit) % 2 ^ f.width := by
  have hm := Nat.mod_lt x f.signBit_pos
  have hs := f.withSign_neg_mod hx
  rw [f.two_pow_width]
  cases hn : f.neg x with
  | false =>
    simp only [hn, FFmt.withSign, Bool.false_eq_true, if_false] at hs
    rw [Nat.mod_eq_of_lt (by omega), Nat.add_comm]
    simp [negB, hn, FFmt.withSign, hs]
  | true =>
    simp only [hn, FFmt.withSign, if_true] at hs
    have hsum : x + f.signBit = x % f.signBit + 2 * f.signBit := by omega
    rw [hsum, Nat.add_mod_right, Nat.mod_eq_of_lt (by omega)]
    simp [negB, hn, FFmt.withSign]

/-- R195: a magnitude with the sign of b, after `negb` has acted on b. -/
theorem withSign_neg_negB (negb : Bool) (x y : Nat) : f.withSign (f.neg (negB f negb y)) x =
    x + if y.testBit (f.width - 1) = negb then 0 else f.signBit := by
  rw [neg_negB, f.neg_eq_testBit]
  cases y.testBit (f.width - 1) <;> cases negb <;> simp [FFmt.withSign, Nat.add_comm]

/-- R172: the sign of a finite value is the sign bit of its pattern. -/
theorem FFmt.neg_of_value_eq_fin {f : FFmt} {x k : Nat} {n : Bool} {e : Int} (h : f.value x = .fin n k e) : f.neg x = n := by
  simp only [value] at h
  split at h
  next => exact (FpNum.fin.inj h).1
  next =>
    split at h
    next => split at h <;> cases h
    next =>
      split at h
      next => cases h
      next => exact (FpNum.fin.inj h).1

end

/-! The order of exact values (R196) -/

theorem FpNum.isNaN_iff {x : FpNum} : x.isNaN = true ↔ x = .nan := by cases x <;> simp [isNaN]

@[simp] theorem alignTo_zero (e0 : Int) (neg : Bool) (e : Int) : alignTo e0 neg 0 e = 0 := by simp [alignTo]

/-- Zeros of either sign and at any exponent are not below one another. -/
theorem FpNum.lt_zeros (n k : Bool) (i j : Int) : (fin n 0 i).lt (fin k 0 j) = false := by simp [lt]

theorem FpNum.lt_asymm {x y : FpNum} (h : x.lt y = true) : y.lt x = false := by
  cases x with
  | nan => cases h
  | inf a =>
    cases y with
    | nan => cases h
    | inf b =>
      obtain ⟨rfl, -⟩ := Bool.and_eq_true_iff.mp h
      exact Bool.and_false b
    | fin b n g => exact congrArg not h
  | fin a m e =>
    cases y with
    | nan => cases h
    | inf b => simpa [lt] using h
    | fin b n g =>
      simp only [lt, decide_eq_true_eq, decide_eq_false_iff_not] at h ⊢
      rw [Int.min_comm g e]
      omega

theorem FpNum.not_nan_of_lt {x y : FpNum} (h : x.lt y = true) : ¬(x = .nan ∨ y = .nan) := by
  rintro (rfl | rfl)
  · cases h
  · cases x <;> cases h

theorem FpNum.eq_iff {x y : FpNum} : x.eq y = true ↔ ¬(x = .nan ∨ y = .nan) ∧ x.lt y = false ∧ y.lt x = false := by
  simp [FpNum.eq, ← isNaN_iff, and_assoc]

/-! `fmin` and `fmax` on patterns (R194) -/

section
variable {f : FFmt} {wantMax : Bool} {a b : Nat}

/-- R194: the pattern `r` is the smaller (or the larger) one of `a` and `b`. -/
def IsExtremum (f : FFmt) (wantMax : Bool) (a b r : Nat) : Prop :=
  if f.value a = .nan ∧ f.value b = .nan then r = f.canonNaN
  else if f.value a = .nan then r = b
  else if f.value b = .nan then r = a
  else (r = a ∨ r = b) ∧
    ((f.value a).lt (f.value b) = true → r = if wantMax then b else a) ∧
    ((f.value b).lt (f.value a) = true → r = if wantMax then a else b) ∧
    (∀ n e g, f.value a = .fin n 0 e → f.value b = .fin (!n) 0 g → f.neg r = !wantMax)

theorem minmaxBits_of_nans (ha : f.value a = .nan) (hb : f.value b = .nan) : minmaxBits f wantMax a b = f.canonNaN := by
  simp only [minmaxBits, FpNum.isNaN_iff.mpr ha, FpNum.isNaN_iff.mpr hb, Bool.and_self, if_true]

theorem minmaxBits_of_nan_left (ha : f.value a = .nan) (hb : f.value b ≠ .nan) : minmaxBits f wantMax a b = b := by
  have hb := Bool.not_eq_true _ ▸ mt FpNum.isNaN_iff.mp hb
  simp only [minmaxBits, FpNum.isNaN_iff.mpr ha, hb, Bool.and_false, Bool.false_eq_true, if_false, if_true]

theorem minmaxBits_of_nan_right (ha : f.value a ≠ .nan) (hb : f.value b = .nan) : minmaxBits f wantMax a b = a := by
  have ha := Bool.not_eq_true _ ▸ mt FpNum.isNaN_iff.mp ha
  simp only [minmaxBits, ha, FpNum.isNaN_iff.mpr hb, Bool.false_and, Bool.false_eq_true, if_false, if_true]

theorem minmaxBits_of_not_nan (h : ¬(f.value a = .nan ∨ f.value b = .nan)) : minmaxBits f wantMax a b =
    if (f.value a).eq (f.value b) then (if f.neg a == wantMax then b else a)
    else if (f.value a).lt (f.value b) == wantMax then b else a := by
  simp only [← FpNum.isNaN_iff, not_or, Bool.not_eq_true] at h
  simp [minmaxBits, h.1, h.2]

theorem minmaxBits_mem_of_not_nan (h : ¬(f.value a = .nan ∨ f.value b = .nan)) :
    minmaxBits f wantMax a b = a ∨ minmaxBits f wantMax a b = b := by
  have pick (p : Prop) [Decidable p] : (if p then b else a) = a ∨ (if p then b else a) = b := by
    by_cases h : p
    · exact .inr (if_pos h)
    · exact .inl (if_neg h)
  rw [minmaxBits_of_not_nan h]
  by_cases heq : (f.value a).eq (f.value b) = true
  · rw [if_pos heq]
    exact pick _
  · rw [if_neg heq]
    exact pick _

theorem minmaxBits_lt (hc : f.canonNaN < 2 ^ f.width) (ha : a < 2 ^ f.width) (hb : b < 2 ^ f.width) :
    minmaxBits f wantMax a b < 2 ^ f.width := by
  by_cases hna : f.value a = .nan <;> by_cases hnb : f.value b = .nan
  · rwa [minmaxBits_of_nans hna hnb]
  · rwa [minmaxBits_of_nan_left hna hnb]
  · rwa [minmaxBits_of_nan_right hna hnb]
  · rcases minmaxBits_mem_of_not_nan (wantMax := wantMax) (not_or.mpr ⟨hna, hnb⟩) with h | h <;> rwa [h]

theorem minmaxBits_of_lt (h : (f.value a).lt (f.value b) = true) :
    minmaxBits f wantMax a b = if wantMax then b else a := by
  rw [minmaxBits_of_not_nan (FpNum.not_nan_of_lt h), if_neg (by simp [FpNum.eq_iff, h]), h]
  cases wantMax <;> rfl

theorem minmaxBits_of_gt (h : (f.value b).lt (f.value a) = true) :
    minmaxBits f wantMax a b = if wantMax then a else b := by
  rw [minmaxBits_of_not_nan (FpNum.not_nan_of_lt h ∘ Or.symm), if_neg (by simp [FpNum.eq_iff, h]), FpNum.lt_asymm h]
  cases wantMax <;> rfl

/-- Of two zeros of opposite signs the sign decides. -/
theorem neg_minmaxBits_zeros {n : Bool} {e g : Int} (ha : f.value a = .fin n 0 e) (hb : f.value b = .fin (!n) 0 g) :
    f.neg (minmaxBits f wantMax a b) = !wantMax := by
  have hna := FFmt.neg_of_value_eq_fin ha
  have hnb := FFmt.neg_of_value_eq_fin hb
  rw [minmaxBits_of_not_nan (by simp [ha, hb]), if_pos (by simp [FpNum.eq_iff, FpNum.lt_zeros, ha, hb]), hna]
  split
  next h => rw [hnb, beq_iff_eq.mp h]
  next h => rw [hna, Bool.eq_not.mpr (mt beq_iff_eq.mpr h)]

theorem minmaxBits_isExtremum : IsExtremum f wantMax a b (minmaxBits f wantMax a b) := by
  unfold IsExtremum
  by_cases ha : f.value a = .nan <;> by_cases hb : f.value b = .nan
  · rw [if_pos ⟨ha, hb⟩, minmaxBits_of_nans ha hb]
  · rw [if_neg (hb ·.2), if_pos ha, minmaxBits_of_nan_left ha hb]
  · rw [if_neg (ha ·.1), if_neg ha, if_pos hb, minmaxBits_of_nan_right ha hb]
  · rw [if_neg (ha ·.1), if_neg ha, if_neg hb]
    exact ⟨minmaxBits_mem_of_not_nan (not_or.mpr ⟨ha, hb⟩), minmaxBits_of_lt, minmaxBits_of_gt,
      fun n e g => neg_minmaxBits_zeros⟩

end

/-! Lanes of a token (R176) -/

section
variable {ty : FpTy} {r g : Nat → Nat}

theorem fpLane_lt (v k : Nat) : fpLane ty v k < 2 ^ (fpFmt ty).width := Nat.mod_lt _ (Nat.two_pow_pos _)

theorem canonNaN_fpFmt_lt (ty : FpTy) : (fpFmt ty).canonNaN < 2 ^ (fpFmt ty).width := by cases ty <;> decide

/-- R176: one lane of at most 64 bits, or two of 16. -/
theorem fpLanes_cases (ty : FpTy) :
    (fpLanes ty = 1 ∧ (fpFmt ty).width ≤ 64) ∨ (fpLanes ty = 2 ∧ (fpFmt ty).width = 16) := by cases ty <;> decide

/-- R176: lanes that fit their format are packed side by side, with zeros above them. -/
theorem fpPack_spec (hr : ∀ k, r k < 2 ^ (fpFmt ty).width) :
    fpPack ty r < 2 ^ ((fpFmt ty).width * fpLanes ty) ∧ ∀ k, k < fpLanes ty → fpLane ty (fpPack ty r) k = r k := by
  have h0 := hr 0
  obtain ⟨hl, -⟩ | ⟨hl, hw⟩ := fpLanes_cases ty
  · simp only [fpPack, fpLane, hl, Nat.mul_one, Nat.lt_one_iff, forall_eq, Nat.mul_zero, Nat.pow_zero, Nat.div_one]
    exact ⟨h0, Nat.mod_eq_of_lt h0⟩
  · have h1 := hr 1
    rw [hw] at h0 h1
    simp only [fpPack, fpLane, hl, hw, if_true]
    refine ⟨by omega, fun k hk => ?_⟩
    obtain rfl | rfl : k = 0 ∨ k = 1 := by omega
    · omega
    · omega

theorem isFp_dword_fpPack (hr : ∀ k, r k < 2 ^ (fpFmt ty).width) : IsFp ty r (dword (fpPack ty r)) := by
  obtain ⟨hlt, hlane⟩ := fpPack_spec hr
  have hwidth : (fpFmt ty).width * fpLanes ty ≤ 64 := by
    rcases fpLanes_cases ty with ⟨hl, hw⟩ | ⟨hl, hw⟩ <;> simp [hl, hw]
  obtain ⟨hnull, hpair, hnat⟩ := isDword_dword_of_lt (Nat.lt_of_lt_of_le hlt (Nat.pow_le_pow_right (by decide) hwidth))
  rw [IsFp, hnat]
  exact ⟨hnull, hpair, hlt, hlane⟩

theorem IsFp.congr {v : Token} (h : IsFp ty r v) (hrg : ∀ k, r k = g k) : IsFp ty g v := funext hrg ▸ h

/-- The one lane of an f32 is the whole dword. -/
theorem IsFp.isDword_f32 {v : Token} (h : IsFp .f32 r v) : IsDword (r 0) v := by
  obtain ⟨hn, hp, hlt, hl⟩ := h
  refine ⟨hn, hp, ?_⟩
  calc v.nat = fpLane .f32 v.nat 0 := by rw [fpLane, Nat.mul_zero, Nat.pow_zero, Nat.div_one]; exact (Nat.mod_eq_of_lt hlt).symm
    _ = r 0 := hl 0 (by decide)

end

theorem IsPred.isDword_one {p : Prop} {v : Token} (h : IsPred p v) (hp : p) : IsDword 1 v := by
  obtain ⟨hn, hr, h | h⟩ := h
  · exact ⟨hn, hr, h.2⟩
  · exact absurd hp h.1

theorem IsPred.isDword_zero {p : Prop} {v : Token} (h : IsPred p v) (hp : ¬p) : IsDword 0 v := by
  obtain ⟨hn, hr, h | h⟩ := h
  · exact absurd h.1 hp
  · exact ⟨hn, hr, h.2⟩

/-! What the shared operations of these instructions emit (R192, R200) -/

theorem State.Yields.mono {s : State} {i : Instr} {busy lat : Nat} {t1 t0 : Target} {P Q : Token → Prop}
    (h : s.Yields i busy lat t1 t0 P) (hPQ : ∀ v, P v → Q v) : s.Yields i busy lat t1 t0 Q := by
  obtain ⟨t, v, hi, he, hv⟩ := h
  exact ⟨t, v, hi, he, hPQ v hv⟩

section
variable {s : State} {x : Inst} {a b : Token} {i : Instr} {ty : FpTy} {lat : Nat} {t1 t0 : Target} {P : Token → Prop}

theorem State.has.operands2 (ha : s.has .a a) (hb : s.has .b b) : ∀ v ∈ [s.opTok .a, s.opTok .b], v.null = false := by
  simp [ha.opTok, hb.opTok, ha.2, hb.2]

theorem State.fp1_yields (hx : s.live x) (ha : s.has .a a) (hg : s.guardTrue = true) {f : Nat → Nat}
    (hi : exec i s = .next (s.fp1 ty lat t1 t0 f)) (hp : P (dword (fpPack ty fun k => f (fpLane ty a.nat k)))) :
    s.Yields i (fpBusy ty) lat t1 t0 P := by
  refine ⟨_, _, hi, State.compute_emitted hx ha.operands hg (fpBusy ty) lat t1 t0 _, ?_⟩
  rwa [ha.opTok]

theorem State.fp2_yields (hx : s.live x) (ha : s.has .a a) (hb : s.has .b b) (hg : s.guardTrue = true)
    {f : Nat → Nat → Nat} (hi : exec i s = .next (s.fp2 ty lat t1 t0 f))
    (hp : P (dword (fpPack ty fun k => f (fpLane ty a.nat k) (fpLane ty b.nat k)))) :
    s.Yields i (fpBusy ty) lat t1 t0 P := by
  refine ⟨_, _, hi, State.compute_emitted hx (ha.operands2 hb) hg (fpBusy ty) lat t1 t0 _, ?_⟩
  rwa [ha.opTok, hb.opTok]

/-- R196: a comparison answers whether its relation holds of the values of lane 0, as read after `negb` and `ftzi`. -/
theorem State.fcompare_yields (hx : s.live x) (ha : s.has .a a) (hb : s.has .b b) (hg : s.guardTrue = true) {m : FpMod}
    {r : FRel} {q : Prop} (hi : exec i s = .next (s.fcompare m r t1 t0))
    (hq : fRelHolds r ((fpFmt m.ty).value (fpIn m (fpFmt m.ty) (fpLane m.ty a.nat 0)))
      ((fpFmt m.ty).value (fpInB m (fpFmt m.ty) (fpLane m.ty b.nat 0))) = true ↔ q) :
    s.Yields i (fpBusy m.ty) (latSimple m.ty) t1 t0 (IsPred q) := by
  refine ⟨_, _, hi, State.compute_emitted hx (ha.operands2 hb) hg (fpBusy m.ty) (latSimple m.ty) t1 t0 _, ?_⟩
  rw [ha.opTok, hb.opTok]
  exact isPred_predTok hq

end

/-! The relations of `fsetp` (R196) -/

section
variable {x y : FpNum}

theorem fRelHolds_un : fRelHolds .un x y = true ↔ x = .nan ∨ y = .nan := by
  simp [fRelHolds, FpNum.isNaN_iff]

theorem fRelHolds_eq : fRelHolds .eq x y = true ↔ ¬(x = .nan ∨ y = .nan) ∧ x.lt y = false ∧ y.lt x = false := by
  simp [fRelHolds, FpNum.eq_iff, ← FpNum.isNaN_iff]

theorem fRelHolds_ne : fRelHolds .ne x y = true ↔ (x = .nan ∨ y = .nan) ∨ x.lt y = true ∨ y.lt x = true := by
  have h : fRelHolds .ne x y = !fRelHolds .eq x y := by simp [fRelHolds, Bool.not_or]
  rw [h, Bool.not_eq_true', ← Bool.not_eq_true, fRelHolds_eq]
  simp only [Classical.not_and_iff_not_or_not, Classical.not_not, Bool.not_eq_false]

theorem fRelHolds_lt : fRelHolds .lt x y = true ↔ ¬(x = .nan ∨ y = .nan) ∧ x.lt y = true := by
  simp [fRelHolds, ← FpNum.isNaN_iff]

theorem fRelHolds_le : fRelHolds .le x y = true ↔ ¬(x = .nan ∨ y = .nan) ∧ y.lt x = false := by
  simp [fRelHolds, ← FpNum.isNaN_iff]

end

/-! Words of format D -/

/-- R60: the opcode of a word of format D. -/
theorem opcodeOf_encode_formatD {i : Instr} {op md : Nat} {t1 t0 : Target} {w : Word}
    (hi : encodeNat i = some (wordD op md t1.code t0.code)) (ho : op < 256) (hm : md < 64) (hw : encode i = some w) :
    opcodeOf w = op := by
  obtain ⟨hlt, hop, -⟩ := fieldsD rfl ho hm t1.code_lt t0.code_lt
  rw [encode, hi, Option.map_some, Option.some.injEq] at hw
  rw [opcodeOf, ← hw, BitVec.toNat_ofNat, Nat.mod_eq_of_lt hlt, hop]

end Sys2Proof.Machine

open Sys2Proof Sys2Proof.Machine

/-- Settles O11: each of the three gives a lane of a sign and the magnitude of a's lane (`FFmt.withSign`). -/
theorem signBits : Obligations.SignBits := by
  unfold Obligations.SignBits
  intro s x m t1 t0 a b hx ha hg f busy lat
  have magnitude (k : Nat) : fpLane m.ty a.nat k % f.signBit < f.signBit := Nat.mod_lt _ f.signBit_pos
  have hneg : s.Yields (.fneg m t1 t0) busy lat t1 t0
      (IsFp m.ty fun k => (fpLane m.ty a.nat k + f.signBit) % 2 ^ f.width) :=
    State.fp1_yields hx ha hg rfl ((isFp_dword_fpPack fun k => negB_lt f true (fpLane_lt ..)).congr
      fun k => negB_true_eq_add f (fpLane_lt ..))
  rw [f.two_pow_width_sub_one]
  refine ⟨?fabs, hneg, ?payload, ?fcopysign⟩
  case fabs =>
    exact State.fp1_yields hx ha hg rfl (isFp_dword_fpPack fun k => f.withSign_lt false (magnitude k))
  case payload =>
    intro hty ha
    refine hneg.mono fun v hv => ?_
    simp only [f, hty, ha] at hv
    exact hv.isDword_f32
  case fcopysign =>
    intro hb
    exact State.fp2_yields hx ha hb hg rfl ((isFp_dword_fpPack fun k => f.withSign_lt _ (magnitude k)).congr
      fun k => withSign_neg_negB f m.negb _ _)

/-- Settles O12: by `minmaxBits_isExtremum` in each lane. -/
theorem extrema : Obligations.Extrema := by
  unfold Obligations.Extrema
  intro s x m t1 t0 a b hx ha hb hg f busy lat A B nan pick
  have hpick (wantMax : Bool) : pick wantMax (dword (fpPack m.ty fun k => minmaxBits f wantMax (A k) (B k))) := by
    have hlt (k : Nat) : minmaxBits f wantMax (A k) (B k) < 2 ^ f.width :=
      minmaxBits_lt (canonNaN_fpFmt_lt m.ty) (f.flush_lt _ (fpLane_lt ..)) (f.flush_lt _ (negB_lt f _ (fpLane_lt ..)))
    obtain ⟨hnull, hpair, -, hlane⟩ := isFp_dword_fpPack hlt
    refine ⟨hnull, hpair, fun k hk => ?_⟩
    show IsExtremum f wantMax (A k) (B k) _
    rw [hlane k hk]
    exact minmaxBits_isExtremum
  exact ⟨State.fp2_yields hx ha hb hg rfl (hpick false), State.fp2_yields hx ha hb hg rfl (hpick true)⟩

/-- Settles O13: each opcode is an equation of `exec` with the shared comparison; the numeric cases follow from the relations. -/
theorem floatComparisons : Obligations.FloatComparisons := by
  unfold Obligations.FloatComparisons
  refine ⟨?results, ?order, ?words⟩
  case results =>
    intro s x m t1 t0 a b hx ha hb hg f busy lat X Y un
    have hne : s.Yields (.fsetpNe m t1 t0) busy lat t1 t0 (IsPred (un ∨ X.lt Y = true ∨ Y.lt X = true)) :=
      State.fcompare_yields hx ha hb hg rfl fRelHolds_ne
    have heq : s.Yields (.fsetpEq m t1 t0) busy lat t1 t0 (IsPred (¬un ∧ X.lt Y = false ∧ Y.lt X = false)) :=
      State.fcompare_yields hx ha hb hg rfl fRelHolds_eq
    have hlt : s.Yields (.fsetpLt m t1 t0) busy lat t1 t0 (IsPred (¬un ∧ X.lt Y = true)) :=
      State.fcompare_yields hx ha hb hg rfl fRelHolds_lt
    refine ⟨heq, hne, hlt, State.fcompare_yields hx ha hb hg rfl fRelHolds_le,
      State.fcompare_yields hx ha hb hg rfl fRelHolds_un, ?subnormals, ?besideNaN⟩
    case subnormals =>
      intro hty hf ha hb
      refine heq.mono fun v hv => hv.isDword_one ?_
      have hX : X = .fin false 0 fmtF32.kMin := by
        simp only [X, f, hty, hf, ha]
        decide
      have hY : Y = .fin m.negb 0 fmtF32.kMin := by
        simp only [Y, f, hty, hf, hb]
        cases m.negb <;> decide
      simp [un, hX, hY, FpNum.lt_zeros]
    case besideNaN =>
      intro hX _ _ _
      have hun : un := .inl hX
      exact ⟨hlt.mono fun v hv => hv.isDword_zero fun h => h.1 hun, hne.mono fun v hv => hv.isDword_one (.inl hun)⟩
  case order => exact fun n k e g i j => ⟨FpNum.lt_zeros n k i j, rfl, rfl⟩
  case words =>
    intro m t1 t0 e he w hw
    simp only [List.mem_cons, List.not_mem_nil, or_false] at he
    rcases he with rfl | rfl | rfl | rfl | rfl <;> exact opcodeOf_encode_formatD rfl (by simp) m.code_lt hw

end

section
/-! The round trip between words and instructions (R60-R66, R71-R73): every form of word read back from its fields, and the two
tables put together. -/

namespace Sys2Proof

/-! Fields put together again -/

section
variable {n : Nat}

theorem fMod_lt (n : Nat) : fMod n < 64 := Nat.mod_lt _ (by decide)

theorem word_d {op md t1 t0 : Nat} (hn : n < 2 ^ 32) (hop : fOp n = op) (hmd : fMod n = md) (h1 : fT1 n = t1) (h0 : fT0 n = t0) :
    wordD op md t1 t0 = n := by
  simp only [fOp, fMod, fT1, fT0] at hop hmd h1 h0
  simp only [wordD]
  omega

theorem word_i {op imm t0 : Nat} (hn : n < 2 ^ 32) (hop : fOp n = op) (hi : fImm n = imm) (h0 : fT0 n = t0) :
    wordI op imm t0 = n := by
  simp only [fOp, fImm, fT0] at hop hi h0
  simp only [wordI]
  omega

theorem word_b0 {op : Nat} (hn : n < 2 ^ 32) (hop : fOp n = op) : wordB op 0 (BitVec.ofNat 24 (fOff24 n)).toNat = n := by
  simp only [fOp] at hop
  simp only [wordB, fOff24, BitVec.toNat_ofNat]
  omega

theorem word_b20 {op : Nat} (hn : n < 2 ^ 32) (hop : fOp n = op) :
    wordB op (BitVec.ofNat 4 (fNum n)).toNat (BitVec.ofNat 20 (fOff20 n)).toNat = n := by
  simp only [fOp] at hop
  simp only [wordB, fNum, fOff20, BitVec.toNat_ofNat]
  omega

theorem word_b20_zero {op : Nat} (hn : n < 2 ^ 32) (hop : fOp n = op) (hz : fNum n = 0) :
    wordB op 0 (BitVec.ofNat 20 (fOff20 n)).toNat = n := by
  simp only [fOp, fNum] at hop hz
  simp only [wordB, fOff20, BitVec.toNat_ofNat]
  omega

theorem targetOf_some {x : Nat} {t : Target} (_ : x < 512) (h : targetOf x = some t) : t.ok = true ∧ x = t.code := by
  unfold targetOf at h
  split at h
  all_goals (try split at h) <;> cases h <;> simp only [Target.ok, Target.code, BitVec.toNat_ofNat, beq_iff_eq, true_and] <;> omega

/-! The values of MOD and SLOT (R71) -/

theorem bitN_beq_one {x : Nat} (hx : x < 2) : bitN (x == 1) = x := by
  obtain rfl | rfl : x = 0 ∨ x = 1 := by omega
  all_goals rfl

theorem slot_eq (n : Nat) : fMod n = (BitVec.ofNat 6 (fMod n)).toNat := by
  rw [BitVec.toNat_ofNat, Nat.mod_eq_of_lt (fMod_lt n)]

theorem imm_eq (n : Nat) : fImm n = (BitVec.ofNat 15 (fImm n)).toNat := by
  rw [BitVec.toNat_ofNat, fImm, Nat.mod_mod]

theorem flag_eq (h0 : fMod n / 2 = 0) : fMod n = bitN (fMod n % 2 == 1) := by
  rw [bitN_beq_one (by omega)]; omega

theorem flags_eq (h0 : fMod n / 4 = 0) : fMod n = bitN (fMod n / 2 % 2 == 1) * 2 + bitN (fMod n % 2 == 1) := by
  rw [bitN_beq_one (by omega), bitN_beq_one (by omega)]; omega

theorem flag8_eq (h0 : fMod n % 8 = 0) (h1 : fMod n / 16 = 0) : fMod n = bitN (fMod n / 8 == 1) * 8 := by
  rw [bitN_beq_one (by omega)]; omega

theorem flag32_eq (h0 : fMod n % 32 = 0) : fMod n = bitN (fMod n / 32 == 1) * 32 := by
  have := fMod_lt n
  rw [bitN_beq_one (by omega)]; omega

theorem channel_eq (h0 : fMod n / 16 = 0) : fMod n = (BitVec.ofNat 4 (fMod n)).toNat := by
  rw [BitVec.toNat_ofNat]; omega

theorem acqChannel_eq (h0 : fMod n / 32 = 0) : fMod n = bitN (fMod n / 16 == 1) * 16 + (BitVec.ofNat 4 (fMod n)).toNat := by
  rw [bitN_beq_one (by omega), BitVec.toNat_ofNat]; omega

theorem intTyOf_some {x : Nat} {t : IntTy} (h : intTyOf x = some t) : x = t.code := by
  unfold intTyOf at h
  split at h <;> cases h <;> rfl

theorem fpTyOf_some {x : Nat} {t : FpTy} (h : fpTyOf x = some t) : x = t.code := by
  unfold fpTyOf at h
  split at h <;> cases h <;> rfl

theorem cvtFmtOf_some {x : Nat} {t : CvtFmt} (h : cvtFmtOf x = some t) : x = t.code := by
  unfold cvtFmtOf at h
  split at h <;> cases h <;> rfl

theorem sizeOf'_some {x : Nat} {z : Size} (h : sizeOf' x = some z) : x = z.code := by
  unfold sizeOf' at h
  split at h <;> cases h <;> rfl

theorem scopeOf_some {x : Nat} {p : Scope} (h : scopeOf x = some p) : x = p.code := by
  unfold scopeOf at h
  split at h <;> cases h <;> rfl

theorem fenceKindOf_some {x : Nat} {k : FenceKind} (h : fenceKindOf x = some k) : x = k.code := by
  unfold fenceKindOf at h
  split at h <;> cases h <;> rfl

theorem rndOf_code {x : Nat} (hx : x < 4) : (rndOf x).code = x := by
  obtain rfl | rfl | rfl | rfl : x = 0 ∨ x = 1 ∨ x = 2 ∨ x = 3 := by omega
  all_goals rfl

theorem intModOf_some {x : Nat} {m : IntMod} (h : intModOf x = some m) : x = m.code := by
  obtain ⟨t, ht, rfl⟩ := Option.map_eq_some_iff.mp h
  have := intTyOf_some ht
  simp only [IntMod.code, bitN_beq_one (Nat.mod_lt _ (by decide : 0 < 2))]
  omega

theorem leaModOf_some {x : Nat} {m : LeaMod} (h : leaModOf x = some m) : x = m.code := by
  obtain ⟨t, ht, rfl⟩ := Option.map_eq_some_iff.mp h
  have := intTyOf_some ht
  simp only [LeaMod.code, BitVec.toNat_ofNat]
  omega

theorem fpModOf_some {x : Nat} {m : FpMod} (h : fpModOf x = some m) : x = m.code := by
  obtain ⟨t, ht, rfl⟩ := Option.map_eq_some_iff.mp h
  have := fpTyOf_some ht
  simp only [FpMod.code, bitN_beq_one (Nat.mod_lt _ (by decide : 0 < 2))]
  omega

theorem froundModOf_some {x : Nat} {m : FroundMod} (h : froundModOf x = some m) : x = m.code := by
  obtain ⟨t, ht, rfl⟩ := Option.map_eq_some_iff.mp h
  have := fpTyOf_some ht
  simp only [FroundMod.code, bitN_beq_one (Nat.mod_lt _ (by decide : 0 < 2)), rndOf_code (Nat.mod_lt _ (by decide : 0 < 4))]
  omega

theorem cvtModOf_some {x : Nat} {m : CvtMod} (h : cvtModOf x = some m) : x = m.code := by
  obtain ⟨t, ht, rfl⟩ := Option.map_eq_some_iff.mp h
  have := cvtFmtOf_some ht
  simp only [CvtMod.code, rndOf_code (Nat.mod_lt _ (by decide : 0 < 4))]
  omega

theorem barRefOf_some {x : Nat} {b : BarRef} (_ : x < 64) (h : barRefOf x = some b) : x = b.code := by
  unfold barRefOf at h
  split at h
  all_goals (repeat' split at h) <;> cases h <;> simp only [BarRef.code, BitVec.toNat_ofNat] <;> omega

theorem size_eq {z : Size} (h0 : fMod n % 8 = 0) (hz : sizeOf' (fMod n / 8) = some z) : fMod n = z.code * 8 := by
  have := sizeOf'_some hz
  omega

theorem sizeScope_eq {z : Size} {p : Scope} (hz : sizeOf' (fMod n / 8) = some z) (hp : scopeOf (fMod n % 8) = some p) :
    fMod n = z.code * 8 + p.code := by
  have := sizeOf'_some hz
  have := scopeOf_some hp
  omega

theorem fenceScope_eq {k : FenceKind} {p : Scope} (hk : fenceKindOf (fMod n / 8) = some k)
    (hp : scopeOf (fMod n % 8) = some p) : fMod n = k.code * 8 + p.code := by
  have := fenceKindOf_some hk
  have := scopeOf_some hp
  omega

end

/-! Faithful decoding -/

/-- Whatever `d` answers for the word `n` is a well-formed instruction, and `n` is the word of it. -/
def Faithful (n : Nat) (d : Dec) : Prop := ∀ i, d = .ok i → i.wf = true ∧ encodeNat i = some n

section
variable {n op md : Nat} {c : Bool}

theorem faithful_error (e : WordCheck) : Faithful n (.error e) := by rintro _ ⟨⟩

theorem faithful_ok {i : Instr} (hwf : i.wf = true) (henc : encodeNat i = some n) : Faithful n (.ok i) := by
  rintro _ ⟨⟩
  exact ⟨hwf, henc⟩

theorem withMod_faithful {α : Type} {v : Option α} {okv : α → Bool} {k : α → Dec}
    (h : ∀ m, v = some m → okv m = true → Faithful n (k m)) : Faithful n (withMod v okv k) := by
  unfold withMod
  split
  · split
    next hok => exact h _ rfl hok
    next => exact faithful_error _
  · exact faithful_error _

theorem zeroMod_faithful {x : Nat} {k : Dec} (h : x = 0 → Faithful n k) : Faithful n (zeroMod x k) := by
  unfold zeroMod
  split
  next h0 => exact h h0
  next => exact faithful_error _

theorem withSlot_faithful {k : Dec} (h : c = true → Faithful n k) : Faithful n (withSlot c k) := by
  unfold withSlot
  split
  next hc => exact h hc
  next => exact faithful_error _

theorem targets_some {t1 t0 : Target} (h1 : targetOf (fT1 n) = some t1) (h0 : targetOf (fT0 n) = some t0) :
    (t1.ok = true ∧ fT1 n = t1.code) ∧ t0.ok = true ∧ fT0 n = t0.code :=
  ⟨targetOf_some (Nat.mod_lt _ (by decide)) h1, targetOf_some (Nat.mod_lt _ (by decide)) h0⟩

theorem targets2_faithful {k : Target → Target → Instr} (hn : n < 2 ^ 32) (hop : fOp n = op) (hmd : fMod n = md) (hc : c = true)
    (hwf : ∀ t1 t0, (k t1 t0).wf = (c && t1.ok && t0.ok))
    (henc : ∀ t1 t0, encodeNat (k t1 t0) = some (wordD op md t1.code t0.code)) : Faithful n (targets2 n k) := by
  unfold targets2
  split
  next t1 t0 h1 h0 =>
    obtain ⟨⟨ok1, e1⟩, ok0, e0⟩ := targets_some h1 h0
    exact faithful_ok (by rw [hwf, hc, ok1, ok0]; rfl) (by rw [henc, word_d hn hop hmd e1 e0])
  next => exact faithful_error _

theorem targets1_faithful {k : Target → Instr} (hn : n < 2 ^ 32) (hop : fOp n = op) (hmd : fMod n = md) (hc : c = true)
    (hwf : ∀ t1, (k t1).wf = (c && t1.ok)) (henc : ∀ t1, encodeNat (k t1) = some (wordD op md t1.code 0)) :
    Faithful n (targets1 n k) := by
  unfold targets1
  split
  next t1 t0 h1 h0 =>
    obtain ⟨⟨ok1, e1⟩, -, e0⟩ := targets_some h1 h0
    split
    next hnone =>
      subst hnone
      exact faithful_ok (by rw [hwf, hc, ok1]; rfl) (by rw [henc, word_d hn hop hmd e1 (show fT0 n = 0 from e0)])
    next => exact faithful_error _
  next => exact faithful_error _

theorem noTargets_faithful {i : Instr} (hn : n < 2 ^ 32) (hop : fOp n = op) (hmd : fMod n = md) (hwf : i.wf = true)
    (henc : encodeNat i = some (wordD op md 0 0)) : Faithful n (noTargets n i) := by
  unfold noTargets
  split
  next t1 t0 h1 h0 =>
    obtain ⟨⟨-, e1⟩, -, e0⟩ := targets_some h1 h0
    split
    next hnone =>
      obtain ⟨rfl, rfl⟩ := hnone
      exact faithful_ok hwf (by rw [henc, word_d hn hop hmd (show fT1 n = 0 from e1) (show fT0 n = 0 from e0)])
    next => exact faithful_error _
  next => exact faithful_error _

theorem targets0_faithful {k : Target → Instr} {imm : Nat} (hn : n < 2 ^ 32) (hop : fOp n = op) (hi : fImm n = imm)
    (hwf : ∀ t0, (k t0).wf = t0.ok) (henc : ∀ t0, encodeNat (k t0) = some (wordI op imm t0.code)) :
    Faithful n (targets0 n k) := by
  unfold targets0
  split
  next t0 h0 =>
    obtain ⟨ok0, e0⟩ := targetOf_some (Nat.mod_lt _ (by decide)) h0
    exact faithful_ok (by rw [hwf, ok0]) (by rw [henc, word_i hn hop hi e0])
  next => exact faithful_error _

theorem noTarget0_faithful {i : Instr} {imm : Nat} (hn : n < 2 ^ 32) (hop : fOp n = op) (hi : fImm n = imm) (hwf : i.wf = true)
    (henc : encodeNat i = some (wordI op imm 0)) : Faithful n (noTarget0 n i) := by
  unfold noTarget0
  split
  next t0 h0 =>
    obtain ⟨-, e0⟩ := targetOf_some (Nat.mod_lt _ (by decide)) h0
    split
    next hnone =>
      subst hnone
      exact faithful_ok hwf (by rw [henc, word_i hn hop hi (show fT0 n = 0 from e0)])
    next => exact faithful_error _
  next => exact faithful_error _

/-! The rows of the opcode table (R73), form by form -/

/-- SLOT field (R64). -/
theorem slot_rows (hn : n < 2 ^ 32) : ∀ op ∈ ([0x01, 0x02, 0x03, 0x04, 0x0f, 0xf3] : List Nat), fOp n = op → Faithful
    n (decodeOp n op) := by
  intro op h hop
  simp only [List.mem_cons, List.not_mem_nil] at h
  (repeat' rcases h with rfl | h) <;>
    exact withSlot_faithful fun hc => targets2_faithful hn hop (slot_eq n) hc (fun _ _ => rfl) fun _ _ => rfl

/-- Format I (R60). -/
theorem imm_rows (hn : n < 2 ^ 32) : ∀ op ∈ ([0x05, 0x22, 0x4a, 0x4b, 0x4c, 0x4d, 0x4e, 0x4f, 0xf6] : List Nat), fOp n
    = op → Faithful n (decodeOp n op) := by
  intro op h hop
  simp only [List.mem_cons, List.not_mem_nil] at h
  (repeat' rcases h with rfl | h) <;>
    exact targets0_faithful hn hop (imm_eq n) (fun _ => rfl) fun _ => rfl

/-- The width bit of plumbing, two targets. -/
theorem wideTargets2_rows (hn : n < 2 ^ 32) : ∀ op ∈ ([0x06, 0x07, 0x08, 0x09, 0x0a, 0x0e] : List Nat), fOp n = op →
    Faithful n (decodeOp n op) := by
  intro op h hop
  simp only [List.mem_cons, List.not_mem_nil] at h
  (repeat' rcases h with rfl | h) <;>
    exact zeroMod_faithful fun h0 => targets2_faithful hn hop (flag32_eq h0) rfl (fun _ _ => rfl) fun _ _ => rfl

/-- No MOD field, two targets. -/
theorem zeroModTargets2_rows (hn : n < 2 ^ 32) : ∀ op ∈ ([0x0b, 0x0c, 0x46, 0x47, 0x48, 0x49, 0x8d, 0xd7, 0xd8, 0xde,
    0xdf, 0xe3, 0xe4, 0xe8, 0xe9, 0xea, 0xeb, 0xec, 0xee, 0xef, 0xf7] : List Nat), fOp n = op → Faithful n (decodeOp n
    op) := by
  intro op h hop
  simp only [List.mem_cons, List.not_mem_nil] at h
  (repeat' rcases h with rfl | h) <;>
    exact zeroMod_faithful fun h0 => targets2_faithful hn hop h0 rfl (fun _ _ => rfl) fun _ _ => rfl

theorem wideNoTargets_row (hn : n < 2 ^ 32) (hop : fOp n = 0x0d) : Faithful n (decodeOp n 0x0d) :=
  zeroMod_faithful fun h0 => noTargets_faithful hn hop (flag32_eq h0) rfl rfl

/-- Format B24 (R60). -/
theorem branch_rows (hn : n < 2 ^ 32) : ∀ op ∈ ([0x10, 0x11, 0x12, 0x14, 0x15, 0xe0, 0xe1] : List Nat), fOp n = op →
    Faithful n (decodeOp n op) := by
  intro op h hop
  simp only [List.mem_cons, List.not_mem_nil] at h
  (repeat' rcases h with rfl | h) <;>
    exact faithful_ok rfl (congrArg some (word_b0 hn hop))

/-- No field but the opcode. -/
theorem zeroModNoTargets_rows (hn : n < 2 ^ 32) : ∀ op ∈ ([0x13, 0x16, 0x17, 0x18, 0x19, 0xed, 0xf8, 0xf9] : List
    Nat), fOp n = op → Faithful n (decodeOp n op) := by
  intro op h hop
  simp only [List.mem_cons, List.not_mem_nil] at h
  (repeat' rcases h with rfl | h) <;>
    exact zeroMod_faithful fun h0 => noTargets_faithful hn hop h0 rfl rfl

/-- Integer MOD field (R71). -/
theorem intMod_rows (hn : n < 2 ^ 32) : ∀ op ∈ ([0x20, 0x21, 0x23, 0x24, 0x25, 0x26, 0x27, 0x28, 0x29, 0x2a, 0x2b,
    0x2c, 0x2d, 0x2e, 0x2f, 0x30, 0x31, 0x32, 0x33, 0x34, 0x35, 0x36, 0x37, 0x38, 0x39, 0x3a, 0x3b, 0x3c, 0x3d, 0x3f,
    0x40, 0x41, 0x42, 0x43, 0x44, 0x45] : List Nat), fOp n = op → Faithful n (decodeOp n op) := by
  intro op h hop
  simp only [List.mem_cons, List.not_mem_nil] at h
  (repeat' rcases h with rfl | h) <;>
    exact withMod_faithful fun _ hm hc => targets2_faithful hn hop (intModOf_some hm) hc (fun _ _ => rfl) fun _ _ => rfl

theorem leaMod_row (hn : n < 2 ^ 32) (hop : fOp n = 0x3e) : Faithful n (decodeOp n 0x3e) :=
  withMod_faithful fun _ hm hc => targets2_faithful hn hop (leaModOf_some hm) hc (fun _ _ => rfl) fun _ _ => rfl

/-- Floating-point MOD field (R71). -/
theorem fpMod_rows (hn : n < 2 ^ 32) : ∀ op ∈ ([0x50, 0x51, 0x52, 0x53, 0x54, 0x55, 0x56, 0x57, 0x58, 0x59, 0x5a,
    0x5b, 0x5c, 0x5d, 0x5e, 0x5f, 0x60, 0x61, 0x62, 0x63, 0x64, 0x65, 0x66, 0x68] : List Nat), fOp n = op → Faithful n
    (decodeOp n op) := by
  intro op h hop
  simp only [List.mem_cons, List.not_mem_nil] at h
  (repeat' rcases h with rfl | h) <;>
    exact withMod_faithful fun _ hm hc => targets2_faithful hn hop (fpModOf_some hm) hc (fun _ _ => rfl) fun _ _ => rfl

theorem froundMod_row (hn : n < 2 ^ 32) (hop : fOp n = 0x67) : Faithful n (decodeOp n 0x67) :=
  withMod_faithful fun _ hm hc => targets2_faithful hn hop (froundModOf_some hm) hc (fun _ _ => rfl) fun _ _ => rfl

/-- Conversion MOD field (R71). -/
theorem cvtMod_rows (hn : n < 2 ^ 32) : ∀ op ∈ ([0x70, 0x71, 0x72, 0x73, 0x74, 0x75, 0x76, 0x77, 0x78, 0x79, 0x7a,
    0x7b] : List Nat), fOp n = op → Faithful n (decodeOp n op) := by
  intro op h hop
  simp only [List.mem_cons, List.not_mem_nil] at h
  (repeat' rcases h with rfl | h) <;>
    exact withMod_faithful fun _ hm hc => targets2_faithful hn hop (cvtModOf_some hm) hc (fun _ _ => rfl) fun _ _ => rfl

/-- A size, two targets (R71). -/
theorem sizeTargets2_rows (hn : n < 2 ^ 32) : ∀ op ∈ ([0x80, 0x81, 0x83, 0x84, 0xa0, 0xa2, 0xa4, 0xa6, 0xa7, 0xa8,
    0xaa, 0xac, 0xae, 0xb0, 0xb2, 0xb3, 0xb4, 0xb6, 0xb7, 0xb8, 0xb9] : List Nat), fOp n = op → Faithful n (decodeOp n
    op) := by
  intro op h hop
  simp only [List.mem_cons, List.not_mem_nil] at h
  (repeat' rcases h with rfl | h) <;>
    exact zeroMod_faithful fun h0 => withMod_faithful fun _ hz hc => targets2_faithful hn hop (size_eq h0 hz) hc (fun _ _ => rfl) fun _ _ => rfl

/-- A size and a scope, two targets (R71). -/
theorem sizeScopeTargets2_rows (hn : n < 2 ^ 32) : ∀ op ∈ ([0x82, 0xa1, 0xa3, 0xa5, 0xa9, 0xab, 0xad, 0xaf, 0xb1,
    0xb5] : List Nat), fOp n = op → Faithful n (decodeOp n op) := by
  intro op h hop
  simp only [List.mem_cons, List.not_mem_nil] at h
  (repeat' rcases h with rfl | h) <;>
    exact withMod_faithful fun _ hz hc => withMod_faithful fun _ hp _ => targets2_faithful hn hop (sizeScope_eq hz hp) hc (fun _ _ => rfl) fun _ _ => rfl

/-- A size, one target (R71). -/
theorem sizeTargets1_rows (hn : n < 2 ^ 32) : ∀ op ∈ ([0x85, 0x87, 0xba, 0xbb, 0xbc, 0xbd, 0xbe, 0xbf] : List Nat),
    fOp n = op → Faithful n (decodeOp n op) := by
  intro op h hop
  simp only [List.mem_cons, List.not_mem_nil] at h
  (repeat' rcases h with rfl | h) <;>
    exact zeroMod_faithful fun h0 => withMod_faithful fun _ hz hc => targets1_faithful hn hop (size_eq h0 hz) hc (fun _ => rfl) fun _ => rfl

theorem sizeScopeTargets1_row (hn : n < 2 ^ 32) (hop : fOp n = 0x86) : Faithful n (decodeOp n 0x86) :=
  withMod_faithful fun _ hz hc => withMod_faithful fun _ hp _ => targets1_faithful hn hop (sizeScope_eq hz hp) hc (fun _ => rfl) fun _ => rfl

theorem prefetch_row (hn : n < 2 ^ 32) (hop : fOp n = 0x88) : Faithful n (decodeOp n 0x88) :=
  zeroMod_faithful fun h0 => zeroMod_faithful fun h1 => targets1_faithful hn hop (flag8_eq h0 h1) rfl (fun _ => rfl) fun _ => rfl

theorem fence_row (hn : n < 2 ^ 32) (hop : fOp n = 0x89) : Faithful n (decodeOp n 0x89) :=
  withMod_faithful fun _ hk _ => withMod_faithful fun _ hp _ => targets1_faithful hn hop (fenceScope_eq hk hp) rfl (fun _ => rfl) fun _ => rfl

/-- No MOD field, one target. -/
theorem zeroModTargets1_rows (hn : n < 2 ^ 32) : ∀ op ∈ ([0x8a, 0x8b, 0x8c, 0xd4, 0xd9, 0xdc, 0xdd, 0xe2, 0xf5] : List
    Nat), fOp n = op → Faithful n (decodeOp n op) := by
  intro op h hop
  simp only [List.mem_cons, List.not_mem_nil] at h
  (repeat' rcases h with rfl | h) <;>
    exact zeroMod_faithful fun h0 => targets1_faithful hn hop h0 rfl (fun _ => rfl) fun _ => rfl

theorem wait_rows (hn : n < 2 ^ 32) : ∀ op ∈ ([0xc0, 0xc6] : List Nat), fOp n = op → Faithful n (decodeOp n op) := by
  intro op h hop
  simp only [List.mem_cons, List.not_mem_nil] at h
  (repeat' rcases h with rfl | h) <;>
    exact withSlot_faithful fun _ => faithful_ok rfl (congrArg some (word_b20 hn hop))

theorem barRefTargets1_rows (hn : n < 2 ^ 32) : ∀ op ∈ ([0xc1, 0xc2] : List Nat), fOp n = op → Faithful n (decodeOp n
    op) := by
  intro op h hop
  simp only [List.mem_cons, List.not_mem_nil] at h
  (repeat' rcases h with rfl | h) <;>
    exact withMod_faithful fun _ hm hc => targets1_faithful hn hop (barRefOf_some (fMod_lt n) hm) hc (fun _ => rfl) fun _ => rfl

theorem barRefTargets2_row (hn : n < 2 ^ 32) (hop : fOp n = 0xc3) : Faithful n (decodeOp n 0xc3) :=
  withMod_faithful fun _ hm hc => targets2_faithful hn hop (barRefOf_some (fMod_lt n) hm) hc (fun _ _ => rfl) fun _ _ => rfl

theorem stgExpect_row (hn : n < 2 ^ 32) (hop : fOp n = 0xc4) : Faithful n (decodeOp n 0xc4) :=
  zeroMod_faithful fun h0 => targets1_faithful hn hop (flags_eq h0) rfl (fun _ => rfl) fun _ => rfl

theorem stgWait_row (hn : n < 2 ^ 32) (hop : fOp n = 0xc5) : Faithful n (decodeOp n 0xc5) :=
  withSlot_faithful fun hc => faithful_ok hc (congrArg some (word_b20 hn hop))

theorem ropeWait_row (hn : n < 2 ^ 32) (hop : fOp n = 0xc7) : Faithful n (decodeOp n 0xc7) :=
  withSlot_faithful fun hc => faithful_ok rfl (congrArg some (word_b20_zero hn hop (beq_iff_eq.mp hc)))

theorem channel_rows (hn : n < 2 ^ 32) : ∀ op ∈ ([0xd0, 0xd1, 0xd3] : List Nat), fOp n = op → Faithful n (decodeOp n
    op) := by
  intro op h hop
  simp only [List.mem_cons, List.not_mem_nil] at h
  (repeat' rcases h with rfl | h) <;>
    exact zeroMod_faithful fun h0 => targets2_faithful hn hop (channel_eq h0) rfl (fun _ _ => rfl) fun _ _ => rfl

theorem cwptr_row (hn : n < 2 ^ 32) (hop : fOp n = 0xd2) : Faithful n (decodeOp n 0xd2) :=
  zeroMod_faithful fun h0 => targets2_faithful hn hop (acqChannel_eq h0) rfl (fun _ _ => rfl) fun _ _ => rfl

theorem wideTargets1_rows (hn : n < 2 ^ 32) : ∀ op ∈ ([0xd5, 0xd6] : List Nat), fOp n = op → Faithful n (decodeOp n
    op) := by
  intro op h hop
  simp only [List.mem_cons, List.not_mem_nil] at h
  (repeat' rcases h with rfl | h) <;>
    exact zeroMod_faithful fun h0 => targets1_faithful hn hop (flag32_eq h0) rfl (fun _ => rfl) fun _ => rfl

theorem flagTargets1_rows (hn : n < 2 ^ 32) : ∀ op ∈ ([0xda, 0xdb] : List Nat), fOp n = op → Faithful n (decodeOp n
    op) := by
  intro op h hop
  simp only [List.mem_cons, List.not_mem_nil] at h
  (repeat' rcases h with rfl | h) <;>
    exact zeroMod_faithful fun h0 => targets1_faithful hn hop (flag_eq h0) rfl (fun _ => rfl) fun _ => rfl

theorem immNoTarget_rows (hn : n < 2 ^ 32) : ∀ op ∈ ([0xf0, 0xf1] : List Nat), fOp n = op → Faithful n (decodeOp n op)
    := by
  intro op h hop
  simp only [List.mem_cons, List.not_mem_nil] at h
  (repeat' rcases h with rfl | h) <;>
    exact noTarget0_faithful hn hop (imm_eq n) rfl rfl

theorem flagNoTargets_row (hn : n < 2 ^ 32) (hop : fOp n = 0xf2) : Faithful n (decodeOp n 0xf2) :=
  zeroMod_faithful fun h0 => noTargets_faithful hn hop (flag_eq h0) rfl rfl

theorem syswr_row (hn : n < 2 ^ 32) (hop : fOp n = 0xf4) : Faithful n (decodeOp n 0xf4) :=
  withSlot_faithful fun hc => targets1_faithful hn hop (slot_eq n) hc (fun _ => rfl) fun _ => rfl

theorem unassigned_rows : ∀ op ∈ ([0x00, 0x1a, 0x1b, 0x1c, 0x1d, 0x1e, 0x1f, 0x69, 0x6a, 0x6b, 0x6c, 0x6d, 0x6e, 0x6f,
    0x7c, 0x7d, 0x7e, 0x7f, 0x8e, 0x8f, 0x90, 0x91, 0x92, 0x93, 0x94, 0x95, 0x96, 0x97, 0x98, 0x99, 0x9a, 0x9b, 0x9c,
    0x9d, 0x9e, 0x9f, 0xc8, 0xc9, 0xca, 0xcb, 0xcc, 0xcd, 0xce, 0xcf, 0xe5, 0xe6, 0xe7, 0xfa, 0xfb, 0xfc, 0xfd, 0xfe,
    0xff] : List Nat), Faithful n (decodeOp n op) := by
  intro op h
  simp only [List.mem_cons, List.not_mem_nil] at h
  (repeat' rcases h with rfl | h) <;> exact faithful_error _

theorem opcode_forms : ∀ op < 256,
        op ∈ [0x01, 0x02, 0x03, 0x04, 0x0f, 0xf3] ∨
        op ∈ [0x05, 0x22, 0x4a, 0x4b, 0x4c, 0x4d, 0x4e, 0x4f, 0xf6] ∨
        op ∈ [0x06, 0x07, 0x08, 0x09, 0x0a, 0x0e] ∨
        op ∈ [0x0b, 0x0c, 0x46, 0x47, 0x48, 0x49, 0x8d, 0xd7, 0xd8, 0xde, 0xdf, 0xe3, 0xe4, 0xe8, 0xe9, 0xea,
      0xeb, 0xec, 0xee, 0xef, 0xf7] ∨
        op = 0x0d ∨
        op ∈ [0x10, 0x11, 0x12, 0x14, 0x15, 0xe0, 0xe1] ∨
        op ∈ [0x13, 0x16, 0x17, 0x18, 0x19, 0xed, 0xf8, 0xf9] ∨
        op ∈ [0x20, 0x21, 0x23, 0x24, 0x25, 0x26, 0x27, 0x28, 0x29, 0x2a, 0x2b, 0x2c, 0x2d, 0x2e, 0x2f, 0x30,
      0x31, 0x32, 0x33, 0x34, 0x35, 0x36, 0x37, 0x38, 0x39, 0x3a, 0x3b, 0x3c, 0x3d, 0x3f, 0x40, 0x41, 0x42,
      0x43, 0x44, 0x45] ∨
        op = 0x3e ∨
        op ∈ [0x50, 0x51, 0x52, 0x53, 0x54, 0x55, 0x56, 0x57, 0x58, 0x59, 0x5a, 0x5b, 0x5c, 0x5d, 0x5e, 0x5f,
      0x60, 0x61, 0x62, 0x63, 0x64, 0x65, 0x66, 0x68] ∨
        op = 0x67 ∨
        op ∈ [0x70, 0x71, 0x72, 0x73, 0x74, 0x75, 0x76, 0x77, 0x78, 0x79, 0x7a, 0x7b] ∨
        op ∈ [0x80, 0x81, 0x83, 0x84, 0xa0, 0xa2, 0xa4, 0xa6, 0xa7, 0xa8, 0xaa, 0xac, 0xae, 0xb0, 0xb2, 0xb3,
      0xb4, 0xb6, 0xb7, 0xb8, 0xb9] ∨
        op ∈ [0x82, 0xa1, 0xa3, 0xa5, 0xa9, 0xab, 0xad, 0xaf, 0xb1, 0xb5] ∨
        op ∈ [0x85, 0x87, 0xba, 0xbb, 0xbc, 0xbd, 0xbe, 0xbf] ∨
        op = 0x86 ∨
        op = 0x88 ∨
        op = 0x89 ∨
        op ∈ [0x8a, 0x8b, 0x8c, 0xd4, 0xd9, 0xdc, 0xdd, 0xe2, 0xf5] ∨
        op ∈ [0xc0, 0xc6] ∨
        op ∈ [0xc1, 0xc2] ∨
        op = 0xc3 ∨
        op = 0xc4 ∨
        op = 0xc5 ∨
        op = 0xc7 ∨
        op ∈ [0xd0, 0xd1, 0xd3] ∨
        op = 0xd2 ∨
        op ∈ [0xd5, 0xd6] ∨
        op ∈ [0xda, 0xdb] ∨
        op ∈ [0xf0, 0xf1] ∨
        op = 0xf2 ∨
        op = 0xf4 ∨
        op ∈ [0x00, 0x1a, 0x1b, 0x1c, 0x1d, 0x1e, 0x1f, 0x69, 0x6a, 0x6b, 0x6c, 0x6d, 0x6e, 0x6f, 0x7c, 0x7d,
      0x7e, 0x7f, 0x8e, 0x8f, 0x90, 0x91, 0x92, 0x93, 0x94, 0x95, 0x96, 0x97, 0x98, 0x99, 0x9a, 0x9b, 0x9c,
      0x9d, 0x9e, 0x9f, 0xc8, 0xc9, 0xca, 0xcb, 0xcc, 0xcd, 0xce, 0xcf, 0xe5, 0xe6, 0xe7, 0xfa, 0xfb, 0xfc,
      0xfd, 0xfe, 0xff] := by
  simp only [← List.contains_iff_mem, ← @beq_iff_eq Nat, ← Bool.or_eq_true]
  decide +kernel

/-- R73: every row of the opcode table is faithful. -/
theorem decodeOp_faithful (hn : n < 2 ^ 32) (hop : fOp n = op) : Faithful n (decodeOp n op) := by
  have hlt : op < 256 := hop ▸ Nat.mod_lt _ (by decide)
  rcases opcode_forms op hlt with
    h | h | h | h | h | h | h | h | h | h | h | h | h | h | h | h | h | h | h | h | h | h | h | h | h | h | h | h
    | h | h | h | h | h
  · exact slot_rows hn op h hop
  · exact imm_rows hn op h hop
  · exact wideTargets2_rows hn op h hop
  · exact zeroModTargets2_rows hn op h hop
  · exact h ▸ wideNoTargets_row hn (hop.trans h)
  · exact branch_rows hn op h hop
  · exact zeroModNoTargets_rows hn op h hop
  · exact intMod_rows hn op h hop
  · exact h ▸ leaMod_row hn (hop.trans h)
  · exact fpMod_rows hn op h hop
  · exact h ▸ froundMod_row hn (hop.trans h)
  · exact cvtMod_rows hn op h hop
  · exact sizeTargets2_rows hn op h hop
  · exact sizeScopeTargets2_rows hn op h hop
  · exact sizeTargets1_rows hn op h hop
  · exact h ▸ sizeScopeTargets1_row hn (hop.trans h)
  · exact h ▸ prefetch_row hn (hop.trans h)
  · exact h ▸ fence_row hn (hop.trans h)
  · exact zeroModTargets1_rows hn op h hop
  · exact wait_rows hn op h hop
  · exact barRefTargets1_rows hn op h hop
  · exact h ▸ barRefTargets2_row hn (hop.trans h)
  · exact h ▸ stgExpect_row hn (hop.trans h)
  · exact h ▸ stgWait_row hn (hop.trans h)
  · exact h ▸ ropeWait_row hn (hop.trans h)
  · exact channel_rows hn op h hop
  · exact h ▸ cwptr_row hn (hop.trans h)
  · exact wideTargets1_rows hn op h hop
  · exact flagTargets1_rows hn op h hop
  · exact immNoTarget_rows hn op h hop
  · exact h ▸ flagNoTargets_row hn (hop.trans h)
  · exact h ▸ syswr_row hn (hop.trans h)
  · exact unassigned_rows op h

end

theorem decode_faithful {w : Word} {i : Instr} (h : decode w = .ok i) : i.wf = true ∧ encode i = some w := by
  obtain ⟨hwf, henc⟩ := decodeOp_faithful w.isLt rfl i h
  exact ⟨hwf, by rw [encode, henc, Option.map_some, BitVec.ofNat_toNat, BitVec.setWidth_eq]⟩

/-! Encoding -/

theorem exists_encodeNat {i : Instr} (h : i.isStep = false) : ∃ n, encodeNat i = some n := by
  cases i <;> first | exact ⟨_, rfl⟩ | cases h

open Laws in
/-- The round trip of every instruction word, from the lemma of its constructor. -/
theorem roundTrip {i : Instr} (h : i.isStep = false) : RoundTrip.Statement i := by
  cases i with
  | read => exact RoundTrip.read
  | readD => exact RoundTrip.readD
  | lit => exact RoundTrip.lit
  | litD => exact RoundTrip.litD
  | const => exact RoundTrip.const
  | mov => exact RoundTrip.mov
  | gate => exact RoundTrip.gate
  | gaten => exact RoundTrip.gaten
  | sel => exact RoundTrip.sel
  | pick => exact RoundTrip.pick
  | pair => exact RoundTrip.pair
  | split => exact RoundTrip.split
  | sink => exact RoundTrip.sink
  | isnull => exact RoundTrip.isnull
  | id => exact RoundTrip.id
  | br => exact RoundTrip.br
  | brc => exact RoundTrip.brc
  | brcn => exact RoundTrip.brcn
  | brx => exact RoundTrip.brx
  | call => exact RoundTrip.call
  | callc => exact RoundTrip.callc
  | callx => exact RoundTrip.callx
  | ret => exact RoundTrip.ret
  | exit => exact RoundTrip.exit
  | exitc => exact RoundTrip.exitc
  | add => exact RoundTrip.add
  | sub => exact RoundTrip.sub
  | addi => exact RoundTrip.addi
  | mul => exact RoundTrip.mul
  | mulhi => exact RoundTrip.mulhi
  | mulw => exact RoundTrip.mulw
  | mad => exact RoundTrip.mad
  | div => exact RoundTrip.div
  | rem => exact RoundTrip.rem
  | min => exact RoundTrip.min
  | max => exact RoundTrip.max
  | abs => exact RoundTrip.abs
  | neg => exact RoundTrip.neg
  | and => exact RoundTrip.and
  | or => exact RoundTrip.or
  | xor => exact RoundTrip.xor
  | andn => exact RoundTrip.andn
  | not => exact RoundTrip.not
  | shl => exact RoundTrip.shl
  | shr => exact RoundTrip.shr
  | sar => exact RoundTrip.sar
  | rotl => exact RoundTrip.rotl
  | rotr => exact RoundTrip.rotr
  | clz => exact RoundTrip.clz
  | ctz => exact RoundTrip.ctz
  | popc => exact RoundTrip.popc
  | brev => exact RoundTrip.brev
  | bswap => exact RoundTrip.bswap
  | bfx => exact RoundTrip.bfx
  | bfi => exact RoundTrip.bfi
  | lea => exact RoundTrip.lea
  | absdiff => exact RoundTrip.absdiff
  | setpEq => exact RoundTrip.setpEq
  | setpNe => exact RoundTrip.setpNe
  | setpLt => exact RoundTrip.setpLt
  | setpLe => exact RoundTrip.setpLe
  | setpGt => exact RoundTrip.setpGt
  | setpGe => exact RoundTrip.setpGe
  | pand => exact RoundTrip.pand
  | por => exact RoundTrip.por
  | pxor => exact RoundTrip.pxor
  | pnot => exact RoundTrip.pnot
  | andi => exact RoundTrip.andi
  | shli => exact RoundTrip.shli
  | shri => exact RoundTrip.shri
  | muli => exact RoundTrip.muli
  | setpiEq => exact RoundTrip.setpiEq
  | setpiLt => exact RoundTrip.setpiLt
  | fadd => exact RoundTrip.fadd
  | fmul => exact RoundTrip.fmul
  | ffma => exact RoundTrip.ffma
  | fmin => exact RoundTrip.fmin
  | fmax => exact RoundTrip.fmax
  | fabs => exact RoundTrip.fabs
  | fneg => exact RoundTrip.fneg
  | fcopysign => exact RoundTrip.fcopysign
  | fsetpEq => exact RoundTrip.fsetpEq
  | fsetpNe => exact RoundTrip.fsetpNe
  | fsetpLt => exact RoundTrip.fsetpLt
  | fsetpLe => exact RoundTrip.fsetpLe
  | fsetpUn => exact RoundTrip.fsetpUn
  | fclass => exact RoundTrip.fclass
  | fdiv => exact RoundTrip.fdiv
  | fsqrt => exact RoundTrip.fsqrt
  | frcp => exact RoundTrip.frcp
  | frsq => exact RoundTrip.frsq
  | fex2 => exact RoundTrip.fex2
  | flg2 => exact RoundTrip.flg2
  | fsin => exact RoundTrip.fsin
  | fcos => exact RoundTrip.fcos
  | ftanh => exact RoundTrip.ftanh
  | fround => exact RoundTrip.fround
  | fdot2 => exact RoundTrip.fdot2
  | cvtF64 => exact RoundTrip.cvtF64
  | cvtF32 => exact RoundTrip.cvtF32
  | cvtF16 => exact RoundTrip.cvtF16
  | cvtBf16 => exact RoundTrip.cvtBf16
  | cvtE4m3 => exact RoundTrip.cvtE4m3
  | cvtE5m2 => exact RoundTrip.cvtE5m2
  | cvtI32 => exact RoundTrip.cvtI32
  | cvtN32 => exact RoundTrip.cvtN32
  | cvtI64 => exact RoundTrip.cvtI64
  | cvtN64 => exact RoundTrip.cvtN64
  | cvtPk => exact RoundTrip.cvtPk
  | cvtCh => exact RoundTrip.cvtCh
  | ld => exact RoundTrip.ld
  | lds => exact RoundTrip.lds
  | ldAcq => exact RoundTrip.ldAcq
  | ldd => exact RoundTrip.ldd
  | ldnc => exact RoundTrip.ldnc
  | st => exact RoundTrip.st
  | stRel => exact RoundTrip.stRel
  | stnc => exact RoundTrip.stnc
  | prefetch => exact RoundTrip.prefetch
  | fence => exact RoundTrip.fence
  | fenceEng => exact RoundTrip.fenceEng
  | cinv => exact RoundTrip.cinv
  | cwb => exact RoundTrip.cwb
  | probe => exact RoundTrip.probe
  | aadd => exact RoundTrip.aadd
  | aaddAr => exact RoundTrip.aaddAr
  | amin => exact RoundTrip.amin
  | aminAr => exact RoundTrip.aminAr
  | amax => exact RoundTrip.amax
  | amaxAr => exact RoundTrip.amaxAr
  | aminn => exact RoundTrip.aminn
  | amaxn => exact RoundTrip.amaxn
  | aand => exact RoundTrip.aand
  | aandAr => exact RoundTrip.aandAr
  | aor => exact RoundTrip.aor
  | aorAr => exact RoundTrip.aorAr
  | axor => exact RoundTrip.axor
  | axorAr => exact RoundTrip.axorAr
  | axchg => exact RoundTrip.axchg
  | axchgAr => exact RoundTrip.axchgAr
  | acas => exact RoundTrip.acas
  | acasAr => exact RoundTrip.acasAr
  | ainc => exact RoundTrip.ainc
  | adec => exact RoundTrip.adec
  | aaddb => exact RoundTrip.aaddb
  | aaddbAr => exact RoundTrip.aaddbAr
  | afadd => exact RoundTrip.afadd
  | afadd2 => exact RoundTrip.afadd2
  | afmin => exact RoundTrip.afmin
  | afmax => exact RoundTrip.afmax
  | aredAdd => exact RoundTrip.aredAdd
  | aredFadd => exact RoundTrip.aredFadd
  | aredMin => exact RoundTrip.aredMin
  | aredMax => exact RoundTrip.aredMax
  | aredOr => exact RoundTrip.aredOr
  | aredAnd => exact RoundTrip.aredAnd
  | barWait => exact RoundTrip.barWait
  | barArrive => exact RoundTrip.barArrive
  | barDrop => exact RoundTrip.barDrop
  | barInit => exact RoundTrip.barInit
  | stgExpect => exact RoundTrip.stgExpect
  | stgWait => exact RoundTrip.stgWait
  | waitp => exact RoundTrip.waitp
  | ropeWait => exact RoundTrip.ropeWait
  | cpy => exact RoundTrip.cpy
  | cpyColl => exact RoundTrip.cpyColl
  | cwptr => exact RoundTrip.cwptr
  | cchan => exact RoundTrip.cchan
  | mma => exact RoundTrip.mma
  | maccLd => exact RoundTrip.maccLd
  | maccSt => exact RoundTrip.maccSt
  | mgang => exact RoundTrip.mgang
  | mchan => exact RoundTrip.mchan
  | twin => exact RoundTrip.twin
  | tload => exact RoundTrip.tload
  | tlaunch => exact RoundTrip.tlaunch
  | tcap => exact RoundTrip.tcap
  | trst => exact RoundTrip.trst
  | tcode => exact RoundTrip.tcode
  | tval => exact RoundTrip.tval
  | abegin => exact RoundTrip.abegin
  | acommit => exact RoundTrip.acommit
  | aabort => exact RoundTrip.aabort
  | astat => exact RoundTrip.astat
  | apin => exact RoundTrip.apin
  | hspawn => exact RoundTrip.hspawn
  | hgainAdd => exact RoundTrip.hgainAdd
  | hgainMax => exact RoundTrip.hgainMax
  | hgainSet => exact RoundTrip.hgainSet
  | hdep => exact RoundTrip.hdep
  | hdone => exact RoundTrip.hdone
  | hresid => exact RoundTrip.hresid
  | hself => exact RoundTrip.hself
  | trap => exact RoundTrip.trap
  | brk => exact RoundTrip.brk
  | eret => exact RoundTrip.eret
  | sysrd => exact RoundTrip.sysrd
  | syswr => exact RoundTrip.syswr
  | cfginv => exact RoundTrip.cfginv
  | cairn => exact RoundTrip.cairn
  | tsc => exact RoundTrip.tsc
  | nop => exact RoundTrip.nop
  | halt => exact RoundTrip.halt
  | _ => cases h

theorem decode_encode {i : Instr} (hwf : i.wf = true) (h : i.isStep = false) : ∃ w, encode i = some w ∧ decode w = .ok i := by
  obtain ⟨n, hn⟩ := exists_encodeNat h
  obtain ⟨hlt, hdec⟩ := roundTrip h hwf n hn
  refine ⟨BitVec.ofNat 32 n, by rw [encode, hn]; rfl, ?_⟩
  rw [decode, BitVec.toNat_ofNat, Nat.mod_eq_of_lt hlt, hdec]

end Sys2Proof

open Sys2Proof Sys2Proof.Machine

/-- Settles O55: by the round trip of each constructor. -/
theorem encodeThenDecode : Obligations.EncodeThenDecode := by
  unfold Obligations.EncodeThenDecode
  exact fun _ => decode_encode

/-- Settles O56: by the faithfulness of every row of the opcode table. -/
theorem decodeThenEncode : Obligations.DecodeThenEncode := by
  unfold Obligations.DecodeThenEncode
  exact fun _ _ => decode_faithful

/-- Settles O60: each word is decoded by evaluation. -/
theorem decodeWords : Obligations.DecodeWords := by
  unfold Obligations.DecodeWords
  (repeat' apply And.intro) <;> rfl

end

section
/-! Every step keeps the canonical form of memory (log entry 2): the operations that `Laws/MemFrame` does not speak of, then each
instruction and machine step, then each act of the schedule. -/

namespace Sys2Proof.Machine

/-! The commit engine and serialised regions -/

@[simp] theorem LockStep.state_granted (s : State) : (LockStep.granted s).state = s := rfl
@[simp] theorem LockStep.state_waits (s : State) : (LockStep.waits s).state = s := rfl

theorem State.partSerial_mem (s : State) (c sl l : Nat) : (s.partSerial c sl l).state.mem = s.mem := by
  unfold State.partSerial
  dsimp only
  (repeat' split) <;> simp

theorem State.engineLock_wf {s : State} (c : Nat) (hm : Memory.wf s.mem = true) : Memory.wf (s.engineLock c).state.mem = true := by
  unfold State.engineLock
  dsimp only
  (repeat' split) <;> simp [hm]

theorem State.serialLockOf_wf {s : State} (c sl : Nat) (hm : Memory.wf s.mem = true) :
    Memory.wf (s.serialLockOf c sl).state.mem = true := by
  unfold State.serialLockOf
  dsimp only
  (repeat' split) <;> simp [State.partSerial_mem, hm]

theorem State.serialLock_wf {s : State} (c : Nat) (hm : Memory.wf s.mem = true) : Memory.wf (s.serialLock c).state.mem = true := by
  have key (l : List (Nat × Thread)) : ∀ a : LockStep, Memory.wf a.state.mem = true →
      Memory.wf (l.foldl (fun a e => match a with | .granted t => .granted t | .waits t => t.serialLockOf c e.1) a).state.mem = true := by
    induction l with
    | nil => exact fun _ h => h
    | cons e l ih =>
      intro a ha
      refine ih _ ?_
      cases a with
      | granted t => exact ha
      | waits t => exact State.serialLockOf_wf c e.1 ha
  exact key _ _ hm

/-! The drain of a heap -/

/-- The state of a drain that goes on has canonical memory. -/
def DrainStep.Wf : DrainStep → Prop
  | .going s _ _ => Memory.wf s.mem = true
  | .failed _ _ => True

theorem State.keepDrained_ok {s w : State} {gn : Nat} {h : HeapGrid} {die idx : Nat} {old new t : Task}
    (hk : s.keepDrained gn h die idx old new = .ok w t) (hm : Memory.wf s.mem = true) : Memory.wf w.mem = true := by
  unfold State.keepDrained at hk
  split at hk
  next s1 u hkeep =>
    cases hk
    simp [State.keepTask_ok hkeep hm]
  next hne => exact absurd hk (hne _ _)

theorem drainTask_wf {gn : Nat} {h : HeapGrid} {die idx : Nat} {r : DrainStep} (hr : r.Wf) : (drainTask gn h die idx r).Wf := by
  cases r with
  | failed d e => trivial
  | going s n bad =>
    unfold drainTask
    dsimp only
    split
    next _ t _ =>
      split
      next =>
        split
        next =>
          split
          next =>
            split
            next hk => exact State.keepDrained_ok hk (State.drainWrite_wf _ _ _ _ hr)
            next => trivial
          next => trivial
        next =>
          split
          next hk => exact State.keepDrained_ok hk hr
          next => trivial
      next => exact hr
    next => trivial

theorem drainTasks_wf {gn : Nat} {h : HeapGrid} (l : List (Nat × Nat)) :
    ∀ r : DrainStep, r.Wf → (l.foldl (fun r (d, i) => drainTask gn h d i r) r).Wf := by
  induction l with
  | nil => exact fun _ h => h
  | cons e l ih => exact fun r hr => ih _ (drainTask_wf hr)

/-! Placement -/

theorem State.tryUnits_mem (s : State) (highest : Nat) (us : List BlockedRef) : (s.tryUnits highest us).mem = s.mem := by
  induction us generalizing s with
  | nil => rfl
  | cons u us ih =>
    unfold State.tryUnits
    split
    · simp
    · simp [ih]

/-! Instructions and machine steps -/

theorem wf_of_next {r : Host.Outcome State Fault Refusal} {t u : State} (h : r = .next t) (hr : r = .next u)
    (hu : Memory.wf u.mem = true) : Memory.wf t.mem = true := by
  cases hr.symm.trans h
  exact hu

theorem of_ite_eq {α : Type} {p q : Prop} [Decidable p] {a b r : α} (h : (if p then a else b) = r) (ha : a = r → q)
    (hb : b = r → q) : q := by
  split at h
  · exact ha h
  · exact hb h

theorem wf_ite {c : Prop} [Decidable c] {a b : State} (ha : Memory.wf a.mem = true) (hb : Memory.wf b.mem = true) :
    Memory.wf (if c then a else b).mem = true := by
  split
  · exact ha
  · exact hb

theorem wf_foldl {α : Type} {f : State → α → State} (hf : ∀ s a, (f s a).mem = s.mem) {s : State} (l : List α)
    (hm : Memory.wf s.mem = true) : Memory.wf (l.foldl f s).mem = true := by
  rwa [foldl_mem f hf]

theorem immediate_wf {s : State} {t1 t0 : Target} {ops : List Token} {f : State → State} {v1 v0 : Token}
    (hf : ∀ s, (f s).mem = s.mem) (hm : Memory.wf s.mem = true) : Memory.wf (s.immediate t1 t0 ops f v1 v0).mem = true := by
  rwa [State.immediate_mem s t1 t0 ops f v1 v0 hf]

section
variable {s t : State} (hm : Memory.wf s.mem = true)
include hm

theorem execHspawn_wf {t1 t0 : Target} (h : execHspawn t1 t0 s = .next t) : Memory.wf t.mem = true :=
  of_ite_eq h (fun h => wf_of_next h rfl (by simp [wf_ite, hm])) fun h => wf_of_next h rfl (by simp [hm])

theorem execEret_wf {f : Bool} (h : execEret f s = .next t) : Memory.wf t.mem = true :=
  of_ite_eq h (fun h => wf_of_next h rfl (by simp [hm])) fun h => wf_of_next h rfl (by simp [hm])

theorem execCfginv_wf {t1 : Target} (h : execCfginv t1 s = .next t) : Memory.wf t.mem = true := by
  unfold execCfginv at h
  dsimp only at h
  split at h <;> cases h <;> simp [hm]

theorem execCairn_wf {code : BitVec 15} {t0 : Target} (h : execCairn code t0 s = .next t) : Memory.wf t.mem = true := by
  unfold execCairn at h
  dsimp only at h
  split at h
  · cases h
    simp [hm]
  · cases h
    exact immediate_wf (fun _ => rfl) hm

theorem execSyswr_wf {r : BitVec 6} {t1 : Target} (h : execSyswr r t1 s = .next t) : Memory.wf t.mem = true :=
  wf_of_next h rfl (immediate_wf (fun s => by rw [apply_ite State.mem]; simp) hm)

theorem execLineLockGranted_wf (h : execLineLockGranted s = .next t) : Memory.wf t.mem = true := by
  refine wf_of_next h rfl ?_
  have hl := State.engineLock_wf (s.arg 0) hm
  split
  next he => rwa [he] at hl
  next he =>
    rw [he] at hl
    exact State.serialLock_wf _ hl

theorem execMigrateGroup_wf (h : execMigrateGroup s = .next t) : Memory.wf t.mem = true := by
  refine wf_of_next h rfl (wf_ite ?_ hm)
  split
  · exact State.migrate_wf _ _ _ _ _ hm
  · exact hm

theorem execHeapDrain_wf (h : execHeapDrain s = .next t) : Memory.wf t.mem = true := by
  refine wf_of_next h rfl ?_
  split
  · exact hm
  next hg _ =>
    refine wf_ite hm ?_
    split
    · exact State.heapFail_wf _ _ _ _ hm
    next s1 n bad hd =>
      have h1 : Memory.wf s1.mem = true := by
        have := drainTasks_wf (gn := s.arg 0) (h := hg)
          (hg.dies.flatMap fun d => (s.die d).heap.tasks.map fun e => (d, e.1)) (.going s 0 0) hm
        rwa [hd] at this
      dsimp only
      split
      · simp [h1]
      · exact State.heapFail_wf _ _ _ _ hm

theorem execHostSnoop_wf (h : execHostSnoop s = .next t) : Memory.wf t.mem = true := by
  refine wf_of_next h rfl (wf_ite ?_ hm)
  split
  · exact hm
  · refine wf_ite ?_ ?_
    · exact wf_foldl (fun s d => by split <;> simp) _ hm
    · split <;> simp [hm]

theorem execBringUp_wf (h : execBringUp s = .next t) : Memory.wf t.mem = true := by
  refine wf_of_next h rfl (wf_ite hm (wf_ite (wf_ite ?_ hm) (wf_ite ?_ ?_)))
  · simp [hm]
  · rw [State.agentDead_mem]
    exact wf_foldl (fun _ _ => by rfl) _ hm
  · exact wf_foldl (fun _ _ => by rfl) _ hm

theorem execTscCorrection_wf (h : execTscCorrection s = .next t) : Memory.wf t.mem = true := by
  refine wf_of_next h rfl (wf_ite hm (wf_ite (wf_ite ?_ hm) (wf_ite ?_ hm)))
  · exact wf_foldl (fun _ _ => by rfl) _ hm
  · exact hm

theorem execPlaceUnit_wf (h : execPlaceUnit s = .next t) : Memory.wf t.mem = true :=
  wf_of_next h rfl (wf_ite hm (by rwa [State.tryUnits_mem]))

theorem execSaveStart_wf (h : execSaveStart s = .next t) : Memory.wf t.mem = true := by
  refine wf_of_next h rfl ?_
  split
  · exact hm
  · refine wf_ite hm (wf_ite ?_ ?_)
    · simp [hm]
    · exact wf_foldl (fun s sl => by simp) _ hm

theorem execConfigStart_wf (h : execConfigStart s = .next t) : Memory.wf t.mem = true := by
  refine wf_of_next h rfl ?_
  split
  · split
    · exact hm
    · exact wf_ite (by simp [hm]) hm
  · exact hm

/-- Every instruction and every machine step keeps the canonical form of memory. -/
theorem exec_wf {i : Instr} (h : exec i s = .next t) : Memory.wf t.mem = true := by
  cases i
  case hspawn => exact execHspawn_wf hm h
  case eret f => exact execEret_wf hm (f := f) h
  case cfginv => exact execCfginv_wf hm h
  case cairn => exact execCairn_wf hm h
  case syswr => exact execSyswr_wf hm h
  case lineLockGranted => exact execLineLockGranted_wf hm h
  case migrateGroup => exact execMigrateGroup_wf hm h
  case heapDrain => exact execHeapDrain_wf hm h
  case hostSnoop => exact execHostSnoop_wf hm h
  case bringUp => exact execBringUp_wf hm h
  case tscCorrection => exact execTscCorrection_wf hm h
  case placeUnit => exact execPlaceUnit_wf hm h
  case saveStart => exact execSaveStart_wf hm h
  case configStart => exact execConfigStart_wf hm h
  case barArrive | barDrop | stgExpect => exact wf_of_next h rfl (immediate_wf (fun s => by simp) hm)
  case barInit => exact wf_of_next h rfl (immediate_wf (fun s => by split <;> simp) hm)
  case aabort | apin => exact wf_of_next h rfl (immediate_wf (fun s => rfl) hm)
  case agentBroughtBackUp | channelWaitTimeout | dieModeChangeDone | dieTlbHit | granuleFlush | gridRetire | groupRestore |
      heartbeatMiss | linkFail | mgmtRegisterWrite | peerTimeout | serialTokenGrant | timeSliceExpiry =>
    refine wf_of_next h rfl ?_
    split <;> simp [hm, wf_ite]
  case binHeaderReturn | binSeal | cfginvPerform | counterClear | forcedClosure | heapLend | heapReply | scratchSavePass |
      settlePopStop =>
    refine wf_of_next h rfl ?_
    (repeat' split) <;> simp [hm]
  all_goals
    refine wf_of_next h rfl ?_
    simp [hm, wf_ite]

end

/-! Acts of the schedule -/

theorem State.fire_wf {s t : State} (hm : Memory.wf s.mem = true) {c sl k : Nat} (h : s.fire c sl k = .next t) :
    Memory.wf t.mem = true := by
  unfold State.fire at h
  split at h
  · split at h
    · cases h
      exact hm
    · dsimp only at h
      split at h
      · exact exec_wf (s := { s with cur := ⟨c, sl, k⟩ }) hm h
      · cases h
  · cases h
    exact hm

theorem State.powerCycle_wf (s : State) : Memory.wf s.powerCycle.mem = true :=
  State.reset_wf

theorem State.act_wf {s t : State} (hm : Memory.wf s.mem = true) {k : Choice} (h : s.act k = .next t) : Memory.wf t.mem = true := by
  cases k
  case fire => exact State.fire_wf hm h
  case event i args =>
    unfold State.act at h
    dsimp only at h
    split at h
    · exact exec_wf (s := { s with args := args }) hm h
    · cases h
      exact hm
  case powerCycle => exact wf_of_next h rfl (State.powerCycle_wf s)
  all_goals
    refine wf_of_next h rfl ?_
    simp [hm, wf_ite]

theorem State.nextChoice_mem (s : State) : s.nextChoice.2.mem = s.mem := by
  unfold State.nextChoice
  (repeat' split) <;> rfl

theorem step_wf {s t : State} (hm : Memory.wf s.mem = true) (h : step s = .next t) : Memory.wf t.mem = true := by
  unfold step at h
  split at h
  · cases h
  · exact State.act_wf (by rwa [State.nextChoice_mem]) h

end Sys2Proof.Machine

open Sys2Proof Sys2Proof.Machine

/-- Settles O57: by what each instruction, machine step and act of the schedule does to memory. -/
theorem stepsKeepMemoryForm : Obligations.StepsKeepMemoryForm := by
  unfold Obligations.StepsKeepMemoryForm
  exact fun _ _ => step_wf

/-- Settles O58: every part is empty at reset, or has one value by evaluation. -/
theorem resetFacts : Obligations.ResetFacts := by
  unfold Obligations.ResetFacts
  refine ⟨State.reset_wf, rfl, rfl, rfl, rfl, rfl, rfl, fun a => rfl, fun c => ⟨rfl, rfl, rfl, rfl⟩, fun c k => ⟨rfl, rfl⟩,
    fun c sl => ⟨rfl, rfl, rfl, fun n => rfl⟩, fun q => ⟨rfl, rfl, rfl⟩, fun n => rfl, fun d => ⟨rfl, rfl, rfl, rfl⟩⟩

/-- Settles O59: the head of `urgent` is the next choice, and an act of a firing runs what its word decodes to. -/
theorem stepRunsDecoded : Obligations.StepRunsDecoded := by
  unfold Obligations.StepRunsDecoded
  intro s
  refine ⟨fun hd => by rw [step, if_pos hd], fun hd => ?_⟩
  have hup : step s = s.stepOnce := by rw [step, if_neg (by simp [hd])]
  rw [hup, State.stepOnce, State.nextChoice]
  refine ⟨?fire, ?event⟩
  case fire =>
    intro c sl k ks hs u
    rw [hs]
    refine ⟨fun hr => ?_, fun x w i hr hx hw hdec => ?_⟩
    · show u.fire c sl k = .next u
      rw [State.fire, if_neg (by simp [hr])]
    · show u.fire c sl k = _
      rw [State.fire, if_pos hr, hx]
      simp only [Block.instr?, hw]
      simp [hdec]
  case event =>
    intro i args ks hs hi
    rw [hs]
    show (if i.isStep then _ else _) = _
    rw [if_pos hi]

end

section
/-! Integer lanes (R156-R160): numbers of a lane width, the packing of lanes, and the shared operations of the lane instructions;
with them the arithmetic, bitwise and comparison instructions. -/

namespace Sys2Proof.Machine

/-! The low bits of a number -/

theorem natCast_lowBits (w : Nat) (x : Int) : (lowBits w x : Int) = x % 2 ^ w :=
  Int.toNat_of_nonneg (Int.emod_nonneg _ (Int.ne_of_gt (Int.pow_pos (by decide))))

theorem lowBits_lt (w : Nat) (x : Int) : lowBits w x < 2 ^ w := by
  have := Int.emod_lt_of_pos x (Int.pow_pos (n := 2) (m := w) (by decide))
  rw [← natCast_lowBits] at this
  exact_mod_cast this

theorem lowBits_natCast (w n : Nat) : lowBits w (n : Int) = n % 2 ^ w := by
  have := natCast_lowBits w n
  exact_mod_cast this

theorem lowBits_eq_of_lt {w n : Nat} (h : n < 2 ^ w) : lowBits w (n : Int) = n := by
  rw [lowBits_natCast, Nat.mod_eq_of_lt h]

theorem lowBits_congr {w : Nat} {x y : Int} (h : x % 2 ^ w = y % 2 ^ w) : lowBits w x = lowBits w y := by
  rw [lowBits, h, lowBits]

theorem sextNat_emod {w x : Nat} : sextNat w x % 2 ^ w = (x % 2 ^ w : Nat) := by
  have hw : (2 : Int) ^ w = (2 ^ w : Nat) := by norm_cast
  simp only [sextNat]
  split
  · rw [hw, ← Int.natCast_emod, Nat.mod_mod]
  · rw [Int.sub_emod_right, hw, ← Int.natCast_emod, Nat.mod_mod]

theorem lowBits_sextNat {w x : Nat} (h : x < 2 ^ w) : lowBits w (sextNat w x) = x := by
  rw [lowBits, sextNat_emod, Int.toNat_natCast, Nat.mod_eq_of_lt h]

theorem lowBits_compl (w : Nat) (x : Int) : lowBits w (-1 - x) = 2 ^ w - (lowBits w x + 1) := by
  have hlt := lowBits_lt w x
  have hM : ((2 ^ w : Nat) : Int) = 2 ^ w := by norm_cast
  have hx : x % 2 ^ w + 2 ^ w * (x / 2 ^ w) = x := Int.emod_add_mul_ediv x _
  rw [← natCast_lowBits] at hx
  have hsplit : -1 - x = ((2 ^ w - (lowBits w x + 1) : Nat) : Int) + 2 ^ w * (-1 - x / 2 ^ w) := by
    rw [Int.ofNat_sub hlt, hM, Int.mul_sub]
    omega
  rw [lowBits, hsplit, Int.add_mul_emod_self_left, ← hM, ← Int.natCast_emod, Int.toNat_natCast, Nat.mod_eq_of_lt (by omega)]

/-! Packed lanes (R156, R157) -/

variable {ty : IntTy}

theorem laneW_pos (ty : IntTy) : 0 < laneW ty := by cases ty <;> decide

theorem laneW_le (ty : IntTy) : laneW ty ≤ 64 := by cases ty <;> decide

theorem lanePat_lt (ty : IntTy) (v k : Nat) : lanePat ty v k < 2 ^ laneW ty := Nat.mod_lt _ (Nat.two_pow_pos _)

theorem patOf_laneVal (ty : IntTy) (v k : Nat) : patOf ty (laneVal ty v k) = lanePat ty v k := by
  unfold patOf laneVal
  split
  · exact lowBits_sextNat (lanePat_lt ..)
  · exact lowBits_eq_of_lt (lanePat_lt ..)

theorem patOf_compl_laneVal (ty : IntTy) (v k : Nat) :
    patOf ty (-1 - laneVal ty v k) = 2 ^ laneW ty - (lanePat ty v k + 1) := by
  rw [← patOf_laneVal, patOf, lowBits_compl, patOf]

theorem packLanes_lt (ty : IntTy) (f : Nat → Int) : packLanes ty f < 2 ^ 64 := by
  cases ty <;> simp only [packLanes, lowBits] <;> omega

theorem lanePat_packLanes {f : Nat → Int} {k : Nat} (hk : k < laneCount ty) :
    lanePat ty (packLanes ty f) k = lowBits (laneW ty) (f k) := by
  cases ty <;> simp only [laneCount] at hk <;> simp only [lanePat, packLanes, laneW, lowBits, sextNat]
  all_goals have cases_k : k = 0 ∨ k = 1 ∨ k = 2 ∨ k = 3 := by omega
  all_goals rcases cases_k with rfl | rfl | rfl | rfl <;> omega

/-- A packing depends on the low bits of its lanes alone. -/
theorem packLanes_congr {f g : Nat → Int} (h : ∀ k, k < laneCount ty → lowBits (laneW ty) (f k) = lowBits (laneW ty) (g k)) :
    packLanes ty f = packLanes ty g := by
  cases ty <;> simp only [laneCount, laneW] at h <;> simp only [packLanes, h 0 (by decide)]
  all_goals rw [h 1 (by decide), h 2 (by decide), h 3 (by decide)]

theorem IsLanes.packed {sat : Bool} {f : Nat → Int} {n : Nat} (g : Option (Nat × DWord))
    (h : n = packLanes ty fun k => saturate sat ty (f k)) : IsLanes ty sat f { dword n with tag := g } := by
  have hlt : n < 2 ^ 64 := h ▸ packLanes_lt ty _
  obtain ⟨hnull, hpair, hnat⟩ := isDword_dword_tag n g
  exact ⟨hnull, hpair, by rw [hnat, Nat.mod_eq_of_lt hlt, h]⟩

/-- The lanes of a packing, and that it is whole. -/
theorem IsPacked.packed {f : Nat → Int} {n : Nat} (g : Option (Nat × DWord)) (h : n = packLanes ty f) :
    IsPacked ty { dword n with tag := g } ∧
      ∀ k, k < laneCount ty → Token.pat { dword n with tag := g } ty k = lowBits (laneW ty) (f k) := by
  have hnat : Token.nat { dword n with tag := g } = n := by
    rw [(isDword_dword_tag n g).2.2, Nat.mod_eq_of_lt (h ▸ packLanes_lt ty f)]
  have hlane (k : Nat) (hk : k < laneCount ty) : Token.pat { dword n with tag := g } ty k = lowBits (laneW ty) (f k) := by
    rw [Token.pat, hnat, h, lanePat_packLanes hk]
  refine ⟨IsLanes.packed g (h.trans (packLanes_congr fun k hk => ?_)), hlane⟩
  rw [saturate, if_neg Bool.false_ne_true, hlane k hk, lowBits_eq_of_lt (lowBits_lt ..)]

/-! The shared operations (R159) -/

section
variable {s : State} {x : Inst} {a b c : Token} {i : Instr} {m : IntMod} {t1 t0 : Target} {busy lat : Nat} {P : Token → Prop}

theorem State.hasB.opTok {z : Bool} (h : s.hasB z b) : zeroB z (s.opTok .b) = b := h.1

theorem State.intOp1_yields (hx : s.live x) (ha : s.has .a a) (hg : s.guardTrue = true) {f : Int → Int}
    (hi : exec i s = .next (s.intOp1 m t1 t0 f))
    (hp : P (dword (packLanes m.ty fun k => saturate m.sat m.ty (f (a.lane m.ty k))))) : s.Yields i 1 1 t1 t0 P := by
  refine ⟨_, _, hi, State.compute_emitted hx (by simp [ha.opTok, ha.2]) hg 1 1 t1 t0 _, ?_⟩
  rwa [ha.opTok]

theorem State.intOp2_yields (hx : s.live x) (ha : s.has .a a) (hb : s.hasB m.z b) (hg : s.guardTrue = true)
    {f : Int → Int → Nat → Int} {tag : Token → Token → Option (Nat × DWord)}
    (hi : exec i s = .next (s.intOp2 busy lat m t1 t0 f tag))
    (hp : ∀ g, P { dword (packLanes m.ty fun k =>
      saturate m.sat m.ty (f (a.lane m.ty k) (b.laneInv m.invb m.ty k) (b.patInv m.invb m.ty k))) with tag := g }) :
    s.Yields i busy lat t1 t0 P := by
  refine ⟨_, _, hi, State.computeTag_emitted hx (by simp [ha.opTok, hb.opTok, ha.2, hb.2]) hg busy lat t1 t0 _ _ rfl, ?_⟩
  rw [ha.opTok, hb.opTok]
  exact hp _

theorem State.computeAB_yields (hx : s.live x) (ha : s.has .a a) (hb : s.has .b b) (hg : s.guardTrue = true)
    {v : Token → Token → Token} (hi : exec i s = .next (s.compute busy lat t1 t0 [s.opTok .a, s.opTok .b] (v (s.opTok .a) (s.opTok .b))))
    (hp : P (v a b)) : s.Yields i busy lat t1 t0 P := by
  refine ⟨_, _, hi, State.compute_emitted hx (by simp [ha.opTok, hb.opTok, ha.2, hb.2]) hg busy lat t1 t0 _, ?_⟩
  rwa [ha.opTok, hb.opTok]

theorem State.computeABC_yields (hx : s.live x) (ha : s.has .a a) (hb : s.has .b b) (hc : s.has .c c)
    {v : Token → Token → Token → Token} (hi : exec i s =
      .next (s.computeC busy lat t1 t0 [s.opTok .a, s.opTok .b, s.opTok .c] (v (s.opTok .a) (s.opTok .b) (s.opTok .c))))
    (hp : P (v a b c)) : s.Yields i busy lat t1 t0 P := by
  refine ⟨_, _, hi, State.computeC_emitted hx (by simp [ha.opTok, hb.opTok, hc.opTok, ha.2, hb.2, hc.2]) busy lat t1 t0 _, ?_⟩
  rwa [ha.opTok, hb.opTok, hc.opTok]

theorem State.predOp_yields (hx : s.live x) (ha : s.has .a a) (hb : s.has .b b) (hg : s.guardTrue = true)
    {f : Bool → Bool → Bool} (hi : exec i s = .next (s.predOp t1 t0 f)) {q : Prop} (hq : f a.pred b.pred = true ↔ q) :
    s.Yields i 1 1 t1 t0 (IsPred q) :=
  State.computeAB_yields (v := fun a b => predTok (f a.pred b.pred)) hx ha hb hg hi (isPred_predTok hq)

/-- R164, R340: a comparison emits the same predicate with and without a tag on one of its operands; with one it records a
constraint besides, which pins at most. -/
theorem State.compare_emitted (hx : s.live x) (ha : s.has .a a) (hb : s.hasB m.z b) (hg : s.guardTrue = true) (r : Rel) :
    let p := predTok (relHolds r (a.lane m.ty 0) (b.lane m.ty 0))
    Emitted s (s.compare m r t1 t0) 1 1 t1 t0 p p := by
  have hops : ∀ v ∈ [a, b], v.null = false := by simp [ha.2, hb.2]
  have hruns := State.runs_of hx hops
  simp only [State.compare, ha.opTok, hb.opTok, hruns, hg, Bool.and_self, if_true]
  split
  · exact State.emit_emitted ((State.pin_pinned s _).trans (State.constrain_pinned _ _)) hx 1 1 t1 t0 _ _
  · exact State.compute_emitted hx hops hg 1 1 t1 t0 _

theorem State.compare_yields (hx : s.live x) (ha : s.has .a a) (hb : s.hasB m.z b) (hg : s.guardTrue = true) {r : Rel}
    {q : Prop} (hi : exec i s = .next (s.compare m r t1 t0)) (hq : relHolds r (a.lane m.ty 0) (b.lane m.ty 0) = true ↔ q) :
    s.Yields i 1 1 t1 t0 (IsPred q) :=
  ⟨_, _, hi, State.compare_emitted hx ha hb hg r, isPred_predTok hq⟩

end

/-! The results of the table (R160) -/

theorem divTime_eq (m : IntMod) :
    divTime m = if m.ty = .i32 ∨ m.ty = .n32 ∨ m.ty = .i16x4 ∨ m.ty = .n16x4 then 12 else 20 := by
  unfold divTime
  cases m.ty <;> rfl

theorem Token.pred_iff (v : Token) : v.pred = true ↔ v.nat % 2 = 1 := by
  simp [Token.pred, Token.nat, BitVec.getLsbD, Nat.testBit_zero]

/-- R157: what the extension of a packed 32-bit or signed lane reads as. -/
theorem packLanes_extension (f : Nat → Int) {k : Nat} (hk : k < laneCount ty) :
    (ty = .i32 → sextNat 64 (packLanes ty f) = sextNat 32 (lowBits 32 (f 0))) ∧
    (ty = .n32 → packLanes ty f = lowBits 32 (f 0)) ∧
    (laneSigned ty = true → laneVal ty (packLanes ty f) k = sextNat (laneW ty) (lowBits (laneW ty) (f k))) := by
  refine ⟨?_, ?_, fun hs => ?_⟩
  · rintro rfl
    simp only [packLanes, sextNat, lowBits]
    omega
  · rintro rfl
    rfl
  · rw [laneVal, if_pos hs, lanePat_packLanes hk]

end Sys2Proof.Machine

open Sys2Proof Sys2Proof.Machine

/-- Settles O1: each instruction is an equation of `exec` with one of the shared operations of lanes. -/
theorem laneArithmetic : Obligations.LaneArithmetic := by
  unfold Obligations.LaneArithmetic
  refine ⟨?packing, ?two, ?one, ?division⟩
  case packing => exact fun ty f k hk => ⟨lanePat_packLanes hk, packLanes_lt ty f, packLanes_extension f hk⟩
  case two =>
    intro s x m t1 t0 a b hx ha hb hg r
    refine ⟨?_, ?_, ?_, ?_, ?min, ?max⟩
    case min =>
      refine State.intOp2_yields hx ha hb hg rfl fun g => IsLanes.packed g ?_
      simp only [Int.min_def]
    case max =>
      refine State.intOp2_yields hx ha hb hg rfl fun g => IsLanes.packed g ?_
      simp only [Int.max_def]
    all_goals exact State.intOp2_yields hx ha hb hg rfl fun g => IsLanes.packed g rfl
  case one =>
    intro s x m t1 t0 a b hx ha hg
    refine ⟨State.intOp1_yields hx ha hg rfl (IsLanes.packed none ?_), State.intOp1_yields hx ha hg rfl (IsLanes.packed none rfl),
      State.intOp1_yields hx ha hg rfl (IsLanes.packed none rfl), fun hb => ?_⟩
    · congr 1
      funext k
      congr 1
      split <;> omega
    · refine State.computeAB_yields (v := fun a b => dword (packLanes (naturalTy m.ty) fun k =>
        ((laneVal m.ty a.nat k - laneVal m.ty b.nat k).natAbs : Int))) hx ha hb hg rfl (IsLanes.packed none ?_)
      congr 1
      funext k
      rw [saturate, if_neg Bool.false_ne_true]
      simp only [Token.lane]
      (repeat' split) <;> omega
  case division =>
    intro s x m t1 t0 a b hx ha hb hg n x y
    simp only [n, ← divTime_eq]
    exact ⟨State.intOp2_yields hx ha hb hg rfl fun g => IsLanes.packed g rfl,
      State.intOp2_yields hx ha hb hg rfl fun g => IsLanes.packed g rfl⟩

/-- Settles O4: each comparison is an equation of `exec` with the shared one. -/
theorem comparisons : Obligations.Comparisons := by
  unfold Obligations.Comparisons
  refine ⟨?relations, ?predicates⟩
  case relations =>
    intro s x m t1 t0 a b hx ha hb hg r
    exact ⟨State.compare_yields hx ha hb hg (r := .eq) rfl beq_iff_eq,
      State.compare_yields hx ha hb hg (r := .ne) rfl bne_iff_ne,
      State.compare_yields hx ha hb hg (r := .lt) rfl decide_eq_true_iff,
      State.compare_yields hx ha hb hg (r := .le) rfl decide_eq_true_iff,
      State.compare_yields hx ha hb hg (r := .gt) rfl decide_eq_true_iff,
      State.compare_yields hx ha hb hg (r := .ge) rfl decide_eq_true_iff⟩
  case predicates =>
    intro s x t1 t0 a b hx ha hg p q
    have hp : a.pred = true ↔ p := a.pred_iff
    have hq : b.pred = true ↔ q := b.pred_iff
    refine ⟨?_, fun hb => ⟨State.predOp_yields hx ha hb hg rfl ?_, State.predOp_yields hx ha hb hg rfl ?_,
      State.predOp_yields hx ha hb hg rfl ?_⟩⟩
    · refine ⟨_, _, rfl, State.compute_emitted hx (by simp [ha.opTok, ha.2]) hg 1 1 t1 t0 _, isPred_predTok ?_⟩
      rw [ha.opTok, ← hp]
      cases a.pred <;> simp
    all_goals
      rw [← hp, ← hq]
      cases a.pred <;> cases b.pred <;> simp

end

section
/-! The bitwise operations, the counts and reversals, the shifts and rotations, and the fields of chapter 8, bit by bit (R160-R163). -/

namespace Sys2Proof.Machine

variable {ty : IntTy}

/-! Bits of a lane -/

theorem patInv_lt (b : Token) (inv : Bool) (ty : IntTy) (k : Nat) : b.patInv inv ty k < 2 ^ laneW ty := lanePat_lt ..

theorem pat_lt (a : Token) (ty : IntTy) (k : Nat) : a.pat ty k < 2 ^ laneW ty := lanePat_lt ..

/-- A lane whose exact result is a pattern of the lane width holds that pattern. -/
theorem IsPacked.pat_eq {v : Token} {e : Int} {k p : Nat} (hv : v.pat ty k = lowBits (laneW ty) e) (he : e = (p : Int))
    (hp : p < 2 ^ laneW ty) : v.pat ty k = p := by
  rw [hv, he, lowBits_eq_of_lt hp]

/-! Leading and trailing zeros -/

theorem lowestBit_spec (p : Nat) : ∀ fuel i, (∀ j < i, p.testBit j = false) →
    lowestBit p fuel i ≤ i + fuel ∧ (∀ j < lowestBit p fuel i, p.testBit j = false) ∧
      (lowestBit p fuel i < i + fuel → p.testBit (lowestBit p fuel i) = true) := by
  intro fuel
  induction fuel with
  | zero => exact fun i h => ⟨Nat.le_refl _, h, fun hlt => absurd hlt (Nat.lt_irrefl _)⟩
  | succ fuel ih =>
    intro i h
    unfold lowestBit
    split
    next hb => exact ⟨by omega, h, fun _ => hb⟩
    next hb =>
      obtain ⟨hle, hzero, hone⟩ := ih (i + 1) fun j hj => by
        rcases Nat.lt_succ_iff_lt_or_eq.mp hj with hj | rfl
        · exact h j hj
        · simpa using hb
      exact ⟨by omega, hzero, fun hlt => hone (by omega)⟩

/-- R160, `ctz`. -/
theorem ctz_spec {w p : Nat} : let n := lowestBit p w 0
    n ≤ w ∧ p % 2 ^ n = 0 ∧ (n < w → p.testBit n = true) := by
  obtain ⟨hle, hzero, hone⟩ := lowestBit_spec p w 0 (by simp)
  refine ⟨by omega, Nat.eq_of_testBit_eq fun i => ?_, fun h => hone (by omega)⟩
  rw [Nat.testBit_mod_two_pow, Nat.zero_testBit]
  by_cases h : i < lowestBit p w 0
  · simp [hzero i h]
  · simp [h]

/-- R160, `clz`. -/
theorem clz_spec {w p : Nat} (hp : p < 2 ^ w) : let n := if p = 0 then w else w - (Nat.log2 p + 1)
    n ≤ w ∧ p < 2 ^ (w - n) ∧ (n < w → p.testBit (w - 1 - n) = true) := by
  by_cases h : p = 0
  · simp [h]
  · have hlog : Nat.log2 p < w := (Nat.log2_lt h).mpr hp
    simp only [h, if_false]
    refine ⟨by omega, ?_, fun _ => ?_⟩
    · rw [show w - (w - (p.log2 + 1)) = p.log2 + 1 by omega]
      exact Nat.lt_log2_self
    · rw [show w - 1 - (w - (p.log2 + 1)) = p.log2 by omega]
      exact Nat.testBit_log2 h

/-! Reversals -/

/-- R160, `brev`: after `m` steps the lowest `m` bits stand, reversed, at the top. -/
theorem brev_steps (p w : Nat) : ∀ m ≤ w,
    let r := (List.range m).foldl (fun a i => if p.testBit i then a + 2 ^ (w - 1 - i) else a) 0
    (∃ q, r = 2 ^ (w - m) * q ∧ q < 2 ^ m) ∧ ∀ i < w, r.testBit i = (decide (w - m ≤ i) && p.testBit (w - 1 - i)) := by
  intro m
  induction m with
  | zero =>
    intro _
    refine ⟨⟨0, by simp⟩, fun i hi => ?_⟩
    show Nat.testBit 0 i = _
    rw [Nat.zero_testBit, decide_eq_false (by omega), Bool.false_and]
  | succ m ih =>
    intro hm
    obtain ⟨⟨q, hq, hlt⟩, hbits⟩ := ih (by omega)
    simp only [List.range_succ, List.foldl_append, List.foldl_cons, List.foldl_nil] at hq hbits ⊢
    generalize (List.range m).foldl (fun a i => if p.testBit i then a + 2 ^ (w - 1 - i) else a) 0 = r at hq hbits ⊢
    have hpow : 2 ^ (w - m) = 2 ^ (w - (m + 1)) * 2 := by
      rw [← Nat.pow_succ, Nat.succ_eq_add_one, show w - (m + 1) + 1 = w - m by omega]
    have hk : w - 1 - m = w - (m + 1) := by omega
    split
    next hb =>
      refine ⟨⟨2 * q + 1, by rw [hq, hpow, hk, Nat.mul_assoc, Nat.mul_add, Nat.mul_one], by rw [Nat.pow_succ]; omega⟩, fun i hi => ?_⟩
      have hor : r + 2 ^ (w - 1 - m) = r ||| 2 ^ (w - 1 - m) := by
        rw [hq]
        exact Nat.two_pow_add_eq_or_of_lt (Nat.pow_lt_pow_right (by decide) (by omega)) q
      rw [hor, Nat.testBit_or, hbits i hi, Nat.testBit_two_pow]
      by_cases hi' : w - 1 - m = i
      · have : w - 1 - i = m := by omega
        simp [hi', this, hb, show w - (m + 1) ≤ i by omega]
      · simp [hi', show w - (m + 1) ≤ i ↔ w - m ≤ i by omega]
    next hb =>
      refine ⟨⟨2 * q, by rw [hq, hpow, Nat.mul_assoc], by rw [Nat.pow_succ]; omega⟩, fun i hi => ?_⟩
      rw [hbits i hi]
      by_cases hi' : w - 1 - m = i
      · have : w - 1 - i = m := by omega
        simp [this, hb]
      · simp [show w - (m + 1) ≤ i ↔ w - m ≤ i by omega]

theorem brev_spec (p w : Nat) : let r := (List.range w).foldl (fun a i => if p.testBit i then a + 2 ^ (w - 1 - i) else a) 0
    r < 2 ^ w ∧ ∀ i < w, r.testBit i = p.testBit (w - 1 - i) := by
  obtain ⟨⟨q, hq, hlt⟩, hbits⟩ := brev_steps p w w (Nat.le_refl w)
  refine ⟨?_, fun i hi => ?_⟩
  · rw [hq]
    simpa using hlt
  · rw [hbits i hi]
    simp

/-- R160, `bswap`, of the bytes of a lane. -/
theorem bswap_bytes (ty : IntTy) {b : Nat → Nat} (hb : ∀ j, b j < 256) :
    let r := (List.range (laneW ty / 8)).foldl (fun a j => a + b j * 2 ^ (laneW ty - 8 - 8 * j)) 0
    r < 2 ^ laneW ty ∧ ∀ j < laneW ty / 8, r / 2 ^ (8 * j) % 256 = b (laneW ty / 8 - 1 - j) := by
  have h0 := hb 0
  have h1 := hb 1
  have h2 := hb 2
  have h3 := hb 3
  have h4 := hb 4
  have h5 := hb 5
  have h6 := hb 6
  have h7 := hb 7
  cases ty <;> simp only [laneW, Nat.reduceDiv, List.range, List.range.loop, List.foldl_cons, List.foldl_nil]
  all_goals
    refine ⟨by omega, fun j hj => ?_⟩
    have cases_j : j = 0 ∨ j = 1 ∨ j = 2 ∨ j = 3 ∨ j = 4 ∨ j = 5 ∨ j = 6 ∨ j = 7 := by omega
    rcases cases_j with rfl | rfl | rfl | rfl | rfl | rfl | rfl | rfl <;> simp only [Nat.reduceSub] <;> omega

/-! The operations bit by bit -/

section
variable {s : State} {x : Inst} {a b : Token} {i : Instr} {m : IntMod} {t1 t0 : Target} {P : Token → Prop}

/-- R160: an operation on port a whose exact result in each lane is a pattern of the lane width. -/
theorem State.patOp1_yields (hx : s.live x) (ha : s.has .a a) (hg : s.guardTrue = true) (hs : m.sat = false) {f : Int → Int}
    (hi : exec i s = .next (s.intOp1 m t1 t0 f)) {g : Nat → Nat} (hf : ∀ k, f (a.lane m.ty k) = (g (a.pat m.ty k) : Int))
    (hlt : ∀ k, g (a.pat m.ty k) < 2 ^ laneW m.ty)
    (hp : ∀ v, IsPacked m.ty v → (∀ k, k < laneCount m.ty → v.pat m.ty k = g (a.pat m.ty k)) → P v) : s.Yields i 1 1 t1 t0 P := by
  refine State.intOp1_yields hx ha hg hi ?_
  simp only [saturate, hs, Bool.false_eq_true, if_false]
  obtain ⟨hpack, hlane⟩ := IsPacked.packed (ty := m.ty) (f := fun k => f (a.lane m.ty k)) none rfl
  exact hp _ hpack fun k hk => IsPacked.pat_eq (hlane k hk) (hf k) (hlt k)

/-- R160: an operation on ports a and b whose exact result in each lane is a pattern of the lane width. -/
theorem State.patOp2_yields (hx : s.live x) (ha : s.has .a a) (hb : s.hasB m.z b) (hg : s.guardTrue = true) (hs : m.sat = false)
    {f : Int → Int → Nat → Int} (hi : exec i s = .next (s.intOp2 1 1 m t1 t0 f noTag)) {g : Nat → Nat → Nat}
    (hf : ∀ k, f (a.lane m.ty k) (b.laneInv m.invb m.ty k) (b.patInv m.invb m.ty k) = (g (a.pat m.ty k) (b.patInv m.invb m.ty k) : Int))
    (hlt : ∀ k, g (a.pat m.ty k) (b.patInv m.invb m.ty k) < 2 ^ laneW m.ty)
    (hp : ∀ v, IsPacked m.ty v → (∀ k, k < laneCount m.ty → v.pat m.ty k = g (a.pat m.ty k) (b.patInv m.invb m.ty k)) → P v) :
    s.Yields i 1 1 t1 t0 P := by
  refine State.intOp2_yields hx ha hb hg hi fun tag => ?_
  simp only [saturate, hs, Bool.false_eq_true, if_false]
  obtain ⟨hpack, hlane⟩ := IsPacked.packed (ty := m.ty) (f := fun k => f (a.lane m.ty k) (b.laneInv m.invb m.ty k) (b.patInv m.invb m.ty k)) tag rfl
  exact hp _ hpack fun k hk => IsPacked.pat_eq (hlane k hk) (hf k) (hlt k)

end

end Sys2Proof.Machine

open Sys2Proof Sys2Proof.Machine

/-- Settles O2: each operation acts on the patterns of the lanes, of which the lemmas above say the bits. -/
theorem bitwiseLanes : Obligations.BitwiseLanes := by
  unfold Obligations.BitwiseLanes
  refine ⟨?two, ?one⟩
  case two =>
    intro s x m t1 t0 a b hx ha hb hg hs r
    have hpa (k : Nat) : patOf m.ty (a.lane m.ty k) = a.pat m.ty k := patOf_laneVal ..
    have hpb (k : Nat) : patOf m.ty (b.laneInv m.invb m.ty k) = b.patInv m.invb m.ty k := patOf_laneVal ..
    have hnb (k : Nat) : patOf m.ty (-1 - b.laneInv m.invb m.ty k) = 2 ^ laneW m.ty - (b.patInv m.invb m.ty k + 1) :=
      patOf_compl_laneVal ..
    refine ⟨?and, ?or, ?xor, ?andn⟩
    case and =>
      refine State.patOp2_yields (g := fun p q => p &&& q) hx ha hb hg hs rfl (fun k => by rw [hpa, hpb])
        (fun k => Nat.and_lt_two_pow _ (patInv_lt ..)) fun v hv hl => ⟨hv, fun k i hk _ => ?_⟩
      rw [hl k hk, Nat.testBit_and]
    case or =>
      refine State.patOp2_yields (g := fun p q => p ||| q) hx ha hb hg hs rfl (fun k => by rw [hpa, hpb])
        (fun k => Nat.or_lt_two_pow (pat_lt ..) (patInv_lt ..)) fun v hv hl => ⟨hv, fun k i hk _ => ?_⟩
      rw [hl k hk, Nat.testBit_or]
    case xor =>
      refine State.patOp2_yields (g := fun p q => p ^^^ q) hx ha hb hg hs rfl (fun k => by rw [hpa, hpb])
        (fun k => Nat.xor_lt_two_pow (pat_lt ..) (patInv_lt ..)) fun v hv hl => ⟨hv, fun k i hk _ => ?_⟩
      rw [hl k hk, Nat.testBit_xor]
    case andn =>
      refine State.patOp2_yields (g := fun p q => p &&& (2 ^ laneW m.ty - (q + 1))) hx ha hb hg hs rfl (fun k => by rw [hpa, hnb])
        (fun k => Nat.and_lt_two_pow _ (Nat.sub_lt (Nat.two_pow_pos _) (Nat.succ_pos _))) fun v hv hl => ⟨hv, fun k i hk hi => ?_⟩
      rw [hl k hk, Nat.testBit_and, Nat.testBit_two_pow_sub_succ (patInv_lt ..)]
      simp [hi]
  case one =>
    intro s x m t1 t0 a hx ha hg hs w lanes
    have hpa (k : Nat) : patOf m.ty (a.lane m.ty k) = a.pat m.ty k := patOf_laneVal ..
    have small {n : Nat} (hn : n ≤ w) : n < 2 ^ laneW m.ty := Nat.lt_of_le_of_lt hn Nat.lt_two_pow_self
    refine ⟨?clz, ?ctz, ?popc, ?brev, ?bswap⟩
    case clz =>
      refine State.patOp1_yields (g := fun p => if p = 0 then w else w - (Nat.log2 p + 1)) hx ha hg hs rfl
        (fun k => by simp only [clzLane, hpa]; split <;> rfl) (fun k => small (clz_spec (pat_lt ..)).1)
        fun v hv hl => ⟨hv, fun k hk => ?_⟩
      rw [hl k hk]
      exact clz_spec (pat_lt ..)
    case ctz =>
      refine State.patOp1_yields (g := fun p => lowestBit p w 0) hx ha hg hs rfl (fun k => by rw [ctzLane, hpa])
        (fun k => small ctz_spec.1) fun v hv hl => ⟨hv, fun k hk => ?_⟩
      rw [hl k hk]
      exact ctz_spec
    case popc =>
      refine State.patOp1_yields (g := fun p => ((List.range w).filter fun i => p.testBit i).length) hx ha hg hs rfl
        (fun k => by rw [popcLane, hpa]) (fun k => small ?_) fun v hv hl => ⟨hv, hl⟩
      simpa using List.length_filter_le (fun i => (a.pat m.ty k).testBit i) (List.range w)
    case brev =>
      refine State.patOp1_yields (g := fun p => (List.range w).foldl (fun r i => if p.testBit i then r + 2 ^ (w - 1 - i) else r) 0)
        hx ha hg hs rfl (fun k => by rw [brevLane, hpa]) (fun k => (brev_spec ..).1) fun v hv hl => ⟨hv, fun k hk => ?_⟩
      rw [hl k hk]
      exact (brev_spec ..).2
    case bswap =>
      have hbytes (k : Nat) := bswap_bytes m.ty (b := fun j => a.pat m.ty k / 2 ^ (8 * j) % 256) fun j => Nat.mod_lt _ (by decide)
      refine State.patOp1_yields (g := fun p =>
          (List.range (w / 8)).foldl (fun r j => r + p / 2 ^ (8 * j) % 256 * 2 ^ (w - 8 - 8 * j)) 0)
        hx ha hg hs rfl (fun k => by rw [bswapLane, hpa]) (fun k => (hbytes k).1) fun v hv hl => ⟨hv, fun k hk => ?_⟩
      rw [hl k hk]
      exact (hbytes k).2

end

section
/-! Shifts, rotations, wide products, fields and `lea` (R160-R163). -/

namespace Sys2Proof.Machine

variable {ty : IntTy}

/-! Counts beyond the width: every bit is shifted out (R160) -/

theorem laneVal_range (ty : IntTy) (v k : Nat) : -(2 ^ 64 : Int) ≤ laneVal ty v k ∧ laneVal ty v k < 2 ^ 64 := by
  have := lanePat_lt ty v k
  cases ty <;> simp only [laneVal, laneSigned, laneW, sextNat] at * <;> constructor <;> omega

theorem laneLo_hi_range (ty : IntTy) : -(2 ^ 64 : Int) ≤ laneLo ty ∧ laneLo ty ≤ 0 ∧ 0 ≤ laneHi ty ∧ laneHi ty < 2 ^ 64 := by
  cases ty <;> decide

theorem Int.two_pow_le_two_pow {a b : Nat} (h : a ≤ b) : (2 : Int) ^ a ≤ 2 ^ b := by
  exact_mod_cast Nat.pow_le_pow_right (by decide) h

theorem Int.two_pow_dvd_lowBits {w n : Nat} (x : Int) (h : w ≤ n) : lowBits w (x * 2 ^ n) = 0 := by
  obtain ⟨d, rfl⟩ := Nat.le.dest h
  rw [lowBits, Int.emod_eq_zero_of_dvd (Int.dvd_mul_of_dvd_right ⟨2 ^ d, Int.pow_add ..⟩)]
  rfl

/-- R158, R160: a count cut at 128 shifts a lane as far as the count itself, clamped or not. -/
theorem lowBits_saturate_shl (sat : Bool) (v k n : Nat) :
    lowBits (laneW ty) (saturate sat ty (shlLane (laneVal ty v k) n)) =
      lowBits (laneW ty) (saturate sat ty (laneVal ty v k * 2 ^ n)) := by
  have hw := laneW_le ty
  rw [shlLane, cutCount]
  rcases Nat.le_total n 128 with h | h
  · rw [Nat.min_eq_left h]
  rw [Nat.min_eq_right h]
  cases sat with
  | false =>
    simp only [saturate, Bool.false_eq_true, if_false]
    rw [Int.two_pow_dvd_lowBits _ (by omega), Int.two_pow_dvd_lowBits _ (by omega)]
  | true =>
    obtain ⟨hlo, hlo0, hhi0, hhi⟩ := laneLo_hi_range ty
    simp only [saturate, if_true]
    have hpow : (2 : Int) ^ 64 ≤ 2 ^ 128 ∧ (2 : Int) ^ 128 ≤ 2 ^ n := ⟨Int.two_pow_le_two_pow (by decide), Int.two_pow_le_two_pow h⟩
    congr 1
    rcases Int.lt_trichotomy (laneVal ty v k) 0 with hx | hx | hx
    · have (p : Int) (hp : 2 ^ 64 ≤ p) : laneVal ty v k * p ≤ laneLo ty := by
        have := Int.mul_le_mul_of_nonneg_right (show laneVal ty v k ≤ -1 by omega) (show 0 ≤ p by omega)
        omega
      have near := this _ hpow.1
      have far := this (2 ^ n) (by omega)
      omega
    · rw [hx, Int.zero_mul, Int.zero_mul]
    · have (p : Int) (hp : 2 ^ 64 ≤ p) : laneHi ty ≤ laneVal ty v k * p := by
        have := Int.mul_le_mul_of_nonneg_right (show 1 ≤ laneVal ty v k by omega) (show 0 ≤ p by omega)
        omega
      have near := this _ hpow.1
      have far := this (2 ^ n) (by omega)
      omega

theorem Int.ediv_two_pow_of_range {x : Int} (hlo : -(2 ^ 64 : Int) ≤ x) (hhi : x < 2 ^ 64) {n : Nat} (h : 64 ≤ n) :
    x / 2 ^ n = if 0 ≤ x then 0 else -1 := by
  have hpow : (2 : Int) ^ 64 ≤ 2 ^ n := Int.two_pow_le_two_pow h
  split
  next hx => exact Int.ediv_eq_zero_of_lt hx (by omega)
  next hx => exact Int.ediv_eq_neg_one_of_neg_of_le (by omega) (by omega)

theorem sextNat_range (p : Nat) : -(2 ^ 64 : Int) ≤ sextNat (laneW ty) p ∧ sextNat (laneW ty) p < 2 ^ 64 := by
  cases ty <;> simp only [laneW, sextNat] <;> constructor <;> omega

theorem sextNat_ediv_cutCount (p n : Nat) : sextNat (laneW ty) p / 2 ^ cutCount n = sextNat (laneW ty) p / 2 ^ n := by
  obtain ⟨hlo, hhi⟩ := sextNat_range (ty := ty) p
  rw [cutCount]
  rcases Nat.le_total n 128 with h | h
  · rw [Nat.min_eq_left h]
  · rw [Nat.min_eq_right h, Int.ediv_two_pow_of_range hlo hhi (by decide), Int.ediv_two_pow_of_range hlo hhi (by omega)]

theorem shiftRight_cutCount_lane (v k n : Nat) : lanePat ty v k / 2 ^ cutCount n = lanePat ty v k / 2 ^ n :=
  shiftRight_cutCount (Nat.lt_of_lt_of_le (lanePat_lt ..) (Nat.pow_le_pow_right (by decide) (laneW_le ty))) n

/-! Rotations -/

/-- The two parts of a rotation to the left, put together bit by bit. -/
theorem rotl_spec {w p k : Nat} (hp : p < 2 ^ w) (hk : k < w) :
    p * 2 ^ k % 2 ^ w + p / 2 ^ (w - k) < 2 ^ w ∧
      ∀ i < w, (p * 2 ^ k % 2 ^ w + p / 2 ^ (w - k)).testBit i = p.testBit ((i + w - k) % w) := by
  have hhigh : p / 2 ^ (w - k) < 2 ^ k := by
    rw [Nat.div_lt_iff_lt_mul (Nat.two_pow_pos _), ← Nat.pow_add, Nat.add_sub_cancel' (Nat.le_of_lt hk)]
    exact hp
  have hlow : p * 2 ^ k % 2 ^ w = 2 ^ k * (p % 2 ^ (w - k)) := by
    rw [Nat.mul_comm p, ← Nat.mul_mod_mul_left, ← Nat.pow_add, Nat.add_sub_cancel' (Nat.le_of_lt hk)]
  rw [hlow, Nat.two_pow_add_eq_or_of_lt hhigh]
  refine ⟨Nat.or_lt_two_pow (hlow ▸ Nat.mod_lt _ (Nat.two_pow_pos _))
    (Nat.lt_of_lt_of_le hhigh (Nat.pow_le_pow_right (by decide) (Nat.le_of_lt hk))), fun i hi => ?_⟩
  rw [Nat.testBit_or, Nat.testBit_two_pow_mul, Nat.testBit_mod_two_pow, Nat.testBit_div_two_pow]
  by_cases hik : k ≤ i
  · have hmod : (i + w - k) % w = i - k := by
      rw [show i + w - k = i - k + w by omega, Nat.add_mod_right, Nat.mod_eq_of_lt (by omega)]
    have hout : p.testBit (i + (w - k)) = false :=
      Nat.testBit_lt_two_pow (Nat.lt_of_lt_of_le hp (Nat.pow_le_pow_right (by decide) (by omega)))
    simp [hik, hmod, hout, show i - k < w - k by omega]
  · have hmod : (i + w - k) % w = i + (w - k) := by
      rw [show i + w - k = i + (w - k) by omega, Nat.mod_eq_of_lt (by omega)]
    simp [hik, hmod]

/-- A rotation to the right by `k` is one to the left by `w - k`. -/
theorem rotr_spec {w p k : Nat} (hp : p < 2 ^ w) (hk : k < w) :
    p / 2 ^ k + p * 2 ^ (w - k) % 2 ^ w < 2 ^ w ∧
      ∀ i < w, (p / 2 ^ k + p * 2 ^ (w - k) % 2 ^ w).testBit i = p.testBit ((i + k) % w) := by
  rcases Nat.eq_zero_or_pos k with rfl | hpos
  · simp only [Nat.pow_zero, Nat.div_one, Nat.sub_zero, Nat.mul_mod_left, Nat.add_zero]
    exact ⟨hp, fun i hi => by rw [Nat.mod_eq_of_lt hi]⟩
  · obtain ⟨hlt, hbits⟩ := rotl_spec hp (show w - k < w by omega)
    rw [show w - (w - k) = k by omega, Nat.add_comm] at hlt hbits
    refine ⟨hlt, fun i hi => ?_⟩
    rw [hbits i hi, show i + w - (w - k) = i + k by omega]

/-! Fields (R162) -/

/-- The bits of a number in which `n` bits from `pos` on have been replaced. -/
theorem testBit_insert (base a pos n i : Nat) :
    (base - base / 2 ^ pos % 2 ^ n * 2 ^ pos + a % 2 ^ n * 2 ^ pos).testBit i =
      if pos ≤ i ∧ i < pos + n then a.testBit (i - pos) else base.testBit i := by
  have hparts : base = 2 ^ pos * (2 ^ n * (base / 2 ^ pos / 2 ^ n) + base / 2 ^ pos % 2 ^ n) + base % 2 ^ pos := by
    rw [Nat.div_add_mod, Nat.div_add_mod]
  have hval : base - base / 2 ^ pos % 2 ^ n * 2 ^ pos + a % 2 ^ n * 2 ^ pos =
      2 ^ pos * (2 ^ n * (base / 2 ^ pos / 2 ^ n) + a % 2 ^ n) + base % 2 ^ pos := by
    have : base - base / 2 ^ pos % 2 ^ n * 2 ^ pos = 2 ^ pos * (2 ^ n * (base / 2 ^ pos / 2 ^ n)) + base % 2 ^ pos := by
      refine Nat.sub_eq_of_eq_add ?_
      conv => lhs; rw [hparts]
      rw [Nat.mul_add, Nat.mul_comm (2 ^ pos) (base / 2 ^ pos % 2 ^ n)]
      omega
    rw [this, Nat.mul_add, Nat.mul_comm (2 ^ pos) (a % 2 ^ n)]
    omega
  rw [hval, Nat.testBit_two_pow_mul_add _ (Nat.mod_lt _ (Nat.two_pow_pos _)),
    Nat.testBit_two_pow_mul_add _ (Nat.mod_lt _ (Nat.two_pow_pos _)), Nat.testBit_mod_two_pow, Nat.testBit_mod_two_pow,
    Nat.testBit_div_two_pow, Nat.testBit_div_two_pow]
  by_cases h1 : i < pos
  · simp [h1, Nat.not_le.2 h1]
  · by_cases h2 : i - pos < n
    · simp [h1, h2, show pos ≤ i by omega, show i < pos + n by omega]
    · simp [h1, h2, show ¬(i < pos + n) by omega]
      congr 1
      omega

theorem insert_lt {base a pos n w : Nat} (hb : base < 2 ^ w) (hn : pos + n ≤ w) :
    base - base / 2 ^ pos % 2 ^ n * 2 ^ pos + a % 2 ^ n * 2 ^ pos < 2 ^ w := by
  refine Nat.lt_pow_two_of_testBit _ fun i hi => ?_
  rw [testBit_insert, if_neg (by omega)]
  exact Nat.testBit_lt_two_pow (Nat.lt_of_lt_of_le hb (Nat.pow_le_pow_right (by decide) hi))

theorem packLanes_zero (ty : IntTy) : packLanes ty (fun _ => 0) = 0 := by cases ty <;> rfl

/-- R162, `bfx`. -/
theorem bfxVal_eq (ty : IntTy) (a ctl : Nat) :
    let w := laneW ty
    let pos := ctl % 256
    let len := ctl / 256 % 256
    let n := min (pos + len) w - pos
    let f := lanePat ty a 0 / 2 ^ pos % 2 ^ n
    bfxVal ty a ctl = packLanes ty fun _ =>
      if w ≤ pos ∨ len = 0 then 0 else if laneSigned ty then sextNat n f else (f : Int) := by
  intro w pos len n f
  rw [bfxVal, fieldOf]
  by_cases h : w ≤ pos ∨ len = 0
  · simp only [w, pos, len] at h
    simp only [h, if_true, w, pos, len, packLanes_zero]
  · have hn : min (pos + len) w - 1 + 1 - pos = n := by omega
    simp only [w, pos, len] at h
    simp only [h, if_false, bitsOf, w, pos, len]
    simp only [w, pos, len, n] at hn
    rw [hn]

/-- R162, `bfi`. -/
theorem bfiVal_eq (ty : IntTy) (a b ctl : Nat) :
    ∃ r : Nat, bfiVal ty a b ctl = packLanes ty (fun _ => (r : Int)) ∧ r < 2 ^ laneW ty ∧ ∀ i < laneW ty, r.testBit i =
      if ctl % 256 < laneW ty ∧ ctl % 256 ≤ i ∧ i < ctl % 256 + ctl / 256 % 256 then a.testBit (i - ctl % 256)
      else (lanePat ty b 0).testBit i := by
  rw [bfiVal, fieldOf]
  have hb := lanePat_lt ty b 0
  generalize ctl % 256 = pos, ctl / 256 % 256 = len, lanePat ty b 0 = base at hb ⊢
  by_cases h : laneW ty ≤ pos ∨ len = 0
  · simp only [h, if_true]
    exact ⟨base, rfl, hb, fun i hi => by rw [if_neg (by omega)]⟩
  · simp only [h, if_false, bitsOf]
    have hn : min (pos + len) (laneW ty) - 1 + 1 - pos = min (pos + len) (laneW ty) - pos := by omega
    rw [hn]
    refine ⟨_, rfl, insert_lt hb (by omega), fun i hi => ?_⟩
    rw [testBit_insert]
    congr 1
    simp only [eq_iff_iff]
    omega

/-- R161: the full product, as a dword or a pair. -/
theorem mulwTok_spec (hty : ty.scalar = true) (a b : Nat) :
    (mulwTok ty a b).null = false ∧ (mulwTok ty a b).pair = decide (laneW ty = 64) ∧
      (mulwTok ty a b).nat = lowBits (2 * laneW ty) (laneVal ty a 0 * laneVal ty b 0) := by
  by_cases hw : laneW ty = 64
  · have hlt := lowBits_lt 128 (laneVal ty a 0 * laneVal ty b 0)
    simp only [mulwTok, hw, if_true]
    refine ⟨rfl, rfl, ?_⟩
    simp only [pairTok, Token.nat, BitVec.toNat_ofNat]
    exact Nat.mod_eq_of_lt hlt
  · have hw' : laneW ty = 32 := by
      cases ty <;> first | rfl | exact absurd rfl hw | cases hty
    obtain ⟨hnull, hpair, hnat⟩ := isDword_dword_of_lt (lowBits_lt 64 (laneVal ty a 0 * laneVal ty b 0))
    simp only [mulwTok, hw, if_false]
    rw [hw']
    exact ⟨hnull, hpair, hnat⟩

end Sys2Proof.Machine

open Sys2Proof Sys2Proof.Machine

/-- Settles O3: shifts and rotations by what a cut count leaves of a lane, fields bit by bit. -/
theorem shiftAndFieldResults : Obligations.ShiftAndFieldResults := by
  unfold Obligations.ShiftAndFieldResults
  refine ⟨?shifts, ?others⟩
  case shifts =>
    intro s x m t1 t0 a b hx ha hb hg w n
    have hpa (k : Nat) : patOf m.ty (a.lane m.ty k) = a.pat m.ty k := patOf_laneVal ..
    refine ⟨?shl, ?shr, ?sar, fun hs => ⟨?rotl, ?rotr⟩⟩
    case shl =>
      exact State.intOp2_yields hx ha hb hg rfl fun g => IsLanes.packed g
        (packLanes_congr fun k _ => lowBits_saturate_shl m.sat a.nat k (n k))
    case shr =>
      refine State.intOp2_yields hx ha hb hg rfl fun g => IsLanes.packed g (packLanes_congr fun k _ => ?_)
      rw [shrLane, hpa, Token.pat, shiftRight_cutCount_lane]
    case sar =>
      refine State.intOp2_yields hx ha hb hg rfl fun g => IsLanes.packed g (packLanes_congr fun k _ => ?_)
      rw [sarLane, hpa, sextNat_ediv_cutCount]
    case rotl =>
      have spec (k : Nat) := rotl_spec (pat_lt a m.ty k) (Nat.mod_lt (n k) (laneW_pos m.ty))
      refine State.patOp2_yields (g := fun p q => p * 2 ^ (q % w) % 2 ^ w + p / 2 ^ (w - q % w)) hx ha hb hg hs rfl
        (fun k => by rw [rotlLane, hpa]) (fun k => (spec k).1) fun v hv hl => ⟨hv, fun k i hk hi => ?_⟩
      rw [hl k hk]
      exact (spec k).2 i hi
    case rotr =>
      have spec (k : Nat) := rotr_spec (pat_lt a m.ty k) (Nat.mod_lt (n k) (laneW_pos m.ty))
      refine State.patOp2_yields (g := fun p q => p / 2 ^ (q % w) + p * 2 ^ (w - q % w) % 2 ^ w) hx ha hb hg hs rfl
        (fun k => by rw [rotrLane, hpa]) (fun k => (spec k).1) fun v hv hl => ⟨hv, fun k i hk hi => ?_⟩
      rw [hl k hk, (spec k).2 i hi, Nat.add_mod_mod]
  case others =>
    intro s x m q t1 t0 a b c hx ha hb
    refine ⟨fun hc => ?mad, fun hc hty => ?bfi, fun hg hty => ?bfx, fun hg hty => ?mulw, fun hg => ?lea⟩
    case mad =>
      exact State.computeABC_yields (v := fun a b c => dword (laneOp m (fun x y z _ => x * y + z) a.nat b.nat c.nat))
        hx ha hb hc rfl (IsLanes.packed none rfl)
    case bfi =>
      refine State.computeABC_yields (v := fun a b c => dword (bfiVal m.ty a.nat b.nat c.nat)) hx ha hb hc rfl ?_
      obtain ⟨r, hr, hlt, hbits⟩ := bfiVal_eq m.ty a.nat b.nat c.nat
      obtain ⟨hpack, hlane⟩ := IsPacked.packed none hr
      refine ⟨hpack, fun i hi => ?_⟩
      have hpat : (dword (bfiVal m.ty a.nat b.nat c.nat)).pat m.ty 0 = r :=
        IsPacked.pat_eq (hlane 0 (by cases m.ty <;> decide)) rfl hlt
      rw [hpat]
      exact hbits i hi
    case bfx =>
      refine State.computeAB_yields (v := fun a b => dword (bfxVal m.ty a.nat b.nat)) hx ha hb hg rfl (IsLanes.packed none ?_)
      exact bfxVal_eq m.ty a.nat b.nat
    case mulw =>
      refine State.computeAB_yields (v := fun a b => mulwTok m.ty a.nat b.nat) hx ha hb hg rfl ?_
      exact mulwTok_spec hty a.nat b.nat
    case lea =>
      exact State.computeAB_yields (v := fun a b => dword (lowBits 64 ((a.lo : Int) + laneVal q.ty b.nat 0 * 2 ^ q.scale.toNat)))
        hx ha hb hg rfl (isDword_dword_of_lt (lowBits_lt ..))

end

section
/-! Sources, plumbing and null results (O6, O7, O8): a source emits what its table says, and an instruction that keeps or
gates tokens emits one of its operands or null. -/

namespace Sys2Proof.Machine

/-! What a source emits -/

/-- A source of a live instance sends its value to both targets. -/
theorem State.source_yields {s t : State} {x : Inst} {i : Instr} {lat : Nat} {t1 t0 : Target} {v : Token} {P : Token → Prop}
    (h : PinnedOnly s t) (hx : s.live x) (hi : exec i s = .next (t.source lat t1 t0 v)) (hp : P v) :
    s.Yields i 1 lat t1 t0 P :=
  ⟨_, v, hi, State.emit_emitted h hx 1 lat t1 t0 v v, hp⟩

/-- R146: with the right parity in the slots that it reads an instance goes on. -/
theorem State.checkParity_of_right {s : State} {l : List Nat} (h : maskMeets s.curThread.badParity l = false) :
    s.checkParity l = s := by
  simp [State.checkParity, h]

theorem Thread.pairSlot_toNat (t : Thread) (i : Nat) :
    (t.pairSlot i).toNat = (t.slot i).toNat + 2 ^ 32 * (t.slot (i + 1)).toNat := by
  have h : (t.slot i).toNat < 2 ^ 32 := (t.slot i).isLt
  rw [Thread.pairSlot, BitVec.toNat_append, ← Nat.shiftLeft_add_eq_or_of_lt h, Nat.shiftLeft_eq]
  omega

/-! R26, R28: an index in a box of `a` by `b` by any number -/

theorem linear_fst {a x : Nat} (m : Nat) (hx : x < a) : (x + a * m) % a = x := by
  rw [Nat.add_mul_mod_self_left, Nat.mod_eq_of_lt hx]

theorem linear_div {a x : Nat} (m : Nat) (hx : x < a) : (x + a * m) / a = m := by
  rw [Nat.add_mul_div_left _ _ (Nat.zero_lt_of_lt hx), Nat.div_eq_of_lt hx, Nat.zero_add]

theorem linear_snd {a b x y : Nat} (z : Nat) (hx : x < a) (hy : y < b) : (x + a * (y + b * z)) / a % b = y := by
  rw [linear_div _ hx, linear_fst _ hy]

theorem linear_trd {a b x y : Nat} (z : Nat) (hx : x < a) (hy : y < b) : (x + a * (y + b * z)) / (a * b) = z := by
  rw [← Nat.div_div_eq_div_mul, linear_div _ hx, linear_div _ hy]

end Sys2Proof.Machine

open Sys2Proof Sys2Proof.Machine

/-- Settles O6: each source emits the token of its value, and the selectors of `id` take the index of a thread or of a group
apart by division. -/
theorem sourceValues : Obligations.SourceValues := by
  unfold Obligations.SourceValues
  refine ⟨fun s x n imm t1 t0 v hx => ?_, fun s i n t1 t0 x y z u v w hx => ?_⟩
  · have refl := PinnedOnly.refl s
    have lits (k : Nat) : (s.curBlock.lits.getD k 0).toNat < 2 ^ 32 := BitVec.isLt _
    refine ⟨fun hp => ?_, fun hp => ?_, ?_, ?_, ?_, ?_, fun hv h15 => ?_, fun h15 => ?_⟩
    · have slot : (s.curThread.slot n.toNat).toNat < 2 ^ 32 := BitVec.isLt _
      refine State.source_yields (s.pin_pinned [{ nullTok with tag := s.slotTag (n.toNat / 2 * 2) }]) hx ?_
        (isDword_dword_of_lt (by omega))
      show execRead n t1 t0 s = _
      rw [execRead, State.checkParity_of_right hp]
    · have pair : IsDword (s.curThread.pairSlot n.toNat).toNat
          { dword (s.curThread.pairSlot n.toNat).toNat with tag := s.slotTag n.toNat } := by
        have := isDword_dword_tag (s.curThread.pairSlot n.toNat).toNat (s.slotTag n.toNat)
        rwa [Nat.mod_eq_of_lt (BitVec.isLt _)] at this
      refine State.source_yields refl hx ?_ (Thread.pairSlot_toNat s.curThread n.toNat ▸ pair)
      show execReadD n t1 t0 s = _
      rw [execReadD, State.checkParity_of_right hp, Thread.pairSlot_toNat]
    · exact State.source_yields refl hx rfl (isDword_dword_of_lt (Nat.lt_trans (lits _) (by decide)))
    · refine State.source_yields refl hx rfl (isDword_dword_of_lt ?_)
      have low := lits n.toNat
      have high := lits (n.toNat + 1)
      dsimp only
      omega
    · refine State.source_yields refl hx rfl ?_
      rw [← immPat_eq_signExtend]
      exact isDword_dword_of_lt (lowBits_lt 64 _)
    · refine State.source_yields refl hx (v := dword x.tsc.toNat) ?_ (isDword_dword_of_lt x.tsc.isLt)
      simp only [exec, execTsc, hx.1]
    · refine State.source_yields refl hx (v := dword v.toNat) ?_ (isDword_dword_of_lt v.isLt)
      simp only [exec, execSysrd, hx.1, if_neg h15, hv, Option.getD_some]
    · refine State.source_yields refl hx (v := dword (s.sysValue s.cur.core s.cur.slot 15).toNat) ?_
        (isDword_dword_of_lt (BitVec.isLt _))
      simp only [exec, execSysrd, h15, if_true]
  · intro g r hc hxb hyb hub hvb hlin hglin hz hw hbx hby hgx hgy hbox hrope0 hrope hcore hslot e he hn
    have id_yields (k : Nat) (hk : k < 2 ^ 64) (hv : s.identity s.cur.core s.cur.slot n.toNat = k) :
        s.Yields (.id n t1 t0) 1 1 t1 t0 (IsDword k) :=
      State.source_yields (PinnedOnly.refl s) hx (v := dword k) (by simp only [exec, execId, hv]) (isDword_dword_of_lt hk)
    have rank : g.lin % r.ropeG < r.ropeG := Nat.mod_lt _ hrope0
    have lin : (s.thread s.cur.core s.cur.slot).lin = x + r.bx * (y + r.by_ * z) := hlin
    have carrier : (s.groupOf s.cur.core s.cur.slot).carrier = false := hc
    have glin : (s.groupOf s.cur.core s.cur.slot).lin = u + r.gx * (v + r.gy * w) := hglin
    simp only [List.mem_cons, List.not_mem_nil, or_false] at he
    rcases he with rfl | rfl | rfl | rfl | rfl | rfl | rfl | rfl | rfl | rfl | rfl | rfl <;> refine id_yields _ (by dsimp only; omega) ?_ <;> rw [hn] <;>
      simp only [State.identity, carrier, lin, Bool.false_eq_true, if_false]
    · exact linear_fst _ hxb
    · exact linear_snd _ hxb hyb
    · exact linear_trd _ hxb hyb
    · rw [glin]; exact linear_fst _ hub
    · rw [glin]; exact linear_snd _ hub hvb
    · rw [glin]; exact linear_trd _ hub hvb
    · rfl
    · rfl
    · rfl
    · rfl

end

section
/-! Plumbing instructions (O7) and null results (O8). -/

namespace Sys2Proof.Machine

/-! When a firing gives null (R69, R129, R133) -/

/-- R133: a squashed instance computes nothing; R129: nor does one with a null operand. -/
theorem State.runs_eq_false {s : State} {x : Inst} (hx : s.curInst? = some x) {ops : List Token}
    (h : x.squash ≠ none ∨ ∃ v ∈ ops, v.null = true) : s.runs ops = false := by
  rcases h with h | ⟨v, hv, hn⟩
  · have sq : s.squashed = true := by simpa [State.squashed, hx] using Option.isSome_iff_ne_none.2 h
    simp [State.runs, sq]
  · simp only [State.runs, Bool.and_eq_false_iff, List.all_eq_false]
    exact .inr ⟨v, hv, by simp [hn]⟩

theorem State.runs_guard_eq_false {s : State} {x : Inst} (hx : s.curInst? = some x) {ops : List Token}
    (h : x.squash ≠ none ∨ s.guardTrue = false ∨ ∃ v ∈ ops, v.null = true) : (s.runs ops && s.guardTrue) = false := by
  rcases h with h | h | h
  · simp [State.runs_eq_false hx (ops := ops) (.inl h)]
  · simp [h]
  · simp [State.runs_eq_false hx (.inr h)]

/-- Null goes to both targets, of a live instance or of a squashed one. -/
theorem State.emit_null {s t : State} {x : Inst} (h : PinnedOnly s t) (hx : s.curInst? = some x) (busy lat : Nat)
    (t1 t0 : Target) : Emitted s (t.emit busy lat t1 t0 nullTok nullTok) busy lat t1 t0 nullTok nullTok := by
  by_cases hs : x.squash = none
  · exact State.emit_emitted h ⟨hx, hs⟩ busy lat t1 t0 nullTok nullTok
  · exact State.emit_squashed h hx (Option.isSome_iff_ne_none.2 hs) busy lat t1 t0 nullTok nullTok

theorem State.nullResult_emitted {s : State} {x : Inst} (hx : s.curInst? = some x) (busy lat : Nat) (t1 t0 : Target)
    (ops : List Token) : Emitted s (s.nullResult busy lat t1 t0 ops) busy lat t1 t0 nullTok nullTok :=
  State.emit_null (s.pin_pinned _) hx busy lat t1 t0

/-- R129: a result that may carry a tag is null as one without. -/
theorem State.computeTag_null {s : State} {x : Inst} (hx : s.curInst? = some x) (ops : List Token)
    (h : x.squash ≠ none ∨ s.guardTrue = false ∨ ∃ v ∈ ops, v.null = true) (busy lat : Nat) (t1 t0 : Target) (v : Token)
    (tag : Option (Nat × DWord)) : Emitted s (s.computeTag busy lat t1 t0 ops v tag) busy lat t1 t0 nullTok nullTok := by
  cases tag with
  | none => exact State.compute_null hx ops h busy lat t1 t0 v
  | some g =>
    simp only [State.computeTag, State.runs_guard_eq_false hx h, Bool.false_eq_true, if_false]
    exact State.nullResult_emitted hx busy lat t1 t0 ops

/-- R129: an instruction whose port c is data gives null for a null operand. -/
theorem State.computeC_null {s : State} {x : Inst} (hx : s.curInst? = some x) (ops : List Token)
    (h : x.squash ≠ none ∨ ∃ v ∈ ops, v.null = true) (busy lat : Nat) (t1 t0 : Target) (v : Token) :
    Emitted s (s.computeC busy lat t1 t0 ops v) busy lat t1 t0 nullTok nullTok := by
  simp only [State.computeC, State.runs_eq_false hx h, Bool.false_eq_true, if_false]
  exact State.emit_null (s.pin_pinned _) hx busy lat t1 t0

theorem State.compare_null {s : State} {x : Inst} (hx : s.curInst? = some x) (m : IntMod) (r : Rel)
    (h : x.squash ≠ none ∨ s.guardTrue = false ∨ ∃ v ∈ [s.opTok .a, zeroB m.z (s.opTok .b)], v.null = true)
    (t1 t0 : Target) : Emitted s (s.compare m r t1 t0) 1 1 t1 t0 nullTok nullTok := by
  unfold State.compare
  dsimp only
  split
  · simp only [State.runs_guard_eq_false hx h, Bool.false_eq_true, if_false]
    exact State.nullResult_emitted hx 1 1 t1 t0 _
  · exact State.compute_null hx _ h 1 1 t1 t0 _

theorem State.compareImm_null {s : State} {x : Inst} (hx : s.curInst? = some x) (r : Rel) (imm : BitVec 15)
    (h : x.squash ≠ none ∨ s.guardTrue = false ∨ ∃ v ∈ [s.opTok .a], v.null = true) (t0 : Target) :
    Emitted s (s.compareImm r imm t0) 1 1 .none t0 nullTok nullTok := by
  unfold State.compareImm
  dsimp only
  split
  · simp only [State.runs_guard_eq_false hx h, Bool.false_eq_true, if_false]
    exact State.nullResult_emitted hx 1 1 .none t0 _
  · exact State.compute_null hx _ h 1 1 .none t0 _

/-- R203: a conversion takes 4 clk with f64 on either side, else 2. -/
theorem cvtLat_eq (src dest : CvtFmt) : cvtLat src dest = if src == .f64 || dest == .f64 then 4 else 2 := by
  cases src <;> cases dest <;> rfl

theorem State.convert_null {s : State} {x : Inst} (hx : s.curInst? = some x) (src : CvtFmt) (m : CvtMod)
    (h : x.squash ≠ none ∨ s.guardTrue = false ∨ ∃ v ∈ [s.opTok .a], v.null = true) (t1 t0 : Target) :
    Emitted s (s.convert src m t1 t0) (if src == .f64 || m.dest == .f64 then 4 else 1)
      (if src == .f64 || m.dest == .f64 then 4 else 2) t1 t0 nullTok nullTok := by
  have busy : (if cvtLat src m.dest = 4 then 4 else 1) = if src == .f64 || m.dest == .f64 then 4 else 1 := by
    rw [cvtLat_eq]; split <;> simp
  simp only [State.convert, State.runs_guard_eq_false hx h, Bool.false_eq_true, if_false, busy, ← cvtLat_eq]
  exact State.emit_null (s.pin_pinned _) hx _ _ t1 t0

theorem State.gateOp_null {s : State} {x : Inst} (hx : s.curInst? = some x) (want : Bool)
    (h : x.squash ≠ none ∨ ∃ v ∈ [s.opTok .a, s.opTok .b], v.null = true) (t1 t0 : Target) :
    Emitted s (s.gateOp want t1 t0) 1 1 t1 t0 nullTok nullTok := by
  simp only [State.gateOp, State.runs_eq_false hx h, Bool.false_and, Bool.false_eq_true, if_false]
  exact State.emit_null (s.pin_pinned _) hx 1 1 t1 t0

/-! What plumbing sends (R140) -/

theorem State.gateOp_emitted {s : State} {x : Inst} (hx : s.live x) {a b : Token} (ha : s.has .a a) (hb : s.has .b b)
    (want : Bool) (t1 t0 : Target) :
    (let v := if b.pred = want then a else nullTok
     Emitted s (s.gateOp want t1 t0) 1 1 t1 t0 v v) := by
  have runs : s.runs [a, b] = true := State.runs_of hx (by simp [ha.2, hb.2])
  have pinned := s.pin_pinned [b]
  simp only [State.gateOp, ha.opTok, hb.opTok, runs, Bool.true_and]
  by_cases h : b.pred = want
  · simpa only [h, if_true, beq_self_eq_true] using State.emit_emitted pinned hx 1 1 t1 t0 a a
  · simpa only [h, if_false, beq_false_of_ne h, Bool.false_eq_true] using
      State.emit_emitted pinned hx 1 1 t1 t0 nullTok nullTok

theorem State.has_or_null {s : State} {p : PortSel} {a : Token} (h : s.opTok? p = some a) : s.opTok p = a := by
  simp [State.opTok, h]

/-! Where tokens go (R119, R131) -/

/-- R119: the path from PE to PE by rows and columns of the array of 8 by 8. -/
theorem pathDelay_eq (j k : Nat) : pathDelay j k =
    if (j / 8 - k / 8) + (k / 8 - j / 8) + (j % 8 - k % 8) + (k % 8 - j % 8) ≤ 1 then 1
    else if j / 8 = k / 8 ∨ j % 8 = k % 8 then 2 else 3 := by
  have row : (j / 8 - k / 8) + (k / 8 - j / 8) = 0 ↔ j / 8 = k / 8 := by omega
  have column : (j % 8 - k % 8) + (k % 8 - j % 8) = 0 ↔ j % 8 = k % 8 := by omega
  simp only [pathDelay, row, column, Nat.add_assoc]

/-- The live-out writes that a token makes at a target: one for a slot or a pair of slots, where the token is not null. -/
def liveOutsOf (t : Target) (v : Token) : List LiveOut :=
  match t with
  | .live n => if v.null then [] else [⟨n.toNat, false, v.data.setWidth 64, v.tag⟩]
  | .pairLive n => if v.null then [] else [⟨n.toNat, true, v.data.setWidth 64, v.tag⟩]
  | _ => []

theorem Inst.deliver_liveOut (x : Inst) (now idx : Nat) (t : Target) (v : Token) :
    (x.deliver now idx t v).liveOut = x.liveOut ++ liveOutsOf t v := by
  cases t with
  | none => simp [Inst.deliver, liveOutsOf]
  | port p k => simp [Inst.deliver, liveOutsOf]
  | live n => simp only [Inst.deliver, liveOutsOf]; split <;> simp
  | pairLive n => simp only [Inst.deliver, liveOutsOf]; split <;> simp

@[simp] theorem Inst.deliver_count (x : Inst) (now idx : Nat) (t : Target) (v : Token) :
    (x.deliver now idx t v).count = x.count := by
  cases t with
  | none => rfl
  | port p k => rfl
  | live n => simp only [Inst.deliver]; split <;> rfl
  | pairLive n => simp only [Inst.deliver]; split <;> rfl

/-- A token sent to a port stands there. -/
theorem Inst.find?_deliver_self (x : Inst) (now idx : Nat) (p : PortSel) (k : BitVec 6) (v : Token) :
    Tbl.find? (x.deliver now idx (.port p k) v).tokens (3 * k.toNat + portNum p) =
      some { v with arrive := now + pathDelay idx k.toNat } :=
  Tbl.find?_set_self _ _ _

/-- Each port of each instruction has its own place in the table of tokens. -/
theorem portKey_inj {p q : PortSel} {j k : BitVec 6} (h : 3 * j.toNat + portNum p = 3 * k.toNat + portNum q) :
    Target.port p j = Target.port q k := by
  have port : portNum p = portNum q := by cases p <;> cases q <;> simp only [portNum] at h ⊢ <;> omega
  have instr : j = k := BitVec.eq_of_toNat_eq (by omega)
  have same : p = q := by revert port; cases p <;> cases q <;> decide
  rw [same, instr]

/-- A token sent elsewhere leaves what stands at a port. -/
theorem Inst.find?_deliver_ne (x : Inst) (now idx : Nat) {t : Target} {p : PortSel} {k : BitVec 6} (h : t ≠ .port p k)
    (v : Token) : Tbl.find? (x.deliver now idx t v).tokens (3 * k.toNat + portNum p) =
      Tbl.find? x.tokens (3 * k.toNat + portNum p) := by
  cases t with
  | none => rfl
  | port q j => exact Tbl.find?_set_ne _ _ fun e => h (portKey_inj e).symm
  | live n => simp only [Inst.deliver]; split <;> rfl
  | pairLive n => simp only [Inst.deliver]; split <;> rfl

theorem targetUsed_eq_false_iff {t : Target} : targetUsed t = false ↔ t = .none := by
  cases t <;> simp [targetUsed]

theorem target_used {t1 t0 : Target} (ht : t1 ≠ .none ∨ t0 ≠ .none) : (!targetUsed t0 && !targetUsed t1) = false := by
  refine Bool.eq_false_iff.2 fun h => ?_
  simp only [Bool.and_eq_true, Bool.not_eq_true', targetUsed_eq_false_iff] at h
  exact ht.elim (fun ht => ht h.2) fun ht => ht h.1

/-- R123: a firing with a target and a latency of at most 1 delivers its tokens and completes. -/
theorem Inst.produce_of_short (x : Inst) (now idx : Nat) {lat : Nat} {t1 t0 : Target} (v1 v0 : Token) (hl : lat ≤ 1)
    (ht : t1 ≠ .none ∨ t0 ≠ .none) : x.produce now idx lat t1 t0 v1 v0 =
      ((x.deliver (now + lat) idx t0 v0).deliver (now + lat) idx t1 v1).complete (now + lat) := by
  have used := target_used ht
  simp [Inst.produce, used, hl]

/-- R123: a firing with a target and a longer latency emits later. -/
theorem Inst.produce_of_long (x : Inst) (now idx : Nat) {lat : Nat} {t1 t0 : Target} (v1 v0 : Token) (hl : 1 < lat)
    (ht : t1 ≠ .none ∨ t0 ≠ .none) : x.produce now idx lat t1 t0 v1 v0 =
      { x with emits := x.emits ++ [⟨idx, now + lat, false, false, v0, v1, t0, t1⟩] } := by
  have used := target_used ht
  simp [Inst.produce, used, Nat.not_le.2 hl]

end Sys2Proof.Machine

open Sys2Proof Sys2Proof.Machine

/-- Settles O8: every computing instruction has one of the shapes whose null result is a lemma above. -/
theorem nullResults : Obligations.NullResults := by
  unfold Obligations.NullResults
  intro s x m fm fr cm q imm wd t1 t0 hx
  dsimp only
  refine ⟨fun h => ?_, fun h => ?_, fun h => ?_, fun h => ?_, fun h => ?_, fun h h1 => ?_⟩
  · have h' : x.squash ≠ none ∨ s.guardTrue = false ∨ ∃ v ∈ [s.opTok .a], v.null = true := by simpa using h
    have unary {i : Instr} {busy lat : Nat} {v : Token} (hi : exec i s = .next (s.compute busy lat t1 t0 [s.opTok .a] v)) :
        s.Sends i busy lat t1 t0 nullTok nullTok := ⟨_, hi, State.compute_null hx _ h' busy lat t1 t0 v⟩
    have cvt {i : Instr} (src : CvtFmt) (hi : exec i s = .next (s.convert src cm t1 t0)) :
        s.Sends i (if src == .f64 || cm.dest == .f64 then 4 else 1) (if src == .f64 || cm.dest == .f64 then 4 else 2)
          t1 t0 nullTok nullTok := ⟨_, hi, State.convert_null hx src cm h' t1 t0⟩
    have split : s.Sends (.split t1 t0) 1 1 t1 t0 nullTok nullTok := by
      refine ⟨_, rfl, ?_⟩
      simp only [State.runs_guard_eq_false hx h', Bool.false_eq_true, if_false]
      exact State.emit_null (s.pin_pinned _) hx 1 1 t1 t0
    simp only [List.forall_mem_cons]
    exact ⟨unary rfl, unary rfl, unary rfl, unary rfl, unary rfl, unary rfl, unary rfl, unary rfl, unary rfl,
      ⟨_, rfl, State.computeTag_null hx _ h' 1 1 t1 t0 _ _⟩, split, unary rfl, unary rfl, unary rfl, unary rfl,
      cvt .f64 rfl, cvt .f32 rfl, cvt .f16 rfl, cvt .bf16 rfl, cvt .e4m3 rfl, cvt .e5m2 rfl, cvt .i32 rfl, cvt .n32 rfl,
      cvt .i64 rfl, cvt .n64 rfl, List.forall_mem_nil _⟩
  · have h' : x.squash ≠ none ∨ s.guardTrue = false ∨ ∃ v ∈ [s.opTok .a, zeroB m.z (s.opTok .b)], v.null = true := by
      rcases h with h | h | h | ⟨hz, h⟩
      · exact .inl h
      · exact .inr (.inl h)
      · exact .inr (.inr ⟨_, by simp, h⟩)
      · exact .inr (.inr ⟨s.opTok .b, by simp [zeroB, hz], h⟩)
    have binary {i : Instr} {busy lat : Nat} {f : Int → Int → Nat → Int} {tag : Token → Token → Option (Nat × DWord)}
        (hi : exec i s = .next (s.intOp2 busy lat m t1 t0 f tag)) : s.Sends i busy lat t1 t0 nullTok nullTok :=
      ⟨_, hi, State.computeTag_null hx _ h' busy lat t1 t0 _ _⟩
    have cmp {i : Instr} {r : Rel} (hi : exec i s = .next (s.compare m r t1 t0)) : s.Sends i 1 1 t1 t0 nullTok nullTok :=
      ⟨_, hi, State.compare_null hx m r h' t1 t0⟩
    rw [← divTime_eq]
    simp only [List.forall_mem_cons]
    exact ⟨binary rfl, binary rfl, binary rfl, binary rfl, binary rfl, binary rfl, binary rfl, binary rfl, binary rfl,
      binary rfl, binary rfl, binary rfl, binary rfl, binary rfl, binary rfl, binary rfl, binary rfl, cmp rfl, cmp rfl,
      cmp rfl, cmp rfl, cmp rfl, cmp rfl, List.forall_mem_nil _⟩
  · have h' : x.squash ≠ none ∨ s.guardTrue = false ∨ ∃ v ∈ [s.opTok .a, s.opTok .b], v.null = true := by simpa using h
    have binary {i : Instr} {busy lat : Nat} {v : Token}
        (hi : exec i s = .next (s.compute busy lat t1 t0 [s.opTok .a, s.opTok .b] v)) :
        s.Sends i busy lat t1 t0 nullTok nullTok := ⟨_, hi, State.compute_null hx _ h' busy lat t1 t0 v⟩
    have cvtPk : s.Sends (.cvtPk cm t1 t0) 1 2 t1 t0 nullTok nullTok := by
      refine ⟨_, rfl, ?_⟩
      simp only [State.runs_guard_eq_false hx h', Bool.false_eq_true, if_false]
      exact State.emit_null (s.pin_pinned _) hx 1 2 t1 t0
    simp only [List.forall_mem_cons]
    exact ⟨binary rfl, binary rfl, binary rfl, binary rfl, binary rfl, binary rfl, binary rfl, binary rfl, binary rfl,
      binary rfl, binary rfl, binary rfl, binary rfl, binary rfl, binary rfl, binary rfl, binary rfl, binary rfl, cvtPk,
      List.forall_mem_nil _⟩
  · have h' : x.squash ≠ none ∨ ∃ v ∈ [s.opTok .a, s.opTok .b], v.null = true := by simpa using h
    simp only [List.forall_mem_cons]
    exact ⟨⟨_, rfl, State.gateOp_null hx true h' t1 t0⟩, ⟨_, rfl, State.gateOp_null hx false h' t1 t0⟩,
      List.forall_mem_nil _⟩
  · have h' : x.squash ≠ none ∨ ∃ v ∈ [s.opTok .a, s.opTok .b, s.opTok .c], v.null = true := by simpa using h
    have ternary {i : Instr} {busy lat : Nat} {v : Token}
        (hi : exec i s = .next (s.computeC busy lat t1 t0 [s.opTok .a, s.opTok .b, s.opTok .c] v)) :
        s.Sends i busy lat t1 t0 nullTok nullTok := ⟨_, hi, State.computeC_null hx _ h' busy lat t1 t0 v⟩
    have sel : s.Sends (.sel wd t1 t0) 1 1 t1 t0 nullTok nullTok := by
      refine ⟨_, rfl, ?_⟩
      simp only [State.runs_eq_false hx h', Bool.false_eq_true, if_false]
      exact State.emit_null (s.pin_pinned _) hx 1 1 t1 t0
    simp only [List.forall_mem_cons]
    exact ⟨ternary rfl, ternary rfl, sel, ternary rfl, ternary rfl, List.forall_mem_nil _⟩
  · subst h1
    have h' : x.squash ≠ none ∨ s.guardTrue = false ∨ ∃ v ∈ [s.opTok .a], v.null = true := by simpa using h
    have imm1 {i : Instr} {lat : Nat} {f : Nat → Nat} (hi : exec i s = .next (s.immOp lat t0 f)) :
        s.Sends i 1 lat .none t0 nullTok nullTok := ⟨_, hi, State.compute_null hx _ h' 1 lat .none t0 _⟩
    simp only [List.forall_mem_cons]
    exact ⟨⟨_, rfl, State.computeTag_null hx _ h' 1 1 .none t0 _ _⟩, imm1 rfl, imm1 rfl, imm1 rfl, imm1 rfl,
      ⟨_, rfl, State.compareImm_null hx .eq imm h' t0⟩, ⟨_, rfl, State.compareImm_null hx .lt imm h' t0⟩,
      List.forall_mem_nil _⟩

/-- Settles O7: what each plumbing instruction sends, and where `Inst.produce` puts it. -/
theorem plumbingValues : Obligations.PlumbingValues := by
  unfold Obligations.PlumbingValues
  refine ⟨fun s x wd t1 t0 a b c hx ha => ?_, fun x now idx lat t1 t0 v1 v0 => ?_⟩
  · have opA : s.opTok .a = a := State.has_or_null ha
    refine ⟨fun na hg => ?_, fun na hb => ⟨?_, ?_⟩, fun na hb hc => ?_, fun hb => ?_, fun na hb hg => ?_, fun na hg => ?_,
      ?_, ?_, ?_⟩
    · refine ⟨_, rfl, ?_⟩
      have runs : s.runs [a] = true := State.runs_of hx (by simp [na])
      rw [opA]
      cases htag : a.tag with
      | none => exact State.compute_emitted hx (by simp [na]) hg 1 1 t1 t0 a
      | some g =>
        have self : ({ a with tag := some g } : Token) = a := by rw [← htag]
        simp only [State.computeTag, runs, hg, Bool.and_self, if_true, self]
        exact State.emit_emitted (s.pin_pinned _) hx 1 1 t1 t0 a a
    · exact ⟨_, rfl, State.gateOp_emitted hx ⟨ha, na⟩ hb true t1 t0⟩
    · refine ⟨_, rfl, ?_⟩
      have gaten := State.gateOp_emitted hx ⟨ha, na⟩ hb false t1 t0
      cases hp : b.pred <;> simpa only [hp, if_true, Bool.false_eq_true, Bool.true_eq_false, if_false] using gaten
    · refine ⟨_, rfl, ?_⟩
      have runs : s.runs [a, b, c] = true := State.runs_of hx (by simp [na, hb.2, hc.2])
      simp only [opA, hb.opTok, hc.opTok, runs, if_true]
      exact State.emit_emitted (s.pin_pinned _) hx 1 1 t1 t0 _ _
    · refine ⟨_, rfl, ?_⟩
      simp only [opA, State.has_or_null hb]
      exact State.emit_emitted (.refl s) hx 1 1 t1 t0 _ _
    · refine ⟨_, _, rfl, State.compute_emitted hx (by simp [opA, na, hb.opTok, hb.2]) hg 1 1 t1 t0 _, rfl, rfl, ?_⟩
      have lowA : a.lo < 2 ^ 64 := Nat.mod_lt _ (by decide)
      have lowB : b.lo < 2 ^ 64 := Nat.mod_lt _ (by decide)
      simp only [opA, hb.opTok, pairTok, Token.nat, BitVec.toNat_ofNat]
      exact Nat.mod_eq_of_lt (by omega)
    · have runs : s.runs [a] = true := State.runs_of hx (by simp [na])
      refine ⟨dword (a.nat / 2 ^ 64), dword a.lo, ⟨_, rfl, ?_⟩, isDword_dword_of_lt ?_, isDword_dword_of_lt ?_⟩
      · simp only [opA, runs, hg, Bool.and_self, if_true]
        exact State.emit_emitted (s.pin_pinned _) hx 1 1 t1 t0 _ _
      · have : a.nat < 2 ^ 128 := a.data.isLt
        omega
      · exact Nat.mod_lt _ (by decide)
    · exact ⟨_, rfl, State.emit_emitted (s.pin_pinned _) hx 1 1 .none .none nullTok nullTok⟩
    · refine ⟨_, _, rfl, State.emit_emitted (s.pin_pinned _) hx 1 1 t1 t0 _ _, ?_⟩
      rw [opA]
      exact isPred_predTok Iff.rfl
    · exact ⟨_, rfl, State.emit_emitted (s.pin_pinned _) hx 1 1 .none .none nullTok nullTok⟩
  · refine ⟨pathDelay_eq, fun h1 h0 => ?_, fun hl ht => x.produce_of_long now idx v1 v0 hl ht, fun hl ht => ?_⟩
    · subst h1 h0; rfl
    · rw [x.produce_of_short now idx v1 v0 hl ht]
      refine ⟨fun p k h => ?_, fun p k h hne => ?_, ?_, ?_⟩
      · subst h; exact Inst.find?_deliver_self _ _ _ p k v1
      · subst h
        refine (Inst.find?_deliver_ne _ _ _ hne v1).trans (Inst.find?_deliver_self _ _ _ p k v0)
      · show ((x.deliver (now + lat) idx t0 v0).deliver (now + lat) idx t1 v1).liveOut = x.liveOut ++ liveOutsOf t0 v0 ++ liveOutsOf t1 v1
        rw [Inst.deliver_liveOut, Inst.deliver_liveOut]
      · simp [Inst.complete]

end

section
/-! Rounding (O9): the parts of a pattern, the grid of a format, and the quotient of `shiftRound`. -/

namespace Sys2Proof.Machine

/-! The parts of a pattern -/

/-- The formats of chapter 9 have an exponent of at least two bits and a fraction of at least one. -/
theorem FFmt.sizes {f : FFmt} (h : f ∈ [fmtF64, fmtF32, fmtF16, fmtBf16, fmtE5m2, fmtE4m3]) :
    4 ≤ 2 ^ f.e ∧ 2 ≤ 2 ^ f.m := by
  simp only [List.mem_cons, List.not_mem_nil, or_false] at h
  rcases h with rfl | rfl | rfl | rfl | rfl | rfl <;> decide

section
variable {f : FFmt} {p : Nat}

theorem FFmt.exponent_mod_signBit (f : FFmt) (p : Nat) : p % f.signBit / 2 ^ f.m = p / 2 ^ f.m % 2 ^ f.e := by
  rw [FFmt.signBit, Nat.add_comm, Nat.pow_add, Nat.mod_mul_right_div_self]

/-- A pattern is its sign, its exponent field and its fraction. -/
theorem FFmt.withSign_fields (hp : p < 2 ^ f.width) :
    f.withSign (f.neg p) (p / 2 ^ f.m % 2 ^ f.e * 2 ^ f.m + p % 2 ^ f.m) = p := by
  have low : p % f.signBit % 2 ^ f.m = p % 2 ^ f.m := Nat.mod_mod_of_dvd _ (Nat.pow_dvd_pow 2 (Nat.le_add_left _ _))
  rw [← f.exponent_mod_signBit, ← low, Nat.div_add_mod', f.withSign_neg_mod hp]

/-- The exponent of the largest finite value, as the field of its pattern. -/
theorem FFmt.maxFinite_fields (f : FFmt) (he : 4 ≤ 2 ^ f.e) (hm : 2 ≤ 2 ^ f.m) :
    f.maxFinite / 2 ^ f.m = (if f.hasInf then 2 ^ f.e - 2 else 2 ^ f.e - 1) ∧
      f.maxFinite % 2 ^ f.m = (if f.hasInf then 2 ^ f.m - 1 else 2 ^ f.m - 2) := by
  have pos : 0 < 2 ^ f.m := by omega
  have split (q r : Nat) (hr : r < 2 ^ f.m) : (q * 2 ^ f.m + r) / 2 ^ f.m = q ∧ (q * 2 ^ f.m + r) % 2 ^ f.m = r := by
    rw [Nat.mul_comm]
    exact ⟨by rw [Nat.mul_add_div pos, Nat.div_eq_of_lt hr, Nat.add_zero], by rw [Nat.mul_add_mod, Nat.mod_eq_of_lt hr]⟩
  unfold FFmt.maxFinite
  split
  · have top : (2 ^ f.e - 1) * 2 ^ f.m - 1 = (2 ^ f.e - 2) * 2 ^ f.m + (2 ^ f.m - 1) := by
      have : 2 ^ f.e - 1 = 2 ^ f.e - 2 + 1 := by omega
      rw [this, Nat.add_mul, Nat.one_mul]
      omega
    rw [top]
    exact split _ _ (by omega)
  · exact split _ _ (by omega)

/-- R177: a member of F′ of exponent field `E` and magnitude `g` at most the largest finite one is not over. -/
theorem FFmt.over_eq_false (f : FFmt) {E g : Nat}
    (h : E < f.maxFinite / 2 ^ f.m ∨ E = f.maxFinite / 2 ^ f.m ∧ g ≤ 2 ^ f.m + f.maxFinite % 2 ^ f.m) :
    f.over (g, (E : Int) - f.bias - f.m) = false := by
  simp only [FFmt.over, Bool.or_eq_false_iff, Bool.and_eq_false_iff, decide_eq_false_iff_not]
  omega

/-! The grid -/

/-- R177 step 1: a magnitude below 2^(m+1) at an exponent of the grid is a member of F′. -/
theorem FFmt.toGrid_of_le (f : FFmt) (mode : Rnd) (neg : Bool) {m : Nat} {e : Int}
    (hk : max ((Nat.log2 m : Int) + 1 + e - (f.m + 1)) f.kMin = e) : f.toGrid mode neg m e = (m, e) := by
  simp only [FFmt.toGrid, hk, Int.le_refl, if_true, Int.sub_self, Int.toNat_zero, Nat.pow_zero, Nat.mul_one]

theorem log2_normal {k M : Nat} (h : M < 2 ^ k) : Nat.log2 (2 ^ k + M) = k := by
  rw [Nat.log2_eq_iff (by have := Nat.two_pow_pos k; omega)]
  exact ⟨by omega, by rw [Nat.pow_succ]; omega⟩

/-- A magnitude `m * 2^e` that is a member of F′ not above the largest finite value, whose pattern without sign is `p`. -/
def FFmt.IsMember (f : FFmt) (m : Nat) (e : Int) (p : Nat) : Prop :=
  (∀ mode neg, f.toGrid mode neg m e = (m, e)) ∧ f.over (m, e) = false ∧ f.ofGrid (m, e) = p

theorem FFmt.isMember_subnormal (f : FFmt) (he : 4 ≤ 2 ^ f.e) (hm : 2 ≤ 2 ^ f.m) {M : Nat} (hM : M < 2 ^ f.m) :
    f.IsMember M f.kMin M := by
  have log : Nat.log2 M < f.m + 1 := by
    by_cases h0 : M = 0
    · subst h0; exact Nat.succ_pos _
    · exact Nat.lt_succ_of_lt ((Nat.log2_lt h0).2 hM)
  have one : f.kMin = ((1 : Nat) : Int) - f.bias - f.m := rfl
  refine ⟨fun mode neg => f.toGrid_of_le mode neg (by omega), ?_, ?_⟩
  · rw [one]
    refine f.over_eq_false (.inl ?_)
    rw [(f.maxFinite_fields he hm).1]
    split <;> omega
  · simp only [FFmt.ofGrid, hM, if_true]

theorem FFmt.isMember_normal (f : FFmt) {E M : Nat} (hM : M < 2 ^ f.m) (hE : E ≠ 0)
    (ht : E < f.maxFinite / 2 ^ f.m ∨ E = f.maxFinite / 2 ^ f.m ∧ M ≤ f.maxFinite % 2 ^ f.m) :
    f.IsMember (2 ^ f.m + M) ((E : Int) - f.bias - f.m) (E * 2 ^ f.m + M) := by
  have place : (((E : Int) - f.bias - f.m - f.kMin).toNat + 1) = E := by
    simp only [FFmt.kMin]
    omega
  refine ⟨fun mode neg => f.toGrid_of_le mode neg ?_, f.over_eq_false (by omega), ?_⟩
  · rw [log2_normal hM]
    simp only [FFmt.kMin]
    omega
  · simp only [FFmt.ofGrid, if_neg (Nat.not_lt.2 (Nat.le_add_right _ M)), place, Nat.add_sub_cancel_left]

/-- R172: a pattern that is no NaN is that of an infinity, or of a member of F′ with a sign. -/
theorem FFmt.value_member (he : 4 ≤ 2 ^ f.e) (hm : 2 ≤ 2 ^ f.m) (hp : p < 2 ^ f.width) (hn : f.value p ≠ .nan) :
    (∃ neg, f.value p = .inf neg ∧ f.hasInf = true ∧ p = f.withSign neg f.inf) ∨
      ∃ neg m e b, f.value p = .fin neg m e ∧ f.IsMember m e b ∧ p = f.withSign neg b := by
  have fields := FFmt.withSign_fields hp
  have frac : p % 2 ^ f.m < 2 ^ f.m := Nat.mod_lt _ (Nat.two_pow_pos _)
  have expo : p / 2 ^ f.m % 2 ^ f.e < 2 ^ f.e := Nat.mod_lt _ (Nat.two_pow_pos _)
  obtain ⟨top, last⟩ := f.maxFinite_fields he hm
  unfold FFmt.value at hn ⊢
  dsimp only at hn ⊢
  by_cases h0 : p / 2 ^ f.m % 2 ^ f.e = 0
  · rw [if_pos h0]
    refine .inr ⟨_, _, _, _, rfl, f.isMember_subnormal he hm frac, ?_⟩
    simpa only [h0, Nat.zero_mul, Nat.zero_add] using fields.symm
  rw [if_neg h0] at hn ⊢
  split at hn
  case isTrue hi =>
    rw [if_pos hi]
    split at hn
    case isTrue hz =>
      rw [if_pos hz]
      refine .inl ⟨_, rfl, hi.2, ?_⟩
      simpa only [FFmt.inf, hi.1, hz, Nat.add_zero] using fields.symm
    case isFalse => exact absurd rfl hn
  case isFalse hi =>
    rw [if_neg hi]
    split at hn
    case isTrue => exact absurd rfl hn
    case isFalse hnan =>
    rw [if_neg hnan]
    refine .inr ⟨_, _, _, _, rfl, f.isMember_normal frac h0 ?_, fields.symm⟩
    rw [top, last]
    by_cases hI : f.hasInf = true
    · simp only [hI, if_true, and_true] at hi ⊢
      omega
    · simp only [hI, Bool.false_eq_true, if_false, not_false_eq_true, and_true] at hnan ⊢
      omega

theorem FFmt.IsMember.zero {e : Int} {b : Nat} (h : f.IsMember 0 e b) : b = 0 := by
  obtain ⟨-, -, hb⟩ := h
  simpa only [FFmt.ofGrid, if_pos (Nat.two_pow_pos f.m)] using hb.symm

/-- R177: a pattern that is no NaN rounds to itself. -/
theorem FFmt.round_value (he : 4 ≤ 2 ^ f.e) (hm : 2 ≤ 2 ^ f.m) (mode : Rnd) (hp : p < 2 ^ f.width)
    (hn : f.value p ≠ .nan) : f.round mode (f.value p) = p := by
  obtain ⟨neg, hv, hI, hb⟩ | ⟨neg, m, e, b, hv, hmem, hb⟩ := FFmt.value_member he hm hp hn
  · simp only [hv, FFmt.round, hI, if_true, ← hb]
  · cases m with
    | zero => rw [hv, hb, hmem.zero]; rfl
    | succ m =>
      obtain ⟨grid, inRange, pattern⟩ := hmem
      rw [hv, hb]
      simp only [FFmt.round, grid, inRange, Bool.false_eq_true, if_false, pattern]

end

/-! The quotient -/

/-- R177: the multiple `q` of the step `u` that a mode chooses for a magnitude `m`. -/
def IsChosen (mode : Rnd) (neg : Bool) (m u q : Nat) : Prop :=
  let down := q * u ≤ m ∧ m < (q + 1) * u
  let up := m ≤ q * u ∧ q * u < m + u
  match mode with
  | .rne => 2 * (q * u) ≤ 2 * m + u ∧ 2 * m ≤ 2 * (q * u) + u ∧
      (2 * (q * u) = 2 * m + u ∨ 2 * m = 2 * (q * u) + u → q % 2 = 0)
  | .rtz => down
  | .rup => if neg then down else up
  | .rdn => if neg then up else down

/-- The shift of R177 gives the multiple that the mode chooses. -/
theorem shiftRound_isChosen (mode : Rnd) (neg : Bool) (m d : Nat) : IsChosen mode neg m (2 ^ d) (shiftRound mode neg m d) := by
  have pos : 0 < 2 ^ d := Nat.two_pow_pos d
  have rest : m % 2 ^ d < 2 ^ d := Nat.mod_lt _ pos
  have parts : m / 2 ^ d * 2 ^ d + m % 2 ^ d = m := Nat.div_add_mod' m _
  have next : (m / 2 ^ d + 1) * 2 ^ d = m / 2 ^ d * 2 ^ d + 2 ^ d := Nat.succ_mul _ _
  have next2 : (m / 2 ^ d + 1 + 1) * 2 ^ d = m / 2 ^ d * 2 ^ d + 2 ^ d + 2 ^ d := by rw [Nat.succ_mul, next]
  generalize hu : 2 ^ d = u at *
  generalize hq : m / u = q at *
  generalize hr : m % u = r at *
  cases mode with
  | rne =>
    simp only [IsChosen, shiftRound, hu, hq, hr]
    split
    case isTrue h =>
      simp only [Bool.or_eq_true, decide_eq_true_eq, Bool.and_eq_true, beq_iff_eq] at h
      rw [next]
      omega
    case isFalse h =>
      simp only [Bool.or_eq_true, decide_eq_true_eq, Bool.and_eq_true, beq_iff_eq] at h
      omega
  | rtz =>
    simp only [IsChosen, shiftRound, hu, hq, Bool.false_eq_true, if_false]
    rw [next]
    omega
  | rup =>
    simp only [IsChosen, shiftRound, hu, hq, hr]
    cases neg with
    | true => simp only [Bool.not_true, Bool.and_false, Bool.false_eq_true, if_false, if_true]; omega
    | false =>
      simp only [Bool.not_false, Bool.and_true, Bool.false_eq_true, if_false, bne_iff_ne]
      split
      · rw [next]; omega
      · omega
  | rdn =>
    simp only [IsChosen, shiftRound, hu, hq, hr]
    cases neg with
    | true =>
      simp only [Bool.and_true, if_true, bne_iff_ne]
      split
      · rw [next]; omega
      · omega
    | false => simp only [Bool.and_false, Bool.false_eq_true, if_false]; omega

end Sys2Proof.Machine

open Sys2Proof Sys2Proof.Machine

/-- Settles O9: patterns round to themselves by `FFmt.round_value`, other values by `shiftRound_isChosen`. -/
theorem roundingSteps : Obligations.RoundingSteps := by
  unfold Obligations.RoundingSteps
  intro f hf
  obtain ⟨he, hm⟩ := FFmt.sizes hf
  refine ⟨fun mode p hp hn => FFmt.round_value he hm mode hp hn, fun mode neg m e h0 => ?_⟩
  have place : max ((Nat.log2 m : Int) - f.m + e) f.kMin = max ((Nat.log2 m : Int) + 1 + e - (f.m + 1)) f.kMin := by
    congr 1
    omega
  dsimp only
  rw [place]
  generalize hk : max ((Nat.log2 m : Int) + 1 + e - (f.m + 1)) f.kMin = k
  by_cases hle : k ≤ e
  · refine ⟨m * 2 ^ (e - k).toNat, .inl ?_, fun _ => rfl, fun h => absurd hle (by omega)⟩
    simp only [FFmt.toGrid, hk, hle, if_true]
  · refine ⟨shiftRound mode neg m (k - e).toNat, ?_, fun h => absurd h hle, fun _ => ?_⟩
    · simp only [FFmt.toGrid, hk, hle, if_false]
      split
      · exact .inr ⟨‹_›, rfl⟩
      · exact .inl rfl
    · exact shiftRound_isChosen mode neg m (k - e).toNat

end

section
/-! Floating-point arithmetic (O10): a rounded value is a pattern of its format, and the special operands. -/

namespace Sys2Proof.Machine

/-! A rounded value is a pattern of its format -/

section
variable (f : FFmt)

theorem FFmt.signBit_eq_mul : f.signBit = 2 ^ f.e * 2 ^ f.m := by rw [FFmt.signBit, Nat.pow_add]

/-- An exponent field and a fraction stand below the sign bit. -/
theorem FFmt.fields_lt {E M : Nat} (hE : E < 2 ^ f.e) (hM : M < 2 ^ f.m) : E * 2 ^ f.m + M < f.signBit := by
  have step : (E + 1) * 2 ^ f.m ≤ 2 ^ f.e * 2 ^ f.m := Nat.mul_le_mul_right _ hE
  rw [Nat.succ_mul] at step
  rw [f.signBit_eq_mul]
  omega

variable {f} (he : 4 ≤ 2 ^ f.e) (hm : 2 ≤ 2 ^ f.m)
include he hm

theorem FFmt.canonNaN_lt : f.canonNaN < 2 ^ f.width := by
  have half : 2 ^ (f.m - 1) < 2 ^ f.m := by
    refine Nat.pow_lt_pow_right (by decide) (Nat.sub_lt (Nat.pos_of_ne_zero fun h => ?_) (by decide))
    simp [h] at hm
  have body : f.canonNaN < f.signBit := by
    unfold FFmt.canonNaN
    split
    · exact f.fields_lt (by omega) half
    · exact f.fields_lt (by omega) (by omega)
  rw [f.two_pow_width]
  omega

theorem FFmt.inf_lt : f.inf < f.signBit := f.fields_lt (E := 2 ^ f.e - 1) (M := 0) (by omega) (by omega)

theorem FFmt.maxFinite_lt : f.maxFinite < f.signBit := by
  have top := f.inf_lt he hm
  unfold FFmt.maxFinite
  split
  · unfold FFmt.inf at top; omega
  · exact f.fields_lt (by omega) (by omega)

omit he hm in
/-- R177 step 1: a member of F′ has a magnitude below 2^(m+1) and an exponent not below the least. -/
theorem FFmt.toGrid_bounds (f : FFmt) (mode : Rnd) (neg : Bool) (m : Nat) (e : Int) :
    (f.toGrid mode neg m e).1 < 2 ^ (f.m + 1) ∧ f.kMin ≤ (f.toGrid mode neg m e).2 := by
  have log : m < 2 ^ (Nat.log2 m + 1) := Nat.lt_log2_self
  unfold FFmt.toGrid
  dsimp only
  generalize hk : max ((Nat.log2 m : Int) + 1 + e - (f.m + 1)) f.kMin = k
  split
  case isTrue hle =>
    refine ⟨?_, by omega⟩
    calc m * 2 ^ (e - k).toNat < 2 ^ (Nat.log2 m + 1) * 2 ^ (e - k).toNat := Nat.mul_lt_mul_of_pos_right log (Nat.two_pow_pos _)
      _ = 2 ^ (Nat.log2 m + 1 + (e - k).toNat) := (Nat.pow_add _ _ _).symm
      _ ≤ 2 ^ (f.m + 1) := Nat.pow_le_pow_right (by decide) (by omega)
  case isFalse hle =>
    have quot : m / 2 ^ (k - e).toNat < 2 ^ (f.m + 1) := by
      rw [Nat.div_lt_iff_lt_mul (Nat.two_pow_pos _), ← Nat.pow_add]
      exact Nat.lt_of_lt_of_le log (Nat.pow_le_pow_right (by decide) (by omega))
    have shifted : shiftRound mode neg m (k - e).toNat ≤ m / 2 ^ (k - e).toNat + 1 := by
      unfold shiftRound
      cases mode <;> dsimp only <;> split <;> omega
    have half : 2 ^ f.m < 2 ^ (f.m + 1) := Nat.pow_lt_pow_right (by decide) (by omega)
    split
    · exact ⟨half, by dsimp only; omega⟩
    · exact ⟨by dsimp only; omega, by dsimp only; omega⟩

omit hm in
/-- R177 step 2: the pattern of a member of F′ that is not over stands below the sign bit. -/
theorem FFmt.ofGrid_lt (hm : 2 ≤ 2 ^ f.m) {g : Nat × Int} (hg : g.1 < 2 ^ (f.m + 1)) (hk : f.kMin ≤ g.2)
    (ho : f.over g = false) : f.ofGrid g < f.signBit := by
  have pos : 0 < 2 ^ f.e := by omega
  simp only [FFmt.over, Bool.or_eq_false_iff, decide_eq_false_iff_not] at ho
  have top := (f.maxFinite_fields he hm).1
  have topLt : f.maxFinite / 2 ^ f.m < 2 ^ f.e := by rw [top]; split <;> omega
  unfold FFmt.ofGrid
  split
  · rename_i h
    simpa using f.fields_lt (E := 0) pos h
  · refine f.fields_lt ?_ (by rw [Nat.pow_succ] at hg; omega)
    unfold FFmt.kMin at hk ⊢
    omega

/-- R177: what `round` gives is a pattern of the format. -/
theorem FFmt.round_lt (mode : Rnd) (x : FpNum) : f.round mode x < 2 ^ f.width := by
  have infinity (b : Bool) : (if b then f.inf else f.maxFinite) < f.signBit := by
    split
    · exact f.inf_lt he hm
    · exact f.maxFinite_lt he hm
  match x with
  | .nan => exact f.canonNaN_lt he hm
  | .inf neg => exact f.withSign_lt neg (infinity _)
  | .fin neg 0 _ => exact f.withSign_lt neg f.signBit_pos
  | .fin neg (m + 1) e =>
    simp only [FFmt.round]
    split
    · exact f.withSign_lt neg (infinity _)
    · rename_i h
      obtain ⟨hg, hk⟩ := f.toGrid_bounds mode neg (m + 1) e
      exact f.withSign_lt neg (FFmt.ofGrid_lt he hm hg hk (by simpa using h))

end

/-- The formats of the floating-point types are wide enough. -/
theorem fpFmt_sizes (ty : FpTy) : 4 ≤ 2 ^ (fpFmt ty).e ∧ 2 ≤ 2 ^ (fpFmt ty).m := by cases ty <;> decide

theorem fpFmt_round_lt (ty : FpTy) (mode : Rnd) (x : FpNum) : (fpFmt ty).round mode x < 2 ^ (fpFmt ty).width :=
  FFmt.round_lt (fpFmt_sizes ty).1 (fpFmt_sizes ty).2 mode x

/-- R192: a result flushed on its way out is a pattern of its format. -/
theorem flushOut_round_lt (ty : FpTy) (on : Bool) (mode : Rnd) (x : FpNum) :
    flushOut (fpFmt ty) on ((fpFmt ty).round mode x) < 2 ^ (fpFmt ty).width :=
  (fpFmt ty).flush_lt on (fpFmt_round_lt ty mode x)

theorem State.roundMode_of_live {s : State} {x : Inst} (hx : s.live x) : s.roundMode = rndOf x.fp.toNat := by
  simp only [State.roundMode, hx.1, rmOf]

/-- R193: `fadd` and `fmul` round the exact result of their lanes once, between the flushes. -/
theorem State.arith2_yields {s : State} {x : Inst} {m : FpMod} {t1 t0 : Target} {a b : Token} {i : Instr} {lat : Nat}
    (hx : s.live x) (ha : s.has .a a) (hb : s.has .b b) (hg : s.guardTrue = true) (op : FpNum → FpNum → FpNum)
    (hi : exec i s = .next (s.fp2 m.ty lat t1 t0 (arith2 m (fpFmt m.ty) s.roundMode op))) :
    s.Yields i (fpBusy m.ty) lat t1 t0 (IsFp m.ty fun k => (fpFmt m.ty).flush m.ftzo ((fpFmt m.ty).round (rndOf x.fp.toNat)
      (op ((fpFmt m.ty).value ((fpFmt m.ty).flush m.ftzi (fpLane m.ty a.nat k)))
        ((fpFmt m.ty).value ((fpFmt m.ty).flush m.ftzi (negB (fpFmt m.ty) m.negb (fpLane m.ty b.nat k))))))) := by
  rw [State.roundMode_of_live hx] at hi
  exact State.fp2_yields hx ha hb hg hi (isFp_dword_fpPack fun k => flushOut_round_lt m.ty m.ftzo _ _)

/-! Special operands (R193) -/

theorem sumNum_of_nan (rm : Rnd) {ts : List FpNum} (h : ∃ t ∈ ts, t.isNaN = true) : sumNum rm ts = .nan := by
  simp only [sumNum, List.any_eq_true.2 h, if_true]

/-- R175: the exact sum of a value and its negative is a zero, negative in the mode toward minus infinity alone. -/
theorem sumNum_cancel (rm : Rnd) (p : Bool) (m : Nat) (e : Int) :
    sumNum rm [.fin p m e, .fin (!p) m e] = .fin (rm == .rdn) 0 0 := by
  cases p <;> simp [sumNum, FpNum.isNaN, sumAt, leastExp, alignTo, allZeros, Int.add_right_neg,
    Int.add_left_neg]

/-! Class and integral rounding (R197, R198) -/

/-- The sign of an infinity is the sign bit of its pattern. -/
theorem FFmt.neg_of_value_eq_inf {f : FFmt} {x : Nat} {n : Bool} (h : f.value x = .inf n) : f.neg x = n := by
  unfold FFmt.value at h
  dsimp only at h
  split at h
  · exact absurd h FpNum.noConfusion
  split at h
  · split at h
    · exact FpNum.inf.inj h
    · exact absurd h FpNum.noConfusion
  · split at h <;> exact absurd h FpNum.noConfusion

/-- R197: the class of a pattern is one bit, chosen by its value. -/
theorem classBit_eq (f : FFmt) (x : Nat) : ∃ i, i ≤ 8 ∧ classBit f x = 2 ^ i ∧
    (match f.value x with
     | .nan => i = 8
     | .inf n => i = if n then 0 else 7
     | .fin n 0 _ => i = if n then 3 else 4
     | .fin n _ _ => if f.isSubnormal x then i = (if n then 2 else 5) else i = (if n then 1 else 6)) := by
  unfold classBit
  match hv : f.value x with
  | .nan => exact ⟨8, Nat.le_refl _, rfl, rfl⟩
  | .inf n =>
    have sign := FFmt.neg_of_value_eq_inf hv
    simp only [sign]
    refine ⟨if n then 0 else 7, ?_, ?_, rfl⟩ <;> cases n <;> decide
  | .fin n 0 e =>
    have sign := FFmt.neg_of_value_eq_fin hv
    simp only [sign]
    refine ⟨if n then 3 else 4, ?_, ?_, rfl⟩ <;> cases n <;> decide
  | .fin n (k + 1) e =>
    have sign := FFmt.neg_of_value_eq_fin hv
    simp only [sign]
    split
    · refine ⟨if n then 2 else 5, ?_, ?_, rfl⟩ <;> cases n <;> decide
    · refine ⟨if n then 1 else 6, ?_, ?_, rfl⟩ <;> cases n <;> decide

/-- R176: 16 bits from bit 16k on are lane `k` of a packing of small lanes. -/
theorem fpPack_sixteen (ty : FpTy) {r : Nat → Nat} (hr : ∀ k, r k ≤ 256) {k : Nat} (hk : k < fpLanes ty) :
    fpPack ty r / 2 ^ (16 * k) % 2 ^ 16 = r k := by
  have h0 := hr 0
  have h1 := hr 1
  obtain ⟨hl, -⟩ | ⟨hl, -⟩ := fpLanes_cases ty
  · obtain rfl : k = 0 := by omega
    rw [fpPack, hl, if_neg (by decide)]
    omega
  · simp only [fpPack, hl, if_true]
    obtain rfl | rfl : k = 0 ∨ k = 1 := by omega
    · omega
    · omega

theorem fpPack_lt_of_small (ty : FpTy) {r : Nat → Nat} (hr : ∀ k, r k ≤ 256) : fpPack ty r < 2 ^ 64 := by
  have h0 := hr 0
  have h1 := hr 1
  unfold fpPack
  split <;> omega

theorem shiftRound_zero (mode : Rnd) (neg : Bool) (d : Nat) : shiftRound mode neg 0 d = 0 := by
  have pos : 2 ^ d ≠ 0 := Nat.ne_of_gt (Nat.two_pow_pos d)
  cases mode <;> simp [shiftRound, pos.symm]

theorem intOf_zero (mode : Rnd) (neg : Bool) (e : Int) : intOf mode neg 0 e = 0 := by
  simp [intOf, shiftRound_zero]

/-- R198: the lane of `fround`, by the value of its input after the flush. -/
theorem froundLane_eq (m : FroundMod) (ty : FpTy) {a : Nat} (ha : a < 2 ^ (fpFmt ty).width) :
    froundLane m (fpFmt ty) a =
      (match (fpFmt ty).value ((fpFmt ty).flush m.ftzi a) with
       | .nan => (fpFmt ty).canonNaN
       | .fin neg n e => (fpFmt ty).round .rne (.fin neg (intOf m.rnd neg n e).natAbs 0)
       | .inf _ => (fpFmt ty).flush m.ftzi a) := by
  unfold froundLane
  dsimp only
  match hv : (fpFmt ty).value ((fpFmt ty).flush m.ftzi a) with
  | .nan => rfl
  | .inf n => rfl
  | .fin n (k + 1) e => rfl
  | .fin n 0 e =>
    have self := FFmt.round_value (fpFmt_sizes ty).1 (fpFmt_sizes ty).2 .rne ((fpFmt ty).flush_lt m.ftzi ha)
      (by rw [hv]; exact FpNum.noConfusion)
    rw [hv] at self
    simp only [intOf_zero, Int.natAbs_zero]
    exact self.symm

theorem froundLane_lt (m : FroundMod) (ty : FpTy) {a : Nat} (ha : a < 2 ^ (fpFmt ty).width) :
    froundLane m (fpFmt ty) a < 2 ^ (fpFmt ty).width := by
  rw [froundLane_eq m ty ha]
  split
  · exact canonNaN_fpFmt_lt ty
  · exact fpFmt_round_lt ty _ _
  · exact (fpFmt ty).flush_lt m.ftzi ha

end Sys2Proof.Machine

open Sys2Proof Sys2Proof.Machine

/-- Settles O10: one rounding between the flushes for the arithmetic, the table of special operands, and the class and the
integral value of a lane. -/
theorem floatArithmetic : Obligations.FloatArithmetic := by
  unfold Obligations.FloatArithmetic
  refine ⟨fun s x m t1 t0 a b c hx ha hb => ?_, fun rm p q x y z m n e g => ?_, fun s x m fr t1 t0 a hx ha hg => ?_⟩
  · have mode := State.roundMode_of_live hx
    refine ⟨fun hg => ⟨?_, ?_⟩, fun hc => ?_, fun hc hty => ?_⟩
    · exact State.arith2_yields hx ha hb hg (fun x y => sumNum s.roundMode [x, y]) rfl |>.mono fun v hv => by rwa [mode] at hv
    · exact State.arith2_yields hx ha hb hg FpNum.mul rfl
    · have ops : ∀ v ∈ [s.opTok .a, s.opTok .b, s.opTok .c], v.null = false := by
        simp [ha.opTok, hb.opTok, hc.opTok, ha.2, hb.2, hc.2]
      refine ⟨_, _, rfl, State.computeC_emitted hx ops _ _ t1 t0 _, ?_⟩
      simp only [ha.opTok, hb.opTok, hc.opTok, mode, fmaLane]
      exact isFp_dword_fpPack fun k => flushOut_round_lt m.ty m.ftzo _ _
    · have ops : ∀ v ∈ [s.opTok .a, s.opTok .b, s.opTok .c], v.null = false := by
        simp [ha.opTok, hb.opTok, hc.opTok, ha.2, hb.2, hc.2]
      have lat : latArith m.ty = 4 := by rcases hty with h | h <;> rw [h] <;> rfl
      rw [← lat]
      refine ⟨_, _, rfl, State.computeC_emitted hx ops 1 (latArith m.ty) t1 t0 _, ?_⟩
      have fits (y : FpNum) : fmtF32.flush m.ftzo (fmtF32.round (rndOf x.fp.toNat) y) < 2 ^ 64 :=
        Nat.lt_trans (flushOut_round_lt .f32 m.ftzo _ y) (by decide)
      simp only [ha.opTok, hb.opTok, hc.opTok, mode, fdot2Val, flushOut, fpIn, fpInB]
      exact isDword_dword_of_lt (fits _)
  · refine ⟨⟨?_, fun h => ?_⟩, ?_, fun _ => sumNum_cancel rm p m e, ⟨rfl, rfl⟩, fun hz => ?_, rfl, fun h0 => ?_, rfl, fun h0 => ?_,
      rfl, rfl, rfl, rfl, rfl, fun h0 => ?_, rfl, rfl⟩
    · cases p <;> rfl
    · exact sumNum_of_nan rm (by simpa using h)
    · cases p <;> simp [sumNum, FpNum.isNaN]
    · exact sumNum_of_nan rm ⟨.nan, by simp [FpNum.mul], rfl⟩
    · simp [FpNum.mul, h0]
    · simp [FpNum.div, h0]
    · cases n with
      | zero => exact absurd rfl h0
      | succ n => rfl
  · refine ⟨?_, ?_⟩
    · refine State.fp1_yields hx ha hg rfl ?_
      have small (k : Nat) : classBit (fpFmt m.ty) (fpIn m (fpFmt m.ty) (fpLane m.ty a.nat k)) ≤ 256 := by
        obtain ⟨i, hi, hc, -⟩ := classBit_eq (fpFmt m.ty) (fpIn m (fpFmt m.ty) (fpLane m.ty a.nat k))
        rw [hc]
        exact Nat.pow_le_pow_right (n := 2) (by decide) hi
      obtain ⟨hn, hp, hv⟩ := isDword_dword_of_lt (fpPack_lt_of_small m.ty small)
      refine ⟨hn, hp, fun k hk => ?_⟩
      obtain ⟨i, -, hc, hm⟩ := classBit_eq (fpFmt m.ty) (fpIn m (fpFmt m.ty) (fpLane m.ty a.nat k))
      exact ⟨i, by rw [hv, fpPack_sixteen m.ty small hk, hc], hm⟩
    · refine State.fp1_yields hx ha hg rfl ?_
      refine (isFp_dword_fpPack fun k => froundLane_lt fr fr.ty (fpLane_lt _ k)).congr fun k => ?_
      exact froundLane_eq fr fr.ty (fpLane_lt _ k)

end

section
/-! Special-function ports (O15) and conversions (O16). -/

namespace Sys2Proof.Machine

/-! What goes by a special-function port (R119, R200) -/

section
variable {s : State} {x : Inst} {m : FpMod} {t1 t0 : Target} {i : Instr} {lat : Nat} {P : Token → Prop}

theorem State.port1_yieldsByPort {f : Nat → Nat} (hx : s.live x) {a : Token} (ha : s.has .a a) (hg : s.guardTrue = true)
    (hi : exec i s = .next (s.port1 m lat t1 t0 f))
    (hp : P (dword (fpPack m.ty fun k => flushOut (fpFmt m.ty) m.ftzo (f (fpIn m (fpFmt m.ty) (fpLane m.ty a.nat k)))))) :
    s.YieldsByPort i 1 lat 1 t1 t0 P :=
  State.yieldsByPort 1 (State.compute_emitted hx ha.operands hg 1 lat t1 t0 _) hi (by rwa [ha.opTok])

theorem State.fp1_yieldsByPort {f : Nat → Nat} {hold : Nat} {ty : FpTy} (hx : s.live x) {a : Token} (ha : s.has .a a)
    (hg : s.guardTrue = true) (hi : exec i s = .next ((s.fp1 ty lat t1 t0 f).viaPort hold))
    (hp : P (dword (fpPack ty fun k => f (fpLane ty a.nat k)))) : s.YieldsByPort i (fpBusy ty) lat hold t1 t0 P :=
  State.yieldsByPort hold (State.compute_emitted hx ha.operands hg (fpBusy ty) lat t1 t0 _) hi (by rwa [ha.opTok])

theorem State.fp2_yieldsByPort {f : Nat → Nat → Nat} {hold : Nat} {ty : FpTy} (hx : s.live x) {a b : Token} (ha : s.has .a a)
    (hb : s.has .b b) (hg : s.guardTrue = true) (hi : exec i s = .next ((s.fp2 ty lat t1 t0 f).viaPort hold))
    (hp : P (dword (fpPack ty fun k => f (fpLane ty a.nat k) (fpLane ty b.nat k)))) :
    s.YieldsByPort i (fpBusy ty) lat hold t1 t0 P :=
  State.yieldsByPort hold (State.compute_emitted hx (ha.operands2 hb) hg (fpBusy ty) lat t1 t0 _) hi
    (by rwa [ha.opTok, hb.opTok])

/-- A null goes by the port as a value does, after the same time. -/
theorem State.null_yieldsByPort {busy hold : Nat} {ops : List Token} {v : Token} (hx : s.curInst? = some x)
    (h : x.squash ≠ none ∨ s.guardTrue = false ∨ ∃ v ∈ ops, v.null = true)
    (hi : exec i s = .next ((s.compute busy lat t1 t0 ops v).viaPort hold)) :
    s.YieldsByPort i busy lat hold t1 t0 (fun v => v = nullTok) :=
  State.yieldsByPort hold (State.compute_null hx ops h busy lat t1 t0 v) hi rfl

end

/-! Saturated rounding (R178) -/

section
variable {f : FFmt}

theorem FFmt.roundSat_lt (he : 4 ≤ 2 ^ f.e) (hm : 2 ≤ 2 ^ f.m) (mode : Rnd) (x : FpNum) :
    (f.roundSat mode x).1 < 2 ^ f.width := by
  have inf (neg : Bool) := f.withSign_lt neg (f.inf_lt he hm)
  have top (neg : Bool) := f.withSign_lt neg (f.maxFinite_lt he hm)
  match x with
  | .nan => exact f.canonNaN_lt he hm
  | .inf neg =>
    simp only [FFmt.roundSat]
    split
    · exact inf neg
    · exact top neg
  | .fin neg 0 _ => exact f.withSign_lt neg f.signBit_pos
  | .fin neg (m + 1) e =>
    simp only [FFmt.roundSat]
    split
    · exact top neg
    · rename_i h
      obtain ⟨hg, hk⟩ := f.toGrid_bounds mode neg (m + 1) e
      exact f.withSign_lt neg (FFmt.ofGrid_lt he hm hg hk (by simpa using h))

/-- R178: a pattern that is no NaN rounds to itself, without the flag. -/
theorem FFmt.roundSat_value (he : 4 ≤ 2 ^ f.e) (hm : 2 ≤ 2 ^ f.m) (mode : Rnd) {p : Nat} (hp : p < 2 ^ f.width)
    (hn : f.value p ≠ .nan) : f.roundSat mode (f.value p) = (p, false) := by
  obtain ⟨neg, hv, hI, hb⟩ | ⟨neg, m, e, b, hv, hmem, hb⟩ := FFmt.value_member he hm hp hn
  · simp only [hv, FFmt.roundSat, hI, if_true, ← hb]
  · cases m with
    | zero => rw [hv, hb, hmem.zero]; rfl
    | succ m =>
      obtain ⟨grid, inRange, pattern⟩ := hmem
      rw [hv, hb]
      simp only [FFmt.roundSat, grid, inRange, Bool.false_eq_true, if_false, pattern]

end

/-! Conversions (R202, R203) -/

/-- The formats that a conversion knows are wide enough, and no wider than a dword; only one is without infinities. -/
theorem cvtFloat_sizes {d : CvtFmt} {f : FFmt} (h : cvtFloat d = some f) :
    4 ≤ 2 ^ f.e ∧ 2 ≤ 2 ^ f.m ∧ f.width ≤ 64 ∧ (f.hasInf = false → f.maxFinite = 126) := by
  cases d <;> simp only [cvtFloat, Option.some.injEq, reduceCtorEq] at h <;> subst h <;> decide

theorem cvtNum_of_float {d : CvtFmt} {f : FFmt} (h : cvtFloat d = some f) (rm : Rnd) (x : FpNum) :
    cvtNum d rm x = f.roundSat rm x := by simp only [cvtNum, h]

/-- What a conversion places fits a dword. -/
theorem cvtNum_lt (d : CvtFmt) (rm : Rnd) (x : FpNum) : (cvtNum d rm x).1 < 2 ^ 64 := by
  cases h : cvtFloat d with
  | some f =>
    obtain ⟨he, hm, hw, -⟩ := cvtFloat_sizes h
    rw [cvtNum_of_float h]
    exact Nat.lt_of_lt_of_le (FFmt.roundSat_lt he hm rm x) (Nat.pow_le_pow_right (by decide) hw)
  | none =>
    rcases x with _ | ⟨_ | _⟩ | ⟨neg, m, e⟩ <;> simp only [cvtNum, h]
    · decide
    · exact packLanes_lt _ _
    · exact packLanes_lt _ _
    · exact packLanes_lt _ _

theorem isPred_predTok_self (b : Bool) : IsPred (b = true) (predTok b) := isPred_predTok Iff.rfl

/-- R202: a conversion puts the value on T0 and the predicate on T1. -/
theorem State.convert_emitted {s : State} {x : Inst} {a : Token} (hx : s.live x) (ha : s.has .a a) (hg : s.guardTrue = true)
    (src : CvtFmt) (m : CvtMod) (t1 t0 : Target) :
    let r := cvtNum m.dest m.rnd (cvtSource src a.nat)
    Emitted s (s.convert src m t1 t0) (if src = .f64 ∨ m.dest = .f64 then 4 else 1)
      (if src = .f64 ∨ m.dest = .f64 then 4 else 2) t1 t0 (predTok r.2) (dword r.1) := by
  have runs : s.runs [a] = true := State.runs_of hx (by simp [ha.2])
  have busy : (if cvtLat src m.dest = 4 then 4 else 1) = if src = .f64 ∨ m.dest = .f64 then 4 else 1 := by
    unfold cvtLat; split <;> simp
  simp only [State.convert, ha.opTok, runs, hg, Bool.and_self, if_true, busy]
  exact State.emit_emitted (s.pin_pinned _) hx _ _ t1 t0 _ _

/-- R203: the clamp to the range of an integer changes a number exactly where it is outside. -/
theorem clamp_ne_iff {lo hi q : Int} (h : lo ≤ hi) : (q != min (max q lo) hi) = true ↔ q < lo ∨ hi < q := by
  rw [bne_iff_ne]
  omega

theorem laneLo_le_laneHi (ty : IntTy) : laneLo ty ≤ laneHi ty := by cases ty <;> decide

end Sys2Proof.Machine

open Sys2Proof Sys2Proof.Machine

/-- Settles O15: each of these instructions computes and sends what it computed by a port. -/
theorem specialFunctionPorts : Obligations.SpecialFunctionPorts := by
  unfold Obligations.SpecialFunctionPorts
  intro s x m t1 t0 hx
  refine ⟨fun a hs hg ha => ?_, fun h => ?_, fun h => ?_⟩
  · have live : s.live x := ⟨hx, hs⟩
    have port {i : Instr} {lat : Nat} {f : Nat → Nat} (hi : exec i s = .next (s.port1 m lat t1 t0 f)) :
        s.YieldsByPort i 1 lat 1 t1 t0 (fun v => v.null = false ∧ v.pair = false) :=
      State.port1_yieldsByPort live ha hg hi ⟨rfl, rfl⟩
    refine ⟨State.fp1_yieldsByPort live ha hg rfl ⟨rfl, rfl⟩, fun _ => ?_,
      fun b hb => State.fp2_yieldsByPort live ha hb hg rfl ⟨rfl, rfl⟩⟩
    simp only [List.forall_mem_cons]
    exact ⟨port rfl, port rfl, port rfl, port rfl, port rfl, port rfl, port rfl, List.forall_mem_nil _⟩
  · have h' : x.squash ≠ none ∨ s.guardTrue = false ∨ ∃ v ∈ [s.opTok .a], v.null = true := by simpa using h
    have port {i : Instr} {lat : Nat} {v : Token} (hi : exec i s = .next ((s.compute 1 lat t1 t0 [s.opTok .a] v).viaPort 1)) :
        s.YieldsByPort i 1 lat 1 t1 t0 (fun v => v = nullTok) := State.null_yieldsByPort hx h' hi
    refine ⟨State.null_yieldsByPort hx h' rfl, fun _ => ?_⟩
    simp only [List.forall_mem_cons]
    exact ⟨port rfl, port rfl, port rfl, port rfl, port rfl, port rfl, port rfl, List.forall_mem_nil _⟩
  · have h' : x.squash ≠ none ∨ s.guardTrue = false ∨ ∃ v ∈ [s.opTok .a, s.opTok .b], v.null = true := by simpa using h
    exact State.null_yieldsByPort hx h' rfl

/-- Settles O16: the tokens of a conversion are those of `cvtNum`, which rounds with saturation or clamps. -/
theorem conversions : Obligations.Conversions := by
  unfold Obligations.Conversions
  refine ⟨fun s x m t1 t0 a b hx ha hg => ⟨?_, fun f hb hd hf => ?_⟩, fun rm neg m e v d => ⟨fun f hf => ?_, fun hd => ?_⟩⟩
  · have cvt {i : Instr} (src : CvtFmt) (hi : exec i s = .next (s.convert src m t1 t0)) :
        let wide := src = .f64 ∨ m.dest = .f64
        ∃ v1 v0, s.Sends i (if wide then 4 else 1) (if wide then 4 else 2) t1 t0 v1 v0 ∧
          IsTok false (cvtNum m.dest m.rnd (cvtSource src a.nat)).1 v0 ∧
          IsPred ((cvtNum m.dest m.rnd (cvtSource src a.nat)).2 = true) v1 :=
      ⟨_, _, ⟨_, hi, State.convert_emitted hx ha hg src m t1 t0⟩, isDword_dword_of_lt (cvtNum_lt _ _ _),
        isPred_predTok_self _⟩
    simp only [List.forall_mem_cons]
    exact ⟨cvt .f64 rfl, cvt .f32 rfl, cvt .f16 rfl, cvt .bf16 rfl, cvt .e4m3 rfl, cvt .e5m2 rfl, cvt .i32 rfl, cvt .n32 rfl,
      cvt .i64 rfl, cvt .n64 rfl, List.forall_mem_nil _⟩
  · have runs : s.runs [a, b] = true := State.runs_of hx (by simp [ha.2, hb.2])
    obtain ⟨he, hm, -, -⟩ := cvtFloat_sizes hf
    have lane (n : Nat) : cvtVal .f32 m n = f.roundSat m.rnd (fmtF32.value (n % 2 ^ 32)) := cvtNum_of_float hf m.rnd _
    have narrow : f.width ≤ 16 := by
      revert hd hf
      generalize m.dest = d
      intro hd hf
      simp only [List.mem_cons, List.not_mem_nil, or_false] at hd
      rcases hd with rfl | rfl | rfl | rfl <;> cases hf <;> decide
    have fits : (f.roundSat m.rnd (fmtF32.value (a.nat % 2 ^ 32))).1 +
        2 ^ f.width * (f.roundSat m.rnd (fmtF32.value (b.nat % 2 ^ 32))).1 < 2 ^ 64 := by
      have low := FFmt.roundSat_lt he hm m.rnd (fmtF32.value (a.nat % 2 ^ 32))
      have high := FFmt.roundSat_lt he hm m.rnd (fmtF32.value (b.nat % 2 ^ 32))
      have width : 2 ^ f.width ≤ 2 ^ 16 := Nat.pow_le_pow_right (by decide) narrow
      have upper := Nat.mul_le_mul width (Nat.le_trans (Nat.le_of_lt high) width)
      omega
    refine ⟨predTok (cvtPkVal m a.nat b.nat).2, dword (cvtPkVal m a.nat b.nat).1, ⟨_, rfl, ?_⟩, ?_, ?_⟩
    · simp only [ha.opTok, hb.opTok, runs, hg, Bool.and_self, if_true]
      exact State.emit_emitted (s.pin_pinned _) hx 1 2 t1 t0 _ _
    · simp only [cvtPkVal, lane, hf]
      exact isDword_dword_of_lt fits
    · simp only [cvtPkVal, lane]
      exact isPred_predTok Bool.or_eq_true_iff
  · obtain ⟨he, hm, hw, htop⟩ := cvtFloat_sizes hf
    simp only [cvtNum_of_float hf]
    refine ⟨rfl, fun hI => ?_, fun hI => ?_, rfl, fun h0 => ?_, fun hv => ?_⟩
    · simp only [FFmt.roundSat, hI, if_true]
    · simp only [FFmt.roundSat, hI, Bool.false_eq_true, if_false, htop hI]
    · cases m with
      | zero => exact absurd rfl h0
      | succ m => rfl
    · have source : cvtSource d v = f.value v := by simp only [cvtSource, hf, Nat.mod_eq_of_lt hv]
      rw [source]
      by_cases hn : f.value v = .nan
      · rw [if_pos hn, hn]; rfl
      · rw [if_neg hn, FFmt.roundSat_value he hm rm hv hn]
  · have range := laneLo_le_laneHi (cvtInt d)
    simp only [cvtNum, hd]
    refine ⟨trivial, ?_, trivial, clamp_ne_iff range⟩
    generalize laneLo (cvtInt d) = lo at range
    generalize laneHi (cvtInt d) = hi at range
    have clampHigh : min (max (hi + 1) lo) hi = hi ∧ hi + 1 ≠ hi := by omega
    have clampLow : min (max (lo - 1) lo) hi = lo ∧ lo - 1 ≠ lo := by omega
    cases neg with
    | false => simp [clampHigh]
    | true => simp [clampLow, Int.min_eq_left range]

end

section
/-! 1/√a (O14): rounding to nearest as an order of exact values, and the root of a quotient. -/

namespace Sys2Proof.Machine

/-- The exact value of a magnitude `m * 2^e`. -/
def mag (m : Nat) (e : Int) : Rat := m * 2 ^ e

theorem mag_pos {m : Nat} (h : m ≠ 0) (e : Int) : 0 < mag m e := by
  unfold mag
  have : (0 : Rat) < m := by exact_mod_cast Nat.pos_of_ne_zero h
  exact Rat.mul_pos this (Rat.zpow_pos (by decide))

theorem mag_nonneg (m : Nat) (e : Int) : 0 ≤ mag m e := Rat.mul_nonneg (Rat.natCast_nonneg) (Rat.zpow_nonneg (by decide))

/-- A magnitude at a lower exponent. -/
theorem mag_eq_of_le (m : Nat) {e k : Int} (h : k ≤ e) : mag m e = mag (m * 2 ^ (e - k).toNat) k := by
  have split : (2 : Rat) ^ e = 2 ^ (e - k).toNat * 2 ^ k := by
    rw [← Rat.zpow_natCast, ← Rat.zpow_add (by decide), Int.toNat_of_nonneg (by omega)]
    congr 1
    omega
  simp only [mag, split, Rat.natCast_mul, Rat.natCast_pow, Rat.natCast_ofNat]
  grind

/-- The order of two magnitudes at one exponent. -/
theorem mag_le_mag_iff {m n : Nat} (e : Int) : mag m e ≤ mag n e ↔ m ≤ n := by
  have pos : (0 : Rat) < 2 ^ e := Rat.zpow_pos (by decide)
  refine ⟨fun h => Rat.natCast_le_natCast.1 (Rat.le_of_mul_le_mul_right h pos), fun h => ?_⟩
  exact Rat.mul_le_mul_of_nonneg_right (Rat.natCast_le_natCast.2 h) (Rat.le_of_lt pos)

/-! Rounding to nearest (R177), as bounds of exact values -/

section
variable {f : FFmt}

/-- R177: what rounding a positive `m * 2^e` to nearest on the grid of a format gives: `q * 2^k`, normal or of the least exponent,
within half a step; and above the least exponent, not below the point where it leaves the step below. -/
structure IsNearest (f : FFmt) (m : Nat) (e : Int) (q : Nat) (k : Int) : Prop where
  lt : q < 2 ^ (f.m + 1)
  least : f.kMin ≤ k
  normal : k = f.kMin ∨ 2 ^ f.m ≤ q
  above : mag m e ≤ mag (2 * q + 1) (k - 1)
  below : mag (2 * q) (k - 1) ≤ mag m e + mag 1 (k - 1)
  step : f.kMin < k → mag (2 ^ (f.m + 2) - 1) (k - 2) ≤ mag m e

theorem log2_bounds {m : Nat} (h0 : m ≠ 0) : 2 ^ Nat.log2 m ≤ m ∧ m < 2 ^ (Nat.log2 m + 1) :=
  (Nat.log2_eq_iff h0).1 rfl

/-- A magnitude of `l` bits and more at `e` is at least `2^l * 2^e`. -/
theorem mag_two_pow_le {m l : Nat} {e : Int} (h : 2 ^ l ≤ m) {k : Int} {n : Nat} (hk : k + n = e + l) : mag (2 ^ n) k ≤ mag m e := by
  have cast : ((2 : Rat) ^ l) ≤ m := by exact_mod_cast h
  calc mag (2 ^ n) k = 2 ^ (k + n) := by
        simp only [mag, Rat.natCast_pow, Rat.natCast_ofNat]
        rw [Rat.zpow_add (by decide), Rat.zpow_natCast, Rat.mul_comm]
    _ = 2 ^ l * 2 ^ e := by rw [hk, Rat.zpow_add (by decide), Rat.zpow_natCast, Rat.mul_comm]
    _ ≤ mag m e := Rat.mul_le_mul_of_nonneg_right cast (Rat.zpow_nonneg (by decide))

theorem mag_add (m n : Nat) (e : Int) : mag m e + mag n e = mag (m + n) e := by
  simp only [mag, Rat.natCast_add, Rat.add_mul]

/-- A magnitude in halves of its step. -/
theorem mag_double (m : Nat) (e : Int) : mag m e = mag (2 * m) (e - 1) := by
  rw [mag_eq_of_le m (show e - 1 ≤ e by omega)]
  have one : (e - (e - 1)).toNat = 1 := by omega
  rw [one, Nat.mul_comm, Nat.pow_one]

theorem Rat.le_add_of_nonneg_right {a b : Rat} (h : 0 ≤ b) : a ≤ a + b := by grind

theorem mag_mono {m n : Nat} (h : m ≤ n) (e : Int) : mag m e ≤ mag n e := (mag_le_mag_iff e).2 h

/-- R177: above the least exponent the place of the last bit is `log2 m - f.m`, so that the magnitude has all its bits. -/
theorem two_pow_le_of_place {m : Nat} (h0 : m ≠ 0) {e k : Int} (hk : k = (Nat.log2 m : Int) + 1 + e - (f.m + 1)) :
    mag (2 ^ f.m) k ≤ mag m e :=
  mag_two_pow_le (log2_bounds h0).1 (by omega)

theorem mag_step_le (k : Int) {m : Nat} {e : Int} (h : mag (2 ^ f.m) k ≤ mag m e) : mag (2 ^ (f.m + 2) - 1) (k - 2) ≤ mag m e := by
  refine Rat.le_trans (mag_mono (Nat.sub_le _ 1) _) ?_
  refine (?_ : mag _ _ = _) ▸ h
  rw [mag_double (2 ^ f.m) k, mag_double (2 * 2 ^ f.m) (k - 1)]
  congr 1
  · rw [Nat.pow_add]; omega
  · omega

theorem toGrid_isNearest (neg : Bool) {m : Nat} (h0 : m ≠ 0) (e : Int) :
    IsNearest f m e (f.toGrid .rne neg m e).1 (f.toGrid .rne neg m e).2 := by
  obtain ⟨lt, least⟩ := f.toGrid_bounds .rne neg m e
  revert lt least
  unfold FFmt.toGrid
  dsimp only
  generalize hk : max ((Nat.log2 m : Int) + 1 + e - (f.m + 1)) f.kMin = k
  have place : k = f.kMin ∨ mag (2 ^ f.m) k ≤ mag m e := by
    have choice : k = (Nat.log2 m : Int) + 1 + e - (f.m + 1) ∨ k = f.kMin := by omega
    exact choice.symm.imp_right (two_pow_le_of_place h0)
  have step (h : f.kMin < k) : mag (2 ^ (f.m + 2) - 1) (k - 2) ≤ mag m e := mag_step_le k (place.resolve_left (by omega))
  split
  case isTrue hle =>
    intro lt least
    have exact_ := mag_eq_of_le m hle
    refine ⟨lt, least, place.imp_right fun h => ?_, ?_, ?_, step⟩
    · rwa [exact_, mag_le_mag_iff] at h
    · rw [exact_, mag_double]
      exact mag_mono (Nat.le_succ _) _
    · rw [exact_, ← mag_double]
      exact Rat.le_add_of_nonneg_right (mag_nonneg _ _)
  case isFalse hle =>
    obtain ⟨down, up, -⟩ := shiftRound_isChosen .rne neg m (k - e).toNat
    generalize hq : shiftRound .rne neg m (k - e).toNat = q at *
    have unit : 2 ^ (k - e).toNat = 2 * 2 ^ (k - 1 - e).toNat := by
      rw [← Nat.pow_succ']
      congr 1
      omega
    have shift (n : Nat) : mag n (k - 1) = mag (n * 2 ^ (k - 1 - e).toNat) e := mag_eq_of_le n (by omega)
    rw [unit] at down up
    generalize 2 ^ (k - 1 - e).toNat = u at *
    have above : mag m e ≤ mag (2 * q + 1) (k - 1) := by
      rw [shift, mag_le_mag_iff]
      have : (2 * q + 1) * u = q * (2 * u) + u := by grind
      omega
    have below : mag (2 * q) (k - 1) ≤ mag m e + mag 1 (k - 1) := by
      rw [shift, shift, mag_add, mag_le_mag_iff]
      have : 2 * q * u = q * (2 * u) := by grind
      omega
    split
    case isTrue hcarry =>
      intro lt least
      have half : (2 : Nat) ^ (f.m + 1) = 2 * 2 ^ f.m := Nat.pow_succ'
      have same : k + 1 - 1 = k := by omega
      refine ⟨lt, least, .inr (Nat.le_refl _), ?_, ?_, fun _ => ?_⟩
      · rw [same]
        refine Rat.le_trans above ?_
        rw [mag_double (2 * 2 ^ f.m + 1)]
        exact mag_mono (by omega) _
      · rw [same, ← half, ← hcarry, mag_double]
        refine Rat.le_trans below (Rat.add_le_add_left.2 ?_)
        rw [mag_double 1 k]
        exact mag_mono (by decide) _
      · have : k + 1 - 2 = k - 1 := by omega
        rw [this, shift, mag_le_mag_iff]
        have quarter : 2 ^ (f.m + 2) - 1 = 2 * q - 1 := by rw [hcarry, Nat.pow_succ' (n := f.m + 1)]
        have : (2 * q - 1) * u = q * (2 * u) - u := by rw [Nat.sub_mul, Nat.one_mul, Nat.mul_assoc, Nat.mul_left_comm]
        rw [quarter]
        omega
    case isFalse hcarry =>
      intro lt least
      refine ⟨lt, least, place.imp_right fun h => ?_, above, below, step⟩
      have := Rat.le_trans h above
      rw [mag_double, mag_le_mag_iff] at this
      omega

/-- The pattern of a member of F′ counts the steps from zero. -/
theorem FFmt.ofGrid_eq {q : Nat} {k : Int} (hk : k = f.kMin ∨ 2 ^ f.m ≤ q) :
    f.ofGrid (q, k) = (k - f.kMin).toNat * 2 ^ f.m + q := by
  simp only [FFmt.ofGrid]
  split
  · obtain rfl : k = f.kMin := hk.resolve_right (by omega)
    simp
  · rw [Nat.succ_mul]
    omega

/-- Patterns without sign are ordered by exponent and then by magnitude. -/
theorem IsNearest.lex {m n q r : Nat} {e g j k : Int} (hm : IsNearest f m e q j) (hn : IsNearest f n g r k)
    (h : f.ofGrid (q, j) < f.ofGrid (r, k)) : j < k ∨ j = k ∧ q < r := by
  have least := hm.least
  have least' := hn.least
  have upper := hn.lt
  rw [FFmt.ofGrid_eq hm.normal, FFmt.ofGrid_eq hn.normal] at h
  rcases Int.lt_trichotomy j k with hjk | rfl | hjk
  · exact .inl hjk
  · exact .inr ⟨rfl, by omega⟩
  · have more : (k - f.kMin).toNat + 1 ≤ (j - f.kMin).toNat := by omega
    have steps := Nat.mul_le_mul_right (2 ^ f.m) more
    rw [Nat.succ_mul] at steps
    have normal := hm.normal.resolve_left (by omega)
    rw [Nat.pow_succ] at upper
    omega

theorem mag_exp_mono (m : Nat) {e k : Int} (h : e ≤ k) : mag m e ≤ mag m k :=
  mag_eq_of_le m h ▸ mag_mono (Nat.le_mul_of_pos_right _ (Nat.two_pow_pos _)) e

/-- R177: of a magnitude that rounds lower to nearest than another, a midpoint of fewer than `f.m + 2` bits lies between the two. -/
theorem exists_midpoint {m n q r : Nat} {e g j k : Int} (hm : IsNearest f m e q j) (hn : IsNearest f n g r k)
    (h : j < k ∨ j = k ∧ q < r) : ∃ b i, b < 2 ^ (f.m + 2) ∧ mag m e ≤ mag b i ∧ mag b i ≤ mag n g := by
  have bits := hm.lt
  refine ⟨2 * q + 1, j - 1, by rw [Nat.pow_succ']; omega, hm.above, ?_⟩
  rcases h with h | ⟨rfl, h⟩
  · refine Rat.le_trans ?_ (hn.step (Int.lt_of_le_of_lt hm.least h))
    refine Rat.le_trans (mag_mono ?_ _) (mag_exp_mono _ (by omega))
    rw [Nat.pow_succ']
    omega
  · have upper : mag (2 * r) (j - 1) ≤ mag n g + mag 1 (j - 1) := hn.below
    have lower : mag (2 * q + 1) (j - 1) + mag 1 (j - 1) ≤ mag (2 * r) (j - 1) := by
      rw [mag_add]
      exact mag_mono (by omega) _
    grind

/-- R177: `round` of a positive magnitude to nearest, in a format with infinities. -/
theorem FFmt.round_rne_eq (hI : f.hasInf = true) {m : Nat} (h0 : m ≠ 0) (e : Int) :
    f.round .rne (.fin false m e) =
      if f.over (f.toGrid .rne false m e) then f.inf else f.ofGrid (f.toGrid .rne false m e) := by
  cases m with
  | zero => exact absurd rfl h0
  | succ m => simp only [FFmt.round, FFmt.overflow, FFmt.withSign, hI, Bool.and_self, Bool.false_eq_true, if_true, if_false]

/-- A member of F′ that is not over has a pattern below that of the infinity. -/
theorem IsNearest.lt_inf (he : 4 ≤ 2 ^ f.e) (hm : 2 ≤ 2 ^ f.m) (hI : f.hasInf = true) {m q : Nat} {e k : Int}
    (h : IsNearest f m e q k) (ho : f.over (q, k) = false) : f.ofGrid (q, k) < f.inf := by
  have lt := h.lt
  have least := h.least
  have top := (f.maxFinite_fields he hm).1
  simp only [hI, if_true] at top
  simp only [FFmt.over, top, Bool.or_eq_false_iff, decide_eq_false_iff_not] at ho
  have steps : (k - f.kMin).toNat + 1 ≤ 2 ^ f.e - 2 := by
    unfold FFmt.kMin at least ⊢
    omega
  rw [FFmt.ofGrid_eq h.normal, FFmt.inf]
  have room := Nat.mul_le_mul_right (2 ^ f.m) steps
  have last : (2 ^ f.e - 1) * 2 ^ f.m = (2 ^ f.e - 2) * 2 ^ f.m + 2 ^ f.m := by
    rw [← Nat.succ_mul]
    congr 1
    omega
  rw [Nat.succ_mul] at room
  rw [Nat.pow_succ] at lt
  omega

/-- R177: of two positive magnitudes that round to different patterns, a midpoint of few bits lies between. -/
theorem exists_midpoint_of_round_lt (he : 4 ≤ 2 ^ f.e) (hf : 2 ≤ 2 ^ f.m) (hI : f.hasInf = true) {m n : Nat} (hm : m ≠ 0)
    (hn : n ≠ 0) {e g : Int} (h : f.round .rne (.fin false m e) < f.round .rne (.fin false n g)) :
    ∃ b i, b < 2 ^ (f.m + 2) ∧ mag m e ≤ mag b i ∧ mag b i ≤ mag n g := by
  have near := toGrid_isNearest (f := f) false hm e
  have near' := toGrid_isNearest (f := f) false hn g
  rw [FFmt.round_rne_eq hI hm, FFmt.round_rne_eq hI hn] at h
  refine exists_midpoint near near' ?_
  by_cases ho : f.over (f.toGrid .rne false m e) = true
  · by_cases ho' : f.over (f.toGrid .rne false n g) = true
    · simp [ho, ho'] at h
    · have : f.ofGrid (f.toGrid .rne false n g) < f.inf := near'.lt_inf he hf hI (by simpa using ho')
      simp only [ho, ho', if_true, if_false, Bool.false_eq_true] at h
      omega
  · by_cases ho' : f.over (f.toGrid .rne false n g) = true
    · simp only [FFmt.over, Bool.or_eq_true, Bool.and_eq_true, decide_eq_true_eq] at ho ho'
      omega
    · simp only [ho, ho', if_false, Bool.false_eq_true] at h
      exact near.lex near' h

end

/-! The integer root -/

theorem isqrtFrom_spec (n i : Nat) : ∀ r, r * r ≤ n → n < (r + 2 ^ i) * (r + 2 ^ i) →
    isqrtFrom n i r * isqrtFrom n i r ≤ n ∧ n < (isqrtFrom n i r + 1) * (isqrtFrom n i r + 1) := by
  induction i with
  | zero => exact fun r h h' => ⟨h, by simpa [isqrtFrom] using h'⟩
  | succ i ih =>
    intro r h h'
    have twice : r + 2 ^ (i + 1) = r + 2 ^ i + 2 ^ i := by rw [Nat.pow_succ]; omega
    rw [twice] at h'
    simp only [isqrtFrom]
    split
    case isTrue hle => exact ih _ hle h'
    case isFalse hgt => exact ih _ h (Nat.not_le.1 hgt)

theorem isqrt_spec (n : Nat) : isqrt n * isqrt n ≤ n ∧ n < (isqrt n + 1) * (isqrt n + 1) := by
  refine isqrtFrom_spec n _ 0 (Nat.zero_le _) ?_
  rw [Nat.zero_add, ← Nat.pow_add]
  exact Nat.lt_of_lt_of_le Nat.lt_log2_self (Nat.pow_le_pow_right (by decide) (by omega))

/-- A half integer that stands for a root, of a number of more than 258 bits, has a square within 2^-100 of it. -/
theorem root_close {n r y : Nat} (hn : 2 ^ 129 * 2 ^ 129 ≤ n) (h : r * r ≤ n) (h' : n < (r + 1) * (r + 1))
    (hy : y = 2 * r ∧ r * r = n ∨ y = 2 * r + 1) :
    (2 ^ 100 - 1) * (4 * n) ≤ 2 ^ 100 * (y * y) ∧ 2 ^ 100 * (y * y) ≤ (2 ^ 100 + 1) * (4 * n) := by
  obtain ⟨rfl, rfl⟩ | rfl := hy
  · have : 2 * r * (2 * r) = 4 * (r * r) := by grind
    omega
  · have large : 2 ^ 129 ≤ r := by
      refine Nat.le_of_not_lt fun hr => ?_
      have : (r + 1) * (r + 1) ≤ 2 ^ 129 * 2 ^ 129 := Nat.mul_le_mul (by omega) (by omega)
      omega
    have room : 2 ^ 129 * r ≤ r * r := Nat.mul_le_mul_right r large
    have square : (2 * r + 1) * (2 * r + 1) = 4 * (r * r) + 4 * r + 1 := by grind
    have next : (r + 1) * (r + 1) = r * r + 2 * r + 1 := by grind
    omega

/-- How close the exact results of this file come: within one part of 2^100. -/
def tightness : Rat := 1 / 2 ^ 100

/-- `rootOf` gives a magnitude whose square is within 2^-100 of the exact one. -/
theorem rootOf_close {m : Nat} (h0 : m ≠ 0) (e : Int) :
    (1 - tightness) * mag m e ≤ mag (rootOf m e).1 (rootOf m e).2 ^ 2 ∧
      mag (rootOf m e).1 (rootOf m e).2 ^ 2 ≤ (1 + tightness) * mag m e := by
  have large : 2 ^ 129 * 2 ^ 129 ≤ m * 2 ^ ((e % 2).toNat + 260) := by
    rw [← Nat.pow_add]
    calc 2 ^ (129 + 129) ≤ 2 ^ ((e % 2).toNat + 260) := Nat.pow_le_pow_right (by decide) (by omega)
      _ ≤ m * 2 ^ ((e % 2).toNat + 260) := Nat.le_mul_of_pos_left _ (Nat.pos_of_ne_zero h0)
  have value : mag m e = mag (m * 2 ^ ((e % 2).toNat + 260)) (2 * ((e - (e % 2).toNat - 260) / 2)) := by
    rw [mag_eq_of_le m (show 2 * ((e - (e % 2).toNat - 260) / 2) ≤ e by omega)]
    congr 3
    omega
  obtain ⟨low, high⟩ := isqrt_spec (m * 2 ^ ((e % 2).toNat + 260))
  rw [value]
  simp only [rootOf]
  generalize m * 2 ^ ((e % 2).toNat + 260) = n at *
  generalize (e - (e % 2).toNat - 260) / 2 = k
  generalize hr : isqrt n = r at *
  generalize hy : 2 * r + (if r * r = n then 0 else 1) = y
  obtain ⟨lower, upper⟩ := root_close (y := y) large low high (by split at hy <;> omega)
  have square : mag y (k - 1) ^ 2 = mag (y * y) (2 * k) / 4 := by
    simp only [mag, Rat.zpow_sub_one (by decide : (2 : Rat) ≠ 0), Int.two_mul, Rat.zpow_add (by decide : (2 : Rat) ≠ 0),
      Rat.natCast_mul]
    grind
  have pos : (0 : Rat) < 2 ^ (2 * k) := Rat.zpow_pos (by decide)
  have lowerN : 2 ^ 100 * (4 * n) ≤ 2 ^ 100 * (y * y) + 4 * n := by omega
  have lowerQ : (2 : Rat) ^ 100 * (4 * n) ≤ 2 ^ 100 * (y * y) + 4 * n := by exact_mod_cast lowerN
  have upperQ : (2 : Rat) ^ 100 * (y * y) ≤ (2 ^ 100 + 1) * (4 * n) := by exact_mod_cast upper
  rw [square]
  simp only [mag, tightness, Rat.natCast_mul]
  constructor
  · have := Rat.mul_le_mul_of_nonneg_right lowerQ (Rat.le_of_lt pos)
    grind
  · have := Rat.mul_le_mul_of_nonneg_right upperQ (Rat.le_of_lt pos)
    grind

/-! 1/√a (R199) -/

/-- The quotient of `FpNum.rsq` for a magnitude `n`. -/
def rsqQuotient (n : Nat) : Nat :=
  2 * (2 ^ (600 + Nat.log2 n) / n) + (if 2 ^ (600 + Nat.log2 n) % n = 0 then 0 else 1)

theorem FpNum.rsq_eq {n : Nat} (h0 : n ≠ 0) (e : Int) : FpNum.rsq (.fin false n e) =
    .fin false (rootOf (rsqQuotient n) (-(600 + (Nat.log2 n : Int)) - 1 - e)).1
      (rootOf (rsqQuotient n) (-(600 + (Nat.log2 n : Int)) - 1 - e)).2 := by
  cases n with
  | zero => exact absurd rfl h0
  | succ n => rfl

/-- The quotient times `n` is within 2^-100 of the power of two that was divided. -/
theorem rsqQuotient_close {n : Nat} (h0 : n ≠ 0) :
    (2 ^ 100 - 1) * 2 ^ (601 + Nat.log2 n) ≤ 2 ^ 100 * (rsqQuotient n * n) ∧
      2 ^ 100 * (rsqQuotient n * n) ≤ (2 ^ 100 + 1) * 2 ^ (601 + Nat.log2 n) := by
  obtain ⟨-, hn⟩ := log2_bounds h0
  have dividend : 2 ^ (601 + Nat.log2 n) = 2 * 2 ^ (600 + Nat.log2 n) := by rw [← Nat.pow_succ']; congr 1; omega
  have small : 2 ^ 100 * n ≤ 2 ^ (600 + Nat.log2 n) := by
    calc 2 ^ 100 * n ≤ 2 ^ 100 * 2 ^ (Nat.log2 n + 1) := Nat.mul_le_mul_left _ (Nat.le_of_lt hn)
      _ = 2 ^ (100 + (Nat.log2 n + 1)) := (Nat.pow_add _ _ _).symm
      _ ≤ 2 ^ (600 + Nat.log2 n) := Nat.pow_le_pow_right (by decide) (by omega)
  have parts : 2 ^ (600 + Nat.log2 n) / n * n + 2 ^ (600 + Nat.log2 n) % n = 2 ^ (600 + Nat.log2 n) := Nat.div_add_mod' _ _
  have rest : 2 ^ (600 + Nat.log2 n) % n < n := Nat.mod_lt _ (Nat.pos_of_ne_zero h0)
  rw [dividend, rsqQuotient]
  generalize 2 ^ (600 + Nat.log2 n) = a at *
  have expand (s : Nat) : (2 * (a / n) + s) * n = 2 * (a / n * n) + s * n := by grind
  rw [expand]
  generalize a / n * n = p at *
  split
  · omega
  · omega

theorem rsqQuotient_ne_zero {n : Nat} (h0 : n ≠ 0) : rsqQuotient n ≠ 0 := by
  have close := (rsqQuotient_close h0).1
  have pos : 0 < 2 ^ (601 + Nat.log2 n) := Nat.two_pow_pos _
  generalize 2 ^ (601 + Nat.log2 n) = a at close pos
  intro h
  rw [h] at close
  omega

/-- The magnitude that stands for 1/√(n·2^e) has a square that is its inverse within three parts of 2^100. -/
theorem rsq_close {n : Nat} (h0 : n ≠ 0) (e : Int) :
    let r := rootOf (rsqQuotient n) (-(600 + (Nat.log2 n : Int)) - 1 - e)
    1 - 3 * tightness ≤ mag r.1 r.2 ^ 2 * mag n e ∧ mag r.1 r.2 ^ 2 * mag n e ≤ 1 + 3 * tightness := by
  obtain ⟨low, high⟩ := rootOf_close (rsqQuotient_ne_zero h0) (-(600 + (Nat.log2 n : Int)) - 1 - e)
  obtain ⟨lowQ, highQ⟩ := rsqQuotient_close h0
  have product : mag (rsqQuotient n) (-(600 + (Nat.log2 n : Int)) - 1 - e) * mag n e * 2 ^ (601 + Nat.log2 n) =
      (rsqQuotient n * n : Nat) := by
    have powers : (2 : Rat) ^ (-(600 + (Nat.log2 n : Int)) - 1 - e) * 2 ^ e * 2 ^ (601 + Nat.log2 n) = 1 := by
      rw [← Rat.zpow_natCast, ← Rat.zpow_add (by decide), ← Rat.zpow_add (by decide)]
      refine Eq.trans (congrArg _ (?_ : _ = (0 : Int))) (Rat.zpow_zero 2)
      omega
    simp only [mag, Rat.natCast_mul]
    generalize (2 : Rat) ^ (-(600 + (Nat.log2 n : Int)) - 1 - e) = p at powers ⊢
    generalize (2 : Rat) ^ e = q at powers ⊢
    generalize (2 : Rat) ^ (601 + Nat.log2 n) = r at powers ⊢
    calc rsqQuotient n * p * (n * q) * r = rsqQuotient n * n * (p * q * r) := by grind
      _ = rsqQuotient n * n := by rw [powers, Rat.mul_one]
  have pos : (0 : Rat) < 2 ^ (601 + Nat.log2 n) := Rat.pow_pos (by decide)
  have lowN : 2 ^ 100 * 2 ^ (601 + Nat.log2 n) ≤ 2 ^ 100 * (rsqQuotient n * n) + 2 ^ (601 + Nat.log2 n) := by omega
  have lowC : (2 : Rat) ^ 100 * 2 ^ (601 + Nat.log2 n) ≤ 2 ^ 100 * (rsqQuotient n * n : Nat) + 2 ^ (601 + Nat.log2 n) := by
    exact_mod_cast lowN
  have highC : (2 : Rat) ^ 100 * (rsqQuotient n * n : Nat) ≤ (2 ^ 100 + 1) * 2 ^ (601 + Nat.log2 n) := by exact_mod_cast highQ
  have posN := mag_pos h0 e
  rw [← product] at lowC highC
  generalize mag (rsqQuotient n) (-(600 + (Nat.log2 n : Int)) - 1 - e) = a at *
  generalize mag n e = b at *
  generalize (2 : Rat) ^ (601 + Nat.log2 n) = c at *
  dsimp only
  generalize mag _ _ ^ 2 = w at *
  have lowAB : 1 - tightness ≤ a * b := Rat.le_of_mul_le_mul_right (by unfold tightness; grind) pos
  have highAB : a * b ≤ 1 + tightness := Rat.le_of_mul_le_mul_right (by unfold tightness; grind) pos
  have lowW := Rat.mul_le_mul_of_nonneg_right low (Rat.le_of_lt posN)
  have highW := Rat.mul_le_mul_of_nonneg_right high (Rat.le_of_lt posN)
  have tight : 0 < tightness ∧ 0 ≤ tightness * tightness ∧ tightness * tightness ≤ tightness ∧ 0 ≤ 1 - tightness := by unfold tightness; grind
  generalize tightness = t at *
  obtain ⟨tPos, squarePos, squareLe, tLe⟩ := tight
  constructor
  · have := Rat.mul_le_mul_of_nonneg_left lowAB tLe
    grind
  · have := Rat.mul_le_mul_of_nonneg_left highAB (c := 1 + t) (by grind)
    grind

/-- A number of at most 80 bits at any exponent is 1, or away from 1. -/
theorem apart_from_one {m : Nat} (hm : m < 2 ^ 80) (t : Int) :
    (mag m t < 1 → mag m t ≤ 1 - 1 / 2 ^ 81) ∧ (1 < mag m t → 1 + 1 / 2 ^ 81 ≤ mag m t) := by
  by_cases ht : 0 ≤ t
  · have whole : mag m t = (m * 2 ^ t.toNat : Nat) := by
      rw [mag_eq_of_le m ht]
      simp only [mag, Int.sub_zero, Rat.zpow_zero, Rat.mul_one]
    rw [whole]
    refine ⟨fun h => ?_, fun h => ?_⟩
    · have : m * 2 ^ t.toNat < 1 := by exact_mod_cast h
      have zero : m * 2 ^ t.toNat = 0 := by omega
      rw [zero]
      grind
    · have : 2 ≤ m * 2 ^ t.toNat := by exact_mod_cast h
      have : (2 : Rat) ≤ (m * 2 ^ t.toNat : Nat) := by exact_mod_cast this
      exact Rat.le_trans (by grind) this
  · obtain ⟨d, rfl⟩ : ∃ d : Nat, t = -d := ⟨(-t).toNat, by omega⟩
    have pos : (0 : Rat) < 2 ^ d := Rat.pow_pos (by decide)
    have value : mag m (-d) * 2 ^ d = m := by
      rw [mag, Rat.zpow_neg, Rat.zpow_natCast, Rat.mul_assoc, Rat.inv_mul_cancel _ (Rat.ne_of_gt pos), Rat.mul_one]
    generalize mag m (-d) = v at value ⊢
    rcases Nat.lt_or_ge 80 d with hd | hd
    · have wide : (2 : Rat) ^ 81 ≤ 2 ^ d := by exact_mod_cast Nat.pow_le_pow_right (n := 2) (by decide) hd
      have small : (m : Rat) ≤ 2 ^ 80 := by exact_mod_cast Nat.le_of_lt hm
      have half : v ≤ 1 / 2 := Rat.le_of_mul_le_mul_right (by grind) pos
      exact ⟨fun _ => Rat.le_trans half (by grind), fun h => by grind⟩
    · have wide : (2 : Rat) ^ d ≤ 2 ^ 80 := by exact_mod_cast Nat.pow_le_pow_right (n := 2) (by decide) hd
      refine ⟨fun h => Rat.le_of_mul_le_mul_right ?_ pos, fun h => Rat.le_of_mul_le_mul_right ?_ pos⟩
      · have scaled := Rat.mul_lt_mul_of_pos_right h pos
        rw [value, Rat.one_mul] at scaled
        have whole : m < 2 ^ d := by exact_mod_cast scaled
        have : (m : Rat) + 1 ≤ 2 ^ d := by exact_mod_cast Nat.succ_le_of_lt whole
        grind
      · have scaled := Rat.mul_lt_mul_of_pos_right h pos
        rw [value, Rat.one_mul] at scaled
        have whole : 2 ^ d < m := by exact_mod_cast scaled
        have : (2 : Rat) ^ d + 1 ≤ m := by exact_mod_cast Nat.succ_le_of_lt whole
        grind

theorem mag_sq_mul (b n : Nat) (i e : Int) : mag b i ^ 2 * mag n e = mag (b ^ 2 * n) (2 * i + e) := by
  simp only [mag, Int.two_mul, Rat.zpow_add (by decide : (2 : Rat) ≠ 0), Rat.natCast_mul, Rat.natCast_pow]
  grind

/-- R199: whether a dyadic `d * 2^g` is below or above 1/√(n·2^e), in natural numbers. -/
theorem mag_lt_one_iff (m : Nat) (t : Int) :
    (m * 2 ^ t.toNat < 2 ^ (-t).toNat ↔ mag m t < 1) ∧ (2 ^ (-t).toNat < m * 2 ^ t.toNat ↔ 1 < mag m t) := by
  have value : mag m t * 2 ^ (-t).toNat = (m * 2 ^ t.toNat : Nat) := by
    have powers : (2 : Rat) ^ t * 2 ^ (-t).toNat = 2 ^ t.toNat := by
      rw [← Rat.zpow_natCast, ← Rat.zpow_natCast, ← Rat.zpow_add (by decide)]
      congr 1
      omega
    simp only [mag, Rat.natCast_mul, Rat.natCast_pow, Rat.natCast_ofNat, ← powers, Rat.mul_assoc]
  have pos : (0 : Rat) < 2 ^ (-t).toNat := Rat.pow_pos (by decide)
  have cast : ((2 ^ (-t).toNat : Nat) : Rat) = 1 * 2 ^ (-t).toNat := by
    rw [Rat.natCast_pow, Rat.one_mul]; rfl
  rw [← Rat.natCast_lt_natCast, ← Rat.natCast_lt_natCast, ← value, cast]
  exact ⟨Rat.mul_lt_mul_right pos, Rat.mul_lt_mul_right pos⟩

theorem Rat.sq_le_sq {a b : Rat} (ha : 0 ≤ a) (h : a ≤ b) : a ^ 2 ≤ b ^ 2 := by
  have left := Rat.mul_le_mul_of_nonneg_left h ha
  have right := Rat.mul_le_mul_of_nonneg_right h (Rat.le_trans ha h)
  grind

theorem Rat.lt_of_le_of_lt {a b c : Rat} (h : a ≤ b) (h' : b < c) : a < c := by grind

theorem Rat.lt_of_lt_of_le {a b c : Rat} (h : a < b) (h' : b ≤ c) : a < c := by grind

theorem Rat.lt_of_sq_lt_sq {a b : Rat} (hb : 0 ≤ b) (h : a ^ 2 < b ^ 2) : a < b :=
  Rat.not_le.1 fun hle => Rat.not_le.2 h (Rat.sq_le_sq hb hle)

/-- A number of few bits is on the same side of 1/√(n·2^e) and of the magnitude that stands for it. -/
theorem rsq_same_side {b n : Nat} (h0 : n ≠ 0) (hb : b ^ 2 * n < 2 ^ 80) (i e : Int) :
    let r := rootOf (rsqQuotient n) (-(600 + (Nat.log2 n : Int)) - 1 - e)
    (mag b i ^ 2 * mag n e < 1 → mag b i < mag r.1 r.2) ∧ (1 < mag b i ^ 2 * mag n e → mag r.1 r.2 < mag b i) := by
  obtain ⟨low, high⟩ := rsq_close h0 e
  obtain ⟨below, above⟩ := apart_from_one hb (2 * i + e)
  rw [← mag_sq_mul] at below above
  have posN := mag_pos h0 e
  have tight : 3 * tightness < 1 / 2 ^ 81 := by unfold tightness; grind
  refine ⟨fun h => ?_, fun h => ?_⟩
  · refine Rat.lt_of_sq_lt_sq (mag_nonneg _ _) (Rat.lt_of_mul_lt_mul_right ?_ (Rat.le_of_lt posN))
    have := below h
    grind
  · refine Rat.lt_of_sq_lt_sq (mag_nonneg _ _) (Rat.lt_of_mul_lt_mul_right ?_ (Rat.le_of_lt posN))
    have := above h
    grind

theorem rootOf_ne_zero {m : Nat} (h0 : m ≠ 0) (e : Int) : (rootOf m e).1 ≠ 0 := by
  intro h
  have low := (rootOf_close h0 e).1
  have pos := mag_pos h0 e
  have tight : 0 < 1 - tightness := by unfold tightness; grind
  have zero (k : Int) : mag 0 k = 0 := Rat.zero_mul _
  have product := Rat.mul_pos tight pos
  rw [h, zero] at low
  grind

/-- R199: 1/√a is correctly rounded: no number below it rounds above the result, and none above it below. -/
theorem FFmt.round_rsq {f : FFmt} (he : 4 ≤ 2 ^ f.e) (hf : 2 ≤ 2 ^ f.m) (hI : f.hasInf = true) (hbits : f.m ≤ 23) {n : Nat}
    (h0 : n ≠ 0) (hn : n < 2 ^ (f.m + 1)) (e : Int) (d : Nat) (g : Int) :
    (d ^ 2 * n * 2 ^ (2 * g + e).toNat < 2 ^ (-(2 * g + e)).toNat →
      f.round .rne (.fin false d g) ≤ f.round .rne (FpNum.rsq (.fin false n e))) ∧
    (2 ^ (-(2 * g + e)).toNat < d ^ 2 * n * 2 ^ (2 * g + e).toNat →
      f.round .rne (FpNum.rsq (.fin false n e)) ≤ f.round .rne (.fin false d g)) := by
  obtain ⟨ltOne, gtOne⟩ := mag_lt_one_iff (d ^ 2 * n) (2 * g + e)
  rw [ltOne, gtOne, ← mag_sq_mul, FpNum.rsq_eq h0]
  have root := rootOf_ne_zero (rsqQuotient_ne_zero h0) (-(600 + (Nat.log2 n : Int)) - 1 - e)
  have posN := mag_pos h0 e
  have few {b : Nat} (hb : b < 2 ^ (f.m + 2)) : b ^ 2 * n < 2 ^ 80 := by
    have hb' : b ≤ 2 ^ 25 := Nat.le_trans (Nat.le_of_lt hb) (Nat.pow_le_pow_right (by decide) (by omega))
    have hn' : n ≤ 2 ^ 24 := Nat.le_trans (Nat.le_of_lt hn) (Nat.pow_le_pow_right (by decide) (by omega))
    calc b ^ 2 * n ≤ (2 ^ 25) ^ 2 * 2 ^ 24 := Nat.mul_le_mul (Nat.pow_le_pow_left hb' 2) hn'
      _ < 2 ^ 80 := by decide
  have square {a b : Rat} (ha : 0 ≤ a) (h : a ≤ b) : a ^ 2 * mag n e ≤ b ^ 2 * mag n e :=
    Rat.mul_le_mul_of_nonneg_right (Rat.sq_le_sq ha h) (Rat.le_of_lt posN)
  refine ⟨fun h => ?_, fun h => ?_⟩
  · refine Nat.le_of_not_lt fun hgt => ?_
    have hd : d ≠ 0 := by
      rintro rfl
      exact Nat.not_lt_zero _ hgt
    obtain ⟨b, i, hb, lower, upper⟩ := exists_midpoint_of_round_lt he hf hI root hd hgt
    have side := (rsq_same_side h0 (few hb) i e).1 (Rat.lt_of_le_of_lt (square (mag_nonneg _ _) upper) h)
    exact absurd lower (Rat.not_le.2 side)
  · refine Nat.le_of_not_lt fun hgt => ?_
    have hd : d ≠ 0 := by
      rintro rfl
      have zero : mag 0 g = 0 := Rat.zero_mul _
      rw [zero] at h
      grind
    obtain ⟨b, i, hb, lower, upper⟩ := exists_midpoint_of_round_lt he hf hI hd root hgt
    have side := (rsq_same_side h0 (few hb) i e).2 (Rat.lt_of_lt_of_le h (square (mag_nonneg _ _) lower))
    exact absurd upper (Rat.not_le.2 side)

end Sys2Proof.Machine
end

section
/-! The special functions (O14): the lanes that a port returns, and what each function gives a value. -/

namespace Sys2Proof.Machine

theorem fpFmt_hasInf (ty : FpTy) : (fpFmt ty).hasInf = true := by cases ty <;> rfl

theorem FFmt.withSign_eq_add (f : FFmt) (neg : Bool) (p : Nat) :
    f.withSign neg p = if neg then p + 2 ^ (f.width - 1) else p := by
  rw [FFmt.two_pow_width_sub_one, FFmt.withSign, Nat.add_comm]

/-- R177: a power of two of the grid rounds alike in the two modes that raise. -/
theorem FFmt.round_rup_two_pow (f : FFmt) {k : Int} (hk : f.kMin ≤ k) :
    f.round .rup (.fin false 1 k) = f.round .rne (.fin false 1 k) := by
  have log : Nat.log2 1 = 0 := rfl
  have grid (mode : Rnd) : f.toGrid mode false 1 k = (1 * 2 ^ (k - max (k - f.m) f.kMin).toNat, max (k - f.m) f.kMin) := by
    have place : max ((Nat.log2 1 : Int) + 1 + k - (f.m + 1)) f.kMin = max (k - f.m) f.kMin := by
      rw [log]
      congr 1
      omega
    have below : max (k - f.m) f.kMin ≤ k := by omega
    simp only [FFmt.toGrid, place, below, if_true]
  simp only [FFmt.round, grid, FFmt.overflow, Bool.not_false]

section
variable {f : FFmt} (he : 4 ≤ 2 ^ f.e) (hm : 2 ≤ 2 ^ f.m)
include he hm

/-- R199: a neighbour of an enclosure is a pattern of the format. -/
theorem neighbour_lt (en : Enclosure) (up : Bool) : neighbour f en up < 2 ^ f.width := by
  unfold neighbour
  dsimp only
  generalize (if up = true then en.hi else en.lo) = m
  generalize (if up = true then Rnd.rup else .rtz) = mode
  split
  · exact f.withSign_lt _ f.signBit_pos
  · split
    · refine f.withSign_lt _ ?_
      split
      · exact f.inf_lt he hm
      · exact f.maxFinite_lt he hm
    · rename_i h
      obtain ⟨hg, hk⟩ := f.toGrid_bounds mode false m en.e
      exact f.withSign_lt _ (FFmt.ofGrid_lt he hm hg hk (by simpa using h))

theorem FFmt.signed_inf_lt (neg : Bool) : f.withSign neg f.inf < 2 ^ f.width := f.withSign_lt neg (f.inf_lt he hm)

omit hm he in
theorem FFmt.signed_zero_lt (neg : Bool) : f.withSign neg 0 < 2 ^ f.width := f.withSign_lt neg f.signBit_pos

theorem fex2Of_lt (fmt x : Nat) : fex2Of f fmt x < 2 ^ f.width := by
  unfold fex2Of
  split
  · exact FFmt.canonNaN_lt he hm
  · exact Nat.two_pow_pos _
  · exact FFmt.signed_inf_lt he hm false
  · exact FFmt.round_lt he hm _ _
  · split
    · split
      · exact neighbour_lt he hm _ _
      · split
        · exact neighbour_lt he hm _ _
        · exact FFmt.round_lt he hm _ _
    · exact neighbour_lt he hm _ _

theorem flg2Of_lt (fmt x : Nat) : flg2Of f fmt x < 2 ^ f.width := by
  unfold flg2Of
  split
  · exact FFmt.canonNaN_lt he hm
  · exact FFmt.canonNaN_lt he hm
  · exact FFmt.signed_inf_lt he hm false
  · exact FFmt.signed_inf_lt he hm true
  · exact FFmt.canonNaN_lt he hm
  · split
    · exact FFmt.round_lt he hm _ _
    · exact neighbour_lt he hm _ _

theorem fsinOf_lt (fmt x : Nat) : fsinOf f fmt x < 2 ^ f.width := by
  unfold fsinOf
  split
  · exact FFmt.canonNaN_lt he hm
  · exact FFmt.canonNaN_lt he hm
  · exact FFmt.signed_zero_lt _
  · exact neighbour_lt he hm _ _

theorem fcosOf_lt (fmt x : Nat) : fcosOf f fmt x < 2 ^ f.width := by
  unfold fcosOf
  split
  · exact FFmt.canonNaN_lt he hm
  · exact FFmt.canonNaN_lt he hm
  · exact FFmt.round_lt he hm _ _
  · exact neighbour_lt he hm _ _

theorem ftanhOf_lt (fmt x : Nat) : ftanhOf f fmt x < 2 ^ f.width := by
  unfold ftanhOf
  split
  · exact FFmt.canonNaN_lt he hm
  · exact FFmt.round_lt he hm _ _
  · exact FFmt.signed_zero_lt _
  · exact neighbour_lt he hm _ _

end

/-- A finite value of a pattern has at most `f.m + 1` bits. -/
theorem FFmt.value_fin_lt {f : FFmt} {x m : Nat} {n : Bool} {e : Int} (h : f.value x = .fin n m e) : m < 2 ^ (f.m + 1) := by
  have frac : x % 2 ^ f.m < 2 ^ f.m := Nat.mod_lt _ (Nat.two_pow_pos _)
  unfold FFmt.value at h
  dsimp only at h
  rw [Nat.pow_succ]
  split at h
  · obtain ⟨-, rfl, -⟩ := FpNum.fin.inj h; omega
  split at h
  · split at h <;> exact absurd h FpNum.noConfusion
  split at h
  · exact absurd h FpNum.noConfusion
  · obtain ⟨-, rfl, -⟩ := FpNum.fin.inj h; omega

/-- R199, R192: a dword whose lanes are those that a table `g` gives the flushed lanes of a dword `a`, where it gives any. -/
def IsSpecial (m : FpMod) (g : Nat → Option Nat) (a : Nat) (v : Token) : Prop :=
  v.null = false ∧ v.pair = false ∧ ∀ k p, k < fpLanes m.ty →
    g ((fpFmt m.ty).flush m.ftzi (fpLane m.ty a k)) = some p → fpLane m.ty v.nat k = (fpFmt m.ty).flush m.ftzo p

theorem isSpecial_of_table {m : FpMod} {g : Nat → Option Nat} {h : Nat → Nat} (hlt : ∀ p, h p < 2 ^ (fpFmt m.ty).width)
    (hg : ∀ p q, g p = some q → h p = q) (a : Nat) :
    IsSpecial m g a (dword (fpPack m.ty fun k => flushOut (fpFmt m.ty) m.ftzo (h (fpIn m (fpFmt m.ty) (fpLane m.ty a k))))) := by
  obtain ⟨hn, hp, -, lane⟩ := isFp_dword_fpPack (ty := m.ty)
    (r := fun k => flushOut (fpFmt m.ty) m.ftzo (h (fpIn m (fpFmt m.ty) (fpLane m.ty a k))))
    fun k => (fpFmt m.ty).flush_lt m.ftzo (hlt _)
  refine ⟨hn, hp, fun k p hk hq => ?_⟩
  rw [lane k hk, ← hg _ p hq]
  rfl

/-! The tables of R199 -/

/-- R199: a neighbour of an enclosure, as the free choice for a function, a type and an input gives it. -/
def nearOf (fn : Nat) (ty : FpTy) (p : Nat) (en : Enclosure) : Option Nat :=
  some (neighbour (fpFmt ty) en (Config.sfuUpper fn (fmtNum ty) p))

/-- R175: a pattern with a sign bit. -/
def withSignBit (ty : FpTy) (neg : Bool) (p : Nat) : Nat := if neg then p + 2 ^ ((fpFmt ty).width - 1) else p

theorem withSign_eq_withSignBit (ty : FpTy) (neg : Bool) (p : Nat) : (fpFmt ty).withSign neg p = withSignBit ty neg p :=
  FFmt.withSign_eq_add _ neg p

def fex2Table (ty : FpTy) (p : Nat) : Option Nat :=
  match (fpFmt ty).value p with
  | .nan => some (fpFmt ty).canonNaN
  | .inf n => some (if n then 0 else (fpFmt ty).inf)
  | .fin _ 0 _ => some ((fpFmt ty).round .rne (.fin false 1 0))
  | .fin neg n e => match asInt? neg n e with
    | some k => if (fpFmt ty).kMin ≤ k ∧ k ≤ (fpFmt ty).bias then some ((fpFmt ty).round .rne (.fin false 1 k)) else none
    | none => nearOf 0 ty p (encExp2 neg n e)

def flg2Table (ty : FpTy) (p : Nat) : Option Nat :=
  match (fpFmt ty).value p with
  | .nan => some (fpFmt ty).canonNaN
  | .fin _ 0 _ => some (withSignBit ty true (fpFmt ty).inf)
  | .inf n => some (if n then (fpFmt ty).canonNaN else (fpFmt ty).inf)
  | .fin true _ _ => some (fpFmt ty).canonNaN
  | .fin false n e =>
    if n = 2 ^ Nat.log2 n then some ((fpFmt ty).round .rne (numOfInt ((Nat.log2 n : Int) + e))) else nearOf 1 ty p (encLog2 n e)

def fsinTable (ty : FpTy) (p : Nat) : Option Nat :=
  match (fpFmt ty).value p with
  | .nan => some (fpFmt ty).canonNaN
  | .inf _ => some (fpFmt ty).canonNaN
  | .fin n 0 _ => some (withSignBit ty n 0)
  | .fin n k e => nearOf 2 ty p (encTrig false n k e)

def fcosTable (ty : FpTy) (p : Nat) : Option Nat :=
  match (fpFmt ty).value p with
  | .nan => some (fpFmt ty).canonNaN
  | .inf _ => some (fpFmt ty).canonNaN
  | .fin _ 0 _ => some ((fpFmt ty).round .rne (.fin false 1 0))
  | .fin n k e => nearOf 3 ty p (encTrig true n k e)

def ftanhTable (ty : FpTy) (p : Nat) : Option Nat :=
  match (fpFmt ty).value p with
  | .nan => some (fpFmt ty).canonNaN
  | .inf n => some ((fpFmt ty).round .rne (.fin n 1 0))
  | .fin n 0 _ => some (withSignBit ty n 0)
  | .fin n k e => nearOf 4 ty p (encTanh n k e)

theorem fex2Of_of_table {ty : FpTy} {p q : Nat} (h : fex2Table ty p = some q) : fex2Of (fpFmt ty) (fmtNum ty) p = q := by
  have bias : (fpFmt ty).bias ≤ 5000 := by cases ty <;> decide
  unfold fex2Table at h
  match hv : (fpFmt ty).value p with
  | .nan => simpa [fex2Of, hv] using h
  | .inf true => simpa [fex2Of, hv] using h
  | .inf false => simpa [fex2Of, hv] using h
  | .fin n 0 e => simpa [fex2Of, hv] using h
  | .fin n (k + 1) e =>
    simp only [hv] at h
    simp only [fex2Of, hv]
    cases hj : asInt? n (k + 1) e with
    | some j =>
      simp only [hj, Option.ite_none_right_eq_some, Option.some.injEq] at h
      obtain ⟨⟨low, high⟩, rfl⟩ := h
      dsimp only
      rw [if_neg (by omega), if_neg (by omega), FFmt.round_rup_two_pow _ low]
    | none =>
      simp only [hj] at h
      exact Option.some.inj h

theorem flg2Of_of_table {ty : FpTy} {p q : Nat} (h : flg2Table ty p = some q) : flg2Of (fpFmt ty) (fmtNum ty) p = q := by
  unfold flg2Table at h
  match hv : (fpFmt ty).value p with
  | .nan => simpa [flg2Of, hv] using h
  | .inf true => simpa [flg2Of, hv] using h
  | .inf false => simpa [flg2Of, hv] using h
  | .fin n 0 e => simpa [flg2Of, hv, withSign_eq_withSignBit] using h
  | .fin true (k + 1) e => simpa [flg2Of, hv] using h
  | .fin false (k + 1) e =>
    simp only [hv] at h
    simp only [flg2Of, hv]
    split at h
    · rw [if_pos ‹_›]; exact Option.some.inj h
    · rw [if_neg ‹_›]; exact Option.some.inj h

theorem fsinOf_of_table {ty : FpTy} {p q : Nat} (h : fsinTable ty p = some q) : fsinOf (fpFmt ty) (fmtNum ty) p = q := by
  unfold fsinTable at h
  match hv : (fpFmt ty).value p with
  | .nan => simpa [fsinOf, hv] using h
  | .inf n => simpa [fsinOf, hv] using h
  | .fin n 0 e => simpa [fsinOf, hv, withSign_eq_withSignBit] using h
  | .fin n (k + 1) e => simpa [fsinOf, hv, faithful, nearOf] using h

theorem fcosOf_of_table {ty : FpTy} {p q : Nat} (h : fcosTable ty p = some q) : fcosOf (fpFmt ty) (fmtNum ty) p = q := by
  unfold fcosTable at h
  match hv : (fpFmt ty).value p with
  | .nan => simpa [fcosOf, hv] using h
  | .inf n => simpa [fcosOf, hv] using h
  | .fin n 0 e => simpa [fcosOf, hv] using h
  | .fin n (k + 1) e => simpa [fcosOf, hv, faithful, nearOf] using h

theorem ftanhOf_of_table {ty : FpTy} {p q : Nat} (h : ftanhTable ty p = some q) : ftanhOf (fpFmt ty) (fmtNum ty) p = q := by
  unfold ftanhTable at h
  match hv : (fpFmt ty).value p with
  | .nan => simpa [ftanhOf, hv] using h
  | .inf n => simpa [ftanhOf, hv] using h
  | .fin n 0 e => simpa [ftanhOf, hv, withSign_eq_withSignBit] using h
  | .fin n (k + 1) e => simpa [ftanhOf, hv, faithful, nearOf] using h

/-- R199: the table of `frsq`. -/
theorem rsq_table (m : FpMod) (hty : m.ty ≠ .f64) (p : Nat) :
    let f := fpFmt m.ty
    let q := f.round .rne (FpNum.rsq (f.value p))
    match f.value p with
    | .nan => q = f.canonNaN
    | .fin n 0 _ => q = if n then f.inf + 2 ^ (f.width - 1) else f.inf
    | .inf false => q = 0
    | .inf true => q = f.canonNaN
    | .fin true _ _ => q = f.canonNaN
    | .fin false n e => ∀ (d : Nat) (g : Int),
        (d ^ 2 * n * 2 ^ (2 * g + e).toNat < 2 ^ (-(2 * g + e)).toNat → f.round .rne (.fin false d g) ≤ q) ∧
        (2 ^ (-(2 * g + e)).toNat < d ^ 2 * n * 2 ^ (2 * g + e).toNat → q ≤ f.round .rne (.fin false d g)) := by
  obtain ⟨he, hm⟩ := fpFmt_sizes m.ty
  have bits : (fpFmt m.ty).m ≤ 23 := by
    revert hty
    generalize m.ty = ty
    cases ty <;> decide
  dsimp only
  match hv : (fpFmt m.ty).value p with
  | .nan => rfl
  | .inf false => rfl
  | .inf true => rfl
  | .fin n 0 e =>
    simp only [FpNum.rsq, FFmt.round, fpFmt_hasInf, if_true, FFmt.withSign_eq_add]
  | .fin true (n + 1) e => rfl
  | .fin false (n + 1) e =>
    exact FFmt.round_rsq he hm (fpFmt_hasInf m.ty) bits (Nat.succ_ne_zero n) (FFmt.value_fin_lt hv) e

end Sys2Proof.Machine

open Sys2Proof Sys2Proof.Machine

/-- Settles O14: the free choice of a neighbour is `Config.sfuUpper`; 1/√a is rounded correctly by `FFmt.round_rsq`. -/
theorem specialFunctions : Obligations.SpecialFunctions := by
  unfold Obligations.SpecialFunctions
  refine ⟨fun fn ty p => Config.sfuUpper fn (fmtNum ty) p, fun s x m t1 t0 a b hx ha hg => ?_⟩
  obtain ⟨he, hm⟩ := fpFmt_sizes m.ty
  have mode := State.roundMode_of_live hx
  have special {i : Instr} {lat : Nat} {h : Nat → Nat} (g : Nat → Option Nat) (hi : exec i s = .next (s.port1 m lat t1 t0 h))
      (hlt : ∀ p, h p < 2 ^ (fpFmt m.ty).width) (ht : ∀ p q, g p = some q → h p = q) :
      s.YieldsByPort i 1 lat 1 t1 t0 (IsSpecial m g a.nat) :=
    State.port1_yieldsByPort hx ha hg hi (isSpecial_of_table hlt ht a.nat)
  refine ⟨fun hb => ?_, ?_, fun hty => ⟨?_, ?_, ?_, ?_, ?_, ?_, ?_⟩⟩
  · refine State.fp2_yieldsByPort hx ha hb hg rfl ?_
    rw [mode]
    exact isFp_dword_fpPack fun k => flushOut_round_lt m.ty m.ftzo _ _
  · refine State.fp1_yieldsByPort hx ha hg rfl ?_
    rw [mode]
    exact isFp_dword_fpPack fun k => flushOut_round_lt m.ty m.ftzo _ _
  · exact State.port1_yieldsByPort hx ha hg rfl (isFp_dword_fpPack fun k => flushOut_round_lt m.ty m.ftzo _ _)
  · refine State.port1_yieldsByPort hx ha hg rfl ?_
    obtain ⟨hn, hp, -, lane⟩ := isFp_dword_fpPack (ty := m.ty) fun k =>
      flushOut_round_lt m.ty m.ftzo .rne (FpNum.rsq ((fpFmt m.ty).value (fpIn m (fpFmt m.ty) (fpLane m.ty a.nat k))))
    exact ⟨hn, hp, fun k hk => ⟨_, lane k hk, rsq_table m hty _⟩⟩
  · exact special (i := .fex2 m t1 t0) (fex2Table m.ty) rfl (fex2Of_lt he hm _) fun p q h => fex2Of_of_table h
  · exact special (i := .flg2 m t1 t0) (flg2Table m.ty) rfl (flg2Of_lt he hm _) fun p q h => flg2Of_of_table h
  · exact special (i := .fsin m t1 t0) (fsinTable m.ty) rfl (fsinOf_lt he hm _) fun p q h => fsinOf_of_table h
  · exact special (i := .fcos m t1 t0) (fcosTable m.ty) rfl (fcosOf_lt he hm _) fun p q h => fcosOf_of_table h
  · exact special (i := .ftanh m t1 t0) (ftanhTable m.ty) rfl (ftanhOf_lt he hm _) fun p q h => ftanhOf_of_table h

end

section
/-! Control transfers (O17) fail in one case: the `ret` of a squashed instance still counts a parity error (R146). -/

namespace Sys2Proof.Machine

/-- A squashed instance in which nothing has fired. -/
def squashedInst : Inst where
  ctx := 0
  blk := 0
  ft := 0
  n := 0
  admitted := 0
  tsc := 0
  fp := 0
  astat := 0
  sys := []
  priv := false
  asp := 0
  region := none
  ar := false
  tokens := []
  fired := []
  count := 0
  fullAt := none
  liveOut := []
  reqs := []
  emits := []
  judged := []
  performed := []
  checkAt := none
  term := .undecided
  squash := some ⟨.permission, 0, 0, 0⟩
  faults := []
  watch := none
  atomicWrites := []
  regionCause := none
  firedNow := none
  fpNext := none

/-- The module of reset with a squashed instance in flight on core 0, whose thread has wrong parity in l62. -/
def badParityState : State :=
  State.reset.modThread 0 0 fun t => { t with inst := some squashedInst, badParity := BitVec.ofNat 64 (2 ^ 62) }

theorem badParityState_curInst : badParityState.curInst? = some squashedInst := by rfl

/-- R146: `ret` reads l62, and finds the error in a squashed instance as in another. -/
theorem badParityState_counts :
    (badParityState.die 0).errors.parity = 0 ∧ ((badParityState.checkParity [62, 63]).die 0).errors.parity = 1 := by
  decide

theorem badParityState_flies : ∃ y, (badParityState.checkParity [62, 63]).curInst? = some y :=
  Option.isSome_iff_exists.1 (by decide)

/-- A terminator changes nothing of a die. -/
theorem State.settle_dies {s : State} {x : Inst} (hx : s.curInst? = some x) (ops : List Token) (d : Term) :
    (s.settle ops d).dies = s.dies :=
  (State.fireWith_fired (s.pin_pinned ops) hx 1 _).dies

end Sys2Proof.Machine

open Sys2Proof Sys2Proof.Machine

/-- Refutes O17: the terminator of a squashed instance changes more than its instance where it is a `ret` whose slots have
wrong parity, for the die then counts a parity error (R146). -/
theorem not_controlTransfers : ¬ Obligations.ControlTransfers := by
  unfold Obligations.ControlTransfers
  rintro ⟨-, -, squashed⟩
  obtain ⟨t, ht, x, -, fired⟩ := squashed badParityState squashedInst 0 0 0 0 badParityState_curInst (by decide) .ret (by simp)
  obtain ⟨y, hy⟩ := badParityState_flies
  have same : t.dies = badParityState.dies := fired.dies
  have result : t = ((badParityState.checkParity [62, 63]).settle [{ nullTok with tag := badParityState.slotTag 62 }]
      (checkedGoto badParityState.cur.idx (badParityState.curThread.pairSlot 62).toNat none)) := by
    injection ht with ht
    exact ht.symm
  rw [result, State.settle_dies hy] at same
  have counts := badParityState_counts
  simp only [State.die, same] at counts
  omega

end

section
/-! Instructions of immediate effect (R237): what `State.immediate` makes of its state, by the effect that it performs. The
instructions of atomic regions (O19). -/

namespace Sys2Proof.Machine

/-! Writing a state again as it is -/

/-- An entry written again as it is. -/
theorem Tbl.set_of_find? {α : Type} (t : Tbl α) {n : Nat} {v : α} (h : Tbl.find? t n = some v) : Tbl.set t n v = t := by
  induction t with
  | nil => exact absurd h (by simp [Tbl.find?])
  | cons e t ih =>
    obtain ⟨k, w⟩ := e
    simp only [Tbl.find?, Tbl.set] at h ⊢
    split at h
    case isTrue hk =>
      obtain rfl := Option.some.inj h
      rw [if_pos hk, hk]
    case isFalse hk =>
      split at h
      case isTrue => exact absurd h nofun
      case isFalse hn => rw [if_neg hk, if_neg hn, ih h]

theorem Tbl.find?_of_get_ne {α : Type} {d : α} {t : Tbl α} {n : Nat} (h : Tbl.get d t n ≠ d) :
    Tbl.find? t n = some (Tbl.get d t n) := by
  unfold Tbl.get at h ⊢
  cases hf : Tbl.find? t n with
  | none => rw [hf] at h; exact absurd rfl h
  | some v => rfl

/-- A thread with an instance stands in its core's table. -/
theorem Core.setThread_self {k : Core} {sl : Nat} {x : Inst} (h : (k.thread sl).inst = some x) : k.setThread sl (k.thread sl) = k := by
  have stands : k.thread sl ≠ Thread.reset := by
    intro hr
    rw [hr] at h
    exact absurd h (by simp [Thread.reset])
  rw [Core.setThread, Core.thread, Tbl.set_of_find? _ (Tbl.find?_of_get_ne stands)]

/-- A core of which a thread has an instance stands in the table of cores. -/
theorem State.setCore_self {s : State} {c sl : Nat} {x : Inst} (h : (s.thread c sl).inst = some x) :
    s.setCore c (s.core c) = s := by
  have stands : s.core c ≠ Core.reset c := by
    intro hr
    rw [State.thread, hr] at h
    exact absurd h (by simp [Core.reset, Core.thread, Tbl.get, Tbl.find?, Thread.reset])
  rw [State.setCore, State.core, Tbl.set_of_find? _ (Tbl.find?_of_get_ne stands)]

/-- An instance that is changed to itself. -/
theorem State.modInst_of_eq {s : State} {c sl : Nat} {x : Inst} (h : (s.thread c sl).inst = some x) {g : Inst → Inst}
    (hg : g x = x) : s.modInst c sl g = s := by
  have same : (s.thread c sl).modInst g = s.thread c sl := by
    simp only [Thread.modInst, h, hg]
    rw [← h]
  rw [State.modInst, State.modThread, State.modCore, Core.modThread]
  rw [State.thread] at same h
  rw [same, Core.setThread_self h]
  exact State.setCore_self h

/-! States that differ in what pins change -/

/-- A state whose firing's core has other pins and constraints, or the same. -/
def Pins (s z : State) : Prop :=
  ∃ rg, sameRegions (s.core s.cur.core).regions rg ∧ z = s.setCore s.cur.core { s.core s.cur.core with regions := rg }

section
variable {s z : State} (h : Pins s z)
include h

theorem Pins.cur : z.cur = s.cur := by obtain ⟨_, -, rfl⟩ := h; rfl
theorem Pins.clk : z.clk = s.clk := by obtain ⟨_, -, rfl⟩ := h; rfl
theorem Pins.mem : z.mem = s.mem := by obtain ⟨_, -, rfl⟩ := h; rfl
theorem Pins.dies : z.dies = s.dies := by obtain ⟨_, -, rfl⟩ := h; rfl
theorem Pins.grids : z.grids = s.grids := by obtain ⟨_, -, rfl⟩ := h; rfl

theorem Pins.core_ne {c : Nat} (hc : c ≠ s.cur.core) : z.core c = s.core c := by
  obtain ⟨_, -, rfl⟩ := h
  exact State.core_setCore_ne _ _ hc

/-- Of its core a change of pins leaves everything but the regions. -/
theorem Pins.core : ∃ rg, z.core s.cur.core = { s.core s.cur.core with regions := rg } := by
  obtain ⟨rg, -, rfl⟩ := h
  exact ⟨rg, by simp⟩

theorem Pins.thread (c sl : Nat) : z.thread c sl = s.thread c sl := by
  by_cases hc : c = s.cur.core
  · subst hc
    obtain ⟨rg, -, rfl⟩ := h
    exact State.thread_setRegions s _ sl rg
  · rw [State.thread, h.core_ne hc, State.thread]

theorem Pins.group (c g : Nat) : z.group c g = s.group c g := by
  by_cases hc : c = s.cur.core
  · subst hc
    obtain ⟨rg, hrg⟩ := h.core
    rw [State.group, hrg, State.group]
    rfl
  · rw [State.group, h.core_ne hc, State.group]

theorem Pins.grid (g : Nat) : z.grid g = s.grid g := by rw [State.grid, State.grid, h.grids]

theorem Pins.curThread : z.curThread = s.curThread := by
  unfold State.curThread
  rw [h.cur, h.thread]

theorem Pins.curInst : z.curInst? = s.curInst? := by
  unfold State.curInst?
  rw [h.curThread]

/-- The firing's instance, changed in two ways that agree on it. -/
theorem Pins.modInst_congr {x : Inst} (hx : s.curInst? = some x) {g g' : Inst → Inst} (hg : g x = g' x) :
    z.modInst s.cur.core s.cur.slot g = z.modInst s.cur.core s.cur.slot g' := by
  have inst : (z.thread s.cur.core s.cur.slot).inst = some x := by rw [h.thread]; exact hx
  have thread : ((z.core s.cur.core).thread s.cur.slot).modInst g = ((z.core s.cur.core).thread s.cur.slot).modInst g' := by
    simp only [State.thread] at inst
    simp only [Thread.modInst, inst, hg]
  simp only [State.modInst, State.modThread, State.modCore, Core.modThread, thread]

end

/-- Pins change a state in flight as `Pins` says. -/
theorem PinnedOnly.pins {s z : State} {x : Inst} (hx : s.curInst? = some x) (h : PinnedOnly s z) :
    Pins s z ∧ (x.region = none → z = s) := by
  rcases h with rfl | ⟨hregion, rg, hr, rfl⟩
  · exact ⟨⟨_, sameRegions_refl _, (State.setCore_self hx).symm⟩, fun _ => rfl⟩
  · exact ⟨⟨rg, hr, rfl⟩, fun hn => absurd hn (hregion x hx)⟩

/-! Immediate effects -/

/-- A change of the firing's instance after the firing. -/
theorem Fired.modInst {s t : State} {busy : Nat} {y : Inst} (h : Fired s t busy y) (f : Inst → Inst) :
    Fired s (t.modInst s.cur.core s.cur.slot f) busy (f y) := by
  obtain ⟨ex, lf, rg, hr, hn, rfl⟩ := h
  refine ⟨ex, lf, rg, hr, hn, ?_⟩
  simp [State.modInst, State.modThread, State.modCore, Core.modThread, Core.setThread, Core.thread, Thread.modInst]

/-- An immediate effect `F`, which the statement gives as `f`, leaves the firing in progress, for every choice of pins. -/
def IsEffect (s : State) (F f : State → State) : Prop :=
  ∀ z, Pins s z → F z = f z ∧ (f z).cur = s.cur ∧ (f z).clk = s.clk ∧ ∃ y, (f z).curInst? = some y ∧ y.squash = none

/-- R237: an instruction of immediate effect whose operands are there performs it, and emits its values in the same clk. -/
theorem State.immediate_performs {s : State} {x : Inst} {i : Instr} {t1 t0 : Target} {ops : List Token} {F f : State → State}
    {v1 v0 : Token} (hx : s.live x) (hops : ∀ v ∈ ops, v.null = false) (hf : IsEffect s F f)
    (hi : exec i s = .next (s.immediate t1 t0 ops F v1 v0)) : s.Performs i t1 t0 v1 v0 f := by
  obtain ⟨pins, hregion⟩ := (s.pin_pinned ops).pins hx.1
  obtain ⟨same, cur, clk, y, hy, hs⟩ := hf _ pins
  obtain ⟨rg, hr, hpin⟩ := pins
  rw [State.immediate, if_pos (State.runs_of hx hops), same] at hi
  obtain ⟨w, hw, emitted⟩ := State.emit_emitted (.refl (f (s.pin ops))) ⟨hy, hs⟩ 1 0 t1 t0 v1 v0
  obtain rfl : y = w := Option.some.inj (hy.symm.trans hw)
  have performed := emitted.modInst fun x => x.perform s.cur.idx
  rw [cur, clk] at performed
  rw [hpin] at hi hy performed
  refine ⟨_, rg, y, hi, hr, fun z hz hn => ?_, hy, performed⟩
  obtain rfl : x = z := Option.some.inj (hx.1.symm.trans hz)
  have core := congrArg (fun t => (t.core s.cur.core).regions) (hpin.symm.trans (hregion hn))
  simpa using core

/-- An effect that changes nothing. -/
theorem isEffect_id {s : State} {x : Inst} (hx : s.live x) {F : State → State} (hF : ∀ z, Pins s z → F z = z) :
    IsEffect s F id :=
  fun z hz => ⟨hF z hz, hz.cur, hz.clk, x, hz.curInst.trans hx.1, hx.2⟩

/-- An effect on the firing's instance alone. -/
theorem isEffect_modInst {s : State} {x : Inst} (hx : s.live x) {F : State → State} (g : Inst → Inst)
    (hg : (g x).squash = none) (hF : ∀ z, Pins s z → F z = z.modInst s.cur.core s.cur.slot g) :
    IsEffect s F fun z => z.modInst s.cur.core s.cur.slot g := by
  refine fun z hz => ⟨hF z hz, hz.cur, hz.clk, g x, ?_, hg⟩
  have inst : (z.thread s.cur.core s.cur.slot).inst = some x := by rw [hz.thread]; exact hx.1
  simp only [State.curInst?, State.curThread, State.modInst, State.modThread_cur, hz.cur, State.thread_modThread_self]
  simp only [Thread.modInst, inst]

end Sys2Proof.Machine

open Sys2Proof Sys2Proof.Machine

/-- Settles O19: `aabort` and `apin` perform their effect at once, and `astat` emits the status of the admission. -/
theorem regionInstructions : Obligations.RegionInstructions := by
  unfold Obligations.RegionInstructions
  intro s x t1 t0 a hx ha
  have ops : ∀ v ∈ [s.opTok .a], v.null = false := ha.operands
  refine ⟨fun hr => ?_, fun r hr hfirst => ?_, ?_, ?_⟩
  · refine State.immediate_performs hx ops (isEffect_modInst hx _ hx.2 fun z hz => ?_) rfl
    have code : (s.opTok .a).data.setWidth 8 = BitVec.ofNat 8 a.nat := by rw [ha.opTok]; rfl
    simp only [hz.cur, hz.clk, code]
    exact hz.modInst_congr hx.1 (by simp only [Inst.abortWith, hr])
  · refine State.immediate_performs hx ops (isEffect_id hx fun z hz => ?_) rfl
    have inst : (z.thread s.cur.core s.cur.slot).inst = some x := by rw [hz.thread]; exact hx.1
    rw [hz.cur, hz.clk]
    refine State.modInst_of_eq inst ?_
    have keep : ¬(r.clk = s.clk ∧ s.cur.idx < r.idx) := by omega
    simp only [Inst.abortWith, hr, if_neg keep]
    rw [← hr]
  · refine ⟨predTok (x.astat.getLsbD 0), dword x.astat.toNat, ⟨_, rfl, ?_⟩, isDword_dword_of_lt x.astat.isLt,
      isPred_predTok_self _⟩
    simp only [hx.1, if_pos (State.runs_of hx ops)]
    exact State.emit_emitted (s.pin_pinned _) hx 1 1 t1 t0 _ _
  · have performs := State.immediate_performs (i := .apin t1 t0) hx ops (isEffect_id hx fun _ _ => rfl) rfl
    rwa [ha.opTok] at performs

end

section
/-! Rules of the state's accessors that the obligations about barriers, groups and grids use: what a read returns after a change
of another part. -/

namespace Sys2Proof.Machine

/-! Groups and threads of a core -/

theorem Core.group_of_find? {x : Core} {g : Nat} {y : Group} (h : Tbl.find? x.groups g = some y) : x.group g = y := by
  simp [Core.group, Tbl.get, h]

@[simp] theorem Core.thread_modGroup (x : Core) (g sl : Nat) (f : Group → Group) : (x.modGroup g f).thread sl = x.thread sl := by
  simp [Core.thread]

theorem Core.find?_modGroup_self {x : Core} {g : Nat} {y : Group} (h : Tbl.find? x.groups g = some y) (f : Group → Group) :
    Tbl.find? (x.modGroup g f).groups g = some (f y) := by
  simp [Core.modGroup, h]

theorem Core.group_modGroup_self {x : Core} {g : Nat} {y : Group} (h : Tbl.find? x.groups g = some y) (f : Group → Group) :
    (x.modGroup g f).group g = f y :=
  Core.group_of_find? (Core.find?_modGroup_self h f)

theorem Core.group_modGroup_ne (x : Core) {g h : Nat} (hg : h ≠ g) (f : Group → Group) : (x.modGroup g f).group h = x.group h := by
  unfold Core.modGroup
  split
  · exact Tbl.get_set_ne _ _ _ hg
  · rfl

/-- A group changed in two ways that agree on it. -/
theorem Core.modGroup_congr {x : Core} {g : Nat} {f f' : Group → Group} (h : f (x.group g) = f' (x.group g)) :
    x.modGroup g f = x.modGroup g f' := by
  unfold Core.modGroup
  split
  · rename_i y hy
    rw [Core.group_of_find? hy] at h
    rw [h]
  · rfl

theorem Core.modGroup_modGroup (x : Core) (g : Nat) (f f' : Group → Group) :
    (x.modGroup g f).modGroup g f' = x.modGroup g fun y => f' (f y) := by
  cases h : Tbl.find? x.groups g with
  | some y => simp [Core.modGroup, h]
  | none => simp [Core.modGroup, h]

theorem Core.modGroup_setThread (x : Core) (g sl : Nat) (f : Group → Group) (t : Thread) :
    (x.modGroup g f).setThread sl t = (x.setThread sl t).modGroup g f := by
  have groups : (x.setThread sl t).groups = x.groups := rfl
  simp only [Core.modGroup, groups]
  split <;> rfl

/-! Groups and threads of the state -/

section
variable (s : State) (c g sl : Nat)

theorem State.modGroup_congr {f f' : Group → Group} (h : f (s.group c g) = f' (s.group c g)) :
    s.modGroup c g f = s.modGroup c g f' := by
  rw [State.modGroup, State.modGroup, State.modCore, State.modCore, Core.modGroup_congr h]

theorem State.modGroup_modGroup (f f' : Group → Group) :
    (s.modGroup c g f).modGroup c g f' = s.modGroup c g fun y => f' (f y) := by
  simp only [State.modGroup, State.modCore_modCore, Core.modGroup_modGroup]

theorem State.modGroup_modThread (f : Group → Group) (h : Thread → Thread) :
    (s.modGroup c g f).modThread c sl h = (s.modThread c sl h).modGroup c g f := by
  simp only [State.modGroup, State.modThread, State.modCore_modCore]
  congr 1
  funext x
  rw [Core.modThread, Core.thread_modGroup, Core.modGroup_setThread]
  rfl

/-- A change of a core that leaves its threads alone. -/
theorem State.thread_modCore {f : Core → Core} (hf : ∀ x : Core, (f x).threads = x.threads) (c' : Nat) :
    (s.modCore c f).thread c' sl = s.thread c' sl := by
  by_cases h : c' = c
  · subst h
    simp [State.thread, Core.thread, hf]
  · simp [State.thread, State.core_modCore_ne _ _ h]

/-- A change of a core that leaves its groups alone. -/
theorem State.group_modCore {f : Core → Core} (hf : ∀ x : Core, (f x).groups = x.groups) (c' : Nat) :
    (s.modCore c f).group c' g = s.group c' g := by
  by_cases h : c' = c
  · subst h
    simp [State.group, Core.group, hf]
  · simp [State.group, State.core_modCore_ne _ _ h]

@[simp] theorem State.thread_modGroup (f : Group → Group) (c' : Nat) : (s.modGroup c g f).thread c' sl = s.thread c' sl :=
  State.thread_modCore s c sl (fun x => Core.modGroup_threads x g f) c'

@[simp] theorem State.group_modThread (f : Thread → Thread) (c' : Nat) : (s.modThread c sl f).group c' g = s.group c' g :=
  State.group_modCore s c g (fun x => Core.groups_modThread x sl f) c'

@[simp] theorem State.group_modInst (f : Inst → Inst) (c' : Nat) : (s.modInst c sl f).group c' g = s.group c' g :=
  State.group_modThread s c g sl _ c'

theorem State.group_modGroup_self {s : State} {c g : Nat} {y : Group} (h : Tbl.find? (s.core c).groups g = some y)
    (f : Group → Group) : (s.modGroup c g f).group c g = f y := by
  rw [State.group, State.modGroup, State.core_modCore_self, Core.group_modGroup_self h]

theorem State.find?_modGroup_self {s : State} {c g : Nat} {y : Group} (h : Tbl.find? (s.core c).groups g = some y)
    (f : Group → Group) : Tbl.find? ((s.modGroup c g f).core c).groups g = some (f y) := by
  rw [State.modGroup, State.core_modCore_self, Core.find?_modGroup_self h]

end

/-- A group is changed where it is resident. -/
theorem State.group_modGroup_or (s : State) (c g : Nat) (f : Group → Group) :
    (s.modGroup c g f).group c g = f (s.group c g) ∨ (s.modGroup c g f).group c g = s.group c g := by
  cases h : Tbl.find? (s.core c).groups g with
  | some y =>
    rw [State.group_modGroup_self h, State.group, Core.group_of_find? h]
    exact .inl rfl
  | none => exact .inr (by simp [State.modGroup, State.group, Core.modGroup, h])

/-! Grids -/

@[simp] theorem State.thread_modGrid (s : State) (g c sl : Nat) (f : Grid → Grid) : (s.modGrid g f).thread c sl = s.thread c sl := by
  simp [State.thread]

@[simp] theorem State.group_modGrid (s : State) (g c gr : Nat) (f : Grid → Grid) : (s.modGrid g f).group c gr = s.group c gr := by
  simp [State.group]

@[simp] theorem State.grid_modCore (s : State) (c g : Nat) (f : Core → Core) : (s.modCore c f).grid g = s.grid g := rfl
@[simp] theorem State.grid_modThread (s : State) (c sl g : Nat) (f : Thread → Thread) : (s.modThread c sl f).grid g = s.grid g := rfl
@[simp] theorem State.grid_modGroup (s : State) (c gr g : Nat) (f : Group → Group) : (s.modGroup c gr f).grid g = s.grid g := rfl

@[simp] theorem State.thread_modDie (s : State) (d c sl : Nat) (f : Die → Die) : (s.modDie d f).thread c sl = s.thread c sl := by
  simp [State.thread]

@[simp] theorem State.group_modDie (s : State) (d c g : Nat) (f : Die → Die) : (s.modDie d f).group c g = s.group c g := by
  simp [State.group]

/-! Folds that keep something -/

/-- What every step of a fold keeps, the fold keeps. -/
theorem foldl_keeps {α β γ : Type} (p : α → γ) (f : α → β → α) (h : ∀ a b, p (f a b) = p a) (l : List β) (a : α) :
    p (l.foldl f a) = p a := by
  induction l generalizing a with
  | nil => rfl
  | cons b l ih => rw [List.foldl_cons, ih, h]

/-- What every step of a fold keeps true stays true. -/
theorem foldl_invariant {α β : Type} (p : α → Prop) (f : α → β → α) (l : List β) (h : ∀ a, ∀ b ∈ l, p a → p (f a b)) {a : α}
    (ha : p a) : p (l.foldl f a) := by
  induction l generalizing a with
  | nil => exact ha
  | cons b l ih =>
    exact ih (fun a b' hb => h a b' (List.mem_cons_of_mem b hb)) (h a b List.mem_cons_self ha)

end Sys2Proof.Machine
end

section
/-! Barriers (O18): the effects of the barrier instructions, and what the end of a clk makes of a barrier. -/

namespace Sys2Proof.Machine

/-! Effects on threads and groups -/

/-- A change of a thread that leaves instances alone leaves every instance. -/
theorem State.inst_modThread (s : State) (c sl c' sl' : Nat) {f : Thread → Thread} (hf : ∀ t, (f t).inst = t.inst) :
    ((s.modThread c sl f).thread c' sl').inst = (s.thread c' sl').inst := by
  by_cases hc : c' = c
  · subst hc
    by_cases hsl : sl' = sl
    · subst hsl
      rw [State.thread_modThread_self, hf]
    · rw [State.thread_modThread_ne _ _ hsl]
  · rw [State.thread_modThread_core (h := hc)]

/-- An effect that leaves the instance of the firing alone. -/
theorem isEffect_of_inst {s : State} {x : Inst} (hx : s.live x) {F f : State → State} (same : ∀ z, Pins s z → F z = f z)
    (cur : ∀ z, (f z).cur = z.cur) (clk : ∀ z, (f z).clk = z.clk)
    (inst : ∀ z, ((f z).thread s.cur.core s.cur.slot).inst = (z.thread s.cur.core s.cur.slot).inst) : IsEffect s F f := by
  refine fun z hz => ⟨same z hz, (cur z).trans hz.cur, (clk z).trans hz.clk, x, ?_, hx.2⟩
  have here : ((f z).thread s.cur.core s.cur.slot).inst = some x := by
    rw [inst, hz.thread]
    exact hx.1
  rw [State.curInst?, State.curThread, cur, hz.cur]
  exact here

/-- R274: an arrival of a thread at barrier `k` of a group, where the barrier stands as `y`. -/
def arrivalAt (c sl g k : Nat) (y : Barrier) (drop : Bool) (delta : Int) (z : State) : State :=
  (z.modThread c sl fun t => { t with arrived := insertNat k t.arrived }).modGroup c g fun x =>
    { x with bars := Tbl.set x.bars k
               { y with cnt := (y.cnt + 1) % 2 ^ 11, drop := if drop then (y.drop + 1) % 2 ^ 11 else y.drop,
                        bytes := y.bytes + delta } }

theorem State.arriveBar_of_whole {z : State} {c sl k : Nat} (drop : Bool)
    (h : ((z.group c (z.thread c sl).group).bar k).brk = none) : z.arriveBar c sl k drop =
      arrivalAt c sl (z.thread c sl).group k ((z.group c (z.thread c sl).group).bar k) drop 0 z := by
  have whole : ((z.group c (z.thread c sl).group).bar k).brk.isSome = false := by rw [h]; rfl
  simp only [State.arriveBar, whole, Bool.false_eq_true, if_false, arrivalAt]
  refine State.modGroup_congr _ _ _ ?_
  rw [State.group_modThread]
  simp only [Group.modBar, Int.add_zero, Nat.reducePow]

theorem State.arriveBar_of_broken {z : State} {c sl k : Nat} (drop : Bool)
    (h : ((z.group c (z.thread c sl).group).bar k).brk ≠ none) : z.arriveBar c sl k drop = z := by
  simp only [State.arriveBar, Option.isSome_iff_ne_none.2 h, if_true]

/-- R277, R279: `stg.expect` at a whole barrier that stands as `y`. -/
theorem State.expectBytes_of_whole {z : State} {c sl k : Nat} (delta : Int) (arr : Bool)
    (h : ((z.group c (z.thread c sl).group).bar k).brk = none) :
    let y := (z.group c (z.thread c sl).group).bar k
    z.expectBytes c sl k delta arr =
      if arr then arrivalAt c sl (z.thread c sl).group k y false delta z
      else z.modGroup c (z.thread c sl).group fun x => { x with bars := Tbl.set x.bars k { y with bytes := y.bytes + delta } } := by
  have whole : ((z.group c (z.thread c sl).group).bar k).brk.isSome = false := by rw [h]; rfl
  have still : (((z.modGroup c (z.thread c sl).group fun x => x.modBar k fun y => { y with bytes := y.bytes + delta }).group c
      (z.thread c sl).group).bar k).brk = none := by
    rcases State.group_modGroup_or z c (z.thread c sl).group
      fun x => x.modBar k fun y => { y with bytes := y.bytes + delta } with hm | hm
    · rw [hm]
      simpa [Group.modBar, Group.bar] using h
    · rw [hm]
      exact h
  dsimp only
  simp only [State.expectBytes, whole, Bool.false_eq_true, if_false]
  cases arr with
  | false =>
    simp only [Bool.false_eq_true, if_false]
    exact State.modGroup_congr _ _ _ rfl
  | true =>
    simp only [if_true]
    rw [State.arriveBar, if_neg (by rw [State.thread_modGroup, still]; decide)]
    simp only [State.thread_modGroup, State.modGroup_modThread, State.modGroup_modGroup, arrivalAt]
    refine State.modGroup_congr _ _ _ ?_
    rw [State.group_modThread]
    simp [Group.modBar, Group.bar]

theorem State.expectBytes_of_broken {z : State} {c sl k : Nat} (delta : Int) (arr : Bool)
    (h : ((z.group c (z.thread c sl).group).bar k).brk ≠ none) : z.expectBytes c sl k delta arr = z := by
  simp only [State.expectBytes, Option.isSome_iff_ne_none.2 h, if_true]

theorem isEffect_arrivalAt {s : State} {x : Inst} (hx : s.live x) {F : State → State} {c sl g k : Nat} {y : Barrier} {drop : Bool}
    {delta : Int} (same : ∀ z, Pins s z → F z = arrivalAt c sl g k y drop delta z) :
    IsEffect s F (arrivalAt c sl g k y drop delta) := by
  refine isEffect_of_inst hx same (fun z => rfl) (fun z => rfl) fun z => ?_
  rw [arrivalAt, State.thread_modGroup]
  exact State.inst_modThread _ _ _ _ _ fun _ => rfl

theorem isEffect_modGroup {s : State} {x : Inst} (hx : s.live x) {F : State → State} {c g : Nat} {f : Group → Group}
    (same : ∀ z, Pins s z → F z = z.modGroup c g f) : IsEffect s F fun z => z.modGroup c g f :=
  isEffect_of_inst hx same (fun z => rfl) (fun z => rfl) fun z => by rw [State.thread_modGroup]

/-- R274: the arrival bits of some threads for a barrier are cleared. -/
def clearedIn (c k : Nat) (slots : List Nat) (z : State) : State :=
  slots.foldl (fun z sl => z.modThread c sl fun t => { t with arrived := t.arrived.filter (· != k) }) z

@[simp] theorem clearedIn_cur (c k : Nat) (slots : List Nat) (z : State) : (clearedIn c k slots z).cur = z.cur := by
  unfold clearedIn
  refine foldl_keeps State.cur _ (fun _ _ => ?_) slots z
  rfl

@[simp] theorem clearedIn_clk (c k : Nat) (slots : List Nat) (z : State) : (clearedIn c k slots z).clk = z.clk := by
  unfold clearedIn
  refine foldl_keeps State.clk _ (fun _ _ => ?_) slots z
  rfl

@[simp] theorem clearedIn_inst (c k : Nat) (slots : List Nat) (z : State) (c' sl' : Nat) :
    ((clearedIn c k slots z).thread c' sl').inst = (z.thread c' sl').inst := by
  unfold clearedIn
  refine foldl_keeps (fun z => (z.thread c' sl').inst) _ (fun a b => a.inst_modThread c b c' sl' fun _ => ?_) slots z
  rfl

/-- R282: `bar.init` of a barrier of a group, which is applied. -/
def initAt (c g k : Nat) (y : Barrier) (cnt : Nat) (z : State) : State :=
  (z.group c g).slots.foldl (fun z sl => z.modThread c sl fun t => { t with arrived := t.arrived.filter (· != k) })
    (z.modGroup c g fun x =>
      { x with bars := Tbl.set x.bars k { y with exp := cnt, cnt := 0, drop := 0, bytes := 0, brk := none } })

theorem initAt_eq_clearedIn (c g k : Nat) (y : Barrier) (cnt : Nat) (z : State) : initAt c g k y cnt z =
    clearedIn c k (z.group c g).slots (z.modGroup c g fun x =>
      { x with bars := Tbl.set x.bars k { y with exp := cnt, cnt := 0, drop := 0, bytes := 0, brk := none } }) := rfl

theorem isEffect_initAt {s : State} {x : Inst} (hx : s.live x) {F : State → State} {c g k cnt : Nat} {y : Barrier}
    (same : ∀ z, Pins s z → F z = initAt c g k y cnt z) : IsEffect s F (initAt c g k y cnt) := by
  refine isEffect_of_inst hx same (fun z => ?_) (fun z => ?_) fun z => ?_ <;> rw [initAt_eq_clearedIn]
  · rw [clearedIn_cur]; rfl
  · rw [clearedIn_clk]; rfl
  · rw [clearedIn_inst, State.thread_modGroup]

theorem State.clearArrivals_eq (z : State) (c g k : Nat) : z.clearArrivals c g k = clearedIn c k (z.group c g).slots z := rfl

theorem State.applyBarInit_eq {z : State} {b : BarRef} {k : Nat} (cnt : Nat) (hb : b ≠ .rope) (hk : barNum b = k) :
    z.applyBarInit b cnt = initAt z.cur.core z.curThread.group k ((z.group z.cur.core z.curThread.group).bar k) cnt z := by
  have slots (f : Barrier → Barrier) : ((z.modGroup z.cur.core z.curThread.group fun x => x.modBar k f).group z.cur.core
      z.curThread.group).slots = (z.group z.cur.core z.curThread.group).slots := by
    rcases State.group_modGroup_or z z.cur.core z.curThread.group (fun x => x.modBar k f) with h | h <;> rw [h]
    rfl
  cases b with
  | rope => exact absurd rfl hb
  | named n =>
    simp only [State.applyBarInit, hk, State.clearArrivals_eq, initAt_eq_clearedIn]
    rw [← State.curThread, slots]
    congr 1
    exact State.modGroup_congr _ _ _ rfl
  | stage n =>
    simp only [State.applyBarInit, hk, State.clearArrivals_eq, initAt_eq_clearedIn]
    rw [← State.curThread, slots]
    congr 1
    exact State.modGroup_congr _ _ _ rfl

theorem initApplies_iff {k cnt : Nat} {brk : Bool} :
    initApplies k cnt brk = true ↔ 1 ≤ k ∧ k ≤ 1024 ∧ (cnt = 0 ∨ brk = true) := by
  simp [initApplies, and_assoc]

theorem State.barInitOk_iff {s : State} {b : BarRef} (hb : b ≠ .rope) (cnt : Nat) : s.barInitOk b cnt = true ↔
    (s.group s.cur.core s.curThread.group).carrier = false ∧ 1 ≤ cnt ∧ cnt ≤ 1024 ∧
      (((s.group s.cur.core s.curThread.group).bar (barNum b)).cnt = 0 ∨
        ((s.group s.cur.core s.curThread.group).bar (barNum b)).brk ≠ none) := by
  cases b with
  | rope => exact absurd rfl hb
  | named n =>
    simp only [State.barInitOk, Bool.and_eq_true, initApplies_iff, Option.isSome_iff_ne_none, Bool.not_eq_true']
    rfl
  | stage n =>
    simp only [State.barInitOk, Bool.and_eq_true, initApplies_iff, Option.isSome_iff_ne_none, Bool.not_eq_true']
    rfl

theorem sextNat_32 (n : Nat) : sextNat 32 (n % 2 ^ 32) =
    if n % 2 ^ 32 < 2 ^ 31 then ((n % 2 ^ 32 : Nat) : Int) else ((n % 2 ^ 32 : Nat) : Int) - 2 ^ 32 := by
  simp only [sextNat, Nat.mod_mod]

/-- R274, R282: the instructions of a named or stage barrier. -/
theorem barrier_performs {s : State} {x : Inst} {b : BarRef} {k : Nat} {t1 t0 : Target} {a : Token} (hx : s.live x)
    (ha : s.has .a a) (hb : b ≠ .rope) (hk : barNum b = k) :
    let c := s.cur.core
    let sl := s.cur.slot
    let g := s.curThread.group
    let y := (s.group c g).bar k
    let cnt := a.nat % 2 ^ 32
    (y.brk = none →
      s.Performs (.barArrive b t1) t1 .none doneTok nullTok (arrivalAt c sl g k y false 0) ∧
      s.Performs (.barDrop b t1) t1 .none doneTok nullTok (arrivalAt c sl g k y true 0)) ∧
    (y.brk ≠ none →
      s.Performs (.barArrive b t1) t1 .none doneTok nullTok id ∧ s.Performs (.barDrop b t1) t1 .none doneTok nullTok id) ∧
    ((s.group c g).carrier = false → 1 ≤ cnt → cnt ≤ 1024 → y.cnt = 0 ∨ y.brk ≠ none →
      s.Performs (.barInit b t1 t0) t1 t0 doneTok (predTok true) (initAt c g k y cnt)) ∧
    ((s.group c g).carrier = true ∨ cnt < 1 ∨ 1024 < cnt ∨ (y.cnt ≠ 0 ∧ y.brk = none) →
      s.Performs (.barInit b t1 t0) t1 t0 doneTok (predTok false) id) := by
  have ops : ∀ v ∈ [s.opTok .a], v.null = false := ha.operands
  subst hk
  have arrive (z : State) (drop : Bool) : z.arriveAt b drop = z.arriveBar z.cur.core z.cur.slot (barNum b) drop := by
    cases b with
    | rope => exact absurd rfl hb
    | named n => rfl
    | stage n => rfl
  have at_ {z : State} (hz : Pins s z) : (z.group s.cur.core (z.thread s.cur.core s.cur.slot).group) =
      s.group s.cur.core s.curThread.group := by
    rw [hz.thread, hz.group]
    rfl
  have whole {z : State} (hz : Pins s z) (drop : Bool) (h : ((s.group s.cur.core s.curThread.group).bar (barNum b)).brk = none) :
      z.arriveAt b drop = arrivalAt s.cur.core s.cur.slot s.curThread.group (barNum b)
        ((s.group s.cur.core s.curThread.group).bar (barNum b)) drop 0 z := by
    rw [arrive, hz.cur, State.arriveBar_of_whole drop (by rw [at_ hz]; exact h), at_ hz, hz.thread]
    rfl
  have broken {z : State} (hz : Pins s z) (drop : Bool) (h : ((s.group s.cur.core s.curThread.group).bar (barNum b)).brk ≠ none) :
      z.arriveAt b drop = z := by
    rw [arrive, hz.cur, State.arriveBar_of_broken drop (by rw [at_ hz]; exact h)]
  refine ⟨fun h => ⟨?_, ?_⟩, fun h => ⟨?_, ?_⟩, fun hc h1 h2 hy => ?_, fun h => ?_⟩
  · exact State.immediate_performs hx ops (isEffect_arrivalAt hx fun z hz => whole hz false h) rfl
  · exact State.immediate_performs hx ops (isEffect_arrivalAt hx fun z hz => whole hz true h) rfl
  · exact State.immediate_performs hx ops (isEffect_id hx fun z hz => broken hz false h) rfl
  · exact State.immediate_performs hx ops (isEffect_id hx fun z hz => broken hz true h) rfl
  · have ok : s.barInitOk b (a.nat % 2 ^ 32) = true := (State.barInitOk_iff hb _).2 ⟨hc, h1, h2, hy⟩
    refine State.immediate_performs (F := fun z => z.applyBarInit b (a.nat % 2 ^ 32)) hx ops (isEffect_initAt hx fun z hz => ?_) ?_
    · rw [State.applyBarInit_eq _ hb rfl, hz.cur, hz.curThread, hz.group]
    · simp only [exec, execBarInit, ha.opTok, ok, if_true]
  · have ok : s.barInitOk b (a.nat % 2 ^ 32) = false := by
      rw [← Bool.not_eq_true, State.barInitOk_iff hb]
      rintro ⟨hc, h1, h2, hy⟩
      rcases h with h | h | h | ⟨h, h'⟩
      · rw [hc] at h; exact absurd h (by decide)
      · omega
      · omega
      · rcases hy with hy | hy
        · exact h hy
        · exact hy h'
    refine State.immediate_performs (F := id) hx ops (isEffect_id hx fun z hz => rfl) ?_
    simp only [exec, execBarInit, ha.opTok, ok, Bool.false_eq_true, if_false]
    rfl

/-- R282: `stg.expect` of a stage barrier. -/
theorem stgExpect_performs {s : State} {x : Inst} {t1 : Target} {a : Token} (hx : s.live x) (ha : s.has .a a) (stg : Bool) :
    let k := if stg then 17 else 16
    let y := (s.group s.cur.core s.curThread.group).bar k
    let cnt : Nat := a.nat % 2 ^ 32
    let delta : Int := if cnt < 2 ^ 31 then (cnt : Int) else (cnt : Int) - 2 ^ 32
    (y.brk = none →
      (s.Performs (.stgExpect false stg t1) t1 .none doneTok nullTok fun z => z.modGroup s.cur.core s.curThread.group fun x =>
        { x with bars := Tbl.set x.bars k { y with bytes := y.bytes + delta } }) ∧
      s.Performs (.stgExpect true stg t1) t1 .none doneTok nullTok
        (arrivalAt s.cur.core s.cur.slot s.curThread.group k y false delta)) ∧
    (y.brk ≠ none → ∀ arr, s.Performs (.stgExpect arr stg t1) t1 .none doneTok nullTok id) := by
  have ops : ∀ v ∈ [s.opTok .a], v.null = false := ha.operands
  have expect {z : State} (hz : Pins s z) (k : Nat) (delta : Int) (arr : Bool) :
      let y := (s.group s.cur.core s.curThread.group).bar k
      (y.brk = none → z.expectBytes z.cur.core z.cur.slot k delta arr =
        if arr then arrivalAt s.cur.core s.cur.slot s.curThread.group k y false delta z
        else z.modGroup s.cur.core s.curThread.group fun x => { x with bars := Tbl.set x.bars k { y with bytes := y.bytes + delta } }) ∧
      (y.brk ≠ none → z.expectBytes z.cur.core z.cur.slot k delta arr = z) := by
    have group : z.group s.cur.core (z.thread s.cur.core s.cur.slot).group = s.group s.cur.core s.curThread.group := by
      rw [hz.thread, hz.group]
      rfl
    rw [hz.cur]
    refine ⟨fun h => ?_, fun h => State.expectBytes_of_broken delta arr (by rw [group]; exact h)⟩
    have whole := State.expectBytes_of_whole delta arr (z := z) (c := s.cur.core) (sl := s.cur.slot) (k := k)
      (by rw [group]; exact h)
    rw [hz.thread, hz.group] at whole
    exact whole
  have delta_eq := sextNat_32 a.nat
  dsimp only
  rw [← delta_eq]
  refine ⟨fun h => ⟨?_, ?_⟩, fun h arr => ?_⟩
  · refine State.immediate_performs hx ops (isEffect_modGroup hx fun z hz => ?_) rfl
    rw [ha.opTok]
    exact (expect hz _ _ false).1 h
  · refine State.immediate_performs hx ops (isEffect_arrivalAt hx fun z hz => ?_) rfl
    rw [ha.opTok]
    exact (expect hz _ _ true).1 h
  · exact State.immediate_performs hx ops (isEffect_id hx fun z hz => (expect hz _ _ arr).2 h) rfl

/-- R280, R282: `bar.init rope` of a group, which is applied and makes `r` of its rope. -/
def ropeInitAt (c g gn rope cnt : Nat) (slots : List Nat) (r : RopeBar) (z : State) : State :=
  clearedIn c 18 slots
    ((z.modGroup c g fun x => { x with ropeExp := cnt, ropeCnt := 0, ropeDrop := 0 }).modGrid gn fun x =>
      { x with ropes := Tbl.set x.ropes rope r })

theorem State.modGrid_keeps (s : State) (g : Nat) (f : Grid → Grid) :
    (s.modGrid g f).cur = s.cur ∧ (s.modGrid g f).clk = s.clk := by
  unfold State.modGrid; split <;> exact ⟨rfl, rfl⟩

theorem isEffect_ropeInitAt {s : State} {x : Inst} (hx : s.live x) {F : State → State} {c g gn rope cnt : Nat} {slots : List Nat}
    {r : RopeBar} (same : ∀ z, Pins s z → F z = ropeInitAt c g gn rope cnt slots r z) :
    IsEffect s F (ropeInitAt c g gn rope cnt slots r) := by
  refine isEffect_of_inst hx same (fun z => ?_) (fun z => ?_) fun z => ?_ <;> unfold ropeInitAt
  · rw [clearedIn_cur, (State.modGrid_keeps _ _ _).1]; rfl
  · rw [clearedIn_clk, (State.modGrid_keeps _ _ _).2]; rfl
  · rw [clearedIn_inst, State.thread_modGrid, State.thread_modGroup]

theorem State.initRope_eq {z : State} {c g cnt : Nat} :
    let gr := z.group c g
    let gd := z.grid gr.grid
    let rope := gr.lin / gd.launch.ropeG
    let b := z.ropeBar gr.grid rope
    let inited := insertNat (gr.lin % gd.launch.ropeG) b.inited
    let every := (List.range gd.launch.ropeG).all fun r => inited.contains r || b.retired.contains r
    z.initRope c g cnt = ropeInitAt c g gr.grid rope cnt gr.slots
      (if b.brk && every then { b with brk := false, inited := [] } else if b.brk then { b with inited := inited } else b) z := by
  have slots : ((z.modGroup c g fun x => { x with ropeExp := cnt, ropeCnt := 0, ropeDrop := 0 }).group c g).slots =
      (z.group c g).slots := by
    rcases State.group_modGroup_or z c g (fun x => { x with ropeExp := cnt, ropeCnt := 0, ropeDrop := 0 }) with h | h <;> rw [h]
  dsimp only
  rw [State.initRope]
  simp only [State.clearArrivals_eq, State.group_modGrid, slots]
  rfl

end Sys2Proof.Machine
end

section
/-! What trapping a waiting thread leaves of other threads and of groups (R279, R280, R351). -/

namespace Sys2Proof.Machine

theorem Tbl.find?_mapVals {α : Type} (f : Nat → α → α) (t : Tbl α) (n : Nat) :
    Tbl.find? (Tbl.mapVals f t) n = (Tbl.find? t n).map (f n) := by
  induction t with
  | nil => rfl
  | cons e t ih =>
    obtain ⟨k, v⟩ := e
    unfold Tbl.mapVals at ih ⊢
    simp only [List.map_cons, Tbl.find?]
    by_cases hk : k = n
    · rw [if_pos hk, if_pos hk, hk]; rfl
    rw [if_neg hk, if_neg hk]
    by_cases hn : n < k
    · rw [if_pos hn, if_pos hn]; rfl
    · rw [if_neg hn, if_neg hn]; exact ih

/-! Parts of a core that region and filing operations leave alone -/

@[simp] theorem Core.queueWrite_threads (x : Core) (sl i : Nat) : (x.queueWrite sl i).threads = x.threads := rfl
@[simp] theorem Core.queueWrite_groups (x : Core) (sl i : Nat) : (x.queueWrite sl i).groups = x.groups := rfl

theorem Core.queueWrites_same (x : Core) (sl : Nat) (is : List Nat) :
    (x.queueWrites sl is).threads = x.threads ∧ (x.queueWrites sl is).groups = x.groups := by
  induction is generalizing x with
  | nil => exact ⟨rfl, rfl⟩
  | cons i t ih =>
    rw [Core.queueWrites, (ih _).1, (ih _).2]
    exact ⟨rfl, rfl⟩

theorem Core.modRegion_same (x : Core) (k : Nat) (f : Region → Region) :
    (x.modRegion k f).threads = x.threads ∧ (x.modRegion k f).groups = x.groups := by
  unfold Core.modRegion
  split <;> exact ⟨rfl, rfl⟩

/-- A state in which the threads and groups of every core are those of another. -/
def SameThreads (s t : State) : Prop := ∀ c, (t.core c).threads = (s.core c).threads ∧ (t.core c).groups = (s.core c).groups

theorem SameThreads.thread {s t : State} (h : SameThreads s t) (c sl : Nat) : t.thread c sl = s.thread c sl := by
  simp [State.thread, Core.thread, (h c).1]

theorem SameThreads.group {s t : State} (h : SameThreads s t) (c g : Nat) : t.group c g = s.group c g := by
  simp [State.group, Core.group, (h c).2]

theorem State.endYield_same (s : State) (c sl : Nat) : SameThreads s (s.endYield c sl) := by
  intro c'
  simp only [State.endYield, State.core, Tbl.get, Tbl.find?_mapVals]
  cases Tbl.find? s.cores c' <;> exact ⟨rfl, rfl⟩

/-- All threads but one, and all groups, as they were. -/
def OnlyThread (s t : State) (c sl : Nat) : Prop :=
  (∀ c' sl', (c' ≠ c ∨ sl' ≠ sl) → t.thread c' sl' = s.thread c' sl') ∧ ∀ c' g, t.group c' g = s.group c' g

theorem OnlyThread.trans {s t u : State} {c sl : Nat} (h : OnlyThread s t c sl) (h' : OnlyThread t u c sl) : OnlyThread s u c sl :=
  ⟨fun c' sl' hne => (h'.1 c' sl' hne).trans (h.1 c' sl' hne), fun c' g => (h'.2 c' g).trans (h.2 c' g)⟩

theorem SameThreads.only {s t : State} (h : SameThreads s t) (c sl : Nat) : OnlyThread s t c sl :=
  ⟨fun c' sl' _ => h.thread c' sl', fun c' g => h.group c' g⟩

theorem State.modThread_only (s : State) (c sl : Nat) (f : Thread → Thread) : OnlyThread s (s.modThread c sl f) c sl := by
  refine ⟨fun c' sl' hne => ?_, fun c' g => State.group_modThread s c g sl f c'⟩
  by_cases hc : c' = c
  · subst hc
    exact State.thread_modThread_ne _ _ (hne.resolve_left (by simp))
  · rw [State.thread_modThread_core (h := hc)]

theorem State.modCore_same (s : State) (c : Nat) {f : Core → Core} (hf : ∀ x, (f x).threads = x.threads ∧ (f x).groups = x.groups) :
    SameThreads s (s.modCore c f) := by
  intro c'
  by_cases hc : c' = c
  · subst hc
    rw [State.core_modCore_self]
    exact hf _
  · rw [State.core_modCore_ne _ _ hc]
    exact ⟨rfl, rfl⟩

theorem State.modDie_same (s : State) (d : Nat) (f : Die → Die) : SameThreads s (s.modDie d f) := fun c => by
  rw [State.core_modDie]
  exact ⟨rfl, rfl⟩

/-! Aborting a region -/

/-- R346: what a rollback leaves of its thread, besides the slots of the snapshot. -/
theorem State.rollback_only (s : State) (c sl cause : Nat) : OnlyThread s (s.rollback c sl cause) c sl := by
  unfold State.rollback
  split
  · exact (show SameThreads s s from fun _ => ⟨rfl, rfl⟩).only c sl
  · split
    · exact (show SameThreads s s from fun _ => ⟨rfl, rfl⟩).only c sl
    · refine OnlyThread.trans (State.modThread_only { s with locks := _ } c sl _) ((State.modCore_same _ c fun x => ?_).only c sl)
      have writes := Core.queueWrites_same x sl (List.range 64)
      have region := Core.modRegion_same (x.queueWrites sl (List.range 64))
      exact ⟨(region _ _).1.trans writes.1, (region _ _).2.trans writes.2⟩

theorem State.freeRegion_only (s : State) (c sl : Nat) : OnlyThread s (s.freeRegion c sl) c sl := by
  unfold State.freeRegion
  split
  · exact (show SameThreads s s from fun _ => ⟨rfl, rfl⟩).only c sl
  · refine OnlyThread.trans ?_ ((State.endYield_same _ c sl).only c sl)
    refine OnlyThread.trans ?_ ((State.modDie_same _ _ _).only c sl)
    refine OnlyThread.trans ?_ (State.modThread_only _ c sl _)
    refine (State.modCore_same s c fun _ => ?_).only c sl
    exact ⟨rfl, rfl⟩

/-! Trapping a thread -/

/-- Does a thread stand in a bin or in the FIFO? -/
def Thread.filedIn (t : Thread) : Prop := (∃ b, t.place = .binned b) ∨ t.place = .fifo

theorem Core.unfile_of_not_filed {x : Core} {sl : Nat} (h : ¬ (x.thread sl).filedIn) : x.unfile sl = x := by
  unfold Core.unfile
  split
  · exact absurd (.inl ⟨_, ‹_›⟩) h
  · exact absurd (.inr ‹_›) h
  · rfl

theorem State.modCore_id_same (s : State) (c : Nat) {f : Core → Core} (hf : f (s.core c) = s.core c) : SameThreads s (s.modCore c f) := by
  intro c'
  by_cases hc : c' = c
  · subst hc
    rw [State.core_modCore_self, hf]
    exact ⟨rfl, rfl⟩
  · rw [State.core_modCore_ne _ _ hc]
    exact ⟨rfl, rfl⟩

/-- R351, R404: trapping a thread that stands in no bin leaves the others. -/
theorem State.trapThread_only {s : State} {c sl : Nat} (h : ¬ (s.thread c sl).filedIn) (tr : Trap) :
    OnlyThread s (s.trapThread c sl tr) c sl := by
  have unfiled := (State.modCore_id_same s c (f := fun x => x.unfile sl) (Core.unfile_of_not_filed h)).only c sl
  unfold State.trapThread
  dsimp only
  split
  · refine OnlyThread.trans (unfiled.trans ?_) (State.modThread_only _ c sl _)
    refine OnlyThread.trans ?_ (State.freeRegion_only _ c sl)
    split
    · exact State.rollback_only _ c sl 7
    · exact (show SameThreads _ _ from fun _ => ⟨rfl, rfl⟩).only c sl
  · exact unfiled.trans (State.modThread_only _ c sl _)

/-- R404: the thread itself is in the fault bin then. -/
theorem State.trapThread_place (s : State) (c sl : Nat) (tr : Trap) : ((s.trapThread c sl tr).thread c sl).place = .fault := by
  unfold State.trapThread
  dsimp only
  split
  · rw [State.thread_modThread_self]; rfl
  · rw [State.thread_modThread_self]; rfl

theorem State.trapThread_of_no_region {s : State} {c sl : Nat} (h : (s.thread c sl).region = none)
    (hf : ¬ (s.thread c sl).filedIn) (tr : Trap) : (s.trapThread c sl tr).thread c sl = (s.thread c sl).takeRecord tr := by
  have unfiled := State.modCore_id_same s c (f := fun x => x.unfile sl) (Core.unfile_of_not_filed hf)
  unfold State.trapThread
  simp only [h, State.thread_modThread_self, unfiled.thread]

/-- A thread of which no save is under way stands in no bin. -/
def Thread.unfiled (t : Thread) : Prop := t.save = none → ¬ t.filedIn

theorem Thread.unfiled_of_fault {t : Thread} (h : t.place = .fault) : t.unfiled := by
  rintro - (⟨b, hb⟩ | hb) <;> rw [h] at hb <;> exact absurd hb (by simp)

theorem Thread.unfiled_of_waits {t : Thread} {p : Place} (h : t.waitsAt p = true) (hp : p = .rope ∨ ∃ k, p = .barrier k) : t.unfiled := by
  intro hs
  have place : t.place = p := by simpa [Thread.waitsAt, hs] using h
  rintro (⟨b, hb⟩ | hb) <;> rcases hp with rfl | ⟨k, rfl⟩ <;> rw [place] at hb <;> exact absurd hb (by simp)

/-- R279, R280: a wait that ends with a fault leaves the other threads and every group, and its thread in no bin. -/
theorem State.trapWaiter_only {s : State} {c sl : Nat} {p : Place} (h : (s.thread c sl).unfiled)
    (hp : p = .rope ∨ ∃ k, p = .barrier k) (cause : Cause) (detail : DWord) :
    OnlyThread s (s.trapWaiter c sl p cause detail) c sl ∧ ((s.trapWaiter c sl p cause detail).thread c sl).unfiled := by
  unfold State.trapWaiter
  dsimp only
  split
  · rename_i v hv
    split
    · rename_i hplace
      have free : ¬ (s.thread c sl).filedIn := by
        rintro (⟨b, hb⟩ | hb) <;> rcases hp with rfl | ⟨k, rfl⟩ <;> rw [hplace] at hb <;> exact absurd hb (by simp)
      exact ⟨State.trapThread_only free _, Thread.unfiled_of_fault (State.trapThread_place _ _ _ _)⟩
    · refine ⟨State.modThread_only _ c sl _, fun hs => ?_⟩
      rw [State.thread_modThread_self] at hs
      exact absurd hs (by simp)
  · rename_i hv
    exact ⟨State.trapThread_only (h hv) _, Thread.unfiled_of_fault (State.trapThread_place _ _ _ _)⟩

/-- R279, R280: the waits at a place of some threads of a core end with faults: other threads and every group stay. -/
theorem State.trapWaiters_only {c : Nat} {p : Place} (hp : p = .rope ∨ ∃ k, p = .barrier k) (cause : Cause) (detail : DWord)
    (slots : List Nat) : ∀ s : State, (∀ sl ∈ slots, (s.thread c sl).unfiled) →
      (∀ c' sl', (c' ≠ c ∨ sl' ∉ slots) →
        (slots.foldl (fun s sl => s.trapWaiter c sl p cause detail) s).thread c' sl' = s.thread c' sl') ∧
      ∀ c' g, (slots.foldl (fun s sl => s.trapWaiter c sl p cause detail) s).group c' g = s.group c' g := by
  induction slots with
  | nil => exact fun s _ => ⟨fun _ _ _ => rfl, fun _ _ => rfl⟩
  | cons sl rest ih =>
    intro s h
    obtain ⟨only, unfiled⟩ := State.trapWaiter_only (h sl List.mem_cons_self) hp cause detail
    have others : ∀ sl' ∈ rest, ((s.trapWaiter c sl p cause detail).thread c sl').unfiled := by
      intro sl' hm
      by_cases hsl : sl' = sl
      · subst hsl; exact unfiled
      · rw [only.1 c sl' (.inr hsl)]
        exact h sl' (List.mem_cons_of_mem _ hm)
    obtain ⟨threads, groups⟩ := ih _ others
    rw [List.foldl_cons]
    refine ⟨fun c' sl' hne => ?_, fun c' g => (groups c' g).trans (only.2 c' g)⟩
    rw [threads c' sl' (hne.imp_right fun hm hr => hm (List.mem_cons_of_mem _ hr))]
    refine only.1 c' sl' (hne.imp_right fun hm he => hm ?_)
    rw [he]
    exact List.mem_cons_self

/-- R280: a rope barrier that breaks leaves a thread that does not wait on it, and every group. -/
theorem State.breakRope_keeps {s : State} {c sl : Nat} (gn rope : Nat) (h : (s.thread c sl).waitsAt .rope = false) :
    (s.breakRope gn rope).thread c sl = s.thread c sl ∧ ∀ c' g, (s.breakRope gn rope).group c' g = s.group c' g := by
  unfold State.breakRope
  simp only [State.modSaved, State.thread_modGrid, State.group_modGrid]
  refine foldl_invariant (fun t : State => t.thread c sl = s.thread c sl ∧ ∀ c' g, t.group c' g = s.group c' g) _ _
    (fun t m _ ht => ?_) ⟨State.thread_modGrid _ _ _ _ _, fun c' g => State.group_modGrid _ _ _ _ _⟩
  obtain ⟨threads, groups⟩ := State.trapWaiters_only (c := m.1) (.inl rfl) .barTimeout
    (barDetail 0 2 (t.group m.1 m.2).ropeCnt (t.group m.1 m.2).ropeExp) (t.waiters m.1 m.2 .rope) t fun sl' hm =>
      Thread.unfiled_of_waits (List.mem_filter.1 hm).2 (.inl rfl)
  refine ⟨?_, fun c' g => (groups c' g).trans (ht.2 c' g)⟩
  refine (threads c sl ?_).trans ht.1
  by_cases hc : c = m.1
  · refine .inr fun hm => ?_
    have waits := (List.mem_filter.1 hm).2
    rw [← hc, ht.1, h] at waits
    exact absurd waits (by decide)
  · exact .inl hc

theorem State.ropeAfterFault_keeps {s : State} {c sl : Nat} (c' sl' : Nat) (h : (s.thread c sl).waitsAt .rope = false) :
    (s.ropeAfterFault c' sl').thread c sl = s.thread c sl ∧ ∀ c'' g, (s.ropeAfterFault c' sl').group c'' g = s.group c'' g := by
  unfold State.ropeAfterFault
  dsimp only
  split
  · exact State.breakRope_keeps _ _ h
  · exact ⟨rfl, fun _ _ => rfl⟩

end Sys2Proof.Machine
end

section
/-! A barrier at the end of a clk (O18): its phase completes, or it breaks. -/

namespace Sys2Proof.Machine

/-! Arrival bits -/

/-- R274: clearing arrival bits leaves of each thread everything else, and of those of the group no such bit. -/
theorem clearedIn_thread (c k : Nat) (slots : List Nat) (c' sl : Nat) : ∀ z : State,
    ∃ l, (clearedIn c k slots z).thread c' sl = { z.thread c' sl with arrived := l } ∧
      (k ∉ (z.thread c' sl).arrived → k ∉ l) ∧ (c' = c → sl ∈ slots → k ∉ l) := by
  induction slots with
  | nil => exact fun z => ⟨_, rfl, id, fun _ h => absurd h (by simp)⟩
  | cons n rest ih =>
    intro z
    obtain ⟨l, hl, hkeep, hclear⟩ := ih (z.modThread c n fun t => { t with arrived := t.arrived.filter (· != k) })
    by_cases hne : c' = c ∧ sl = n
    · obtain ⟨rfl, rfl⟩ := hne
      rw [State.thread_modThread_self] at hl hkeep
      have gone : k ∉ l := hkeep (by simp)
      exact ⟨l, hl, fun _ => gone, fun _ _ => gone⟩
    · have other := (State.modThread_only z c n fun t => { t with arrived := t.arrived.filter (· != k) }).1 c' sl
        (by rcases Decidable.not_and_iff_not_or_not.1 hne with h | h <;> simp [h])
      rw [other] at hl hkeep
      refine ⟨l, hl, hkeep, fun hc hm => hclear hc ?_⟩
      exact (List.mem_cons.1 hm).resolve_left fun h => hne ⟨hc, h⟩

@[simp] theorem clearedIn_group (c k : Nat) (slots : List Nat) (z : State) (c' g : Nat) :
    (clearedIn c k slots z).group c' g = z.group c' g := by
  unfold clearedIn
  exact foldl_keeps (fun z => z.group c' g) _ (fun a b => State.group_modThread a c g b _ c') slots z

/-! Waiters that are filed -/

@[simp] theorem State.wake_clk (s : State) (c sl : Nat) (p : Place) : (s.wake c sl p).clk = s.clk := by
  unfold State.wake
  dsimp only
  split
  · split <;> rfl
  · rfl

/-- R274: the end of a wait changes of other threads nothing, and of its own not the arrival bits. -/
theorem State.wake_only (s : State) (c sl : Nat) (p : Place) : OnlyThread s (s.wake c sl p) c sl := by
  unfold State.wake
  dsimp only
  split
  · split <;> exact State.modThread_only _ _ _ _
  · exact State.modThread_only _ _ _ _

theorem State.wake_arrived (s : State) (c sl : Nat) (p : Place) (c' sl' : Nat) :
    ((s.wake c sl p).thread c' sl').arrived = (s.thread c' sl').arrived := by
  by_cases hne : c' = c ∧ sl' = sl
  · obtain ⟨rfl, rfl⟩ := hne
    unfold State.wake
    dsimp only
    split
    · split
      · simp [State.fileFrom]
      · simp
    · simp [State.fileFrom]
  · rw [(s.wake_only c sl p).1 c' sl' (by rcases Decidable.not_and_iff_not_or_not.1 hne with h | h <;> simp [h])]

/-- A thread that waits at `p` to go to `addr`, or has been filed to go there from `clk` on. -/
def FiledOrWaits (p : Place) (addr : VAddr) (clk : Nat) (done : Bool) (t : Thread) : Prop :=
  t.save = none ∧ t.next = addr ∧ ((done = false ∧ t.place = p) ∨ (t.place = .filing 4 ∧ t.filed = clk))

/-- R104: filing a thread that has not been filed from an admission before. -/
theorem State.fileFrom_spec {s : State} {c sl : Nat} (clk : Nat) (addr : VAddr)
    (hp : (∀ k, (s.thread c sl).place ≠ .filing k) ∨ (s.thread c sl).place = .filing 4) :
    let u := (s.fileFrom c sl clk addr).thread c sl
    u.save = (s.thread c sl).save ∧ u.next = addr ∧ u.place = .filing 4 ∧ u.filed = clk := by
  simp only [State.fileFrom, State.thread_modThread_self, true_and, and_true]
  rcases hp with hp | hp
  · split
    · exact absurd ‹_› (hp _)
    · rfl
  · rw [hp]

/-- R274, R276: the wait of a thread ends, once or again: it is filed from the next clk on. -/
theorem State.wake_files {s : State} {c sl : Nat} {p : Place} {addr : VAddr} (hp : ∀ k, p ≠ .filing k) {done : Bool}
    (h : FiledOrWaits p addr (s.clk + 1) done (s.thread c sl)) :
    FiledOrWaits p addr (s.clk + 1) true ((s.wake c sl p).thread c sl) := by
  obtain ⟨hsave, hnext, hplace⟩ := h
  have woken : s.wake c sl p = s.fileFrom c sl (s.clk + 1) addr := by simp only [State.wake, hsave, hnext]
  obtain ⟨save, next, place, filed⟩ := State.fileFrom_spec (s := s) (c := c) (sl := sl) (s.clk + 1) addr (by
    rcases hplace with ⟨-, hplace⟩ | ⟨hplace, -⟩ <;> rw [hplace]
    · exact .inl hp
    · exact .inr rfl)
  rw [woken]
  exact ⟨save.trans hsave, next, .inr ⟨place, filed⟩⟩

theorem State.wakeAll_files {c : Nat} {p : Place} (hp : ∀ k, p ≠ .filing k) {addr : VAddr} {clk sl : Nat} (slots : List Nat) :
    ∀ s : State, ∀ done, s.clk + 1 = clk → FiledOrWaits p addr clk done (s.thread c sl) → (done = true ∨ sl ∈ slots) →
      FiledOrWaits p addr clk true ((slots.foldl (fun s sl => s.wake c sl p) s).thread c sl) := by
  induction slots with
  | nil =>
    rintro s done - h hm
    obtain rfl : done = true := hm.resolve_right (by simp)
    exact h
  | cons n rest ih =>
    rintro s done hclk h hm
    rw [List.foldl_cons]
    by_cases hn : sl = n
    · subst hn hclk
      refine ih _ true (by rw [State.wake_clk]) (State.wake_files hp h) (.inl rfl)
    · have other := (s.wake_only c n p).1 c sl (.inr hn)
      refine ih _ done (by rw [State.wake_clk, hclk]) (by rw [other]; exact h) (hm.imp_right fun hm => ?_)
      exact (List.mem_cons.1 hm).resolve_left hn

theorem State.freeWaiters_arrived (s : State) (c g : Nat) (p : Place) (b c' sl : Nat) :
    ((s.freeWaiters c g p b).thread c' sl).arrived = (s.thread c' sl).arrived := by
  unfold State.freeWaiters
  exact foldl_keeps (fun z : State => (z.thread c' sl).arrived) _ (fun a n => a.wake_arrived c n p c' sl) _ s

theorem State.freeWaiters_group (s : State) (c g : Nat) (p : Place) (b c' g' : Nat) :
    (s.freeWaiters c g p b).group c' g' = s.group c' g' := by
  unfold State.freeWaiters
  exact foldl_keeps (fun z : State => z.group c' g') _ (fun a n => (a.wake_only c n p).2 c' g') _ s

/-! What trapping keeps of the groups -/

theorem Core.releaseBin_groups (x : Core) (b : Nat) : (x.releaseBin b).groups = x.groups := by
  unfold Core.releaseBin
  split
  · rfl
  · dsimp only
    rw [foldl_keeps Core.groups _ fun a n => Core.groups_modThread a n _]

theorem Core.unfile_groups (x : Core) (sl : Nat) : (x.unfile sl).groups = x.groups := by
  unfold Core.unfile
  split
  · dsimp only
    split
    · rw [Core.releaseBin_groups, Core.modBin_groups]
    · rw [Core.modBin_groups]
  · rfl
  · rfl

theorem State.trapThread_group (s : State) (c sl : Nat) (tr : Trap) (c' g : Nat) :
    (s.trapThread c sl tr).group c' g = s.group c' g := by
  have unfiled : (s.modCore c fun x => x.unfile sl).group c' g = s.group c' g :=
    State.group_modCore s c g (fun x => x.unfile_groups sl) c'
  unfold State.trapThread
  dsimp only
  split
  · rw [State.group_modThread, (State.freeRegion_only _ c sl).2]
    split
    · rw [(State.rollback_only _ c sl 7).2, unfiled]
    · exact unfiled
  · rw [State.group_modThread, unfiled]

theorem State.trapWaiter_group (s : State) (c sl : Nat) (p : Place) (cause : Cause) (detail : DWord) (c' g : Nat) :
    (s.trapWaiter c sl p cause detail).group c' g = s.group c' g := by
  unfold State.trapWaiter
  dsimp only
  split
  · split
    · exact State.trapThread_group ..
    · exact State.group_modThread ..
  · exact State.trapThread_group ..

theorem State.breakRope_group (s : State) (gn rope c g : Nat) : (s.breakRope gn rope).group c g = s.group c g := by
  unfold State.breakRope
  simp only [State.modSaved, State.group_modGrid]
  rw [foldl_keeps (fun z : State => z.group c g) _ fun a m => ?_]
  · exact State.group_modGrid ..
  · exact foldl_keeps (fun z : State => z.group c g) _ (fun z sl => State.trapWaiter_group ..) _ a

theorem State.ropeAfterFault_group (s : State) (c' sl c g : Nat) : (s.ropeAfterFault c' sl).group c g = s.group c g := by
  unfold State.ropeAfterFault
  dsimp only
  split
  · exact State.breakRope_group ..
  · rfl

/-- R404: a wait of a thread that is not being saved ends with a fault of its cause. -/
theorem State.trapWaiter_of_no_save {s : State} {c sl : Nat} (p : Place) (cause : Cause) (detail : DWord)
    (h : (s.thread c sl).save = none) : ∃ tr : Trap, tr.cause = cause ∧ s.trapWaiter c sl p cause detail = s.trapThread c sl tr :=
  ⟨s.trapOf c sl cause (s.thread c sl).waitBlk ((s.thread c sl).waitNext p) false false 0 detail .none, rfl, by
    simp only [State.trapWaiter, h]⟩

/-! The end of a clk -/

section
variable {s : State} {c g k : Nat} {gr : Group} (hg : Tbl.find? (s.core c).groups g = some gr)
include hg

theorem State.group_of_find? : s.group c g = gr := Core.group_of_find? hg

/-- R274, R276: what the completion of a phase leaves of the barrier and of the threads of its group. -/
theorem State.completePhase_spec :
    let y := gr.bar k
    let w := s.completePhase c g k
    ((∃ since, (w.group c g).bar k = { y with ph := y.ph + 1, cnt := 0, exp := y.exp - y.drop, drop := 0, since := since })) ∧
      ∀ sl ∈ gr.slots, k ∉ (w.thread c sl).arrived ∧
        ((s.thread c sl).place = .barrier k → (s.thread c sl).save = none → (s.thread c sl).holdArrive ≠ some k →
          (w.thread c sl).place = .filing 4 ∧ (w.thread c sl).filed = s.clk + 1 ∧ (w.thread c sl).next = (s.thread c sl).next) := by
  have group := State.group_of_find? hg
  dsimp only
  rw [State.completePhase]
  generalize hf : (fun x : Group => x.modBar k fun y =>
    { y with ph := y.ph + 1, cnt := 0, exp := y.exp - y.drop, drop := 0, since := s.heldSince c g (.barrier k) k }) = f
  have slots : (f gr).slots = gr.slots := by rw [← hf]; rfl
  have cleared : (s.modGroup c g f).clearArrivals c g k = clearedIn c k gr.slots (s.modGroup c g f) := by
    rw [State.clearArrivals_eq, State.group_modGroup_self hg, slots]
  rw [cleared]
  refine ⟨⟨s.heldSince c g (.barrier k) k, ?_⟩, fun sl hsl => ?_⟩
  · rw [State.freeWaiters_group, clearedIn_group, State.group_modGroup_self hg, ← hf]
    simp [Group.bar, Group.modBar]
  · obtain ⟨l, hl, -, hclear⟩ := clearedIn_thread c k gr.slots c sl (s.modGroup c g f)
    rw [State.thread_modGroup] at hl
    refine ⟨?_, fun hplace hsave hhold => ?_⟩
    · rw [State.freeWaiters_arrived, hl]
      exact hclear rfl hsl
    · have waits : sl ∈ (clearedIn c k gr.slots (s.modGroup c g f)).arrivedWaiters c g (.barrier k) k true := by
        simp only [State.arrivedWaiters, State.waiters, List.mem_filter, clearedIn_group, State.group_modGroup_self hg, slots, hl]
        refine ⟨⟨hsl, by simp [Thread.waitsAt, hplace]⟩, by simpa using hhold⟩
      have files := State.wakeAll_files (c := c) (p := .barrier k) (by simp) (addr := (s.thread c sl).next) (clk := s.clk + 1)
        (sl := sl) _ (clearedIn c k gr.slots (s.modGroup c g f)) false (by rw [clearedIn_clk]; rfl)
        (by rw [hl]; exact ⟨hsave, rfl, .inl ⟨rfl, hplace⟩⟩) (.inr waits)
      obtain ⟨-, hnext, hfiled⟩ := files
      obtain ⟨hp, hc⟩ := hfiled.resolve_left (by simp)
      exact ⟨hp, hc, hnext⟩

/-- R279: what a break leaves of the barrier and of the one thread of its group. -/
theorem State.breakBar_spec :
    let w := s.breakBar c g k .overrun
    ((w.group c g).bar k).brk = some .overrun ∧
      ∀ sl, gr.slots = [sl] → (s.thread c sl).place = .barrier k → (s.thread c sl).save = none → (s.thread c sl).region = none →
        (w.thread c sl).place = .fault ∧ ∃ tr, (w.thread c sl).trap = some tr ∧
          tr.cause = .stageOverrun := by
  intro w
  have hw : w = s.breakBar c g k .overrun := rfl
  clear_value w
  unfold State.breakBar at hw
  dsimp only at hw
  subst hw
  generalize hz : s.modGroup c g (fun x => x.modBar k fun y => { y with brk := some .overrun, since := none }) = z
  have group : (z.group c g).slots = gr.slots ∧ ((z.group c g).bar k).brk = some .overrun := by
    rw [← hz, State.group_modGroup_self hg]
    simp [Group.bar, Group.modBar]
  have thread : ∀ sl, z.thread c sl = s.thread c sl := fun sl => by rw [← hz, State.thread_modGroup]
  refine ⟨?_, fun sl hsl hplace hsave hregion => ?_⟩
  · rw [foldl_keeps (fun z : State => z.group c g) _ fun a b => by rw [State.ropeAfterFault_group, State.trapWaiter_group]]
    exact group.2
  · have waits : z.waiters c g (.barrier k) = [sl] := by
      simp [State.waiters, group.1, hsl, Thread.waitsAt, thread, hplace]
    have region : (z.thread c sl).region = none := by rw [thread, hregion]
    have unfiled : ¬ (z.thread c sl).filedIn := by rw [thread, Thread.filedIn, hplace]; simp
    rw [waits, List.foldl_cons, List.foldl_nil]
    obtain ⟨tr, htr, trapped⟩ := State.trapWaiter_of_no_save (s := z) (c := c) (sl := sl) (.barrier k)
      .stageOverrun
      (barDetail (barName k).1 (barName k).2 ((s.group c g).bar k).cnt ((s.group c g).bar k).exp) (by rw [thread, hsave])
    have record := State.trapThread_of_no_region region unfiled tr
    have off : ((z.trapThread c sl tr).thread c sl).waitsAt .rope = false := by
      rw [record, thread]
      simp [Thread.waitsAt, Thread.takeRecord, hsave]
    rw [trapped, (State.ropeAfterFault_keeps c sl off).1, record]
    exact ⟨rfl, tr, rfl, htr⟩

theorem State.settleBar_spec {y : Barrier} (hy : gr.bar k = y) (hbrk : y.brk = none) :
    ((y.bytes < 0 ∨ 2 ^ 47 - 1 < y.bytes) → s.settleBar c g k = s.breakBar c g k .overrun) ∧
    (0 ≤ y.bytes → y.bytes ≤ 2 ^ 47 - 1 →
      (y.cnt < max y.exp 1 ∨ (16 ≤ k ∧ y.bytes ≠ 0) → s.settleBar c g k = s) ∧
      (max y.exp 1 ≤ y.cnt → k < 16 ∨ y.bytes = 0 → s.settleBar c g k = s.completePhase c g k)) := by
  have settle : s.settleBar c g k =
      if y.bytes < 0 ∨ 2 ^ 47 - 1 < y.bytes then s.breakBar c g k .overrun
      else if max y.exp 1 ≤ y.cnt ∧ (k < 16 ∨ y.bytes = 0) then s.completePhase c g k else s := by
    simp [State.settleBar, State.group_of_find? hg, hy, hbrk, Barrier.full]
  rw [settle]
  refine ⟨fun h => if_pos h, fun h0 h1 => ?_⟩
  rw [if_neg (by omega)]
  exact ⟨fun h => if_neg (by omega), fun h h' => if_pos ⟨h, h'⟩⟩

end

/-- R280, R282: `bar.init rope` is performed where nothing of the group has arrived, or the rope's barrier is broken. -/
theorem ropeInit_performs {s : State} {x : Inst} {t1 t0 : Target} {a : Token} (hx : s.live x) (ha : s.has .a a) {r : RopeBar}
    (hcarrier : (s.group s.cur.core s.curThread.group).carrier = false) (hlow : 1 ≤ a.nat % 2 ^ 32) (hhigh : a.nat % 2 ^ 32 ≤ 1024) :
    let gr := s.group s.cur.core s.curThread.group
    let gd := s.grid gr.grid
    let b := s.ropeBar gr.grid (gr.lin / gd.launch.ropeG)
    let inited := insertNat (gr.lin % gd.launch.ropeG) b.inited
    gr.ropeCnt = 0 ∨ b.brk = true →
    r = (if b.brk && (List.range gd.launch.ropeG).all (fun k => inited.contains k || b.retired.contains k) then
        { b with brk := false, inited := [] } else if b.brk then { b with inited := inited } else b) →
    s.Performs (.barInit .rope t1 t0) t1 t0 doneTok (predTok true)
      (ropeInitAt s.cur.core s.curThread.group gr.grid (gr.lin / gd.launch.ropeG) (a.nat % 2 ^ 32) gr.slots r) := by
  intro gr gd b inited hcnt hr
  have ok : s.barInitOk .rope (a.nat % 2 ^ 32) = true := by
    simp only [State.barInitOk, Bool.and_eq_true, Bool.not_eq_true']
    exact ⟨hcarrier, initApplies_iff.2 ⟨hlow, hhigh, hcnt⟩⟩
  refine State.immediate_performs (F := fun z => z.applyBarInit .rope (a.nat % 2 ^ 32)) (ops := [s.opTok .a]) hx ha.operands
    (isEffect_ropeInitAt hx fun z hz => ?_) ?_
  · have applied : z.applyBarInit .rope (a.nat % 2 ^ 32) = z.initRope s.cur.core s.curThread.group (a.nat % 2 ^ 32) := by
      rw [State.applyBarInit, hz.cur, hz.thread]
      rfl
    rw [applied, State.initRope_eq, hz.group, hz.grid, hr]
    simp only [State.ropeBar, hz.grid, gr, gd, b, inited]
  · simp only [exec, execBarInit, ha.opTok, ok, if_true]

end Sys2Proof.Machine

open Sys2Proof Sys2Proof.Machine

/-- Settles O18: the barrier instructions are immediate firings with one effect on their group; a phase completes with its
waiters filed, and a break traps the waiter. -/
theorem barrierInstructions : Obligations.BarrierInstructions := by
  unfold Obligations.BarrierInstructions
  refine ⟨fun s x b k t1 t0 a hx ha hb => ?_, fun s x t1 t0 a hx ha => ?_, fun s c g k gr hg hbrk => ?_⟩
  · have hb' : b ≠ .rope ∧ barNum b = k := by
      rcases hb with ⟨rfl, hk⟩ | ⟨n, rfl, rfl⟩
      · exact ⟨by simp, by simp only [barNum, BitVec.toNat_ofNat]; omega⟩
      · exact ⟨by simp, rfl⟩
    obtain ⟨whole, broken, init, noInit⟩ := barrier_performs (t1 := t1) (t0 := t0) hx ha hb'.1 hb'.2
    exact ⟨whole, broken, init, noInit, fun stg hk => by subst hk; exact stgExpect_performs hx ha stg⟩
  · intro c g gr gd rope b cnt inited every hcarrier hlow hhigh hcnt r hwhole hall hsome
    have every_iff : (List.range gd.launch.ropeG).all (fun k => inited.contains k || b.retired.contains k) = true ↔ every := by
      simp [every]
    have hr : r = if b.brk && (List.range gd.launch.ropeG).all (fun k => inited.contains k || b.retired.contains k) then
        { b with brk := false, inited := [] } else if b.brk then { b with inited := inited } else b := by
      cases hbrk : b.brk with
      | false => exact hwhole hbrk
      | true =>
        by_cases hev : every
        · rw [every_iff.2 hev]
          exact hall hbrk hev
        · rw [Bool.eq_false_iff.2 fun h => hev (every_iff.1 h)]
          exact (hsome hbrk hev).trans (by simp [hbrk])
    exact ropeInit_performs hx ha hcarrier hlow hhigh hcnt hr
  · obtain ⟨beyond, within⟩ := State.settleBar_spec hg rfl hbrk
    refine ⟨fun h => ?_, fun h0 h1 => ⟨(within h0 h1).1, fun h h' => ?_⟩⟩
    · rw [beyond h]
      exact State.breakBar_spec hg
    · rw [(within h0 h1).2 h h']
      obtain ⟨⟨since, bar⟩, threads⟩ := State.completePhase_spec hg (k := k)
      refine ⟨?_, ?_, ?_, ?_, ?_, ?_, State.completePhase_mem _ _ _ _, threads⟩ <;> rw [bar]
      exact hbrk

end

section
/-! Page permissions (O23): the rows of R220. -/

namespace Sys2Proof.Machine

/-- R210: the memory types that MT names. -/
theorem memTypeOf_eq (e : DWord) : (leafMt e = 0 → memTypeOf e = .coherent) ∧ (leafMt e = 1 → memTypeOf e = .nonCoherent) ∧
    (leafMt e = 2 → memTypeOf e = .device) := by
  unfold memTypeOf
  refine ⟨fun h => ?_, fun h => ?_, fun h => ?_⟩ <;> simp [h]

theorem memTypeOf_not_device {e : DWord} (h : leafMt e ≤ 1) : memTypeOf e ≠ .device := by
  obtain ⟨coherent, nonCoherent, -⟩ := memTypeOf_eq e
  rcases (by omega : leafMt e = 0 ∨ leafMt e = 1) with h | h
  · simp [coherent h]
  · simp [nonCoherent h]

theorem deviceShapeOk_iff (va bytes : Nat) : deviceShapeOk va bytes = true ↔ (bytes = 4 ∨ bytes = 8) ∧ va % bytes = 0 := by
  simp [deviceShapeOk]

section
variable {s : State} {user : Bool} {va bytes at_ : Nat} {e : DWord}

/-- R220: user mode needs U, in every row. -/
theorem judgeLeaf_of_user (hu : user = true) (hbit : e.getLsbD 7 = false) (row : AccessRow) :
    judgeLeaf s row user va bytes at_ e = some (.permission, 3) := by
  have denied : (user && !leafBit e 7) = true := by rw [hu, leafBit, hbit]; rfl
  exact if_pos denied

variable (h : user = false ∨ e.getLsbD 7 = true)
include h

theorem judgeLeaf_user : (user && !leafBit e 7) = false := by
  rcases h with h | h <;> simp [leafBit, h]

/-- R220: the rows of memory that is no device register. -/
theorem judgeLeaf_of_memory (hmt : memTypeOf e ≠ .device) :
    (∀ row ∈ [AccessRow.load, .loadNc], judgeLeaf s row user va bytes at_ e = none ↔ e.getLsbD 4 = true) ∧
    (∀ row ∈ [AccessRow.store, .storeNc], judgeLeaf s row user va bytes at_ e = none ↔ e.getLsbD 5 = true) ∧
    (judgeLeaf s .cacheOp user va bytes at_ e = none ↔ e.getLsbD 4 = true) := by
  simp only [List.forall_mem_cons, judgeLeaf, judgeLeaf_user h, hmt, Bool.false_eq_true, if_false]
  refine ⟨⟨?_, ?_, List.forall_mem_nil _⟩, ⟨?_, ?_, List.forall_mem_nil _⟩, ?_⟩ <;> simp [leafBit]

/-- R220: the rows that need coherent memory. -/
theorem judgeLeaf_of_coherent (hmt : memTypeOf e = .coherent) :
    (judgeLeaf s .loadAcq user va bytes at_ e = none ↔ e.getLsbD 4 = true) ∧
    (judgeLeaf s .storeRel user va bytes at_ e = none ↔ e.getLsbD 5 = true) ∧
    ∀ cas, judgeLeaf s (.atomic cas) user va bytes at_ e = none ↔ e.getLsbD 4 = true ∧ e.getLsbD 5 = true ∧ e.getLsbD 8 = true := by
  simp only [judgeLeaf, judgeLeaf_user h, hmt, Bool.false_eq_true, if_false]
  refine ⟨?_, ?_, fun cas => ?_⟩ <;> simp [leafBit]
  exact and_assoc

/-- R220: what other memory refuses. -/
theorem judgeLeaf_of_not_coherent (hmt : memTypeOf e ≠ .coherent) :
    judgeLeaf s .loadAcq user va bytes at_ e ≠ none ∧ judgeLeaf s .storeRel user va bytes at_ e ≠ none ∧
    judgeLeaf s (.atomic false) user va bytes at_ e ≠ none := by
  simp only [judgeLeaf, judgeLeaf_user h, hmt, Bool.false_eq_true, if_false, ne_eq]
  refine ⟨?_, ?_, ?_⟩ <;> split <;> simp

/-- R220: the rows of a device register. -/
theorem judgeLeaf_of_device (hmt : memTypeOf e = .device) :
    judgeLeaf s .load user va bytes at_ e ≠ none ∧ judgeLeaf s .store user va bytes at_ e ≠ none ∧
    judgeLeaf s .cacheOp user va bytes at_ e ≠ none ∧ (∀ cas, judgeLeaf s (.atomic cas) user va bytes at_ e ≠ none) ∧
    (judgeLeaf s .loadNc user va bytes at_ e = none ↔ e.getLsbD 4 = true ∧ (bytes = 4 ∨ bytes = 8) ∧ va % bytes = 0) ∧
    (judgeLeaf s .storeNc user va bytes at_ e = none ↔ e.getLsbD 5 = true ∧ (bytes = 4 ∨ bytes = 8) ∧ va % bytes = 0) := by
  rw [← deviceShapeOk_iff]
  simp only [judgeLeaf, judgeLeaf_user h, hmt, Bool.false_eq_true, if_false]
  refine ⟨?_, ?_, ?_, fun cas => ?_, ?_, ?_⟩
  · split <;> simp
  · split <;> simp
  · split <;> simp
  · split <;> simp
  · rw [leafBit]
    generalize e.getLsbD 4 = r
    cases r <;> cases deviceShapeOk va bytes <;> decide
  · rw [leafBit]
    generalize e.getLsbD 5 = w
    cases w <;> cases deviceShapeOk va bytes <;> decide

end

end Sys2Proof.Machine

open Sys2Proof Sys2Proof.Machine

/-- Settles O23: the rows of R220, by the memory type of the leaf. -/
theorem pagePermissions : Obligations.PagePermissions := by
  unfold Obligations.PagePermissions
  intro s user va bytes at_ e w bit mt
  obtain ⟨coherent, nonCoherent, device⟩ := memTypeOf_eq e
  refine ⟨judgeLeaf_of_user, fun h hmt => judgeLeaf_of_memory h (memTypeOf_not_device hmt),
    fun h hmt => judgeLeaf_of_coherent h (coherent hmt), fun h hmt => ?_, fun h hmt => ?_⟩
  · exact judgeLeaf_of_not_coherent h (by simp [nonCoherent hmt])
  · obtain ⟨acq, rel, -⟩ := judgeLeaf_of_not_coherent (s := s) (va := va) (bytes := bytes) (at_ := at_) h (by simp [device hmt])
    obtain ⟨load, store, cache, atomic, nc⟩ := judgeLeaf_of_device (s := s) (va := va) (bytes := bytes) (at_ := at_) h (device hmt)
    exact ⟨load, store, acq, rel, cache, atomic, nc⟩

end

section
/-! Requests of memory instructions (O21): what a firing leaves of its core's ports, and the request that it makes. -/

namespace Sys2Proof.Machine

theorem Fired.clk {s t : State} {busy : Nat} {y : Inst} (h : Fired s t busy y) : t.clk = s.clk := by
  obtain ⟨_, _, _, -, -, rfl⟩ := h; rfl

theorem Fired.cur {s t : State} {busy : Nat} {y : Inst} (h : Fired s t busy y) : t.cur = s.cur := by
  obtain ⟨_, _, _, -, -, rfl⟩ := h; rfl

/-- A firing takes no memory port and no engine port. -/
theorem Fired.ports {s t : State} {busy : Nat} {y : Inst} (h : Fired s t busy y) :
    (t.core s.cur.core).memQ = (s.core s.cur.core).memQ ∧ (t.core s.cur.core).memTaken = (s.core s.cur.core).memTaken ∧
      (t.core s.cur.core).port = (s.core s.cur.core).port := by
  obtain ⟨_, _, _, -, -, rfl⟩ := h
  rw [State.core_setCore_self]
  exact ⟨rfl, rfl, rfl⟩

theorem Core.memFree_iff (x : Core) (now : Nat) : x.memFree now = true ↔ x.memQ = [] ∧ x.memTaken now < 4 := by
  simp [Core.memFree]

/-- A firing leaves its core's memory ports as free as they were. -/
theorem Fired.memFree_iff {s t : State} {busy : Nat} {y : Inst} (h : Fired s t busy y) :
    (t.core s.cur.core).memFree t.clk = true ↔ (s.core s.cur.core).memQ = [] ∧ (s.core s.cur.core).memTaken s.clk < 4 := by
  rw [Core.memFree_iff, h.ports.1, h.ports.2.1, h.clk]

/-- R158: the low dword of a token, as 64 bits. -/
theorem ofNat_lo (a : Token) : BitVec.ofNat 64 a.lo = BitVec.ofNat 64 a.nat := by
  apply BitVec.eq_of_toNat_eq
  simp [Token.lo, Token.nat]

theorem State.squashed_of_live {s : State} {x : Inst} (hx : s.live x) : s.squashed = false := by
  simp [State.squashed, hx.1, hx.2]

/-- R225: the request of a memory instruction, with the tag that R341 lets a store keep. -/
def memReq (idx : Nat) (kind : ReqKind) (bytes : Nat) (a d : Token) (t1 t0 : Target) : Req :=
  ⟨idx, kind, BitVec.ofNat 64 a.nat, bytes, .walking, [], .coherent, 0, d.data,
    if a.tag = none ∧ bytes ≤ 8 then d.tag else none, t0, t1, [], 0⟩

theorem newReq_eq_memReq (idx : Nat) (kind : ReqKind) (bytes : Nat) (a d : Token) (t1 t0 : Target) :
    newReq idx kind a.lo bytes (if (a.tag.isNone && decide (bytes ≤ 8)) = true then d else { d with tag := none }) t1 t0 =
      memReq idx kind bytes a d t1 t0 := by
  rw [newReq, ofNat_lo, memReq]
  by_cases h : a.tag = none ∧ bytes ≤ 8
  · simp [h]
  · rw [if_neg h, if_neg (by simpa using h)]

theorem State.sendReq_spec (s : State) (c sl : Nat) (r : Req) :
    let put (stage : ReqStage) : State :=
      s.modInst c sl fun y => ({ y with reqs := y.reqs ++ [{ r with stage := stage }] }).addWatch (s.readWatch c sl r)
    ((s.core c).memFree s.clk = true →
      s.sendReq c sl r = ((put .walking).modCore c fun k => k.takeMem s.clk).judgeReq c sl r.idx) ∧
    ((s.core c).memFree s.clk = false →
      s.sendReq c sl r = (put .queued).modCore c fun k => { k with memQ := k.memQ ++ [(sl, r.idx)] }) := by
  refine ⟨fun h => ?_, fun h => ?_⟩
  · rw [State.sendReq, if_pos h]
  · rw [State.sendReq, if_neg (by rw [h]; decide)]

/-- R119, R225: a memory instruction whose operands have arrived makes its request. -/
theorem State.memOp_requests {s : State} {x : Inst} {i : Instr} {kind : ReqKind} {bytes : Nat} {data : Option Token} {t1 t0 : Target}
    {a : Token} (hx : s.live x) (ha : s.has .a a) (hd : ∀ d ∈ data, d.null = false)
    (hi : exec i s = .next (s.memOp kind bytes data t1 t0)) :
    s.Requests i (memReq s.cur.idx kind bytes a (data.getD nullTok) t1 t0) := by
  have sent : ∃ w, Fired s w 1 (x.consume s.clk s.cur.idx) ∧ s.memOp kind bytes data t1 t0 =
      w.sendReq s.cur.core s.cur.slot (memReq s.cur.idx kind bytes a (data.getD nullTok) t1 t0) := by
    refine ⟨_, State.fireWith_fired (State.pin_pinned s
      (if (a.tag.isNone && decide (bytes ≤ 8)) = true then [a] else [a, data.getD nullTok])) hx.1 1 id, ?_⟩
    unfold State.memOp
    dsimp only
    refine (if_neg ?_).trans ?_
    · rw [State.squashed_of_live hx, ha.opTok, ha.2]
      cases data with
      | none => simp
      | some d => simp [hd d rfl]
    · rw [ha.opTok, newReq_eq_memReq]
  obtain ⟨w, fired, hw⟩ := sent
  obtain ⟨free, busy⟩ := State.sendReq_spec w s.cur.core s.cur.slot (memReq s.cur.idx kind bytes a (data.getD nullTok) t1 t0)
  rw [hw] at hi
  refine ⟨_, w, x, hi, hx.1, fired, fun h => ?_, fun h => ?_⟩
  · rw [free (fired.memFree_iff.2 h), fired.clk]
    simp only [Core.takeMem]
  · rw [busy (Bool.eq_false_iff.2 fun hf => h (fired.memFree_iff.1 hf))]

end Sys2Proof.Machine

open Sys2Proof Sys2Proof.Machine

/-- Settles O21: every memory instruction is `memOp` with the kind and size of its form. -/
theorem memoryRequests : Obligations.MemoryRequests := by
  unfold Obligations.MemoryRequests
  intro s x z p l2 n t1 t0 a c hx ha idx req stored makes
  have noData : ∀ d ∈ (none : Option Token), d.null = false := by simp
  have load {i : Instr} (kind : ReqKind) (bytes : Nat) (t0 : Target) (hi : exec i s = .next (s.memOp kind bytes none t1 t0)) :
      makes i (req kind bytes t1 t0) := by
    have made := State.memOp_requests hx ha noData hi
    rwa [show memReq s.cur.idx kind bytes a ((none : Option Token).getD nullTok) t1 t0 = req kind bytes t1 t0 by
      simp [memReq, req, nullTok, idx]] at made
  refine ⟨load .load _ _ rfl, load .lds _ _ rfl, load (.loadAcq p) _ _ rfl, load .loadNc _ _ rfl, load (.deferred n.toNat false) _ _ rfl,
    load (.deferred n.toNat true) _ _ rfl, load .cinv _ _ rfl, load .cwb _ _ rfl, load .probe _ _ rfl, load (.prefetch l2) _ _ rfl,
    fun hc => ?_⟩
  have data : ∀ d ∈ some (s.opTok .c), d.null = false := by simp [hc.opTok, hc.2]
  have store {i : Instr} (kind : ReqKind) (hi : exec i s = .next (s.memOp kind (sizeBytes z) (some (s.opTok .c)) t1 .none)) :
      makes i (stored kind) := by
    have made := State.memOp_requests hx ha data hi
    rwa [Option.getD_some, hc.opTok] at made
  exact ⟨store .store rfl, store (.storeRel p) rfl, store .storeNc rfl⟩

end

section
/-! Null operands of requests and commands (O24), and commands that reach the engine port (O27, O28). -/

namespace Sys2Proof.Machine

/-! Memory instructions with a null operand -/

/-- R129, R133: a memory instruction that sends nothing emits null, and its address counts as judged. -/
theorem State.memOp_null {s : State} {x : Inst} {i : Instr} {kind : ReqKind} {bytes : Nat} {data : Option Token} {t1 t0 : Target}
    (hx : s.curInst? = some x) (hi : exec i s = .next (s.memOp kind bytes data t1 t0))
    (h : (s.opTok .a).null = true ∨ (∃ d ∈ data, d.null = true) ∨ x.squash ≠ none) :
    ∃ t w, exec i s = .next t ∧ Emitted s w 1 1 t1 t0 nullTok nullTok ∧ t = w.judgedAt s.cur.core s.cur.slot s.cur.idx := by
  refine ⟨_, _, hi, State.emit_null (State.pin_pinned s [s.opTok .a, data.getD nullTok]) hx 1 1 t1 t0, ?_⟩
  unfold State.memOp
  dsimp only
  refine if_pos ?_
  rcases h with h | ⟨d, hd, hn⟩ | h
  · simp [h]
  · obtain rfl : data = some d := hd
    simp [hn]
  · have squashed : s.squashed = true := by simpa [State.squashed, hx] using Option.isSome_iff_ne_none.2 h
    simp [squashed]

/-! Commands with a null operand -/

/-- R129, R237: a command that is not sent emits null at once and counts as performed. -/
theorem State.engineNull_fired {s : State} {x : Inst} (hx : s.curInst? = some x) (t1 t0 : Target) :
    Fired s (s.engineNull t1 t0) 1
      (((x.consume s.clk s.cur.idx).produce s.clk s.cur.idx 0 t1 t0 nullTok nullTok).perform s.cur.idx) := by
  obtain ⟨y, hy, fired⟩ := State.emit_null (.refl s) hx 1 0 t1 t0
  obtain rfl : x = y := Option.some.inj (hx.symm.trans hy)
  exact fired.modInst _

theorem State.engineOp_null {s : State} {x : Inst} {i : Instr} {t1 t0 : Target} {ops : List Token} {op : EngOp}
    (hx : s.curInst? = some x) (h : x.squash ≠ none ∨ ∃ v ∈ ops, v.null = true)
    (hi : exec i s = .next (s.engineOp t1 t0 ops op)) :
    ∃ t, exec i s = .next t ∧ Fired s t 1
      (((x.consume s.clk s.cur.idx).produce s.clk s.cur.idx 0 t1 t0 nullTok nullTok).perform s.cur.idx) := by
  rw [State.engineOp, if_neg (by rw [State.runs_eq_false hx h]; decide)] at hi
  exact ⟨_, hi, State.engineNull_fired hx t1 t0⟩

/-! The engine port -/

theorem State.curThread_modInst (s : State) (g : Inst → Inst) :
    (s.modInst s.cur.core s.cur.slot g).curThread = s.curThread.modInst g :=
  State.thread_modThread_self _ _ _ _

theorem State.curInst_modInst {s : State} {x : Inst} (hx : s.curInst? = some x) (g : Inst → Inst) :
    (s.modInst s.cur.core s.cur.slot g).curInst? = some (g x) := by
  rw [State.curInst?, State.curThread_modInst, Thread.modInst, show s.curThread.inst = some x from hx]

/-- A firing of an instance that has been changed before is one of the instance as it was. -/
theorem Fired.of_modInst {s u : State} {busy : Nat} {x y : Inst} {g : Inst → Inst} (hx : s.curInst? = some x)
    (hg : (g x).region = x.region) (h : Fired (s.modInst s.cur.core s.cur.slot g) u busy y) : Fired s u busy y := by
  have core : (s.modInst s.cur.core s.cur.slot g).core s.cur.core = (s.core s.cur.core).modThread s.cur.slot fun t => t.modInst g :=
    State.core_modCore_self _ _ _
  obtain ⟨ex, lf, rg, hr, hn, rfl⟩ := h
  rw [show (s.modInst s.cur.core s.cur.slot g).cur = s.cur from rfl, core] at hr hn
  refine ⟨ex, lf, rg, hr, fun z hz hzn => ?_, ?_⟩
  · obtain rfl : x = z := Option.some.inj (hx.symm.trans hz)
    exact hn _ (State.curInst_modInst hx g) (by rw [hg, hzn])
  · rw [show (s.modInst s.cur.core s.cur.slot g).cur = s.cur from rfl, core, State.curThread_modInst, Thread.modInst,
      show s.curThread.inst = some x from hx]
    simp [State.modInst, State.modThread, State.modCore, Core.modThread, Core.setThread]

/-- R119, R189: the head of a port that stood empty is accepted at once when its unit admits it. -/
theorem State.toPort_spec {w : State} {c sl : Nat} {y : Inst} (hw : (w.thread c sl).inst = some y) (k : EngCmd) :
    let q := w.modCore c fun y => { y with port := y.port ++ [k] }
    ((w.core c).port ≠ [] → w.toPort c k = q) ∧
    ((w.core c).port = [] → (q.admits c k = true → w.toPort c k = w.acceptCmd c k) ∧ (q.admits c k = false → w.toPort c k = q)) := by
  intro q
  refine ⟨fun h => ?_, fun h => ?_⟩
  · simp [State.toPort, h, q]
  · have head : w.toPort c k = q.acceptHead c := by simp [State.toPort, h, q]
    have port : (q.core c).port = [k] := by simp [q, h]
    have popped : (q.modCore c fun x => { x with port := [] }) = w := by
      rw [State.modCore_modCore, State.modCore, ← h]
      exact State.setCore_self hw
    rw [head, State.acceptHead, port]
    refine ⟨fun ha => ?_, fun ha => ?_⟩
    · dsimp only
      rw [if_pos ha, popped]
    · exact if_neg (by rw [ha]; decide)

/-- R119, R189: a command of a firing reaches the port, in the state that its pins leave. -/
theorem State.engineFor_reaches {s u : State} {x : Inst} {i : Instr} {busy : Nat} {t1 t0 : Target} {op : EngOp} {f : Inst → Inst}
    (hx : s.curInst? = some x) (hcur : u.cur = s.cur) (hu : Fired s (u.fireWith busy id) busy ((f x).consume s.clk s.cur.idx))
    (hi : exec i s = .next (u.engineFor busy t1 t0 op)) : s.ReachesFor busy i f op t1 t0 := by
  have inst : ((u.fireWith busy id).thread s.cur.core s.cur.slot).inst = some ((f x).consume s.clk s.cur.idx) := by
    have := hu.curInst
    rwa [State.curInst?, State.curThread, hu.cur] at this
  obtain ⟨behind, alone⟩ := State.toPort_spec inst ⟨s.cur.slot, s.cur.idx, op, t0, t1⟩
  rw [State.engineFor, hcur] at hi
  rw [hu.ports.2.2] at behind alone
  exact ⟨_, _, x, hi, hx, hu, behind, alone⟩

section
variable {s : State} {x : Inst} {i : Instr} {t1 t0 : Target} {op : EngOp} (hx : s.live x)
include hx

/-- R119, R129: a command without an address, whose operands have arrived, reaches the port. -/
theorem State.engineOp_reaches {ops : List Token} (h : ∀ v ∈ ops, v.null = false) (hi : exec i s = .next (s.engineOp t1 t0 ops op)) :
    s.Reaches i id op t1 t0 := by
  rw [State.engineOp, if_pos (State.runs_of hx h)] at hi
  exact State.engineFor_reaches hx.1 (State.pin_pinned s ops).cur (State.fireWith_fired (State.pin_pinned s ops) hx.1 1 id) hi

/-- R238, R304: a command with an address that has been checked reaches the port with what the check found. -/
theorem State.engineAddr_reaches {needs rest : List Token} {check : State → AddrCheck} {ops : List Seg → Nat → Nat → EngOp} {r : Req}
    (h : ∀ v ∈ needs ++ rest, v.null = false) (hj : x.judged.contains s.cur.idx = true) (hr : x.req? s.cur.idx = some r)
    (hop : ops r.segs r.bytes r.cmp.toNat = op) (hi : exec i s = .next (s.engineAddr t1 t0 needs rest check ops)) :
    s.Reaches i (fun y => { y with reqs := y.reqs.filter fun q => q.idx != s.cur.idx }) op t1 t0 := by
  have sent : s.engineAddr t1 t0 needs rest check ops =
      (s.modInst s.cur.core s.cur.slot fun y => y.dropReq s.cur.idx).engine t1 t0 op := by
    simp only [State.engineAddr, hx.1, hj, Bool.not_true, Bool.false_and, Bool.false_eq_true, if_false, State.runs_of hx h, if_true,
      hr, hop]
  rw [sent] at hi
  have fired := Fired.of_modInst hx.1 (g := fun y => y.dropReq s.cur.idx) rfl
    (State.fireWith_fired (.refl _) (State.curInst_modInst hx.1 fun y => y.dropReq s.cur.idx) 1 id)
  exact State.engineFor_reaches (u := s.modInst s.cur.core s.cur.slot fun y => y.dropReq s.cur.idx) hx.1 rfl fired hi

/-- R238: an address whose check passes keeps the places that the check found. -/
theorem State.engineAddr_checked {needs rest : List Token} {check : State → AddrCheck} {ops : List Seg → Nat → Nat → EngOp}
    {segs : List Seg} {ra rb : Nat} (h : ∀ v ∈ needs, v.null = false) (hj : x.judged.contains s.cur.idx = false)
    (hk : check s = .pass segs ra rb) (hi : exec i s = .next (s.engineAddr t1 t0 needs rest check ops)) :
    exec i s = .next (s.passAddr segs ra rb) := by
  have none_null : needs.any (·.null) = false := by simpa using h
  rw [hi]
  simp only [State.engineAddr, hx.1, hj, State.squashed_of_live hx, Bool.not_false, Bool.and_self, if_true, none_null,
    Bool.false_eq_true, if_false, hk]

end

/-- A dword operand as 64 bits. -/
theorem setWidth_data (a : Token) (w : Nat) : a.data.setWidth w = BitVec.ofNat w a.nat := by
  rw [Token.nat, BitVec.ofNat_toNat]

end Sys2Proof.Machine

open Sys2Proof Sys2Proof.Machine

/-- Settles O24: nothing is sent, by the kind of the instruction. -/
theorem nullOperands : Obligations.NullOperands := by
  unfold Obligations.NullOperands
  refine ⟨fun s x z p l2 t1 t0 hx => ⟨fun h => ?_, fun h => ?_⟩, fun s x acq chain ch m t1 t0 hx => ⟨fun h => ?_, fun b hb hn => ?_,
    fun h => ?_, fun h => ?_⟩⟩
  · have load {i : Instr} {kind : ReqKind} {bytes : Nat} {t0 : Target} (hi : exec i s = .next (s.memOp kind bytes none t1 t0)) :=
      State.memOp_null hx hi (h.imp_right .inr)
    exact ⟨load rfl, load rfl, load rfl, load rfl, load rfl, load rfl, load rfl, load rfl, load rfl⟩
  · have store {i : Instr} {kind : ReqKind} (hi : exec i s = .next (s.memOp kind (sizeBytes z) (some (s.opTok .c)) t1 .none)) :=
      State.memOp_null hx hi (h.imp_right fun h => h.imp_left fun h => ⟨_, rfl, h⟩)
    exact ⟨store rfl, store rfl, store rfl⟩
  · have null {i : Instr} {t0 : Target} {ops : List Token} {op : EngOp} (hi : exec i s = .next (s.engineOp t1 t0 (s.opTok .a :: ops) op)) :=
      State.engineOp_null hx (h.imp_right fun h => ⟨_, List.mem_cons_self, h⟩) hi
    simp only [List.forall_mem_cons]
    exact ⟨null rfl, null rfl, null rfl, null rfl, null rfl, null rfl, null rfl, null rfl, null rfl, null rfl, null rfl, null rfl,
      null rfl, null rfl, null rfl, List.forall_mem_nil _⟩
  · exact State.engineOp_null hx (.inr ⟨b, by simp [hb], hn⟩) rfl
  · have null {i : Instr} {t0 : Target} {op : EngOp} (hi : exec i s = .next (s.engineOp t1 t0 [s.opTok .a, s.opTok .b] op)) :=
      State.engineOp_null hx (h.imp_right fun h => by simpa using h) hi
    simp only [List.forall_mem_cons]
    exact ⟨null rfl, null rfl, null rfl, null rfl, null rfl, List.forall_mem_nil _⟩
  · have off := State.runs_guard_eq_false hx (ops := [s.opTok .a, s.opTok .b]) (h.imp_right fun h => h.imp_right fun h => by simpa using h)
    refine ⟨_, ?_, State.emit_null (State.pin_pinned s [s.opTok .c, s.opTok .a, s.opTok .b]) hx _ 1 t1 t0⟩
    simp only [exec, execCvtCh, off, Bool.false_eq_true, if_false]

/-- Settles O27: the commands without an address, by their operands. -/
theorem engineCommands : Obligations.EngineCommands := by
  unfold Obligations.EngineCommands
  intro s x acq chain ch m t1 t0 a b hx ha A B W
  have one {i : Instr} {t0 : Target} {op : EngOp} (hi : exec i s = .next (s.engineOp t1 t0 [s.opTok .a] op)) :=
    State.engineOp_reaches hx ha.operands hi
  have valA : s.opVal .a = A := by rw [State.opVal, ha.opTok, setWidth_data]
  have wordA : (s.opTok .a).data.setWidth 32 = W a := by rw [ha.opTok, setWidth_data]
  have pred : (s.opTok .a).pred = a.nat.testBit 0 := by rw [ha.opTok]; rfl
  refine ⟨?_, fun hb => ?_, fun hb => ⟨?_, fun hg => ?_⟩⟩
  · simp only [List.forall_mem_cons]
    rw [← pred, ← valA]
    exact ⟨one rfl, one rfl, one rfl, one rfl, one rfl, one rfl, one rfl, one rfl, one rfl, List.forall_mem_nil _⟩
  · rw [← wordA]
    refine State.engineOp_reaches hx (ops := s.opTok .a :: (s.opTok? .b).toList) ?_ rfl
    simpa [ha.opTok, ha.2] using hb
  · have two {i : Instr} {t0 : Target} {op : EngOp} (hi : exec i s = .next (s.engineOp t1 t0 [s.opTok .a, s.opTok .b] op)) :=
      State.engineOp_reaches hx (State.has.operands2 ha hb) hi
    have valB : s.opVal .b = B := by rw [State.opVal, hb.opTok, setWidth_data]
    have wordB : (s.opTok .b).data.setWidth 32 = W b := by rw [hb.opTok, setWidth_data]
    simp only [List.forall_mem_cons]
    rw [← valA, ← valB, ← wordA, ← wordB]
    exact ⟨two rfl, two rfl, two rfl, two rfl, two rfl, List.forall_mem_nil _⟩
  · have valB : s.opVal .b = B := by rw [State.opVal, hb.opTok, setWidth_data]
    have pinned := State.pin_pinned s [s.opTok .c, s.opTok .a, s.opTok .b]
    refine State.engineFor_reaches hx.1 pinned.cur (State.fireWith_fired pinned hx.1 _ id) ?_
    simp only [exec, execCvtCh, State.runs_of hx (State.has.operands2 ha hb), hg, Bool.and_self, if_true, valA, valB]

/-- Settles O28: each command with an address is `engineAddr` with its check, and `hspawn` a frame that is judged. -/
theorem addressedCommands : Obligations.AddressedCommands := by
  unfold Obligations.AddressedCommands
  intro s x f ch t1 t0 a b d hx ha c sl idx ctl stands checked
  refine ⟨fun hj => ?_, fun r hj hr => ?_⟩
  · have check {i : Instr} {k : AddrCheck} {t0 : Target} {needs : List Token} {check : State → AddrCheck}
        {op : List Seg → Nat → Nat → EngOp} (hn : ∀ v ∈ needs, v.null = false) (hk : check s = k)
        (hi : exec i s = .next (s.engineAddr t1 t0 needs [] check op)) : checked i k :=
      fun segs ra rb h => State.engineAddr_checked hx hn hj (hk.trans h) hi
    have opA : s.opTok .a = a := ha.opTok
    refine ⟨check ha.operands (by rw [opA]) rfl, check ha.operands (by rw [opA]) rfl, check ha.operands (by rw [opA]) rfl, ?_,
      fun hd => ?_⟩
    · simp only [exec, execHspawn, hx.1, show x.judged.contains s.cur.idx = false from hj, State.squashed_of_live hx, Bool.not_false,
        Bool.and_self, if_true, opA, ha.2, Bool.false_eq_true, if_false, newReq, ofNat_lo]
      rfl
    · have needs : ∀ v ∈ [s.opTok .a, s.opTok .c], v.null = false := by simp [ha.opTok, ha.2, hd.opTok, hd.2]
      have valC : s.opVal .c = ctl := by rw [State.opVal, hd.opTok, setWidth_data]
      refine ⟨check needs rfl rfl, check needs rfl rfl, check needs ?_ rfl, fun hb => check ?_ rfl rfl⟩
      · rw [opA, valC]
      · simp [ha.opTok, ha.2, hd.opTok, hd.2, hb.opTok, hb.2]
  · intro drop
    have reach {i : Instr} {t0 : Target} {op : EngOp} {needs rest : List Token} {check : State → AddrCheck}
        {ops : List Seg → Nat → Nat → EngOp} (hn : ∀ v ∈ needs ++ rest, v.null = false) (hop : ops r.segs r.bytes r.cmp.toNat = op)
        (hi : exec i s = .next (s.engineAddr t1 t0 needs rest check ops)) : s.Reaches i drop op t1 t0 :=
      State.engineAddr_reaches hx hn hj hr hop hi
    have dataA : (s.opTok .a).data = a.data := by rw [ha.opTok]
    refine ⟨reach ha.operands rfl rfl, reach ha.operands rfl rfl, reach ha.operands rfl rfl, fun hb => ?_, fun hd => ?_⟩
    · have valB : s.opVal .b = BitVec.ofNat 64 b.nat := by rw [State.opVal, hb.opTok, setWidth_data]
      refine reach (needs := [s.opTok .a]) (rest := [s.opTok .b]) (check := fun _ => .pass [] 0 0)
        (ops := fun segs _ _ => .hspawn segs (s.opVal .b)) (State.has.operands2 ha hb) (by rw [valB]) ?_
      simp only [exec, execHspawn, hx.1, show x.judged.contains s.cur.idx = true from hj, Bool.not_true, Bool.false_and,
        Bool.false_eq_true, if_false]
    · have needs : ∀ v ∈ [s.opTok .a, s.opTok .c], v.null = false := by simp [ha.opTok, ha.2, hd.opTok, hd.2]
      have valC : s.opVal .c = ctl := by rw [State.opVal, hd.opTok, setWidth_data]
      refine ⟨reach needs ?_ rfl, reach needs ?_ rfl, reach needs ?_ rfl, fun hb => reach ?_ ?_ rfl⟩
      · rw [dataA, valC]
      · rw [dataA, valC]
      · rw [valC]
      · simp [ha.opTok, ha.2, hd.opTok, hd.2, hb.opTok, hb.2]
      · rw [dataA, valC, hb.opTok]

end

section
/-! System registers and system instructions (O20). -/

namespace Sys2Proof.Machine

/-! Bits of a register -/

/-- R421: bits `hi` to `lo` of what is written, of any number with those 64 bits. -/
theorem keepBits_ofNat (v : Nat) {hi lo : Nat} (h : lo ≤ hi ∧ hi < 64) :
    keepBits (BitVec.ofNat 64 v) hi lo = BitVec.ofNat 64 (v / 2 ^ lo % 2 ^ (hi + 1 - lo) * 2 ^ lo) := by
  have cut : v % 2 ^ 64 / 2 ^ lo % 2 ^ (hi + 1 - lo) = v / 2 ^ lo % 2 ^ (hi + 1 - lo) := by
    have split : 2 ^ 64 = 2 ^ lo * 2 ^ (64 - lo) := by rw [← Nat.pow_add]; congr 1; omega
    rw [split, Nat.mod_mul_right_div_self, Nat.mod_mod_of_dvd]
    exact Nat.pow_dvd_pow 2 (by omega)
  rw [keepBits, BitVec.toNat_ofNat, cut]

/-- Writing a register does not look at the writes that are still to come. -/
theorem Group.writeReg_late (z : Group) (l : List (Nat × DWord)) (w : Nat × DWord) :
    ({ z with late := l } : Group).writeReg w = { z.writeReg w with late := l } := by
  unfold Group.writeReg
  split <;> rfl

theorem Group.foldl_writeReg_late (ws l : List (Nat × DWord)) (z : Group) :
    ws.foldl Group.writeReg { z with late := l } = { ws.foldl Group.writeReg z with late := l } := by
  induction ws generalizing z with
  | nil => rfl
  | cons w ws ih => rw [List.foldl_cons, Group.writeReg_late, ih, List.foldl_cons]

/-- R421: a register of a group takes what was written last when the clk ends. -/
theorem Group.settleRegs_append (y : Group) (w : Nat × DWord) :
    ({ y with late := y.late ++ [w] } : Group).settleRegs = y.settleRegs.writeReg w := by
  simp only [Group.settleRegs, Group.foldl_writeReg_late, List.foldl_append, List.foldl_cons, List.foldl_nil, Group.writeReg_late]

theorem Group.writeReg_eq (h : Group) (n v : Nat) :
    let bits (hi lo : Nat) : DWord := BitVec.ofNat 64 (v / 2 ^ lo % 2 ^ (hi + 1 - lo) * 2 ^ lo)
    h.writeReg (n, BitVec.ofNat 64 v) =
      if n = 10 then { h with gatherDefault := bits 11 2 }
      else if n = 11 then { h with gatherFill := bits 10 0 }
      else if n = 12 then { h with barTimeout := bits 63 63 ||| bits 31 0 }
      else if n = 13 then { h with regionRetry := bits 7 0 }
      else if n = 14 then { h with preemptLimit := bits 31 0 }
      else h := by
  dsimp only
  unfold Group.writeReg
  split
  case h_6 => simp_all
  all_goals
    rename_i hn
    subst hn
    simp [keepBits_ofNat]

/-- R421: a register that is read-only keeps its value. -/
theorem State.sysWrite_other {z : State} {c sl n : Nat} {v : DWord} (hn : n ∉ [2, 3, 9, 10, 11, 12, 13, 14, 17, 19]) :
    z.sysWrite c sl n v = z := by
  unfold State.sysWrite
  split
  case h_11 => rfl
  all_goals exact absurd (by simp) hn

/-- R421: a heap register takes effect 80 clk later, in the grid of the thread. -/
theorem writeHeapReg_eq {s z : State} (hz : Pins s z) (spread : Bool) (v : DWord) :
    z.writeHeapReg s.cur.core s.cur.slot spread v = z.modGrid (s.group s.cur.core s.curThread.group).grid fun y =>
      { y with heap := y.heap.map fun h => { h with effects := h.effects ++ [(s.clk + 80, spread, v)] } } := by
  rw [State.writeHeapReg, State.groupOf, hz.thread, hz.group, hz.clk]
  rfl

theorem setWidth_ofNat_64 (v : Nat) {w : Nat} (h : w ≤ 64) : (BitVec.ofNat 64 v).setWidth w = BitVec.ofNat w v := by
  rw [BitVec.setWidth_ofNat_of_le h]

/-! Writes that take effect at once -/

section
variable {s : State} {x : Inst} {r : BitVec 6} {t1 : Target} {a : Token} (hx : s.live x) (ha : s.has .a a)
include hx ha

theorem State.syswr_performs (hr : sysPrivileged r.toNat = false ∨ x.priv = true) {f : State → State}
    (hf : IsEffect s (fun z => z.sysWrite s.cur.core s.cur.slot r.toNat (BitVec.ofNat 64 a.nat)) f) :
    s.Performs (.syswr r t1) t1 .none doneTok nullTok f := by
  refine State.immediate_performs (ops := [s.opTok .a]) hx ha.operands
    (F := fun z => if sysPrivileged r.toNat && !x.priv then z.modInst z.cur.core z.cur.slot fun y => y.addFault (modeFault z.cur.idx)
      else z.sysWrite z.cur.core z.cur.slot r.toNat (BitVec.ofNat 64 a.nat)) (fun z hz => ?_) ?_
  · have allowed : ¬ (sysPrivileged r.toNat && !x.priv) = true := by rcases hr with h | h <;> simp [h]
    simpa only [if_neg allowed, hz.cur] using hf z hz
  · simp only [exec, execSyswr, hx.1, ha.opTok, setWidth_data]
    

theorem State.syswr_fault (hr : sysPrivileged r.toNat = true) (hp : x.priv = false) :
    s.Performs (.syswr r t1) t1 .none doneTok nullTok fun z =>
      z.modInst s.cur.core s.cur.slot fun y => y.addFault (modeFault s.cur.idx) := by
  refine State.immediate_performs (ops := [s.opTok .a]) hx ha.operands
    (F := fun z => z.modInst z.cur.core z.cur.slot fun y => y.addFault (modeFault z.cur.idx))
    (isEffect_modInst hx _ hx.2 fun z hz => by rw [hz.cur]) ?_
  simp only [exec, execSyswr, hx.1, hr, hp, Bool.not_false, Bool.and_self, if_true]

end

/-! What a firing hands to a unit of the module -/

theorem Fired.die {s t : State} {busy : Nat} {y : Inst} (h : Fired s t busy y) (d : Nat) : t.die d = s.die d := by
  rw [State.die, h.dies, State.die]

theorem Fired.mgmt {s t : State} {busy : Nat} {y : Inst} (h : Fired s t busy y) : t.mgmt = s.mgmt := by
  obtain ⟨_, _, _, -, -, rfl⟩ := h; rfl

theorem Fired.cfginvs {s t : State} {busy : Nat} {y : Inst} (h : Fired s t busy y) : t.cfginvs = s.cfginvs := by
  obtain ⟨_, _, _, -, -, rfl⟩ := h; rfl

theorem State.modThread_congr {s : State} {c sl : Nat} {f g : Thread → Thread} (h : f (s.thread c sl) = g (s.thread c sl)) :
    s.modThread c sl f = s.modThread c sl g := by
  rw [State.thread] at h
  simp only [State.modThread, State.modCore, Core.modThread, h]

theorem Trace.takes_cairn (u : Trace) : u.takes 2 = (u.en && u.mask.getLsbD 0) := by
  simp [Trace.takes]

theorem modeFault_eq (idx : Nat) :
    modeFault idx = ⟨.permission, idx, 0, BitVec.ofNat 64 (idx % 256 * 2 ^ 8 + 5 * 2 ^ 5 + 3)⟩ := rfl

end Sys2Proof.Machine

open Sys2Proof Sys2Proof.Machine

/-- Settles O20: `syswr` performs the write of its register, and each system instruction its effect. -/
theorem systemRegisters : Obligations.SystemRegisters := by
  unfold Obligations.SystemRegisters
  refine ⟨fun s x r t1 a hx ha => ?_, fun s x code next t1 t0 a b hx => ⟨fun ha hb => ?_, fun ha => ⟨?_, ?_, ?_⟩, fun hp => ?_,
    fun hp hr => ?_⟩⟩
  · intro c sl g n v bits writes thread group heap
    have inst {f : State → State} (h : sysPrivileged n = false ∨ x.priv = true)
        (same : ∀ z, Pins s z → z.sysWrite c sl n (BitVec.ofNat 64 v) = f z) (cur : ∀ z, (f z).cur = z.cur)
        (clk : ∀ z, (f z).clk = z.clk) (kept : ∀ z, ((f z).thread c sl).inst = (z.thread c sl).inst) : writes f :=
      State.syswr_performs hx ha h (isEffect_of_inst hx same cur clk kept)
    have userOf (h : n ≠ 3 ∧ n ≠ 14) : sysPrivileged n = false := by simpa [sysPrivileged] using h
    refine ⟨fun hn => ?_, fun hn hp => ?_, fun hn => ?_, fun hn => ?_, fun y => ?_, fun hn => ?_, fun hn => ?_, fun hn => ?_,
      fun hn hp => ?_⟩
    · refine State.syswr_performs hx ha (.inl (userOf (by omega))) (isEffect_modInst hx _ hx.2 fun z hz => ?_)
      rw [show r.toNat = 2 from hn]
      simp only [State.sysWrite, setWidth_ofNat_64 a.nat (by omega : 2 ≤ 64)]
      rfl
    · refine inst (.inr hp) (fun z hz => ?_) (fun _ => rfl) (fun _ => rfl) fun z => State.inst_modThread _ _ _ _ _ fun _ => rfl
      simp only [hn, State.sysWrite, thread, keepBits_ofNat v (by omega : 10 ≤ 55 ∧ 55 < 64)]
      rfl
    · refine inst (.inl (userOf (by omega))) (fun z hz => ?_) (fun _ => rfl) (fun _ => rfl)
        fun z => State.inst_modThread _ _ _ _ _ fun _ => rfl
      simp only [hn, State.sysWrite, thread]
    · refine inst ?_ (fun z hz => ?_) (fun _ => rfl) (fun _ => rfl) fun z => by rw [State.thread_modGroup]
      · rcases hn with hn | ⟨hn, hp⟩
        · simp only [List.mem_cons, List.not_mem_nil, or_false] at hn
          exact .inl (userOf (by omega))
        · exact .inr hp
      · have late : n ∈ [10, 11, 12, 13, 14] := by
          rcases hn with hn | ⟨hn, -⟩
          · simp only [List.mem_cons, List.not_mem_nil, or_false] at hn ⊢
            omega
          · simp [hn]
        have own : (z.thread c sl).group = g := by rw [hz.thread]; rfl
        simp only [List.mem_cons, List.not_mem_nil, or_false] at late
        rcases late with h | h | h | h | h <;> simp only [h, State.sysWrite, group, own]
    · rw [Group.settleRegs_append, Group.writeReg_eq]
    · exact inst (.inl (userOf (by omega))) (fun z hz => by rw [hn]; exact writeHeapReg_eq hz false _)
        (fun z => (State.modGrid_keeps z _ _).1) (fun z => (State.modGrid_keeps z _ _).2) fun z => by rw [State.thread_modGrid]
    · refine inst (.inl (userOf (by omega))) (fun z hz => ?_) (fun z => (State.modGrid_keeps z _ _).1)
        (fun z => (State.modGrid_keeps z _ _).2) fun z => by rw [State.thread_modGrid]
      rw [hn]
      simp only [State.sysWrite, keepBits_ofNat v (by omega : 0 ≤ 3 ∧ 3 < 64)]
      exact writeHeapReg_eq hz true _
    · simp only [List.mem_cons, List.not_mem_nil, or_false, not_or] at hn
      refine State.syswr_performs hx ha (.inl (userOf ⟨hn.2.1, by grind⟩)) (isEffect_id hx fun z hz => ?_)
      exact State.sysWrite_other (by simpa using hn)
    · exact State.syswr_fault hx ha (by simpa [sysPrivileged] using hn) hp
  · have runs := State.runs_of hx (State.has.operands2 ha hb)
    rw [ha.opTok, hb.opTok] at runs
    have fired := State.fireWith_fired (State.pin_pinned s [a, b]) hx.1 1 id
    have lo : a.lo % 2 ^ 56 = a.nat % 2 ^ 56 := Nat.mod_mod_of_dvd _ (by decide)
    refine ⟨_, _, ?_, fired, rfl⟩
    simp only [exec, execCfginv, ha.opTok, hb.opTok, runs, if_true, fired.cfginvs, lo]
  · intro hen hmask hd hdead
    have fired := State.fireWith_fired (State.pin_pinned s [a]) hx.1 1 id
    have runs := State.runs_of hx ha.operands
    rw [ha.opTok] at runs
    have takes : (s.die (dieOf s.cur.core)).trace.takes 2 = true := by
      rw [Trace.takes_cairn]
      simp only [Bool.and_eq_true]
      exact ⟨hen, hmask⟩
    refine ⟨_, _, ?_, fired, rfl⟩
    simp only [exec, execCairn, ha.opTok, runs, takes, Bool.and_self, if_true]
    rw [State.offer, fired.die, fired.mgmt, if_neg]
    · rw [setWidth_data, State.curBlk, hx.1]
      rfl
    · have present : s.mgmt.absent.contains (dieOf s.cur.core) = false := by
        rw [List.contains_eq_mem, decide_eq_false_iff_not]
        exact hd
      rw [takes, present, show (s.die (dieOf s.cur.core)).dead = false from hdead]
      decide
  · intro z y hy hs
    rw [State.acceptCairn, State.modInst]
    refine State.modThread_congr ?_
    have thread : (z.acceptTrace (s.cur.core / 256) ⟨z.tsc (s.cur.core / 256), s.cur.core, 2, s.aspOf s.cur.core s.cur.slot,
        code.setWidth 32, BitVec.ofNat 64 a.nat, x.blk.setWidth 64, none⟩).thread s.cur.core s.cur.slot =
        z.thread s.cur.core s.cur.slot := State.thread_modDie _ _ _ _ _
    rw [thread, Thread.modInst, hy]
    simp only [hs]
    rfl
  · intro h
    refine State.immediate_performs (ops := [s.opTok .a]) hx ha.operands (isEffect_id hx fun _ _ => rfl) ?_
    have takes : (s.die (dieOf s.cur.core)).trace.takes 2 = false := by
      rw [Trace.takes_cairn]
      rcases h with h | h
      · rw [show (s.die (dieOf s.cur.core)).trace.en = false from h]; rfl
      · rw [show (s.die (dieOf s.cur.core)).trace.mask.getLsbD 0 = false from h, Bool.and_false]
    simp only [exec, execCairn, takes, Bool.and_false, Bool.false_eq_true, if_false]
    rfl
  · have fired := State.fireWith_fired (.refl s) hx.1 1 fun x =>
      { x with reqs := x.reqs ++ [newReq s.cur.idx .record (s.activeRecord s.cur.core s.cur.slot) 16 nullTok .none .none] }
    refine ⟨_, _, ?_, fired, rfl⟩
    simp only [exec, execEret, hx.1, hp, State.squashed_of_live hx, Bool.not_true, Bool.or_self, Bool.false_eq_true, if_false]
  · refine ⟨_, _, ?_, State.settle_decided hx [] _ (.inr hr), rfl⟩
    simp only [exec, execEret, hx.1, hp, Bool.not_false, Bool.true_or, if_true, modeFault_eq]

end

section
/-! What the judgement of a request makes of its thread (O22). -/

namespace Sys2Proof.Machine

/-! Changes of one thread -/

theorem State.modThread_modThread (s : State) (c sl : Nat) (f g : Thread → Thread) :
    (s.modThread c sl f).modThread c sl g = s.modThread c sl fun t => g (f t) := by
  simp only [State.modThread, State.modCore_modCore]
  congr 1
  funext x
  simp [Core.modThread, Core.setThread, Core.thread]

section
variable {u : State} {c sl : Nat} {x : Inst} (hx : (u.thread c sl).inst = some x)
include hx

/-- A change of the instance of a thread that is in flight. -/
theorem State.modInst_eq (g : Inst → Inst) :
    u.modInst c sl g = u.modThread c sl fun t => { t with inst := some (g x) } :=
  State.modThread_congr (by rw [Thread.modInst, hx])

omit hx in
/-- A change of the instance of a thread that has just been changed. -/
theorem State.modInst_modThread {f : Thread → Thread} {y : Inst} (hf : (f (u.thread c sl)).inst = some y) (g : Inst → Inst) :
    (u.modThread c sl f).modInst c sl g = u.modThread c sl fun t => { f t with inst := some (g y) } := by
  rw [State.modInst, State.modThread_modThread]
  exact State.modThread_congr (by rw [Thread.modInst, hf])

/-- R238: the instance of a request whose address has passed. -/
theorem State.judgedAt_eq (idx : Nat) : u.judgedAt c sl idx =
    u.modThread c sl fun t => { t with inst := some (x.passes ((u.core c).context x.ctx).block u.clk idx) } := by
  rw [State.judgedAt, hx]
  refine (State.modInst_eq hx _).trans (State.modThread_congr ?_)
  simp [Inst.passes]

omit hx in
/-- R131: a request that is spent, of an instance that is not squashed. -/
theorem State.finishReq_eq {f : Thread → Thread} {y : Inst} (hf : (f (u.thread c sl)).inst = some y) (hs : y.squash = none) (r : Req)
    (v1 v0 : Token) : (u.modThread c sl f).finishReq c sl r.idx r.t1 r.t0 v1 v0 =
      u.modThread c sl fun t => { f t with inst := some (y.spends u.clk r v1 v0) } := by
  rw [State.finishReq, State.modInst_modThread hf]
  refine State.modThread_congr ?_
  simp [hs, Inst.dropReq, Inst.complete, Inst.spends]

end

/-! A request that has passed its checks -/

theorem ReqKind.plain_of_reads {k : ReqKind} (h : k ∈ [ReqKind.load, .lds, .loadNc, .record] ∨ ∃ p, k = .loadAcq p) :
    k ≠ .probe ∧ ∀ l2, k ≠ .prefetch l2 := by
  simp only [List.mem_cons, List.not_mem_nil, or_false] at h
  rcases h with (rfl | rfl | rfl | rfl) | ⟨p, rfl⟩ <;> simp

theorem ReqKind.plain_of_enters {k : ReqKind} (h : k ∈ [ReqKind.store, .storeNc, .cwb, .cinv] ∨ ∃ p, k = .storeRel p) :
    k ≠ .probe ∧ ∀ l2, k ≠ .prefetch l2 := by
  simp only [List.mem_cons, List.not_mem_nil, or_false] at h
  rcases h with (rfl | rfl | rfl | rfl) | ⟨p, rfl⟩ <;> simp

section
variable {u : State} {c sl : Nat} {x : Inst} {r : Req} (hx : (u.thread c sl).inst = some x)
include hx

/-- R221, R238: a request that then stands to be performed. -/
theorem State.passRequest_stands {q : Req}
    (hp : u.passRequest c sl r = (u.judgedAt c sl r.idx).modInst c sl fun z => z.setReq q) :
    u.passRequest c sl r = u.modThread c sl fun t =>
      { t with inst := some ((x.passes ((u.core c).context x.ctx).block u.clk r.idx).setReq q) } := by
  rw [hp, State.judgedAt_eq hx]
  exact State.modInst_modThread rfl _

omit hx in
/-- R21, R225: a read stands to be performed, no sooner than its latency. -/
theorem State.passRequest_reads (hk : r.kind ∈ [ReqKind.load, .lds, .loadNc, .record] ∨ ∃ p, r.kind = .loadAcq p) :
    u.passRequest c sl r = (u.judgedAt c sl r.idx).modInst c sl fun z =>
      z.setReq { r with stage := .ready, due := u.clk + (u.readLatency c (r.kind == .loadNc) r.segs - 1) } := by
  simp only [List.mem_cons, List.not_mem_nil, or_false] at hk
  rcases hk with (hk | hk | hk | hk) | ⟨p, hk⟩ <;> simp only [State.passRequest, hk, State.dataAt]

omit hx in
/-- R238: an instruction that has not fired stands with its places. -/
theorem State.passRequest_unfired (hb : r.kind.beforeFire = true) :
    u.passRequest c sl r = (u.judgedAt c sl r.idx).modInst c sl fun z => z.setReq { r with stage := .ready } := by
  cases hk : r.kind <;> rw [hk] at hb <;> simp [ReqKind.beforeFire] at hb <;> simp only [State.passRequest, hk]

/-- R241: a buffered request of a thread that is in no region enters its thread's buffer. -/
theorem State.passRequest_enters (hr : (u.thread c sl).region = none) (hs : x.squash = none)
    (hk : r.kind ∈ [ReqKind.store, .storeNc, .cwb, .cinv] ∨ ∃ p, r.kind = .storeRel p) :
    u.passRequest c sl r = u.modThread c sl fun t =>
      { t with inst := some ((x.passes ((u.core c).context x.ctx).block u.clk r.idx).spends u.clk r doneTok doneTok)
               buf := insertBuf r.entry t.buf } := by
  have closed : u.openRegion c sl = none := by rw [State.openRegion, hr]
  have still : (u.judgedAt c sl r.idx).openRegion c sl = none := by
    rw [State.openRegion, State.judgedAt_eq hx, State.thread_modThread_self]
    simp only [hr]
  have entered : u.passRequest c sl r = (u.judgedAt c sl r.idx).enterBuffer c sl r := by
    simp only [List.mem_cons, List.not_mem_nil, or_false] at hk
    rcases hk with (hk | hk | hk | hk) | ⟨p, hk⟩ <;> simp only [State.passRequest, hk, closed, Bool.false_eq_true, if_false]
  rw [entered, State.enterBuffer, still]
  dsimp only
  rw [State.judgedAt_eq hx, State.modThread_modThread]
  refine State.finishReq_eq (y := x.passes ((u.core c).context x.ctx).block u.clk r.idx) ?_ hs r doneTok doneTok
  rfl

/-- R225, R235: a deferred load is under way then. -/
theorem State.passRequest_deferred {slot : Nat} {wide : Bool} (hk : r.kind = .deferred slot wide) (h0 : r.t0 = .none)
    (hs : x.squash = none) :
    let b := ((u.core c).context x.ctx).block
    u.passRequest c sl r = u.modThread c sl fun t =>
      { t with
        inst := some ((x.passes b u.clk r.idx).spends u.clk r doneTok nullTok)
        deferred := t.deferred ++ [⟨r.idx, x.blk, slot, wide, r.va, r.bytes, r.segs, r.mt, false, none, [], t.epoch, false,
          u.clk + (u.readLatency c false r.segs - 1),
          (t.deferred.filter fun d => d.fenced || (!d.committed && b.leads d.idx r.idx)).map fun d => (d.epoch, d.idx)⟩] } := by
  have block : u.blockOf c sl = ((u.core c).context x.ctx).block := by rw [State.blockOf, hx]
  simp only [State.passRequest, hk, State.judgedAt_eq hx, State.modThread_modThread, block]
  rw [← h0]
  refine State.finishReq_eq (y := x.passes ((u.core c).context x.ctx).block u.clk r.idx) ?_ hs r doneTok nullTok
  rfl

/-- R232: a probe answers its word. -/
theorem State.passRequest_probe (hk : r.kind = .probe) (hs : x.squash = none) :
    u.passRequest c sl r = u.modThread c sl fun t =>
      { t with inst := some ((x.passes ((u.core c).context x.ctx).block u.clk r.idx).spends u.clk r doneTok
          (dword (u.probeWord c sl r.va.toNat))) } := by
  simp only [State.passRequest, hk, State.judgedAt_eq hx]
  refine State.finishReq_eq (y := x.passes ((u.core c).context x.ctx).block u.clk r.idx) ?_ hs r doneTok _
  rfl

end

/-- R235, R241: where an entry takes its place. -/
theorem insertBuf_split (e : BufEntry) (l : List BufEntry) :
    ∃ a b, l = a ++ b ∧ insertBuf e l = a ++ e :: b ∧ (∀ f ∈ a, f.committed = true ∨ f.idx ≤ e.idx) ∧
      ∀ f, b.head? = some f → f.committed = false ∧ e.idx < f.idx := by
  induction l with
  | nil => exact ⟨[], [], rfl, rfl, by simp, by simp⟩
  | cons f l ih =>
    by_cases h : f.committed = true ∨ f.idx ≤ e.idx
    · obtain ⟨a, b, rfl, hi, ha, hb⟩ := ih
      refine ⟨f :: a, b, rfl, ?_, ?_, hb⟩
      · rw [insertBuf, if_pos (by simpa using h), hi, List.cons_append]
      · simpa using ⟨h, ha⟩
    · refine ⟨[], f :: l, rfl, ?_, by simp, ?_⟩
      · rw [insertBuf, if_neg (by simpa using h), List.nil_append]
      · simpa using h

/-! The judgement -/

theorem judgeLeaf_cause {s : State} {row : AccessRow} {user : Bool} {va bytes at_ why : Nat} {leaf : DWord} :
    judgeLeaf s row user va bytes at_ leaf ≠ some (.regionFault, why) := by
  unfold judgeLeaf
  dsimp only
  repeat' split
  all_goals simp

theorem judgePage_cause {s : State} {w : Accessor} (h : w.region = false) {row : AccessRow} {va bytes at_ why : Nat} {leaf : DWord} :
    judgePage s w row va bytes at_ leaf ≠ some (.regionFault, why) := by
  intro hp
  simp only [judgePage, h, Bool.false_and, Bool.false_eq_true, if_false] at hp
  split at hp
  · rename_i cause why' hl
    rw [Option.some.injEq, Prod.mk.injEq] at hp
    rw [hp.1] at hl
    exact judgeLeaf_cause hl
  · exact absurd hp (by simp)

/-- R337: an access that no region makes gives no region fault. -/
theorem judgeFrom_cause {s : State} {w : Accessor} (h : w.region = false) {row : AccessRow} {look : Nat → Option DWord} {va bytes : Nat}
    {a why lvl : Nat} (fuel : Nat) : ∀ done segs mt, judgeFrom s w row look va bytes fuel done segs mt ≠ .bad .regionFault a why lvl := by
  induction fuel with
  | zero => exact fun _ _ _ h => by simp [judgeFrom] at h
  | succ fuel ih =>
    intro done segs mt
    rw [judgeFrom]
    split
    · simp
    · dsimp only
      split
      · simp
      · rw [if_neg (by rw [h]; decide)]
        exact ih _ _ _
      · split
        · simp
        · split
          · rename_i cause why' hp
            intro hb
            rw [Judged.bad.injEq] at hb
            rw [hb.1] at hp
            exact judgePage_cause h hp
          · exact ih _ _ _

theorem judge_cause_of_no_region {s : State} {w : Accessor} (h : w.region = false) {row : AccessRow} {va bytes : Nat} {segs : List Seg}
    {mt : MemType} {cause : Cause} {a why lvl : Nat} (hj : s.judge w row va bytes segs mt = .bad cause a why lvl) :
    cause ≠ .regionFault := by
  rintro rfl
  rw [State.judge] at hj
  split at hj
  · exact absurd hj (by simp)
  · exact judgeFrom_cause h _ _ _ _ hj


section
variable {u : State} {c sl : Nat} {x : Inst} {r : Req} (hx : (u.thread c sl).inst = some x) (hr : x.req? r.idx = some r)
include hx hr

theorem State.judgeReq_queued (h : r.stage = .queued) : u.judgeReq c sl r.idx = u := by
  simp only [State.judgeReq, hx, hr, h, if_true]

variable (hq : r.stage ≠ .queued)
include hq

theorem State.judgeReq_prefetch {l2 : Bool} (hk : r.kind = .prefetch l2) : u.judgeReq c sl r.idx = u.passRequest c sl r := by
  simp only [State.judgeReq, hx, hr, hq, hk, if_false]

theorem State.judgeReq_probe (hk : r.kind = .probe) (h : r.stage = .ready ∨ 2 ^ 56 ≤ r.va.toNat) :
    u.judgeReq c sl r.idx = u.passRequest c sl r := by
  simp only [State.judgeReq, hx, hr, hq, hk, if_false, if_true]
  refine if_pos ?_
  rcases h with h | h
  · simp [h]
  · rw [decide_eq_true h]
    simp

variable (hk : r.kind ≠ .probe) (hp : ∀ l2, r.kind ≠ .prefetch l2)
include hk hp

theorem State.judgeReq_ok {gs : List Seg} {mt : MemType}
    (hj : u.judge (u.accessor c sl) r.row r.va.toNat r.bytes r.segs r.mt = .ok gs mt) :
    u.judgeReq c sl r.idx = u.passRequest c sl { r with segs := gs, mt := mt, stage := .ready } := by
  simp only [State.judgeReq, hx, hr, hq, hk, hj, if_false]

theorem State.judgeReq_miss {vpn : Nat} {gs : List Seg} {mt : MemType}
    (hj : u.judge (u.accessor c sl) r.row r.va.toNat r.bytes r.segs r.mt = .miss vpn gs mt) :
    u.judgeReq c sl r.idx = u.modThread c sl fun t =>
      { t with inst := some (x.setReq { r with segs := gs, mt := mt, stage := .walking, due := u.clk + 24 }) } := by
  simp only [State.judgeReq, hx, hr, hq, hk, hj, if_false]
  exact State.modInst_eq hx _

/-- R133, R221: a failed address, outside a region. -/
theorem State.judgeReq_bad {cause : Cause} {va why lvl : Nat}
    (hj : u.judge (u.accessor c sl) r.row r.va.toNat r.bytes r.segs r.mt = .bad cause va why lvl) (hregion : x.region = none) :
    let f : ThreadFault := ⟨cause, r.idx, if r.kind = .record then r.va else BitVec.ofNat 64 va,
      BitVec.ofNat 64 (r.idx % 256 * 2 ^ 8 + r.row.kind * 2 ^ 5 + lvl * 2 ^ 3 + why)⟩
    let y : Inst := { x with squash := some (x.squash.getD f), liveOut := [], reqs := x.reqs.filter fun q => q.idx != r.idx }
    u.judgeReq c sl r.idx = u.modThread c sl fun t =>
      { t with buf := t.buf.filter (·.committed), deferred := t.deferred.filter (·.committed)
               inst := some (if r.kind.beforeFire then y else y.spends u.clk r nullTok nullTok) } := by
  intro f y
  have outside : (u.accessor c sl).region = false := by simp only [State.accessor, hx, hregion, Option.isSome_none]
  have noRegionFault : cause ≠ .regionFault := judge_cause_of_no_region outside hj
  simp only [State.judgeReq, hx, hr, hq, hk, hj, if_false, noRegionFault, State.failRequest]
  rw [State.modInst_modThread (y := x) hx]
  refine State.modThread_congr ?_
  simp only [hregion, Option.isSome_none, Bool.false_eq_true, if_false]
  cases r.kind.beforeFire with
  | true => rfl
  | false =>
    simp only [Bool.not_false, if_true, Bool.false_eq_true, if_false]
    have once : (x.reqs.filter fun q => q.idx != r.idx).filter (fun q => q.idx != r.idx) = x.reqs.filter fun q => q.idx != r.idx := by
      rw [List.filter_filter]
      simp
    simp only [Inst.spends, y, once]
    rfl

end

end Sys2Proof.Machine

open Sys2Proof Sys2Proof.Machine

/-- Settles O22: by the kind of the request, and by what its judgement comes to. -/
theorem requestOutcomes : Obligations.RequestOutcomes := by
  unfold Obligations.RequestOutcomes
  refine ⟨fun u c sl x r hx hr hq hregion hthread hs => ?_, fun u c sl x r hx hr h => State.judgeReq_queued hx hr h,
    fun u c sl x r hx hr hregion hk hp hq => ⟨fun va gs mt hj => State.judgeReq_miss hx hr hq hk hp hj,
      fun cause va why lvl hj => ?_⟩, fun e l _ => ?_⟩
  · intro b y th ready comes gs mt
    have ok (hk : r.kind ≠ .probe ∧ ∀ l2, r.kind ≠ .prefetch l2)
        (hj : u.judge (u.accessor c sl) r.row r.va.toNat r.bytes r.segs r.mt = .ok gs mt) := State.judgeReq_ok hx hr hq hk.1 hk.2 hj
    have reads (home : Bool) (hk : r.kind ∈ [ReqKind.load, .lds, .loadNc, .record] ∨ ∃ p, r.kind = .loadAcq p)
        (hhome : (r.kind == .loadNc) = home) (hj : u.judge (u.accessor c sl) r.row r.va.toNat r.bytes r.segs r.mt = .ok gs mt) :
        th fun t => { t with inst := some (y.setReq { ready gs mt with due := comes home gs }) } := by
      subst hhome
      exact (ok (ReqKind.plain_of_reads hk) hj).trans (State.passRequest_stands hx (State.passRequest_reads hk))
    have enters (k : BufKind) (hb : bufKindOf r.kind = k)
        (hk : r.kind ∈ [ReqKind.store, .storeNc, .cwb, .cinv] ∨ ∃ p, r.kind = .storeRel p)
        (hj : u.judge (u.accessor c sl) r.row r.va.toNat r.bytes r.segs r.mt = .ok gs mt) :
        th fun t => { t with
          inst := some (y.spends u.clk r doneTok doneTok)
          buf := insertBuf ⟨r.idx, k, r.va, gs, mt, natToBytes r.bytes r.data.toNat, r.tag, false, false, 0, [], false, 0, false, 0⟩
            t.buf } := by
      subst hb
      exact (ok (ReqKind.plain_of_enters hk) hj).trans (State.passRequest_enters hx hthread hs hk)
    have unfired (hk : r.kind ≠ .probe ∧ ∀ l2, r.kind ≠ .prefetch l2) (hb : r.kind.beforeFire = true)
        (hj : u.judge (u.accessor c sl) r.row r.va.toNat r.bytes r.segs r.mt = .ok gs mt) :
        th fun t => { t with inst := some (y.setReq (ready gs mt)) } :=
      (ok hk hj).trans (State.passRequest_stands hx (State.passRequest_unfired hb))
    cases hk : r.kind with
    | load => exact reads false (.inl (by simp [hk])) (by rw [hk]; rfl)
    | lds => exact reads false (.inl (by simp [hk])) (by rw [hk]; rfl)
    | loadAcq p => exact reads false (.inr ⟨p, hk⟩) (by rw [hk]; rfl)
    | loadNc => exact reads true (.inl (by simp [hk])) (by rw [hk]; rfl)
    | record => exact reads false (.inl (by simp [hk])) (by rw [hk]; rfl)
    | store => exact enters _ (by rw [hk]) (.inl (by simp [hk]))
    | storeRel p => exact enters _ (by rw [hk]) (.inr ⟨p, hk⟩)
    | storeNc => exact enters _ (by rw [hk]) (.inl (by simp [hk]))
    | cwb => exact enters _ (by rw [hk]) (.inl (by simp [hk]))
    | cinv => exact enters _ (by rw [hk]) (.inl (by simp [hk]))
    | deferred slot wide =>
      exact fun hj h0 => (ok (by simp [hk]) hj).trans (State.passRequest_deferred hx (by exact hk) h0 hs)
    | probe => exact fun h => (State.judgeReq_probe hx hr hq hk h).trans (State.passRequest_probe hx hk hs)
    | atomic op ar ret => exact unfired (by simp [hk]) (by rw [hk]; rfl)
    | frame => exact unfired (by simp [hk]) (by rw [hk]; rfl)
    | prefetch l2 =>
      refine (State.judgeReq_prefetch hx hr hq hk).trans ?_
      simp only [State.passRequest, hk, State.judgedAt_eq hx] <;> rfl
    | descriptor => trivial
  · intro f y
    have shape (k : ReqKind) (p q : Inst) : (if k.beforeFire then p else q) =
        match k with
        | .atomic _ _ _ | .frame | .descriptor => p
        | _ => q := by
      cases k <;> rfl
    rw [State.judgeReq_bad hx hr hq hk hp hj hregion, shape] <;> rfl
  · obtain ⟨a, b, hl, hi, ha, hb⟩ := insertBuf_split e l
    exact ⟨a, b, hl, hi, ha, hb⟩

end

section
/-! Fences and prefetch (O25). -/

namespace Sys2Proof.Machine

/-- R236, R251: the completion point of a fence that releases. -/
theorem Thread.releaseMet_iff (t : Thread) :
    t.releaseMet = true ↔ (∀ e ∈ t.buf, e.committed = false) ∧ ∀ d ∈ t.deferred, d.committed = false := by
  simp [Thread.releaseMet]

/-- R235: no deferred load is still to be performed that a path puts before an instruction. -/
theorem Thread.pathRead_eq_false (t : Thread) (b : Block) (k : Nat) : t.pathRead b k = false ↔
    ∀ d ∈ t.deferred, d.committed = false → d.returned = none → b.leads d.idx k = false := by
  simp [Thread.pathRead]

theorem Thread.fenceMet_of_ne_acq (t : Thread) {f : FenceKind} (h : f ≠ .acq) (p : Scope) : t.fenceMet f p = t.releaseMet := by
  cases f with
  | acq => exact absurd rfl h
  | _ => rfl

section
variable {s : State} {c sl k : Nat} {x : Inst}

/-- R252: an instruction that has no address to check and is ready has its fence's completion point. -/
theorem State.fenceMay_of_ready {i : Instr} (hx : (s.thread c sl).inst = some x) (hs : x.squash = none)
    (hop : opJudgedFirst (((s.core c).context x.ctx).block.opAt k) = false)
    (hi : ((s.core c).context x.ctx).block.instr? k = some i) (h : s.ready c sl k = true) :
    s.fenceMay c sl x ((s.core c).context x.ctx).block k i = true := by
  simp only [State.ready, hx, Inst.mayJudge, hop, Bool.false_and, Bool.false_or, Bool.and_eq_true, State.mayFire, hs,
    Option.isSome_none, hi] at h
  exact h.1.2.2

/-- R252: what the completion point of `fence` means. -/
theorem State.fenceMay_fence (hregion : x.region = none) {b : Block} {f : FenceKind} {p : Scope} {t1 : Target}
    (h : s.fenceMay c sl x b k (.fence f p t1) = true) :
    (∀ d ∈ (s.thread c sl).deferred, d.committed = false ∧ (d.returned = none → b.leads d.idx k = false)) ∧
      (f = .acq → p = .device ∨ p = .system → ∀ e ∈ (s.thread c sl).buf, e.committed = false ∨ e.seen = false) ∧
      (f ≠ .acq → ∀ e ∈ (s.thread c sl).buf, e.committed = false) := by
  simp only [State.fenceMay, hregion, Option.isSome_none, Bool.false_eq_true, if_false, Bool.and_eq_true, Bool.not_eq_true',
    Thread.pathRead_eq_false] at h
  obtain ⟨met, paths⟩ := h
  have release (hf : f ≠ .acq) := (Thread.releaseMet_iff _).1 (Thread.fenceMet_of_ne_acq _ hf p ▸ met)
  have loads : ∀ d ∈ (s.thread c sl).deferred, d.committed = false := by
    by_cases hf : f = .acq
    · subst hf
      simp only [Thread.fenceMet, Bool.and_eq_true, List.all_eq_true, Bool.not_eq_true'] at met
      exact met.1
    · exact (release hf).2
  refine ⟨fun d hd => ⟨loads d hd, paths d hd (loads d hd)⟩, fun hf hp => ?_, fun hf => (release hf).1⟩
  subst hf
  have both : (∀ d ∈ (s.thread c sl).deferred, d.committed = false) ∧
      ∀ e ∈ (s.thread c sl).buf, e.committed = false ∨ e.seen = false := by
    rcases hp with rfl | rfl <;> simpa [Thread.fenceMet] using met
  exact both.2

/-- R258: what the completion point of `fence.eng` means. -/
theorem State.fenceMay_fenceEng (hregion : x.region = none) {b : Block} {t1 : Target} (h : s.fenceMay c sl x b k (.fenceEng t1) = true) :
    (∀ d ∈ (s.thread c sl).deferred, d.committed = false ∧ (d.returned = none → b.leads d.idx k = false)) ∧
      (∀ e ∈ (s.thread c sl).buf, e.committed = false) ∧ s.threadEnginesDone c sl = true := by
  simp only [State.fenceMay, hregion, Option.isSome_none, Bool.false_eq_true, if_false, Bool.and_eq_true, Bool.not_eq_true',
    Thread.pathRead_eq_false, Thread.releaseMet_iff] at h
  obtain ⟨⟨⟨stores, loads⟩, paths⟩, engines⟩ := h
  exact ⟨fun d hd => ⟨loads d hd, paths d hd (loads d hd)⟩, stores, engines⟩

end

end Sys2Proof.Machine

open Sys2Proof Sys2Proof.Machine

/-- Settles O25: the emission of a fence, what its readiness says, and the lines that a prefetch may fetch. -/
theorem fencesAndPrefetch : Obligations.FencesAndPrefetch := by
  unfold Obligations.FencesAndPrefetch
  intro s x k p l2 t1 hx
  refine ⟨⟨_, rfl, State.emit_emitted (.refl s) hx 1 1 t1 .none doneTok nullTok⟩, ?_, fun b hregion hb hready => ?_,
    fun u c sl va => ?_⟩
  · have noted : (s.modThread s.cur.core s.cur.slot fun y => { y with engFence := s.clk }).live x := by
      refine ⟨?_, hx.2⟩
      simp only [State.curInst?, State.curThread, State.modThread_cur, State.thread_modThread_self]
      exact hx.1
    refine ⟨_, ?_, State.emit_emitted (.refl _) noted 1 1 t1 .none doneTok nullTok⟩
    simp only [exec, execFenceEng, State.squashed_of_live hx, Bool.false_eq_true, if_false]
  · subst hb
    refine ⟨fun hop hi => ?_, fun hop hi => ?_⟩
    · exact State.fenceMay_fence hregion (State.fenceMay_of_ready hx.1 hx.2 (by rw [hop]; decide) hi hready)
    · exact State.fenceMay_fenceEng hregion (State.fenceMay_of_ready hx.1 hx.2 (by rw [hop]; decide) hi hready)
  · intro w t
    refine ⟨State.prefetchLine_mem u c sl l2 va, fun gs v hj hheld hob => ?_, fun hj => ?_, fun gs hj hheld => ?_⟩
    · simp only [State.prefetchLine, hj, hheld, Bool.false_eq_true, if_false, hob, if_true, w, t]
    · unfold State.prefetchLine
      dsimp only
      split
      · exact absurd ‹_› (hj _)
      · rfl
    · simp only [State.prefetchLine, hj, hheld, if_true, w, t]

end

section
/-! Atomics (O26): the two moments of an atomic in its instance, its way to its tile, and what its operation gives. -/

namespace Sys2Proof.Machine

theorem State.opTok_of_opTok? {s : State} {p : PortSel} {v : Token} (h : s.opTok? p = some v) : s.opTok p = v := by
  rw [State.opTok, h, Option.getD_some]

/-- R267: the operands that an atomic needs besides its address. -/
def atomicData (s : State) (op : AtomicOp) : List Token := if op.bIsData then [s.opTok .b, s.opTok .c] else [s.opTok .c]

section
variable {s : State} {x : Inst} {op : AtomicOp} {ar : Option Scope} {ret : Bool} {z : Size} {t1 t0 : Target} {a : Token}
  (hx : s.live x)
include hx

section
variable (ha : s.opTok .a = a) (hj : x.judged.contains s.cur.idx = false)
include ha hj

/-- R238: the address of an atomic that has arrived is judged. -/
theorem State.atomicOp_checks (hn : a.null = false) : s.atomicOp op ar ret z t1 t0 =
    (s.modInst s.cur.core s.cur.slot fun y => { y with reqs := y.reqs ++
      [⟨s.cur.idx, .atomic op ar ret, BitVec.ofNat 64 a.nat, sizeBytes z, .walking, [], .coherent, 0, 0, none, t0, t1, [], 0⟩] }).judgeReq
        s.cur.core s.cur.slot s.cur.idx := by
  simp only [State.atomicOp, hx.1, hj, State.squashed_of_live hx, Bool.not_false, Bool.and_self, if_true, ha, hn,
    Bool.false_eq_true, if_false, newReq, ofNat_lo]
  rfl

theorem State.atomicOp_skips (hn : a.null = true) :
    s.atomicOp op ar ret z t1 t0 = s.judgedAt s.cur.core s.cur.slot s.cur.idx := by
  simp only [State.atomicOp, hx.1, hj, State.squashed_of_live hx, Bool.not_false, Bool.and_self, if_true, ha, hn]

end

section
variable (hj : x.judged.contains s.cur.idx = true)
include hj

/-- R129, R270: an atomic with a null operand performs nothing. -/
theorem State.atomicOp_null (h : (s.opTok .a).null = true ∨ (s.opTok .c).null = true) : ∃ w,
    Emitted s w 1 1 t1 t0 nullTok nullTok ∧ s.atomicOp op ar ret z t1 t0 = w.modInst s.cur.core s.cur.slot fun y =>
      { y with performed := insertNat s.cur.idx y.performed, reqs := y.reqs.filter fun q => q.idx != s.cur.idx } := by
  have off : s.runs (s.opTok .a :: atomicData s op) = false := State.runs_eq_false hx.1 (.inr (by
    rcases h with h | h
    · exact ⟨_, List.mem_cons_self, h⟩
    · exact ⟨_, List.mem_cons_of_mem _ (by unfold atomicData; split <;> simp), h⟩))
  unfold atomicData at off
  refine ⟨_, State.emit_null (.refl s) hx.1 1 1 t1 t0, ?_⟩
  simp only [State.atomicOp, hx.1, hj, Bool.not_true, Bool.false_and, Bool.false_eq_true, if_false, off]
  rfl

/-- R237, R238: an atomic whose address has been judged goes by a memory port, at once or behind others. -/
theorem State.atomicOp_sends {q : Req} (h : ∀ v ∈ s.opTok .a :: atomicData s op, v.null = false) (hq : x.req? s.cur.idx = some q) :
    let free := (s.core s.cur.core).memQ = [] ∧ (s.core s.cur.core).memTaken s.clk < 4
    let sent : Req := { q with t1 := t1, t0 := t0, cmp := (s.opTok .b).data, data := (s.opTok .c).data,
                               stage := if free then q.stage else .queued }
    ∃ w,
      (let y := x.consume s.clk s.cur.idx
       Fired s w 1 { ((y.setReq sent).addWatch (s.watchOf s.cur.core s.cur.slot s.cur.idx false q.va.toNat q.bytes)) with
         atomicWrites := y.atomicWrites ++ [(s.cur.idx, q.va, q.bytes)] }) ∧
      (¬ free → s.atomicOp op ar ret z t1 t0 = w.modCore s.cur.core fun y => { y with memQ := y.memQ ++ [(s.cur.slot, s.cur.idx)] }) ∧
      (free → s.atomicOp op ar ret z t1 t0 =
        (w.modCore s.cur.core fun y => { y with memAt := s.clk, memUsed := y.memTaken s.clk + 1 }).sendAtomic s.cur.core s.cur.slot sent) := by
  intro free sent
  have runs := State.runs_of hx h
  unfold atomicData at runs
  have full : (!(s.core s.cur.core).memFree s.clk) = decide (¬ free) := by
    rw [decide_not, Bool.not_inj_iff, ← Bool.coe_iff_coe, Core.memFree_iff, decide_eq_true_iff]
  have stage : (if decide (¬ free) = true then ReqStage.queued else q.stage) = if free then q.stage else .queued := by
    by_cases hf : free <;> simp [hf]
  refine ⟨_, State.fireWith_fired (.refl s) hx.1 1 fun y =>
    { ((y.setReq sent).addWatch (s.watchOf s.cur.core s.cur.slot s.cur.idx false q.va.toNat q.bytes)) with
      atomicWrites := y.atomicWrites ++ [(s.cur.idx, q.va, q.bytes)] }, fun hf => ?_, fun hf => ?_⟩
  · simp only [State.atomicOp, hx.1, hj, Bool.not_true, Bool.false_and, Bool.false_eq_true, if_false, runs, if_true, hq, full, stage]
    rw [if_pos (decide_eq_true hf)]
  · simp only [State.atomicOp, hx.1, hj, Bool.not_true, Bool.false_and, Bool.false_eq_true, if_false, runs, if_true, hq, full, stage]
    rw [if_neg (by simpa using hf)]
    rfl

end

end

/-! What an operation gives (R269) -/

theorem signedOf_of_lt {bytes v : Nat} (h : v < 2 ^ (8 * bytes)) :
    signedOf bytes v = if v < 2 ^ (8 * bytes - 1) then (v : Int) else (v : Int) - 2 ^ (8 * bytes) := by
  simp only [signedOf, sextNat, Nat.mod_eq_of_lt h]

theorem atomicFmt_eq {bytes : Nat} {fmt : FFmt} (h : (bytes = 4 ∧ fmt = fmtF32) ∨ (bytes = 8 ∧ fmt = fmtF64)) :
    atomicFmt bytes = fmt := by
  rcases h with ⟨rfl, rfl⟩ | ⟨rfl, rfl⟩ <;> rfl

end Sys2Proof.Machine

open Sys2Proof Sys2Proof.Machine

/-- Settles O26: the address of an atomic is judged first, its request goes by a port to the tile of its place, and the tile
evaluates the operation. -/
theorem atomicRequests : Obligations.AtomicRequests := by
  unfold Obligations.AtomicRequests
  refine ⟨fun s x z p t1 t0 a b d e hx ha => ?_, fun s c sl q op ar ret hq => ?_, fun bytes old b c hbytes hold hb hc => ?_⟩
  · intro none_ he c sl idx T0 r
    have form : exec e.1 s = .next (s.atomicOp e.2.1 e.2.2.1 e.2.2.2 z t1 T0) := by
      simp only [List.mem_cons, List.not_mem_nil, or_false] at he
      rcases he with rfl | rfl | rfl | rfl | rfl | rfl | rfl | rfl | rfl | rfl | rfl | rfl | rfl | rfl | rfl | rfl | rfl | rfl | rfl |
        rfl | rfl | rfl | rfl | rfl | rfl | rfl | rfl | rfl | rfl | rfl | rfl | rfl <;> rfl
    have opA := State.opTok_of_opTok? ha
    refine ⟨fun hj hn => ?_, fun hj hn => ?_, fun q hj hn hd hb hq hkind => ?_, fun hj hn => ?_⟩
    · rw [form, State.atomicOp_checks hx opA hj hn]
    · rw [form, State.atomicOp_skips hx opA hj hn]
    · have data : (∀ v ∈ s.opTok .a :: atomicData s e.2.1, v.null = false) ∧ (s.opTok .b).data = b.data := by
        unfold atomicData
        by_cases ho : e.2.1 = .cas ∨ e.2.1 = .addb
        · rw [if_pos ho] at hb
          have isData : e.2.1.bIsData = true := by rcases ho with ho | ho <;> rw [ho] <;> rfl
          simp [isData, opA, hn, hb.opTok, hb.2, hd.opTok, hd.2]
        · rw [if_neg ho] at hb
          have noData : e.2.1.bIsData = false := by
            generalize e.2.1 = op at ho
            cases op <;> simp_all [AtomicOp.bIsData]
          simp [noData, opA, hn, hb, hd.opTok, hd.2]
      obtain ⟨w, fired, busy, free⟩ := State.atomicOp_sends (ar := e.2.2.1) (ret := e.2.2.2) (z := z) (t1 := t1) (t0 := T0) hx hj
        data.1 hq
      rw [data.2, hd.opTok] at fired free
      exact ⟨_, w, form, fired, busy, free⟩
    · obtain ⟨w, emitted, hw⟩ := State.atomicOp_null (op := e.2.1) (ar := e.2.2.1) (ret := e.2.2.2) (z := z) (t1 := t1) (t0 := T0) hx hj
        (by rwa [opA])
      exact ⟨_, w, form, emitted, hw⟩
  · intro v place owned
    simp only [State.sendAtomic, hq]
    rfl
  · intro N signed f
    have fitB : b % 2 ^ (8 * bytes) = b := Nat.mod_eq_of_lt hb
    have fitC : c % 2 ^ (8 * bytes) = c := Nat.mod_eq_of_lt hc
    refine ⟨?_, ?_, ?_, ?_, ?_, fun i => ?_, fun i => ?_, fun i => ?_, ?_, ?_, ?_, ?_, ?_, fun fmt hfmt => ?_, fun hb4 => ?_⟩
    · simp only [f, atomicEval, fitC, N]
    · simp only [f, atomicEval, fitC, signedOf_of_lt hc, signedOf_of_lt hold]
      rfl
    · simp only [f, atomicEval, fitC, signedOf_of_lt hc, signedOf_of_lt hold]
      rfl
    · simp only [f, atomicEval, fitC]
    · simp only [f, atomicEval, fitC]
    · simp only [f, atomicEval, fitC, Nat.testBit_and]
    · simp only [f, atomicEval, fitC, Nat.testBit_or]
    · simp only [f, atomicEval, fitC, Nat.testBit_xor]
    · simp only [f, atomicEval, fitC]
    · simp only [f, atomicEval, fitB, fitC, Bool.beq_eq_decide_eq]
    · simp only [f, atomicEval, fitC]
    · simp only [f, atomicEval, fitC]
    · simp only [f, atomicEval, fitB, fitC, N]
    · have fmtEq := atomicFmt_eq hfmt
      simp only [f, atomicEval, fitC, fmtEq, roundSum]
      refine ⟨trivial, trivial, trivial, fun hX hY => ⟨minmaxBits_of_nans hX hY, minmaxBits_of_nans hX hY⟩,
        fun hX hY => ⟨minmaxBits_of_nan_left hX hY, minmaxBits_of_nan_left hX hY⟩,
        fun hX hY => ⟨minmaxBits_of_nan_right hX hY, minmaxBits_of_nan_right hX hY⟩,
        fun h => ⟨minmaxBits_of_lt h, minmaxBits_of_lt h⟩, fun h => ⟨minmaxBits_of_gt h, minmaxBits_of_gt h⟩,
        fun n e g hX hY => ⟨neg_minmaxBits_zeros hX hY, neg_minmaxBits_zeros hX hY⟩⟩
    · subst hb4
      have high : old / 2 ^ 16 % 2 ^ 16 = old / 2 ^ 16 := Nat.mod_eq_of_lt (by omega)
      simp only [f, atomicEval, fitC, high, roundSum]

end

section
/-! Copy commands and channel conversions at their acceptance (O29). -/

namespace Sys2Proof.Machine

/-! What the reads of a command mark in its thread -/

theorem State.core_seeOwn_parts (s : State) (c sl : Nat) (gs : List Seg) :
    ((s.seeOwn c sl gs).core c).chan = (s.core c).chan ∧ ((s.seeOwn c sl gs).core c).channels = (s.core c).channels := by
  rw [State.seeOwn, State.modThread, State.core_modCore_self]
  exact ⟨rfl, rfl⟩

theorem State.seeOwn_thread_group (s : State) (c sl : Nat) (gs : List Seg) :
    ((s.seeOwn c sl gs).thread c sl).group = (s.thread c sl).group := by
  rw [State.seeOwn, State.thread_modThread_self]
  rfl

/-- R206: of the conversions only one of an ex8 entry reads the scratchpad. -/
theorem State.seeCvt_same {s : State} {c sl : Nat} {a b : DWord}
    (h : chanError ((s.core c).entry (b.toNat % 32)) (s.thread c sl).group = true ∨ entFmt ((s.core c).entry (b.toNat % 32)) ≠ 2) :
    s.seeCvt c sl a b = s := by
  refine if_pos ?_
  rcases h with h | h <;> simp [h]

theorem State.seeCvt_parts (s : State) (c sl : Nat) (a b : DWord) :
    ((s.seeCvt c sl a b).core c).chan = (s.core c).chan ∧ ((s.seeCvt c sl a b).thread c sl).group = (s.thread c sl).group := by
  unfold State.seeCvt
  dsimp only
  split
  · exact ⟨rfl, rfl⟩
  · exact ⟨(s.core_seeOwn_parts c sl _).1, s.seeOwn_thread_group c sl _⟩

/-! Acceptance -/

section
variable {s : State} {c sl idx ch : Nat} {coll : Bool} {segs : List Seg} {t1 t0 : Target}

/-- R287: a good descriptor puts a copy in flight. -/
theorem State.acceptCopy_good {bs : List Byte} (hbs : s.readForThread c sl segs = some bs)
    (hok : copyReject bs coll (((s.core c).channel ch).cfg && ((s.core c).channel ch).owner == (s.thread c sl).group &&
      !((s.core c).channel ch).brk) = none) :
    let k : EngCmd := ⟨sl, idx, .cpy coll ch segs, t0, t1⟩
    let x := (s.core c).channel ch
    let d := copyDescOf bs
    let cp : Copy := ⟨s.copyNext, sl, (s.thread c sl).group, s.aspOf c sl, !(s.thread c sl).priv, coll, s.aspOf c sl, d, d.size, 0, [],
      false, []⟩
    let x' := { x with iptr := x.iptr + BitVec.ofNat 32 d.size, infl := x.infl + 1, copies := x.copies ++ [cp] }
    let u := ((s.seeOwn c sl segs).placeAtomics).modCore c fun y => { y with channels := Tbl.set y.channels ch x' }
    s.acceptCmd c k = ({ u with copyNext := s.copyNext + 1 }).reown.finishPort c k 0 doneTok
      (dword (x.iptr + BitVec.ofNat 32 d.size).toNat) := by
  intro k x d cp x' u
  have channel : (((s.seeOwn c sl segs).placeAtomics).core c).channel ch = x := by
    rw [show ((s.seeOwn c sl segs).placeAtomics).core c = (s.seeOwn c sl segs).core c from rfl, Core.channel,
      (s.core_seeOwn_parts c sl segs).2]
    rfl
  have started : (((s.seeOwn c sl segs).placeAtomics).modCore c fun y => y.modChannel ch fun z =>
      { z with iptr := x.iptr + BitVec.ofNat 32 d.size, infl := z.infl + 1, copies := z.copies ++ [cp] }) = u := by
    rw [State.modCore, Core.modChannel, channel]
    rfl
  simp only [State.acceptCmd, k, State.acceptCopy, hbs, hok]
  rw [← started]

theorem State.acceptCopy_bad {bs : List Byte} {code : Nat} (hbs : s.readForThread c sl segs = some bs)
    (hbad : copyReject bs coll (((s.core c).channel ch).cfg && ((s.core c).channel ch).owner == (s.thread c sl).group &&
      !((s.core c).channel ch).brk) = some code) :
    s.acceptCmd c ⟨sl, idx, .cpy coll ch segs, t0, t1⟩ =
      s.refusePort c ⟨sl, idx, .cpy coll ch segs, t0, t1⟩ .engine (engDetail code idx ch (if coll then 0xd1 else 0xd0)) nullTok := by
  simp only [State.acceptCmd, State.acceptCopy, hbs, hbad]

theorem State.acceptCopy_poison (hbs : s.readForThread c sl segs = none) :
    s.acceptCmd c ⟨sl, idx, .cpy coll ch segs, t0, t1⟩ =
      s.refusePort c ⟨sl, idx, .cpy coll ch segs, t0, t1⟩ .poison (engDetail 0 idx ch (if coll then 0xd1 else 0xd0)) nullTok := by
  simp only [State.acceptCmd, State.acceptCopy, hbs]

/-- R281: a channel on which no thread waits ends no wait. -/
theorem State.faultWaiters_none {s : State} {c ch : Nat} (h : (s.core c).channelWaiters ch = []) (code : Nat) :
    s.faultWaiters c ch code = s := by
  rw [State.faultWaiters, h, List.foldl_nil]

theorem Channel.cchanOk_configure (x : Channel) (g : Nat) : x.cchanOk g false = true ↔ x.cfg = false ∨ (x.owner = g ∧ x.infl = 0) := by
  simp [Channel.cchanOk]

theorem Channel.cchanOk_free (x : Channel) (g : Nat) : x.cchanOk g true = true ↔ x.cfg = true ∧ x.owner = g ∧ x.infl = 0 := by
  simp [Channel.cchanOk, and_assoc]

/-- R297: `cchan` that is admitted, where no thread waits on the channel. -/
theorem State.acceptCchan_ok {free : Bool} (hw : (s.core c).channelWaiters ch = [])
    (hok : ((s.core c).channel ch).cchanOk (s.thread c sl).group free = true) :
    let k : EngCmd := ⟨sl, idx, .cchan ch free, t0, t1⟩
    let x := (s.core c).channel ch
    s.acceptCmd c k = (s.modCore c fun y =>
      if free && x.runs.isEmpty then { y with channels := Tbl.erase y.channels ch }
      else if free then { y with channels := Tbl.set y.channels ch ⟨false, 0, 0, 0, 0, false, 0, [], x.runs⟩ }
      else { y with channels := Tbl.set y.channels ch ⟨true, (s.thread c sl).group, 0, 0, 0, false, 0, [], x.runs⟩ }).finishPort c k 0
        doneTok (predTok true) := by
  intro k x
  simp only [State.acceptCmd, k, State.acceptCchan, hok, if_true]
  rw [State.faultWaiters_none]
  · rfl
  · rw [State.core_modCore_self]
    split
    · exact hw
    · split <;> exact hw

theorem State.acceptCchan_no {free : Bool} (hno : ((s.core c).channel ch).cchanOk (s.thread c sl).group free = false) :
    s.acceptCmd c ⟨sl, idx, .cchan ch free, t0, t1⟩ = s.finishPort c ⟨sl, idx, .cchan ch free, t0, t1⟩ 0 doneTok (predTok false) := by
  simp only [State.acceptCmd, State.acceptCchan, hno, Bool.false_eq_true, if_false]

end

end Sys2Proof.Machine

open Sys2Proof Sys2Proof.Machine

/-- Settles O29: acceptance of the copy commands, the end of a command at the port, and the conversions of a channel. -/
theorem copyCommands : Obligations.CopyCommands := by
  unfold Obligations.CopyCommands
  refine ⟨fun s c sl idx ch coll free acq segs t1 t0 => ?_, fun s c lat k v1 v0 x hx hs => ?_, fun s c sl idx m a b t1 t0 => ?_⟩
  · intro k x g cpy
    refine ⟨fun bs hbs => ⟨State.acceptCopy_good hbs, fun code h => State.acceptCopy_bad hbs h⟩, fun h => ?_, rfl,
      fun hw hf h => ?_, fun hw hf hcfg howner hinfl => ?_, fun h => State.acceptCchan_no ?_⟩
    · rw [State.acceptCopy_poison h, engDetail, Nat.zero_add]
      rfl
    · subst hf
      exact State.acceptCchan_ok hw ((Channel.cchanOk_configure x g).2 h)
    · subst hf
      rw [State.acceptCchan_ok hw ((Channel.cchanOk_free x g).2 ⟨hcfg, howner, hinfl⟩)]
      by_cases hruns : x.runs = []
      · simp [hruns, x, k]
      · simp [hruns, x, k]
    · cases free with
      | false =>
        rw [← Bool.not_eq_true, Channel.cchanOk_configure]
        simp only [Bool.false_eq_true, false_and, or_false] at h
        obtain ⟨hcfg, h⟩ := h
        rintro (hc | ⟨ho, hi⟩)
        · exact absurd (hcfg.symm.trans hc) (by decide)
        · exact h.elim (fun h => h ho) fun h => h hi
      | true =>
        rw [← Bool.not_eq_true, Channel.cchanOk_free]
        rintro ⟨hc, ho, hi⟩
        rcases h with ⟨-, h⟩ | ⟨-, h⟩
        · exact h.elim (fun h => h ho) fun h => h hi
        · exact absurd (hc.symm.trans h) (by decide)
  · intro y z w
    rw [State.finishPort, State.modInst_eq hx]
    refine State.modThread_congr ?_
    simp only [hs, Option.isSome_none, Bool.false_eq_true, if_false]
    rfl
  · intro k ch e g fmt lat nan u fault
    obtain ⟨chan, group⟩ := State.seeCvt_parts s c sl a b
    have entry : (u.core c).entry (b.toNat % 32) = e := by rw [Core.entry, chan]; rfl
    have group : (u.thread c sl).group = g := group
    have accept : s.acceptCmd c k = match u.chValue c sl a b with
        | .value y => u.finishPort c k lat (predTok (cvtNum m.dest m.rnd y).2) (dword (cvtNum m.dest m.rnd y).1)
        | .code d => fault .engine d
        | .poison => fault .poison 0 := by
      have time : (if (!chanError ((u.core c).entry (b.toNat % 32)) (u.thread c sl).group &&
          entFmt ((u.core c).entry (b.toNat % 32)) == 2) = true then 12 else 6) = lat := by
        rw [entry, group]
        simp only [lat, Bool.and_eq_true, Bool.not_eq_true', beq_iff_eq]
        rfl
      show s.acceptCvt c k m a b = _
      unfold State.acceptCvt
      dsimp only
      rw [show (if (!chanError (((s.seeCvt c k.slot a b).core c).entry (b.toNat % 32)) ((s.seeCvt c k.slot a b).thread c k.slot).group &&
          entFmt (((s.seeCvt c k.slot a b).core c).entry (b.toNat % 32)) == 2) = true then 12 else 6) = lat from time]
      rfl
    have same (h : chanError e g = true ∨ fmt ≠ 2) : u = s := State.seeCvt_same h
    refine ⟨fun h => ?_, fun h hf => ?_, same, fun code h => ?_, fun h => ?_, fun y h => ?_⟩
    · have code : u.chValue c sl a b = .code 1 := if_pos (by rw [entry, group]; exact h)
      rw [accept, code]
    · have value : u.chValue c sl a b = .value ((fmtValue fmt a.toNat).scale (entScale e)) := by
        simp only [State.chValue, entry, group]
        rw [if_neg (by rw [h]; decide)]
        exact if_pos hf
      have six : lat = 6 := if_neg fun hl => hf hl.2
      rw [accept, value, same (.inr hf), six]
      rfl
    · rw [accept, h]
    · rw [accept, h]
    · rw [accept, h]

end

section
/-! Matrix commands at their acceptance (O30). -/

namespace Sys2Proof.Machine

/-! The list that `mgang` takes (R318) -/

theorem gangList_of_zero {v : DWord} {G P own : Nat} (h : v.toNat / 2 ^ 48 % 8 = 0) : gangList v G P own = some [] :=
  if_pos h

/-- R318: what a list that is taken has. -/
theorem gangList_spec {v : DWord} {G P own : Nat} {l : List Nat} (hcnt : v.toNat / 2 ^ 48 % 8 ≠ 0)
    (hl : gangList v G P own = some l) :
    let cnt := v.toNat / 2 ^ 48 % 8
    let rank (j : Nat) := v.toNat / 2 ^ (8 * j) % 256
    l = ((List.range 6).map rank).take cnt ∧ 2 ≤ cnt ∧ cnt ≤ 6 ∧ (((List.range 6).map rank).drop cnt).all (· == 0) = true ∧
      v.toNat / 2 ^ 51 % 2 ^ 13 = 0 ∧ l.Nodup ∧ (∀ r ∈ l, r < G) ∧ own ∈ l ∧ (l.map (· / P)).Nodup := by
  have bits (j : Nat) : bitsOf v.toNat (8 * j + 7) (8 * j) = v.toNat / 2 ^ (8 * j) % 256 := by
    rw [bitsOf, show 8 * j + 7 + 1 - 8 * j = 8 by omega, show (2 : Nat) ^ 8 = 256 from rfl]
  unfold gangList at hl
  simp only [bits] at hl
  rw [if_neg (show bitsOf v.toNat 50 48 ≠ 0 from hcnt)] at hl
  split at hl
  · rename_i h
    obtain rfl := Option.some.inj hl
    simp only [Bool.and_eq_true, decide_eq_true_eq, List.all_eq_true, List.contains_eq_mem, beq_iff_eq] at h
    obtain ⟨⟨⟨⟨⟨⟨⟨two, six⟩, zeros⟩, high⟩, distinct⟩, below⟩, own⟩, cores⟩ := h
    refine ⟨rfl, two, six, ?_, high, distinct, below, own, cores⟩
    exact List.all_eq_true.2 fun r hr => by simpa using zeros r hr
  · exact absurd hl (by simp)

/-- R318: what stands at the places of a list that is taken. -/
theorem gangList_places {v : DWord} {G P own : Nat} {l : List Nat} (hcnt : v.toNat / 2 ^ 48 % 8 ≠ 0)
    (hl : gangList v G P own = some l) :
    let cnt := v.toNat / 2 ^ 48 % 8
    let rank (j : Nat) := v.toNat / 2 ^ (8 * j) % 256
    l.length = cnt ∧ (∀ j, j < cnt → l[j]? = some (rank j)) ∧
      (∀ i j, i < cnt → j < cnt → i ≠ j → rank i ≠ rank j ∧ rank i / P ≠ rank j / P) ∧
      (∀ j, cnt ≤ j → j < 6 → rank j = 0) ∧ v.toNat < 2 ^ 51 := by
  intro cnt rank
  obtain ⟨hlist, two, six, zeros, high, distinct, -, -, cores⟩ := gangList_spec hcnt hl
  have length : l.length = cnt := by
    rw [hlist, List.length_take, List.length_map, List.length_range]
    exact Nat.min_eq_left six
  have place (j : Nat) (hj : j < cnt) : l[j]? = some (rank j) := by
    rw [hlist, List.getElem?_take_of_lt hj, List.getElem?_map, List.getElem?_range (by omega)]
    rfl
  refine ⟨length, place, fun i j hi hj hij => ⟨fun he => hij ?_, fun he => hij ?_⟩, fun j hj h6 => ?_, by omega⟩
  · refine (List.getElem?_inj (by omega) distinct).1 ?_
    rw [place i hi, place j hj, he]
  · refine (List.getElem?_inj (by rw [List.length_map]; omega) cores).1 ?_
    rw [List.getElem?_map, List.getElem?_map, place i hi, place j hj]
    exact congrArg some he
  · have member : rank j ∈ ((List.range 6).map rank).drop cnt := by
      refine List.mem_iff_getElem?.2 ⟨j - cnt, ?_⟩
      rw [List.getElem?_drop, Nat.add_sub_cancel' hj, List.getElem?_map, List.getElem?_range h6]
      rfl
    simpa using List.all_eq_true.1 zeros _ member

/-! One entry of the channel table (R319) -/

theorem sextNat_eq_zero_iff (w x : Nat) : sextNat w x = 0 ↔ x % 2 ^ w = 0 := by
  have below : x % 2 ^ w < 2 ^ w := Nat.mod_lt _ (Nat.two_pow_pos _)
  have cast : ((2 ^ w : Nat) : Int) = 2 ^ w := by push_cast; rfl
  have half : 0 < 2 ^ (w - 1) := Nat.two_pow_pos _
  simp only [sextNat]
  generalize x % 2 ^ w = y at *
  split <;> omega

theorem mchanOk_iff (old : Word) (v : DWord) (g : Nat) : mchanOk old v g = true ↔
    (old.getLsbD 16 = false ∨ old.toNat / 2 ^ 17 % 16 = g) ∧ v.toNat / 2 ^ 21 % 2 ^ 11 = 0 ∧
      v.toNat / 2 ^ 4 % 2 ^ 4 = 0 ∧ v.toNat % 2 ^ 4 ≤ 6 ∧ (v.toNat % 2 ^ 4 = 6 → v.toNat / 2 ^ 8 % 2 ^ 8 = 0) ∧ v.toNat < 2 ^ 37 := by
  have fmt : entFmt (BitVec.ofNat 32 v.toNat) = v.toNat % 2 ^ 4 := by
    rw [entFmt, BitVec.toNat_ofNat]
    omega
  have scale : entScale (BitVec.ofNat 32 v.toNat) = 0 ↔ v.toNat / 2 ^ 8 % 2 ^ 8 = 0 := by
    rw [entScale, sextNat_eq_zero_iff, BitVec.toNat_ofNat]
    omega
  have high : v.toNat / 2 ^ 37 % 2 ^ 27 = 0 ↔ v.toNat < 2 ^ 37 := by omega
  simp only [mchanOk, fmt, bitsOf, entV, entOwner, Bool.and_eq_true, Bool.or_eq_true, Bool.not_eq_true', beq_iff_eq,
    decide_eq_true_eq, Bool.and_eq_false_iff, bne_eq_false_iff_eq, beq_eq_false_iff_ne, scale, high, and_assoc]
  grind

/-! Acceptance -/

section
variable {s : State} {c sl idx : Nat} {v : DWord} {t1 t0 : Target}

theorem State.acceptMgang_some {l : List Nat}
    (h : gangList v (s.grid (s.group c (s.thread c sl).group).grid).launch.ropeG
      (s.grid (s.group c (s.thread c sl).group).grid).launch.ropeP (s.rankOf c (s.thread c sl).group) = some l) :
    s.acceptCmd c ⟨sl, idx, .mgang v, t0, t1⟩ =
      (s.modGroup c (s.thread c sl).group fun x => { x with gang := l }).finishPort c ⟨sl, idx, .mgang v, t0, t1⟩ 0 doneTok
        (predTok true) := by
  simp only [State.acceptCmd, State.acceptMgang, h]

theorem State.acceptMgang_none
    (h : gangList v (s.grid (s.group c (s.thread c sl).group).grid).launch.ropeG
      (s.grid (s.group c (s.thread c sl).group).grid).launch.ropeP (s.rankOf c (s.thread c sl).group) = none) :
    s.acceptCmd c ⟨sl, idx, .mgang v, t0, t1⟩ = s.finishPort c ⟨sl, idx, .mgang v, t0, t1⟩ 0 doneTok (predTok false) := by
  simp only [State.acceptCmd, State.acceptMgang, h]

/-- R319: V of the entry that `mchan` writes is that of its operand. -/
theorem entV_mchan (n g : Nat) : entV (BitVec.ofNat 32 (n % 2 ^ 17 + g * 2 ^ 17)) = n.testBit 16 := by
  rw [entV, BitVec.getLsbD_ofNat, Nat.mul_comm g, Nat.add_comm, Nat.testBit_two_pow_mul_add _ (Nat.mod_lt _ (by decide)),
    if_pos (by decide), Nat.testBit_mod_two_pow]
  simp

theorem State.acceptMchan_ok (h : mchanOk ((s.core c).entry (v.toNat / 2 ^ 32 % 32)) v (s.thread c sl).group = true) :
    s.acceptCmd c ⟨sl, idx, .mchan v, t0, t1⟩ = (s.modCore c fun x =>
      { x with chan := if v.getLsbD 16 then
          Tbl.set x.chan (v.toNat / 2 ^ 32 % 32) (BitVec.ofNat 32 (v.toNat % 2 ^ 17 + (s.thread c sl).group * 2 ^ 17))
        else Tbl.erase x.chan (v.toNat / 2 ^ 32 % 32) }).finishPort c ⟨sl, idx, .mchan v, t0, t1⟩ 0 doneTok (predTok true) := by
  have number : bitsOf v.toNat 36 32 = v.toNat / 2 ^ 32 % 32 := rfl
  have low : bitsOf v.toNat 16 0 = v.toNat % 2 ^ 17 := by simp [bitsOf]
  simp only [State.acceptCmd, State.acceptMchan, number, h, if_true, low, entV_mchan]
  rfl

theorem State.acceptMchan_no (h : mchanOk ((s.core c).entry (v.toNat / 2 ^ 32 % 32)) v (s.thread c sl).group = false) :
    s.acceptCmd c ⟨sl, idx, .mchan v, t0, t1⟩ = s.finishPort c ⟨sl, idx, .mchan v, t0, t1⟩ 0 doneTok (predTok false) := by
  have number : bitsOf v.toNat 36 32 = v.toNat / 2 ^ 32 % 32 := rfl
  simp only [State.acceptCmd, State.acceptMchan, number, h, Bool.false_eq_true, if_false]

/-- R301, R306, R310: a matrix command is refused with a code, or enters the array's queue, or its die's latch. -/
theorem State.acceptMat_spec (k : EngCmd) (kind : MatKind) (a b : Quad) (ctl : DWord) (ra rb : Nat) :
    let g := (s.thread c k.slot).group
    let t := matCtlOf ctl
    let ac := ctl.toNat / 2 ^ 28 % 4
    let refusal := s.matRefusal c g kind t (opDescOf a) (opDescOf b) ra rb
    (∀ code num, refusal = some (code, num) →
      s.acceptMat c k kind a b ctl ra rb = s.refusePort c k .engine (engDetail code k.idx num kind.op) doneTok) ∧
    (refusal = none → t.gang = false →
      ∃ q : MatCmd, (q.kind = kind ∧ q.group = g ∧ q.slot = k.slot ∧ q.core = c ∧ q.idx = k.idx ∧ q.ac = ac ∧
          q.m = ctl.toNat % 64 ∧ q.n = ctl.toNat / 64 % 64 ∧ q.k = ctl.toNat / 2 ^ 12 % 2 ^ 16 ∧
          q.flag = ctl.getLsbD 30 ∧ q.da = opDescOf a ∧ q.db = opDescOf b ∧ q.step = 0 ∧ q.started = false) ∧
        s.acceptMat c k kind a b ctl ra rb = (s.modCore c fun y =>
          { y with
            accs := Tbl.set y.accs ac (let z := y.acc ac; if z.v then z else { z with v := true, owner := g })
            matQ := y.matQ ++ [q] }).finishPort c k 0 doneTok nullTok) ∧
    (refusal = none → t.gang = true →
      ∃ l : LatchEntry, (l.grid = (s.group c g).grid ∧ l.rope = s.ropeOf c g ∧ l.rank = s.rankOf c g ∧ l.t1 = k.t1 ∧
          l.arrived = (s.group c g).clock ∧ l.cmd.kind = kind ∧ l.cmd.slot = k.slot ∧ l.cmd.ac = ac) ∧
        s.acceptMat c k kind a b ctl ra rb = s.modDie (c / 256) fun d => { d with latch := d.latch ++ [l] }) := by
  intro g t ac refusal
  refine ⟨fun code num h => ?_, fun h hg => ?_, fun h hg => ?_⟩
  · simp only [State.acceptMat, show s.matRefusal c (s.thread c k.slot).group kind (matCtlOf ctl) (opDescOf a) (opDescOf b) ra rb =
      some (code, num) from h]
  · unfold State.acceptMat
    simp only [show s.matRefusal c (s.thread c k.slot).group kind (matCtlOf ctl) (opDescOf a) (opDescOf b) ra rb = none from h,
      show (matCtlOf ctl).gang = false from hg, Bool.false_eq_true, if_false]
    refine ⟨_, ⟨rfl, rfl, rfl, rfl, rfl, rfl, ?_, rfl, rfl, ?_, rfl, rfl, rfl, rfl⟩, rfl⟩
    · simp [matCtlOf, bitsOf]
    · simp [matCtlOf, BitVec.getLsbD, Nat.testBit_eq_decide_div_mod_eq, Bool.beq_eq_decide_eq]
  · unfold State.acceptMat
    simp only [show s.matRefusal c (s.thread c k.slot).group kind (matCtlOf ctl) (opDescOf a) (opDescOf b) ra rb = none from h,
      show (matCtlOf ctl).gang = true from hg, if_true]
    refine ⟨_, ⟨rfl, rfl, rfl, rfl, rfl, rfl, rfl, rfl⟩, rfl⟩

end

end Sys2Proof.Machine

open Sys2Proof Sys2Proof.Machine

/-- Settles O30: acceptance by `acceptMat`, `acceptMgang` and `acceptMchan`, and the lists of `mgang`. -/
theorem matrixCommands : Obligations.MatrixCommands := by
  unfold Obligations.MatrixCommands
  refine ⟨fun s c sl idx f a b ctl v ra rb t1 t0 => ?_, fun v G P own => ⟨gangList_of_zero, fun l hcnt hl => ?_⟩⟩
  · intro g ac r kg kc n old good
    have ok : mchanOk old v g = true ↔ good := mchanOk_iff old v g
    have mat {kind : MatKind} {op : EngOp} {b : Quad} {rb : Nat} (hop : s.acceptCmd c ⟨sl, idx, op, t0, t1⟩ =
        s.acceptMat c ⟨sl, idx, op, t0, t1⟩ kind a b ctl ra rb) :=
      hop ▸ State.acceptMat_spec (s := s) (c := c) ⟨sl, idx, op, t0, t1⟩ kind a b ctl ra rb
    refine ⟨fun l h => State.acceptMgang_some h, State.acceptMgang_none, fun h => State.acceptMchan_ok (ok.2 h),
      fun h => State.acceptMchan_no (Bool.eq_false_iff.2 fun hk => h (ok.1 hk)), ?_⟩
    simp only [List.forall_mem_cons]
    exact ⟨mat rfl, mat rfl, mat rfl, List.forall_mem_nil _⟩
  · obtain ⟨length, place, distinct, zeros, high⟩ := gangList_places hcnt hl
    obtain ⟨-, two, six, -, -, -, below, own, -⟩ := gangList_spec hcnt hl
    exact ⟨length, two, six, own, place, below, distinct, zeros, high⟩

end

section
/-! Temporal and heap commands at their acceptance (O31, O32). -/

namespace Sys2Proof.Machine

/-! Temporal commands -/

/-- R329, R332: the operands that are bad. -/
theorem tempBad_twin (a b : DWord) : tempBad (.twin a b) = true ↔ a.toNat % 2 ^ 10 = 0 ∨ 2 ^ 10 ≤ a.toNat := by
  simp [tempBad]

theorem tempBad_tload (sel : Bool) (segs : List Seg) (b : DWord) : tempBad (.tload sel segs b) = true ↔
    2 ^ 11 ≤ b.toNat ∨ (sel = true ∧ b.toNat ≠ 0) ∨ (sel = false ∧ 32 < b.toNat % 32 + b.toNat / 32 % 64) := by
  cases sel with
  | true =>
    simp only [tempBad, tloadCtl, Bool.true_and, Bool.not_true, Bool.false_and, Bool.or_false, Bool.or_eq_true, decide_eq_true_eq,
      bne_iff_ne, true_and, Bool.true_eq_false, false_and, or_false]
    omega
  | false => simp [tempBad, tloadCtl, bitsOf]

theorem tempBad_tcode (a b : DWord) : tempBad (.tcode a b) = true ↔
    2 ^ 11 ≤ b.toNat ∨ (b.getLsbD 10 = true ∧ b.toNat / 32 % 32 ≠ 0) := by
  simp [tempBad, bitsOf, BitVec.getLsbD, Nat.testBit_eq_decide_div_mod_eq]

theorem tempOpOf_tload (sel : Bool) (segs : List Seg) (b : DWord) : tempOpOf (.tload sel segs b) =
    .tload sel segs (b.toNat % 32) (if sel then 1 else b.toNat / 32 % 64) := by
  show TempOp.tload sel segs (bitsOf b.toNat 4 0) (if sel then 1 else bitsOf b.toNat 10 5) = _
  simp [bitsOf]

theorem tempOpOf_tcode (a b : DWord) : tempOpOf (.tcode a b) =
    .tcode (b.getLsbD 10) (b.toNat % 32) (b.toNat / 32 % 32) (BitVec.ofNat 10 (min a.toNat 1023)) := by
  have input : (b.toNat / 2 ^ 10 % 2 == 1) = b.getLsbD 10 := by
    simp [BitVec.getLsbD, Nat.testBit_eq_decide_div_mod_eq, Bool.beq_eq_decide_eq]
  show TempOp.tcode (b.toNat / 2 ^ 10 % 2 == 1) (bitsOf b.toNat 4 0) (bitsOf b.toNat 9 5) _ = _
  rw [input]
  simp [bitsOf]

section
variable {s : State} {c : Nat} (k : EngCmd)

theorem State.acceptTemp_not_owner (h : (s.core c).temp.owner ≠ some (s.thread c k.slot).group) :
    s.acceptTemp c k = s.refusePort c k .engine (engDetail 13 k.idx 0 (tempOpcode k.op)) nullTok := if_pos h

variable (hown : (s.core c).temp.owner = some (s.thread c k.slot).group)
include hown

theorem State.acceptTemp_bad (h : tempBad k.op = true) :
    s.acceptTemp c k = s.refusePort c k .engine (engDetail 14 k.idx 0 (tempOpcode k.op)) nullTok := by
  unfold State.acceptTemp
  dsimp only
  rw [if_neg (by simpa using hown), if_pos h]

theorem State.acceptTemp_unavailable {code : Nat} (hbad : tempBad k.op = false) (h : tempUnavailable (s.core c).temp k.op = some code) :
    s.acceptTemp c k = s.refusePort c k .temporalUnavailable (engDetail code k.idx 0 (tempOpcode k.op)) nullTok := by
  unfold State.acceptTemp
  dsimp only
  rw [if_neg (by simpa using hown), if_neg (by rw [hbad]; decide), h]

/-- R332: what a temporal command that has entered the queue makes of its instance. -/
def tempAnswer (s : State) (c : Nat) (k : EngCmd) : TempOp → State
  | .tval _ => s.modInst c k.slot fun x => x.perform k.idx
  | .tcode _ _ _ code => s.finishPort c k 0 doneTok (dword code.toNat)
  | _ => s.finishPort c k 0 doneTok nullTok

theorem State.acceptTemp_queued (hbad : tempBad k.op = false) (h : tempUnavailable (s.core c).temp k.op = none) :
    s.acceptTemp c k = tempAnswer (s.modCore c fun y => { y with temp := { y.temp with
      queue := y.temp.queue ++ [⟨tempOpOf k.op, k.slot, k.idx, k.t0, k.t1, none, []⟩] } }) c k (tempOpOf k.op) := by
  unfold State.acceptTemp
  dsimp only
  rw [if_neg (by simpa using hown), if_neg (by rw [hbad]; decide), h]
  cases tempOpOf k.op <;> rfl

end

/-- R332: when the array cannot take a command: it has lost its state, or it is offline. -/
def TempArray.refuses (t : TempArray) (opc : Nat) : Option Nat :=
  if (opc = 0xdb ∨ opc = 0xdc ∨ opc = 0xdf) ∧ t.st.lost = true then some 1
  else if opc = 0xdb ∧ t.tick = 3 then some 2 else none

section
variable {s : State} {c sl idx : Nat} {op : EngOp} {t1 t0 : Target} {opc : Nat} {bad : Prop} {top : TempOp}

/-- R329, R332, R333: acceptance of a temporal command with its opcode, its bad operands and its operation on the array. -/
theorem State.acceptTemp_spec
    (hacc : s.acceptCmd c ⟨sl, idx, op, t0, t1⟩ = s.acceptTemp c ⟨sl, idx, op, t0, t1⟩) (hopc : tempOpcode op = opc)
    (hbad : tempBad op = true ↔ bad) (hun : tempUnavailable (s.core c).temp op = (s.core c).temp.refuses opc) (hop : tempOpOf op = top)
    (hneeds : opc = 0xdb ∨ opc = 0xdc ∨ opc = 0xdf → ¬ bad)
    {v : Token} (hans : ∀ z, tempAnswer z c ⟨sl, idx, op, t0, t1⟩ top =
      if opc = 0xdf then z.modInst c sl fun y => { y with performed := insertNat idx y.performed }
      else z.finishPort c ⟨sl, idx, op, t0, t1⟩ 0 doneTok (if opc = 0xde then v else nullTok)) :
    let arr := (s.core c).temp
    let g := (s.thread c sl).group
    let k : EngCmd := ⟨sl, idx, op, t0, t1⟩
    let needsState := opc = 0xdb ∨ opc = 0xdc ∨ opc = 0xdf
    let fault (cause : Cause) (code : Nat) : State := (s.modInst c sl fun y => { y with faults := y.faults ++
        [⟨cause, idx, 0, BitVec.ofNat 64 (code + idx * 2 ^ 8 + opc * 2 ^ 24)⟩] }).finishPort c k 0 nullTok nullTok
    (arr.owner ≠ some g → s.acceptCmd c k = fault .engine 13) ∧
    (arr.owner = some g → bad → s.acceptCmd c k = fault .engine 14) ∧
    (arr.owner = some g → needsState → arr.st.lost = true → s.acceptCmd c k = fault .temporalUnavailable 1) ∧
    (arr.owner = some g → opc = 0xdb → arr.st.lost = false → arr.tick = 3 → s.acceptCmd c k = fault .temporalUnavailable 2) ∧
    (arr.owner = some g → ¬ bad → (needsState → arr.st.lost = false) → (opc = 0xdb → arr.tick ≠ 3) →
      let queued := s.modCore c fun y => { y with temp := { y.temp with
        queue := y.temp.queue ++ [⟨top, sl, idx, t0, t1, none, []⟩] } }
      s.acceptCmd c k =
        if opc = 0xdf then queued.modInst c sl fun y => { y with performed := insertNat idx y.performed }
        else queued.finishPort c k 0 doneTok (if opc = 0xde then v else nullTok)) := by
  intro arr g k needsState fault
  have refused (cause : Cause) (code : Nat) : s.refusePort c k cause (engDetail code k.idx 0 opc) nullTok = fault cause code := by
    rw [engDetail, Nat.zero_mul, Nat.add_zero]
    rfl
  have fit (h : ¬ bad) : tempBad op = false := Bool.eq_false_iff.2 fun hb => h (hbad.1 hb)
  subst hopc hop
  refine ⟨fun h => ?_, fun h hb => ?_, fun h hn hl => ?_, fun h hn hl ht => ?_, fun h hb hn ht => ?_⟩
  · rw [hacc, State.acceptTemp_not_owner _ h, refused]
  · rw [hacc, State.acceptTemp_bad _ h (hbad.2 hb), refused]
  · have unavailable : tempUnavailable (s.core c).temp k.op = some 1 := hun.trans (if_pos ⟨hn, hl⟩)
    rw [hacc, State.acceptTemp_unavailable _ h (fit (hneeds hn)) unavailable, refused]
  · have unavailable : tempUnavailable (s.core c).temp k.op = some 2 :=
      hun.trans ((if_neg fun hl' => absurd (hl.symm.trans hl'.2) (by decide)).trans (if_pos ⟨hn, ht⟩))
    rw [hacc, State.acceptTemp_unavailable _ h (fit (hneeds (.inl hn))) unavailable, refused]
  · have available : tempUnavailable (s.core c).temp k.op = none :=
      hun.trans ((if_neg fun hl => absurd ((hn hl.1).symm.trans hl.2) (by decide)).trans (if_neg fun h3 => ht h3.1 h3.2))
    rw [hacc, State.acceptTemp_queued _ h (fit hb) available]
    exact hans _

end

/-! Heap commands -/

theorem leastFrom_eq {p : Nat → Bool} {home : Nat} (hp : p home = true) (hleast : ∀ d, d < home → p d = false) (fuel : Nat) :
    ∀ k, k ≤ home → home < k + fuel → leastFrom p fuel k = some home := by
  induction fuel with
  | zero => exact fun k _ h => by omega
  | succ fuel ih =>
    intro k hk h
    rw [leastFrom]
    rcases Nat.lt_or_eq_of_le hk with hlt | rfl
    · rw [if_neg (by rw [hleast k hlt]; decide)]
      exact ih (k + 1) hlt (by omega)
    · rw [if_pos hp]

/-- R374: the home die of a grid is the lowest of its mask. -/
theorem leastBelow_eq {p : Nat → Bool} {n home : Nat} (hn : home < n) (hp : p home = true) (hleast : ∀ d, d < home → p d = false) :
    leastBelow n p = some home :=
  leastFrom_eq hp hleast n 0 (Nat.zero_le _) (by omega)

section
variable {s : State} {c : Nat}

/-- R383: the way of an operation on a handle. -/
theorem State.sendHandle_no_heap (k : EngCmd) (h : s.heapGridOf c k.slot = none) (handle : Word) (op : HeapOp) :
    s.sendHandle c k handle op = s.sendHeap c k (dieOf c) 20 (.refuse 1 handle) := by
  simp only [State.sendHandle, h]

theorem State.sendHandle_task (k : EngCmd) {hg : HeapGrid} (h : s.heapGridOf c k.slot = some hg) {handle : Word}
    (ht : (s.taskOf hg handle).isSome = true) (op : HeapOp) :
    s.sendHandle c k handle op = s.sendHeap c k (handleDie handle) (if dieOf c = handleDie handle then 20 else 100) op := by
  obtain ⟨t, ht⟩ := Option.isSome_iff_exists.1 ht
  simp only [State.sendHandle, h, ht, heapDelay]

theorem State.sendHandle_no_task (k : EngCmd) {hg : HeapGrid} (h : s.heapGridOf c k.slot = some hg) {handle : Word} (ht : s.taskOf hg handle = none)
    (op : HeapOp) : s.sendHandle c k handle op = s.sendHeap c k (dieOf c) 20 op := by
  simp only [State.sendHandle, h, ht]

end

end Sys2Proof.Machine

open Sys2Proof Sys2Proof.Machine

/-- Settles O31: each temporal command by its opcode, its bad operands and its operation on the array. -/
theorem temporalCommands : Obligations.TemporalCommands := by
  unfold Obligations.TemporalCommands
  intro s c sl idx sel chain segs a b t1 t0 arr g fault queued
  have spec (op : EngOp) (opc : Nat) (bad : Prop) (top : TempOp) := State.acceptTemp_spec (s := s) (c := c) (sl := sl) (idx := idx)
    (op := op) (t1 := t1) (t0 := t0) (opc := opc) (bad := bad) (top := top)
    (v := dword (BitVec.ofNat 10 (min a.toNat 1023)).toNat)
  refine List.forall_mem_cons.2 ⟨?_, List.forall_mem_cons.2 ⟨?_, List.forall_mem_cons.2 ⟨?_, List.forall_mem_cons.2 ⟨?_,
    List.forall_mem_cons.2 ⟨?_, List.forall_mem_cons.2 ⟨?_, List.forall_mem_cons.2 ⟨?_, List.forall_mem_nil _⟩⟩⟩⟩⟩⟩⟩
  · exact spec (.twin a b) 0xd9 _ _ rfl rfl (tempBad_twin a b) (by simp [tempUnavailable, TempArray.refuses]) rfl (by simp)
      fun z => by simp [tempAnswer]
  · exact spec (.tload sel segs b) 0xda _ _ rfl rfl (tempBad_tload sel segs b) (by simp [tempUnavailable, TempArray.refuses])
      (tempOpOf_tload sel segs b) (by simp) fun z => by simp [tempAnswer]
  · exact spec (.tlaunch chain) 0xdb False _ rfl rfl (by simp [tempBad])
      (by simp [tempUnavailable, TempArray.refuses, TempArray.offline]) rfl (fun _ => id) fun z => by simp [tempAnswer]
  · exact spec (.tcap segs) 0xdc False _ rfl rfl (by simp [tempBad]) (by simp [tempUnavailable, TempArray.refuses]) rfl (fun _ => id)
      fun z => by simp [tempAnswer]
  · exact spec .trst 0xdd False _ rfl rfl (by simp [tempBad]) (by simp [tempUnavailable, TempArray.refuses]) rfl (fun _ => id)
      fun z => by simp [tempAnswer]
  · exact spec (.tcode a b) 0xde _ _ rfl rfl (tempBad_tcode a b) (by simp [tempUnavailable, TempArray.refuses])
      (tempOpOf_tcode a b) (by simp) fun z => by simp [tempAnswer]
  · exact spec (.tval a) 0xdf False _ rfl rfl (by simp [tempBad]) (by simp [tempUnavailable, TempArray.refuses]) rfl (fun _ => id)
      fun z => by simp [tempAnswer, Inst.perform]

/-- Settles O32: the way of each heap command, by the heap of its grid and its handle. -/
theorem heapCommands : Obligations.HeapCommands := by
  unfold Obligations.HeapCommands
  intro s c sl idx segs h v b t1 t0 hg k sentOf sent own die
  have dep : s.acceptCmd c (k (.hdep h)) = s.sendHandle c (k (.hdep h)) h (.dep h) := rfl
  have gain (n : Nat) : s.acceptCmd c (k (.hgain n h v)) = s.sendHandle c (k (.hgain n h v)) h (.gain n h v) := rfl
  have heap (op : EngOp) (die delay : Nat) (o : HeapOp) : s.sendHeap c (k op) die delay o = sent die delay o := rfl
  have hown : dieOf c = own := rfl
  have hdie : handleDie h = die := rfl
  refine ⟨fun hno => ⟨?_, ?_, fun bs hbs => ?_, ?_⟩, fun hheap => ⟨fun n _ ht => ⟨?_, ?_⟩, fun ht => ⟨?_, fun n => ?_⟩,
    fun bs hbs => ?_, fun home hlt hmask hleast => ?_⟩, fun hnone => ?_, fun ht => ?_, fun ht => ?_⟩
  · rw [dep, State.sendHandle_no_heap (k (.hdep h)) hno, heap, hown]
  · rw [gain, State.sendHandle_no_heap (k (.hgain _ h v)) hno, heap, hown]
  · simp only [State.acceptCmd, k, State.acceptHspawn, hbs, hno]
    rfl
  · simp only [State.acceptCmd, k, State.acceptHresid, hno]
    rfl
  · rw [gain, State.sendHandle_task (k (.hgain _ h v)) hheap ht, heap, hown, hdie]
  · rw [dep, State.sendHandle_task (k (.hdep h)) hheap ht, heap, hown, hdie]
  · rw [dep, State.sendHandle_no_task (k (.hdep h)) hheap ht, heap, hown]
  · rw [gain, State.sendHandle_no_task (k (.hgain _ h v)) hheap ht, heap, hown]
  · have field : bitsOf b.toNat 55 32 = b.toNat / 2 ^ 32 % 2 ^ 24 := rfl
    simp only [State.acceptCmd, k, State.acceptHspawn, hbs, hheap, field, ← BitVec.ofNat_toNat]
    rfl
  · have least : leastBelow 8 (fun d => hg.mask.getLsbD d) = some home := leastBelow_eq hlt hmask hleast
    simp only [State.acceptCmd, k, State.acceptHresid, hheap, least, Option.getD_some]
    rfl
  · simp only [State.acceptCmd, k, State.acceptHspawn, hnone]
    rfl
  · simp only [State.acceptCmd, k, State.acceptHself, ht]
  · simp only [State.acceptCmd, k, State.acceptHself, ht] <;> rfl

end

section
/-! What the caches, the directories and the requests for lines change: no thread, no group, no time. -/

namespace Sys2Proof.Machine

/-- A region without the marks of its stale inputs (R342). -/
def Region.unmarked (r : Region) : Region := { r with inputs := r.inputs.map fun i => { i with stale := false } }

/-- A core without its L1 and the marks of stale inputs. -/
def Core.uncached (x : Core) : Core := { x with l1 := [], regions := Tbl.mapVals (fun _ r => r.unmarked) x.regions }

/-- A die without its L2 and its directory. -/
def Die.uncached (x : Die) : Die :=
  { x with l2 := [], nc := [], ncDirty := [], dir := [], filter := [], granules := [], dirQ := [], grants := [], wanted := [],
           classes := [] }

/-- `t` is `s` but for the lines that the caches and the directories hold, the marks of stale inputs and what is urgent. -/
structure CacheOnly (s t : State) : Prop where
  rest : { t with cores := [], dies := [], urgent := [] } = { s with cores := [], dies := [], urgent := [] }
  core : ∀ c, (t.core c).uncached = (s.core c).uncached
  die : ∀ d, (t.die d).uncached = (s.die d).uncached

namespace CacheOnly

variable {s t u : State}

theorem refl (s : State) : CacheOnly s s := ⟨rfl, fun _ => rfl, fun _ => rfl⟩

theorem trans (h : CacheOnly s t) (h' : CacheOnly t u) : CacheOnly s u :=
  ⟨h'.rest.trans h.rest, fun c => (h'.core c).trans (h.core c), fun d => (h'.die d).trans (h.die d)⟩

theorem foldl {β : Type} (f : State → β → State) (h : ∀ s b, CacheOnly s (f s b)) (l : List β) (s : State) :
    CacheOnly s (l.foldl f s) :=
  foldl_invariant (CacheOnly s) f l (fun a b _ ha => ha.trans (h a b)) (refl s)

theorem modDie (s : State) (d : Nat) {f : Die → Die} (hf : ∀ x, (f x).uncached = x.uncached) : CacheOnly s (s.modDie d f) := by
  refine ⟨rfl, fun c => by rw [State.core_modDie], fun e => ?_⟩
  by_cases he : e = d
  · rw [he, State.die_modDie_self, hf]
  · rw [State.die_modDie_ne _ _ he]

theorem modCore (s : State) (c : Nat) {f : Core → Core} (hf : ∀ x, (f x).uncached = x.uncached) : CacheOnly s (s.modCore c f) := by
  refine ⟨rfl, fun c' => ?_, fun e => by rw [State.die_modCore]⟩
  by_cases hc : c' = c
  · rw [hc, State.core_modCore_self, hf]
  · rw [State.core_modCore_ne _ _ hc]

theorem clk (h : CacheOnly s t) : t.clk = s.clk := (congrArg State.clk h.rest :)
theorem mem (h : CacheOnly s t) : t.mem = s.mem := (congrArg State.mem h.rest :)
theorem grids (h : CacheOnly s t) : t.grids = s.grids := (congrArg State.grids h.rest :)
theorem mgmt (h : CacheOnly s t) : t.mgmt = s.mgmt := (congrArg State.mgmt h.rest :)

theorem threads (h : CacheOnly s t) (c : Nat) : (t.core c).threads = (s.core c).threads := (congrArg Core.threads (h.core c) :)
theorem groups (h : CacheOnly s t) (c : Nat) : (t.core c).groups = (s.core c).groups := (congrArg Core.groups (h.core c) :)
theorem contexts (h : CacheOnly s t) (c : Nat) : (t.core c).contexts = (s.core c).contexts := (congrArg Core.contexts (h.core c) :)

theorem same (h : CacheOnly s t) : SameThreads s t := fun c => ⟨h.threads c, h.groups c⟩
theorem thread (h : CacheOnly s t) (c sl : Nat) : t.thread c sl = s.thread c sl := h.same.thread c sl
theorem group (h : CacheOnly s t) (c g : Nat) : t.group c g = s.group c g := h.same.group c g
theorem tiles (h : CacheOnly s t) (d : Nat) : (t.die d).tiles = (s.die d).tiles := (congrArg Die.tiles (h.die d) :)

end CacheOnly

/-! Lines that leave an L1 -/

theorem Tbl.mapVals_mapVals {α : Type} (f g : Nat → α → α) (t : Tbl α) :
    Tbl.mapVals f (Tbl.mapVals g t) = Tbl.mapVals (fun k x => f k (g k x)) t := by
  simp [Tbl.mapVals]

theorem Region.unmarked_staleAt (r : Region) (p : Nat → Bool) : (r.staleAt p).unmarked = r.unmarked := by
  simp only [Region.unmarked, Region.staleAt, List.map_map]
  congr 1
  refine List.map_congr_left fun i _ => ?_
  dsimp only [Function.comp_apply]
  split <;> rfl

theorem State.leaveL1_cacheOnly (s : State) (p q : Nat → Bool) : CacheOnly s (s.leaveL1 p q) := by
  refine ⟨rfl, fun c => ?_, fun _ => rfl⟩
  simp only [State.leaveL1, State.core, Tbl.get, Tbl.find?_mapVals]
  cases Tbl.find? s.cores c with
  | none => rfl
  | some x => simp [Core.uncached, Tbl.mapVals_mapVals, Region.unmarked_staleAt]

theorem State.dropL1_cacheOnly (s : State) (d line : Nat) (keep : Option Nat) : CacheOnly s (s.dropL1 d line keep) :=
  (s.leaveL1_cacheOnly _ _).trans (.modDie _ _ fun _ => rfl)

theorem State.dropLine_cacheOnly (s : State) (d line : Nat) : CacheOnly s (s.dropLine d line) :=
  (s.dropL1_cacheOnly d line none).trans (.modDie _ _ fun _ => rfl)

/-! The directories -/

theorem State.evictRegion_cacheOnly (s : State) (h region : Nat) : CacheOnly s (s.evictRegion h region) := by
  unfold State.evictRegion
  split
  · exact .refl s
  · split
    · exact .refl s
    · dsimp only
      refine CacheOnly.trans (.foldl _ (fun s d => ?_) _ s) (.modDie _ _ fun _ => rfl)
      exact .foldl _ (fun s i => s.dropLine_cacheOnly d _) _ s

theorem State.dirRoom_cacheOnly (s : State) (h region : Nat) : CacheOnly s (s.dirRoom h region) := by
  unfold State.dirRoom
  dsimp only
  split
  · exact .refl s
  · split
    · exact s.evictRegion_cacheOnly _ _
    · exact .refl s

theorem State.setDir_cacheOnly (s : State) (h line : Nat) (e : DirEntry) : CacheOnly s (s.setDir h line e) := by
  unfold State.setDir
  split
  · exact .modDie _ _ fun _ => rfl
  · exact (s.dirRoom_cacheOnly _ _).trans (.modDie _ _ fun _ => rfl)

theorem State.setHostDir_cacheOnly (s : State) (d line : Nat) (held own : Bool) : CacheOnly s (s.setHostDir d line held own) := by
  unfold State.setHostDir
  split
  · exact .refl s
  · exact .modDie _ _ fun _ => rfl

theorem State.dropHost_cacheOnly (s : State) (d line : Nat) : CacheOnly s (s.dropHost d line) :=
  (s.dropLine_cacheOnly d line).trans (State.setHostDir_cacheOnly _ _ _ _ _)

theorem State.hostGrant_cacheOnly (s : State) (line d : Nat) (write : Bool) : CacheOnly s (s.hostGrant line d write) := by
  unfold State.hostGrant
  split
  · dsimp only
    refine CacheOnly.trans (CacheOnly.trans ?_ (State.setHostDir_cacheOnly _ _ _ _ _)) (.modDie _ _ fun _ => rfl)
    split
    · refine CacheOnly.foldl _ (fun s x => ?_) _ s
      split
      · exact .refl s
      · exact s.dropHost_cacheOnly _ _
    · refine CacheOnly.foldl _ (fun s x => ?_) _ s
      split
      · exact s.setHostDir_cacheOnly _ _ _ _
      · exact .refl s
  · exact .refl s

theorem State.dirGrant_cacheOnly (s : State) (line d : Nat) (write : Bool) : CacheOnly s (s.dirGrant line d write) := by
  unfold State.dirGrant
  split
  · exact s.hostGrant_cacheOnly _ _ _
  · dsimp only
    split
    · refine CacheOnly.trans (CacheOnly.foldl _ (fun s x => ?_) _ s) (State.setDir_cacheOnly _ _ _ _)
      split
      · exact .refl s
      · exact s.dropLine_cacheOnly _ _
    · exact s.setDir_cacheOnly _ _ _

/-! The granules (R434) -/

theorem State.setGranule_cacheOnly (s : State) (g : Nat) (v : BitVec 13) : CacheOnly s (s.setGranule g v) := by
  unfold State.setGranule
  split
  · dsimp only
    refine CacheOnly.trans ?_ (.modDie _ _ fun _ => rfl)
    refine ⟨rfl, fun _ => rfl, fun d => ?_⟩
    simp only [State.die, Tbl.get, Tbl.find?_mapVals]
    cases Tbl.find? s.dies d <;> rfl
  · exact .refl s

theorem State.keepClass_cacheOnly (s : State) (line : Nat) : CacheOnly s (s.keepClass line) := by
  unfold State.keepClass
  split
  · split
    · exact .refl s
    · exact .modDie _ _ fun _ => rfl
  · exact .refl s

theorem State.flushGranule_cacheOnly (s : State) (g : Nat) (cls : BitVec 13) : CacheOnly s (s.flushGranule g cls) :=
  (s.leaveL1_cacheOnly _ _).trans (State.setGranule_cacheOnly _ _ _)

theorem State.touch_cacheOnly (s : State) (c line : Nat) : CacheOnly s (s.touch c line) := by
  unfold State.touch
  dsimp only
  split
  · exact .refl s
  · split
    · exact (s.setGranule_cacheOnly _ _).trans (State.keepClass_cacheOnly _ _)
    · exact s.keepClass_cacheOnly _

theorem State.touchOther_cacheOnly (s : State) (line : Nat) : CacheOnly s (s.touchOther line) := by
  unfold State.touchOther
  dsimp only
  split
  · exact .refl s
  · split
    · exact s.keepClass_cacheOnly _
    · exact (s.flushGranule_cacheOnly _ _).trans (State.keepClass_cacheOnly _ _)

theorem State.wantGranule_cacheOnly (s : State) (g : Nat) : CacheOnly s (s.wantGranule g) := by
  unfold State.wantGranule
  split
  · exact .modDie _ _ fun _ => rfl
  · exact .refl s

/-! Asking for lines and taking them -/

theorem State.askHome_cacheOnly (s : State) (d line : Nat) (write : Bool) : CacheOnly s (s.askHome d line write) := by
  unfold State.askHome
  split
  · exact .refl s
  · refine .modDie _ _ fun x => ?_
    split <;> rfl

theorem State.takeLine_cacheOnly (s : State) (who : Option Nat) (d line : Nat) (write : Bool) :
    CacheOnly s (s.takeLine who d line write) := by
  unfold State.takeLine
  have granted (t : State) : CacheOnly t (if (t.granuleOwner (line / 512)).isSome then t else t.dirGrant line d write) := by
    split
    · exact .refl t
    · exact t.dirGrant_cacheOnly _ _ _
  cases who with
  | some c => exact ((s.touch_cacheOnly c line).trans (granted _)).trans (.modDie _ _ fun _ => rfl)
  | none => exact ((s.touchOther_cacheOnly line).trans (granted _)).trans (.modDie _ _ fun _ => rfl)

theorem State.obtainAt_cacheOnly (s : State) (who : Option Nat) (d : Nat) (lines : List Nat) (write : Bool) :
    CacheOnly s (s.obtainAt who d lines write).1 := by
  simp only [State.obtainAt]
  split
  · exact .foldl _ (fun s l => s.takeLine_cacheOnly who d l write) _ s
  · refine .foldl _ (fun s r => ?_) _ s
    split
    · exact .refl s
    · exact s.wantGranule_cacheOnly _
    · exact s.askHome_cacheOnly _ _ _

theorem State.obtain_cacheOnly (s : State) (c : Nat) (gs : List Seg) (write : Bool) : CacheOnly s (s.obtain c gs write).1 :=
  s.obtainAt_cacheOnly _ _ _ _

theorem State.obtainUnit_cacheOnly (s : State) (d : Nat) (gs : List Seg) (write : Bool) : CacheOnly s (s.obtainUnit d gs write).1 :=
  s.obtainAt_cacheOnly _ _ _ _

/-! Holding lines -/

theorem State.urge_cacheOnly (s : State) (k : Choice) : CacheOnly s (s.urge k) := ⟨rfl, fun _ => rfl, fun _ => rfl⟩

theorem State.enterL2_cacheOnly (s : State) (d : Nat) (lines : List Nat) : CacheOnly s (s.enterL2 d lines) := by
  unfold State.enterL2
  dsimp only
  refine CacheOnly.trans ?_ (.foldl _ (fun s l => s.urge_cacheOnly _) _ _)
  exact .modDie _ _ fun _ => rfl

theorem State.filterRoom_cacheOnly (s : State) (d line : Nat) : CacheOnly s (s.filterRoom d line) := by
  unfold State.filterRoom State.evictFilter
  dsimp only
  split
  · exact .refl s
  · split
    · split
      · exact s.dropL1_cacheOnly _ _ _
      · exact .refl s
    · exact .refl s

theorem State.holdL1_cacheOnly (s : State) (c : Nat) (lines : List Nat) : CacheOnly s (s.holdL1 c lines) := by
  unfold State.holdL1
  refine .foldl _ (fun s l => ?_) _ s
  dsimp only
  have entered : CacheOnly s (s.modCore (s.l1Core c l) fun x => { x with l1 := l :: x.l1.filter (· != l) }) :=
    .modCore _ _ fun _ => rfl
  have kept {t : State} (ht : CacheOnly s t) (old : List Nat) : CacheOnly s
      (if old.isEmpty then t else t.leaveL1 (· == s.l1Core c l) old.contains) := by
    split
    · exact ht
    · exact ht.trans (t.leaveL1_cacheOnly _ _)
  have noted {t : State} (ht : CacheOnly s t) {f : Die → Die} (hf : ∀ x, (f x).uncached = x.uncached) : CacheOnly s
      (if (s.granuleOwner (l / 512)).isSome then t else (t.filterRoom (dieOf c) l).modDie (dieOf c) f) := by
    split
    · exact ht
    · exact (ht.trans (t.filterRoom_cacheOnly _ _)).trans (.modDie _ _ hf)
  exact noted (kept entered _) fun _ => rfl

theorem State.cacheLines_cacheOnly (s : State) (c : Nat) (l1 : Bool) (gs : List Seg) : CacheOnly s (s.cacheLines c l1 gs) := by
  unfold State.cacheLines
  dsimp only
  refine CacheOnly.trans ?_ (.foldl _ (fun s l => s.enterL2_cacheOnly _ _) _ _)
  split
  · exact s.holdL1_cacheOnly _ _
  · exact .refl s

theorem State.holdNc_cacheOnly (s : State) (d : Nat) (gs : List Seg) : CacheOnly s (s.holdNc d gs) := by
  unfold State.holdNc
  dsimp only
  split
  · exact .refl s
  · refine CacheOnly.trans ?_ (State.enterL2_cacheOnly _ _ _)
    exact .modDie _ _ fun _ => rfl

theorem State.walkReads_cacheOnly (s : State) (d root vpn : Nat) : CacheOnly s (s.walkReads d root vpn) :=
  (CacheOnly.foldl _ (fun s l => (s.touchOther_cacheOnly l).trans (State.dirGrant_cacheOnly _ _ _ _)) _ s).trans
    (State.enterL2_cacheOnly _ _ _)

theorem State.tileObtain_cacheOnly (s : State) (die : Nat) (q : AtomicReq) : CacheOnly s (s.tileObtain die q).1 := by
  unfold State.tileObtain
  dsimp only
  generalize (if q.mt = .coherent then cacheLinesOf s q.segs else []) = lines
  split
  · refine (s.obtainAt_cacheOnly (some q.core) die lines true).trans ?_
    refine .foldl _ (fun s l => ?_) lines _
    exact ((s.leaveL1_cacheOnly _ _).trans (State.dropL1_cacheOnly _ _ _ _)).trans (State.enterL2_cacheOnly _ _ _)
  · exact s.obtainAt_cacheOnly _ _ _ _

end Sys2Proof.Machine
end

section
/-! The return of a load (O33). -/

namespace Sys2Proof.Machine

/-- R131, R133: a request that is spent, of an instance that may be squashed: a squashed one gets nulls. -/
theorem State.finishReq_squashed {u : State} {c sl : Nat} {x : Inst} (hx : (u.thread c sl).inst = some x) (hs : x.squash ≠ none)
    (r : Req) (v1 v0 : Token) : u.finishReq c sl r.idx r.t1 r.t0 v1 v0 =
      u.modThread c sl fun t => { t with inst := some (x.spends u.clk r nullTok nullTok) } := by
  rw [State.finishReq, State.modInst_eq hx]
  refine State.modThread_congr ?_
  simp [Option.isSome_iff_ne_none.2 hs, Inst.dropReq, Inst.complete, Inst.spends]

/-- The bytes of lines that are not the die's own copies are those of memory. -/
theorem segPlaces_eq {gs : List Seg} (h : ∀ g ∈ gs, g.nc = false) : segPlaces gs = (segLocs gs).map fun l => (l, false) := by
  induction gs with
  | nil => rfl
  | cons g t ih =>
    rw [List.forall_mem_cons] at h
    simp [segPlaces, segLocs, ih h.2, h.1, Function.comp_def]

theorem length_segLocs (gs : List Seg) : (segLocs gs).length = segLen gs := by
  rw [segLen, ← List.sum_eq_foldl]
  induction gs with
  | nil => rfl
  | cons g t ih => simp [segLocs, ih]

/-- R258: the bytes that a read of coherent places has. -/
theorem State.readBytes_eq {s : State} {gs : List Seg} (h : ∀ g ∈ gs, g.nc = false) (hp : s.segsPoisoned gs = false) (d : Nat)
    (nc : Bool) : s.readBytes d nc gs = some (s.rdSegs gs) := by
  simp [State.readBytes, hp, segPlaces_eq h, State.rdSegs, State.byteAt, Function.comp_def]

/-- R344: the locks of a thread's own region do not hold it back. -/
theorem State.mustWait_region {s : State} {gs : List Seg} {c : Nat} (h : s.mustWait gs c none = false) (k : Option Nat) :
    s.mustWait gs c k = false := by
  simp only [State.mustWait, Bool.or_eq_false_iff, State.lineHeld, List.any_eq_false] at h ⊢
  obtain ⟨⟨hl, ha⟩, hp⟩ := h
  refine ⟨⟨fun l hm => ?_, ha⟩, hp⟩
  have := hl l hm
  simp only [Bool.or_eq_true, not_or, List.any_eq_true, not_exists] at this ⊢
  refine ⟨fun e ⟨he, hb⟩ => this.1 e ⟨he, ?_⟩, this.2⟩
  simp only [Bool.and_eq_true] at hb ⊢
  exact ⟨hb.1, by simp⟩

/-- A thread in flight that is changed to itself. -/
theorem State.modThread_id {s : State} {c sl : Nat} {x : Inst} (h : (s.thread c sl).inst = some x) :
    s.modThread c sl id = s := by
  rw [State.modThread, State.modCore, Core.modThread]
  exact (congrArg (s.setCore c) (Core.setThread_self h)).trans (State.setCore_self h)

/-- The value of a load outside a region has no tag. -/
theorem sizedTok_untagged (bytes v : Nat) : { sizedTok bytes v with tag := none } = sizedTok bytes v := by
  unfold sizedTok
  split
  · rfl
  · rfl

section
variable {s : State} {c sl : Nat} {va : DWord} {bytes epoch : Nat} {segs : List Seg} {mt : MemType} {home l1 acq : Bool}
  (hw : s.mustWait segs c (s.thread c sl).region = false)
  (ha : acq = true → ∀ e ∈ (s.thread c sl).buf, e.committed = false ∨ e.seen = false) (hm : mt ≠ .device)
include hw ha

theorem State.readStep_awake : (s.mustWait segs c (s.thread c sl).region || (acq && (s.thread c sl).buf.any fun e => e.committed && e.seen)) =
    false := by
  rw [hw, Bool.false_or]
  cases acq with
  | false => rfl
  | true =>
    refine List.any_eq_false.2 fun e he => ?_
    rcases ha rfl e he with h | h <;> simp [h]

include hm

/-- R242: a read whose bytes are all those of the thread's stores. -/
theorem State.readStep_buffer {bs : List Byte} (hf : forwardAt (s.thread c sl).buf epoch segs = .buffer bs)
    (hq : acq = false) : s.readStep c sl epoch home l1 acq va bytes segs mt [] =
      .done (s.modThread c sl fun t => t.markSeen epoch segs) (some bs) := by
  subst hq
  simp only [State.readStep, State.readStep_awake hw ha, hm]
  simp [hf]

/-- R258: a read of coherent memory in one part. -/
theorem State.readStep_memory {u : State} (hf : forwardAt (s.thread c sl).buf epoch segs = .memory) (hc : mt = .coherent)
    (hh : home = false) (hsplit : isSplit va bytes mt = false) (hl : segLen segs = bytes) (hn : ∀ g ∈ segs, g.nc = false)
    (hp : s.segsPoisoned segs = false) (ho : s.obtain c segs false = (u, true)) :
    s.readStep c sl epoch home l1 acq va bytes segs mt [] = .done (u.cacheLines c l1 segs) (some (s.rdSegs segs)) := by
  subst hc hh
  simp only [State.readStep, State.readStep_awake hw ha, hsplit]
  have hlen : ¬ (s.rdSegs segs).length < bytes := by simp [State.rdSegs, length_segLocs, hl]
  simp [hf, ho, State.readBytes_eq hn hp, hlen, Function.comp_def]

end

end Sys2Proof.Machine

open Sys2Proof Sys2Proof.Machine

/-- Settles O33: by the two places that the bytes of a load come from, the buffered stores and memory; the lines that a load
takes leave its thread as it was. -/
theorem loadReturns : Obligations.LoadReturns := by
  unfold Obligations.LoadReturns
  intro s u c sl k x r hargs hx hr hload hstage hdue
  dsimp only
  have run {v : State} (hv : v.args = s.args) : exec .loadReturn v = .next (v.loadReturn c sl k) := by
    simp [exec, execLoadReturn, State.arg, hv, hargs]
  obtain rfl : r.idx = k := by simpa using List.find?_some hr
  have ready : (!r.kind.isLoad || r.stage != .ready || decide (s.clk < r.due)) = false := by simp [hload, hstage, hdue]
  refine ⟨fun clk h => ?_, fun hs => ?_, fun hs hreg hw hm hgot hfirst hseen => ?_⟩
  · have early : ({ s with clk := clk } : State).loadReturn c sl r.idx = { s with clk := clk } := by
      have hx' : (({ s with clk := clk } : State).thread c sl).inst = some x := hx
      simp [State.loadReturn, hx', hr, h]
    exact (run (v := { s with clk := clk }) rfl).trans (congrArg Host.Outcome.next early)
  · rw [run rfl, State.loadReturn, hx]
    simp only [hr, ready, Option.isSome_iff_ne_none.2 hs]
    simp only [Bool.false_eq_true, if_false, if_true]
    rw [State.finishReq_squashed hx hs]
    rfl
  · have awake := State.mustWait_region hw (s.thread c sl).region
    have answered {w : State} {f : Thread → Thread} {bs : List Byte} (hclk : w.clk = s.clk)
        (hf : (f (w.thread c sl)).inst = some x)
        (h : s.readStep c sl (s.thread c sl).epoch (r.kind == .loadNc) (r.kind != .lds) r.kind.acquiresWide r.va r.bytes r.segs
          r.mt r.got = .done (w.modThread c sl f) (some bs)) :
        exec .loadReturn s = .next (w.modThread c sl fun t =>
          { (if r.kind.acquires then (f t).acquire else f t) with
            inst := some (x.spends s.clk r doneTok (sizedTok r.bytes (bytesToNat bs))) }) := by
      have hg : ((if r.kind.acquires then (f (w.thread c sl)).acquire else f (w.thread c sl)) : Thread).inst = some x := by
        split
        · exact hf
        · exact hf
      have hparts : (if r.kind.acquires then (w.modThread c sl f).modThread c sl Thread.acquire else w.modThread c sl f) =
          w.modThread c sl fun t => if r.kind.acquires then (f t).acquire else f t := by
        cases r.kind.acquires with
        | true => exact State.modThread_modThread w c sl f _
        | false => rfl
      rw [run rfl, State.loadReturn, hx]
      simp only [hr, ready, hs, h, hreg, Inst.mayRead, bne_iff_ne.2 hm, Bool.true_or, Bool.not_true, Bool.or_false, hfirst,
        hparts, Bool.false_eq_true, if_false, Option.isSome_none]
      rw [State.finishLoad, State.finishReq_eq hg hs, hclk, sizedTok_untagged]
    refine ⟨fun bs hf hwide => ?_, ?_⟩
    · refine (answered (f := fun t => t.markSeen (s.thread c sl).epoch r.segs) rfl (by simpa [Thread.markSeen] using hx) ?_).trans rfl
      rw [hgot]
      exact State.readStep_buffer awake hseen hm hf hwide
    · intro hf hc hnc hsplit hl hn hp ho
      have obtained : CacheOnly s u := by
        have := s.obtain_cacheOnly c r.segs false
        rwa [ho] at this
      have cached := obtained.trans (u.cacheLines_cacheOnly c (r.kind != .lds) r.segs)
      refine (answered (f := id) cached.clk (by rw [cached.thread]; exact hx) ?_).trans rfl
      rw [hgot, State.readStep_memory awake hseen hm hf hc (beq_eq_false_iff_ne.2 hnc) hsplit hl hn hp ho,
        State.modThread_id (by rw [cached.thread]; exact hx)]

end

section
/-! Later results (O36) fail in one case: an atomic on whole bytes meets poison elsewhere in their line (R272). -/

namespace Sys2Proof.Machine

/-- An atomic add of the first four bytes of memory, at the head of the first tile of die 0. -/
def wholeBytesAtomic : AtomicReq where
  die := 0
  tile := 0
  core := 0
  slot := 0
  idx := 0
  op := .add
  bytes := 4
  segs := [⟨0, 4, false⟩]
  mt := .coherent
  cmp := 0
  data := 0
  ret := false
  came := 0
  due := 0
  behind := false
  answer := none

/-- The module of reset with that atomic, a clk later, where byte 64 of the same line is poisoned. -/
def poisonedLineState : State :=
  { State.reset.modDie 0 fun x => { x with tiles := [wholeBytesAtomic] } with args := [0, 0], clk := 1, poison := [64] }

theorem poisonedLineState_obtains : (poisonedLineState.tileObtain 0 wholeBytesAtomic).2 = true := by decide

/-- The bytes of the atomic are whole. -/
theorem poisonedLineState_whole : poisonedLineState.segsPoisoned wholeBytesAtomic.segs = false := by decide

/-- Its answer is poison. -/
theorem poisonedLineState_answers :
    (((poisonedLineState.tilePerform 0 0).die 0).tiles.map (·.answer)).head? = some (some none) := by decide

end Sys2Proof.Machine

open Sys2Proof Sys2Proof.Machine

/-- Refutes O36: an atomic whose own bytes are whole is answered with poison, and not with the old value, where another byte of
its line is poisoned. -/
theorem not_laterResults : ¬ Obligations.LaterResults := by
  unfold Obligations.LaterResults
  rintro ⟨-, h⟩
  obtain ⟨perform, -⟩ := h poisonedLineState (poisonedLineState.tileObtain 0 wholeBytesAtomic).1 0 0 0 wholeBytesAtomic
  obtain ⟨w, hw, htiles, -⟩ := perform rfl rfl (by decide) (by decide) (by decide) (by decide) rfl (by decide)
    poisonedLineState_whole (Prod.ext rfl poisonedLineState_obtains)
  have answers := poisonedLineState_answers
  rw [show poisonedLineState.tilePerform 0 0 = w from Host.Outcome.next.inj hw, htiles,
    show (poisonedLineState.die 0).tiles = [wholeBytesAtomic] from rfl, replaceAt] at answers
  exact absurd answers (by simp)

end

section
/-! The store buffer: sending and acknowledging (O35). -/

namespace Sys2Proof.Machine

theorem SameThreads.refl (s : State) : SameThreads s s := fun _ => ⟨rfl, rfl⟩

theorem SameThreads.trans {s t u : State} (h : SameThreads s t) (h' : SameThreads t u) : SameThreads s u :=
  fun c => ⟨(h' c).1.trans (h c).1, (h' c).2.trans (h c).2⟩

/-! Sending -/

/-- The first entry of a list, counted from 0, that meets a test. -/
theorem find?_zip_range {α : Type} {l : List α} {p : α → Bool} {k : Nat} {e : α} (he : l[k]? = some e) (hp : p e = true)
    (hbefore : ∀ f ∈ l.take k, p f = false) : (((List.range l.length).zip l).find? fun x => p x.2) = some (k, e) := by
  obtain ⟨hk, rfl⟩ := List.getElem?_eq_some_iff.1 he
  refine List.find?_eq_some_iff_getElem.2 ⟨hp, k, by simpa using hk, by simp, fun j hj => ?_⟩
  rw [List.getElem_zip, hbefore _ (List.mem_take_iff_getElem.2 ⟨j, by omega, rfl⟩)]
  rfl

/-- R241: the entry that is sent next is the oldest committed one that is not sent. -/
theorem Thread.nextSend_eq {t : Thread} {k : Nat} {e : BufEntry} (he : t.buf[k]? = some e) (hc : e.committed = true)
    (hs : e.sent = false) (hbefore : ∀ f ∈ t.buf.take k, f.committed = true → f.sent = true) : t.nextSend = some (k, e) := by
  refine find?_zip_range (p := fun e => e.committed && !e.sent) he (by simp [hc, hs]) fun f hf => ?_
  have := hbefore f hf
  cases hfc : f.committed with
  | false => rfl
  | true => simp [this hfc]

/-! Performing a store -/

theorem State.markStale_same (s : State) (lines : List Nat) : SameThreads s (s.markStale lines) := by
  unfold State.markStale
  split
  · intro c
    simp only [State.core, Tbl.get, Tbl.find?_mapVals]
    cases Tbl.find? s.cores c <;> exact ⟨rfl, rfl⟩
  · exact .refl s

theorem State.putBytes_same (d : Nat) (s : State) (ls : List (Nat × Bool)) (bs : List Byte) :
    SameThreads s (State.putBytes d s ls bs) := by
  induction ls generalizing s bs with
  | nil => exact .refl s
  | cons e t ih =>
    obtain ⟨loc, nc⟩ := e
    cases bs with
    | nil => exact .refl s
    | cons b u =>
      rw [State.putBytes]
      refine SameThreads.trans ?_ (ih _ _)
      split
      · exact (s.holdNc_cacheOnly d [⟨loc, 1, true⟩]).same.trans (State.modDie_same _ _ _)
      · exact fun c => ⟨rfl, rfl⟩

/-- An entry that leaves the buffer of a thread that holds no arrival back. -/
theorem State.ackEntry_eq {s : State} {c sl : Nat} (h : (s.thread c sl).holdArrive = none) (pos : Nat) : s.ackEntry c sl pos =
    s.modThread c sl fun t => { t with buf := removeAt t.buf pos, unacked := t.unacked - 1 } := by
  simp [State.ackEntry, State.arriveHeld, h]

theorem State.performStore_same (s : State) (d : Nat) (gs : List Seg) (bs : List Byte) : SameThreads s (s.performStore d gs bs) :=
  (s.putBytes_same d _ _).trans (State.markStale_same _ _)

/-- R251: a store writes its bytes at their places, and no other byte. -/
theorem State.putBytes_reads (d : Nat) {s : State} (hm : Memory.wf s.mem = true) {ls : List Nat} (hn : ls.Nodup) {bs : List Byte}
    (hl : ls.length = bs.length) :
    (∀ (i l : Nat) (b : Byte), ls[i]? = some l → bs[i]? = some b →
      memRead (State.putBytes d s (ls.map fun l => (l, false)) bs).mem l = b) ∧
    ∀ l, l ∉ ls → memRead (State.putBytes d s (ls.map fun l => (l, false)) bs).mem l = memRead s.mem l := by
  induction ls generalizing s bs with
  | nil => exact ⟨by simp, fun l _ => rfl⟩
  | cons a t ih =>
    cases bs with
    | nil => exact absurd hl (by simp)
    | cons b u =>
      have hput : State.putBytes d s ((a :: t).map fun l => (l, false)) (b :: u) =
          State.putBytes d (s.wr a [b]) (t.map fun l => (l, false)) u := rfl
      have hmem : (s.wr a [b]).mem = memWrite s.mem a b := rfl
      rw [List.nodup_cons] at hn
      obtain ⟨written, kept⟩ := ih (s := s.wr a [b]) (hmem ▸ memWrite_wf a b hm) hn.2 (by simpa using hl)
      rw [hput]
      refine ⟨fun i l v hi hv => ?_, fun l hne => ?_⟩
      · cases i with
        | zero =>
          obtain rfl : a = l := by simpa using hi
          obtain rfl : b = v := by simpa using hv
          rw [kept a hn.1, hmem, memRead_write_self a b hm]
        | succ i => exact written i l v (by simpa using hi) (by simpa using hv)
      · rw [List.mem_cons, not_or] at hne
        rw [kept l hne.2, hmem, memRead_write_ne b hm hne.1]

end Sys2Proof.Machine

open Sys2Proof Sys2Proof.Machine

/-- Settles O35: by the entry that is sent next, and by the bytes that a store puts; the lines that it takes leave its thread as it
was. -/
theorem storeBuffer : Obligations.StoreBuffer := by
  unfold Obligations.StoreBuffer
  refine ⟨fun s c sl k e hargs he hc hs hbefore => ?_, ?_⟩
  · have run (b : Bool) (hb : e.maySend k = b) : exec .storeSend s = .next (if b then s.modThread c sl fun t =>
        { t with buf := replaceAt t.buf k { e with sent := true, sentAt := s.clk }, unacked := t.unacked + 1 } else s) := by
      simp only [exec, execStoreSend, State.arg, hargs, State.storeSend]
      simp [Thread.nextSend_eq he hc hs hbefore, hb]
    refine ⟨fun hk => run true ?_, fun p hk => ⟨fun h0 hr => run true ?_, fun h => run false ?_⟩⟩
    · rcases hk with hk | hk | hk | hk <;> simp [BufEntry.maySend, hk]
    · simp [BufEntry.maySend, hk, h0, hr]
    · simpa [BufEntry.maySend, hk, Classical.or_iff_not_imp_left] using h
  · intro s u c sl k e hargs he hs hk t hold hbehind hw hr hlost hsplit ho
    have obtained : CacheOnly s u := by
      have := s.obtain_cacheOnly c e.segs true
      rwa [ho] at this
    let v : State := ((u.keepOld e.segs).performStore (dieOf c) e.segs e.data).holdL1 c (cacheLinesOf s e.segs)
    have performed : s.performEntry c e = .done v := by
      rcases hk with hk | ⟨p, hk⟩ <;> simp [State.performEntry, hk, hsplit, ho, v]
    have hthread : v.thread c sl = t := by
      have put := (u.keepOld e.segs).performStore_same (dieOf c) e.segs e.data
      exact (((obtained.same.trans (fun _ => ⟨rfl, rfl⟩)).trans put).trans (State.holdL1_cacheOnly _ _ _).same).thread c sl
    have hmem : v.mem = (State.putBytes (dieOf c) (u.keepOld e.segs) (segPlaces e.segs) e.data).mem := by simp [v, State.performStore]
    refine ⟨v.modThread c sl fun t => { t with buf := removeAt t.buf k, unacked := t.unacked - 1 }, ?_, ?_, fun hm hn hnd hl => ?_⟩
    · simp only [exec, execStoreAcknowledge, State.arg, hargs]
      rw [← State.ackEntry_eq (by rw [hthread]; exact hold)]
      have free : (!e.sent || ((s.thread c sl).buf.take k).any (fun f => e.behind f || s.peerBehind e f) ||
          s.mustWait e.segs c (s.thread c sl).region || (s.thread c sl).readsBefore e) = false := by
        rw [hs, show _ = false from hbehind, show _ = false from hw, show _ = false from hr]
        rfl
      simp only [State.storeAck, List.getD_cons_zero, List.getD_cons_succ, he, free, hlost, performed, hthread]
      simp [t, he]
    · simp [hthread]
    · rw [State.modThread_mem, hmem, segPlaces_eq hn]
      exact (State.putBytes_reads (dieOf c) (s := u.keepOld e.segs) (by simpa [State.keepOld, obtained.mem] using hm) hnd hl).imp_right
        fun h l hne => (h l hne).trans (by rw [State.keepOld, obtained.mem])

end

section
/-! Translations, deferred loads, and accesses that nobody answers (O34). -/

namespace Sys2Proof.Machine

/-- R217: what a request that waited for a translation goes on with. -/
theorem State.resumeReq_eq {s : State} {c sl k : Nat} {x : Inst} {r : Req} (hx : (s.thread c sl).inst = some x)
    (hr : x.req? k = some r) : s.resumeReq c sl k =
      if r.kind = .probe then s.passRequest c sl { r with stage := .ready } else s.judgeReq c sl k := by
  simp only [State.resumeReq, hx, hr]

theorem State.fillsTlb_eq {s : State} {c sl k : Nat} {x : Inst} {r : Req} (hx : (s.thread c sl).inst = some x)
    (hr : x.req? k = some r) : s.fillsTlb c sl k = (r.kind != .probe) := by
  simp only [State.fillsTlb, hx, hr]

/-- R221: what a request whose walk found no leaf comes to. -/
theorem State.failWalk_eq {s : State} {c sl k : Nat} {x : Inst} {r : Req} (hx : (s.thread c sl).inst = some x)
    (hr : x.req? k = some r) (hk : r.kind ≠ .probe) (cause : Cause) (why lvl : Nat) : s.failWalk c sl k cause why lvl =
      s.failRequest c sl k ⟨cause, k, if r.kind = .record then r.va else BitVec.ofNat 64 (r.va.toNat + segLen r.segs),
        memDetail k r.row.kind lvl why⟩ r.t1 r.t0 (!r.kind.beforeFire) := by
  simp only [State.failWalk, hx, hr, if_neg hk]

theorem State.arriveHeld_of_none {s : State} {c sl : Nat} (h : (s.thread c sl).holdArrive = none) : s.arriveHeld c sl = s := by
  simp [State.arriveHeld, h]

section
variable {s : State} {c sl k asp vpn : Nat} {x : Inst} {r : Req} (hx : (s.thread c sl).inst = some x) (hr : x.req? k = some r)
include hx hr

/-- R217: the die's TLB answers the one request that waits for the page. -/
theorem dieTlbHit_one {e : TlbEntry} (hargs : s.args = [c, asp, vpn]) (he : tlbFind (s.die (dieOf c)).tlb asp vpn = some e)
    (hw : s.waitingOn c asp vpn = [(sl, k)]) (hdue : r.due ≤ s.clk) : exec .dieTlbHit s =
      .next ((if r.kind != .probe then s.modCore c fun y => { y with tlb := tlbFillCore y.tlb e } else s).resumeReq c sl k) := by
  simp [exec, execDieTlbHit, State.arg, hargs, he, hw, hx, hr, hdue, State.fillsTlb_eq hx hr]

/-- R217: a walk for the one request that waits for the page. -/
theorem walkComplete_one (hargs : s.args = [dieOf c, asp, vpn]) (hm : tlbFind (s.die (dieOf c)).tlb asp vpn = none)
    (hw : s.dieWaiting (dieOf c) asp vpn = [(c, sl, k)]) (hheld : s.walkHeld (s.rootOf c sl) vpn = false)
    (hdue : min (r.due - 24) s.clk + s.walkLatency c (s.rootOf c sl) vpn ≤ s.clk) (hk : r.kind ≠ .probe) :
    exec .walkComplete s = .next
      (let w := s.walkReads (dieOf c) (s.rootOf c sl) vpn
       match s.walk (s.rootOf c sl) (vpn * 2 ^ 16) with
       | .found leaf _ => (w.fillTlbs c asp vpn leaf).resumeReq c sl k
       | .bad why lvl => w.failWalk c sl k .translation why lvl
       | .poison lvl => w.failWalk c sl k .poison 0 lvl) := by
  have since : s.walkSince [(c, sl, k)] = min (r.due - 24) s.clk := by
    simp [State.walkSince, hx, hr, Nat.min_comm]
  have timely : ¬ s.clk < min (r.due - 24) s.clk + s.walkLatency c (s.rootOf c sl) vpn := by omega
  have wait : (s.walkHeld (s.rootOf c sl) vpn || decide (s.clk < min (r.due - 24) s.clk + s.walkLatency c (s.rootOf c sl) vpn)) =
      false := by
    simp [hheld, timely]
  have fills (f : State → Nat × Nat × Nat → State) (w : State) :
      ([(c, sl, k)].filter fun p => s.fillsTlb p.1 p.2.1 p.2.2).foldl f w = f w (c, sl, k) := by
    simp [State.fillsTlb_eq hx hr, hk]
  have done : s.walkComplete (dieOf c) asp vpn =
      (let w := s.walkReads (dieOf c) (s.rootOf c sl) vpn
       match s.walk (s.rootOf c sl) (vpn * 2 ^ 16) with
       | .found leaf _ => (w.fillTlbs c asp vpn leaf).resumeReq c sl k
       | .bad why lvl => w.failWalk c sl k .translation why lvl
       | .poison lvl => w.failWalk c sl k .poison 0 lvl) := by
    simp only [State.walkComplete, hw, hm, since, wait]
    simp only [Option.isSome_none, Bool.false_eq_true, if_false]
    cases s.walk (s.rootOf c sl) (vpn * 2 ^ 16) with
    | found leaf n => exact congrArg (fun v : State => v.resumeReq c sl k) (fills _ _)
    | bad why lvl => rfl
    | poison lvl => rfl
  rw [← done]
  simp [exec, execWalkComplete, State.arg, hargs]

end

end Sys2Proof.Machine

open Sys2Proof Sys2Proof.Machine

/-- Settles O34: one request waits in each of these events; its thread is not changed by the TLBs or by the lines of the walk. -/
theorem translationEvents : Obligations.TranslationEvents := by
  unfold Obligations.TranslationEvents
  refine ⟨fun s c sl k asp vpn x r e hx hr => ⟨fun hargs he hw hdue => ⟨fun hk => ?_, fun hk => ?_⟩, ?_⟩,
    fun s u c sl k hold => ⟨fun d v hargs hd hc hwide hv hroom => ?_, fun x r bs hargs hx hs hr hdue hread => ?_, ?_,
      fun e hargs he hs hout => ?_, fun d hargs hd hret hc hout => ?_⟩⟩
  · have hx' : ((s.modCore c fun y => { y with tlb := tlbFillCore y.tlb e }).thread c sl).inst = some x := by
      rw [State.thread_modCore]
      · exact hx
      · exact fun _ => rfl
    rw [dieTlbHit_one hx hr hargs he hw hdue, if_pos (bne_iff_ne.2 hk), State.resumeReq_eq hx' hr, if_neg hk]
  · rw [dieTlbHit_one hx hr hargs he hw hdue, if_neg (by simp [hk]), State.resumeReq_eq hx hr, if_pos hk]
  · intro hargs hm hw hheld hdue w at_
    refine ⟨fun leaf n hl hth hk => ?_, fun why lvl hl hth hk => ?_, fun lvl hl hth hk => ?_⟩
    · have hx' : ((w.fillTlbs c asp vpn leaf).thread c sl).inst = some x := by
        rw [State.fillTlbs, State.thread_modDie, State.thread_modCore, hth]
        · exact hx
        · exact fun _ => rfl
      rw [walkComplete_one hx hr hargs hm hw hheld hdue hk, hl]
      exact congrArg Host.Outcome.next ((State.resumeReq_eq hx' hr).trans (if_neg hk))
    · rw [walkComplete_one hx hr hargs hm hw hheld hdue hk, hl]
      exact congrArg Host.Outcome.next (State.failWalk_eq (by rw [hth]; exact hx) hr hk _ _ _)
    · rw [walkComplete_one hx hr hargs hm hw hheld hdue hk, hl]
      exact congrArg Host.Outcome.next (State.failWalk_eq (by rw [hth]; exact hx) hr hk _ _ _)
  · have run : exec .deferredFill s = .next (s.answerDeferred c sl k d (some v)) := by
      simp [exec, execDeferredFill, State.arg, hargs, State.deferredFill, hd, hv, hc]
    have slots : d.slots = [d.slot] := by simp [Deferred.slots, hwide]
    have both : (s.modThread c sl fun t => t.setSlot d.slot (v.setWidth 32)).modCore c
        (fun y => y.queueWrites sl [d.slot]) = (s.modCore c fun y => y.queueWrites sl [d.slot]).modThread c sl fun t =>
          t.setSlot d.slot (v.setWidth 32) := by
      rw [State.modThread, State.modThread, State.modCore_modCore, State.modCore_modCore]
      rfl
    have held : ((s.modCore c fun y => y.queueWrites sl [d.slot]).thread c sl).holdArrive = none := by
      rw [State.thread_modCore]
      · exact hold
      · exact fun _ => rfl
    rw [run, State.answerDeferred]
    simp only [hc, slots, hroom, State.fillSlots, hwide, Bool.not_true, Bool.false_eq_true, if_false, both,
      State.modThread_modThread]
    rw [State.arriveHeld_of_none]
    · rfl
    · rw [State.thread_modThread_self]
      exact held
  · simp only [exec, execEretRecordReturn, State.arg, hargs, State.eretReturn]
    simp [hx, hr, hs, Nat.not_lt.2 hdue, hread, State.eretDecide]
  · intro x r hargs hx hs hreg hr hload hstage hout y
    have run : exec .completionTimeout s = .next (s.poisonLoad c sl r) := by
      have plain : (r.kind == .record) = false := by
        cases hk : r.kind with
        | record => rw [hk] at hload; exact absurd hload (by decide)
        | _ => rfl
      simp [exec, execCompletionTimeout, State.arg, hargs, unansweredOf, State.endUnanswered, hx, hr, hout, plain, hload, hstage]
    obtain rfl : r.idx = k := by simpa using List.find?_some hr
    have fails : s.poisonLoad c sl r = (s.modInst c sl fun z => z.addFault
        ⟨.poison, r.idx, r.va, memDetail r.idx r.kind.row.kind 0 0⟩).finishReq c sl r.idx r.t1 r.t0 nullTok nullTok := by
      have cause : (s.modInst c sl fun z =>
            let y := z.addFault ⟨.poison, r.idx, r.va, memDetail r.idx r.kind.row.kind 0 0⟩
            if z.region.isSome then y.abortWith s.clk r.idx 7 0 else y) =
          s.modInst c sl fun z => z.addFault ⟨.poison, r.idx, r.va, memDetail r.idx r.kind.row.kind 0 0⟩ := by
        rw [State.modInst_eq hx, State.modInst_eq hx]
        simp [hreg]
      rw [State.poisonLoad, cause]
    rw [run, fails, State.modInst_eq hx,
      State.finishReq_eq (y := x.addFault ⟨.poison, r.idx, r.va, memDetail r.idx r.kind.row.kind 0 0⟩) rfl (by exact hs)]
  · have run : exec .completionTimeout s = .next ((s.countRefused (dieOf c)).ackEntry c sl k) := by
      simp [exec, execCompletionTimeout, State.arg, hargs, unansweredOf, State.endUnanswered, he, hs, hout]
    rw [run, State.ackEntry_eq]
    simpa [State.countRefused] using hold
  · simp [exec, execCompletionTimeout, State.arg, hargs, unansweredOf, State.endUnanswered, hd, hret, hc, hout, State.answerDeferred]

end

section
/-! Queues, launch records and their completion (O38). -/

namespace Sys2Proof.Machine

/-! Bytes and numbers -/

@[simp] theorem length_natToBytes (n x : Nat) : (natToBytes n x).length = n := by
  induction n generalizing x with
  | zero => rfl
  | succ n ih => simp [natToBytes, ih]

theorem bytesToNat_natToBytes (n x : Nat) : bytesToNat (natToBytes n x) = x % 2 ^ (8 * n) := by
  induction n generalizing x with
  | zero => simp [natToBytes, bytesToNat, Nat.mod_one]
  | succ n ih =>
    rw [natToBytes, bytesToNat, ih, BitVec.toNat_ofNat, Nat.mul_succ, Nat.add_comm (8 * n), Nat.pow_add, Nat.mod_mul]

theorem memReadAll_eq (m : List Host.Cell) (a n : Nat) : memReadAll m a n = (List.range n).map fun i => memRead m (a + i) := by
  induction n generalizing a with
  | zero => rfl
  | succ n ih =>
    rw [memReadAll, ih, List.range_succ_eq_map, List.map_cons, List.map_map]
    simp [Function.comp_def, Nat.add_assoc, Nat.add_comm 1]

@[simp] theorem length_memReadAll (m : List Host.Cell) (a n : Nat) : (memReadAll m a n).length = n := by simp [memReadAll_eq]

/-! An agent's store -/

theorem State.putBytesNc_eq (d : Nat) (s : State) (ls : List Nat) (bs : List Byte) :
    State.putBytesNc d s (ls.map fun l => (l, false)) bs = State.putBytes d s (ls.map fun l => (l, false)) bs := by
  induction ls generalizing s bs with
  | nil => rfl
  | cons a t ih =>
    cases bs with
    | nil => rfl
    | cons b u => exact ih (s.wr a [b]) u

/-- R264: what an agent's store of a run of coherent bytes leaves in memory: these bytes. -/
theorem State.agentStoreNc_reads {s : State} (hm : Memory.wf s.mem = true) (d : Nat) {g : Seg} (hn : g.nc = false) {bs : List Byte}
    (hl : g.len = bs.length) : memReadAll (s.agentStoreNc d [g] bs).mem g.loc g.len = bs := by
  have places : segPlaces [g] = (segLocs [g]).map fun l => (l, false) := segPlaces_eq (by simpa using hn)
  have locs : segLocs [g] = (List.range g.len).map (g.loc + ·) := by simp [segLocs]
  have nodup : (segLocs [g]).Nodup := locs ▸ List.Pairwise.map _ (fun _ _ h he => h (Nat.add_left_cancel he)) List.nodup_range
  have put := (State.putBytes_reads d (s := s.foldAccess 8 true [g]) (by simpa using hm) nodup (bs := bs) (by simp [locs, hl])).1
  rw [← State.putBytesNc_eq, ← places] at put
  have mem : (s.agentStoreNc d [g] bs).mem = (State.putBytesNc d (s.foldAccess 8 true [g]) (segPlaces [g]) bs).mem := by
    simp [State.agentStoreNc, State.performStoreNc]
  rw [memReadAll_eq, mem]
  refine List.ext_getElem (by simp [hl]) fun i hi hi' => ?_
  rw [List.getElem_map, List.getElem_range]
  have hr : i < g.len := by simpa using hi
  exact put i _ _ (by simp [locs, hr]) (List.getElem?_eq_getElem hi')

/-! The head of a queue -/

section
variable {s : State} {q slot : Nat} {r : LaunchRec} {rest : List (Nat × LaunchRec)} (ht : (s.queue q).taken = (slot, r) :: rest)
include ht

/-- R393: a head record that is rejected. -/
theorem State.launchHead_reject {st : Nat} (hv : s.verdict q r = .reject st) : s.launchHead q =
    (s.modQueue q fun y => { y with taken := rest, stage := 0, heapDesc := none, seen := none }).signal q slot (s.queue q).ctx r.done
      st := by
  simp only [State.launchHead, ht, hv]

/-- R393: a head record that starts a grid without a heap. -/
theorem State.launchHead_start (hv : s.verdict q r = .start none) : s.launchHead q =
    ({ s with grids := Tbl.set s.grids s.nextGrid { Grid.reset with queue := q, slot := slot, ctx := (s.queue q).ctx, launch := r },
              nextGrid := s.nextGrid + 1 } : State).modQueue q fun y =>
      { y with taken := rest, stage := 0, heapDesc := none, seen := none, open_ := y.open_ + 1 } := by
  simp only [State.launchHead, ht, hv]

end

section
variable {s : State} {q : Nat} (hs : (s.queue q).stage = 0) (hh : (s.queue q).heapDesc = none)
include hs hh

theorem State.verdict_early {r : LaunchRec} {st : Nat} (h : s.earlyReject (s.ctxEntry (s.queue q).ctx) r = some st) :
    s.verdict q r = .reject st := by
  simp only [State.verdict, hh, hs, h, if_true]

theorem State.verdict_late {r : LaunchRec} (h : s.earlyReject (s.ctxEntry (s.queue q).ctx) r = none)
    (ho : ¬ (r.order = true ∧ 0 < (s.queue q).open_)) (hw : r.wait = 0) :
    s.verdict q r = s.lateVerdict (s.ctxEntry (s.queue q).ctx).root r := by
  have order : (r.order && decide (0 < (s.queue q).open_)) = false := by simpa using ho
  simp [State.verdict, hh, hs, h, order, hw]

end

end Sys2Proof.Machine

open Sys2Proof Sys2Proof.Machine

/-- Settles O38: by the verdict on the head record, one stage after the other. -/
theorem queueEvents : Obligations.QueueEvents := by
  unfold Obligations.QueueEvents
  intro s q ctx x
  refine ⟨fun hargs hq hen hst => ?_, fun hargs hq hen hst => ?_, fun hargs hen => ?_, fun hargs hen => ?_,
    fun slot r rest hargs ht hstage hheap => ?_, fun slot done status => rfl, fun done g mt h8 h0 hj hsafe hp hl hn => ?_⟩
  · simp [exec, execQueueEnable, State.arg, hargs, State.enableQueue, hst]
  · simp [exec, execQueueEnable, State.arg, hargs, State.enableQueue, hst, show (s.queue q).en = false from hen, Nat.not_le.2 hq]
  · simp [exec, execQueueDisable, State.arg, hargs, State.disableQueue, show (s.queue q).en = true from hen]
  · intro slot bs
    have seq : fieldAt (memReadAll s.mem (winLoc (slotOffset q slot)) 256) 255 1 = bytesToNat (bs.drop 255) := by
      rw [fieldAt, List.take_of_length_le (by simp)]
      rfl
    have run : exec .takeRecord s = .next (if bytesToNat (bs.drop 255) = 1 - x.ridx.toNat / 64 % 2 then s.modQueue q fun y =>
        { y with ridx := y.ridx + 1, taken := y.taken ++ [(slot, launchRecOf bs)] } else s) := by
      simp only [exec, execTakeRecord, State.arg, hargs, List.getD_cons_zero, show (s.queue q).en = true from hen, Bool.true_and]
      rw [show fieldAt _ 255 1 = _ from seq]
      simp only [beq_iff_eq]
      rfl
    exact ⟨fun h => run.trans (by rw [if_pos h]), fun h => run.trans (by rw [if_neg h])⟩
  · intro cx rejects
    have run : exec .launchStart s = .next (s.launchHead q) := by simp [exec, execLaunchStart, State.arg, hargs]
    have rejected {st : Nat} (h : s.verdict q r = .reject st) : rejects st := run.trans (congrArg _ (State.launchHead_reject ht h))
    have early {st : Nat} (h : s.earlyReject cx r = some st) : rejects st := rejected (State.verdict_early hstage hheap h)
    refine ⟨fun hen => early ?_, fun hen hbad => early ?_, fun st => early, fun hearly ho hw => ?_, fun hearly ho hw hl => ?_⟩
    · simp [State.earlyReject, hen]
    · have bad : (!r.mbz || r.live = 0 || decide (64 < r.live) || decide (23 < r.prio) || r.wait.toNat % 8 ≠ 0 ||
          r.done.toNat % 8 ≠ 0) = true := by simpa [or_assoc] using hbad
      simp only [State.earlyReject, hen]
      exact if_pos bad
    · have late {st : Nat} (h : s.lateVerdict cx.root r = .reject st) : rejects st :=
        rejected ((State.verdict_late hstage hheap hearly ho hw).trans h)
      refine ⟨fun hu => late ?_, fun img hu hid => late ?_, fun img hu hz => late ?_, fun img st hu hid hz hb hr => late ?_⟩
      · simp only [State.lateVerdict, hu]
      · simp [State.lateVerdict, hu, hid]
      · have bad : (fieldAt img 0 4 ≠ 0x4a444b31 || decide (2 ^ 7 ≤ fieldAt img 6 2) || (img.drop 36).any (· != 0)) = true := by
          rcases hz with hz | ⟨b, hb, hne⟩
          · rw [decide_eq_true hz, Bool.or_true, Bool.true_or]
          · have some_ : ((img.drop 36).any (· != 0)) = true := List.any_eq_true.2 ⟨b, hb, bne_iff_ne.2 hne⟩
            rw [some_, Bool.or_true]
        simp only [State.lateVerdict, hu]
        exact if_pos bad
      · have good : (fieldAt img 0 4 ≠ 0x4a444b31 || decide (2 ^ 7 ≤ fieldAt img 6 2) || (img.drop 36).any (· != 0)) = false := by
          rw [List.any_eq_false.2 fun b hm => by simp [hb b hm], decide_eq_false (Nat.not_le.2 hz)]
          simp [hid]
        simp only [State.lateVerdict, hu, good, hr]
        rfl
    · have verdict := (State.verdict_late hstage hheap hearly ho hw).trans hl
      refine ⟨_, run.trans (congrArg _ (State.launchHead_start ht verdict)), rfl, ?_, ?_, rfl⟩
      · exact Tbl.get_set_self _ _ _ _
      · exact Tbl.get_set_self _ _ _ _
  · have odd : ¬ (done.toNat % 8 ≠ 0 ∨ done = 0) := not_or.2 ⟨Classical.not_not.2 h8, h0⟩
    have added : s.addDone x.ctx done = (s.agentStoreNc 8 [g] (natToBytes 8 (bytesToNat (s.rdSegs [g]) + 1)), true) := by
      rw [State.addDone, if_neg odd, hj]
      exact if_neg (by simp [hp])
    have old : s.rdSegs [g] = memReadAll s.mem g.loc 8 := by simp [State.rdSegs, segLocs, hl, memReadAll_eq, Function.comp_def]
    have written := State.agentStoreNc_reads hsafe 8 hn (bs := natToBytes 8 (bytesToNat (s.rdSegs [g]) + 1)) (by simp [hl])
    rw [hl] at written
    rw [added]
    exact ⟨rfl, by rw [written, bytesToNat_natToBytes, old]⟩

end

section
/-! What the module's agents come to: links, dead dies, peers, the I/O dies (O53). -/

namespace Sys2Proof.Machine

theorem mem_insertNat (n m : Nat) (l : List Nat) : m ∈ insertNat n l ↔ m = n ∨ m ∈ l := by
  induction l with
  | nil => simp [insertNat]
  | cons k t ih =>
    rw [insertNat]
    split
    · next h => simp [h]
    · split
      · simp
      · rw [List.mem_cons, ih, List.mem_cons]
        grind

/-- Is a place the memory of a peer? -/
def State.isPeerAt (s : State) (l : Nat) : Bool := !isSp l && match paKind s l with | .peer _ => true | _ => false

/-- R448: a link that has failed is counted at the end that finds it, and no other die hears of it. -/
theorem State.countLink_rerouted (s : State) (d peer : Nat) :
    ((s.countLink d peer).die d).rerouted = insertNat peer (s.die d).rerouted := by
  simp [State.countLink]

theorem State.countLink_die_ne (s : State) {d e : Nat} (peer : Nat) (h : e ≠ d) : (s.countLink d peer).die e = s.die e :=
  State.die_modDie_ne _ _ h

/-- R446: a die declared dead, of which the driver is notified. -/
theorem State.dieDead_dead (s : State) (d : Nat) : ((s.dieDead d).die d).dead = true := by
  unfold State.dieDead
  split
  · assumption
  · dsimp only
    rw [State.die_modDie_self]

/-- What a die that is declared dead leaves: no core of it, and its notice. -/
theorem State.dieDead_eq {s : State} {d : Nat} (h : (s.die d).dead = false) : ∃ (z : State) (f : Die → Die), s.dieDead d =
    (({ z with cores := z.cores.filter fun e => dieOf e.1 != d } : State).modMgmt fun m =>
      { m with notices := insertNat d m.notices }).modDie d f := by
  unfold State.dieDead
  rw [if_neg (by simp [h])]
  exact ⟨_, _, rfl⟩

theorem State.dieDead_buries {s : State} {d : Nat} (h : (s.die d).dead = false) :
    d ∈ (s.dieDead d).mgmt.notices ∧ ∀ e ∈ (s.dieDead d).cores, dieOf e.1 ≠ d := by
  obtain ⟨z, f, hz⟩ := State.dieDead_eq h
  rw [hz]
  constructor
  · rw [State.modDie_mgmt]
    exact (mem_insertNat d d _).2 (.inl rfl)
  · rw [State.modDie_cores]
    exact fun e he => bne_iff_ne.1 (List.mem_filter.1 he).2

/-- R445: what an access of a peer that does not answer comes to. -/
theorem peerTimeout_eq {s : State} {c sl k n l : Nat} (hargs : s.args = [c, sl, k, n])
    (hfind : (segLocs (s.sentSegs c sl (unansweredOf k n)).1).find? s.isPeerAt = some l) : exec .peerTimeout s =
      .next (if s.clk < (s.sentSegs c sl (unansweredOf k n)).2 + s.peerLimit (l / 2 ^ 40 % 2 ^ 10) then s
        else (s.endUnanswered c sl (unansweredOf k n) s.isPeerAt).agentDead (16 + l / 2 ^ 40 % 2 ^ 10)) := by
  simp only [exec, execPeerTimeout, State.arg, hargs, List.getD_cons_zero, List.getD_cons_succ]
  split
  · next l' h =>
    obtain rfl : l' = l := Option.some.inj (h.symm.trans hfind)
    rfl
  · next h => exact absurd (h.symm.trans hfind) (by simp)

/-- R467: the dies of a list are absent. -/
def State.dropDies (s : State) (l : List Nat) : State := l.foldl (fun s d => s.modDie d fun x => { x with dead := true }) s

theorem State.dropDies_keeps (s : State) (l : List Nat) : (s.dropDies l).mgmt = s.mgmt ∧ (s.dropDies l).mem = s.mem :=
  ⟨foldl_keeps State.mgmt _ (fun _ _ => by rfl) l s, foldl_keeps State.mem _ (fun _ _ => by rfl) l s⟩

theorem State.dropDies_dead (s : State) {l : List Nat} {d : Nat} (h : d ∈ l) : ((s.dropDies l).die d).dead = true := by
  have dies (e : Nat) (t : State) (ht : (t.die d).dead = true ∨ e = d) :
      ((t.modDie e fun x => { x with dead := true }).die d).dead = true := by
    by_cases he : d = e
    · rw [he, State.die_modDie_self]
    · rw [State.die_modDie_ne _ _ he]
      exact ht.resolve_right (Ne.symm he)
  obtain ⟨before, after, rfl⟩ := List.append_of_mem h
  rw [State.dropDies, List.foldl_append, List.foldl_cons]
  exact foldl_invariant (fun t : State => (t.die d).dead = true) _ after (fun t e _ ht => dies e t (.inl ht)) (dies d _ (.inr rfl))

/-- R464: a report changes neither the queues nor what the driver has set up. -/
theorem State.post_keeps (s : State) (r : Report) :
    (s.post r).queues = s.queues ∧ ∃ n, (s.post r).mgmt = { s.mgmt with ringNext := n } := by
  unfold State.post
  dsimp only
  split
  · exact ⟨rfl, s.mgmt.ringNext, rfl⟩
  · exact ⟨by simp only [State.modMgmt, State.wr_queues], s.mgmt.ringNext + 1, by simp only [State.modMgmt, State.wr_mgmt]⟩

theorem State.posts_keep {β : Type} (f : β → Report) (l : List β) (s : State) :
    (l.foldl (fun s b => s.post (f b)) s).queues = s.queues ∧
      ∃ n, (l.foldl (fun s b => s.post (f b)) s).mgmt = { s.mgmt with ringNext := n } := by
  refine foldl_invariant (fun t : State => t.queues = s.queues ∧ ∃ n, t.mgmt = { s.mgmt with ringNext := n }) _ l (fun t b _ ht => ?_)
    ⟨rfl, s.mgmt.ringNext, rfl⟩
  obtain ⟨hq, n, hm⟩ := ht
  obtain ⟨hq', n', hm'⟩ := t.post_keeps (f b)
  exact ⟨hq'.trans hq, n', by rw [hm', hm]⟩

/-- R449: what the standby controller takes over of I/O die 8. -/
def Mgmt.failedOver (m : Mgmt) : Mgmt := { m with ready := false, standby := true, ctxs := [], watch := [], peers := [] }

/-- R449: the controller takes over, and reports every context that was busy. -/
theorem State.failover_eq {s : State} (hs : s.mgmt.standby = false) (hg : s.mgmt.gone.contains 10 = false) :
    ∃ (z : State) (l : List Nat), z.queues = [] ∧
      s.failover = l.foldl (fun s k => s.post ⟨3, 0, identOf 0 0 0 k, 0, 0, 0, []⟩) (z.modMgmt Mgmt.failedOver) := by
  unfold State.failover
  rw [if_neg (by rw [hs, hg]; exact Bool.false_ne_true)]
  refine ⟨_, _, ?_, rfl⟩
  rfl

end Sys2Proof.Machine

open Sys2Proof Sys2Proof.Machine

/-- Settles O53: each event by its guard, and by what it changes of the agents. -/
theorem agentEvents : Obligations.AgentEvents := by
  unfold Obligations.AgentEvents
  intro s a b
  have linked {n : Nat} (hargs : s.args = [a, b, n]) {x : State}
      (h : (if a < s.fitted ∧ (b < s.fitted ∨ b = 8 ∨ b = 9) ∧ a ≠ b ∧ (n = 1 ∨ 8 ≤ Tbl.get 0 (s.die a).retries b) ∧
          !(s.die a).rerouted.contains b then
        let s1 := s.countLink a b
        let s2 := if b < 8 then s1.countLink b a else s1
        let r := (s2.die a).rerouted
        if r.contains 8 && (r.contains 9 || s2.mgmt.gone.contains 10) then s2.agentDead a else s2
      else s) = x) : exec .linkFail s = .next x := by
    simp only [exec, execLinkFail, State.arg, hargs]
    exact congrArg _ h
  have timeout {k n l due : Nat} {segs : List Seg} {u : Unanswered} {v : State} (hu : s.args = [a, b, k, n] ∧ unansweredOf k n = u)
      (hsent : s.sentSegs a b u = (segs, due))
      (hfind : (segLocs segs).find? s.isPeerAt = some l)
      (hv : s.endUnanswered a b u s.isPeerAt = v) :
      let p := l / 2 ^ 40 % 2 ^ 10
      (s.clk < due + s.peerLimit p → exec .peerTimeout s = .next s) ∧
      (due + s.peerLimit p ≤ s.clk → exec .peerTimeout s = .next (v.markGone (16 + p))) := by
    intro p
    obtain ⟨hargs, rfl⟩ := hu
    have small : p < 1024 := Nat.mod_lt _ (by decide)
    have gone : v.agentDead (16 + p) = v.markGone (16 + p) := by
      simp only [State.agentDead, if_neg (show ¬ 16 + p < 8 by omega), if_neg (show ¬ 16 + p < 10 by omega),
        if_neg (show ¬ 16 + p = 10 by omega), if_pos (show 16 ≤ 16 + p ∧ 16 + p < 16 + 1024 by omega)]
    have run := peerTimeout_eq hargs (l := l) (by rw [hsent]; exact hfind)
    rw [hsent, hv] at run
    exact ⟨fun h => run.trans (congrArg _ (if_pos h)), fun h => run.trans (congrArg _ ((if_neg (Nat.not_lt.2 h)).trans gone))⟩
  refine ⟨fun n hargs h => linked hargs ?_, fun n hargs ha hb hb8 hab hn hr hr8 => linked hargs ?_,
    fun n hargs ha ha8 hb hn hr => ⟨fun hr' hg => linked hargs ?_, fun hr' => ?_⟩, fun hargs ha hd i hi => ?_,
    fun n hargs ha => ⟨fun h => ?_, fun hg hn => ?_⟩, fun hargs ha hd habs => ?_, fun k x r l hargs hx hr hload hrec hstage htiles => ?_,
    fun n d l hargs hd hret => ?_, fun hst hg => ?_, ⟨fun h => ?_, fun h => ?_⟩, fun hargs hr hd hst h8 h9 => ?_⟩
  · exact if_neg (by
      rintro ⟨h1, h2, -, h3, -⟩
      rcases h with h | h | h <;> omega)
  · have others : ((s.countLink a b).countLink b a).die a = (s.countLink a b).die a := State.countLink_die_ne _ _ hab
    have kept : (insertNat b (s.die a).rerouted).contains 8 = false := by
      have : 8 ∉ (s.die a).rerouted := by simpa using hr8
      simp only [List.contains_eq_mem, decide_eq_false_iff_not, mem_insertNat, not_or]
      exact ⟨by omega, this⟩
    rw [if_pos ⟨ha, .inl hb, hab, hn, by simpa using hr⟩]
    simp only [if_pos hb8, others, State.countLink_rerouted, kept]
    rfl
  · have one : ((insertNat b (s.die a).rerouted).contains 8 && ((insertNat b (s.die a).rerouted).contains 9 ||
        (s.countLink a b).mgmt.gone.contains 10)) = false := by
      have hg' : 10 ∉ (s.countLink a b).mgmt.gone := by simpa [State.countLink] using hg
      rcases hb with rfl | rfl
      · simp [mem_insertNat, hg', show 9 ∉ (s.die a).rerouted by simpa using hr']
      · simp [mem_insertNat, show 8 ∉ (s.die a).rerouted by simpa using hr']
    rw [if_pos ⟨ha, .inr hb, by omega, hn, by simpa using hr⟩]
    simp only [if_neg (show ¬ b < 8 by omega), State.countLink_rerouted, one]
    rfl
  · have both : ((insertNat b (s.die a).rerouted).contains 8 && ((insertNat b (s.die a).rerouted).contains 9 ||
        (s.countLink a b).mgmt.gone.contains 10)) = true := by
      rcases hb with rfl | rfl
      · simp [mem_insertNat, show 9 ∈ (s.die a).rerouted by simpa using hr']
      · simp [mem_insertNat, show 8 ∈ (s.die a).rerouted by simpa using hr']
    refine ⟨(s.countLink a b).dieDead a, linked hargs ?_, State.dieDead_dead _ _⟩
    rw [if_pos ⟨ha, .inr hb, by omega, hn, by simpa using hr⟩]
    simp only [if_neg (show ¬ b < 8 by omega), State.countLink_rerouted, both]
    simp [State.agentDead, ha8]
  · have run : exec i s = .next (s.dieDead a) := by
      simp only [List.mem_cons, List.not_mem_nil, or_false] at hi
      rcases hi with rfl | rfl
      · simp [exec, execAgentDead, State.arg, hargs, State.agentDead, ha]
      · simp [exec, execHeartbeatMiss, State.arg, hargs, State.agentDead, ha, show a ≠ 8 by omega, show a ≠ 9 by omega]
    exact ⟨_, run, State.dieDead_dead s a, State.dieDead_buries hd⟩
  · have late : (decide (a < Config.dies) && (s.agentGone b || BitVec.ofNat 16 n != Tbl.get 0 s.incarnations b)) = true := by
      rw [decide_eq_true (show a < Config.dies from ha)]
      rcases h with h | h
      · rw [h]
        rfl
      · rw [bne_iff_ne.2 h, Bool.or_true]
        rfl
    simp only [exec, execLateMessage, State.arg, hargs]
    exact congrArg _ (if_pos late)
  · have late : (decide (a < Config.dies) && (s.agentGone b || BitVec.ofNat 16 n != Tbl.get 0 s.incarnations b)) = false := by
      rw [hg, Bool.false_or, hn, bne_self_eq_false, Bool.and_false]
    simp only [exec, execLateMessage, State.arg, hargs]
    exact congrArg _ (if_neg fun h => Bool.false_ne_true (late.symm.trans h))
  · simp only [exec, execAgentBroughtBackUp, State.arg, hargs, List.getD_cons_zero, if_pos ha, hd, habs]
    rfl
  · intro isPeer hfind hany p limit
    have sent : s.sentSegs a b (.read k) = (r.segs, r.due) := by
      have none_ : (s.dies.findSome? fun e => e.2.tiles.find? fun q => q.core == a && q.slot == b && q.idx == k) = none :=
        List.findSome?_eq_none_iff.2 fun e he => by rw [htiles e he]; rfl
      simp only [State.sentSegs, hx, hr, hstage, none_]
      rfl
    have ended : s.endUnanswered a b (.read k) isPeer = s.poisonLoad a b r := by
      simp [State.endUnanswered, hx, hr, hany, hload, hstage, beq_eq_false_iff_ne.2 hrec]
    exact timeout ⟨hargs, by simp [unansweredOf]⟩ sent hfind ended
  · intro isPeer hfind hany p limit
    have sent : s.sentSegs a b (.deferred n) = (d.segs, d.due) := by
      simp [State.sentSegs, hd, hret]
    have ended : s.endUnanswered a b (.deferred n) isPeer = s.answerDeferred a b n d none := by
      simp [State.endUnanswered, hd, hret, hany]
    exact timeout ⟨hargs, by simp [unansweredOf]⟩ sent hfind ended
  · have run : exec .ioDieFailover s = .next s.failover := rfl
    obtain ⟨z, l, hq, hf⟩ := State.failover_eq hst hg
    obtain ⟨hq', n, hm⟩ := State.posts_keep (fun k => ⟨3, 0, identOf 0 0 0 k, 0, 0, 0, []⟩) l (z.modMgmt Mgmt.failedOver)
    rw [← hf] at hq' hm
    exact ⟨_, rfl, by rw [hm]; rfl, by rw [hm]; rfl, hq'.trans hq, by rw [hm]; rfl, by rw [hm]; rfl, by rw [hm]; rfl⟩
  · simp [exec, execModuleReset, h]
  · exact ⟨_, (congrArg Host.Outcome.next (if_pos h) :), rfl, rfl, rfl, rfl, rfl, rfl⟩
  · let bad := (List.range 8).filter fun d => a.testBit d || decide (s.fitted ≤ d)
    let s1 := s.modMgmt fun m => { m with ready := true, absent := bad, standby := false }
    have run : exec .bringUp s = .next (s1.dropDies bad) := by
      simp [exec, execBringUp, State.arg, hargs, hr, hd, hst, h8, h9, s1, bad, State.dropDies]
    obtain ⟨hm, hmem⟩ := s1.dropDies_keeps bad
    refine ⟨_, run, by rw [hm]; rfl, hmem, fun d hd8 hb => s1.dropDies_dead ?_⟩
    exact List.mem_filter.2 ⟨List.mem_range.2 hd8, by simp [hb]⟩

end

section
/-! Directory transactions, probes, flushes and snoops (O52). -/

namespace Sys2Proof.Machine

/-- What a change of a die leaves of every die. -/
theorem State.die_modDie_keeps {γ : Type} (p : Die → γ) (s : State) (d : Nat) {f : Die → Die} (hf : ∀ x, p (f x) = p x) (e : Nat) :
    p ((s.modDie d f).die e) = p (s.die e) := by
  by_cases h : e = d
  · rw [h, State.die_modDie_self, hf]
  · rw [State.die_modDie_ne _ _ h]

/-! The requests that wait in a directory stay while lines are granted -/

theorem State.dropL1_dirQ (s : State) (d line : Nat) (keep : Option Nat) (e : Nat) :
    ((s.dropL1 d line keep).die e).dirQ = (s.die e).dirQ :=
  State.die_modDie_keeps Die.dirQ _ d (fun _ => by rfl) e

theorem State.dropLine_dirQ (s : State) (d line e : Nat) : ((s.dropLine d line).die e).dirQ = (s.die e).dirQ :=
  (State.die_modDie_keeps Die.dirQ _ d (fun _ => by rfl) e).trans (s.dropL1_dirQ d line none e)

theorem State.evictRegion_dirQ (s : State) (h region e : Nat) : ((s.evictRegion h region).die e).dirQ = (s.die e).dirQ := by
  unfold State.evictRegion
  split
  · rfl
  · split
    · rfl
    · refine (State.die_modDie_keeps Die.dirQ _ h (fun _ => by rfl) e).trans ?_
      refine foldl_keeps (fun s : State => (s.die e).dirQ) _ (fun s d => ?_) _ s
      exact foldl_keeps (fun s : State => (s.die e).dirQ) _ (fun s i => s.dropLine_dirQ _ _ e) _ s

theorem State.setDir_dirQ (s : State) (h line : Nat) (x : DirEntry) (e : Nat) : ((s.setDir h line x).die e).dirQ = (s.die e).dirQ := by
  have room : ((s.dirRoom h (line / 4)).die e).dirQ = (s.die e).dirQ := by
    unfold State.dirRoom
    dsimp only
    split
    · rfl
    · split
      · exact s.evictRegion_dirQ _ _ e
      · rfl
  unfold State.setDir
  split
  · exact State.die_modDie_keeps Die.dirQ _ h (fun _ => by rfl) e
  · exact (State.die_modDie_keeps Die.dirQ _ h (fun _ => by rfl) e).trans room

theorem State.setHostDir_dirQ (s : State) (d line : Nat) (held own : Bool) (e : Nat) :
    ((s.setHostDir d line held own).die e).dirQ = (s.die e).dirQ := by
  unfold State.setHostDir
  split
  · rfl
  · exact State.die_modDie_keeps Die.dirQ _ d (fun _ => by rfl) e

theorem State.hostGrant_dirQ (s : State) (line d : Nat) (write : Bool) (e : Nat) :
    ((s.hostGrant line d write).die e).dirQ = (s.die e).dirQ := by
  unfold State.hostGrant
  split
  · dsimp only
    refine (State.die_modDie_keeps Die.dirQ _ _ (fun _ => by rfl) e).trans ((State.setHostDir_dirQ _ _ _ _ _ e).trans ?_)
    split
    · refine foldl_keeps (fun s : State => (s.die e).dirQ) _ (fun s x => ?_) _ s
      split
      · rfl
      · exact (State.setHostDir_dirQ _ _ _ _ _ e).trans (s.dropLine_dirQ _ _ e)
    · refine foldl_keeps (fun s : State => (s.die e).dirQ) _ (fun s x => ?_) _ s
      split
      · exact s.setHostDir_dirQ _ _ _ _ e
      · rfl
  · rfl

theorem State.dirGrant_dirQ (s : State) (line d : Nat) (write : Bool) (e : Nat) :
    ((s.dirGrant line d write).die e).dirQ = (s.die e).dirQ := by
  unfold State.dirGrant
  split
  · exact s.hostGrant_dirQ _ _ _ e
  · dsimp only
    split
    · refine (State.setDir_dirQ _ _ _ _ e).trans (foldl_keeps (fun s : State => (s.die e).dirQ) _ (fun s x => ?_) _ s)
      split
      · rfl
      · exact s.dropLine_dirQ _ _ e
    · exact s.setDir_dirQ _ _ _ e

/-- R433: a request that is granted leaves the directory, and its die holds the grant. -/
theorem State.grantLine_spec (s : State) (h pos : Nat) (r : DirReq) :
    ((s.grantLine h pos r).die h).dirQ = removeAt (s.die h).dirQ pos ∧ r.line ∈ ((s.grantLine h pos r).die r.from_).grants := by
  refine ⟨?_, ?_⟩
  · refine (State.die_modDie_keeps Die.dirQ _ r.from_ (fun _ => by rfl) h).trans ((State.dirGrant_dirQ _ _ _ _ h).trans ?_)
    rw [State.die_modDie_self]
  · rw [State.grantLine, State.die_modDie_self]
    dsimp only
    split
    · next hc => exact List.contains_iff_mem.1 hc
    · simp

/-! The first request of a directory -/

section
variable {s : State} {h : Nat} {r : DirReq} {rest : List DirReq} (hq : (s.die h).dirQ = r :: rest)
include hq

theorem State.directory_ends (hb : r.begun = true) (hw : r.waiting = []) : s.directory h = s.grantLine h 0 r := by
  simp [State.directory, hq, List.range_succ_eq_map, hb, hw]

theorem State.directory_begins (hb : r.begun = false) (hw : ∀ o ∈ rest, o.begun = true → o.waiting ≠ []) : s.directory h =
    if s.probeTargets h r = [] then s.grantLine h 0 r
    else (s.probeTargets h r).foldl (fun s d => s.modDie d fun x => { x with probes := x.probes ++ [(r.line, h, r.write)] })
      (s.modDie h fun x => { x with dirQ := replaceAt x.dirQ 0 { r with begun := true, waiting := s.probeTargets h r } }) := by
  have none_ : ((List.range (s.die h).dirQ.length).zip (s.die h).dirQ).find? (fun p => p.2.begun && p.2.waiting.isEmpty) = none := by
    refine List.find?_eq_none.2 fun p hp => ?_
    have hm : p.2 ∈ r :: rest := hq ▸ (List.of_mem_zip hp).2
    rcases List.mem_cons.1 hm with hm | hm
    · simp [hm, hb]
    · have := hw p.2 hm
      simpa using this
  have first : (((List.range (s.die h).dirQ.length).zip (s.die h).dirQ).find? fun p => !p.2.begun &&
      !((((List.range (s.die h).dirQ.length).zip (s.die h).dirQ).take p.1).any fun o => o.2.line == p.2.line)) = some (0, r) := by
    simp [hq, List.range_succ_eq_map, hb]
  simp only [State.directory, none_, first]
  cases ht : s.probeTargets h r with
  | nil => simp
  | cons d ds => simp

end

/-- What is told to each die of a list is told to each. -/
theorem State.probes_sent (p : Nat × Nat × Bool) (l : List Nat) (s : State) {d : Nat} (hd : d ∈ l) :
    p ∈ ((l.foldl (fun s d => s.modDie d fun x => { x with probes := x.probes ++ [p] }) s).die d).probes := by
  obtain ⟨before, after, rfl⟩ := List.append_of_mem hd
  rw [List.foldl_append, List.foldl_cons]
  refine foldl_invariant (fun t : State => p ∈ (t.die d).probes) _ after (fun t e _ ht => ?_) (by simp)
  by_cases he : d = e
  · subst he
    rw [State.die_modDie_self]
    exact List.mem_append_left _ ht
  · rwa [State.die_modDie_ne _ _ he]

/-! Lines that leave an L2 -/

theorem State.dropLine_l2 (s : State) (d line : Nat) : line ∉ ((s.dropLine d line).die d).l2 := by
  simp [State.dropLine]

theorem State.dropHost_l2 (s : State) (d line : Nat) : line ∉ ((s.dropHost d line).die d).l2 := by
  have kept : ((s.dropHost d line).die d).l2 = ((s.dropLine d line).die d).l2 := by
    unfold State.dropHost State.setHostDir
    split
    · rfl
    · exact State.die_modDie_keeps Die.l2 _ d (fun _ => by rfl) d
  rw [kept]
  exact s.dropLine_l2 d line

/-- A line that a die does not hold, it does not hold after any die has let it go. -/
theorem State.dropHost_l2_of_not_mem (s : State) (d line : Nat) {e : Nat} (h : line ∉ (s.die e).l2) :
    line ∉ ((s.dropHost d line).die e).l2 := by
  by_cases he : e = d
  · subst he
    exact s.dropHost_l2 e line
  · have kept : ((s.dropHost d line).die e).l2 = (s.die e).l2 := by
      have set : ((s.dropHost d line).die e).l2 = ((s.dropLine d line).die e).l2 := by
        unfold State.dropHost State.setHostDir
        split
        · rfl
        · exact State.die_modDie_keeps Die.l2 _ d (fun _ => by rfl) e
      rw [set, State.dropLine, State.die_modDie_ne _ _ he]
      exact State.die_modDie_keeps Die.l2 _ d (fun _ => by rfl) e
    rwa [kept]

/-! A granule that is classified anew -/

/-- R436: no die holds a line of the granule any more. -/
def State.clearDies (s : State) (g : Nat) : State :=
  { s with dies := Tbl.mapVals (fun i d =>
      if i < 8 then { d with l2 := d.l2.filter (fun l => l / 512 != g), filter := d.filter.filter (fun e => e.1 / 512 != g),
                             dir := d.dir.filter (fun e => e.1 / 128 != g) } else d) s.dies }

theorem State.clearDies_l2 (s : State) {g d l : Nat} (hd : d < 8) (h : l ∈ ((s.clearDies g).die d).l2) : l / 512 ≠ g := by
  simp only [State.clearDies, State.die, Tbl.get, Tbl.find?_mapVals] at h
  cases hf : Tbl.find? s.dies d with
  | none =>
    rw [hf] at h
    exact absurd h (by simp [Die.reset])
  | some x =>
    rw [hf] at h
    simp only [Option.map_some, if_pos hd] at h
    exact bne_iff_ne.1 (List.mem_filter.1 h).2

theorem State.leaveL1_l1 {s : State} {p q : Nat → Bool} {c l : Nat} (hp : p c = true) (h : l ∈ ((s.leaveL1 p q).core c).l1) :
    q l = false := by
  simp only [State.leaveL1, State.core, Tbl.get, Tbl.find?_mapVals] at h
  cases hf : Tbl.find? s.cores c with
  | none =>
    rw [hf] at h
    exact absurd h (by simp [Core.reset])
  | some x =>
    rw [hf] at h
    simp only [Option.map_some, hp, if_true] at h
    simpa using (List.mem_filter.1 h).2

theorem State.setGranule_cores (s : State) (g : Nat) (v : BitVec 13) : (s.setGranule g v).cores = s.cores := by
  unfold State.setGranule
  split <;> rfl

theorem State.setGranule_l2 (s : State) (g : Nat) (v : BitVec 13) (d : Nat) : ((s.setGranule g v).die d).l2 = (s.die d).l2 := by
  unfold State.setGranule
  split
  · refine (State.die_modDie_keeps Die.l2 _ _ (fun _ => by rfl) d).trans ?_
    simp only [State.die, Tbl.get, Tbl.find?_mapVals]
    cases Tbl.find? s.dies d <;> rfl
  · rfl

end Sys2Proof.Machine

open Sys2Proof Sys2Proof.Machine

/-- Settles O52: what a directory, a probe, a flush and a snoop leave of the requests and of the lines that they name. -/
theorem coherenceEvents : Obligations.CoherenceEvents := by
  unfold Obligations.CoherenceEvents
  intro s h
  refine ⟨fun r rest hargs hq hinc hb hw => ?_, fun d l inval rest hargs hp => ⟨fun hl => ?_, fun hl hg => ?_⟩,
    fun o k hargs ho hk hwant hl => ?_, fun hargs => ⟨fun hg => ?_, fun hg => ?_⟩, fun line x hargs hl => ?_,
    fun line e hh he hl => ⟨fun hargs => ?_, fun hargs => ?_⟩⟩
  · have timely : s.dropLate h = s := by
      have none_ : ((s.die h).dirQ.filter (fun r => r.inc != Tbl.get 0 s.incarnations r.from_)).length = 0 :=
        List.length_eq_zero_iff.2 (List.filter_eq_nil_iff.2 fun o ho => by simp [hinc o (hq ▸ ho)])
      exact if_pos none_
    have run : exec .directoryTransaction s = .next (s.directory h) := by
      simp [exec, execDirectoryTransaction, State.arg, hargs, timely]
    have granted (hd : s.directory h = s.grantLine h 0 r) : ∃ w, exec .directoryTransaction s = .next w ∧ (w.die h).dirQ = rest ∧
        r.line ∈ (w.die r.from_).grants ∧ w.mem = s.mem := by
      obtain ⟨h1, h2⟩ := s.grantLine_spec h 0 r
      exact ⟨_, run, by rw [hd, h1, hq, removeAt], by rw [hd]; exact h2, State.directory_mem s h⟩
    refine ⟨fun hc => granted ?_, fun hnb ht => ?_⟩
    · cases hbegun : r.begun with
      | true => exact State.directory_ends hq hbegun (hb hbegun)
      | false =>
        have none_ : s.probeTargets h r = [] := hc.resolve_left (by simp [hbegun])
        rw [State.directory_begins hq hbegun (hw hbegun), if_pos none_]
    · have begins := State.directory_begins hq hnb (hw hnb)
      rw [if_neg ht] at begins
      refine ⟨_, run, ?_, State.directory_mem s h, fun d hd => by rw [begins]; exact State.probes_sent _ _ _ hd⟩
      rw [begins, foldl_keeps (fun s : State => (s.die h).dirQ) _ (fun s d => State.die_modDie_keeps Die.dirQ s d (fun _ => by rfl) h),
        State.die_modDie_self, hq, replaceAt]
  · have run : exec .probeAnswer s = .next (s.probeAnswer d) := by simp [exec, execProbeAnswer, State.arg, hargs]
    have none_ : (((List.range (s.die d).probes.length).zip (s.die d).probes).find? fun p =>
        !(s.lockedAt d (· == p.2.1) || ((s.die d).grants.contains p.2.1 && s.accessWaits (fun c => dieOf c == d) (· == p.2.1)))) = none := by
      refine List.find?_eq_none.2 fun p hm => ?_
      rw [hl p.2 (List.of_mem_zip hm).2]
      simp
    rw [run, State.probeAnswer]
    simp only [none_]
  · have run : exec .probeAnswer s = .next (s.probeAnswer d) := by simp [exec, execProbeAnswer, State.arg, hargs]
    have first : (((List.range (s.die d).probes.length).zip (s.die d).probes).find? fun p =>
        !(s.lockedAt d (· == p.2.1) || ((s.die d).grants.contains p.2.1 && s.accessWaits (fun c => dieOf c == d) (· == p.2.1)))) =
        some (0, l, h, inval) := by
      rw [hp, List.length_cons, List.range_succ_eq_map, List.zip_cons_cons]
      exact List.find?_cons_of_pos (by simp only [hl, hg]; rfl)
    let s1 := if inval then s.dropLine d l else s
    have dropped : (s1.die d).probes = (s.die d).probes ∧ (inval = true → l ∉ (s1.die d).l2) := by
      cases inval with
      | true => exact ⟨(congrArg Die.probes ((s.dropLine_cacheOnly d l).die d) :), fun _ => s.dropLine_l2 d l⟩
      | false => exact ⟨rfl, fun hi => absurd hi (by decide)⟩
    have answers : s.probeAnswer d = (s1.modDie d fun x =>
        { x with probes := removeAt x.probes 0, grants := x.grants.filter (· != l) }).modDie h fun x =>
          { x with dirQ := x.dirQ.map fun r => if r.line = l ∧ r.begun then { r with waiting := r.waiting.filter (· != d) } else r } := by
      unfold State.probeAnswer
      simp only [first]
      rfl
    refine ⟨_, run, ?_, fun hi => ?_, State.probeAnswer_mem s d⟩
    · rw [answers, State.die_modDie_keeps Die.probes _ h (fun _ => by rfl), State.die_modDie_self]
      dsimp only
      rw [dropped.1, hp, removeAt]
    · rw [answers, State.die_modDie_keeps Die.l2 _ h (fun _ => by rfl), State.die_modDie_self]
      exact dropped.2 hi
  · simp only [exec, execGranuleFlush, State.arg, hargs, List.getD_cons_zero, ho, hk, hwant, hl]
    rfl
  · simp only [exec, execGranuleReclassify, State.arg, hargs]
    exact congrArg _ (if_neg hg)
  · have run : exec .granuleReclassify s = .next (((s.leaveL1 (fun _ => true) fun l => l / 512 == h).clearDies h).setGranule h 0) := by
      simp only [exec, execGranuleReclassify, State.arg, hargs]
      exact congrArg _ (if_pos hg)
    refine ⟨_, run, by simp [State.clearDies], fun c l hl => ?_, fun d hd l hl => ?_⟩
    · rw [State.core, State.setGranule_cores] at hl
      simpa using State.leaveL1_l1 (s := s) (p := fun _ => true) (q := fun l => l / 512 == h) (c := c) rfl hl
    · rw [State.setGranule_l2] at hl
      exact State.clearDies_l2 _ hd hl
  · have no : ¬ (h < 2 ∧ (!s.locks.any fun e => e.1 == line) = true) := by simp [hl]
    simp only [exec, execHostSnoop, State.arg, hargs, List.getD_cons_zero, List.getD_cons_succ]
    exact congrArg _ (if_neg no)
  · obtain ⟨s1, run, hdir, hmem⟩ : ∃ s1 : State, exec .hostSnoop s = .next (s1.modDie (8 + h) fun x =>
        { x with dir := Tbl.set x.dir line (e.setOwner 0 none) }) ∧ (s1.die (8 + h)).dir = (s.die (8 + h)).dir ∧ s1.mem = s.mem := by
      cases ho : e.owner 0 with
      | none =>
        refine ⟨s, ?_, rfl, rfl⟩
        simp only [exec, execHostSnoop, State.arg, hargs, List.getD_cons_zero, List.getD_cons_succ]
        refine congrArg _ ((if_pos ⟨hh, by simp [hl]⟩).trans ?_)
        simp only [he, ho]
        rfl
      | some d =>
        refine ⟨s.setHostDir d line true false, ?_, ?_, State.setHostDir_mem s d line true false⟩
        · simp only [exec, execHostSnoop, State.arg, hargs, List.getD_cons_zero, List.getD_cons_succ]
          refine congrArg _ ((if_pos ⟨hh, by simp [hl]⟩).trans ?_)
          simp only [he, ho]
          rfl
        · unfold State.setHostDir
          split
          · rfl
          · rw [State.die_modDie_ne _ _ (by omega)]
    exact ⟨_, run, by rw [State.die_modDie_self, hdir], hmem⟩
  · have run : exec .hostSnoop s = .next (((List.range 8).foldl (fun s d => if e.dv.getLsbD d then s.dropHost d line else s) s).modDie
        (8 + h) fun x => { x with dir := Tbl.erase x.dir line }) := by
      simp only [exec, execHostSnoop, State.arg, hargs, List.getD_cons_zero, List.getD_cons_succ]
      refine congrArg _ ((if_pos ⟨hh, by simp [hl]⟩).trans ?_)
      rw [he]
      rfl
    refine ⟨_, run, ?_, fun d hd hb => ?_⟩
    · refine foldl_keeps State.mem _ (fun s d => ?_) (List.range 8) s
      split
      · exact State.dropHost_mem s d line
      · rfl
    · rw [State.die_modDie_keeps Die.l2 _ (8 + h) (fun _ => by rfl)]
      obtain ⟨before, after, hr⟩ := List.append_of_mem (List.mem_range.2 hd)
      rw [hr, List.foldl_append, List.foldl_cons]
      refine foldl_invariant (fun t : State => line ∉ (t.die d).l2) _ after (fun t d' _ ht => ?_) ?_
      · split
        · exact t.dropHost_l2_of_not_mem d' line ht
        · exact ht
      · rw [if_pos hb]
        exact State.dropHost_l2 _ d line

end

section
/-! Trace, sampling, energy, heat and the host's registers (O54). -/

namespace Sys2Proof.Machine

/-! A die that is dead stays dead while others die -/

theorem State.dead_modDie (s : State) (d : Nat) {f : Die → Die} (hf : ∀ x, (f x).dead = x.dead) (e : Nat) :
    ((s.modDie d f).die e).dead = (s.die e).dead := State.die_modDie_keeps Die.dead s d hf e

theorem State.releaseToken_dead (s : State) (c sl e : Nat) : ((s.releaseToken c sl).die e).dead = (s.die e).dead :=
  State.dead_modDie s _ (fun x => by split <;> rfl) e

theorem State.freeRegion_dead (s : State) (c sl e : Nat) : ((s.freeRegion c sl).die e).dead = (s.die e).dead := by
  unfold State.freeRegion
  split
  · rfl
  · exact (State.releaseToken_dead _ c sl e).trans rfl

theorem State.dropThread_dead (s : State) (c sl e : Nat) : ((s.dropThread c sl).die e).dead = (s.die e).dead := by
  unfold State.dropThread
  refine (State.releaseToken_dead _ c sl e).trans ((State.freeRegion_dead _ c sl e).trans ?_)
  cases (s.thread c sl).region with
  | none => cases (s.thread c sl).inst <;> rfl
  | some k => cases (s.thread c sl).inst <;> rfl

theorem State.removeGroup_dead (s : State) (c g e : Nat) : ((s.removeGroup c g).die e).dead = (s.die e).dead := by
  unfold State.removeGroup
  dsimp only
  rw [State.die_modGrid, State.die_modCore]
  refine Eq.trans (foldl_keeps (fun s : State => (s.die e).dead) _ (fun s sl => s.dropThread_dead c sl e) (s.group c g).slots _) ?_
  simp only [State.dropRequests, State.orphanCopies, State.die, Tbl.get, Tbl.find?_mapVals]
  cases Tbl.find? s.dies e <;> rfl

theorem State.poisonLines_dead (s : State) (h : Nat) (l : List Nat) (e : Nat) : ((s.poisonLines h l).die e).dead = (s.die e).dead := by
  unfold State.poisonLines
  exact (State.dead_modDie _ h (fun _ => by rfl) e).trans rfl

theorem State.homeForgets_dead (s : State) (h d e : Nat) : ((s.homeForgets h d).die e).dead = (s.die e).dead := by
  unfold State.homeForgets
  refine (State.poisonLines_dead _ h _ e).trans ?_
  exact State.dead_modDie s h (fun _ => by rfl) e

theorem State.hostForgets_dead (s : State) (port d e : Nat) : ((s.hostForgets port d).die e).dead = (s.die e).dead := by
  unfold State.hostForgets
  exact (State.dead_modDie _ (8 + port) (fun _ => by rfl) e).trans (s.poisonLines_dead (8 + port) _ e)

theorem State.dieDead_keeps_dead {s : State} {e : Nat} (h : (s.die e).dead = true) (d : Nat) : ((s.dieDead d).die e).dead = true := by
  unfold State.dieDead
  split
  · exact h
  · dsimp only
    by_cases he : e = d
    · rw [he, State.die_modDie_self]
    · rw [State.die_modDie_ne _ _ he]
      refine Eq.trans ?_ h
      refine Eq.trans (foldl_keeps (fun s : State => (s.die e).dead) _ (fun s p => s.removeGroup_dead _ _ e) _ _) ?_
      refine (State.hostForgets_dead _ 1 d e).trans ((State.hostForgets_dead _ 0 d e).trans ?_)
      refine Eq.trans (foldl_keeps (fun s : State => (s.die e).dead) _ (fun s h => s.homeForgets_dead h d e) _ _) ?_
      exact s.poisonLines_dead d _ e

theorem State.agentDead_keeps_dead {s : State} {e : Nat} (h : (s.die e).dead = true) (a : Nat) : ((s.agentDead a).die e).dead = true := by
  have marked (t : State) (n : Nat) : ((t.markGone n).die e).dead = (t.die e).dead := rfl
  unfold State.agentDead
  split
  · exact State.dieDead_keeps_dead h a
  · split
    · exact (State.dead_modDie _ a (fun _ => by rfl) e).trans h
    · split
      · dsimp only
        refine foldl_invariant (fun t : State => (t.die e).dead = true) _ _ (fun t d _ ht => State.dieDead_keeps_dead ht d) ?_
        refine (foldl_keeps (fun t : State => (t.die e).dead) _ (fun t n => marked t _) _ _).trans ?_
        exact (State.dead_modDie _ 9 (fun _ => by rfl) e).trans h
      · split
        · exact h
        · exact h

/-- R468: every agent of a list that is a die is dead. -/
theorem State.agentsDead_dead (s : State) {l : List Nat} {d : Nat} (hd : d < 8) (h : d ∈ l) :
    ((l.foldl (fun s a => s.agentDead a) s).die d).dead = true := by
  obtain ⟨before, after, rfl⟩ := List.append_of_mem h
  rw [List.foldl_append, List.foldl_cons]
  refine foldl_invariant (fun t : State => (t.die d).dead = true) _ after (fun t a _ ht => State.agentDead_keeps_dead ht a) ?_
  rw [State.agentDead, if_pos hd]
  exact State.dieDead_dead _ d

/-- R468: every agent is dead when the module shuts down. -/
theorem thermalShutdown_eq (s : State) : ∃ l : List Nat, (∀ d < 8, d ∈ l) ∧
    exec .thermalShutdown s = .next ((l.foldl (fun s a => s.agentDead a) s).modMgmt fun m => { m with down := true, ready := false }) :=
  ⟨List.range 11 ++ _, fun _ hd => List.mem_append_left _ (List.mem_range.2 (by omega)), rfl⟩

/-- R465: what a write of the low word of a context leaves of its entry. -/
theorem State.mregWrite_ctxLow (s : State) (k : Nat) (v : DWord) : (s.mregWrite (.ctxLow k) v).ctxEntry k =
    { s.ctxEntry k with en := v.getLsbD 63, maxp := bitsOf v.toNat 62 58, root := (keepBits v 51 13).toNat } := by
  unfold State.mregWrite State.mregPut
  dsimp only
  split
  · exact Tbl.get_set_self _ _ _ _
  · exact Tbl.get_set_self _ _ _ _

/-- R469: a quote whose block is spent, or that has none yet, takes a new block while there is one. -/
theorem quote_spent {s : State} (h : s.mgmt.attest.hasBlock = false ∨ 1024 ≤ s.mgmt.attest.used) :
    exec .attestationQuote s = .next (s.modMgmt fun m => { m with attest :=
      if 0 < s.mgmt.attest.qblk then ⟨s.mgmt.attest.qblk - 1, 1, true, false⟩ else { s.mgmt.attest with exhausted := true } }) := by
  have spent : (s.mgmt.attest.hasBlock && decide (s.mgmt.attest.used < 1024)) = false := by
    rcases h with h | h
    · rw [h, Bool.false_and]
    · rw [decide_eq_false (Nat.not_lt.2 h), Bool.and_false]
  simp only [exec, execAttestationQuote, spent, Bool.false_eq_true, if_false]

/-! Changes of every die and of every entry of a list -/

theorem State.die_foldl_modDie {f : Die → Die} {l : List Nat} (hl : l.Nodup) (s : State) (k : Nat) :
    (l.foldl (fun s k => s.modDie k f) s).die k = if k ∈ l then f (s.die k) else s.die k := by
  induction l generalizing s with
  | nil => simp
  | cons a l ih =>
    rw [List.nodup_cons] at hl
    rw [List.foldl_cons, ih hl.2]
    by_cases hk : k = a
    · subst hk
      rw [if_neg hl.1, State.die_modDie_self, if_pos List.mem_cons_self]
    · simp [State.die_modDie_ne _ _ hk, hk]

theorem Tbl.get_foldl_set {α : Type} (d : α) (f : Nat → α → α) {l : List Nat} (hl : l.Nodup) (t : Tbl α) (k : Nat) :
    Tbl.get d (l.foldl (fun t k => Tbl.set t k (f k (Tbl.get d t k))) t) k =
      if k ∈ l then f k (Tbl.get d t k) else Tbl.get d t k := by
  induction l generalizing t with
  | nil => simp
  | cons a l ih =>
    rw [List.nodup_cons] at hl
    rw [List.foldl_cons, ih hl.2]
    by_cases hk : k = a
    · subst hk
      rw [if_neg hl.1, Tbl.get_set_self, if_pos List.mem_cons_self]
    · simp [Tbl.get_set_ne, hk]

/-! A store of coherent bytes changes no trace unit -/

theorem State.agentStore_trace (s : State) (d : Nat) {g : Seg} (hn : g.nc = false) (bs : List Byte) (e : Nat) :
    ((s.agentStore d [g] bs).die e).trace = (s.die e).trace := by
  have put (ls : List Nat) (t : State) (bs : List Byte) :
      (State.putBytes d t (ls.map fun l => (l, false)) bs).dies = t.dies := by
    induction ls generalizing t bs with
    | nil => rfl
    | cons a ls ih =>
      cases bs with
      | nil => rfl
      | cons b u => exact ih (t.wr a [b]) u
  have stale (t : State) (ls : List Nat) : (t.markStale ls).dies = t.dies := by
    unfold State.markStale
    split <;> rfl
  have folded : CacheOnly s (s.foldAccess d true [g]) :=
    .foldl _ (fun s l => (s.touchOther_cacheOnly l).trans (State.dirGrant_cacheOnly _ _ _ _)) _ s
  have kept : (s.agentStore d [g] bs).dies = (s.foldAccess d true [g]).dies := by
    rw [State.agentStore, State.performStore, stale, segPlaces_eq (by simpa using hn), put]
  rw [State.die, kept]
  exact (congrArg Die.trace (folded.die e) :)

end Sys2Proof.Machine

open Sys2Proof Sys2Proof.Machine

/-- Settles O54: each unit by its guard and its one effect, each register by what the host writes there. -/
theorem observationEvents : Obligations.ObservationEvents := by
  unfold Obligations.ObservationEvents
  constructor
  · intro s d n t
    refine ⟨fun r rest hargs hd hq => ?_, fun hargs => ⟨fun h => ?_, fun sl h hs ht hl => ?_⟩, fun hargs hd => ⟨fun h => ?_, fun h => ?_⟩,
      fun hargs hd => ⟨fun h => ?_, fun h => ?_⟩,
      fun hargs hd => ⟨fun h => ?_, fun h hh => ?_, fun h => ?_, fun h hh => ?_⟩, ?_, fun hargs hs => ?_, fun hargs hs hn hg => ?_⟩
    · intro s1
      have run : exec .traceAccept s = .next (s.traceHead d) := by
        simp only [exec, execTraceAccept, State.arg, hargs]
        exact congrArg _ (if_pos (show d < Config.dies from hd))
      have left : (s1.die d).trace = { t with queue := rest } := by simp [s1]
      have head : s.traceHead d = if t.en && s.traceRoom d (t.place t.widx) then (s1.writeGap d).writeTrace d r else s1 := by
        simp only [State.traceHead, show (s.die d).trace.queue = _ from hq]
        rfl
      refine ⟨fun h => run.trans (congrArg _ (head.trans (if_neg ?_))), fun he hr hg hf => ?_⟩
      · rcases h with h | h <;> simp [h]
      · have whole : s1.writeGap d = s1 := by
          unfold State.writeGap
          refine if_pos ?_
          rw [left]
          show (decide (t.gap = 0) && !t.full) = true
          rw [decide_eq_true hg, hf]
          rfl
        rw [he, hr, whole] at head
        refine ⟨_, run.trans (congrArg _ (head.trans (if_pos rfl))), ?_, ?_, ?_⟩
        · rw [State.writeTrace, left]
          rfl
        · rw [State.writeTrace, State.die_modDie_self]
          dsimp only
          rw [State.agentStore_trace _ _ rfl, left]
        · rw [State.writeTrace, State.die_modDie_self]
          dsimp only
          rw [State.agentStore_trace _ _ rfl, left]
    · simp [exec, execSampleTake, State.arg, hargs, State.sampleTake, h]
    · simp only [exec, execSampleTake, State.arg, hargs, List.getD_cons_zero, State.sampleTake, h, hs, ht, if_pos hl]
      rfl
    · simp only [exec, execEnergyUpdate, State.arg, hargs]
      exact congrArg _ (if_neg fun hc => Nat.not_lt.2 hc.2 h)
    · have run : exec .energyUpdate s = .next (s.chargeEnergy d) := by
        simp only [exec, execEnergyUpdate, State.arg, hargs]
        exact congrArg _ (if_pos ⟨hd, h⟩)
      refine ⟨_, run, by simp [State.chargeEnergy], rfl, fun k hk => ?_⟩
      rw [State.chargeEnergy, State.die_modDie_self]
      dsimp only
      refine (Tbl.get_foldl_set 0 (fun k n => (n + (Config.energyEvents d k s.clk + _)) % 2 ^ 64) List.nodup_range _ k).trans ?_
      rw [if_pos (List.mem_range.2 (by omega)), if_neg (by omega), Nat.add_assoc]
    · simp [exec, execVoltageReplan, State.arg, hargs, h]
    · simp only [exec, execVoltageReplan, State.arg, hargs]
      exact congrArg _ (if_pos ⟨hd, h⟩)
    · simp only [exec, execThermalHoldStart, State.arg, hargs]
      exact congrArg _ (if_neg fun hc => Nat.not_lt.2 hc.2.1 h)
    · simp only [exec, execThermalHoldStart, State.arg, hargs]
      exact congrArg _ (if_pos ⟨hd, h, by simp [hh]⟩)
    · simp only [exec, execThermalHoldEnd, State.arg, hargs]
      exact congrArg _ (if_neg fun hc => Nat.not_lt.2 hc.2.1 h)
    · simp only [exec, execThermalHoldEnd, State.arg, hargs]
      exact congrArg _ (if_pos ⟨hd, h, hh⟩)
    · obtain ⟨l, hl, hw⟩ := thermalShutdown_eq s
      exact ⟨_, hw, rfl, rfl, fun k hk => State.agentsDead_dead s hk (hl k hk)⟩
    · simp [exec, execTscCorrection, hs]
    · have none_ : (s.grids.all fun e => e.2.resident.isEmpty) = true := List.all_eq_true.2 fun e he => by rw [hg e he]; rfl
      have run : exec .tscCorrection s = .next ((List.range 10).foldl (fun s k => s.modDie k fun y =>
          { y with tscOff := y.tscOff + n }) s) := by
        simp only [exec, execTscCorrection, State.arg, hargs, List.getD_cons_zero, List.getD_cons_succ, hs, hn, none_, and_self,
          if_true, Bool.false_eq_true, if_false]
      refine ⟨_, run, fun k hk => ?_⟩
      rw [State.die_foldl_modDie List.nodup_range, if_pos (List.mem_range.2 hk)]
  · intro s a b v
    refine ⟨fun hargs => ?_, fun hargs ha => ?_, fun hargs ha hb => ?_, fun hargs hb => ?_, ?_⟩
    · have run {r : MReg} (hr : mregOf a b = some r) : exec .mgmtRegisterWrite s = .next (s.mregWrite r (BitVec.ofNat 64 v)) := by
        simp only [exec, execMgmtRegisterWrite, State.arg, hargs, List.getD_cons_zero, List.getD_cons_succ, hr]
      refine ⟨fun r => run, fun ha => ?_, fun ha => ?_, fun w hw ha hb => ?_, fun w hw ha hb => ?_, fun w hw ha hb => ?_⟩
      · subst ha
        exact run rfl
      · subst ha
        exact ⟨_, run rfl, rfl, rfl⟩
      · subst ha
        obtain rfl := Host.Outcome.next.inj ((run (if_pos hb)).symm.trans hw)
        exact Tbl.get_set_self _ _ _ _
      · subst ha
        obtain rfl := Host.Outcome.next.inj ((run (if_pos hb)).symm.trans hw)
        have slice : (BitVec.ofNat 64 v).toNat % 2 ^ 32 = v % 2 ^ 32 := by
          rw [BitVec.toNat_ofNat, Nat.mod_mod_of_dvd v (by decide : 2 ^ 32 ∣ 2 ^ 64)]
        rw [← slice]
        exact congrArg (fun e : CtxEntry => BitVec.ofNat 64 e.slice) (Tbl.get_set_self _ _ _ _)
      · subst ha
        obtain rfl := Host.Outcome.next.inj ((run (if_pos hb)).symm.trans hw)
        have entry := s.mregWrite_ctxLow b (BitVec.ofNat 64 v)
        refine ⟨?_, ?_, ?_⟩
        · rw [entry]
          exact (BitVec.getLsbD_ofNat 64 v 63).trans (by simp)
        · rw [entry]
          show (BitVec.ofNat 64 v).toNat / 2 ^ 58 % 2 ^ 5 = _
          rw [BitVec.toNat_ofNat]
          omega
        · rw [entry]
          show (keepBits (BitVec.ofNat 64 v) 51 13).toNat = _
          rw [keepBits_ofNat v (by decide), BitVec.toNat_ofNat]
          omega
    · simp only [exec, execSamplerWrite, State.arg, hargs]
      exact congrArg _ (if_pos (show a < Config.dies * Config.coresPerDie from ha))
    · simp only [exec, execCounterClear, State.arg, hargs]
      exact congrArg _ ((if_pos ha).trans (if_pos (show b < Config.dies from hb)))
    · simp only [exec, execCounterClear, State.arg, hargs]
      exact congrArg _ ((if_neg (show ¬ 8 < 8 by decide)).trans ((if_pos rfl).trans (if_pos (show b < Config.dies from hb))))
    · intro q becomes
      refine ⟨fun hb hu => ?_, fun h hq => ?_, fun h hq => ?_⟩
      · simp [becomes, exec, execAttestationQuote, show s.mgmt.attest.hasBlock = true from hb, show s.mgmt.attest.used < 1024 from hu, q]
      · exact (quote_spent h).trans (by rw [if_pos (show 0 < s.mgmt.attest.qblk from hq)])
      · exact (quote_spent h).trans (by rw [if_neg (show ¬ 0 < s.mgmt.attest.qblk by rw [hq]; decide)])

end

section
/-! The driver's commands and the invalidation of translations (O49). -/

namespace Sys2Proof.Machine

/-! Going to a block -/

/-- R348, R351: a thread on its way to a block, perhaps to the entry of its region again. -/
def Thread.armed (t : Thread) (again ser : Bool) : Thread :=
  { t with reArmed := again, reSer := ser, reenter := if again || t.priv then t.reenter else none }

theorem State.goTo_eq (s : State) (c sl : Nat) (addr : VAddr) : ∃ again ser : Bool, s.goTo c sl addr =
    (if ser then (s.modThread c sl fun t => t.armed again ser).queueSerial c sl else s.modThread c sl fun t => t.armed again ser).fileTo
      c sl addr :=
  ⟨_, _, rfl⟩

/-- R104, R351: a thread that goes to a block changes no other thread, and no group. -/
theorem State.goTo_only (s : State) (c sl : Nat) (addr : VAddr) : OnlyThread s (s.goTo c sl addr) c sl := by
  obtain ⟨again, ser, h⟩ := s.goTo_eq c sl addr
  rw [h]
  refine OnlyThread.trans ?_ (State.modThread_only _ c sl _)
  split
  · exact (s.modThread_only c sl _).trans ((State.modDie_same _ _ _).only c sl)
  · exact s.modThread_only c sl _

/-- R104: a thread that goes to a block is on its way there. -/
theorem State.goTo_thread (s : State) (c sl : Nat) (addr : VAddr) : ((s.goTo c sl addr).thread c sl).next = addr ∧
    ((s.goTo c sl addr).thread c sl).trap = (s.thread c sl).trap := by
  obtain ⟨again, ser, h⟩ := s.goTo_eq c sl addr
  rw [h, State.fileTo, State.fileFrom, State.thread_modThread_self]
  refine ⟨rfl, ?_⟩
  dsimp only
  split
  · rw [State.queueSerial, State.thread_modDie, State.thread_modThread_self, Thread.armed]
  · rw [State.thread_modThread_self, Thread.armed]

theorem State.resumeAt_thread (s : State) (c sl : Nat) (addr : VAddr) : ((s.resumeAt c sl addr).thread c sl).next = addr ∧
    ((s.resumeAt c sl addr).thread c sl).trap = none ∧ (s.resumeAt c sl addr).mem = s.mem := by
  obtain ⟨hnext, htrap⟩ := (s.modThread c sl fun u => { u with trap := none, place := .free }).goTo_thread c sl addr
  exact ⟨hnext, htrap.trans (by rw [State.thread_modThread_self]), by simp [State.resumeAt]⟩

/-! The answers of the driver -/

section
variable {s : State} {c sl : Nat} {tr : Trap} (hc : c < 2 ^ 64) (hs : (s.thread c sl).save = none)
include hc hs

theorem State.command_obeyed (cmd : Nat) (now : Bool) : s.command cmd now (c, sl) = s.obey c sl cmd := by
  unfold State.command
  rw [if_pos hc]
  simp [hs]

end

section
variable {s : State} {c sl : Nat} {tr : Trap} (ht : (s.thread c sl).trap = some tr) (hr : tr.recorded = true)
include ht hr

/-- R409, R466: a thread that is replayed goes to its faulting block. -/
theorem State.obey_replay : ((s.obey c sl 0).thread c sl).next = tr.blk ∧ ((s.obey c sl 0).thread c sl).trap = none ∧
    (s.obey c sl 0).mem = s.mem := by
  have replayed : s.obey c sl 0 = (((s.modThread c sl fun u => { u with command := none }).modThread c sl fun u =>
      { u with nestOpen := if tr.nest then false else u.nestOpen }).resumeAt c sl tr.blk) := by
    simp [State.obey, ht, hr]
  rw [replayed]
  exact State.resumeAt_thread _ _ _ _

/-- R409, R466: a thread that is sent on goes to its next block. -/
theorem State.obey_next (hret : tr.ret = false) (hdef : tr.def_ = false) :
    ((s.obey c sl 1).thread c sl).next = tr.next ∧ ((s.obey c sl 1).thread c sl).trap = none ∧ (s.obey c sl 1).mem = s.mem := by
  obtain ⟨z, hz, hm⟩ : ∃ z : State, s.obey c sl 1 = z.resumeAt c sl tr.next ∧ z.mem = s.mem := by
    refine ⟨((s.modThread c sl fun u => { u with command := none }).modThread c sl fun u =>
      { u with nestOpen := if tr.nest then false else u.nestOpen }).noteIdem c sl (s.isIdem (s.rootOf c sl) tr.blk) tr.next, ?_, by simp⟩
    simp [State.obey, ht, hr, hret, hdef, State.resumeNext]
  rw [hz, ← hm]
  exact State.resumeAt_thread _ _ _ _

theorem State.obey_retires (hret : tr.ret = true) : ((s.obey c sl 1).thread c sl).place = .retiring := by
  simp [State.obey, ht, hr, hret, State.resumeNext, State.startRetire]

end

/-- R419: a thread that a debugger lets run on changes no other thread, and no group. -/
theorem State.obey_resume_only (s : State) (c sl : Nat) : OnlyThread s (s.obey c sl 3) c sl := by
  have s0 := s.modThread_only c sl fun u => { u with command := none }
  simp only [State.obey, if_neg (show ¬ 16 ≤ 3 by decide), if_true]
  split
  · exact (s0.trans (State.modThread_only _ c sl _)).trans (State.goTo_only _ c sl _)
  · exact s0

/-- R419: a group that a debugger resumes is halted no more. -/
theorem State.resumeGroup_runs {s : State} {c g : Nat} (hg : Tbl.find? (s.core c).groups g ≠ none) (hc : c < 2 ^ 64) :
    ((s.resumeGroup c g).group c g).halted = false := by
  have kept (t : State) (sl : Nat) : (if (t.thread c sl).waitsAt .halted then t.command 3 false (c, sl) else t).group c g = t.group c g := by
    split
    · unfold State.command
      rw [if_pos hc]
      dsimp only
      split
      · exact (t.modThread_only c sl _).2 c g
      · exact (t.obey_resume_only c sl).2 c g
    · rfl
  unfold State.resumeGroup
  refine Eq.trans (congrArg Group.halted (foldl_keeps (fun t : State => t.group c g) _ kept (s.group c g).slots _)) ?_
  obtain ⟨x, hx⟩ := Option.ne_none_iff_exists'.1 hg
  rw [State.group_modGroup_self hx]

/-! Invalidation -/

/-- R219: the entries that an invalidation keeps. -/
theorem TlbEntry.kept_iff (e : TlbEntry) (ctx vpn count : Nat) :
    (!(e.asp == ctx && decide (e.base < vpn + count) && decide (vpn < e.base + e.pages))) = true ↔
      ¬ (e.asp = ctx ∧ e.base < vpn + count ∧ vpn < e.base + e.pages) := by
  rw [Bool.not_eq_true', ← Bool.not_eq_true, Bool.and_assoc, Bool.and_eq_true, Bool.and_eq_true, beq_iff_eq, decide_eq_true_iff,
    decide_eq_true_iff]

theorem State.tlbInvalidate_core (s : State) (ctx vpn count c : Nat) (e : TlbEntry) :
    e ∈ ((s.tlbInvalidate ctx vpn count).core c).tlb ↔
      e ∈ (s.core c).tlb ∧ ¬ (e.asp = ctx ∧ e.base < vpn + count ∧ vpn < e.base + e.pages) := by
  simp only [State.tlbInvalidate, State.modMgmt, State.core, Tbl.get, Tbl.find?_mapVals]
  cases Tbl.find? s.cores c with
  | none => simp [Core.reset]
  | some x =>
    exact List.mem_filter.trans (and_congr_right fun _ => TlbEntry.kept_iff e ctx vpn count)

theorem State.tlbInvalidate_die (s : State) (ctx vpn count d : Nat) (e : TlbEntry) :
    e ∈ ((s.tlbInvalidate ctx vpn count).die d).tlb ↔
      e ∈ (s.die d).tlb ∧ ¬ (e.asp = ctx ∧ e.base < vpn + count ∧ vpn < e.base + e.pages) := by
  simp only [State.tlbInvalidate, State.modMgmt, State.die, Tbl.get, Tbl.find?_mapVals]
  cases Tbl.find? s.dies d with
  | none => simp [Die.reset]
  | some x =>
    exact List.mem_filter.trans (and_congr_right fun _ => TlbEntry.kept_iff e ctx vpn count)

end Sys2Proof.Machine

open Sys2Proof Sys2Proof.Machine

/-- Settles O49: by what a command makes of the one thread that its report names, and by the entries that an invalidation keeps. -/
theorem driverCommands : Obligations.DriverCommands := by
  unfold Obligations.DriverCommands
  refine ⟨fun s u name c sl r tr => ⟨fun hargs => ⟨fun h => ?_, fun h => ?_, fun h => ?_, fun h => ?_,
      fun hk hj hc hs ht hr => ⟨fun h => ?_, fun h hret hdef => ?_, fun h hret => ?_⟩, fun h hk => ?_, fun h hj hc hg => ?_⟩,
      fun g gr hargs hg hsave => ⟨fun hh => ?_, fun hh hsl hp => ?_⟩⟩,
    fun s ctx vpn count => ⟨fun hargs => ?_, fun h => ?_, fun h => ?_⟩⟩
  · simp [exec, execReplayCommand, State.arg, hargs, State.replayCommand, h]
  · simp [exec, execNextCommand, State.arg, hargs, State.nextCommand, h]
  · simp [exec, execKillCommand, State.arg, hargs, State.killCommand, h]
  · simp [exec, execResumeCommand, State.arg, hargs, State.resumeCommand, h]
  · have run : exec .replayCommand s = .next (u.obey c sl 0) := by
      rw [← State.command_obeyed hc hs 0 (u.reportsNow r (c, sl))]
      simp [exec, execReplayCommand, State.arg, hargs, State.replayCommand, h, hk, hj]
    exact ⟨_, run, State.obey_replay ht hr⟩
  · have run : exec .nextCommand s = .next (u.obey c sl 1) := by
      rw [← State.command_obeyed hc hs 1 (u.reportsNow r (c, sl))]
      simp [exec, execNextCommand, State.arg, hargs, State.nextCommand, h, hk, hj]
    exact ⟨_, run, State.obey_next ht hr hret hdef⟩
  · have run : exec .nextCommand s = .next (u.obey c sl 1) := by
      rw [← State.command_obeyed hc hs 1 (u.reportsNow r (c, sl))]
      simp [exec, execNextCommand, State.arg, hargs, State.nextCommand, h, hk, hj]
    exact ⟨_, run, State.obey_retires ht hr hret⟩
  · simp [exec, execKillCommand, State.arg, hargs, State.killCommand, h, hk]
  · refine ⟨u.resumeGroup c (u.thread c sl).group, ?_, State.resumeGroup_runs hg hc⟩
    have one : (if c < 2 ^ 64 then u.resumeGroup c (u.thread c sl).group else u.resumeSaved (c / 2 ^ 64 - 1) (c % 2 ^ 64)) =
        u.resumeGroup c (u.thread c sl).group := if_pos hc
    simp only [exec, execResumeCommand, State.arg, hargs, State.resumeCommand, List.getD_cons_zero, h, hj, List.foldl_cons,
      List.foldl_nil, one]
  · simp [exec, execDebugHalt, State.arg, hargs, State.haltGroup, hg, hh]
  · simp [exec, execDebugHalt, State.arg, hargs, State.haltGroup, hg, hh, hsave, hsl, hp]
  · exact ⟨s.tlbInvalidate ctx vpn count, by simp [exec, execTlbInvalidate, State.arg, hargs], rfl, rfl, rfl,
      s.tlbInvalidate_core ctx vpn count, s.tlbInvalidate_die ctx vpn count⟩
  · simp [exec, execTlbInvalidateDone, h]
  · simp [exec, execTlbInvalidateDone, h]

end

section
/-! What a commit and a trap leave of a thread: the layer under O37 and O48. -/

namespace Sys2Proof.Machine

/-! Traps -/

/-- A thread without the image of its save. -/
def Thread.unsaved (t : Thread) : Thread := { t with save := none }

/-- R279, R280: waits that end with faults leave a thread that is in the fault bin already, but for the image of its save. -/
theorem State.trapWaiters_unsaved {c sl c' : Nat} (cause : Cause) (detail : DWord) (slots : List Nat) : ∀ s : State,
    (s.thread c sl).place = .fault → (∀ n ∈ slots, (s.thread c' n).unfiled) →
    (c = c' → sl ∈ slots → (s.thread c sl).save ≠ none) →
    ((slots.foldl (fun s n => s.trapWaiter c' n .rope cause detail) s).thread c sl).unsaved = (s.thread c sl).unsaved := by
  induction slots with
  | nil => exact fun _ _ _ _ => rfl
  | cons n rest ih =>
    intro s hp hu hs
    obtain ⟨only, unfiled⟩ := State.trapWaiter_only (hu n List.mem_cons_self) (.inl rfl) cause detail
    have others : ∀ m ∈ rest, ((s.trapWaiter c' n .rope cause detail).thread c' m).unfiled := by
      intro m hm
      by_cases he : m = n
      · rw [he]
        exact unfiled
      · rw [only.1 c' m (.inr he)]
        exact hu m (List.mem_cons_of_mem _ hm)
    rw [List.foldl_cons]
    by_cases he : c = c' ∧ sl = n
    · obtain ⟨rfl, rfl⟩ := he
      obtain ⟨v, hv⟩ := Option.ne_none_iff_exists'.1 (hs rfl List.mem_cons_self)
      obtain ⟨v', hv'⟩ : ∃ v', (s.trapWaiter c sl .rope cause detail).thread c sl = { s.thread c sl with save := some v' } := by
        unfold State.trapWaiter
        simp only [hv]
        rw [if_neg (by rw [hp]; decide)]
        exact ⟨_, State.thread_modThread_self _ _ _ _⟩
      rw [ih _ (by rw [hv']; exact hp) others (fun _ _ => by rw [hv']; simp), hv']
      rfl
    · have kept := only.1 c sl (by grind)
      rw [ih _ (by rw [kept]; exact hp) others (fun hc hm => by rw [kept]; exact hs hc (List.mem_cons_of_mem _ hm)), kept]

/-- R280: a rope barrier that breaks leaves a thread that is in the fault bin, but for the image of its save. -/
theorem State.breakRope_unsaved {s : State} {c sl : Nat} (gn rope : Nat) (h : (s.thread c sl).place = .fault) :
    ((s.breakRope gn rope).thread c sl).unsaved = (s.thread c sl).unsaved := by
  unfold State.breakRope
  simp only [State.modSaved, State.thread_modGrid]
  refine foldl_invariant (fun t : State => (t.thread c sl).unsaved = (s.thread c sl).unsaved) _ _ (fun t m _ ht => ?_)
    (by rw [State.thread_modGrid])
  have place : (t.thread c sl).place = .fault := (congrArg Thread.place ht :).trans h
  refine (State.trapWaiters_unsaved _ _ _ t place (fun n hn => ?_) (fun hc hm => ?_)).trans ht
  · exact Thread.unfiled_of_waits (List.mem_filter.1 hn).2 (.inl rfl)
  · have waits := (List.mem_filter.1 hm).2
    intro hs
    rw [← hc, Thread.waitsAt, place, hs] at waits
    exact absurd waits (by decide)

theorem State.ropeAfterFault_unsaved {s : State} {c sl : Nat} (c' sl' : Nat) (h : (s.thread c sl).place = .fault) :
    ((s.ropeAfterFault c' sl').thread c sl).unsaved = (s.thread c sl).unsaved := by
  unfold State.ropeAfterFault
  dsimp only
  split
  · exact State.breakRope_unsaved _ _ h
  · rfl

/-- R351: a thread whose region is given back has none. -/
theorem State.freeRegion_thread (s : State) (c sl : Nat) : (s.freeRegion c sl).thread c sl = { s.thread c sl with region := none } := by
  unfold State.freeRegion
  split
  · next h => rw [← h]
  · next k h =>
    rw [(State.endYield_same _ c sl).thread, State.releaseToken, State.thread_modDie, State.thread_modThread_self, State.thread_modCore]
    exact fun _ => rfl

/-- R351, R404: a thread of no open region that is trapped and stands in no bin: its slots and its buffer stay. -/
theorem State.trapThread_thread {s : State} {c sl : Nat} (hr : s.openRegion c sl = none) (hf : ¬ (s.thread c sl).filedIn) (tr : Trap) :
    ∃ rg re ra, (s.trapThread c sl tr).thread c sl =
      { (s.thread c sl).takeRecord tr with region := rg, reenter := re, reArmed := ra } := by
  have unfiled := State.modCore_id_same s c (f := fun x => x.unfile sl) (Core.unfile_of_not_filed hf)
  cases hreg : (s.thread c sl).region with
  | none => exact ⟨_, _, _, State.trapThread_of_no_region hreg hf tr⟩
  | some k =>
    unfold State.trapThread
    simp only [hreg]
    cases hk : Tbl.find? (s.core c).regions k with
    | none =>
      refine ⟨some k, (s.thread c sl).reenter, (s.thread c sl).reArmed, ?_⟩
      simp only [State.thread_modThread_self, unfiled.thread]
      rw [← hreg]
      rfl
    | some r =>
      have shut : r.opened = false := by
        simpa [State.openRegion, hreg, hk] using hr
      simp only [shut, State.thread_modThread_self, State.freeRegion_thread, unfiled.thread, Bool.false_eq_true, if_false]
      exact ⟨_, _, _, rfl⟩

/-- R404, R280: the thread that a fault takes is in the fault bin with its record. -/
theorem State.takeTrap_thread {s : State} {c sl : Nat} (hr : s.openRegion c sl = none) (hf : ¬ (s.thread c sl).filedIn) (tr : Trap) :
    ∃ rg re ra sv, (s.takeTrap c sl tr).thread c sl =
      { (s.thread c sl).takeRecord tr with region := rg, reenter := re, reArmed := ra, save := sv } := by
  obtain ⟨rg, re, ra, h⟩ := State.trapThread_thread hr hf tr
  have kept := State.ropeAfterFault_unsaved (s := s.trapThread c sl tr) c sl (State.trapThread_place s c sl tr)
  refine ⟨rg, re, ra, ((s.takeTrap c sl tr).thread c sl).save, ?_⟩
  have whole (t : Thread) : t = { t.unsaved with save := t.save } := rfl
  rw [whole ((s.takeTrap c sl tr).thread c sl), State.takeTrap, kept, h]
  rfl

theorem State.takeTrap_group (s : State) (c sl : Nat) (tr : Trap) (c' g : Nat) : (s.takeTrap c sl tr).group c' g = s.group c' g := by
  rw [State.takeTrap, State.ropeAfterFault_group, State.trapThread_group]

/-! Is a thread in an open region? -/

theorem State.openRegion_congr {s t : State} {c sl : Nat} (hth : (t.thread c sl).region = (s.thread c sl).region)
    (hrg : (t.core c).regions = (s.core c).regions) : t.openRegion c sl = s.openRegion c sl := by
  simp only [State.openRegion, hth, hrg]

/-! The effects of a commit -/

/-- R65: a thread after some live-out writes. -/
def Thread.written (t : Thread) (ws : List LiveOut) : Thread :=
  ws.foldl (fun u l => if l.wide then u.setPair l.slot l.data else u.setSlot l.slot (l.data.setWidth 32)) t

/-- What live-out writes leave: all but the slots and their parity. -/
def Thread.unslotted (t : Thread) : Thread := { t with live := [], badParity := 0 }

theorem Thread.unslotted_written (t : Thread) (ws : List LiveOut) : (t.written ws).unslotted = t.unslotted := by
  refine foldl_keeps Thread.unslotted _ (fun u l => ?_) ws t
  split <;> rfl

theorem Core.queueWrites_rest (x : Core) (sl : Nat) (l : List Nat) :
    (x.queueWrites sl l).groups = x.groups ∧ (x.queueWrites sl l).threads = x.threads ∧ (x.queueWrites sl l).regions = x.regions ∧
      (x.queueWrites sl l).contexts = x.contexts := by
  induction l generalizing x with
  | nil => exact ⟨rfl, rfl, rfl, rfl⟩
  | cons a l ih => exact ih (x.queueWrite sl a)

theorem Core.queueWrites_modThread (x : Core) (sl n : Nat) (f : Thread → Thread) (l : List Nat) :
    (x.modThread n f).queueWrites sl l = (x.queueWrites sl l).modThread n f := by
  induction l generalizing x with
  | nil => rfl
  | cons a l ih => exact ih (x.queueWrite sl a)

/-- The queues of the slots' banks have nothing to do with what a thread becomes. -/
theorem State.modThread_queueWrites (s : State) (c sl n : Nat) (f : Thread → Thread) (l : List Nat) :
    (s.modCore c fun y => y.queueWrites sl l).modThread c n f = (s.modThread c n f).modCore c fun y => y.queueWrites sl l := by
  rw [State.modThread, State.modThread, State.modCore_modCore, State.modCore_modCore]
  congr 1
  funext y
  exact (Core.queueWrites_modThread y sl n f l).symm

/-- R132: an instance after its writes, stores and deferred loads have taken effect. -/
def Thread.committed (t : Thread) (x : Inst) : Thread :=
  ({ t.written (x.writes t.deferred) with fpMode := x.fpNext.getD t.fpMode } : Thread).commitDeferred.commitBuf

section
variable {s : State} {c sl : Nat} (hr : s.openRegion c sl = none) (x : Inst)
include hr

theorem State.writeLive_eq (ws : List LiveOut) : s.writeLive c sl ws =
    (s.modThread c sl fun t => t.written ws).modCore c fun y => y.queueWrites sl (writtenSlots ws) := by
  simp only [State.writeLive, hr]
  rfl

theorem State.commitEffects_eq : s.commitEffects c sl x =
    (s.modThread c sl fun t => t.committed x).modCore c fun y => y.queueWrites sl (writtenSlots (x.writes (s.thread c sl).deferred)) := by
  have kept : (((s.modThread c sl fun t => t.written (x.writes (s.thread c sl).deferred)).modThread c sl fun t =>
      { t with fpMode := x.fpNext.getD t.fpMode }).modCore c fun y =>
        y.queueWrites sl (writtenSlots (x.writes (s.thread c sl).deferred))).openRegion c sl = none := by
    refine (State.openRegion_congr ?_ ?_).trans hr
    · rw [State.thread_modCore]
      · rw [State.thread_modThread_self, State.thread_modThread_self]
        exact (congrArg Thread.region (Thread.unslotted_written _ _) :)
      · exact fun y => (Core.queueWrites_rest y sl _).2.1
    · rw [State.core_modCore_self, (Core.queueWrites_rest _ sl _).2.2.1, State.modThread_modThread, State.modThread,
        State.core_modCore_self]
      rfl
  simp only [State.commitEffects, State.writeLive_eq hr, State.modThread_queueWrites, kept]
  rw [State.modThread_modThread, State.modThread_modThread]
  congr 1
  refine State.modThread_congr ?_
  have fp : ((s.thread c sl).written (x.writes (s.thread c sl).deferred)).fpMode = (s.thread c sl).fpMode :=
    (congrArg Thread.fpMode (Thread.unslotted_written _ _) :)
  simp only [Thread.committed, fp]

end

/-! What a thread keeps when its commit takes effect -/

/-- What failed deferred loads leave: all but the fail mask and its record. -/
def Thread.unfailed (t : Thread) : Thread := { t with failMask := 0, failRec := none }

/-- R147, R149: the deferred loads of an instance that commits, those that failed filling the fail mask. -/
def Thread.failed (t : Thread) : Thread :=
  (t.deferred.filter fun d => !d.committed).foldl (fun t d => match d.returned with | some none => t.failFill d | _ => t) t

theorem Thread.unfailed_failed (t : Thread) : t.failed.unfailed = t.unfailed := by
  refine foldl_keeps Thread.unfailed _ (fun u d => ?_) _ t
  split <;> rfl

/-- R132: what the effects of a commit leave of a thread. -/
def Thread.steady (t : Thread) : Thread :=
  { t with live := [], badParity := 0, fpMode := 0, failMask := 0, failRec := none, deferred := [], pending := 0, epoch := 0, buf := [] }

theorem Thread.steady_commitDeferred (t : Thread) : t.commitDeferred.commitBuf.steady = t.steady :=
  (congrArg Thread.steady (Thread.unfailed_failed t) :)

theorem Thread.commitDeferred_live (t : Thread) : t.commitDeferred.commitBuf.live = t.live :=
  (congrArg Thread.live (Thread.unfailed_failed t) :)

theorem Thread.commitDeferred_fpMode (t : Thread) : t.commitDeferred.commitBuf.fpMode = t.fpMode :=
  (congrArg Thread.fpMode (Thread.unfailed_failed t) :)

theorem Thread.commitDeferred_buf {t u : Thread} (hb : u.buf = t.buf) (hd : u.deferred = t.deferred) (he : u.epoch = t.epoch) :
    u.commitDeferred.commitBuf.buf = t.commitDeferred.commitBuf.buf := by
  have buf (t : Thread) : t.commitDeferred.buf = t.buf := (congrArg Thread.buf (Thread.unfailed_failed t) :)
  have epoch (t : Thread) : t.commitDeferred.epoch = t.epoch := (congrArg Thread.epoch (Thread.unfailed_failed t) :)
  simp only [Thread.commitBuf, buf, epoch, hb, he]
  simp only [Thread.commitDeferred, hd]

theorem Thread.committed_live (t : Thread) (x : Inst) : (t.committed x).live = (t.written (x.writes t.deferred)).live :=
  Thread.commitDeferred_live _

theorem Thread.committed_fpMode (t : Thread) (x : Inst) : (t.committed x).fpMode = x.fpNext.getD t.fpMode :=
  Thread.commitDeferred_fpMode _

theorem Thread.committed_steady (t : Thread) (x : Inst) : (t.committed x).steady = t.steady :=
  (Thread.steady_commitDeferred _).trans (congrArg Thread.steady (Thread.unslotted_written t _) :)

theorem Thread.committed_buf (t : Thread) (x : Inst) : (t.committed x).buf = t.commitDeferred.commitBuf.buf :=
  Thread.commitDeferred_buf (congrArg Thread.buf (Thread.unslotted_written t _) :)
    (congrArg Thread.deferred (Thread.unslotted_written t _) :) (congrArg Thread.epoch (Thread.unslotted_written t _) :)

/-! The pending bits and the fail mask -/

theorem slotMask_getLsbD (l : List Nat) {n : Nat} (hn : n < 64) : (slotMask l).getLsbD n = l.contains n := by
  suffices ∀ m : DWord, (l.foldl (fun m i => m ||| BitVec.ofNat 64 (2 ^ i)) m).getLsbD n = (m.getLsbD n || l.contains n) by
    rw [slotMask, this]
    simp
  induction l with
  | nil => simp
  | cons i l ih =>
    intro m
    have same : decide (i = n) = (n == i) := by
      rw [Bool.eq_iff_iff, decide_eq_true_iff, beq_iff_eq]
      exact eq_comm
    rw [List.foldl_cons, ih, BitVec.getLsbD_or, BitVec.getLsbD_ofNat, Nat.testBit_two_pow, Bool.or_assoc, same, decide_eq_true hn,
      Bool.true_and, List.contains_cons]

/-- R147: the mask of the slots of those loads that a test selects. -/
theorem foldl_slotMask_getLsbD (ds : List Deferred) (sel : Deferred → Bool) {n : Nat} (hn : n < 64) (m : DWord) :
    (ds.foldl (fun m d => if sel d then m ||| slotMask d.slots else m) m).getLsbD n =
      (m.getLsbD n || (ds.filter sel).any fun d => d.slots.contains n) := by
  induction ds generalizing m with
  | nil => simp
  | cons d ds ih =>
    rw [List.foldl_cons, ih]
    cases h : sel d <;> simp [h, slotMask_getLsbD _ hn, Bool.or_assoc]

/-- R149: one deferred load of an instance that commits. -/
def Thread.failOne (t : Thread) (d : Deferred) : Thread := match d.returned with | some none => t.failFill d | _ => t

theorem Thread.failOne_eq (t : Thread) (d : Deferred) : t.failOne d = if d.returned == some none then t.failFill d else t := by
  unfold Thread.failOne
  rcases d.returned with _ | _ | v <;> rfl

theorem Thread.foldl_failOne_mask (ds : List Deferred) (t : Thread) :
    (ds.foldl Thread.failOne t).failMask =
      ds.foldl (fun m d => if d.returned == some none then m ||| slotMask d.slots else m) t.failMask := by
  induction ds generalizing t with
  | nil => rfl
  | cons d ds ih =>
    rw [List.foldl_cons, ih, List.foldl_cons, Thread.failOne_eq]
    split <;> rfl

theorem Thread.foldl_failOne_filter (ds : List Deferred) (t : Thread) :
    ds.foldl Thread.failOne t = (ds.filter fun d => d.returned == some none).foldl Thread.failFill t := by
  induction ds generalizing t with
  | nil => rfl
  | cons d ds ih =>
    rw [List.foldl_cons, ih, Thread.failOne_eq, List.filter_cons]
    split <;> rfl

theorem or_ne_zero_of_left {a : DWord} (h : a ≠ 0) (b : DWord) : a ||| b ≠ 0 := fun he => h (by
  apply BitVec.eq_of_getLsbD_eq
  intro i hi
  have bit := congrArg (·.getLsbD i) he
  simp only [BitVec.getLsbD_or, BitVec.ofNat_eq_ofNat, BitVec.getLsbD_zero, Bool.or_eq_false_iff] at bit
  simpa using bit.1)

/-- R149: only the first failure is recorded. -/
theorem Thread.foldl_failFill_failRec (ds : List Deferred) (t : Thread) (h : t.failMask ≠ 0) :
    (ds.foldl Thread.failFill t).failRec = t.failRec := by
  induction ds generalizing t with
  | nil => rfl
  | cons d ds ih =>
    rw [List.foldl_cons, ih _ (or_ne_zero_of_left h _), Thread.failFill, if_neg h]

theorem Thread.failed_eq (t : Thread) : t.failed =
    (t.deferred.filter fun d => !d.committed && d.returned == some none).foldl Thread.failFill t := by
  rw [Thread.failed]
  refine (Thread.foldl_failOne_filter _ t).trans ?_
  rw [List.filter_filter]
  congr 2
  funext d
  exact Bool.and_comm _ _

/-- What a commit reads of a thread that its writes leave: its deferred loads and its fail mask. -/
theorem Thread.committed_failed (t : Thread) (x : Inst) : ∃ u : Thread, u.deferred = t.deferred ∧ u.failMask = t.failMask ∧
    u.failRec = t.failRec ∧ u.pending = t.pending ∧ t.committed x = u.commitDeferred.commitBuf :=
  ⟨{ t.written (x.writes t.deferred) with fpMode := x.fpNext.getD t.fpMode },
    (congrArg Thread.deferred (Thread.unslotted_written t _) :), (congrArg Thread.failMask (Thread.unslotted_written t _) :),
    (congrArg Thread.failRec (Thread.unslotted_written t _) :), (congrArg Thread.pending (Thread.unslotted_written t _) :), rfl⟩

/-- R147: the slots of a deferred load that has not returned are pending. -/
theorem Thread.committed_pending (t : Thread) (x : Inst) {n : Nat} (hn : n < 64) : (t.committed x).pending.getLsbD n =
    (t.pending.getLsbD n || (t.deferred.filter fun d => !d.committed && d.returned.isNone).any fun d => d.slots.contains n) := by
  obtain ⟨u, hd, -, -, hp, h⟩ := t.committed_failed x
  rw [h]
  refine (foldl_slotMask_getLsbD _ (fun d => d.returned.isNone) hn u.pending).trans ?_
  rw [hp, hd, List.filter_filter]
  simp only [Bool.and_comm]

/-- R149: the slots of a deferred load that failed before the commit are in the fail mask. -/
theorem Thread.committed_failMask (t : Thread) (x : Inst) {n : Nat} (hn : n < 64) : (t.committed x).failMask.getLsbD n =
    (t.failMask.getLsbD n || (t.deferred.filter fun d => !d.committed && d.returned == some none).any fun d => d.slots.contains n) := by
  obtain ⟨u, hd, hf, -, -, h⟩ := t.committed_failed x
  have mask : (t.committed x).failMask = (u.deferred.filter fun d => !d.committed).foldl
      (fun m d => if d.returned == some none then m ||| slotMask d.slots else m) u.failMask := by
    rw [h]
    exact Thread.foldl_failOne_mask _ u
  rw [mask, foldl_slotMask_getLsbD _ _ hn, hf, hd, List.filter_filter]
  simp only [Bool.and_comm]

theorem Thread.committed_failRec (t : Thread) (x : Inst) : ∃ u : Thread, u.failMask = t.failMask ∧ u.failRec = t.failRec ∧
    (t.committed x).failRec =
      ((t.deferred.filter fun d => !d.committed && d.returned == some none).foldl Thread.failFill u).failRec := by
  obtain ⟨u, hd, hf, hr, -, h⟩ := t.committed_failed x
  refine ⟨u, hf, hr, ?_⟩
  rw [h, ← hd, ← Thread.failed_eq]
  rfl

/-- R149: no failure, or one after another, leaves the first failure's record. -/
theorem Thread.committed_failRec_kept (t : Thread) (x : Inst)
    (h : t.failMask ≠ 0 ∨ t.deferred.filter (fun d => !d.committed && d.returned == some none) = []) :
    (t.committed x).failRec = t.failRec := by
  obtain ⟨u, hf, hr, heq⟩ := t.committed_failRec x
  rw [heq, ← hr]
  rcases h with h | h
  · exact Thread.foldl_failFill_failRec _ u (by rwa [hf])
  · rw [h]
    rfl

/-- R149: the first failure is recorded. -/
theorem Thread.committed_failRec_first (t : Thread) (x : Inst) {d : Deferred} {rest : List Deferred} (hm : t.failMask = 0)
    (h : t.deferred.filter (fun d => !d.committed && d.returned == some none) = d :: rest) (hs : slotMask d.slots ≠ 0) :
    (t.committed x).failRec = some ⟨.poison, d.blk, d.va, memDetail d.idx 0 0 0⟩ := by
  obtain ⟨u, hf, -, heq⟩ := t.committed_failRec x
  rw [hm] at hf
  have mask : (u.failFill d).failMask ≠ 0 := by
    rw [Thread.failFill, hf]
    simpa using hs
  rw [heq, h, List.foldl_cons, Thread.foldl_failFill_failRec _ _ mask, Thread.failFill, if_pos hf]

/-! An instance that leaves its context -/

@[simp] theorem State.core_modThread_regions (s : State) (c sl : Nat) (f : Thread → Thread) (c' : Nat) :
    ((s.modThread c sl f).core c').regions = (s.core c').regions := by
  by_cases h : c' = c
  · rw [h, State.modThread, State.core_modCore_self]
    rfl
  · rw [State.modThread, State.core_modCore_ne _ _ h]

theorem State.leaveContext_thread (s : State) (c sl k : Nat) :
    (s.leaveContext c sl k).thread c sl = { s.thread c sl with inst := none, place := .filing k } := by
  rw [State.leaveContext, State.thread_modThread_self, State.thread_modCore]
  exact fun _ => rfl

theorem State.leaveContext_only (s : State) (c sl k : Nat) : OnlyThread s (s.leaveContext c sl k) c sl :=
  OnlyThread.trans ((State.modCore_same s c (f := fun x => x.modContext k fun y => { y with idleSince := s.clk })
    fun _ => ⟨rfl, rfl⟩).only c sl) (State.modThread_only _ c sl _)

theorem State.leaveContext_openRegion (s : State) (c sl k : Nat) : (s.leaveContext c sl k).openRegion c sl = s.openRegion c sl := by
  refine State.openRegion_congr (by rw [State.leaveContext_thread]) ?_
  rw [State.leaveContext, State.core_modThread_regions, State.core_modCore_self]
  rfl

section
variable {s : State} {c sl : Nat} (hr : s.openRegion c sl = none) (x : Inst)
include hr

theorem State.commitEffects_thread : (s.commitEffects c sl x).thread c sl = (s.thread c sl).committed x := by
  rw [State.commitEffects_eq hr, State.thread_modCore, State.thread_modThread_self]
  exact fun y => (Core.queueWrites_rest y sl _).2.1

theorem State.commitEffects_only : OnlyThread s (s.commitEffects c sl x) c sl := by
  rw [State.commitEffects_eq hr]
  refine OnlyThread.trans (State.modThread_only s c sl _) ((State.modCore_same _ c fun y => ?_).only c sl)
  exact ⟨(Core.queueWrites_rest y sl _).2.1, (Core.queueWrites_rest y sl _).1⟩

theorem State.commitEffects_openRegion : (s.commitEffects c sl x).openRegion c sl = none := by
  refine (State.openRegion_congr ?_ ?_).trans hr
  · rw [State.commitEffects_thread hr]
    exact (congrArg Thread.region (Thread.committed_steady _ x) :)
  · rw [State.commitEffects_eq hr, State.core_modCore_self, (Core.queueWrites_rest _ sl _).2.2.1, State.core_modThread_regions]

/-- R132: the thread of an instance whose commit has taken effect, before its terminator has. -/
theorem State.left_thread (k : Nat) : ((s.commitEffects c sl x).leaveContext c sl k).thread c sl =
    { (s.thread c sl).committed x with inst := none, place := .filing k } := by
  rw [State.leaveContext_thread, State.commitEffects_thread hr]

theorem State.left_openRegion (k : Nat) : ((s.commitEffects c sl x).leaveContext c sl k).openRegion c sl = none :=
  (State.leaveContext_openRegion _ c sl k).trans (State.commitEffects_openRegion hr x)

theorem State.left_only (k : Nat) : OnlyThread s ((s.commitEffects c sl x).leaveContext c sl k) c sl :=
  (State.commitEffects_only hr x).trans (State.leaveContext_only _ c sl k)

end

/-! A fault at the commit -/

theorem Thread.not_filedIn_of_filing {t : Thread} {k : Nat} (h : t.place = .filing k) : ¬ t.filedIn := by
  rintro (⟨b, hb⟩ | hb) <;> rw [h] at hb <;> cases hb

/-- R152: outside a save nothing is saved. -/
theorem State.saveWaiter_id {s : State} {c sl : Nat} (h : (s.groupOf c sl).isSaving = false) : s.saveWaiter c sl = s := by
  rw [State.saveWaiter, h]
  rfl

/-- R63, R113: noting the idempotent entry changes no more of a thread. -/
theorem State.noteIdem_thread (s : State) (c sl : Nat) (fromId : Bool) (addr : VAddr) :
    ∃ a, (s.noteIdem c sl fromId addr).thread c sl = { s.thread c sl with idem := a } := by
  unfold State.noteIdem
  split
  · exact ⟨_, State.thread_modThread_self ..⟩
  · exact ⟨_, rfl⟩

theorem State.noteIdem_only (s : State) (c sl : Nat) (fromId : Bool) (addr : VAddr) : OnlyThread s (s.noteIdem c sl fromId addr) c sl := by
  unfold State.noteIdem
  split
  · exact State.modThread_only ..
  · exact (show SameThreads s s from fun _ => ⟨rfl, rfl⟩).only c sl

theorem State.noteIdem_openRegion (s : State) (c sl : Nat) (fromId : Bool) (addr : VAddr) :
    (s.noteIdem c sl fromId addr).openRegion c sl = s.openRegion c sl := by
  obtain ⟨a, h⟩ := s.noteIdem_thread c sl fromId addr
  refine State.openRegion_congr (by rw [h]) ?_
  unfold State.noteIdem
  split
  · rw [State.core_modThread_regions]
  · rfl

@[simp] theorem State.noteIdem_clk (s : State) (c sl : Nat) (fromId : Bool) (addr : VAddr) :
    (s.noteIdem c sl fromId addr).clk = s.clk := by
  unfold State.noteIdem
  split <;> rfl

/-- R100, R113: a thread whose next block is decided is on its way there. -/
theorem State.moveTo_thread {s : State} {c sl k : Nat} (h : (s.thread c sl).place = .filing k) (b : Block) (a : VAddr) :
    ∃ i, (s.moveTo c sl b a).thread c sl = { s.thread c sl with idem := i, next := a, filed := s.clk, inst := none } := by
  obtain ⟨i, hi⟩ := s.noteIdem_thread c sl (hdrID b.hdr) a
  refine ⟨i, ?_⟩
  rw [State.moveTo, State.noteNext, State.fileTo, State.fileFrom, State.thread_modThread_self, hi, State.noteIdem_clk]
  dsimp only
  rw [h]

/-- R404: what a fault leaves of the thread that it takes. -/
theorem State.takeTrap_leaves {s : State} {c sl k : Nat} (hr : s.openRegion c sl = none) (hp : (s.thread c sl).place = .filing k)
    (tr : Trap) : let u := (s.takeTrap c sl tr).thread c sl
    u.inst = none ∧ u.place = .fault ∧ u.trap = some tr ∧ u.live = (s.thread c sl).live ∧ u.buf = (s.thread c sl).buf ∧
      (s.takeTrap c sl tr).groupOf c sl = s.groupOf c sl := by
  obtain ⟨rg, re, ra, sv, h⟩ := State.takeTrap_thread hr (Thread.not_filedIn_of_filing hp) tr
  simp only [State.groupOf, State.takeTrap_group, h]
  exact ⟨rfl, rfl, rfl, rfl, rfl, rfl⟩

/-- R404: what the record of a fault at the commit of an instance is to hold of its terminator's step. -/
def Thread.holding (x : Inst) (t : Thread) : Thread :=
  { t with waitIdx := x.n - 1, haltNext := x.blk,
           hdoneArg := match x.term with | .hdone w => if t.task.isSome then w else none | _ => none }

/-- R404: a fault at the commit holds the step of its instance's terminator. -/
theorem State.faultAtCommit_leaves {s : State} {c sl k : Nat} (hr : s.openRegion c sl = none) (hp : (s.thread c sl).place = .filing k)
    (x : Inst) (b : Block) (f : ThreadFault) :
    let h := heldOf x
    let arg := match x.term with | .hdone v => if (s.thread c sl).task.isSome then v else none | _ => none
    let u := (s.faultAtCommit c sl x b f).thread c sl
    u.inst = none ∧ u.place = .fault ∧ u.live = (s.thread c sl).live ∧
      u.trap = some ⟨f.cause, (s.thread c sl).priv, x.blk, h.2.1, h.2.2.1, h.2.2.2, f.va, f.detail, x.blk, ⟨h.1, x.blk, x.n - 1, arg⟩,
        false⟩ ∧
      (s.faultAtCommit c sl x b f).groupOf c sl = s.groupOf c sl := by
  intro h arg u
  obtain ⟨i, s1, hth, hop, grp, trapped⟩ : ∃ (i : VAddr) (s1 : State), s1.thread c sl = ({ s.thread c sl with idem := i } : Thread).holding x ∧
      s1.openRegion c sl = none ∧ s1.groupOf c sl = s.groupOf c sl ∧ s.faultAtCommit c sl x b f = s1.takeTrap c sl (s1.trapOf c sl f.cause x.blk h.2.1 h.2.2.2 h.2.2.1
        f.va f.detail h.1) := by
    obtain ⟨i, s0, hth, hop, only, trapped⟩ : ∃ (i : VAddr) (s0 : State), s0.thread c sl = { s.thread c sl with idem := i } ∧ s0.openRegion c sl = none ∧
        (∀ g, s0.group c g = s.group c g) ∧ s.faultAtCommit c sl x b f = (s0.modThread c sl fun t => t.holding x).takeTrap c sl
          ((s0.modThread c sl fun t => t.holding x).trapOf c sl f.cause x.blk h.2.1 h.2.2.2 h.2.2.1 f.va f.detail h.1) := by
      by_cases hd : h.2.2.2 = true
      · exact ⟨(s.thread c sl).idem, s, rfl, hr, fun _ => rfl, by rw [State.faultAtCommit, if_pos hd]; rfl⟩
      · obtain ⟨i, hi⟩ := s.noteIdem_thread c sl (hdrID b.hdr) h.2.1
        exact ⟨i, s.noteNext c sl b h.2.1, hi, (s.noteIdem_openRegion ..).trans hr, (s.noteIdem_only c sl _ _).2 c,
          by rw [State.faultAtCommit, if_neg hd]; rfl⟩
    refine ⟨i, _, ?_, (State.openRegion_congr ?_ (State.core_modThread_regions ..)).trans hop, ?_, trapped⟩
    · rw [State.thread_modThread_self, hth]
    · rw [State.thread_modThread_self]
      rfl
    · rw [State.groupOf, State.thread_modThread_self, State.group_modThread, only, hth]
      rfl
  obtain ⟨hinst, hplace, htrap, hlive, -, hgrp⟩ := State.takeTrap_leaves hop (k := k) (by rw [hth]; exact hp)
    (s1.trapOf c sl f.cause x.blk h.2.1 h.2.2.2 h.2.2.1 f.va f.detail h.1)
  simp only [u, trapped]
  refine ⟨hinst, hplace, hlive.trans (by rw [hth]; rfl), htrap.trans ?_, hgrp.trans grp⟩
  rw [State.trapOf, hth]
  rfl

end Sys2Proof.Machine
end

section
/-! The commits. -/

namespace Sys2Proof.Machine

/-- R132: the commit of the instance whose turn it is, outside a save. -/
theorem State.blockCommit_eq {s : State} {c sl : Nat} {x : Inst} (hn : s.nextCommit c = some (sl, x))
    (hg : ((s.commitInst c sl x).groupOf c sl).isSaving = false) : s.blockCommit c sl = s.commitInst c sl x := by
  rw [State.blockCommit]
  simp only [hn, if_true]
  exact State.saveWaiter_id hg

theorem OnlyThread.groupOf {s t : State} {c sl : Nat} (h : OnlyThread s t c sl) (hg : (t.thread c sl).group = (s.thread c sl).group) :
    t.groupOf c sl = s.groupOf c sl := by
  rw [State.groupOf, State.groupOf, hg, h.2]

section
variable {s : State} {c sl : Nat} {x : Inst} (hr : s.openRegion c sl = none)
include hr

/-- R113: a commit with no fault. -/
theorem State.commitInst_goto (hf : s.commitFault c sl x = none) {a : VAddr} {link : Option VAddr} (ht : x.term = .goto a link) :
    s.commitInst c sl x = ((s.commitEffects c sl x).leaveContext c sl x.ctx).moveTo c sl ((s.core c).context x.ctx).block a := by
  simp only [State.commitInst, hr, hf, State.terminate, ht, Option.isSome_none]

theorem State.commitInst_fault {f : ThreadFault} (hf : s.commitFault c sl x = some (f, false)) : s.commitInst c sl x =
    ((s.commitEffects c sl x).leaveContext c sl x.ctx).faultAtCommit c sl x ((s.core c).context x.ctx).block f := by
  simp only [State.commitInst, hr, hf, Option.isSome_none, Bool.false_eq_true, if_false]

theorem State.commitInst_own {f : ThreadFault} (hf : s.commitFault c sl x = some (f, true)) : ∃ s2 : State,
    s2 = (s.commitEffects c sl { x with term := .undecided }).leaveContext c sl x.ctx ∧ s.commitInst c sl x =
    (s2.noteNext c sl ((s.core c).context x.ctx).block x.ft).takeTrap c sl
      (s2.trapOf c sl f.cause x.blk x.ft false false f.va f.detail .none) := by
  refine ⟨_, rfl, ?_⟩
  simp only [State.commitInst, hr, hf, Option.isSome_none, Bool.false_eq_true, if_false, if_true]

end

theorem State.left_clk {s : State} {c sl : Nat} (hr : s.openRegion c sl = none) (x : Inst) (k : Nat) :
    ((s.commitEffects c sl x).leaveContext c sl k).clk = s.clk := by
  rw [State.commitEffects_eq hr]
  rfl

theorem State.left_groupOf {s : State} {c sl : Nat} (hr : s.openRegion c sl = none) (x : Inst) (k : Nat) :
    ((s.commitEffects c sl x).leaveContext c sl k).groupOf c sl = s.groupOf c sl :=
  (State.left_only hr x k).groupOf (by
    rw [State.left_thread hr]
    exact (congrArg Thread.group (Thread.committed_steady _ x) :))

theorem State.moveTo_only (s : State) (c sl : Nat) (b : Block) (a : VAddr) : OnlyThread s (s.moveTo c sl b a) c sl :=
  (State.noteIdem_only ..).trans (State.modThread_only ..)

/-- R132: BLOCK_COMMIT of the instance whose turn it is, in a group that is not being saved. -/
theorem State.exec_blockCommit {s : State} {c sl : Nat} {x : Inst} (hargs : s.args = [c, sl]) (hn : s.nextCommit c = some (sl, x))
    (hg : (s.groupOf c sl).isSaving = false) (hkeep : (s.commitInst c sl x).groupOf c sl = s.groupOf c sl) :
    exec .blockCommit s = .next (s.commitInst c sl x) := by
  simp only [exec, execBlockCommit, State.arg, hargs]
  exact congrArg _ (State.blockCommit_eq hn (hkeep ▸ hg))

/-- R113, R132: what BLOCK_COMMIT leaves of the thread of an instance that goes on. -/
theorem State.blockCommit_goto {s : State} {c sl : Nat} {x : Inst} (hargs : s.args = [c, sl]) (hn : s.nextCommit c = some (sl, x))
    (hr : s.openRegion c sl = none) (hg : (s.groupOf c sl).isSaving = false) (hf : s.commitFault c sl x = none) {a : VAddr}
    {link : Option VAddr} (ht : x.term = .goto a link) : ∃ w i, exec .blockCommit s = .next w ∧ w.mem = s.mem ∧
      w.thread c sl = { (s.thread c sl).committed x with idem := i, next := a, filed := s.clk, inst := none, place := .filing x.ctx } := by
  have left := State.left_thread hr x x.ctx
  obtain ⟨i, hi⟩ := State.moveTo_thread (congrArg Thread.place left :) ((s.core c).context x.ctx).block a
  rw [left] at hi
  refine ⟨s.commitInst c sl x, i, State.exec_blockCommit hargs hn hg ?_, ?_, ?_⟩ <;> rw [State.commitInst_goto hr hf ht]
  · refine ((State.moveTo_only ..).groupOf ?_).trans (State.left_groupOf hr x x.ctx)
    rw [hi, left]
  · simp
  · rw [hi, State.left_clk hr]

/-- R133, R404: a squashed instance whose instructions have all completed, outside a region. -/
theorem State.squashedEnd_eq {s : State} {c sl : Nat} {x : Inst} {f : ThreadFault} {n : Nat} (hi : (s.thread c sl).inst = some x)
    (hsq : x.squash = some f) (hfull : x.fullAt = some n) (hr : s.openRegion c sl = none) (hc : x.n ≤ x.count) (hn : n ≤ s.clk)
    (hq : x.reqs = []) : ∃ s1, s1 = (s.leaveContext c sl x.ctx).modThread c sl Thread.dropOwn ∧ s.squashedEnd c sl =
      if (s.savedOf (s.groupOf c sl).grid (s.groupOf c sl).lin).any (·.discarded) then
        s1.modThread c sl fun t => { t with inst := none, place := .saved }
      else (s1.takeTrap c sl (s1.trapOf c sl f.cause x.blk x.ft false false f.va f.detail .none)).saveWaiter c sl := by
  refine ⟨_, rfl, ?_⟩
  have kept : ((s.leaveContext c sl x.ctx).modThread c sl Thread.dropOwn).openRegion c sl = none := by
    refine (State.openRegion_congr ?_ (State.core_modThread_regions ..)).trans ((State.leaveContext_openRegion ..).trans hr)
    rw [State.thread_modThread_self]
    rfl
  have waits : (x.count < x.n || !decide (n ≤ s.clk) || !x.reqs.isEmpty || ((s.openRegion c sl).isSome && !(s.core c).roomAll)) =
      false := by
    simp [hr, hc, hn, hq]
  simp only [State.squashedEnd, hi, hsq, hfull, waits, kept, Option.isSome_none, Bool.false_eq_true, if_false]
  cases s.savedOf (s.groupOf c sl).grid (s.groupOf c sl).lin <;> rfl

end Sys2Proof.Machine
open Sys2Proof Sys2Proof.Machine

/-- Settles O37: what a commit leaves of its thread is what its writes and deferred loads make of it, then what its terminator or its
fault makes of that. -/
theorem commits : Obligations.Commits := by
  unfold Obligations.Commits
  refine ⟨fun s c sl x hargs hn hi hr hg hh => ?_, fun s c sl => ⟨fun x f n hargs hi hsq hfull hr hg => ?_, fun hargs hat hany => ?_⟩⟩
  · intro t written
    have steady := Thread.committed_steady t x
    refine ⟨fun a link hf ht => ?_, fun a link hf ht => ?_, fun f hf => ?_, fun f hf => ?_⟩
    · obtain ⟨w, i, hw, hmem, hth⟩ := State.blockCommit_goto hargs hn hr hg hf ht
      refine ⟨w, hw, ?_⟩
      rw [hth]
      exact ⟨rfl, rfl, rfl, rfl, Thread.committed_live t x, Thread.committed_fpMode t x, Thread.committed_buf t x, hmem⟩
    · obtain ⟨w, i, hw, hmem, hth⟩ := State.blockCommit_goto hargs hn hr hg hf ht
      refine ⟨w, hw, ?_⟩
      rw [hth]
      exact ⟨fun n hn => ⟨Thread.committed_pending t x hn, Thread.committed_failMask t x hn⟩, Thread.committed_failRec_kept t x,
        fun d rest hm hd hs => Thread.committed_failRec_first t x hm hd (hs d (by rw [hd]; exact List.mem_cons_self))⟩
    · have left := State.left_thread hr x x.ctx
      obtain ⟨hinst, hplace, hlive, htrap, hgrp⟩ := State.faultAtCommit_leaves (State.left_openRegion hr x x.ctx)
        (congrArg Thread.place left :) x ((s.core c).context x.ctx).block f
      rw [left] at hlive htrap
      refine ⟨_, State.exec_blockCommit hargs hn hg ?_, ?_⟩ <;> rw [State.commitInst_fault hr hf]
      · exact hgrp.trans (State.left_groupOf hr x x.ctx)
      · refine ⟨hinst, hplace, htrap.trans ?_, hlive.trans (Thread.committed_live t x), by simp⟩
        have priv : (t.committed x).priv = t.priv := (congrArg Thread.priv steady :)
        have task : (t.committed x).task = t.task := (congrArg Thread.task steady :)
        dsimp only
        rw [priv, task] <;> rfl
    · obtain ⟨s2, hs2, heq⟩ := State.commitInst_own (x := x) hr hf
      have left := hs2 ▸ State.left_thread hr { x with term := .undecided } x.ctx
      have grp := hs2 ▸ State.left_groupOf hr { x with term := .undecided } x.ctx
      have open2 := hs2 ▸ State.left_openRegion hr { x with term := .undecided } x.ctx
      have mem : s2.mem = s.mem := by simp [hs2]
      clear hs2
      obtain ⟨i, hi2⟩ := s2.noteIdem_thread c sl (hdrID ((s.core c).context x.ctx).block.hdr) x.ft
      obtain ⟨hinst, hplace, htrap, -, -, hgrp⟩ := State.takeTrap_leaves ((s2.noteIdem_openRegion c sl _ x.ft).trans open2)
        (congrArg Thread.place (hi2.trans (by rw [left])) :) (s2.trapOf c sl f.cause x.blk x.ft false false f.va f.detail .none)
      refine ⟨_, State.exec_blockCommit hargs hn hg ?_, ?_⟩ <;> rw [heq]
      · exact hgrp.trans (((s2.noteIdem_only c sl _ _).groupOf (by rw [hi2])).trans grp)
      · refine ⟨hinst, hplace, htrap.trans ?_, by simp [mem]⟩
        have steady := Thread.committed_steady t { x with term := .undecided }
        have priv : (t.committed { x with term := .undecided }).priv = t.priv := (congrArg Thread.priv steady :)
        have idx : (t.committed { x with term := .undecided }).waitIdx = t.waitIdx := (congrArg Thread.waitIdx steady :)
        have arg : (t.committed { x with term := .undecided }).hdoneArg = t.hdoneArg := (congrArg Thread.hdoneArg steady :)
        rw [State.trapOf, left]
        dsimp only
        rw [priv, idx, arg]
  · intro dropped
    have hdrop : dropped = (s.savedOf (s.groupOf c sl).grid (s.groupOf c sl).lin).any (·.discarded) := by
      simp only [dropped]
      cases s.savedOf (s.groupOf c sl).grid (s.groupOf c sl).lin <;> rfl
    have run : exec .squashedEnd s = .next (s.squashedEnd c sl) := by
      simp only [exec, execSquashedEnd, State.arg, hargs]
      rfl
    have hth : ((s.leaveContext c sl x.ctx).modThread c sl Thread.dropOwn).thread c sl =
        { s.thread c sl with inst := none, place := .filing x.ctx, buf := (s.thread c sl).buf.filter (·.committed),
                             deferred := (s.thread c sl).deferred.filter (·.committed) } := by
      rw [State.thread_modThread_self, State.leaveContext_thread]
      rfl
    refine ⟨fun hwait => ?_, fun hd hc hn hq => ?_, fun hd hc hn hq => ?_⟩
    · have waits : (x.count < x.n || !decide (n ≤ s.clk) || !x.reqs.isEmpty || ((s.openRegion c sl).isSome && !(s.core c).roomAll)) =
          true := by
        rcases hwait with h | h | h
        · simp [h]
        · simp [Nat.not_le.2 h]
        · cases hq : x.reqs with
          | nil => exact absurd hq h
          | cons => simp
      rw [run, State.squashedEnd]
      simp only [hi, hsq, hfull, waits, if_true]
    · obtain ⟨s1, hs1, heq⟩ := State.squashedEnd_eq hi hsq hfull hr hc hn hq
      rw [← hdrop, if_pos hd] at heq
      refine ⟨_, run, ?_⟩
      rw [heq, State.thread_modThread_self, hs1, hth]
      exact ⟨rfl, rfl, rfl, by simp⟩
    · obtain ⟨s1, hs1, heq⟩ := State.squashedEnd_eq hi hsq hfull hr hc hn hq
      rw [← hdrop, if_neg (by simp [hd])] at heq
      rw [← hs1] at hth
      have open1 : s1.openRegion c sl = none :=
        (State.openRegion_congr (by rw [hth]) (by rw [hs1, State.core_modThread_regions, State.leaveContext,
          State.core_modThread_regions, State.core_modCore_self]; rfl)).trans hr
      have only : OnlyThread s s1 c sl := hs1 ▸ (State.leaveContext_only ..).trans (State.modThread_only ..)
      obtain ⟨hinst, hplace, htrap, hlive, hbuf, hgrp⟩ := State.takeTrap_leaves open1 (congrArg Thread.place hth :)
        (s1.trapOf c sl f.cause x.blk x.ft false false f.va f.detail .none)
      have grp := hgrp.trans (only.groupOf (by rw [hth]))
      rw [State.saveWaiter_id (by rw [grp, hg])] at heq
      refine ⟨_, run, ?_⟩
      rw [heq]
      refine ⟨hinst, hplace, htrap.trans ?_, hlive.trans (by rw [hth]), hbuf.trans (by rw [hth]), by simp [hs1]⟩
      rw [State.trapOf, hth]
      rfl
  · simp only [exec, execLiveWritePerform, State.arg, hargs]
    exact congrArg _ (if_neg (by simpa [hat] using hany))
end

section
/-! What the accesses of agents and units change, besides memory, the caches and the TLBs: no thread, no group, no time. -/

namespace Sys2Proof.Machine

/-- A core without its L1, its TLB and the marks of stale inputs. -/
def Core.quiet (x : Core) : Core := { x.uncached with tlb := [] }

/-- The state without the cores and the dies, and without memory. -/
def State.quiet (s : State) : State := { s with cores := [], dies := [], urgent := [], mem := State.reset.mem, poison := [] }

/-- `t` is `s` but for memory, the dies, and what the caches and the TLBs of the cores hold. -/
structure AccessOnly (s t : State) : Prop where
  rest : t.quiet = s.quiet
  core : ∀ c, (t.core c).quiet = (s.core c).quiet

namespace AccessOnly

variable {s t u : State}

theorem refl (s : State) : AccessOnly s s := ⟨rfl, fun _ => rfl⟩

theorem trans (h : AccessOnly s t) (h' : AccessOnly t u) : AccessOnly s u :=
  ⟨h'.rest.trans h.rest, fun c => (h'.core c).trans (h.core c)⟩

theorem foldl {β : Type} (f : State → β → State) (h : ∀ s b, AccessOnly s (f s b)) (l : List β) (s : State) :
    AccessOnly s (l.foldl f s) :=
  foldl_invariant (AccessOnly s) f l (fun a b _ ha => ha.trans (h a b)) (refl s)

theorem modDie (s : State) (d : Nat) (f : Die → Die) : AccessOnly s (s.modDie d f) :=
  ⟨rfl, fun c => by rw [State.core_modDie]⟩

theorem modCore (s : State) (c : Nat) {f : Core → Core} (hf : ∀ x, (f x).quiet = x.quiet) : AccessOnly s (s.modCore c f) := by
  refine ⟨rfl, fun c' => ?_⟩
  by_cases hc : c' = c
  · rw [hc, State.core_modCore_self, hf]
  · rw [State.core_modCore_ne _ _ hc]

theorem of_cacheOnly (h : CacheOnly s t) : AccessOnly s t :=
  ⟨congrArg (fun x : State => { x with mem := State.reset.mem, poison := [] }) h.rest,
    fun c => congrArg (fun x : Core => { x with tlb := [] }) (h.core c)⟩

theorem clk (h : AccessOnly s t) : t.clk = s.clk := (congrArg State.clk h.rest :)
theorem grids (h : AccessOnly s t) : t.grids = s.grids := (congrArg State.grids h.rest :)
theorem reports (h : AccessOnly s t) : t.reports = s.reports := (congrArg State.reports h.rest :)
theorem grid (h : AccessOnly s t) (g : Nat) : t.grid g = s.grid g := by rw [State.grid, State.grid, h.grids]

theorem threads (h : AccessOnly s t) (c : Nat) : (t.core c).threads = (s.core c).threads := (congrArg Core.threads (h.core c) :)
theorem groups (h : AccessOnly s t) (c : Nat) : (t.core c).groups = (s.core c).groups := (congrArg Core.groups (h.core c) :)

theorem same (h : AccessOnly s t) : SameThreads s t := fun c => ⟨h.threads c, h.groups c⟩
theorem thread (h : AccessOnly s t) (c sl : Nat) : t.thread c sl = s.thread c sl := h.same.thread c sl
theorem group (h : AccessOnly s t) (c g : Nat) : t.group c g = s.group c g := h.same.group c g
theorem groupOf (h : AccessOnly s t) (c sl : Nat) : t.groupOf c sl = s.groupOf c sl := by
  rw [State.groupOf, State.groupOf, h.thread, h.group]
theorem gridOf (h : AccessOnly s t) (c sl : Nat) : t.gridOf c sl = s.gridOf c sl := by
  rw [State.gridOf, State.gridOf, h.groupOf, h.grid]

/-- Whether a thread is in an open region does not turn on the marks of its inputs. -/
theorem openRegion (h : AccessOnly s t) {c sl : Nat} (hr : s.openRegion c sl = none) : t.openRegion c sl = none := by
  have regions : Tbl.mapVals (fun _ r => Region.unmarked r) (t.core c).regions = Tbl.mapVals (fun _ r => r.unmarked) (s.core c).regions :=
    (congrArg Core.regions (h.core c) :)
  unfold State.openRegion at hr ⊢
  rw [h.thread]
  cases hk : (s.thread c sl).region with
  | none => rfl
  | some k =>
    rw [hk] at hr
    have found := congrArg (Tbl.find? · k) regions
    simp only [Tbl.find?_mapVals] at found
    dsimp only at hr ⊢
    cases ht : Tbl.find? (t.core c).regions k with
    | none => rfl
    | some r =>
      rw [ht] at found
      cases hs : Tbl.find? (s.core c).regions k with
      | none =>
        rw [hs] at found
        cases found
      | some r' =>
        rw [hs] at found hr
        have same : r.opened = r'.opened := (congrArg Region.opened (Option.some.inj found) :)
        have shut : r'.opened = false := by simpa using hr
        simp [same, shut]

end AccessOnly

theorem State.markStale_accessOnly (s : State) (lines : List Nat) : AccessOnly s (s.markStale lines) := by
  unfold State.markStale
  split
  · refine .of_cacheOnly ⟨rfl, fun c => ?_, fun _ => rfl⟩
    simp only [State.core, Tbl.get, Tbl.find?_mapVals]
    cases Tbl.find? s.cores c with
    | none => rfl
    | some x =>
      have unmarked : (fun (_ : Nat) (r : Region) => (r.staleAt lines.contains).unmarked) = fun _ r => r.unmarked :=
        funext fun _ => funext fun r => r.unmarked_staleAt _
      simp only [Core.uncached, Tbl.mapVals_mapVals, Option.map_some, Option.getD_some]
      exact congrArg (fun f => { x with l1 := [], regions := Tbl.mapVals f x.regions }) unmarked
  · exact .refl s

theorem State.wr_accessOnly (s : State) (loc : Nat) (bs : List Byte) : AccessOnly s (s.wr loc bs) := ⟨rfl, fun _ => rfl⟩

theorem State.putBytesNc_accessOnly (d : Nat) (s : State) (ls : List (Nat × Bool)) (bs : List Byte) :
    AccessOnly s (State.putBytesNc d s ls bs) := by
  induction ls generalizing s bs with
  | nil => exact .refl s
  | cons e t ih =>
    obtain ⟨loc, nc⟩ := e
    cases bs with
    | nil => exact .refl s
    | cons b u =>
      rw [State.putBytesNc]
      refine (s.wr_accessOnly loc [b]).trans (AccessOnly.trans ?_ (ih _ _))
      split
      · exact .modDie _ d _
      · exact .refl _

theorem State.foldAccess_accessOnly (s : State) (d : Nat) (write : Bool) (gs : List Seg) : AccessOnly s (s.foldAccess d write gs) :=
  .of_cacheOnly (.foldl _ (fun s l => (s.touchOther_cacheOnly l).trans (State.dirGrant_cacheOnly _ _ _ _)) _ s)

theorem State.agentStoreNc_accessOnly (s : State) (d : Nat) (gs : List Seg) (bs : List Byte) : AccessOnly s (s.agentStoreNc d gs bs) :=
  (State.foldAccess_accessOnly ..).trans ((State.putBytesNc_accessOnly ..).trans (State.markStale_accessOnly ..))

theorem State.walked_accessOnly (s : State) (w : Accessor) (va bytes : Nat) : AccessOnly s (s.walked w va bytes) := by
  have fill (s : State) (e : TlbEntry) : AccessOnly s (s.modCore w.core fun x => { x with tlb := tlbFillCore x.tlb e }) :=
    .modCore _ _ fun _ => rfl
  refine .foldl _ (fun s i => ?_) _ s
  dsimp only
  split
  · exact .refl s
  · split
    · exact fill s _
    · have read := AccessOnly.of_cacheOnly (s.walkReads_cacheOnly (dieOf w.core) w.group.root (va / 2 ^ 16 + i))
      split
      · rw [State.fillTlbs]
        exact read.trans ((fill _ _).trans (.modDie _ _ _))
      · exact read

/-- R425: the VALID bit of the active record is cleared: of the thread only that it stands in a nested record changes. -/
theorem State.clearValid_thread (s : State) (c sl : Nat) :
    ∃ t, AccessOnly s t ∧ s.clearValid c sl = t.modThread c sl fun t => { t with nestOpen := false } := by
  unfold State.clearValid
  dsimp only
  refine ⟨_, ?_, rfl⟩
  split
  · exact (State.walked_accessOnly ..).trans (State.agentStoreNc_accessOnly ..)
  · exact .refl s

end Sys2Proof.Machine
end

section
/-! Taking traps, and returning from them. -/

namespace Sys2Proof.Machine

/-! What a step that a trap holds keeps of its thread's mode -/

/-- The mode of a thread, its group, and its instance. -/
def Thread.mode (t : Thread) : Bool × Bool × Nat × Option Inst := (t.priv, t.nestOpen, t.group, t.inst)

/-- The mode of one thread is kept, and no group's save goes on. -/
def KeepsMode (s w : State) (c sl : Nat) : Prop :=
  (w.thread c sl).mode = (s.thread c sl).mode ∧ ∀ c' g, (w.group c' g).save = (s.group c' g).save

namespace KeepsMode

variable {s t u : State} {c sl : Nat}

theorem refl (s : State) (c sl : Nat) : KeepsMode s s c sl := ⟨rfl, fun _ _ => rfl⟩

theorem trans (h : KeepsMode s t c sl) (h' : KeepsMode t u c sl) : KeepsMode s u c sl :=
  ⟨h'.1.trans h.1, fun c' g => (h'.2 c' g).trans (h.2 c' g)⟩

theorem of_same (h : SameThreads s t) : KeepsMode s t c sl :=
  ⟨by rw [h.thread], fun c' g => by rw [h.group]⟩

theorem modThread (s : State) {f : Thread → Thread} (hf : (f (s.thread c sl)).mode = (s.thread c sl).mode) :
    KeepsMode s (s.modThread c sl f) c sl :=
  ⟨by rw [State.thread_modThread_self, hf], fun c' g => by rw [State.group_modThread]⟩

theorem modGroup (s : State) (c' g : Nat) {f : Group → Group} (hf : ∀ y, (f y).save = y.save) : KeepsMode s (s.modGroup c' g f) c sl := by
  refine ⟨by rw [State.thread_modGroup], fun c2 g2 => ?_⟩
  by_cases he : c2 = c' ∧ g2 = g
  · obtain ⟨rfl, rfl⟩ := he
    rcases State.group_modGroup_or s c2 g2 f with h | h <;> rw [h]
    exact hf _
  · have kept : (s.modGroup c' g f).group c2 g2 = s.group c2 g2 := by
      by_cases hc : c2 = c'
      · subst hc
        rw [State.group, State.modGroup, State.core_modCore_self, Core.group_modGroup_ne _ (fun h => he ⟨rfl, h⟩)]
        rfl
      · rw [State.group, State.modGroup, State.core_modCore_ne _ _ hc]
        rfl
    rw [kept]

theorem modGrid (s : State) (g : Nat) (f : Grid → Grid) : KeepsMode s (s.modGrid g f) c sl :=
  ⟨by rw [State.thread_modGrid], fun c' g => by rw [State.group_modGrid]⟩

end KeepsMode

section
variable {s : State} {c sl : Nat} (hi : (s.thread c sl).inst = none)
include hi

theorem State.fileFrom_keepsMode (from_ : Nat) (addr : VAddr) : KeepsMode s (s.fileFrom c sl from_ addr) c sl :=
  .modThread s (by simp only [Thread.mode, hi])

theorem State.goTo_keepsMode (addr : VAddr) : KeepsMode s (s.goTo c sl addr) c sl := by
  obtain ⟨again, ser, h⟩ := s.goTo_eq c sl addr
  have armed : KeepsMode s (s.modThread c sl fun t => t.armed again ser) c sl := .modThread s rfl
  have queued : KeepsMode s (if ser then (s.modThread c sl fun t => t.armed again ser).queueSerial c sl
      else s.modThread c sl fun t => t.armed again ser) c sl := by
    split
    · exact armed.trans (.of_same (State.modDie_same _ _ _))
    · exact armed
  rw [h]
  refine queued.trans (State.fileFrom_keepsMode ?_ _ _)
  exact (congrArg (fun m => m.2.2.2) queued.1 :).trans hi

theorem State.resumeAt_keepsMode (addr : VAddr) : KeepsMode s (s.resumeAt c sl addr) c sl := by
  refine KeepsMode.trans (.modThread s ?_) (State.goTo_keepsMode ?_ addr)
  · rfl
  · rw [State.thread_modThread_self]
    exact hi

theorem State.enterRegion_keepsMode (k : Nat) (entry path : VAddr) : KeepsMode s (s.enterRegion c sl k entry path) c sl := by
  unfold State.enterRegion
  dsimp only
  have open_ (r : Region) : KeepsMode s ((s.modCore c fun x => { x with regions := Tbl.set x.regions k r }).modThread c sl fun u =>
      { u with region := some k, place := .free, trap := none, reenter := none, reArmed := false }) c sl :=
    .trans (.of_same (State.modCore_same s c (f := fun x => { x with regions := Tbl.set x.regions k r }) fun _ => ⟨rfl, rfl⟩))
      (.modThread _ rfl)
  have filed {t : State} (h : KeepsMode s t c sl) : KeepsMode s (t.fileTo c sl entry) c sl :=
    h.trans (State.fileFrom_keepsMode ((congrArg (fun m => m.2.2.2) h.1 :).trans hi) _ _)
  split
  · exact filed ((open_ _).trans (.of_same (State.modDie_same _ _ _)))
  · exact filed (open_ _)

end

theorem State.takeTrap_keepsMode {s : State} {c sl : Nat} (hi : (s.thread c sl).inst = none) (hr : s.openRegion c sl = none)
    (hf : ¬ (s.thread c sl).filedIn) (tr : Trap) : KeepsMode s (s.takeTrap c sl tr) c sl := by
  obtain ⟨rg, re, ra, sv, h⟩ := State.takeTrap_thread hr hf tr
  refine ⟨?_, fun c' g => by rw [State.takeTrap_group]⟩
  rw [h]
  simp only [Thread.mode, hi, Thread.takeRecord]

theorem State.arriveHeld_keepsMode (s : State) (c sl : Nat) : KeepsMode s (s.arriveHeld c sl) c sl := by
  have bar (s : State) (b : Nat) : KeepsMode s (s.arriveBar c sl b false) c sl := by
    unfold State.arriveBar
    dsimp only
    split
    · exact .refl ..
    · exact .trans (.modThread s rfl) (.modGroup _ _ _ fun _ => rfl)
  have settle (s : State) (gn rope : Nat) : KeepsMode s (s.settleRope gn rope) c sl := by
    unfold State.settleRope
    dsimp only
    split
    · exact .modGrid ..
    · exact .refl ..
  have rope (s : State) : KeepsMode s (s.arriveRope c sl) c sl := by
    have arrived : KeepsMode s (s.modThread c sl fun t => { t with arrived := insertNat ropeBit t.arrived }) c sl := .modThread s rfl
    unfold State.arriveRope
    dsimp only
    refine KeepsMode.trans ?_ (settle _ _ _)
    exact arrived.trans (.modGroup _ _ _ fun _ => by rfl)
  unfold State.arriveHeld
  dsimp only
  split
  · split
    · refine KeepsMode.trans (.modThread s (f := fun t => { t with holdArrive := none }) rfl) ?_
      split
      · exact rope _
      · exact bar _ _
    · exact .refl ..
  · exact .refl ..

section
variable {s : State} {c sl : Nat} (hi : (s.thread c sl).inst = none) (hr : s.openRegion c sl = none) (hf : ¬ (s.thread c sl).filedIn)
include hi hr hf

theorem State.waitBar_keepsMode (b : Nat) (blk target : VAddr) : KeepsMode s (s.waitBar c sl b blk target) c sl := by
  unfold State.waitBar
  dsimp only
  split
  · exact State.takeTrap_keepsMode hi hr hf _
  · refine KeepsMode.trans ?_ (State.arriveHeld_keepsMode ..)
    refine KeepsMode.trans (KeepsMode.trans (.modThread s ?_) (.modGroup _ _ _ fun _ => by rfl)) (.modThread _ (by rfl))
    simp only [Thread.mode, hi]

theorem State.waitRope_keepsMode (blk target : VAddr) : KeepsMode s (s.waitRope c sl blk target) c sl := by
  unfold State.waitRope
  dsimp only
  split
  · exact State.takeTrap_keepsMode hi hr hf _
  · refine KeepsMode.trans (.modThread s ?_) (State.arriveHeld_keepsMode ..)
    simp only [Thread.mode, hi]

theorem State.waitChannel_keepsMode (ch : Nat) (thr : Word) (idx : Nat) (blk target : VAddr) :
    KeepsMode s (s.waitChannel c sl ch thr idx blk target) c sl := by
  unfold State.waitChannel
  dsimp only
  split
  · exact State.takeTrap_keepsMode hi hr hf _
  · split
    · exact State.takeTrap_keepsMode hi hr hf _
    · split
      · refine KeepsMode.trans (.modThread s ?_) (State.fileFrom_keepsMode ?_ _ _)
        · rfl
        · rw [State.thread_modThread_self]
          exact hi
      · refine .modThread s ?_
        simp only [Thread.mode, hi]

/-- R404: the step that a record holds is carried out in the mode of its thread. -/
theorem State.carryOut_keepsMode (h : HeldStep) (next : VAddr) : KeepsMode s (s.carryOut c sl h next) c sl := by
  unfold State.carryOut
  split
  · exact State.resumeAt_keepsMode hi _
  · exact State.waitBar_keepsMode hi hr hf _ _ _
  · exact State.waitRope_keepsMode hi hr hf _ _
  · exact State.waitChannel_keepsMode hi hr hf _ _ _ _ _
  · split
    · exact State.enterRegion_keepsMode hi _ _ _
    · refine KeepsMode.trans (.modThread s ?_) (State.resumeAt_keepsMode ?_ _)
      · rfl
      · rw [State.thread_modThread_self]
        exact hi

theorem State.resumeNext_keepsMode (h : HeldStep) (next : VAddr) (def_ ret : Bool) :
    KeepsMode s (s.resumeNext c sl h next def_ ret) c sl := by
  unfold State.resumeNext
  split
  · refine KeepsMode.trans (.modThread s ?_) (.modThread _ ?_)
    · rfl
    · rw [State.thread_modThread_self]
      simp only [Thread.mode, hi]
  · split
    · exact State.carryOut_keepsMode hi hr hf h next
    · exact State.resumeAt_keepsMode hi next

end

/-- R113, R425: a thread that leaves privileged mode. -/
theorem State.returnFromTrap_leaves {s : State} {c sl : Nat} (hr : s.openRegion c sl = none) (hf : ¬ (s.thread c sl).filedIn) (h : HeldStep)
    (useNext : Bool) (blk nxt : DWord) : let w := s.returnFromTrap c sl h useNext blk nxt
    ((w.thread c sl).mode = (false, (s.thread c sl).nestOpen, (s.thread c sl).group, none) ∧ ∀ c' g, (w.group c' g).save = (s.group c' g).save) ∧
    (useNext = false → (w.thread c sl).next = blk.setWidth 56) ∧
    (useNext = true → nxt.getLsbD 63 = false → nxt.getLsbD 62 = false → (w.thread c sl).next = nxt.setWidth 56) ∧
    (useNext = true → nxt.getLsbD 63 = true → (w.thread c sl).place = .retiring) := by
  obtain ⟨s1, hs1⟩ : ∃ s1, s1 = s.modThread c sl fun t => { t with priv := false, inst := none } := ⟨_, rfl⟩
  have hth : s1.thread c sl = { s.thread c sl with priv := false, inst := none } := hs1 ▸ State.thread_modThread_self ..
  have hi : (s1.thread c sl).inst = none := by rw [hth]
  have open1 : s1.openRegion c sl = none :=
    (State.openRegion_congr (by rw [hth]) (by rw [hs1, State.core_modThread_regions])).trans hr
  have filed : ¬ (s1.thread c sl).filedIn := by
    rw [hth]
    exact hf
  have groups (c' g) : (s1.group c' g).save = (s.group c' g).save := by rw [hs1, State.group_modThread]
  have mode {w : State} (hk : KeepsMode s1 w c sl) :
      (w.thread c sl).mode = (false, (s.thread c sl).nestOpen, (s.thread c sl).group, none) ∧
        ∀ c' g, (w.group c' g).save = (s.group c' g).save :=
    ⟨hk.1.trans (by rw [hth]; rfl), fun c' g => (hk.2 c' g).trans (groups c' g)⟩
  simp only [State.returnFromTrap, ← hs1]
  cases useNext with
  | false =>
    exact ⟨mode (State.resumeAt_keepsMode hi _), fun _ => (s1.resumeAt_thread c sl _).1, fun h => (nomatch h), fun h => (nomatch h)⟩
  | true =>
    refine ⟨mode (State.resumeNext_keepsMode hi open1 filed ..), fun h => (nomatch h), fun _ hret hdef => ?_, fun _ hret => ?_⟩
    · simp only [if_true, State.resumeNext, hret, hdef]
      exact (s1.resumeAt_thread c sl _).1
    · simp only [if_true, State.resumeNext, hret, State.startRetire, State.thread_modThread_self]

/-! The reports -/

/-- R464: a report changes no thread, and stands among the reports. -/
theorem State.post_spec (s : State) (r : Report) : SameThreads s (s.post r) ∧ (s.post r).reports = s.reports ++ [r] := by
  unfold State.post
  dsimp only
  split
  · exact ⟨fun _ => ⟨rfl, rfl⟩, rfl⟩
  · have registers (t : State) (f : Mgmt → Mgmt) : SameThreads t (t.modMgmt f) := fun _ => ⟨rfl, rfl⟩
    refine ⟨SameThreads.trans ?_ (registers _ _), ?_⟩
    · exact SameThreads.trans (t := { s with reports := s.reports ++ [r] }) (fun _ => ⟨rfl, rfl⟩) (State.wr_accessOnly ..).same
    · simp only [State.modMgmt, State.wr_reports]

/-- A report of a fault that names a thread stands among the reports. -/
def State.Names (s w : State) (c sl : Nat) : Prop :=
  SameThreads s w ∧ ∃ r ∈ w.reports, (c, sl) ∈ r.joined ∧ (r.kind = 0 ∨ r.kind = 1)

theorem State.post_names (s : State) {c sl : Nat} {r : Report} (hj : (c, sl) ∈ r.joined) (hk : r.kind = 0 ∨ r.kind = 1) :
    s.Names (s.post r) c sl := by
  obtain ⟨same, reports⟩ := s.post_spec r
  refine ⟨same, r, ?_, hj, hk⟩
  rw [reports]
  exact List.mem_append_right _ (List.mem_singleton_self r)

theorem State.reportKey_names (s : State) (c sl : Nat) (va rec detail : DWord) : s.Names (s.reportKey c sl va rec detail) c sl := by
  unfold State.reportKey
  dsimp only
  split
  · next hany =>
    obtain ⟨r, hr, holds⟩ := List.any_eq_true.1 hany
    have kind : r.kind = 1 := by
      simp only [Report.holds, Bool.and_eq_true, beq_iff_eq] at holds
      exact holds.1.1.1
    refine ⟨fun _ => ⟨rfl, rfl⟩, { r with joined := r.joined ++ [(c, sl)] }, ?_, by simp, .inr kind⟩
    refine List.mem_map.2 ⟨r, hr, ?_⟩
    rw [if_pos holds]
  · exact State.post_names s (List.mem_singleton_self _) (.inr rfl)

/-- R409: the report of a fault names its thread. -/
theorem State.reportFault_names (s : State) (c sl : Nat) (tr : Trap) : s.Names (s.reportFault c sl tr) c sl := by
  unfold State.reportFault
  dsimp only
  split
  · exact State.reportKey_names ..
  · exact State.post_names s (List.mem_singleton_self _) (.inl rfl)

/-- R406: a record that may be written is written, and then its fault goes where FAULTS says. -/
theorem State.performRecord_eq {s : State} {c sl : Nat} {tr : Trap} {gs : List Seg} {mt : MemType}
    (ht : (s.thread c sl).trap = some tr) (hp : (s.thread c sl).place = .fault) (hrec : tr.recorded = false)
    (hrep : s.reported c sl = false) (hj : s.judgeUnit (s.rootOf c sl) .store (s.recordAddr c sl tr.nest) 32 = .ok gs mt)
    (hw : s.mustWait gs 0 none = false) : ∃ s1 : State, s1.thread c sl = { s.thread c sl with
        trap := some { tr with recorded := true }, nestOpen := (s.thread c sl).nestOpen || tr.nest,
        trapCause := BitVec.ofNat 8 (tr.cause.code + (if tr.nest then 64 else 0) + 128), trapFblk := tr.fblk.setWidth 64 } ∧
      s1.groupOf c sl = s.groupOf c sl ∧ s1.toDevice c sl tr = s.toDevice c sl tr ∧ s1.clk = s.clk ∧
      s1.mem = (s.agentStoreNc 8 gs (recordBytes tr)).mem ∧ s.performRecord c sl = s1.routeTrap c sl tr := by
  have stored := s.agentStoreNc_accessOnly 8 gs (recordBytes tr)
  have group : ((s.agentStoreNc 8 gs (recordBytes tr)).modThread c sl fun u =>
      { u with trap := some { tr with recorded := true }, nestOpen := u.nestOpen || tr.nest,
               trapCause := BitVec.ofNat 8 (tr.cause.code + (if tr.nest then 64 else 0) + 128),
               trapFblk := tr.fblk.setWidth 64 }).groupOf c sl = s.groupOf c sl := by
    rw [State.groupOf, State.thread_modThread_self, State.group_modThread, stored.thread, stored.group]
    rfl
  refine ⟨_, ?_, group, ?_, ?_, ?_, ?_⟩
  · rw [State.thread_modThread_self, stored.thread]
  · simp only [State.toDevice, State.gridOf, group, State.grid_modThread, stored.grid]
  · exact stored.clk
  · rfl
  · simp only [State.performRecord, ht, hp, hrec, hrep, hj, hw]
    rfl
/-! The bytes of a record -/

theorem fieldAt_append_right {a : List Byte} (b : List Byte) {off : Nat} (h : a.length ≤ off) (n : Nat) :
    fieldAt (a ++ b) off n = fieldAt b (off - a.length) n := by
  rw [fieldAt, fieldAt, List.drop_append, List.drop_eq_nil_of_le h, List.nil_append]

theorem fieldAt_natToBytes (n x : Nat) (b : List Byte) : fieldAt (natToBytes n x ++ b) 0 n = x % 2 ^ (8 * n) := by
  rw [fieldAt, List.drop_zero, List.take_left' (length_natToBytes n x), bytesToNat_natToBytes]

/-- R406: the fields of a trap record. -/
theorem recordBytes_fields (tr : Trap) : let bs := recordBytes tr
    bs.length = 32 ∧ fieldAt bs 0 7 = tr.blk.toNat ∧ fieldAt bs 7 1 = tr.cause.code + (if tr.nest then 64 else 0) + 128 ∧
      (fieldAt bs 8 8 % 2 ^ 56 = tr.next.toNat ∧ fieldAt bs 8 8 / 2 ^ 56 % 64 = 0 ∧ ((fieldAt bs 8 8).testBit 62 ↔ tr.def_ = true) ∧
        ((fieldAt bs 8 8).testBit 63 ↔ tr.ret = true)) ∧
      fieldAt bs 16 8 = tr.va.toNat ∧ fieldAt bs 24 8 = tr.detail.toNat := by
  intro bs
  have hblk := tr.blk.isLt
  have hnext := tr.next.isLt
  have hva := tr.va.isLt
  have hdetail := tr.detail.isLt
  have code : tr.cause.code ≤ 16 := by cases tr.cause <;> decide
  have first : fieldAt bs 0 7 = tr.blk.toNat := by
    simp only [bs, recordBytes, List.append_assoc]
    rw [fieldAt_natToBytes, Nat.mod_eq_of_lt hblk]
  have second : fieldAt bs 7 1 = tr.cause.code + (if tr.nest then 64 else 0) + 128 := by
    simp only [bs, recordBytes, List.append_assoc]
    rw [fieldAt_append_right _ (by simp), length_natToBytes]
    simp only [fieldAt, Nat.sub_self, List.drop_zero, List.singleton_append, List.take_succ_cons, List.take_zero, bytesToNat,
      BitVec.toNat_ofNat]
    split <;> omega
  have third : fieldAt bs 8 8 = tr.next.toNat + (if tr.def_ then 2 ^ 62 else 0) + (if tr.ret then 2 ^ 63 else 0) := by
    simp only [bs, recordBytes, List.append_assoc]
    rw [fieldAt_append_right _ (by simp), fieldAt_append_right _ (by simp), length_natToBytes, List.length_singleton,
      fieldAt_natToBytes]
    split <;> split <;> omega
  have fourth : fieldAt bs 16 8 = tr.va.toNat := by
    simp only [bs, recordBytes, List.append_assoc]
    rw [fieldAt_append_right _ (by simp), fieldAt_append_right _ (by simp), fieldAt_append_right _ (by simp)]
    simp only [length_natToBytes, List.length_singleton]
    rw [fieldAt_natToBytes, Nat.mod_eq_of_lt hva]
  have fifth : fieldAt bs 24 8 = tr.detail.toNat := by
    simp only [bs, recordBytes]
    rw [fieldAt_append_right _ (by simp)]
    simp only [List.length_append, length_natToBytes, List.length_singleton]
    rw [← List.append_nil (natToBytes 8 tr.detail.toNat), fieldAt_natToBytes, Nat.mod_eq_of_lt hdetail]
  refine ⟨by simp [bs, recordBytes], first, second, ?_, fourth, fifth⟩
  rw [third]
  simp only [Nat.testBit_eq_decide_div_mod_eq, decide_eq_true_eq]
  cases tr.def_ <;> cases tr.ret <;> simp only [if_true, if_false, Bool.false_eq_true, iff_true, iff_false] <;> omega

end Sys2Proof.Machine
open Sys2Proof Sys2Proof.Machine

/-- Settles O48: a record's write leaves its thread but for what the trap registers take; the commit of `eret` carries its step out in
user mode. -/
theorem trapRecords : Obligations.TrapRecords := by
  unfold Obligations.TrapRecords
  refine ⟨fun s c sl tr gs mt hargs ht hp hrec hrep hj hw hg => ?_, fun s c sl x useNext blk nxt hargs hn hi hr hg hf hterm => ?_, fun tr => ?_⟩
  · intro cause
    obtain ⟨s1, hth, hgrp, hdev, hclk, hmem, heq⟩ := State.performRecord_eq ht hp hrec hrep hj hw
    have run : exec .faultRecordPerformed s = .next (s1.routeTrap c sl tr) := by
      rw [← heq]
      simp only [exec, execFaultRecordPerformed, State.arg, hargs]
      rfl
    refine ⟨fun hd => ⟨_, run, ?_⟩, fun hd => ⟨_, run, ?_⟩⟩
    · have entered : s1.routeTrap c sl tr = s1.enterHandler c sl tr.cause.code := by
        simp only [State.routeTrap, hdev, hd, hgrp, hg, Bool.false_and, Bool.false_eq_true, if_true, if_false]
      rw [entered, State.enterHandler, State.fileFrom, State.thread_modThread_self, State.thread_modThread_self, hth]
      exact ⟨hmem, rfl, rfl, rfl, rfl, congrArg (· + 1) hclk, rfl, rfl⟩
    · obtain ⟨same, r, hr, hj, hk⟩ := s1.reportFault_names c sl tr
      have waits : ((s1.reportFault c sl tr).groupOf c sl).isSaving = false := by
        rw [(same.only c sl).groupOf (by rw [same.thread]), hgrp, hg]
      have routed : s1.routeTrap c sl tr = s1.reportFault c sl tr := by
        simp only [State.routeTrap, hdev, hd, State.saveWaiter_id waits, Bool.false_eq_true, if_false]
      rw [routed, same.thread, hth]
      exact ⟨hp, rfl, rfl, r, hr, hj, hk⟩
  · have left := State.left_thread hr x x.ctx
    have grp := State.left_groupOf hr x x.ctx
    have open2 := State.left_openRegion hr x x.ctx
    obtain ⟨s2, hs2⟩ : ∃ s2, s2 = (s.commitEffects c sl x).leaveContext c sl x.ctx := ⟨_, rfl⟩
    rw [← hs2] at left grp open2
    obtain ⟨s3, h3, hterminate⟩ : ∃ s3 : State, (s3.openRegion c sl = none ∧ (∃ k, (s3.thread c sl).place = .filing k) ∧
        (s3.thread c sl).nestOpen = false ∧ s3.groupOf c sl = s.groupOf c sl) ∧
        s.commitInst c sl x = s3.returnFromTrap c sl (s2.thread c sl).heldNow useNext blk nxt := by
      obtain ⟨t, access, cleared⟩ := s2.clearValid_thread c sl
      have terminates : s.commitInst c sl x = s2.terminate c sl x ((s.core c).context x.ctx).block := by
        simp only [State.commitInst, hr, hf, Option.isSome_none, hs2]
      have hth : (s2.clearValid c sl).thread c sl = { s2.thread c sl with nestOpen := false } := by
        rw [cleared, State.thread_modThread_self, access.thread]
      have hgr : (s2.clearValid c sl).groupOf c sl = s2.groupOf c sl := by
        rw [State.groupOf, hth, cleared, State.group_modThread, access.group]
        rfl
      have hop : (s2.clearValid c sl).openRegion c sl = none := by
        refine (State.openRegion_congr ?_ ?_).trans (access.openRegion open2)
        · rw [hth, access.thread]
        · rw [cleared, State.core_modThread_regions]
      rw [terminates]
      simp only [State.terminate, hterm]
      split
      · refine ⟨_, ⟨hop, ⟨x.ctx, ?_⟩, ?_, hgr.trans grp⟩, rfl⟩
        · rw [hth, left]
        · rw [hth]
      · obtain ⟨a, ha⟩ := (s2.clearValid c sl).noteIdem_thread c sl (hdrID ((s.core c).context x.ctx).block.hdr)
          ((if useNext then nxt else blk).setWidth 56)
        refine ⟨_, ⟨(State.noteIdem_openRegion ..).trans hop, ⟨x.ctx, ?_⟩, ?_,
          ((State.noteIdem_only ..).groupOf (by rw [ha])).trans (hgr.trans grp)⟩, rfl⟩
        · rw [ha, hth, left]
        · rw [ha, hth]
    obtain ⟨open3, ⟨k, place3⟩, nest3, grp3⟩ := h3
    obtain ⟨⟨mode, saves⟩, hblk, hnext, hret⟩ := State.returnFromTrap_leaves open3 (Thread.not_filedIn_of_filing place3)
      (s2.thread c sl).heldNow useNext blk nxt
    rw [← hterminate] at mode saves hblk hnext hret
    have waits : ((s.commitInst c sl x).groupOf c sl).isSaving = false := by
      have group : ((s.commitInst c sl x).thread c sl).group = (s3.thread c sl).group := (congrArg (fun m => m.2.2.1) mode :)
      rw [State.groupOf, group, Group.isSaving, saves]
      rw [← grp3] at hg
      exact hg
    refine ⟨s.commitInst c sl x, ?_, (congrArg (fun m => m.1) mode :), (congrArg (fun m => m.2.1) mode :).trans nest3,
      (congrArg (fun m => m.2.2.2) mode :), hblk, hnext, hret⟩
    simp only [exec, execBlockCommit, State.arg, hargs]
    exact congrArg _ (State.blockCommit_eq hn waits)
  · exact recordBytes_fields tr
end

section
/-! What leaving a bin and a discard change. -/

namespace Sys2Proof.Machine

/-! Leaving a bin or the FIFO -/

/-- The threads of a core, but for the places that an opened bin gives those of the FIFO. -/
def Core.Placed (x y : Core) : Prop :=
  ∀ m, ∃ p, y.thread m = { x.thread m with place := p } ∧ (x.fifo = [] → p = (x.thread m).place)

theorem Core.Placed.refl {x y : Core} (h : y.threads = x.threads) : x.Placed y := fun m =>
  ⟨(x.thread m).place, by rw [Core.thread, h]; rfl, fun _ => rfl⟩

theorem Core.releaseBin_placed (x : Core) (b : Nat) : x.Placed (x.releaseBin b) := by
  unfold Core.releaseBin
  split
  · exact .refl rfl
  · next hf =>
    dsimp only
    refine foldl_invariant (fun y : Core => x.Placed y) _ _ (fun y n _ hy m => ?_) (.refl rfl)
    obtain ⟨p, hp, -⟩ := hy m
    by_cases hm : m = n
    · rw [hm, Core.thread_modThread_self]
      rw [hm] at hp
      exact ⟨_, by rw [hp], fun h => by rw [hf] at h; cases h⟩
    · rw [Core.thread_modThread_ne _ _ hm]
      exact ⟨p, hp, fun h => by rw [hf] at h; cases h⟩

theorem Core.unfile_placed (x : Core) (sl : Nat) : x.Placed (x.unfile sl) := by
  unfold Core.unfile
  split
  · dsimp only
    split
    · intro m
      obtain ⟨p, hp, hf⟩ := Core.releaseBin_placed (x.modBin _ fun z => { z with vec := z.vec.filter (· != sl) }) _ m
      simp only [Core.thread, Core.modBin_threads, Core.modBin_fifo] at hp hf
      exact ⟨p, hp, hf⟩
    · exact .refl (Core.modBin_threads ..)
  · exact .refl rfl
  · exact .refl rfl

theorem Core.releaseBin_fifo (x : Core) (b : Nat) (h : x.fifo = []) : (x.releaseBin b).fifo = [] := by
  simp [Core.releaseBin, h]

theorem Core.unfile_fifo (x : Core) (sl : Nat) (h : x.fifo = []) : (x.unfile sl).fifo = [] := by
  unfold Core.unfile
  split
  · dsimp only
    split
    · exact Core.releaseBin_fifo _ _ (by rw [Core.modBin_fifo, h])
    · rw [Core.modBin_fifo, h]
  · simp [h]
  · exact h

/-! Groups and grids that are kept -/

/-- The groups of every core and the grids are kept. -/
structure KeepsGroups (s w : State) : Prop where
  groups : ∀ c, (w.core c).groups = (s.core c).groups
  grids : w.grids = s.grids

namespace KeepsGroups

variable {s t u : State}

theorem refl (s : State) : KeepsGroups s s := ⟨fun _ => rfl, rfl⟩

theorem trans (h : KeepsGroups s t) (h' : KeepsGroups t u) : KeepsGroups s u :=
  ⟨fun c => (h'.groups c).trans (h.groups c), h'.grids.trans h.grids⟩

theorem foldl {β : Type} (f : State → β → State) (h : ∀ s b, KeepsGroups s (f s b)) (l : List β) (s : State) :
    KeepsGroups s (l.foldl f s) :=
  foldl_invariant (KeepsGroups s) f l (fun a b _ ha => ha.trans (h a b)) (refl s)

theorem modCore (s : State) (c : Nat) {f : Core → Core} (hf : ∀ x, (f x).groups = x.groups) : KeepsGroups s (s.modCore c f) := by
  refine ⟨fun c' => ?_, rfl⟩
  by_cases h : c' = c
  · rw [h, State.core_modCore_self, hf]
  · rw [State.core_modCore_ne _ _ h]

theorem modThread (s : State) (c sl : Nat) (f : Thread → Thread) : KeepsGroups s (s.modThread c sl f) :=
  modCore s c fun x => Core.groups_modThread x sl f

theorem modDie (s : State) (d : Nat) (f : Die → Die) : KeepsGroups s (s.modDie d f) :=
  ⟨fun c => by rw [State.core_modDie], rfl⟩

theorem of_access (h : AccessOnly s t) : KeepsGroups s t := ⟨h.groups, h.grids⟩

theorem find?_group (h : KeepsGroups s t) {c g : Nat} {y : Group} (hy : Tbl.find? (s.core c).groups g = some y) :
    Tbl.find? (t.core c).groups g = some y := by rw [h.groups, hy]

theorem find?_grid (h : KeepsGroups s t) {g : Nat} {y : Grid} (hy : Tbl.find? s.grids g = some y) : Tbl.find? t.grids g = some y := by
  rw [h.grids, hy]

theorem group (h : KeepsGroups s t) (c g : Nat) : t.group c g = s.group c g := by rw [State.group, State.group, Core.group, h.groups]; rfl

theorem grid (h : KeepsGroups s t) (g : Nat) : t.grid g = s.grid g := by rw [State.grid, State.grid, h.grids]

end KeepsGroups

theorem State.endYield_core (s : State) (c sl c' : Nat) : ((s.endYield c sl).core c').groups = (s.core c').groups ∧
    ((s.endYield c sl).core c').threads = (s.core c').threads ∧ ((s.endYield c sl).core c').fifo = (s.core c').fifo := by
  simp only [State.endYield, State.core, Tbl.get, Tbl.find?_mapVals]
  cases Tbl.find? s.cores c' <;> exact ⟨rfl, rfl, rfl⟩

theorem State.freeRegion_keepsGroups (s : State) (c sl : Nat) : KeepsGroups s (s.freeRegion c sl) := by
  unfold State.freeRegion
  split
  · exact .refl s
  · refine KeepsGroups.trans (t := (State.modThread _ c sl _).releaseToken c sl) ?_ ⟨fun c' => (State.endYield_core _ c sl c').1, rfl⟩
    exact .trans (.modCore s c (f := fun x => { x with regions := Tbl.erase x.regions _ }) fun _ => rfl)
      (.trans (.modThread _ c sl _) (.modDie _ _ _))

/-! A change of one thread that may open a bin for others -/

/-- Of the other threads of a core, only the places of those that wait in its FIFO change. -/
structure OneThread (s w : State) (c sl : Nat) : Prop where
  fifo : (s.core c).fifo = [] → (w.core c).fifo = []
  others : ∀ m, m ≠ sl → ∃ p, w.thread c m = { s.thread c m with place := p } ∧ ((s.core c).fifo = [] → p = (s.thread c m).place)

namespace OneThread

variable {s t u : State} {c sl : Nat}

theorem of_same (hf : (t.core c).fifo = (s.core c).fifo) (ht : ∀ m, m ≠ sl → t.thread c m = s.thread c m) : OneThread s t c sl :=
  ⟨fun h => hf.trans h, fun m hm => ⟨(s.thread c m).place, by rw [ht m hm], fun _ => rfl⟩⟩

theorem refl (s : State) (c sl : Nat) : OneThread s s c sl := of_same rfl fun _ _ => rfl

theorem trans (h : OneThread s t c sl) (h' : OneThread t u c sl) : OneThread s u c sl := by
  refine ⟨fun hf => h'.fifo (h.fifo hf), fun m hm => ?_⟩
  obtain ⟨p, hp, hpf⟩ := h.others m hm
  obtain ⟨q, hq, hqf⟩ := h'.others m hm
  refine ⟨q, by rw [hq, hp], fun hf => ?_⟩
  rw [hqf (h.fifo hf), hp]
  exact hpf hf

theorem foldl {β : Type} (f : State → β → State) (h : ∀ s b, OneThread s (f s b) c sl) (l : List β) (s : State) :
    OneThread s (l.foldl f s) c sl :=
  foldl_invariant (fun t => OneThread s t c sl) f l (fun a b _ ha => ha.trans (h a b)) (refl s c sl)

theorem modThread (s : State) (c sl : Nat) (f : Thread → Thread) : OneThread s (s.modThread c sl f) c sl :=
  of_same (by rw [State.modThread, State.core_modCore_self]; rfl) fun _ hm => State.thread_modThread_ne _ _ hm

theorem modDie (s : State) (d : Nat) (f : Die → Die) : OneThread s (s.modDie d f) c sl :=
  of_same (by rw [State.core_modDie]) fun m _ => by rw [State.thread, State.core_modDie]; rfl

theorem modCore (s : State) (c sl : Nat) {f : Core → Core} (hf : ∀ x, (f x).threads = x.threads ∧ (f x).fifo = x.fifo) :
    OneThread s (s.modCore c f) c sl :=
  of_same (by rw [State.core_modCore_self, (hf _).2]) fun m _ => State.thread_modCore s c m (fun x => (hf x).1) c

theorem unfile (s : State) (c sl : Nat) : OneThread s (s.modCore c fun x => x.unfile sl) c sl := by
  refine ⟨fun h => ?_, fun m _ => ?_⟩
  · rw [State.core_modCore_self]
    exact Core.unfile_fifo _ sl h
  · rw [State.thread, State.core_modCore_self]
    exact Core.unfile_placed (s.core c) sl m

theorem freeRegion (s : State) (c sl : Nat) : OneThread s (s.freeRegion c sl) c sl := by
  unfold State.freeRegion
  split
  · exact .refl s c sl
  · refine OneThread.trans (t := (State.modThread _ c sl _).releaseToken c sl) ?_ (.of_same (State.endYield_core _ c sl c).2.2 fun m _ => ?_)
    · exact .trans (.modCore s c sl (f := fun x => { x with regions := Tbl.erase x.regions _ }) fun _ => ⟨rfl, rfl⟩)
        (.trans (.modThread _ c sl _) (.modDie _ _ _))
    · rw [State.thread, Core.thread, (State.endYield_core _ c sl c).2.1]
      rfl

end OneThread

/-! Discarding a thread -/

/-- R418: what a discard makes of the thread that it takes. -/
def Thread.discarded (t : Thread) : Thread :=
  { t with inst := t.inst.map fun x => { x.squashWith ⟨.brk, 0, 0, 0⟩ with region := none },
           place := if t.inst.isSome then t.place else .saved, next := t.idem, buf := t.buf.filter (·.committed),
           deferred := t.deferred.filter (·.committed) }

/-- What the threads of a discarded group are afterwards: where they restart, and what is left of an instance in flight. -/
structure Thread.DiscardOf (t u : Thread) (opens : Prop) : Prop where
  next : u.next = t.idem
  idem : u.idem = t.idem
  live : u.live = t.live
  idle : t.inst = none → u.inst = none ∧ (¬ opens → u.place = .saved)
  squashed : t.inst ≠ none → ∃ y, u.inst = some y ∧ y.squash ≠ none ∧ y.region = none

theorem Inst.deliver_keeps (x : Inst) (now idx : Nat) (t : Target) (v : Token) :
    (x.deliver now idx t v).squash = x.squash ∧ (x.deliver now idx t v).region = x.region := by
  cases t with
  | none => exact ⟨rfl, rfl⟩
  | port p k => exact ⟨rfl, rfl⟩
  | live sl =>
    rw [Inst.deliver]
    split <;> exact ⟨rfl, rfl⟩
  | pairLive sl =>
    rw [Inst.deliver]
    split <;> exact ⟨rfl, rfl⟩

/-- R237: what the end of a command at the port makes of an instance leaves its squash and its region. -/
theorem State.finishPort_eq (s : State) (c : Nat) (k : EngCmd) (lat : Nat) (v1 v0 : Token) :
    ∃ f : Inst → Inst, s.finishPort c k lat v1 v0 = s.modInst c k.slot f ∧ ∀ x, (f x).squash = x.squash ∧ (f x).region = x.region := by
  refine ⟨_, rfl, fun x => ?_⟩
  dsimp only
  split
  · have first := (x.perform k.idx).deliver_keeps s.clk k.idx k.t0 (if x.squash.isSome then nullTok else v0)
    have second := ((x.perform k.idx).deliver s.clk k.idx k.t0 (if x.squash.isSome then nullTok else v0)).deliver_keeps s.clk k.idx k.t1
      (if x.squash.isSome then nullTok else v1)
    exact ⟨second.1.trans first.1, second.2.trans first.2⟩
  · exact ⟨rfl, rfl⟩

theorem Thread.DiscardOf.modInst {t u : Thread} {opens : Prop} (h : t.DiscardOf u opens) {f : Inst → Inst}
    (hf : ∀ x, (f x).squash = x.squash ∧ (f x).region = x.region) : t.DiscardOf (u.modInst f) opens := by
  unfold Thread.modInst
  split
  · next x hx =>
    refine ⟨h.next, h.idem, h.live, fun hi => ?_, fun hi => ?_⟩
    · rw [(h.idle hi).1] at hx
      cases hx
    · obtain ⟨y, hy, hsq, hr⟩ := h.squashed hi
      rw [hx] at hy
      cases hy
      exact ⟨f x, rfl, by rwa [(hf x).1], (hf x).2.trans hr⟩
  · exact h

theorem Thread.discarded_of {t u : Thread} (hinst : u.inst = t.inst) (hidem : u.idem = t.idem) (hlive : u.live = t.live) (opens : Prop) :
    t.DiscardOf u.discarded opens := by
  refine ⟨hidem, hidem, hlive, fun hi => ?_, fun hi => ?_⟩
  · simp [Thread.discarded, hinst, hi]
  · obtain ⟨x, hx⟩ := Option.ne_none_iff_exists'.1 hi
    exact ⟨{ x.squashWith ⟨.brk, 0, 0, 0⟩ with region := none }, by simp [Thread.discarded, hinst, hx], by simp [Inst.squashWith], rfl⟩

/-- A thread that is discarded once more. -/
theorem Thread.DiscardOf.again {t u v : Thread} {opens : Prop} (h : u.DiscardOf v False) (hu : t.DiscardOf u opens) : t.DiscardOf v opens := by
  refine ⟨h.next.trans hu.idem, h.idem.trans hu.idem, h.live.trans hu.live, fun hi => ?_, fun hi => ?_⟩
  · obtain ⟨hv, hp⟩ := h.idle (hu.idle hi).1
    exact ⟨hv, fun _ => hp id⟩
  · obtain ⟨y, hy, -⟩ := hu.squashed hi
    exact h.squashed (by simp [hy])

theorem Thread.DiscardOf.of_same {t u v : Thread} {opens : Prop} (h : u.DiscardOf v False) (hi : u.inst = t.inst) (hid : u.idem = t.idem)
    (hl : u.live = t.live) : t.DiscardOf v opens :=
  ⟨h.next.trans hid, h.idem.trans hid, h.live.trans hl, fun hn => ⟨(h.idle (hi.trans hn)).1, fun _ => (h.idle (hi.trans hn)).2 id⟩,
    fun hn => h.squashed (by rwa [hi])⟩

theorem Thread.DiscardOf.moved {t u : Thread} {opens : Prop} {p : Place} (h : t.DiscardOf u opens) (hp : ¬ opens → p = u.place) :
    t.DiscardOf { u with place := p } opens :=
  ⟨h.next, h.idem, h.live, fun hi => ⟨(h.idle hi).1, fun ho => (hp ho).trans ((h.idle hi).2 ho)⟩, h.squashed⟩

/-- R418: a discard changes no group and no grid, and of the other threads of the core at most places in the FIFO. -/
theorem State.discardThread_spec (s : State) (c sl : Nat) : KeepsGroups s (s.discardThread c sl) ∧ OneThread s (s.discardThread c sl) c sl ∧
    (s.thread c sl).DiscardOf ((s.discardThread c sl).thread c sl) False := by
  -- the region, the bin, the thread and its commands in the latch, one after another
  obtain ⟨s0, hs0, keeps0, one0, th0⟩ : ∃ s0, s0 = (match (s.thread c sl).region with
      | some k => ((s.unlockAll c k).freeRegion c sl).releaseToken c sl | none => s) ∧ KeepsGroups s s0 ∧ OneThread s s0 c sl ∧
      ∃ r, s0.thread c sl = { s.thread c sl with region := r } := by
    refine ⟨_, rfl, ?_⟩
    split
    · next k hk =>
      have unlocked : KeepsGroups s (s.unlockAll c k) := ⟨fun _ => rfl, rfl⟩
      refine ⟨unlocked.trans ((State.freeRegion_keepsGroups ..).trans (.modDie _ _ _)), ?_, none, ?_⟩
      · exact .trans (t := s.unlockAll c k) (.of_same rfl fun _ _ => rfl) ((OneThread.freeRegion ..).trans (.modDie _ _ _))
      · rw [State.releaseToken, State.thread_modDie, State.freeRegion_thread]
        rfl
    · exact ⟨.refl s, .refl s c sl, (s.thread c sl).region, rfl⟩
  obtain ⟨r, hr⟩ := th0
  obtain ⟨s1, hs1⟩ : ∃ s1, s1 = (s0.modCore c fun x => x.unfile sl).modThread c sl Thread.discarded := ⟨_, rfl⟩
  have keeps1 : KeepsGroups s s1 :=
    hs1 ▸ keeps0.trans (.trans (.modCore s0 c fun x => x.unfile_groups sl) (.modThread _ c sl _))
  have one1 : OneThread s s1 c sl := hs1 ▸ one0.trans (.trans (.unfile s0 c sl) (.modThread _ c sl _))
  have th1 : (s.thread c sl).DiscardOf (s1.thread c sl) False := by
    obtain ⟨p, hp, -⟩ := Core.unfile_placed (s0.core c) sl sl
    have unfiled : (s0.modCore c fun x => x.unfile sl).thread c sl = { s0.thread c sl with place := p } := by
      rw [State.thread, State.core_modCore_self]
      exact hp
    rw [hr] at unfiled
    rw [hs1, State.thread_modThread_self]
    refine Thread.discarded_of ?_ ?_ ?_ _ <;> rw [unfiled]
  have eq : s.discardThread c sl = ((s1.die (dieOf c)).latch.filter fun e => e.cmd.core == c && e.cmd.slot == sl).foldl (fun s e =>
      (s.modDie (dieOf c) fun d => { d with latch := d.latch.filter (· != e) }).finishPort c ⟨sl, e.cmd.idx, .hself, .none, e.t1⟩ 0
        nullTok nullTok) s1 := by
    rw [hs1, hs0]
    rfl
  rw [eq]
  refine foldl_invariant (fun w => KeepsGroups s w ∧ OneThread s w c sl ∧ (s.thread c sl).DiscardOf (w.thread c sl) False) _ _
    (fun w e _ hw => ?_) ⟨keeps1, one1, th1⟩
  obtain ⟨keeps, one, th⟩ := hw
  obtain ⟨f, hf, hkeep⟩ := (w.modDie (dieOf c) fun d => { d with latch := d.latch.filter (· != e) }).finishPort_eq c
    ⟨sl, e.cmd.idx, .hself, .none, e.t1⟩ 0 nullTok nullTok
  rw [hf]
  refine ⟨keeps.trans (.trans (.modDie _ _ _) (.modThread _ c sl _)), one.trans (.trans (.modDie _ _ _) (.modThread _ c sl _)), ?_⟩
  rw [State.modInst, State.thread_modThread_self, State.thread_modDie]
  exact th.modInst hkeep

/-- R418: the discards of the threads of a group, one after another. -/
theorem State.foldl_discardThread {c sl : Nat} {t : Thread} {opens : Prop} (l : List Nat) : ∀ w : State,
    (¬ opens → (w.core c).fifo = []) →
    t.DiscardOf (w.thread c sl) opens ∨
      (sl ∈ l ∧ (w.thread c sl).inst = t.inst ∧ (w.thread c sl).idem = t.idem ∧ (w.thread c sl).live = t.live) →
    t.DiscardOf ((l.foldl (fun s sl => s.discardThread c sl) w).thread c sl) opens := by
  induction l with
  | nil => exact fun w _ h => h.resolve_right fun h => (nomatch h.1)
  | cons n l ih =>
    intro w hf h
    obtain ⟨-, one, self⟩ := w.discardThread_spec c n
    refine ih _ (fun ho => one.fifo (hf ho)) ?_
    by_cases hn : sl = n
    · subst hn
      refine .inl ?_
      rcases h with h | ⟨-, hi, hid, hl⟩
      · exact self.again h
      · exact self.of_same hi hid hl
    · obtain ⟨p, hp, hpf⟩ := one.others sl hn
      rw [hp]
      refine h.imp (fun h => h.moved fun ho => hpf (hf ho)) fun h => ⟨(List.mem_cons.1 h.1).resolve_left hn, h.2⟩

end Sys2Proof.Machine
end

section
/-! The saves. -/

namespace Sys2Proof.Machine

theorem State.pitonMask_modCore (s : State) (c root : Nat) (addr : VAddr) (f : Core → Core) :
    (s.modCore c f).pitonMask root addr = s.pitonMask root addr := rfl

theorem State.isPiton_modCore (s : State) (c root : Nat) (addr : VAddr) (f : Core → Core) :
    (s.modCore c f).isPiton root addr = s.isPiton root addr := rfl

/-! Going to the save handler -/

/-- R152, R415: what the entry of its save handler makes of a thread that stands nowhere in a bin. -/
theorem State.enterSave_thread {s : State} {c sl : Nat} (hf : ¬ (s.thread c sl).filedIn) (mask : DWord) (all : Bool) :
    let t := s.thread c sl
    let u := (s.enterSave c sl mask all).thread c sl
    u.priv = true ∧ u.trap = none ∧ u.next = t.trapBase.setWidth 56 ∧ u.save = some ⟨true, false, all, mask, false, t.place, t.next, t.priv,
      t.trap, none, t.haltNext, t.waitIdx, t.hdoneArg, t.reArmed⟩ := by
  have unfiled := State.modCore_id_same s c (f := fun x => x.unfile sl) (Core.unfile_of_not_filed hf)
  rw [State.enterSave, State.fileFrom, State.thread_modThread_self, State.thread_modThread_self, unfiled.thread]
  exact ⟨rfl, rfl, rfl, rfl⟩

/-- R415: a save of a thread that is in no region. -/
theorem State.saveFrom_thread {s : State} {c sl : Nat} (hr : (s.thread c sl).region = none) {p : Place}
    (hp : (∀ b, p ≠ .binned b) ∧ p ≠ .fifo) (addr : VAddr) (all : Bool) :
    let t := s.thread c sl
    let u := (s.saveFrom c sl p addr all).thread c sl
    u.priv = true ∧ u.trap = none ∧ u.next = t.trapBase.setWidth 56 ∧
      u.save = some ⟨true, false, all, if all || t.reArmed then BitVec.allOnes 64 else s.pitonMask (s.rootOf c sl) addr, false, p, addr,
        t.priv, t.trap, none, t.haltNext, t.waitIdx, t.hdoneArg, t.reArmed⟩ := by
  have leaves : s.leaveRegion c sl addr = (s, addr) := by simp only [State.leaveRegion, hr]
  obtain ⟨s1, hs1, hth⟩ : ∃ s1, s1 = (if (s.thread c sl).reSer then s.releaseToken c sl else s) ∧ s1.thread c sl = s.thread c sl := by
    refine ⟨_, rfl, ?_⟩
    split
    · exact State.thread_modDie ..
    · rfl
  have moved : (s1.modThread c sl fun u => { u with next := addr, inst := none, place := p }).thread c sl =
      { s.thread c sl with next := addr, inst := none, place := p } := by
    rw [State.thread_modThread_self, hth]
  have entered := State.enterSave_thread (s := s1.modThread c sl fun u => { u with next := addr, inst := none, place := p }) (c := c) (sl := sl)
    (by
      rw [moved]
      rintro (⟨b, hb⟩ | hb)
      · exact hp.1 b hb
      · exact hp.2 hb)
    (if all || (s.thread c sl).reArmed then BitVec.allOnes 64 else s.pitonMask (s.rootOf c sl) addr) all
  simp only [moved] at entered
  simp only [State.saveFrom, leaves, ← hs1]
  exact entered

/-! SAVE_START -/

section
variable {s : State} {c g : Nat} {gr : Group} (hargs : s.args = [c, g]) (hg : Tbl.find? (s.core c).groups g = some gr)

/-- R414: the state in which the save of a group has begun. -/
def State.saving (s : State) (c g : Nat) : State := s.modGroup c g fun x => { x with save := .saving s.clk, entered := false, saveClk := 0 }

include hg in
theorem State.saving_group : (s.saving c g).group c g = { gr with save := .saving s.clk, entered := false, saveClk := 0 } :=
  State.group_modGroup_self hg _

theorem State.saving_thread (s : State) (c g c' sl : Nat) : (s.saving c g).thread c' sl = s.thread c' sl := State.thread_modGroup ..

include hargs hg

theorem State.exec_saveStart_idle (h : gr.save ≠ .chosen) : exec .saveStart s = .next s := by
  simp only [exec, execSaveStart, State.arg, hargs, List.getD_cons_zero, List.getD_cons_succ, hg]
  refine congrArg _ ?_
  exact if_pos (by simpa using h)

theorem State.exec_saveStart (h : gr.save = .chosen) : exec .saveStart s = .next (if (s.saving c g).mayDiscard c g
    then (s.saving c g).urge (.event .groupDiscard [c, g])
    else ((s.saving c g).liveSlotsOf c g).foldl (fun s sl => s.startSave c sl) (s.saving c g)) := by
  simp only [exec, execSaveStart, State.arg, hargs, List.getD_cons_zero, List.getD_cons_succ, hg]
  refine congrArg _ ?_
  exact if_neg (by simp [h])

theorem State.exec_saveStart_one {sl : Nat} (h : gr.save = .chosen) (hd : (s.saving c g).mayDiscard c g = false)
    (hl : (s.saving c g).liveSlotsOf c g = [sl]) : exec .saveStart s = .next ((s.saving c g).startSave c sl) := by
  rw [State.exec_saveStart hargs hg h, hd, hl]
  rfl

end

section
variable {s : State} {c g sl : Nat} {gr : Group} (hg : Tbl.find? (s.core c).groups g = some gr) (ht : (s.thread c sl).group = g)
include hg ht

theorem State.saving_groupOf : (s.saving c g).groupOf c sl = { gr with save := .saving s.clk, entered := false, saveClk := 0 } := by
  rw [State.groupOf, State.saving_thread, ht, State.saving_group hg]

omit hg ht in
/-- R415: a thread with a pending slot stays in the bin of its piton. -/
theorem State.startSave_pending {b : Nat} (hp : (s.thread c sl).place = .binned b) (hpend : (s.thread c sl).pending ≠ 0) :
    (s.saving c g).startSave c sl = s.saving c g := by
  have stays : (s.saving c g).toSave c sl = false := by
    have pends : ((s.thread c sl).pending == 0) = false := by simpa using hpend
    simp only [State.toSave, State.saving_thread, pends, Bool.and_false, Bool.false_and]
  simp only [State.startSave, State.saving_thread, hp, stays, Bool.false_eq_true, if_false]

theorem State.startSave_binned {b : Nat} (hp : (s.thread c sl).place = .binned b) (hs : (s.saving c g).toSave c sl = true) :
    (s.saving c g).startSave c sl = ((s.saving c g).modCore c fun x => x.unfile sl).saveFrom c sl .free (s.thread c sl).next gr.halted := by
  simp only [State.startSave, State.saving_thread, hp, hs, if_true, State.saving_groupOf hg ht]

/-- R415: a thread that waits on a barrier or a channel is saved from its wait. -/
theorem State.startSave_waits {b : Nat} (hp : (s.thread c sl).place ∈ [.barrier b, .rope, .channel b]) (hs : (s.thread c sl).save = none) :
    (s.saving c g).startSave c sl = (s.saving c g).saveFrom c sl (s.thread c sl).place (s.thread c sl).next true := by
  have saving : ((s.saving c g).groupOf c sl).isSaving = true := by
    rw [State.saving_groupOf hg ht]
    rfl
  simp only [List.mem_cons, List.not_mem_nil, or_false] at hp
  rcases hp with hp | hp | hp <;>
    simp only [State.startSave, State.saveWaiter, State.saving_thread, hp, saving, hs, Bool.not_true, Option.isSome_none, Bool.or_self,
      Bool.false_eq_true, if_false, if_true]

theorem State.toSave_saving (hr : (s.thread c sl).region = none) (hs : (s.thread c sl).save = none) (hpend : (s.thread c sl).pending = 0)
    (hpit : s.isPiton gr.root (s.thread c sl).next = true) : (s.saving c g).toSave c sl = true := by
  have piton : (s.saving c g).isPiton gr.root (s.thread c sl).next = true := hpit
  simp only [State.toSave, State.rootOf, State.saving_groupOf hg ht, State.saving_thread, hr, hs, hpend, piton]
  simp [Group.isSaving]

end

/-! Grids -/

theorem State.find?_modGrid_self {s : State} {g : Nat} {x : Grid} (h : Tbl.find? s.grids g = some x) (f : Grid → Grid) :
    Tbl.find? (s.modGrid g f).grids g = some (f x) := by
  simp [State.modGrid, h]

theorem State.grid_of_find? {s : State} {g : Nat} {x : Grid} (h : Tbl.find? s.grids g = some x) : s.grid g = x := by
  simp [State.grid, Tbl.get, h]

/-- R399: a rope that stands saved waits for its place: its groups stay as they are. -/
theorem State.blockRope_eq (s : State) (gn rope : Nat) : ∃ f : Grid → Grid, s.blockRope gn rope = s.modGrid gn f ∧
    ∀ x, (f x).resident = x.resident ∧ (f x).saved = x.saved := by
  refine ⟨_, rfl, fun x => ?_⟩
  dsimp only
  split <;> exact ⟨rfl, rfl⟩

/-! What SAVE_COMPLETE keeps of the grids -/

theorem State.unitWrite_accessOnly (s : State) (root va : Nat) (bs : List Byte) : AccessOnly s (s.unitWrite root va bs) := by
  unfold State.unitWrite
  split
  · exact State.agentStoreNc_accessOnly ..
  · exact .refl s

theorem State.writeRecords_accessOnly (s : State) (gr : Group) (lins : List Nat) : AccessOnly s (s.writeRecords gr lins) :=
  (State.unitWrite_accessOnly ..).trans (.foldl _ (fun s _ => s.unitWrite_accessOnly _ _ _) _ _)

theorem State.renameReports_keepsGroups (s : State) (f : Nat × Nat → Nat × Nat) : KeepsGroups s (s.renameReports f) :=
  ⟨fun _ => rfl, rfl⟩

theorem State.dropThread_grids (s : State) (c sl : Nat) : (s.dropThread c sl).grids = s.grids := by
  have free (t : State) : (t.freeRegion c sl).grids = t.grids := (t.freeRegion_keepsGroups c sl).grids
  unfold State.dropThread
  dsimp only
  simp only [State.modCore_grids, State.releaseToken, State.modDie_grids, free]
  split <;> split <;> rfl

theorem State.removeGroup_grid {s : State} {c g gn : Nat} {gr : Group} {gd : Grid} (hg : s.group c g = gr) (hn : gr.grid = gn)
    (hgd : Tbl.find? s.grids gn = some gd) : Tbl.find? (s.removeGroup c g).grids gn =
      some { gd with resident := gd.resident.filter (· != (c, g)) } := by
  unfold State.removeGroup
  simp only [hg, hn]
  refine State.find?_modGrid_self ?_ _
  rw [State.modCore_grids, foldl_keeps State.grids _ fun s sl => s.dropThread_grids c sl]
  exact hgd

/-- R418: SAVE_COMPLETE of a group whose threads have all been saved and whose stores have been answered. -/
theorem State.saveComplete_saves {s : State} {c g n : Nat} {gr : Group} {gd : Grid} (hg : Tbl.find? (s.core c).groups g = some gr)
    (h : gr.save = .scratch n) (hgd : Tbl.find? s.grids gr.grid = some gd) (hrep : s.frameReported gr.grid gr.lin = false)
    (hh : s.allHalted c g = true) (ha : s.allAcked c g = true) (hf : s.frameAccess gr.root gr.grid gr.lin .store = .ok) :
    ∃ v : SavedGroup, (c, g) ∉ ((s.saveComplete c g).grid gr.grid).resident ∧
      Tbl.find? ((s.saveComplete c g).grid gr.grid).saved gr.lin = some v ∧ v.discarded = false ∧ v.at_ = n ∧
      v.threads = (s.liveSlotsOf c g).map fun sl => ((s.thread c sl).lin, (s.thread c sl).forRecord) := by
  have group : s.group c g = gr := State.group_of_find? hg
  obtain ⟨s1, v, b, kept, hv, eq⟩ : ∃ (s1 : State) (v : SavedGroup) (b : Nat), KeepsGroups s s1 ∧
      (v.discarded = false ∧ v.at_ = n ∧ v.threads = (s.liveSlotsOf c g).map fun sl => ((s.thread c sl).lin, (s.thread c sl).forRecord)) ∧
      s.saveComplete c g = ((((s1.removeGroup c g).leaveL1 (· == c) fun _ => true).modGrid gr.grid fun x =>
        { x with saved := Tbl.set x.saved gr.lin v }).blockRope gr.grid b) := by
    simp only [State.saveComplete, group, h, hh, ha, hrep, hf, Bool.not_true, Bool.or_self, Bool.false_eq_true, if_false]
    refine ⟨_, _, _, ?_, ?_, rfl⟩
    · exact (KeepsGroups.of_access (State.writeRecords_accessOnly ..)).trans (State.renameReports_keepsGroups ..)
    · exact ⟨rfl, rfl, rfl⟩
  have removed := State.removeGroup_grid ((kept.group c g).trans group) rfl (kept.find?_grid hgd)
  rw [← (State.leaveL1_cacheOnly (s1.removeGroup c g) (· == c) fun _ => true).grids] at removed
  obtain ⟨f, hblock, hf⟩ := State.blockRope_eq (((s1.removeGroup c g).leaveL1 (· == c) fun _ => true).modGrid gr.grid fun x =>
    { x with saved := Tbl.set x.saved gr.lin v }) gr.grid b
  have saved := State.find?_modGrid_self (State.find?_modGrid_self removed fun x => { x with saved := Tbl.set x.saved gr.lin v }) f
  rw [← hblock, ← eq] at saved
  refine ⟨v, ?_, ?_, hv⟩ <;> rw [State.grid_of_find? saved]
  · rw [(hf _).1]
    simp
  · rw [(hf _).2, Tbl.find?_set_self]

/-! GROUP_DISCARD -/

/-- R418: the record of a discarded group. -/
def State.discardRecord (s : State) (c g : Nat) (gr : Group) : SavedGroup :=
  ⟨gr, [], [], [], [], none, c, true, match gr.save with | .saving t => t | _ => s.clk, false, g⟩

/-- R418: what GROUP_DISCARD makes of a group that may be discarded. -/
def State.discardGroup (s : State) (c g : Nat) (gr : Group) : State :=
  ((((s.liveSlotsOf c g).foldl (fun s sl => s.discardThread c sl) s).modGroup c g fun x =>
      { x with save := .discarded, spSize := 0, grant := 0 }).modGrid gr.grid fun x =>
    { x with resident := x.resident.filter (· != (c, g)), saved := Tbl.set x.saved gr.lin (s.discardRecord c g gr) }).blockRope gr.grid
    (gr.lin / (s.grid gr.grid).launch.ropeG)

theorem State.discardGroup_spec {s : State} {c g : Nat} {gr : Group} {gd : Grid} (hg : Tbl.find? (s.core c).groups g = some gr)
    (hgd : Tbl.find? s.grids gr.grid = some gd) : let w := s.discardGroup c g gr
    (w.group c g).save = .discarded ∧ (w.group c g).spSize = 0 ∧ (w.group c g).grant = 0 ∧ (c, g) ∉ (w.grid gr.grid).resident ∧
      ∀ sl ∈ s.liveSlotsOf c g, (w.thread c sl).next = (s.thread c sl).idem ∧ (w.thread c sl).live = (s.thread c sl).live ∧
        ((s.thread c sl).inst = none → (w.thread c sl).inst = none ∧ ((s.core c).fifo = [] → (w.thread c sl).place = .saved)) ∧
        ((s.thread c sl).inst ≠ none → ∃ y, (w.thread c sl).inst = some y ∧ y.squash ≠ none ∧ y.region = none) := by
  intro w
  obtain ⟨s1, hs1⟩ : ∃ s1, s1 = (s.liveSlotsOf c g).foldl (fun s sl => s.discardThread c sl) s := ⟨_, rfl⟩
  have kept : KeepsGroups s s1 := hs1 ▸ .foldl _ (fun s sl => (s.discardThread_spec c sl).1) _ s
  obtain ⟨s2, hs2⟩ : ∃ s2, s2 = (s1.modGroup c g fun x => { x with save := .discarded, spSize := 0, grant := 0 }).modGrid gr.grid
    fun x => { x with resident := x.resident.filter (· != (c, g)), saved := Tbl.set x.saved gr.lin (s.discardRecord c g gr) } := ⟨_, rfl⟩
  obtain ⟨f, hblock, hf⟩ := s2.blockRope_eq gr.grid (gr.lin / (s.grid gr.grid).launch.ropeG)
  have hw : w = s2.modGrid gr.grid f := by
    rw [← hblock, hs2, hs1]
    rfl
  have group : w.group c g = { gr with save := .discarded, spSize := 0, grant := 0 } := by
    rw [hw, State.group_modGrid, hs2, State.group_modGrid, State.group_modGroup_self (kept.find?_group hg)]
  have grid : w.grid gr.grid =
      f { gd with resident := gd.resident.filter (· != (c, g)), saved := Tbl.set gd.saved gr.lin (s.discardRecord c g gr) } := by
    have still : Tbl.find? (s1.modGroup c g fun x => { x with save := .discarded, spSize := 0, grant := 0 }).grids gr.grid = some gd :=
      kept.find?_grid hgd
    rw [hw, hs2, State.grid_modGrid_self _ (State.find?_modGrid_self still _)]
  refine ⟨by rw [group], by rw [group], by rw [group], ?_, fun sl hsl => ?_⟩
  · rw [grid, (hf _).1]
    simp
  · have thread : w.thread c sl = s1.thread c sl := by
      rw [hw, State.thread_modGrid, hs2, State.thread_modGrid, State.thread_modGroup]
    have discarded : (s.thread c sl).DiscardOf (s1.thread c sl) ((s.core c).fifo ≠ []) :=
      hs1 ▸ State.foldl_discardThread _ s (fun h => Classical.not_not.1 h) (.inr ⟨hsl, rfl, rfl, rfl⟩)
    rw [thread]
    exact ⟨discarded.next, discarded.live, fun hi => ⟨(discarded.idle hi).1, fun hf => (discarded.idle hi).2 (Classical.not_not.2 hf)⟩,
      discarded.squashed⟩

end Sys2Proof.Machine
open Sys2Proof Sys2Proof.Machine

/-- Settles O50: a thread that is saved goes to its save handler with what its image needs; a discard takes the threads one by one. -/
theorem saves : Obligations.Saves := by
  unfold Obligations.Saves
  intro s c g gr hargs hg saving
  have group : s.group c g = gr := State.group_of_find? hg
  refine ⟨State.exec_saveStart_idle hargs hg, fun h hd => ?_, fun sl b h hd hl ht hp hpend => ?_,
    fun sl b h hd hl ht hh hp hr hre hs hpend hpit => ?_,
    fun sl b h hd hl ht hp hs hr => ?_, fun n sl rest v h hl ht hv => ?_, fun n gd h hgd hrep => ?_, fun hh hw => ?_, fun gd hgd => ?_⟩
  · exact (State.exec_saveStart hargs hg h).trans (congrArg _ (if_pos hd))
  · exact (State.exec_saveStart_one hargs hg h hd hl).trans (congrArg _ (State.startSave_pending hp hpend))
  · refine ⟨_, State.exec_saveStart_one hargs hg h hd hl, ?_⟩
    rw [State.startSave_binned hg ht hp (State.toSave_saving hg ht hr hs hpend hpit), hh]
    obtain ⟨p, unfiled⟩ : ∃ p, ((s.saving c g).modCore c fun x => x.unfile sl).thread c sl = { s.thread c sl with place := p } := by
      obtain ⟨p, hth, -⟩ := Core.unfile_placed ((s.saving c g).core c) sl sl
      refine ⟨p, ?_⟩
      rw [State.thread, State.core_modCore_self, hth, ← State.saving_thread s c g c sl]
      rfl
    have root : ((s.saving c g).modCore c fun x => x.unfile sl).rootOf c sl = gr.root := by
      rw [State.rootOf, State.groupOf, State.group_modCore _ _ _ (fun x => x.unfile_groups sl), unfiled, ht, State.saving_group hg]
    obtain ⟨hpriv, htrap, hnext, hsave⟩ := State.saveFrom_thread (s := (s.saving c g).modCore c fun x => x.unfile sl) (c := c) (sl := sl)
      (by rw [unfiled]; exact hr) (p := .free) ⟨fun _ => nofun, nofun⟩ (s.thread c sl).next false
    rw [unfiled] at hnext hsave
    rw [root] at hsave
    refine ⟨hpriv, htrap, hnext, hsave.trans ?_⟩
    simp only [hre, Bool.or_self, Bool.false_eq_true, if_false]
    rfl
  · refine ⟨_, State.exec_saveStart_one hargs hg h hd hl, ?_⟩
    rw [State.startSave_waits hg ht hp hs]
    obtain ⟨hpriv, -, hnext, hsave⟩ := State.saveFrom_thread (s := s.saving c g) (c := c) (sl := sl)
      (by rw [State.saving_thread]; exact hr) (p := (s.thread c sl).place) (by
        simp only [List.mem_cons, List.not_mem_nil, or_false] at hp
        rcases hp with hp | hp | hp <;> rw [hp] <;> exact ⟨fun _ => nofun, nofun⟩) (s.thread c sl).next true
    rw [State.saving_thread] at hnext hsave
    exact ⟨hpriv, hnext, hsave⟩
  · have run : exec .scratchSavePass s = .next (if !s.allHalted c g then s else
        ((s.modGroup c g fun x => { x with save := .scratch n }).modThread c sl fun u =>
          { u with place := .free, save := u.save.map fun v => { v with scr := true, done := false } }).fileTo c sl
            (((s.modGroup c g fun x => { x with save := .scratch n }).thread c sl).trapBase.setWidth 56)) := by
      simp only [exec, execScratchSavePass, State.arg, hargs, List.getD_cons_zero, List.getD_cons_succ, group, h, hl]
    refine ⟨fun ha => ?_, fun ha => ?_⟩
    · rw [run, ha]
      rfl
    · refine ⟨_, run, ?_⟩
      simp only [ha, Bool.not_true, Bool.false_eq_true, if_false, State.fileTo, State.fileFrom, State.group_modThread,
        State.thread_modThread_self, State.thread_modGroup, hv]
      exact ⟨by rw [State.group_modGroup_self hg], rfl, trivial⟩
  · have run : exec .saveComplete s = .next (s.saveComplete c g) := by
      simp only [exec, execSaveComplete, State.arg, hargs]
      rfl
    refine ⟨fun hw => run.trans (congrArg _ ?_), fun hh ha hf => ?_⟩
    · simp only [State.saveComplete, group, h]
      exact if_pos (by rcases hw with hw | hw <;> simp [hw])
    · obtain ⟨v, hres⟩ := State.saveComplete_saves hg h hgd hrep hh ha hf
      exact ⟨_, v, run, hres⟩
  · have run : exec .preemptLimitExpiry s = .next (if s.saveOverdue c g gr then s.endContext (s.grid gr.grid).ctx 8 else s) := by
      simp only [exec, execPreemptLimitExpiry, State.arg, hargs, List.getD_cons_zero, List.getD_cons_succ, group]
    refine ⟨fun hlt => run.trans (congrArg _ (if_neg ?_)), fun hle => run.trans (congrArg _ (if_pos ?_))⟩
    · simp only [State.saveOverdue, decide_eq_false (Nat.not_le.2 hlt), Bool.and_false, Bool.false_and]
      exact Bool.false_ne_true
    · rcases hw with ⟨⟨n, h⟩, hall⟩ | ⟨h, sl, hsl, hpend⟩
      · obtain ⟨sl, hsl, hdone⟩ := List.all_eq_false.1 hall
        simp only [State.saveOverdue, hh, decide_eq_true hle, h, Bool.not_false, Bool.true_and]
        refine List.any_eq_true.2 ⟨sl, hsl, ?_⟩
        cases hs : (s.thread c sl).save with
        | none => rfl
        | some v => simpa [hs] using hdone
      · simp only [State.saveOverdue, hh, decide_eq_true hle, h, Bool.not_false, Bool.true_and]
        exact List.any_eq_true.2 ⟨sl, hsl, by simpa using hpend⟩
  · have run : exec .groupDiscard s = .next (if s.mayDiscard c g then s.discardGroup c g gr else s) := by
      simp only [exec, execGroupDiscard, State.arg, hargs, List.getD_cons_zero, List.getD_cons_succ, group]
      rfl
    refine ⟨fun hm => run.trans (congrArg _ (if_neg (by simp [hm]))), fun hm => ⟨_, run.trans (congrArg _ (if_pos hm)), ?_⟩⟩
    exact State.discardGroup_spec hg hgd
end

section
/-! What the steps of threads leave of the saves: the stage of each group, and that nothing of a grid is saved. -/

namespace Sys2Proof.Machine

theorem State.unfile_keepsGroups (s : State) (c sl : Nat) : KeepsGroups s (s.modCore c fun x => x.unfile sl) :=
  .modCore s c fun x => x.unfile_groups sl

theorem Core.modRegion_groups (x : Core) (k : Nat) (f : Region → Region) : (x.modRegion k f).groups = x.groups := by
  unfold Core.modRegion
  split <;> rfl

theorem State.rollback_keepsGroups (s : State) (c sl cause : Nat) : KeepsGroups s (s.rollback c sl cause) := by
  unfold State.rollback
  split
  · exact .refl s
  · split
    · exact .refl s
    · have unlocked (l : List (Nat × Nat × Nat)) : KeepsGroups s { s with locks := l } := ⟨fun _ => rfl, rfl⟩
      refine (unlocked _).trans ((KeepsGroups.modThread _ c sl _).trans (.modCore _ c fun x => ?_))
      rw [Core.modRegion_groups, (Core.queueWrites_rest x sl _).1]

theorem State.trapThread_keepsGroups (s : State) (c sl : Nat) (tr : Trap) : KeepsGroups s (s.trapThread c sl tr) := by
  have unfiled := s.unfile_keepsGroups c sl
  unfold State.trapThread
  dsimp only
  split
  · refine KeepsGroups.trans ?_ (.modThread _ c sl _)
    refine KeepsGroups.trans ?_ (State.freeRegion_keepsGroups _ c sl)
    split
    · exact unfiled.trans (State.rollback_keepsGroups ..)
    · exact unfiled
  · exact unfiled.trans (.modThread _ c sl _)

theorem State.trapWaiter_keepsGroups (s : State) (c sl : Nat) (p : Place) (cause : Cause) (detail : DWord) :
    KeepsGroups s (s.trapWaiter c sl p cause detail) := by
  unfold State.trapWaiter
  dsimp only
  split
  · split
    · exact State.trapThread_keepsGroups ..
    · exact .modThread ..
  · exact State.trapThread_keepsGroups ..

/-- No group's save goes on or ends, and a grid of which nothing is saved stays so. -/
structure KeepsSaves (s w : State) : Prop where
  saves : ∀ c g, (w.group c g).save = (s.group c g).save
  grids : ∀ gn, (s.grid gn).saved = [] → (w.grid gn).saved = []

namespace KeepsSaves

variable {s t u : State}

theorem refl (s : State) : KeepsSaves s s := ⟨fun _ _ => rfl, fun _ h => h⟩

theorem trans (h : KeepsSaves s t) (h' : KeepsSaves t u) : KeepsSaves s u :=
  ⟨fun c g => (h'.saves c g).trans (h.saves c g), fun gn hs => h'.grids gn (h.grids gn hs)⟩

theorem foldl {β : Type} (f : State → β → State) (h : ∀ s b, KeepsSaves s (f s b)) (l : List β) (s : State) :
    KeepsSaves s (l.foldl f s) :=
  foldl_invariant (KeepsSaves s) f l (fun a b _ ha => ha.trans (h a b)) (refl s)

theorem of_groups (h : KeepsGroups s t) : KeepsSaves s t :=
  ⟨fun c g => by rw [h.group], fun gn hs => by rw [h.grid, hs]⟩

theorem modThread (s : State) (c sl : Nat) (f : Thread → Thread) : KeepsSaves s (s.modThread c sl f) := of_groups (.modThread s c sl f)

theorem modGroup (s : State) (c g : Nat) {f : Group → Group} (hf : ∀ y, (f y).save = y.save) : KeepsSaves s (s.modGroup c g f) :=
  ⟨(KeepsMode.modGroup (c := 0) (sl := 0) s c g hf).2, fun _ h => h⟩

theorem modGrid (s : State) (g : Nat) {f : Grid → Grid} (hf : ∀ x, x.saved = [] → (f x).saved = []) : KeepsSaves s (s.modGrid g f) := by
  refine ⟨fun c g => by rw [State.group_modGrid], fun gn h => ?_⟩
  unfold State.modGrid
  split
  · next x hx =>
    by_cases he : gn = g
    · subst he
      rw [State.grid_of_find? hx] at h
      rw [State.grid, Tbl.get, Tbl.find?_set_self]
      exact hf x h
    · rw [State.grid, Tbl.get, Tbl.find?_set_ne _ _ he]
      exact h
  · exact h

end KeepsSaves

theorem State.breakRope_keepsSaves (s : State) (gn rope : Nat) : KeepsSaves s (s.breakRope gn rope) := by
  unfold State.breakRope
  dsimp only
  refine KeepsSaves.trans ?_ (.modGrid _ gn fun x h => by simp [h, Tbl.mapVals])
  refine KeepsSaves.trans ?_ (.foldl _ (fun s m => ?_) _ _)
  · exact .modGrid s gn fun x h => h
  · exact .foldl _ (fun s n => .of_groups (s.trapWaiter_keepsGroups _ _ _ _ _)) _ s

theorem State.takeTrap_keepsSaves (s : State) (c sl : Nat) (tr : Trap) : KeepsSaves s (s.takeTrap c sl tr) := by
  refine KeepsSaves.trans (.of_groups (s.trapThread_keepsGroups c sl tr)) ?_
  unfold State.takeTrap State.ropeAfterFault
  dsimp only
  split
  · exact State.breakRope_keepsSaves ..
  · exact .refl _

theorem State.fileFrom_keepsSaves (s : State) (c sl from_ : Nat) (addr : VAddr) : KeepsSaves s (s.fileFrom c sl from_ addr) :=
  .modThread s c sl _

theorem State.goTo_keepsSaves (s : State) (c sl : Nat) (addr : VAddr) : KeepsSaves s (s.goTo c sl addr) := by
  obtain ⟨again, ser, h⟩ := s.goTo_eq c sl addr
  rw [h]
  refine KeepsSaves.trans ?_ (State.fileFrom_keepsSaves ..)
  split
  · exact .trans (.modThread s c sl _) (.of_groups (.modDie _ _ _))
  · exact .modThread s c sl _

theorem State.resumeAt_keepsSaves (s : State) (c sl : Nat) (addr : VAddr) : KeepsSaves s (s.resumeAt c sl addr) :=
  .trans (.modThread s c sl fun u => { u with trap := none, place := .free }) (State.goTo_keepsSaves _ c sl addr)

theorem State.enterRegion_keepsSaves (s : State) (c sl k : Nat) (entry path : VAddr) : KeepsSaves s (s.enterRegion c sl k entry path) := by
  have open_ (r : Region) : KeepsSaves s ((s.modCore c fun x => { x with regions := Tbl.set x.regions k r }).modThread c sl fun u =>
      { u with region := some k, place := .free, trap := none, reenter := none, reArmed := false }) :=
    .trans (.of_groups (.modCore s c (f := fun x => { x with regions := Tbl.set x.regions k r }) fun _ => rfl)) (.modThread _ c sl _)
  unfold State.enterRegion
  dsimp only
  refine KeepsSaves.trans ?_ (State.fileFrom_keepsSaves ..)
  split
  · exact (open_ _).trans (.of_groups (.modDie _ _ _))
  · exact open_ _

theorem State.settleRope_keepsSaves (s : State) (gn rope : Nat) : KeepsSaves s (s.settleRope gn rope) := by
  unfold State.settleRope
  dsimp only
  split
  · exact .modGrid _ _ fun x h => h
  · exact .refl s

theorem State.arriveHeld_keepsSaves (s : State) (c sl : Nat) : KeepsSaves s (s.arriveHeld c sl) := by
  have bar (s : State) (b : Nat) : KeepsSaves s (s.arriveBar c sl b false) := by
    unfold State.arriveBar
    dsimp only
    split
    · exact .refl s
    · exact .trans (.modThread s c sl _) (.modGroup _ _ _ fun _ => by rfl)
  have rope (s : State) : KeepsSaves s (s.arriveRope c sl) := by
    unfold State.arriveRope
    dsimp only
    refine KeepsSaves.trans ?_ (State.settleRope_keepsSaves ..)
    exact .trans (.modThread s c sl _) (.modGroup _ _ _ fun _ => by rfl)
  unfold State.arriveHeld
  dsimp only
  split
  · split
    · split
      · exact .trans (.modThread s c sl _) (rope _)
      · exact .trans (.modThread s c sl _) (bar _ _)
    · exact .refl s
  · exact .refl s

theorem State.carryOut_keepsSaves (s : State) (c sl : Nat) (h : HeldStep) (next : VAddr) : KeepsSaves s (s.carryOut c sl h next) := by
  unfold State.carryOut
  split
  · exact State.resumeAt_keepsSaves ..
  · unfold State.waitBar
    dsimp only
    split
    · exact State.takeTrap_keepsSaves ..
    · refine KeepsSaves.trans ?_ (State.arriveHeld_keepsSaves ..)
      exact .trans (.trans (.modThread s c sl _) (.modGroup _ _ _ fun _ => by rfl)) (.modThread _ c sl _)
  · unfold State.waitRope
    dsimp only
    split
    · exact State.takeTrap_keepsSaves ..
    · exact .trans (.modThread s c sl _) (State.arriveHeld_keepsSaves ..)
  · unfold State.waitChannel
    dsimp only
    split
    · exact State.takeTrap_keepsSaves ..
    · split
      · exact State.takeTrap_keepsSaves ..
      · split
        · exact .trans (.modThread s c sl _) (State.fileFrom_keepsSaves ..)
        · exact .modThread s c sl _
  · split
    · exact State.enterRegion_keepsSaves ..
    · exact .trans (.modThread s c sl _) (State.resumeAt_keepsSaves ..)

theorem State.resumeNext_keepsSaves (s : State) (c sl : Nat) (h : HeldStep) (next : VAddr) (def_ ret : Bool) :
    KeepsSaves s (s.resumeNext c sl h next def_ ret) := by
  unfold State.resumeNext
  split
  · exact .trans (.modThread s c sl _) (.modThread _ c sl _)
  · split
    · exact State.carryOut_keepsSaves ..
    · exact State.resumeAt_keepsSaves ..

theorem State.noteIdem_keepsSaves (s : State) (c sl : Nat) (fromId : Bool) (addr : VAddr) : KeepsSaves s (s.noteIdem c sl fromId addr) := by
  unfold State.noteIdem
  split
  · exact .modThread ..
  · exact .refl s

theorem State.obey_keepsSaves (s : State) (c sl cmd : Nat) : KeepsSaves s (s.obey c sl cmd) := by
  have free (f : Thread → Thread) : KeepsSaves s (s.modThread c sl f) := .modThread s c sl f
  unfold State.obey
  dsimp only
  split
  · exact (free _).trans (.trans (.modThread _ c sl _) (State.fileFrom_keepsSaves ..))
  · split
    · split
      · exact (free _).trans (.trans (.modThread _ c sl _) (State.goTo_keepsSaves ..))
      · exact free _
    · split
      · exact free _
      · split
        · exact free _
        · split
          · exact (free _).trans (.trans (.modThread _ c sl _) (State.resumeAt_keepsSaves ..))
          · refine KeepsSaves.trans ?_ (State.resumeNext_keepsSaves ..)
            split
            · exact (free _).trans (.modThread _ c sl _)
            · exact (free _).trans (.trans (.modThread _ c sl _) (State.noteIdem_keepsSaves ..))

theorem State.leaveRegion_keepsGroups (s : State) (c sl : Nat) (addr : VAddr) : KeepsGroups s (s.leaveRegion c sl addr).1 := by
  unfold State.leaveRegion
  split
  · exact .refl s
  · split
    · exact .refl s
    · exact (State.rollback_keepsGroups ..).trans ((State.freeRegion_keepsGroups ..).trans (.modThread _ c sl _))

theorem State.enterSave_keepsGroups (s : State) (c sl : Nat) (mask : DWord) (all : Bool) : KeepsGroups s (s.enterSave c sl mask all) := by
  unfold State.enterSave
  exact (s.unfile_keepsGroups c sl).trans (.trans (.modThread _ c sl _) (.modThread _ c sl _))

theorem State.saveFrom_keepsGroups (s : State) (c sl : Nat) (p : Place) (addr : VAddr) (all : Bool) :
    KeepsGroups s (s.saveFrom c sl p addr all) := by
  have left := s.leaveRegion_keepsGroups c sl addr
  unfold State.saveFrom
  dsimp only
  refine KeepsGroups.trans ?_ (State.enterSave_keepsGroups ..)
  refine KeepsGroups.trans ?_ (.modThread _ c sl _)
  split
  · exact left.trans (.modDie _ _ _)
  · exact left

theorem Core.file_groups (x : Core) (clk sl : Nat) (key : Nat × VAddr) : (x.file clk sl key).groups = x.groups := by
  unfold Core.file
  dsimp only
  split
  · rw [Core.groups_modThread, Core.modBin_groups]
  · split <;> rw [Core.groups_modThread]

theorem State.fileHere_keepsGroups (s : State) (c sl : Nat) : KeepsGroups s (s.fileHere c sl) :=
  .modCore s c fun x => Core.file_groups x _ _ _

theorem State.fileNow_keepsGroups (s : State) (c sl : Nat) : KeepsGroups s (s.fileNow c sl) := by
  unfold State.fileNow
  dsimp only
  split
  · exact .trans (.modThread s c sl _) (.trans (State.saveFrom_keepsGroups ..) (State.fileHere_keepsGroups ..))
  · split
    · exact .modThread s c sl _
    · exact State.fileHere_keepsGroups s c sl

/-- R416: the thread of an image as it was, before a command of the driver that waited for it. -/
def State.setBack (s : State) (c sl : Nat) (v : SaveInfo) : State :=
  let s1 := s.modThread c sl fun t =>
    { t with save := none, priv := false, place := .free, next := v.next, trap := v.trap, resume := v.latch, haltNext := v.blk,
             waitIdx := v.idx, hdoneArg := v.arg, reArmed := v.again }
  match v.place with
  | .barrier _ | .rope | .channel _ | .fault | .halted => s1.modThread c sl fun t => { t with place := v.place }
  | _ => if (s1.thread c sl).reArmed then s1.goTo c sl v.next else s1.fileTo c sl v.next

theorem State.putBack_eq (s : State) (c sl : Nat) (v : SaveInfo) :
    s.putBack c sl v = s.setBack c sl v ∨ ∃ cmd, s.putBack c sl v = (s.setBack c sl v).obey c sl cmd := by
  have parts : s.putBack c sl v = match ((s.setBack c sl v).thread c sl).command with
    | some cmd => if v.place = .fault || v.place = .halted then (s.setBack c sl v).obey c sl cmd else s.setBack c sl v
    | none => s.setBack c sl v := rfl
  rw [parts]
  split
  · split
    · exact .inr ⟨_, rfl⟩
    · exact .inl rfl
  · exact .inl rfl

theorem State.setBack_keepsSaves (s : State) (c sl : Nat) (v : SaveInfo) : KeepsSaves s (s.setBack c sl v) := by
  unfold State.setBack
  dsimp only
  split
  · exact .trans (.modThread s c sl _) (.modThread _ c sl _)
  · exact .trans (.modThread s c sl _) (.modThread _ c sl _)
  · exact .trans (.modThread s c sl _) (.modThread _ c sl _)
  · exact .trans (.modThread s c sl _) (.modThread _ c sl _)
  · exact .trans (.modThread s c sl _) (.modThread _ c sl _)
  · split
    · exact .trans (.modThread s c sl _) (State.goTo_keepsSaves ..)
    · exact .trans (.modThread s c sl _) (State.fileFrom_keepsSaves ..)

theorem State.putBack_keepsSaves (s : State) (c sl : Nat) (v : SaveInfo) : KeepsSaves s (s.putBack c sl v) := by
  have back := s.setBack_keepsSaves c sl v
  rcases s.putBack_eq c sl v with h | ⟨cmd, h⟩ <;> rw [h]
  · exact back
  · exact back.trans (State.obey_keepsSaves ..)

/-! What memory holds after a run of bytes is written -/

theorem memRead_memWriteAll (bs : List Byte) : ∀ (m : List Host.Cell) (a : Nat), Memory.wf m = true →
    (∀ i, i < bs.length → memRead (memWriteAll m a bs) (a + i) = bs.getD i 0) ∧
      ∀ l, l < a → memRead (memWriteAll m a bs) l = memRead m l := by
  induction bs with
  | nil => exact fun m a _ => ⟨fun i hi => (nomatch hi), fun l _ => rfl⟩
  | cons b bs ih =>
    intro m a hm
    obtain ⟨at_, below⟩ := ih (memWrite m a b) (a + 1) (memWrite_wf a b hm)
    refine ⟨fun i hi => ?_, fun l hl => ?_⟩
    · cases i with
      | zero =>
        refine (below a (Nat.lt_succ_self a)).trans ?_
        exact memRead_write_self a b hm
      | succ i =>
        have read := at_ i (Nat.lt_of_succ_lt_succ hi)
        rw [Nat.add_assoc, Nat.add_comm 1 i] at read
        exact read
    · exact (below l (Nat.lt_succ_of_lt hl)).trans (memRead_write_ne b hm (Nat.ne_of_lt hl))

theorem State.renameReports_same (s : State) (f : Nat × Nat → Nat × Nat) : SameThreads s (s.renameReports f) := fun _ => ⟨rfl, rfl⟩

/-! GROUP_RESTORE -/

section
variable {s : State} {c g : Nat} {gr : Group} {v : SavedGroup} (hg : s.group c g = gr) (hrep : s.frameReported gr.grid gr.lin = false)
    (hf : s.frameAccess gr.root gr.grid gr.lin .load = .ok) (hbad : s.recordBad gr v = false)
include hg hrep hf hbad

theorem State.restoreSaved_image (hb : v.begun = false) : s.restoreSaved c g v = s.restoreImage c g gr v := by
  simp only [State.restoreSaved, hg, hrep, hf, hbad, hb, Bool.not_false, Bool.false_eq_true, if_true, if_false]

theorem State.restoreSaved_thread (hb : v.begun = true) {i : Nat} {t : Thread} {rest : List (Nat × Thread)} (ht : v.threads = (i, t) :: rest) :
    s.restoreSaved c g v = s.restoreThread c g gr v i t rest := by
  simp only [State.restoreSaved, hg, hrep, hf, hbad, hb, ht, Bool.not_true, Bool.false_eq_true, if_false]

theorem State.restoreSaved_end (hb : v.begun = true) (ht : v.threads = []) : s.restoreSaved c g v = s.restoreEnd c g gr := by
  simp only [State.restoreSaved, hg, hrep, hf, hbad, hb, ht, Bool.not_true, Bool.false_eq_true, if_false]

end

/-- R416: the end of a restore, after which the group runs on. -/
theorem State.restoreEnd_ends {s : State} {c g : Nat} {gr : Group} {gd : Grid} {v : SavedGroup}
    (hg : Tbl.find? (s.core c).groups g = some gr) (hgd : Tbl.find? s.grids gr.grid = some gd) (hs : gd.saved = [(gr.lin, v)]) :
    ((s.restoreEnd c g gr).group c g).save = .none ∧ ((s.restoreEnd c g gr).grid gr.grid).saved = [] := by
  obtain ⟨s1, hs1⟩ : ∃ s1, s1 = (s.modGroup c g fun x => { x with save := .none }).modGrid gr.grid fun x =>
    { x with saved := Tbl.erase x.saved gr.lin } := ⟨_, rfl⟩
  have kept : KeepsSaves s1 (s.restoreEnd c g gr) := by
    unfold State.restoreEnd
    dsimp only
    rw [← hs1]
    refine KeepsSaves.trans ?_ (State.settleRope_keepsSaves ..)
    refine KeepsSaves.trans ?_ (.of_groups (.modCore _ c fun _ => rfl))
    refine KeepsSaves.trans (.foldl _ (fun s sl => ?_) gr.slots s1) (.foldl _ (fun s sl => ?_) gr.slots _)
    · split
      · exact State.putBack_keepsSaves ..
      · exact .refl s
    · split
      · exact .of_groups (State.fileNow_keepsGroups ..)
      · exact .refl s
  refine ⟨(kept.saves c g).trans ?_, kept.grids _ ?_⟩
  · rw [hs1, State.group_modGrid, State.group_modGroup_self hg]
  · have still : Tbl.find? (s.modGroup c g fun x => { x with save := .none }).grids gr.grid = some gd := hgd
    rw [hs1, State.grid_modGrid_self _ still, hs]
    simp [Tbl.erase]

end Sys2Proof.Machine
open Sys2Proof Sys2Proof.Machine

/-- Settles O51: a restore goes on by one part at a time; its end keeps what no step of a thread changes of a save. -/
theorem restores : Obligations.Restores := by
  unfold Obligations.Restores
  intro s c g gr gd v hargs hg hsave hgd hv f
  have group : s.group c g = gr := State.group_of_find? hg
  have grid : s.grid gr.grid = gd := State.grid_of_find? hgd
  have run : exec .groupRestore s = .next (if v.discarded then s.restoreDiscarded c g else s.restoreSaved c g v) := by
    simp only [exec, execGroupRestore, State.arg, hargs, List.getD_cons_zero, List.getD_cons_succ, group, hsave, State.savedOf, grid, hv]
  refine ⟨fun hd hrep => ?_, fun hd hrep hf hbad => ?_, fun hd hrep hf hbad => ?_, fun hd => ?_⟩
  · rw [run, hd]
    simp only [Bool.false_eq_true, if_false, State.restoreSaved, group, hrep, if_true]
  · rw [run, hd]
    simp only [Bool.false_eq_true, if_false, State.restoreSaved, group, hrep, hf, hbad, if_true]
  · rw [if_neg (by simp [hd])] at run
    refine ⟨fun bs hsafe hb hsp hread => ?_, fun i t rest k live hb ht hk hc himg => ?_, fun hb ht hgds => ?_⟩
    · rw [State.restoreSaved_image group hrep hf hbad hb] at run
      have image : s.restoreImage c g gr v = (s.wr (spLoc c gr.spBase) bs).modGrid gr.grid fun x =>
          { x with saved := Tbl.set x.saved gr.lin { v with begun := true } } := by
        have read : s.unitRead gr.root ((s.frameOf gr.grid gr.lin).1 + (s.frameOf gr.grid gr.lin).2) gr.spSize = some bs := hread
        simp only [State.restoreImage, hsp, if_false, read]
      have still : Tbl.find? (s.wr (spLoc c gr.spBase) bs).grids gr.grid = some gd := hgd
      refine ⟨_, run, ?_⟩
      rw [image, State.group_modGrid, State.grid_modGrid_self _ still, State.modGrid_mem]
      refine ⟨?_, Tbl.find?_set_self .., ?_⟩
      · rw [((s.wr_accessOnly _ _).group c g), group, hsave]
      · exact (memRead_memWriteAll bs s.mem (spLoc c gr.spBase) hsafe).1
    · intro sl
      rw [State.restoreSaved_thread group hrep hf hbad hb ht] at run
      refine ⟨fun hroom => run.trans (congrArg _ ?_), fun hroom => ⟨_, run, ?_⟩⟩
      · simp only [State.restoreThread, hk, himg, hroom, Bool.not_false, if_true]
      · obtain ⟨s1, th1, grids1, heq⟩ : ∃ s1 : State, ((s1.thread c sl).live = live ∧ (s1.thread c sl).group = g ∧
            (s1.thread c sl).save = some k) ∧ s1.grids = s.grids ∧ s.restoreThread c g gr v i t rest =
              s1.modGrid gr.grid fun x => { x with saved := Tbl.set x.saved gr.lin { v with threads := rest } } := by
          simp only [State.restoreThread, hk, himg, hroom, hc, Bool.not_true, Bool.false_eq_true, if_false]
          refine ⟨_, ?_, ?_, rfl⟩
          · rw [SameThreads.thread (State.renameReports_same _ _), State.thread_modCore _ _ _ (fun y => (Core.queueWrites_rest y _ _).2.1)]
            rw [State.thread_modThread_self]
            exact ⟨rfl, rfl, rfl⟩
          · rfl
        have still : Tbl.find? s1.grids gr.grid = some gd := grids1 ▸ hgd
        rw [heq, State.thread_modGrid, State.grid_modGrid_self _ still]
        exact ⟨th1.1, th1.2.1, th1.2.2, Tbl.find?_set_self ..⟩
    · rw [State.restoreSaved_end group hrep hf hbad hb ht] at run
      exact ⟨_, run, State.restoreEnd_ends hg hgd hgds⟩
  · rw [if_pos hd] at run
    intro ready
    refine ⟨fun hready => run.trans (congrArg _ (if_neg (ne_true_of_eq_false hready))), fun hready hsafe => ⟨_, run, ?_⟩⟩
    obtain ⟨s2, hs2⟩ : ∃ s2, s2 = (((s.wr (spLoc c gr.spBase) (List.replicate gr.spSize 0)).modGroup c g fun x =>
      { x with save := .none }).modGrid gr.grid fun x => { x with saved := Tbl.erase x.saved gr.lin }) := ⟨_, rfl⟩
    have eq : s.restoreDiscarded c g = (s.liveSlotsOf c g).foldl (fun s sl =>
        (s.modThread c sl fun t => { t with place := .free }).fileTo c sl (s.thread c sl).next) s2 := by
      rw [hs2, State.restoreDiscarded, group]
      exact if_pos hready
    have filed : KeepsGroups s2 (s.restoreDiscarded c g) ∧ (s.restoreDiscarded c g).mem = s2.mem := by
      rw [eq]
      exact foldl_invariant (fun t => KeepsGroups s2 t ∧ t.mem = s2.mem) _ _ (fun t sl _ ht =>
        ⟨ht.1.trans (.trans (.modThread t c sl _) (.modThread _ c sl _)), ht.2⟩) ⟨.refl s2, rfl⟩
    have group2 : (s2.group c g).save = .none := by
      rw [hs2, State.group_modGrid, State.group_modGroup_self]
      exact hg
    refine ⟨by rw [filed.1.group, group2], fun i hi => ?_⟩
    have zeros := (memRead_memWriteAll (List.replicate gr.spSize 0) s.mem (spLoc c gr.spBase) hsafe).1 i (by simpa using hi)
    rw [filed.2, hs2, State.modGrid_mem]
    refine zeros.trans ?_
    simp [hi]
end

section
/-! Placement, pre-emption and migration. -/

namespace Sys2Proof.Machine

/-! Creating the threads of a group -/

/-- R29: what placement makes of one thread. -/
structure Thread.Created (t : Thread) (g : Nat) (r : LaunchRec) : Prop where
  next : t.next = r.entry.setWidth 56
  group : t.group = g
  live : t.live = argSlots r.args

theorem Core.file_thread_self (x : Core) (clk sl : Nat) (key : Nat × VAddr) :
    ∃ p, (x.file clk sl key).thread sl = { x.thread sl with place := p, next := key.2, filed := clk } := by
  unfold Core.file
  dsimp only
  split
  · next b _ =>
    refine ⟨.binned b, ?_⟩
    rw [Core.thread_modThread_self, Core.thread, Core.modBin_threads]
    rfl
  · split
    · exact ⟨_, Core.thread_modThread_self ..⟩
    · exact ⟨_, Core.thread_modThread_self ..⟩

theorem Core.file_thread_ne (x : Core) (clk : Nat) {sl k : Nat} (key : Nat × VAddr) (h : k ≠ sl) :
    (x.file clk sl key).thread k = x.thread k := by
  unfold Core.file
  dsimp only
  split
  · rw [Core.thread_modThread_ne _ _ h, Core.thread, Core.modBin_threads]
    rfl
  · split
    · exact Core.thread_modThread_ne _ _ h
    · exact Core.thread_modThread_ne _ _ h

/-- R29: one thread of a group that is placed. -/
def State.createOne (s : State) (c g : Nat) (r : LaunchRec) (m : Nat × Nat) : State :=
  (((s.modThread c m.1 fun _ => { newThread r g m.2 (argSlots r.args) with engFence := s.clk }).noteIdem c m.1 false
    (r.entry.setWidth 56)).fileTo c m.1 (r.entry.setWidth 56)).fileHere c m.1

theorem State.createThreads_eq (s : State) (c g : Nat) (r : LaunchRec) : s.createThreads c g r =
    (((s.group c g).slots.zip (List.range (s.group c g).slots.length)).foldl (fun s m => s.createOne c g r m) s).modCore c fun x =>
      { x with filedAll := some s.clk } := rfl

theorem State.createOne_keepsGroups (s : State) (c g : Nat) (r : LaunchRec) (m : Nat × Nat) : KeepsGroups s (s.createOne c g r m) := by
  have idem (t : State) : KeepsGroups t (t.noteIdem c m.1 false (r.entry.setWidth 56)) := by
    unfold State.noteIdem
    split
    · exact .modThread ..
    · exact .refl t
  exact .trans (.trans (.modThread s c m.1 _) (idem _)) (.trans (.modThread _ c m.1 _) (State.fileHere_keepsGroups ..))

theorem State.createOne_self (s : State) (c g : Nat) (r : LaunchRec) (m : Nat × Nat) :
    ((s.createOne c g r m).thread c m.1).Created g r := by
  obtain ⟨a, ha⟩ := (s.modThread c m.1 fun _ => { newThread r g m.2 (argSlots r.args) with engFence := s.clk }).noteIdem_thread c m.1 false
    (r.entry.setWidth 56)
  rw [State.thread_modThread_self] at ha
  obtain ⟨s1, hs1⟩ : ∃ s1, s1 = ((s.modThread c m.1 fun _ => { newThread r g m.2 (argSlots r.args) with engFence := s.clk }).noteIdem c m.1
    false (r.entry.setWidth 56)).fileTo c m.1 (r.entry.setWidth 56) := ⟨_, rfl⟩
  have filed : (s1.thread c m.1).Created g r := by
    rw [hs1, State.fileTo, State.fileFrom, State.thread_modThread_self, ha]
    exact ⟨rfl, rfl, rfl⟩
  have eq : (s.createOne c g r m).thread c m.1 = ((s1.core c).file s1.clk m.1 (s1.aspOf c m.1, ((s1.core c).thread m.1).next)).thread m.1 := by
    rw [State.createOne, ← hs1, State.fileHere, State.thread, State.core_modCore_self]
  obtain ⟨p, hp⟩ := Core.file_thread_self (s1.core c) s1.clk m.1 (s1.aspOf c m.1, ((s1.core c).thread m.1).next)
  rw [eq, hp]
  exact ⟨filed.next, filed.group, filed.live⟩

theorem State.createOne_ne (s : State) {c : Nat} (g : Nat) (r : LaunchRec) (m : Nat × Nat) {sl : Nat} (h : sl ≠ m.1) :
    (s.createOne c g r m).thread c sl = s.thread c sl := by
  have one (t : State) : (t.noteIdem c m.1 false (r.entry.setWidth 56)).thread c sl = t.thread c sl :=
    (t.noteIdem_only c m.1 _ _).1 c sl (.inr h)
  rw [State.createOne, State.fileHere, State.thread, State.core_modCore_self, Core.file_thread_ne _ _ _ h]
  refine (State.thread_modThread_ne _ _ h).trans ?_
  rw [one, State.thread_modThread_ne _ _ h]

theorem State.foldl_createOne {c g sl : Nat} {r : LaunchRec} (l : List (Nat × Nat)) : ∀ s : State,
    (s.thread c sl).Created g r ∨ sl ∈ l.map Prod.fst → ((l.foldl (fun s m => s.createOne c g r m) s).thread c sl).Created g r := by
  induction l with
  | nil => exact fun s h => h.resolve_right fun h => (nomatch h)
  | cons m l ih =>
    intro s h
    refine ih _ ?_
    by_cases hm : sl = m.1
    · subst hm
      exact .inl (s.createOne_self c g r m)
    · rw [s.createOne_ne g r m hm]
      exact h.imp id fun h => (List.mem_cons.1 h).resolve_left hm

/-- R29: the threads of a group that is placed, and the group. -/
theorem State.createThreads_spec (s : State) (c g : Nat) (r : LaunchRec) : KeepsGroups s (s.createThreads c g r) ∧
    ∀ sl ∈ (s.group c g).slots, ((s.createThreads c g r).thread c sl).Created g r := by
  rw [State.createThreads_eq]
  refine ⟨.trans (.foldl _ (fun s m => s.createOne_keepsGroups c g r m) _ s) (.modCore _ c fun _ => rfl), fun sl hsl => ?_⟩
  rw [State.thread_modCore]
  · refine State.foldl_createOne _ s (.inr ?_)
    rw [List.map_fst_zip (by simp)]
    exact hsl
  · exact fun _ => rfl

/-! Placing a group of its own -/

theorem State.keepTemporal_same (s : State) (c : Nat) : SameThreads s (s.keepTemporal c) := by
  have grid (g : Nat) (f : Grid → Grid) : SameThreads s (s.modGrid g f) := fun c' => by
    rw [State.core_modGrid]
    exact ⟨rfl, rfl⟩
  unfold State.keepTemporal
  dsimp only
  split
  · split
    · exact grid _ _
    · exact .refl s
  · exact .refl s

theorem State.ownTemporal_same (s : State) (c g : Nat) (r : LaunchRec) (st : Temporal) : SameThreads s (s.ownTemporal c g r st) := by
  unfold State.ownTemporal
  split
  · exact (s.keepTemporal_same c).trans (State.modCore_same _ c fun _ => ⟨rfl, rfl⟩)
  · exact .refl s

theorem State.unblock_same (s : State) (u : BlockedRef) (cores : List Nat) : SameThreads s (s.unblock u cores) := by
  intro c
  have core : (s.unblock u cores).core c = s.core c := State.core_modGrid s u.grid c _
  rw [core]
  exact ⟨rfl, rfl⟩

theorem State.placeUnitAt_one {s : State} {u : BlockedRef} {f : Nat} {m : Room} (hg : (s.grid u.grid).launch.ropeG = 1)
    (hp : (s.grid u.grid).launch.ropeP = 1) (hh : (s.grid u.grid).heap = none) (hs : s.seats u 0 = [u.rope])
    (hv : s.savedOf u.grid u.rope = none) (hm : (s.core f).roomOf f u.grid (s.grid u.grid).launch none u.rope = some m) :
    let gd := s.grid u.grid
    let w := s.placeUnitAt u f
    w.group f m.num = newGroup gd u.grid u.rope m (s.ctxEntry gd.ctx).root s.clk ∧
      ∀ sl ∈ m.slots, (w.thread f sl).Created m.num gd.launch := by
  intro gd w
  obtain ⟨g, hgrp⟩ : ∃ g, g = newGroup gd u.grid u.rope m (s.ctxEntry gd.ctx).root s.clk := ⟨_, rfl⟩
  have single : g.carrier = false := by
    rw [hgrp]
    simp [newGroup, gd, hh]
  obtain ⟨s2, hs2, group2⟩ : ∃ s2 : State, s.placeFresh f u.grid u.rope m = s2.createThreads f m.num gd.launch ∧ s2.group f m.num = g := by
    refine ⟨(((s.modCore f fun x => { x with groups := Tbl.set x.groups m.num g }).modGrid u.grid fun y =>
      { y with resident := y.resident ++ [(f, m.num)],
               ropes := if g.carrier then Tbl.set y.ropes u.rope { RopeBar.reset with brk := true } else y.ropes }).ownTemporal f m.num
        gd.launch Temporal.reset), ?_, ?_⟩
    · rw [State.placeFresh]
      dsimp only
      rw [← hgrp, single]
      rfl
    · rw [SameThreads.group (State.ownTemporal_same _ _ _ _ _), State.group_modGrid, State.group, State.core_modCore_self, Core.group]
      simp [Tbl.get]
  have placed : s.placeGroup f u.grid u.rope = s2.createThreads f m.num gd.launch := by
    rw [← hs2, State.placeGroup, hv]
    simp only [hm]
  obtain ⟨kept, created⟩ := s2.createThreads_spec f m.num gd.launch
  have cores : (s.grid u.grid).launch.ropeCores = 1 := by rw [LaunchRec.ropeCores, hg, hp]
  have same : SameThreads (s2.createThreads f m.num gd.launch) w := by
    have eq : w = { (s2.createThreads f m.num gd.launch).unblock u [f] with placeClk := some s.clk } := by
      rw [← placed]
      simp only [w, State.placeUnitAt, cores, List.range_one, List.flatMap_cons, List.flatMap_nil, hs, List.map_cons, List.map_nil,
        List.append_nil, List.foldl_cons, List.foldl_nil, Nat.add_zero]
    rw [eq]
    exact fun c => State.unblock_same _ u [f] c
  refine ⟨?_, fun sl hsl => ?_⟩
  · rw [same.group, kept.group, group2, hgrp]
  · rw [same.thread]
    exact created sl (by rw [group2, hgrp]; exact hsl)

/-! Migration -/

/-- A state with a group on a core, and its memory. -/
structure State.Holds (t : State) (dst n : Nat) (x : Group) (mem : List Host.Cell) : Prop where
  group : t.group dst n = x
  mem : t.mem = mem

namespace State.Holds

variable {s t : State} {dst n : Nat} {x : Group} {mem : List Host.Cell}

theorem of_same (h : t.Holds dst n x mem) (hs : SameThreads t s) (hm : s.mem = t.mem) : s.Holds dst n x mem :=
  ⟨(hs.group dst n).trans h.group, hm.trans h.mem⟩

theorem withDies (h : t.Holds dst n x mem) (d : Tbl Die) : State.Holds { t with dies := d } dst n x mem := h.of_same (fun _ => ⟨rfl, rfl⟩) rfl

theorem withPoison (h : t.Holds dst n x mem) (p : List Nat) : State.Holds { t with poison := p } dst n x mem :=
  h.of_same (fun _ => ⟨rfl, rfl⟩) rfl

theorem modThread (h : t.Holds dst n x mem) (c sl : Nat) (f : Thread → Thread) : (t.modThread c sl f).Holds dst n x mem :=
  ⟨(State.group_modThread ..).trans h.group, h.mem⟩

end State.Holds

/-- R399: a migrated group stands on its new core, and memory is as before but for the bytes of its scratchpad there. -/
theorem State.migrate_holds (s : State) (c g dst : Nat) (m : Room) : (s.migrate c g dst m).Holds dst m.num
    { s.group c g with slots := m.slots.take (s.group c g).slots.length, spBase := m.base, moving := false }
    (memWriteAll s.mem (spLoc dst m.base) (memReadAll s.mem (spLoc c (s.group c g).spBase) (s.group c g).spSize)) := by
  have grid {t : State} {x : Group} {mem : List Host.Cell} (h : t.Holds dst m.num x mem) (gn : Nat) (F : Grid → Grid) (home : Nat × Nat → Nat × Nat) :
      ((t.modGrid gn F).renameReports home).Holds dst m.num x mem :=
    ⟨(SameThreads.group (State.renameReports_same _ _) _ _).trans ((State.group_modGrid ..).trans h.group),
      (State.modGrid_mem ..).trans h.mem⟩
  unfold State.migrate
  dsimp only
  refine grid ?_ _ _ _
  refine State.Holds.withDies ?_ _
  refine foldl_invariant (fun t : State => t.Holds dst m.num _ _) _ _ (fun t e _ ht => ?_) ?_
  · obtain ⟨sl, th⟩ := e
    dsimp only
    split
    · exact ht
    · exact ht.modThread ..
  · refine State.Holds.withPoison ?_ _
    refine ⟨?_, ?_⟩
    · rw [(State.wr_accessOnly ..).group, State.group, State.core_modCore_self, Core.group]
      simp [Tbl.get]
    · refine congrArg (fun mem => memWriteAll mem _ _) ?_
      have removed : ((s.group c g).slots.foldl (fun s sl => s.modCore c fun y => (y.unfile sl).freeThread sl) s).mem = s.mem :=
        foldl_keeps State.mem (fun s sl => s.modCore c fun y => (y.unfile sl).freeThread sl) (fun _ _ => rfl) _ s
      rw [State.modCore_mem]
      split
      · rw [State.keepTemporal_mem, State.modCore_mem, removed]
      · rw [State.modCore_mem, removed]

theorem State.migrate_spec {s : State} (hs : s.Safe) (c g dst : Nat) (m : Room) : let x := s.group c g
    let w := s.migrate c g dst m
    w.group dst m.num = { x with slots := m.slots.take x.slots.length, spBase := m.base, moving := false } ∧
      ∀ i, i < x.spSize → memRead w.mem (spLoc dst m.base + i) = memRead s.mem (spLoc c x.spBase + i) := by
  have holds := s.migrate_holds c g dst m
  refine ⟨holds.group, fun i hi => ?_⟩
  rw [holds.mem]
  refine ((memRead_memWriteAll _ s.mem (spLoc dst m.base) hs).1 i (by simpa using hi)).trans ?_
  rw [memReadAll_eq]
  simp [hi]

end Sys2Proof.Machine
open Sys2Proof Sys2Proof.Machine

/-- Settles O39: the threads of a placed group are created one by one; a migration takes the bytes and the group along. -/
theorem placeUnit : Obligations.PlaceUnit := by
  unfold Obligations.PlaceUnit
  refine ⟨fun s u us f hclk hu hf => ⟨?_, fun m hg hp hh hs hv hm => ?_⟩, fun s c g => ?_⟩
  · simp only [exec, execPlaceUnit, hu, if_neg hclk, State.tryUnits, hf]
  · obtain ⟨group, created⟩ := State.placeUnitAt_one hg hp hh hs hv hm
    exact ⟨group, State.placeUnitAt_mem .., fun sl hsl => ⟨(created sl hsl).next, (created sl hsl).group, (created sl hsl).live⟩⟩
  · refine ⟨fun u vs hargs hfind => ?_, fun u case ctx z hp => ?_, fun dst m hsafe hargs hmay hto hm => ?_, fun die t hargs ht => ?_⟩
    · intro cands hany hbest
      have run : exec .timeSliceExpiry s = .next (s.preemptFor u) := by
        simp only [exec, execTimeSliceExpiry, State.arg, hargs, List.getD_cons_zero, List.getD_cons_succ, hfind]
      rw [run, State.preemptFor]
      refine congrArg _ ((if_neg (ne_true_of_eq_false hany)).trans ?_)
      rw [hbest]
      rfl
    · simp only [State.mayPreempt, Bool.and_eq_true, beq_iff_eq] at hp
      obtain ⟨hsave, hcase⟩ := hp
      refine ⟨hsave, fun hc => ?_, fun hc => ?_⟩
      · rw [hc] at hcase
        exact of_decide_eq_true hcase
      · rw [hc] at hcase
        simp only [Bool.and_eq_true, beq_iff_eq, bne_iff_ne, decide_eq_true_eq] at hcase
        obtain ⟨⟨⟨⟨hprio, hctx⟩, hne⟩, hslice⟩, hran⟩ := hcase
        subst hctx
        exact ⟨hprio, rfl, hne, hslice, hran⟩
    · obtain ⟨group, bytes⟩ := State.migrate_spec hsafe c g dst m
      refine ⟨_, ?_, group, bytes⟩
      simp only [exec, execMigrateGroup, State.arg, hargs, List.getD_cons_zero, List.getD_cons_succ, hmay, hto, beq_self_eq_true,
        Bool.and_self, if_true, hm]
    · have run : exec .dieModeChangeDone s = .next (if s.clk < t then s else { (s.modDie die fun d =>
          { d with fused := !d.fused, modeDue := none }) with
            cores := Tbl.mapVals (fun c y => if dieOf c = die then { y with l1 := [] } else y) s.cores }) := by
        simp only [exec, execDieModeChangeDone, State.arg, hargs, List.getD_cons_zero, ht]
        rfl
      exact ⟨fun h => run.trans (congrArg _ (if_pos h)), fun h => run.trans (congrArg _ (if_neg (Nat.not_lt.2 h)))⟩
end

section
/-! Admissions. -/

namespace Sys2Proof.Machine

/-! Trapping a thread that stands in a bin -/

theorem State.unfile_thread (s : State) (c sl : Nat) :
    ∃ p, (s.modCore c fun x => x.unfile sl).thread c sl = { s.thread c sl with place := p } := by
  obtain ⟨p, hp, -⟩ := Core.unfile_placed (s.core c) sl sl
  refine ⟨p, ?_⟩
  rw [State.thread, State.core_modCore_self]
  exact hp

/-- R404: the thread of no region that is trapped takes its record, where it stood in a bin too. -/
theorem State.trapThread_of_none {s : State} {c sl : Nat} (hr : (s.thread c sl).region = none) (tr : Trap) :
    (s.trapThread c sl tr).thread c sl = (s.thread c sl).takeRecord tr := by
  obtain ⟨p, hp⟩ := s.unfile_thread c sl
  have trapped : s.trapThread c sl tr = (s.modCore c fun x => x.unfile sl).modThread c sl fun u => u.takeRecord tr := by
    unfold State.trapThread
    simp only [hr]
  rw [trapped, State.thread_modThread_self, hp]
  rfl

/-- R404, R280: a rope barrier that breaks with a trap leaves of the trapped thread all but the image of its save. -/
theorem State.takeTrap_of_trapThread (s : State) (c sl : Nat) (tr : Trap) :
    ∃ sv, (s.takeTrap c sl tr).thread c sl = { (s.trapThread c sl tr).thread c sl with save := sv } := by
  have kept := State.ropeAfterFault_unsaved (s := s.trapThread c sl tr) c sl (State.trapThread_place s c sl tr)
  have whole (t : Thread) : t = { t.unsaved with save := t.save } := rfl
  refine ⟨((s.takeTrap c sl tr).thread c sl).save, ?_⟩
  rw [whole ((s.takeTrap c sl tr).thread c sl), State.takeTrap, kept]
  rfl

theorem State.takeTrap_of_none {s : State} {c sl : Nat} (hr : (s.thread c sl).region = none) (tr : Trap) :
    ((s.takeTrap c sl tr).thread c sl).place = .fault ∧ ((s.takeTrap c sl tr).thread c sl).trap = some tr := by
  obtain ⟨sv, h⟩ := s.takeTrap_of_trapThread c sl tr
  rw [h, State.trapThread_of_none hr]
  exact ⟨rfl, rfl⟩

/-- R336, R351: a fault in an open region is taken at the entry of the region. -/
theorem State.takeTrap_of_open {s : State} {c sl k : Nat} {r : Region} (hr : (s.thread c sl).region = some k)
    (hk : Tbl.find? (s.core c).regions k = some r) (ho : r.opened = true) (tr : Trap) : ∃ tr',
    ((s.takeTrap c sl tr).thread c sl).place = .fault ∧ ((s.takeTrap c sl tr).thread c sl).trap = some tr' ∧ tr'.cause = tr.cause ∧
      tr'.blk = r.entry ∧ ((s.takeTrap c sl tr).thread c sl).reArmed = false := by
  obtain ⟨sv, h⟩ := s.takeTrap_of_trapThread c sl tr
  refine ⟨{ tr with blk := r.entry, next := r.abortPath, def_ := false, ret := false, held := { tr.held with step := .none } }, ?_⟩
  have trapped : (s.trapThread c sl tr).thread c sl = { (((s.modCore c fun x => x.unfile sl).rollback c sl 7).freeRegion c sl).thread c sl |>.takeRecord
      { tr with blk := r.entry, next := r.abortPath, def_ := false, ret := false, held := { tr.held with step := .none } } with
      reenter := some (r.entry, r.abortPath), reArmed := false } := by
    unfold State.trapThread
    simp only [hr, hk, ho, if_true, State.thread_modThread_self]
  rw [h, trapped]
  exact ⟨rfl, rfl, rfl, rfl, rfl⟩

/-! Going into flight -/

theorem State.foldl_urge (f : Nat → Choice) (l : List Nat) (s : State) :
    l.foldl (fun s i => s.urge (f i)) s = { s with urgent := s.urgent ++ l.map f } := by
  induction l generalizing s with
  | nil => simp
  | cons a l ih =>
    rw [List.foldl_cons, ih]
    simp [State.urge]

/-- R107, R121: what the admission of a thread makes of its core. -/
def Core.admitted (x : Core) (clk sl k : Nat) (b : Block) : Core :=
  let y := match (x.context k).bin with
    | some n => x.modBin n fun z => { z with vec := z.vec.filter (· != sl) }
    | none => x
  let z := (y.takeBanks clk b).modContext k fun w =>
    { w with quiet := false, lastAdmit := clk, admits := w.admits + 1, candidates := w.candidates.filter (· != sl) }
  { z with lastCtx := k, admitAt := some clk }

theorem Core.admitted_threads (x : Core) (clk sl k : Nat) (b : Block) : (x.admitted clk sl k b).threads = x.threads := by
  unfold Core.admitted
  dsimp only
  rw [Core.modContext_threads]
  split
  · next n _ =>
    have kept := Core.modBin_threads x n fun z => { z with vec := z.vec.filter (· != sl) }
    exact kept
  · rfl

/-- R107: the admission, before its instructions fire. -/
def State.admitting (s : State) (c sl k : Nat) (b : Block) : State :=
  let s1 := s.modCore c fun x => x.admitted s.clk sl k b
  let s2 := s1.modThread c sl fun t => (t.entering k (s1.newInst c sl k b) (hdrID b.hdr))
  s2.modGroup c (s2.thread c sl).group fun g => { g with entered := g.entered || (s2.thread c sl).save.isSome }

section
variable (s : State) (c sl k : Nat) (b : Block)

theorem State.admitInto_fresh (h : (s.thread c sl).resume = none) :
    s.admitInto c sl k b = b.sources.foldl (fun s i => s.urge (.fire c sl i)) (s.admitting c sl k b) := by
  simp only [State.admitInto, h]
  rfl

theorem State.admitInto_resumed {v : LatchWait} (h : (s.thread c sl).resume = some v) :
    s.admitInto c sl k b = (s.admitting c sl k b).modDie (dieOf c) fun d => { d with latch := d.latch ++ [{ v.entry with
      cmd := { v.entry.cmd with core := c, slot := sl, group := (s.thread c sl).group } }] } := by
  simp only [State.admitInto, h]
  rfl

theorem State.admitting_thread : ∃ s1 : State, s1.thread c sl = s.thread c sl ∧
    (s.admitting c sl k b).thread c sl = (s.thread c sl).entering k (s1.newInst c sl k b) (hdrID b.hdr) := by
  have same : (s.modCore c fun x => x.admitted s.clk sl k b).thread c sl = s.thread c sl := by
    rw [State.thread_modCore]
    exact fun x => Core.admitted_threads ..
  refine ⟨_, same, ?_⟩
  rw [State.admitting, State.thread_modGroup, State.thread_modThread_self, same]

theorem State.admitting_core : ((s.admitting c sl k b).core c).admitAt = some s.clk := by
  rw [State.admitting, State.modGroup, State.core_modCore_self, Core.modGroup_admitAt, State.modThread, State.core_modCore_self,
    Core.modThread_admitAt, State.core_modCore_self]
  rfl

theorem State.admitting_keeps : (s.admitting c sl k b).urgent = s.urgent ∧ (s.admitting c sl k b).mem = s.mem := ⟨rfl, rfl⟩

end

/-- R351: the region that a thread opens again at a block. -/
def Thread.regionAgain (t : Thread) (sl : Nat) (b : Block) : Region :=
  ⟨sl, b.addr, match t.reenter with | some (_, p) => p | none => 0, t.live, [], [], [], [], [], [], 1, true, t.reSer, none⟩

/-- R351: a thread in the region that it enters again, before its block is admitted. -/
def State.reopened (s : State) (c sl r : Nat) (b : Block) : State :=
  (s.modCore c fun x => { x with regions := Tbl.set x.regions r ((s.thread c sl).regionAgain sl b) }).modThread c sl fun u =>
    { u with region := some r, reArmed := false, reenter := none }

end Sys2Proof.Machine
open Sys2Proof Sys2Proof.Machine

/-- Settles O41: an admission either puts the thread in flight, or traps it, where an open region keeps its entry. -/
theorem admissions : Obligations.Admissions := by
  unfold Obligations.Admissions
  intro s c sl k hargs hopen hreg t ctx b
  have run : exec .admitThread s = .next (s.admitThread c) := by
    simp only [exec, execAdmitThread, State.arg, hargs]
    rfl
  refine ⟨fun hat hkept hchoice => ?_, fun hkept => ⟨_, run, ?_⟩⟩
  · have one : s.admitThread c = s.admitOne c := by rw [State.admitThread, hkept]
    have admits : s.admitOne c =
        if !t.priv && maskMeets t.failMask b.touchSet then s.failFault c sl b.addr false
        else if hdrAR b.hdr && !t.reenters b then s.refuseAdmission c sl b .regionFault 0 (s.regionDetail c sl 1)
        else if s.admissionHeld c sl b then s
        else s.regionAdmission c sl k b := by
      have first : ((s.core c).admitAt == some s.clk) = false := beq_eq_false_iff_ne.2 hat
      rw [State.admitOne, first]
      simp only [Bool.false_eq_true, if_false, hchoice, hopen, Option.isSome_none, Bool.false_and, Bool.not_false, Bool.true_and]
      rfl
    rw [one, admits] at run
    refine ⟨fun r hfail har hre hheld hfree => ?_, fun hfail har hterm hre => ?_, fun f hpriv hmask hrec => ?_⟩
    · have passes : (!t.priv && maskMeets t.failMask b.touchSet) = false := by
        rcases hfail with h | h <;> simp [h]
      rw [passes, har, hheld] at run
      obtain ⟨s1, r0, detail, hr1, hk1, ho, hentry, eq⟩ : ∃ (s1 : State) (r0 : Region) (detail : DWord), (s1.thread c sl).region = some r ∧
          Tbl.find? (s1.core c).regions r = some r0 ∧ r0.opened = true ∧ r0.entry = b.addr ∧
          s.regionAdmission c sl k b = s1.refuseAdmission c sl b .regionFault 0 detail := by
        have again : (s.thread c sl).reenters b = true := hre
        refine ⟨s.reopened c sl r b, t.regionAgain sl b, (s.reopened c sl r b).regionDetail c sl 2, ?_, ?_, ?_, ?_, ?_⟩
        case refine_2 => rw [State.reopened, State.core_modThread_regions, State.core_modCore_self]; exact Tbl.find?_set_self ..
        · rw [State.reopened, State.thread_modThread_self]
        · rfl
        · rfl
        · simp only [State.regionAdmission, hopen, hfree, again, if_true, har, Bool.false_eq_true, if_false]
          rfl
      obtain ⟨tr', hplace, htrap, hcause, hblk, harmed⟩ := State.takeTrap_of_open hr1 hk1 ho
        (s1.trapOf c sl .regionFault b.addr b.ft false false 0 detail .none)
      refine ⟨_, tr', run, ?_⟩
      simp only [Bool.false_eq_true, if_false, Bool.false_and, eq, State.refuseAdmission]
      exact ⟨hplace, htrap, hcause, hblk.trans hentry, harmed⟩
    · have passes : (!t.priv && maskMeets t.failMask b.touchSet) = false := by
        rcases hfail with h | h <;> simp [h]
      rw [passes, har] at run
      refine ⟨fun hheld => ?_, fun hheld => ?_⟩
      · rw [hheld] at run
        exact run
      · have into : s.regionAdmission c sl k b = s.admitInto c sl k b := by
          have needs : b.needsRegion t = false := by simp [Block.needsRegion, hterm, hre]
          simp only [State.regionAdmission, hopen]
          split
          · rw [if_neg (ne_true_of_eq_false hre), if_neg hterm]
          · rw [if_neg (ne_true_of_eq_false needs)]
        obtain ⟨s1, hs1, hth⟩ := s.admitting_thread c sl k b
        have core := s.admitting_core c sl k b
        rw [hheld, into] at run
        simp only [Bool.false_eq_true, if_false, Bool.false_and] at run
        refine ⟨fun hres => ?_, fun v hres => ?_⟩
        · rw [State.admitInto_fresh s c sl k b hres, State.foldl_urge] at run
          refine ⟨_, s1.newInst c sl k b, run, ?_⟩
          have entered : ((s.admitting c sl k b).thread c sl).place = .inFlight ∧
              ((s.admitting c sl k b).thread c sl).inst = some (s1.newInst c sl k b) := by
            rw [hth, Thread.entering, hres]
            exact ⟨rfl, rfl⟩
          exact ⟨entered.1, entered.2, rfl, rfl, rfl, rfl, rfl, rfl, congrArg Thread.priv hs1, core, rfl, rfl⟩
        · rw [State.admitInto_resumed s c sl k b hres] at run
          refine ⟨_, run, ?_⟩
          rw [State.thread_modDie, State.core_modDie, hth, Thread.entering, hres]
          exact ⟨rfl, rfl, core, rfl, rfl⟩
    · rw [hpriv, hmask] at run
      have faults : s.failFault c sl b.addr false = s.takeTrap c sl (s.trapOf c sl f.cause f.blk b.addr false false f.va f.detail .none) := by
        simp only [State.failFault]
        rw [hrec]
      refine ⟨_, run, ?_⟩
      simp only [Bool.not_false, Bool.and_self, if_true, faults]
      exact State.takeTrap_of_none hreg _
  · have refuses : s.admitThread c = s.takeTrap c sl (s.trapOf c sl .permission b.addr b.ft false false (b.addr.setWidth 64)
        (memDetail 0 3 0 3) .none) := by
      simp only [State.admitThread, hkept]
      rfl
    rw [refuses]
    exact State.takeTrap_of_none hreg _
end

section
/-! Retirements (O42) fail in one case: a group of no grid that stands in the table, whose rope has no barrier to break. -/

namespace Sys2Proof.Machine

/-- A group with its thread 0, and a time limit of 1 clk, at clk 1 of its own clock. -/
def ropeWaitGroup : Group :=
  { Group.reset with slots := [0], barTimeout := BitVec.ofNat 64 (2 ^ 63), clock := 1 }

/-- A thread that waits on the barrier of the rope since clk 0. -/
def ropeWaitThread : Thread := { Thread.reset with place := .rope, group := 0 }

/-- The module of reset with that thread and its group on core 0, and no grid, when the time of the group has run out. -/
def lostRopeState : State :=
  { State.reset.modCore 0 fun x => { x with groups := [(0, ropeWaitGroup)], threads := [(0, ropeWaitThread)] } with
    args := [0, 0, 18] }

theorem lostRopeState_since : lostRopeState.ropeSince 0 0 = some 0 := by decide

/-- R279: the timeout of the rope changes no rope, for no grid stands in the table. -/
theorem lostRopeState_unbroken :
    ((lostRopeState.barrierTimeout 0 0 18).ropeBar 0 (lostRopeState.ropeOf 0 0)).brk = false := by decide

end Sys2Proof.Machine

open Sys2Proof Sys2Proof.Machine

/-- Refutes O42: BARRIER_TIMEOUT marks no rope barrier as broken where the grid of the group has left the table of grids. -/
theorem not_retirements : ¬ Obligations.Retirements := by
  unfold Obligations.Retirements
  rintro ⟨-, h⟩
  obtain ⟨-, rope, -⟩ := h lostRopeState 0 0
  obtain ⟨-, late⟩ := rope ropeWaitGroup 0 rfl (by decide) (by decide) lostRopeState_since
  obtain ⟨w, hw, broken, -⟩ := late (by decide)
  rw [← show lostRopeState.barrierTimeout 0 0 18 = w from Host.Outcome.next.inj hw] at broken
  exact absurd (lostRopeState_unbroken.symm.trans broken) (by decide)

end

section
/-! Matrix events (O44) fail in one case: a row of `macc.st` waits for the atomics that have taken their places at its bytes (R265). -/

namespace Sys2Proof.Machine

/-- A `macc.st.raw` of one row of one element, at the first bytes of the scratchpad of core 0. -/
def oneElementStore : MatCmd where
  kind := .st true
  group := 0
  slot := 0
  core := 0
  blk := 0
  asp := 0
  idx := 0
  ac := 0
  m := 1
  n := 1
  k := 1
  flag := true
  gang := false
  da := ⟨BitVec.ofNat 64 (0xf0 * 2 ^ 48), 128, 0, 0, 0, false⟩
  db := ⟨0, 128, 0, 0, 0, false⟩
  ea := 0
  eb := 0
  units := []
  step := 0
  started := false
  stopped := false

/-- The module of reset with that command on core 0, and an atomic at its bytes that its tile has not performed. -/
def waitingRowState : State :=
  { (State.reset.modCore 0 fun x => { x with matQ := [oneElementStore] }).modDie 0 fun d =>
      { d with tiles := [{ wholeBytesAtomic with segs := [⟨spLoc 0 0, 4, false⟩] }] } with args := [0, 0] }

/-- R265: the row of the command waits, and the command keeps its place in the queue. -/
theorem waitingRowState_waits : ((waitingRowState.maccComplete 0 0).core 0).matQ = [oneElementStore] := by decide

end Sys2Proof.Machine

open Sys2Proof Sys2Proof.Machine

/-- Refutes O44: MACC_COMPLETE leaves a `macc.st` in its queue while an atomic is queued at the bytes of its row. -/
theorem not_matrixEvents : ¬ Obligations.MatrixEvents := by
  unfold Obligations.MatrixEvents
  rintro ⟨h, -⟩
  obtain ⟨-, -, macc⟩ := h waitingRowState 0 0 0 oneElementStore (by decide)
  obtain ⟨-, -, store⟩ := macc rfl
  obtain ⟨w, hw, taken, -⟩ := store true rfl
  rw [← show waitingRowState.maccComplete 0 0 = w from Host.Outcome.next.inj hw] at taken
  exact absurd (waitingRowState_waits.symm.trans taken) (by decide)

end

section
/-! Copy events (O43) fail in one case: a run whose lines are private to a core waits for the granule to be flushed (R436). -/

namespace Sys2Proof.Machine

/-- A run of 64 bytes of the scratchpad of core 0 to the first bytes of memory. -/
def runToMemory : CopyRun where
  copy := 0
  group := 0
  slot := 0
  pos := 0
  len := 64
  src := [⟨spLoc 0 0, 64, false⟩]
  dst := [⟨0, 64, false⟩]
  dstNc := false
  sb := none
  dead := false

/-- The module of reset with that run in channel 0 of core 0, where the granule of its destination is private to core 1. -/
def waitingRunState : State :=
  { (State.reset.modCore 0 fun x => { x with channels := [(0, { Channel.reset with cfg := true, runs := [runToMemory] })] }).setGranule 0
      (BitVec.ofNat 13 5) with args := [0, 0, 0] }

/-- No lock, no other copy and no atomic holds the run back. -/
theorem waitingRunState_free : waitingRunState.runFree runToMemory = true := by decide

/-- R436: the run stays until core 1 has given up the granule. -/
theorem waitingRunState_waits : (((waitingRunState.performRun 0 0 0).core 0).channel 0).runs = [runToMemory] := by decide

end Sys2Proof.Machine

open Sys2Proof Sys2Proof.Machine

/-- Refutes O43: COPY_RUN_PERFORMED performs no run whose destination is private to a core, though nothing holds the run. -/
theorem not_copyEvents : ¬ Obligations.CopyEvents := by
  unfold Obligations.CopyEvents
  intro h
  obtain ⟨-, -, perform⟩ := h waitingRunState 0 0 0
  obtain ⟨-, performed⟩ := perform runToMemory rfl (by decide)
  obtain ⟨w, hw, -, -, left, -⟩ := performed waitingRunState_free
  rw [← show waitingRunState.performRun 0 0 0 = w from Host.Outcome.next.inj hw] at left
  exact absurd (waitingRunState_waits.symm.trans left) (by decide)

end

section
/-! Heap operations (O47): what a heap applies, pops, creates, lends, includes, settles and drains. -/

namespace Sys2Proof.Machine

/-! The operations that a heap applies -/

/-- R365: the request at place `i` of the queue of a heap is taken. -/
def State.tookReq (u : State) (d i : Nat) : State :=
  u.modDie d fun y => { y with heap := { y.heap with queue := removeAt y.heap.queue i, opAt := some u.clk } }

theorem State.tookReq_heap (u : State) (d i : Nat) : ((u.tookReq d i).die d).heap =
    { (u.die d).heap with queue := removeAt (u.die d).heap.queue i, opAt := some u.clk } := by
  rw [State.tookReq, State.die_modDie_self]

@[simp] theorem State.tookReq_stalled (u : State) (d i : Nat) : ((u.tookReq d i).die d).heap.stalled = (u.die d).heap.stalled := by
  rw [State.tookReq_heap]

@[simp] theorem State.tookReq_nextIdx (u : State) (d i : Nat) : ((u.tookReq d i).die d).heap.nextIdx = (u.die d).heap.nextIdx := by
  rw [State.tookReq_heap]

@[simp] theorem State.answer_die (s : State) (r : HeapReq) (v1 v0 f : Option DWord) (d : Nat) : (s.answer r v1 v0 f).die d = s.die d := rfl

@[simp] theorem State.refuseHeap_die (s : State) (r : HeapReq) (code : Nat) (handle : Word) (d : Nat) :
    (s.refuseHeap r code handle).die d = s.die d := rfl

section
variable {u : State} {d i : Nat} {r : HeapReq}

/-- R365, R380: a heap that has applied an operation in this clk, or that waits for the driver, takes no request. -/
theorem State.applyHeapOp_none (h : (u.die d).heap.opAt = some u.clk ∨ (u.die d).heap.stalled = true) : u.applyHeapOp d = u := by
  have hc : ((u.die d).heap.opAt == some u.clk || (u.die d).heap.stalled) = true := by simpa using h
  simp only [State.applyHeapOp, hc, if_true]

variable (ho : (u.die d).heap.opAt ≠ some u.clk) (hs : (u.die d).heap.stalled = false) (hn : (u.die d).heap.nextReq u.clk = some (i, r))
include ho hs hn

/-- R387: a request that is refused whatever its heap holds. -/
theorem State.applyHeapOp_refuse {code : Nat} {handle : Word} (hop : r.op = .refuse code handle) :
    u.applyHeapOp d = (u.tookReq d i).refuseHeap r code handle := by
  simp only [State.applyHeapOp, beq_eq_false_iff_ne.2 ho, hs, Bool.or_self, Bool.false_eq_true, if_false, hn, hop, HeapOp.handle?]
  cases (u.die d).heap.grid with
  | none => rfl
  | some gn =>
    rcases Option.eq_none_or_eq_some (u.grid gn).heap with hx | ⟨hg, hx⟩ <;> simp only [hx] <;> rfl

variable {gn : Nat} {hg : HeapGrid} (hgrid : (u.die d).heap.grid = some gn) (hheap : (u.grid gn).heap = some hg)
include hgrid hheap

/-- R383: a request whose task another die holds goes on. -/
theorem State.applyHeapOp_passOn {handle : Word} {x : Task} (hop : r.op.handle? = some handle) (hx : u.taskOf hg handle = some x)
    (hd : handleDie handle ≠ d) : u.applyHeapOp d = u.passOn d i r handle := by
  simp only [State.applyHeapOp, beq_eq_false_iff_ne.2 ho, hs, Bool.or_self, Bool.false_eq_true, if_false, hn, hop, hgrid, hheap,
    Option.map_some, hx, Option.isSome_some, Bool.and_true, bne_iff_ne.2 hd, if_true, Option.getD_some]

/-- R365, R371: a gain operation whose entry is free, on a task of the own die or of none. -/
theorem State.applyHeapOp_gain {k : Nat} {handle v : Word} (hop : r.op = .gain k handle v)
    (hown : u.taskOf hg handle = none ∨ handleDie handle = d) (hfree : u.entryHeld gn hg d (handleIdx handle) = false) {s' : State}
    (hs' : s' = match (u.tookReq d i).taskOf hg handle with
      | some _ => (u.tookReq d i).applyGain gn hg d r k handle v
      | none => (u.tookReq d i).refuseHeap r 2 handle) (hw : (s'.die d).heap.stalled = false) : u.applyHeapOp d = s' := by
  have hother : (handleDie handle != d && (u.taskOf hg handle).isSome) = false := by
    rcases hown with h | h <;> simp [h]
  subst hs'
  simp only [State.applyHeapOp, beq_eq_false_iff_ne.2 ho, hs, Bool.or_self, Bool.false_eq_true, if_false, hn, hop, HeapOp.handle?, hgrid,
    hheap, Option.map_some, hother, hfree]
  exact if_neg (ne_true_of_eq_false hw)

/-- R365, R369: `hdep` whose entry is free, on a task of the own die or of none. -/
theorem State.applyHeapOp_dep {handle : Word} (hop : r.op = .dep handle)
    (hown : u.taskOf hg handle = none ∨ handleDie handle = d) (hfree : u.entryHeld gn hg d (handleIdx handle) = false) {s' : State}
    (hs' : s' = match (u.tookReq d i).taskOf hg handle with
      | some _ => (u.tookReq d i).applyDep gn hg d r handle
      | none => (u.tookReq d i).refuseHeap r 2 handle) (hw : (s'.die d).heap.stalled = false) : u.applyHeapOp d = s' := by
  have hother : (handleDie handle != d && (u.taskOf hg handle).isSome) = false := by
    rcases hown with h | h <;> simp [h]
  subst hs'
  simp only [State.applyHeapOp, beq_eq_false_iff_ne.2 ho, hs, Bool.or_self, Bool.false_eq_true, if_false, hn, hop, HeapOp.handle?, hgrid,
    hheap, Option.map_some, hother, hfree]
  exact if_neg (ne_true_of_eq_false hw)

/-- R365, R383: `hspawn` whose entry is free. -/
theorem State.applyHeapOp_spawn {frame : List Byte} {gain : Word} {cnt : Nat} (hop : r.op = .spawn frame gain cnt)
    (hfree : u.entryHeld gn hg d (u.die d).heap.nextIdx = false) {s' : State}
    (hs' : s' = (u.tookReq d i).applySpawn gn hg d r frame gain cnt) (hw : (s'.die d).heap.stalled = false) : u.applyHeapOp d = s' := by
  subst hs'
  simp only [State.applyHeapOp, beq_eq_false_iff_ne.2 ho, hs, Bool.or_self, Bool.false_eq_true, if_false, hn, hop, HeapOp.handle?, hgrid,
    hheap, Option.map_some, hfree]
  exact if_neg (ne_true_of_eq_false hw)

end

theorem State.exec_heapOperationApply {s : State} {d : Nat} (hargs : s.args = [d]) :
    exec .heapOperationApply s = .next (s.popAll.applyHeapOp d) := by
  simp only [exec, execHeapOperationApply, State.arg, hargs, List.getD_cons_zero]

section
variable {s : State} {gn d : Nat} {hg : HeapGrid} {r : HeapReq} {handle : Word} {t : Task}
  (hf : s.fetchTask gn hg d (handleIdx handle) = .ok s t)
include hf

/-- R371, R387: a gain operation on an entry that is not valid. -/
theorem State.applyGain_invalid {k : Nat} {v : Word} (hv : t.valid = false) :
    s.applyGain gn hg d r k handle v = s.refuseHeap r 2 handle := by
  simp only [State.applyGain, hf, hv, Bool.not_false, if_true]

/-- R371, R387: a gain operation that gives no gain. -/
theorem State.applyGain_bad {k : Nat} {v : Word} (hv : t.valid = true) (hg' : gainOp k (if t.running then t.q else t.g) v = none) :
    s.applyGain gn hg d r k handle v = s.refuseHeap r 3 handle := by
  simp only [State.applyGain, hf, hv, Bool.not_true, Bool.false_eq_true, if_false, hg']

/-- R371: a gain operation answers with the old gain. -/
theorem State.applyGain_ok {k : Nat} {v g : Word} {w : State} {t' : Task} (hv : t.valid = true)
    (hg' : gainOp k (if t.running then t.q else t.g) v = some g)
    (hu : s.updateTask gn hg d (handleIdx handle) t (if t.running then { t with q := g } else { t with g := g }) = .ok w t') :
    s.applyGain gn hg d r k handle v = w.answer r (some 0) (some ((if t.running then t.q else t.g).setWidth 64)) none := by
  have live : (!t.valid) = false := by rw [hv]; rfl
  simp only [State.applyGain, hf, live, Bool.false_eq_true, if_false, hg', hu]

/-- R369: `hdep` counts a dependence down and answers with the old count. -/
theorem State.applyDep_ok {w : State} {t' : Task} (hv : t.valid = true) (hc : t.c ≠ 0)
    (hu : s.updateTask gn hg d (handleIdx handle) t { t with c := t.c - 1 } = .ok w t') :
    s.applyDep gn hg d r handle = w.answer r (some 0) (some (BitVec.ofNat 64 t.c)) none := by
  have live : (!t.valid) = false := by rw [hv]; rfl
  simp only [State.applyDep, hf, live, Bool.false_eq_true, if_false, hc, hu, decide_false, Bool.false_and]

end

section
variable {s : State} {gn d : Nat} {hg : HeapGrid} {r : HeapReq} {frame : List Byte} {gain : Word} {cnt : Nat}

/-- R383, R387: `hspawn` at the capacity of its heap. -/
theorem State.applySpawn_full (h : (s.die d).heap.nextIdx = hg.cap) : s.applySpawn gn hg d r frame gain cnt = s.refuseHeap r 4 0 := by
  simp only [State.applySpawn, h, if_true]

/-- R383: `hspawn` makes the next task of its heap. -/
theorem State.applySpawn_ok {w : State} {t' : Task} (h : (s.die d).heap.nextIdx ≠ hg.cap) (hg' : validGain gain = true)
    (hok : frameOk frame = true)
    (hu : s.updateTask gn hg d (s.die d).heap.nextIdx noTask (newTask frame gain cnt s.clk) = .ok w t') :
    s.applySpawn gn hg d r frame gain cnt = (w.modDie d fun y =>
      { y with heap := { y.heap with nextIdx := (s.die d).heap.nextIdx + 1 } }).answer r (some 0)
        (some ((handleOf d (s.die d).heap.nextIdx).setWidth 64)) none := by
  simp only [State.applySpawn, h, if_false, hg', hok, Bool.not_true, Bool.false_eq_true, hu]

end

/-! Pops, threads of tasks and lending -/

/-- R364-R366: HEAP_POP of the task that the heap pops, whose entry is free, for a free slot. -/
theorem State.popTask_eq {s w : State} {d gn c g sl : Nat} {hg : HeapGrid} {h : Word} {u t t' : Task} (hheap : (s.grid gn).heap = some hg)
    (hgrid : (s.die d).heap.grid = some gn) (hs : (s.die d).heap.stalled = false) (hp : hg.popping s.clk = true)
    (hpop : (s.die d).heap.popAt ≠ some s.clk) (hop : (s.die d).heap.opAt ≠ some s.clk) (hc : popChoice (s.poppable hg d) = some (h, u))
    (hfor : s.carrierFor gn d = some (c, g, sl)) (hs' : (s.die (handleDie h)).heap.stalled = false)
    (hop' : (s.die (handleDie h)).heap.opAt ≠ some s.clk) (hfree : s.entryHeld gn hg (handleDie h) (handleIdx h) = false)
    (hf : s.fetchTask gn hg (handleDie h) (handleIdx h) = .ok s t) (hin : s.withinSpread hg u.g = true) (hpend : t.pending = true)
    (hu : s.updateTask gn hg (handleDie h) (handleIdx h) t { t with ran := true, q := 0, g := 0, running := true, lent := none } =
      .ok w t') :
    s.popTask d = w.modDie d fun y => { y with heap := { y.heap with
      popAt := some s.clk
      creating := y.heap.creating ++ [(c, (s.clk + (if handleDie h = d then 12 else 100) +
        s.entryLatency gn hg (handleDie h) (handleIdx h) u), sl, gn, h, t.g)] } } := by
  have target : s.popTarget hg d = some (h, u) := by simp only [State.popTarget, hc, hin, if_true]
  simp only [State.popTask, hgrid, hheap, hs, hp, beq_eq_false_iff_ne.2 hpop, beq_eq_false_iff_ne.2 hop, Bool.not_true, Bool.or_self,
    Bool.false_eq_true, if_false, target, hfor, hs', beq_eq_false_iff_ne.2 hop', hfree, hf, hpend, hu]

/-- R359: the thread of a task at its creation, before it is filed. -/
def State.taskThread (s : State) (c sl g gn : Nat) (h gain : Word) (t : Task) : Thread :=
  { newThread (s.grid gn).launch g (posOf sl (s.group c g).slots) (frameSlots t.frame) with
    task := some (h, gain), command := none, engFence := s.clk }

/-- R359, R368: TASK_THREAD_CREATE of a thread that is due, with room for its slots. -/
theorem State.createTaskThread_eq {s : State} {d n c due sl gn g : Nat} {hg : HeapGrid} {h gain : Word} {t : Task}
    (hheap : (s.grid gn).heap = some hg) (hn : (s.die d).heap.creating[n]? = some (c, due, sl, gn, h, gain)) (hdue : due ≤ s.clk)
    (hfree : s.entryHeld gn hg (handleDie h) (handleIdx h) = false) (hroom : (s.core c).roomFor (List.range 16) = true)
    (hslot : (s.core c).groupOfSlot sl = some g) (hf : s.fetchTask gn hg (handleDie h) (handleIdx h) = .ok s t) :
    s.createTaskThread d n = (((((s.modDie d fun y =>
      { y with heap := { y.heap with creating := removeAt y.heap.creating n } }).modThread c sl fun _ =>
      s.taskThread c sl g gn h gain t).modCore c fun x => x.queueWrites sl (List.range 16)).modGroup c g fun x =>
      { x with live := x.live + 1 }).noteIdem c sl false (BitVec.ofNat 56 (fieldAt t.frame 0 8))).fileTo c sl
        (BitVec.ofNat 56 (fieldAt t.frame 0 8)) := by
  simp only [State.createTaskThread, hn, hheap, hfree, Nat.not_lt.2 hdue, decide_false, hroom, Bool.not_true, Bool.or_self,
    Bool.false_eq_true, if_false, hslot, hf]
  rfl

/-- R113: a thread that notes its idempotent entry and goes to a block. -/
theorem State.noteIdem_fileTo (z : State) (c sl : Nat) (a : VAddr) :
    ((((z.noteIdem c sl false a).fileTo c sl a).thread c sl).live = (z.thread c sl).live ∧
      (((z.noteIdem c sl false a).fileTo c sl a).thread c sl).next = a ∧
      (((z.noteIdem c sl false a).fileTo c sl a).thread c sl).task = (z.thread c sl).task ∧
      (((z.noteIdem c sl false a).fileTo c sl a).thread c sl).group = (z.thread c sl).group) ∧
    (∀ g, ((z.noteIdem c sl false a).fileTo c sl a).group c g = z.group c g) ∧
    ((z.noteIdem c sl false a).fileTo c sl a).dies = z.dies ∧ ((z.noteIdem c sl false a).fileTo c sl a).mem = z.mem := by
  obtain ⟨i, hi⟩ := z.noteIdem_thread c sl false a
  refine ⟨?_, fun g => ?_, ?_, by simp⟩
  · rw [State.fileTo, State.fileFrom, State.thread_modThread_self, hi]
    exact ⟨rfl, rfl, rfl, rfl⟩
  · rw [State.fileTo, State.fileFrom, State.group_modThread, State.noteIdem]
    split
    · exact State.group_modThread ..
    · rfl
  · rw [State.fileTo, State.fileFrom, State.modThread_dies, State.noteIdem]
    split <;> rfl

/-- R359, R368: what the creation of a task thread leaves. -/
theorem State.createTaskThread_spec {s : State} {d n c due sl gn g : Nat} {hg : HeapGrid} {h gain : Word} {t : Task}
    (hheap : (s.grid gn).heap = some hg) (hn : (s.die d).heap.creating[n]? = some (c, due, sl, gn, h, gain)) (hdue : due ≤ s.clk)
    (hfree : s.entryHeld gn hg (handleDie h) (handleIdx h) = false) (hroom : (s.core c).roomFor (List.range 16) = true)
    (hslot : (s.core c).groupOfSlot sl = some g) (hf : s.fetchTask gn hg (handleDie h) (handleIdx h) = .ok s t)
    (hgr : Tbl.find? (s.core c).groups g ≠ none) :
    ((s.createTaskThread d n).thread c sl).live = frameSlots t.frame ∧
      ((s.createTaskThread d n).thread c sl).next = BitVec.ofNat 56 (fieldAt t.frame 0 8) ∧
      ((s.createTaskThread d n).thread c sl).task = some (h, gain) ∧ ((s.createTaskThread d n).thread c sl).group = g ∧
      ((s.createTaskThread d n).group c g).live = (s.group c g).live + 1 ∧
      ((s.createTaskThread d n).die d).heap.creating = removeAt (s.die d).heap.creating n ∧ (s.createTaskThread d n).mem = s.mem := by
  obtain ⟨gr, hgr⟩ := Option.ne_none_iff_exists'.1 hgr
  rw [State.createTaskThread_eq hheap hn hdue hfree hroom hslot hf]
  generalize hz : ((((s.modDie d fun y => { y with heap := { y.heap with creating := removeAt y.heap.creating n } }).modThread c sl
    fun _ => s.taskThread c sl g gn h gain t).modCore c fun x => x.queueWrites sl (List.range 16)).modGroup c g fun x =>
      { x with live := x.live + 1 }) = z
  have thread : z.thread c sl = s.taskThread c sl g gn h gain t := by
    rw [← hz, State.thread_modGroup, State.thread_modCore _ _ _ fun y => (Core.queueWrites_rest y sl _).2.1,
      State.thread_modThread_self]
  have there : Tbl.find? (((((s.modDie d fun y => { y with heap := { y.heap with creating := removeAt y.heap.creating n } }).modThread c sl
    fun _ => s.taskThread c sl g gn h gain t).modCore c fun x => x.queueWrites sl (List.range 16))).core c).groups g = some gr := by
    rw [State.core_modCore_self, (Core.queueWrites_rest _ sl _).1, State.modThread, State.core_modCore_self, Core.groups_modThread,
      State.core_modDie]
    exact hgr
  have group : (z.group c g).live = (s.group c g).live + 1 := by
    rw [← hz, State.group_modGroup_self there, State.group_of_find? hgr]
  have die : (z.die d).heap.creating = removeAt (s.die d).heap.creating n := by
    rw [← hz, State.modGroup, State.die_modCore, State.die_modCore, State.modThread, State.die_modCore, State.die_modDie_self]
  obtain ⟨⟨live, next, task, number⟩, groups, dies, mem⟩ := z.noteIdem_fileTo c sl (BitVec.ofNat 56 (fieldAt t.frame 0 8))
  rw [live, task, number, groups, group, thread, mem, State.die, dies]
  exact ⟨rfl, next, rfl, rfl, rfl, die, by rw [← hz]; simp⟩

/-! The home heap: what is due in a clk, settling and the drain -/

section
variable {s : State} {gn : Nat} {gd : Grid} (hgd : Tbl.find? s.grids gn = some gd)
include hgd

/-- Two changes of one grid. -/
theorem State.modGrid_modGrid (f k : Grid → Grid) : (s.modGrid gn f).modGrid gn k = s.modGrid gn fun g => k (f g) := by
  simp only [State.modGrid, hgd, Tbl.find?_set_self, Tbl.set_set]

/-- R375: the heap state of a grid after the one test of a clk. -/
def State.tested (s : State) (h : HeapGrid) : HeapGrid :=
  if h.settled.isSome then h
  else if h.resid < (h.tol.toNat : Int) then
    { h with settled := some (s.clk, false), tset := s.tsc ((leastBelow 8 fun d => h.mask.getLsbD d).getD 0) }
  else if h.active = 0 then
    { h with settled := some (s.clk, true), tset := s.tsc ((leastBelow 8 fun d => h.mask.getLsbD d).getD 0) }
  else h

/-- R375: the test of a grid. -/
theorem State.settleTest_eq (h : HeapGrid) :
    (s.modGrid gn fun g => { g with heap := some h }).settleTest gn = s.modGrid gn fun g => { g with heap := some (s.tested h) } := by
  have tsc : ∀ d, (s.modGrid gn fun g => { g with heap := some h }).tsc d = s.tsc d := fun d => by simp [State.tsc, State.die]
  rw [State.settleTest, State.modGrid_modGrid hgd]
  simp only [Option.map_some, tsc, State.modGrid_clk]
  rfl

variable {h : HeapGrid} (hh : gd.heap = some h)
include hh

/-- R373-R375: what is due takes effect, and the test follows. -/
theorem State.homeClk_due {h' : HeapGrid}
    (hdue : ((h.incl.any fun e => decide (e.1 ≤ s.clk)) || h.effects.any fun e => decide (e.1 ≤ s.clk)) = true)
    (hh' : (h.include s.clk).takeWrites s.clk = h') :
    s.homeClk gn = s.modGrid gn fun g => { g with heap := some (s.tested h') } := by
  rw [State.homeClk, State.grid_of_find? hgd]
  simp only [hh, hdue, if_true, hh']
  exact State.settleTest_eq hgd h'

/-- R373, R374: nothing is due. -/
theorem State.homeClk_idle
    (hdue : ((h.incl.any fun e => decide (e.1 ≤ s.clk)) || h.effects.any fun e => decide (e.1 ≤ s.clk)) = false) :
    s.homeClk gn = s := by
  rw [State.homeClk, State.grid_of_find? hgd]
  simp only [hh, hdue, Bool.false_eq_true, if_false]

end

/-- R375, R376: the four ways in which the test of a clk ends. -/
theorem State.tested_cases {s : State} {gn : Nat} {i : Instr} {h : HeapGrid}
    (hi : exec i s = .next (s.modGrid gn fun g => { g with heap := some (s.tested h) })) :
    (h.settled ≠ none → exec i s = .next (s.modGrid gn fun g => { g with heap := some h })) ∧
    (h.settled = none → h.resid < (h.tol.toNat : Int) → exec i s = .next (s.modGrid gn fun g => { g with heap := some { h with
      settled := some (s.clk, false), tset := s.tsc ((leastBelow 8 fun d => h.mask.getLsbD d).getD 0) } })) ∧
    (h.settled = none → ¬ h.resid < (h.tol.toNat : Int) → h.active = 0 → exec i s = .next (s.modGrid gn fun g => { g with
      heap := some { h with settled := some (s.clk, true), tset := s.tsc ((leastBelow 8 fun d => h.mask.getLsbD d).getD 0) } })) ∧
    (h.settled = none → ¬ h.resid < (h.tol.toNat : Int) → h.active ≠ 0 →
      exec i s = .next (s.modGrid gn fun g => { g with heap := some h })) := by
  rw [hi]
  refine ⟨fun h1 => ?_, fun h1 h2 => ?_, fun h1 h2 h3 => ?_, fun h1 h2 h3 => ?_⟩
  · rw [State.tested, if_pos (Option.isSome_iff_ne_none.2 h1)]
  · rw [State.tested, h1, if_neg (by simp), if_pos h2]
  · rw [State.tested, h1, if_neg (by simp), if_neg h2, if_pos h3]
  · rw [State.tested, h1, if_neg (by simp), if_neg h2, if_neg h3]

/-- R373, R374: what is due of one change and one write. -/
theorem HeapGrid.due_incl {h : HeapGrid} {clk due : Nat} {a b : Int} (hi : h.incl = [(due, a, b)]) (he : h.effects = [])
    (hd : due ≤ clk) : (h.include clk).takeWrites clk = { h with resid := h.resid + a, active := h.active + b, incl := [] } := by
  simp [HeapGrid.include, HeapGrid.takeWrites, hi, he, hd]

theorem HeapGrid.due_effect {h : HeapGrid} {clk due : Nat} {v : DWord} (hi : h.incl = []) (he : h.effects = [(due, false, v)])
    (hd : due ≤ clk) : (h.include clk).takeWrites clk = { h with tol := v, effects := [] } := by
  simp [HeapGrid.include, HeapGrid.takeWrites, hi, he, hd]

theorem HeapGrid.due_both {h : HeapGrid} {clk due due' : Nat} {a b : Int} {v : DWord} (hi : h.incl = [(due, a, b)])
    (he : h.effects = [(due', false, v)]) (hd : due ≤ clk) (hd' : due' ≤ clk) :
    (h.include clk).takeWrites clk =
      { h with resid := h.resid + a, active := h.active + b, incl := [], tol := v, effects := [] } := by
  simp [HeapGrid.include, HeapGrid.takeWrites, hi, he, hd, hd']

end Sys2Proof.Machine

open Sys2Proof Sys2Proof.Machine

/-- Settles O47: each step of a heap is one equation of its function, under the clause's hypotheses. -/
theorem heapOperations : Obligations.HeapOperations := by
  unfold Obligations.HeapOperations
  refine ⟨?_, fun s d gn hg h hheap => ⟨?_, ?_, ?_⟩, ?_⟩
  · intro s d i gn r hg u h took gives
    refine ⟨?_, ?_, ?_⟩
    · intro hargs hnone
      have hexec : exec .heapOperationApply s = .next (u.applyHeapOp d) := State.exec_heapOperationApply hargs
      exact hexec.trans (congrArg _ (State.applyHeapOp_none hnone))
    · intro hargs ho hs hn
      have hexec : exec .heapOperationApply s = .next (u.applyHeapOp d) := State.exec_heapOperationApply hargs
      have applied : ∀ {w : State}, u.applyHeapOp d = w → gives w := fun e => hexec.trans (congrArg _ e)
      have idle : (took.die d).heap.stalled = false := (State.tookReq_stalled u d i).trans hs
      refine ⟨fun code handle hop => applied (State.applyHeapOp_refuse ho hs hn hop), fun hgrid hheap =>
        ⟨fun k handle v hop hfree => ⟨fun h1 h2 => ?_, fun x hx hd => ?_⟩, ?_, ?_, ?_⟩⟩
      · have absent : (u.tookReq d i).taskOf hg handle = none := h2
        rcases hop with hop | hop
        · exact applied (State.applyHeapOp_gain ho hs hn hgrid hheap hop (.inl h1) hfree (by rw [absent]; rfl) idle)
        · exact applied (State.applyHeapOp_dep ho hs hn hgrid hheap hop (.inl h1) hfree (by rw [absent]; rfl) idle)
      · exact applied (State.applyHeapOp_passOn ho hs hn hgrid hheap (by rcases hop with hop | hop <;> rw [hop] <;> rfl) hx hd)
      · intro k handle v t x hop hx hd hfree hf old
        have gain : ∀ {w : State}, (u.tookReq d i).applyGain gn hg d r k handle v = w → (w.die d).heap.stalled = false →
            gives w := fun e hw => applied (State.applyHeapOp_gain ho hs hn hgrid hheap hop (.inr hd) hfree
            (by rw [show (u.tookReq d i).taskOf hg handle = some x from hx]; exact e.symm) hw)
        exact ⟨fun hv => gain (State.applyGain_invalid hf hv) idle, fun hv hb => gain (State.applyGain_bad hf hv hb) idle,
          fun g w t' hv hb hu hw => gain (State.applyGain_ok hf hv hb hu) hw⟩
      · intro handle t x w t' hop hx hd hfree hf hv hc hu hw
        exact applied (State.applyHeapOp_dep ho hs hn hgrid hheap hop (.inr hd) hfree
          (by rw [show (u.tookReq d i).taskOf hg handle = some x from hx]; exact (State.applyDep_ok hf hv hc hu).symm) hw)
      · intro frame gain cnt hop hfree
        have spawn : ∀ {w : State}, (u.tookReq d i).applySpawn gn hg d r frame gain cnt = w → (w.die d).heap.stalled = false →
            gives w := fun e hw => applied (State.applyHeapOp_spawn ho hs hn hgrid hheap hop hfree e.symm hw)
        have next : ((u.tookReq d i).die d).heap.nextIdx = h.nextIdx := State.tookReq_nextIdx u d i
        refine ⟨fun hcap => spawn (State.applySpawn_full (next.trans hcap)) idle, fun w t' hcap hgain hok hu hw => ?_⟩
        rw [← next] at hcap hu ⊢
        refine spawn (State.applySpawn_ok hcap hgain hok hu) ?_
        rw [State.answer_die, State.die_modDie_self]
        exact hw
    · intro c sl k p hargs hp hr hf tok
      simp only [exec, execHeapReply, State.arg, hargs, List.getD_cons_zero, List.getD_cons_succ, hp, hr, hf, Bool.false_eq_true, if_false]
        <;> rfl
  · intro u t c g sl w t' hargs hgrid hs hp hpop hop hc hfor hs' hop' hfree hf hin hpend hu
    simp only [exec, execHeapPop, State.arg, hargs]
    exact congrArg _ (State.popTask_eq hheap hgrid hs hp hpop hop hc hfor hs' hop' hfree hf hin hpend hu)
  · intro n c due sl g gain t hargs hn
    have hexec : exec .taskThreadCreate s = .next (s.createTaskThread d n) := by
      simp only [exec, execTaskThreadCreate, State.arg, hargs]; rfl
    refine ⟨fun hlt => hexec.trans (congrArg _ ?_), fun hdue hfree hroom hslot hf hgr =>
      ⟨_, hexec, State.createTaskThread_spec hheap hn hdue hfree hroom hslot hf hgr⟩⟩
    simp only [State.createTaskThread, hn, hlt, decide_true, Bool.true_or, if_true]
  · intro t hargs hgrid ht hp hpend hmask
    simp only [exec, execHeapLend, State.arg, hargs, List.getD_cons_zero, List.getD_cons_succ, hgrid, hheap, BitVec.ofNat_toNat,
      BitVec.setWidth_eq, ht, hp, hpend, hmask, Bool.and_self, if_true]
  · intro s gn gd h hgd hh hargs now tests
    have hheap : (s.grid gn).heap = some h := by rw [State.grid_of_find? hgd, hh]
    have incl : exec .residInclusion s = .next (s.homeClk gn) := by simp only [exec, execResidInclusion, State.arg, hargs]; rfl
    have tol : exec .heapTolEffect s = .next (s.homeClk gn) := by simp only [exec, execHeapTolEffect, State.arg, hargs]; rfl
    refine ⟨fun due a b hi he => ⟨fun hlt => ?_, fun hd => ?_⟩, fun due a b due' v hi he hd hd' => ?_, fun due v hi he =>
      ⟨fun hlt => ?_, fun hd => ?_⟩, fun n why hset hstop => ?_, fun hmay => ?_, ?_, fun hdr => ?_⟩
    · exact incl.trans (congrArg _ (State.homeClk_idle hgd hh (by simp [hi, he, hlt])))
    · exact State.tested_cases (incl.trans (congrArg _ (State.homeClk_due hgd hh (by simp [hi, hd]) (HeapGrid.due_incl hi he hd))))
    · have due := State.homeClk_due hgd hh (by simp [hi, hd]) (HeapGrid.due_both hi he hd hd')
      exact ⟨State.tested_cases (incl.trans (congrArg _ due)), State.tested_cases (tol.trans (congrArg _ due))⟩
    · exact tol.trans (congrArg _ (State.homeClk_idle hgd hh (by simp [hi, he, hlt])))
    · exact State.tested_cases (tol.trans (congrArg _ (State.homeClk_due hgd hh (by simp [he, hd]) (HeapGrid.due_effect hi he hd))))
    · simp only [exec, execSettlePopStop, State.arg, hargs, List.getD_cons_zero, hheap, hset, hstop, Bool.false_or, decide_eq_true_eq,
        State.modGrid_dies]
      exact ⟨fun hlt => congrArg _ (if_pos hlt), fun hle => congrArg _ (if_neg (Nat.not_lt.2 hle))⟩
    · simp only [exec, execHeapDrain, State.arg, hargs, List.getD_cons_zero, hheap, hmay, Bool.not_false, Bool.true_or, if_true]
    · intro u n bad gs mt hmay hfree hfold hj
      simp only [exec, execHeapDrain, State.arg, hargs, List.getD_cons_zero, hheap, hmay, Bool.not_true, Bool.false_or, hfree,
        Bool.false_eq_true, if_false, hfold, hj]
    · have drained : h.drained.isSome = true := Option.isSome_iff_ne_none.2 hdr
      simp only [exec, execDrainComplete, State.arg, hargs, List.getD_cons_zero, now, State.modGrid, hgd, hh,
        Option.map_some, drained, if_true]

end

section
/-! Temporal arrays (O45): the columns of a launch, and the commands of an array. -/

namespace Sys2Proof.Machine

/-! The first of the best -/

/-- A best element has none as good before it, and none better behind it. -/
theorem bestBy_split {α : Type} {better : α → α → Bool} (key : α → Int)
    (h : ∀ x y, better x y = true ↔ key x < key y) {l : List α} {z : α} (hz : bestBy better l = some z) :
    ∃ l1 l2, l = l1 ++ z :: l2 ∧ (∀ x ∈ l1, key z < key x) ∧ ∀ x ∈ l2, key z ≤ key x := by
  induction l generalizing z with
  | nil => simp [bestBy] at hz
  | cons x xs ih =>
    rw [bestBy] at hz
    cases hb : bestBy better xs with
    | none =>
      obtain rfl : x = z := by simpa [hb] using hz
      have : xs = [] := by
        cases xs with
        | nil => rfl
        | cons y ys =>
          rw [bestBy] at hb
          split at hb
          · simp at hb
          · split at hb <;> simp at hb
      exact ⟨[], xs, rfl, by simp, by simp [this]⟩
    | some y =>
      obtain ⟨l1, l2, hl, before, behind⟩ := ih hb
      simp only [hb] at hz
      split at hz
      · obtain rfl := Option.some.inj hz
        next hlt =>
        refine ⟨x :: l1, l2, by rw [hl]; rfl, fun e he => ?_, behind⟩
        rcases List.mem_cons.1 he with rfl | he
        · exact (h _ _).1 hlt
        · exact before e he
      · obtain rfl := Option.some.inj hz
        next hge =>
        have hle : key x ≤ key y := Int.not_lt.1 fun hlt => hge ((h _ _).2 hlt)
        refine ⟨[], xs, rfl, by simp, fun e he => ?_⟩
        rw [hl] at he
        rcases List.mem_append.1 he with he | he
        · exact Int.le_trans hle (Int.le_of_lt (before e he))
        · rcases List.mem_cons.1 he with rfl | he
          · exact hle
          · exact Int.le_trans hle (behind e he)

theorem bestBy_eq_none {α : Type} {better : α → α → Bool} {l : List α} : bestBy better l = none ↔ l = [] := by
  cases l with
  | nil => simp [bestBy]
  | cons x xs =>
    rw [bestBy]
    split
    · simp
    · split <;> simp

/-! Columns (R322, R323) -/

/-- R322: the terms of a column that are not NEVER, with their rows. -/
def Temporal.arrivals (t : Temporal) (j : Nat) : List (Nat × Nat) :=
  (List.range 32).filterMap fun k => (t.term k j).map fun v => (v, k)

theorem Temporal.column_eq (t : Temporal) (j : Nat) : t.column j =
    if t.mode.getLsbD j then
      (if (t.arrivals j).length < 32 then none else bestBy (fun x y => decide (y.1 < x.1)) (t.arrivals j))
    else bestBy (fun x y => decide (x.1 < y.1)) (t.arrivals j) := by
  rw [Temporal.column, Temporal.arrivals]
  simp only [List.filterMap_map]
  rfl

theorem Temporal.mem_arrivals {t : Temporal} {j v k : Nat} : (v, k) ∈ t.arrivals j ↔ k < 32 ∧ t.term k j = some v := by
  simp only [Temporal.arrivals, List.mem_filterMap, List.mem_range, Option.map_eq_some_iff, Prod.mk.injEq]
  constructor
  · rintro ⟨_, hk, _, hv, rfl, rfl⟩
    exact ⟨hk, hv⟩
  · exact fun ⟨hk, hv⟩ => ⟨k, hk, v, hv, rfl, rfl⟩

theorem Temporal.arrivals_sorted (t : Temporal) (j : Nat) : (t.arrivals j).Pairwise fun x y => x.2 < y.2 := by
  rw [Temporal.arrivals, List.pairwise_filterMap]
  refine List.pairwise_lt_range.imp fun hlt b hb b' hb' => ?_
  obtain ⟨_, -, rfl⟩ := Option.map_eq_some_iff.1 hb
  obtain ⟨_, -, rfl⟩ := Option.map_eq_some_iff.1 hb'
  exact hlt

theorem Temporal.arrivals_few {t : Temporal} {j : Nat} : (t.arrivals j).length < 32 ↔ ∃ k, k < 32 ∧ t.term k j = none := by
  have count : (t.arrivals j).length = (List.range 32).countP fun k => (t.term k j).isSome := by
    rw [Temporal.arrivals, List.length_filterMap_eq_countP]
    simp
  have all : (t.arrivals j).length = (List.range 32).length ↔ ∀ k ∈ List.range 32, (t.term k j).isSome = true := by
    rw [count, List.countP_eq_length]
  have le : (t.arrivals j).length ≤ (List.range 32).length := count ▸ List.countP_le_length
  rw [show 32 = (List.range 32).length from List.length_range.symm, Nat.lt_iff_le_and_ne, and_iff_right le, ne_eq, all]
  simp

/-- R323: the best of a column's terms, of the lowest row that has it. -/
theorem Temporal.arrivals_best {t : Temporal} {j v k : Nat} {better : Nat × Nat → Nat × Nat → Bool} (key : Nat → Int)
    (h : ∀ x y, better x y = true ↔ key x.1 < key y.1) (hz : bestBy better (t.arrivals j) = some (v, k)) :
    k < 32 ∧ t.term k j = some v ∧ (∀ k' < 32, ∀ v', t.term k' j = some v' → key v ≤ key v') ∧ ∀ k' < k, t.term k' j ≠ some v := by
  obtain ⟨l1, l2, hl, before, behind⟩ := bestBy_split (fun x => key x.1) h hz
  have there : (v, k) ∈ t.arrivals j := by rw [hl]; simp
  obtain ⟨hk, hv⟩ := Temporal.mem_arrivals.1 there
  refine ⟨hk, hv, fun k' hk' v' hv' => ?_, fun k' hk' hv' => ?_⟩
  · have mem : (v', k') ∈ t.arrivals j := Temporal.mem_arrivals.2 ⟨hk', hv'⟩
    rw [hl] at mem
    rcases List.mem_append.1 mem with he | he
    · exact Int.le_of_lt (before _ he)
    · rcases List.mem_cons.1 he with he | he
      · exact Int.le_of_eq (congrArg key (congrArg Prod.fst he).symm)
      · exact behind _ he
  · have mem : (v, k') ∈ t.arrivals j := Temporal.mem_arrivals.2 ⟨Nat.lt_trans hk' hk, hv'⟩
    have sorted := t.arrivals_sorted j
    rw [hl] at mem sorted
    rcases List.mem_append.1 mem with he | he
    · exact Int.lt_irrefl (key v) (before (v, k') he)
    · rcases List.mem_cons.1 he with he | he
      · exact Nat.ne_of_lt hk' (congrArg Prod.snd he)
      · exact Nat.lt_asymm hk' ((List.pairwise_cons.1 (List.pairwise_append.1 sorted).2.1).1 _ he)

/-- R322: a term lies within the window. -/
theorem Temporal.term_lt {t : Temporal} {k j v : Nat} (h : t.term k j = some v) : v < 1024 := by
  rw [Temporal.term] at h
  have := t.w.isLt
  split at h
  · simp at h
  · have := Option.some.inj h
    omega

/-- R323: the time and row of a column that takes the first arrival. -/
theorem Temporal.column_first {t : Temporal} {j : Nat} (hm : t.mode.getLsbD j = false) :
    (t.column j = none ↔ ∀ k < 32, t.term k j = none) ∧
    ∀ v k, t.column j = some (v, k) → k < 32 ∧ t.term k j = some v ∧ (∀ k' < 32, ∀ v', t.term k' j = some v' → v ≤ v') ∧
      ∀ k' < k, t.term k' j ≠ some v := by
  rw [Temporal.column_eq, hm, if_neg (by simp), bestBy_eq_none]
  refine ⟨⟨fun h k hk => ?_, fun h => ?_⟩, fun v k h => ?_⟩
  · cases hv : t.term k j with
    | none => rfl
    | some v =>
      have there : (v, k) ∈ t.arrivals j := Temporal.mem_arrivals.2 ⟨hk, hv⟩
      rw [h] at there
      exact absurd there List.not_mem_nil
  · refine List.eq_nil_iff_forall_not_mem.2 fun ⟨v, k⟩ hvk => ?_
    obtain ⟨hk, hv⟩ := Temporal.mem_arrivals.1 hvk
    rw [h k hk] at hv
    simp at hv
  · obtain ⟨hk, hv, least, lowest⟩ := Temporal.arrivals_best (fun v => (v : Int)) (by simp) h
    exact ⟨hk, hv, fun k' hk' v' hv' => Int.ofNat_le.1 (least k' hk' v' hv'), lowest⟩

/-- R323: the time and row of a column that takes the last arrival. -/
theorem Temporal.column_last {t : Temporal} {j : Nat} (hm : t.mode.getLsbD j = true) :
    (t.column j = none ↔ ∃ k, k < 32 ∧ t.term k j = none) ∧
    ∀ v k, t.column j = some (v, k) → k < 32 ∧ t.term k j = some v ∧ (∀ k' < 32, ∀ v', t.term k' j = some v' → v' ≤ v) ∧
      ∀ k' < k, t.term k' j ≠ some v := by
  rw [Temporal.column_eq, hm, if_pos rfl, ← Temporal.arrivals_few]
  by_cases hlen : (t.arrivals j).length < 32
  · rw [if_pos hlen]
    exact ⟨iff_of_true rfl hlen, fun v k h => by simp at h⟩
  · rw [if_neg hlen, bestBy_eq_none]
    refine ⟨iff_of_false (fun h => hlen (by rw [h]; decide)) hlen, fun v k h => ?_⟩
    obtain ⟨hk, hv, greatest, lowest⟩ := Temporal.arrivals_best (fun v => -(v : Int)) (by simp) h
    exact ⟨hk, hv, fun k' hk' v' hv' => Int.ofNat_le.1 (Int.neg_le_neg_iff.1 (greatest k' hk' v' hv')), lowest⟩

theorem Temporal.column_bounds {t : Temporal} {j v k : Nat} (h : t.column j = some (v, k)) : v < 1024 ∧ k < 32 := by
  have spec : k < 32 ∧ t.term k j = some v := by
    cases hm : t.mode.getLsbD j with
    | false => obtain ⟨hk, hv, -⟩ := (Temporal.column_first hm).2 v k h; exact ⟨hk, hv⟩
    | true => obtain ⟨hk, hv, -⟩ := (Temporal.column_last hm).2 v k h; exact ⟨hk, hv⟩
  exact ⟨Temporal.term_lt spec.2, spec.1⟩

/-! Launches (R323, R324) -/

theorem Temporal.capture_setOut (t : Temporal) (i j : Nat) (c : BitVec 16) :
    (t.setOut i c).capture j = if i = j then c else t.capture j := by
  by_cases h : i = j
  · subst h
    simp [Temporal.capture, Temporal.setOut]
  · simp [Temporal.capture, Temporal.setOut, h, Tbl.get_set_ne, Ne.symm h]

theorem Temporal.input_setInput (t : Temporal) (i j : Nat) (c : BitVec 10) :
    (t.setInput i c).input j = if i = j then c else t.input j := by
  by_cases h : i = j
  · subst h
    simp [Temporal.input, Temporal.setInput]
  · simp [Temporal.input, Temporal.setInput, h, Tbl.get_set_ne, Ne.symm h]

/-- The capture words of some columns are set, and no input. -/
theorem Temporal.foldl_setOut (c : Nat → BitVec 16) (l : List Nat) (t : Temporal) :
    (∀ j, (l.foldl (fun u i => u.setOut i (c i)) t).capture j = if j ∈ l then c j else t.capture j) ∧
    ∀ j, (l.foldl (fun u i => u.setOut i (c i)) t).input j = t.input j := by
  induction l generalizing t with
  | nil => simp
  | cons i l ih =>
    refine ⟨fun j => ?_, fun j => (ih (t.setOut i (c i))).2 j⟩
    rw [List.foldl_cons, (ih _).1, Temporal.capture_setOut]
    by_cases hij : i = j <;> simp [hij, eq_comm]

/-- The inputs of some rows are set, and no capture word. -/
theorem Temporal.foldl_setInput (c : Nat → BitVec 10) (l : List Nat) (t : Temporal) :
    (∀ j, (l.foldl (fun u i => u.setInput i (c i)) t).input j = if j ∈ l then c j else t.input j) ∧
    ∀ j, (l.foldl (fun u i => u.setInput i (c i)) t).capture j = t.capture j := by
  induction l generalizing t with
  | nil => simp
  | cons i l ih =>
    refine ⟨fun j => ?_, fun j => (ih (t.setInput i (c i))).2 j⟩
    rw [List.foldl_cons, (ih _).1, Temporal.input_setInput]
    by_cases hij : i = j <;> simp [hij, eq_comm]

/-- R323: the code that a chained launch gives an input. -/
def chainCode : Option (Nat × Nat) → BitVec 10
  | some (v, _) => BitVec.ofNat 10 v
  | none => 1023

/-- R323: the capture words that a launch writes. -/
def Temporal.captured (t : Temporal) : Temporal := (List.range 32).foldl (fun u j => u.setOut j (captureWord (t.column j))) t

/-- R323: the inputs that a chained launch writes, in `u`. -/
def Temporal.chained (t u : Temporal) : Temporal := (List.range 32).foldl (fun u j => u.setInput j (chainCode (t.column j))) u

theorem Temporal.launch_eq (t : Temporal) (chain : Bool) : t.launch chain = if chain then t.chained t.captured else t.captured := by
  simp only [Temporal.launch, List.foldl_map]
  rfl

theorem Temporal.capture_captured (t : Temporal) {j : Nat} (hj : j < 32) : t.captured.capture j = captureWord (t.column j) := by
  rw [Temporal.captured, (Temporal.foldl_setOut _ _ t).1, if_pos (List.mem_range.2 hj)]

theorem Temporal.capture_launch (t : Temporal) (chain : Bool) {j : Nat} (hj : j < 32) :
    (t.launch chain).capture j = captureWord (t.column j) := by
  rw [Temporal.launch_eq]
  cases chain with
  | false => exact t.capture_captured hj
  | true => rw [if_pos rfl, Temporal.chained, (Temporal.foldl_setInput _ _ _).2, t.capture_captured hj]

theorem Temporal.input_launch_false (t : Temporal) (j : Nat) : (t.launch false).input j = t.input j := by
  rw [Temporal.launch_eq, if_neg (by simp), Temporal.captured, (Temporal.foldl_setOut _ _ t).2]

theorem Temporal.input_launch_true (t : Temporal) {j : Nat} (hj : j < 32) : (t.launch true).input j = chainCode (t.column j) := by
  rw [Temporal.launch_eq, if_pos rfl, Temporal.chained, (Temporal.foldl_setInput _ _ _).1, if_pos (List.mem_range.2 hj)]

/-- R324: a capture word holds the time and the row. -/
theorem captureWord_some {v k : Nat} (hv : v < 1024) (hk : k < 32) :
    (captureWord (some (v, k))).toNat % 1024 = v ∧ (captureWord (some (v, k))).toNat / 1024 = k := by
  rw [captureWord, BitVec.toNat_ofNat]
  omega

/-- Two changes of the array of a core that agree on it. -/
theorem State.modTemp_congr {s : State} {c : Nat} {f k : TempArray → TempArray} (h : f (s.core c).temp = k (s.core c).temp) :
    s.modTemp c f = s.modTemp c k := by
  rw [State.modTemp, State.modTemp, State.modCore, State.modCore, h]

/-! `tcap` (R330, R332) -/

/-- R324: the bytes of the capture words. -/
def Temporal.captureBytes (t : Temporal) (n : Nat) : List Byte := (List.range n).flatMap fun j => natToBytes 2 (t.capture j).toNat

theorem Temporal.length_captureBytes (t : Temporal) (n : Nat) : (t.captureBytes n).length = 2 * n := by
  rw [Temporal.captureBytes, List.length_flatMap]
  simp [List.map_const', Nat.mul_comm]

theorem Temporal.captureBytes_getD (t : Temporal) {n i : Nat} (hi : i < 2 * n) :
    ((t.captureBytes n).getD i 0).toNat = (t.capture (i / 2)).toNat / 256 ^ (i % 2) % 256 := by
  induction n with
  | zero => omega
  | succ n ih =>
    have hsplit : t.captureBytes (n + 1) = t.captureBytes n ++ natToBytes 2 (t.capture n).toNat := by
      simp [Temporal.captureBytes, List.range_succ]
    rw [hsplit]
    by_cases hlt : i < 2 * n
    · rw [List.getD_eq_getElem?_getD, List.getElem?_append_left (by rw [t.length_captureBytes]; exact hlt),
        ← List.getD_eq_getElem?_getD, ih hlt]
    · rw [List.getD_eq_getElem?_getD, List.getElem?_append_right (by rw [t.length_captureBytes]; omega), t.length_captureBytes]
      have hin : i = 2 * n ∨ i = 2 * n + 1 := by omega
      rcases hin with rfl | rfl
      · simp [natToBytes]
      · rw [show (2 * n + 1) / 2 = n by omega, show (2 * n + 1) % 2 = 1 by omega]
        simp [natToBytes]

/-- A write of one byte of whole memory. -/
theorem State.wr_one {s : State} (hs : s.Safe) (l : Nat) (b : Byte) :
    (∀ x, memRead (s.wr l [b]).mem x = if x = l then b else memRead s.mem x) ∧ (s.wr l [b]).Safe ∧
      ∀ x, x ∈ (s.wr l [b]).poison ↔ x ∈ s.poison ∧ x ≠ l := by
  refine ⟨fun x => ?_, State.wr_wf l [b] hs, fun x => ?_⟩
  · by_cases hx : x = l
    · subst hx
      rw [if_pos rfl]
      exact memRead_write_self x b hs
    · rw [if_neg hx]
      exact memRead_write_ne b hs hx
  · have other : x < l ∨ l + 1 ≤ x ↔ x ≠ l := by omega
    simp [State.wr, other]

/-- R332: `tcap` writes one byte of its capture words, marked poisoned while POIS is 1. -/
def State.tcapByte (s : State) (t : Temporal) (l n : Nat) : State :=
  let s1 := s.wr (l + n) [(t.captureBytes 32).getD n 0]
  if t.pois then { s1 with poison := insertNat (l + n) s1.poison } else s1

theorem State.tcapByte_spec {s : State} (hs : s.Safe) (t : Temporal) (l n : Nat) :
    (memRead (s.tcapByte t l n).mem (l + n) = (t.captureBytes 32).getD n 0 ∧ (l + n ∈ (s.tcapByte t l n).poison ↔ t.pois = true)) ∧
      (s.tcapByte t l n).Safe ∧ ∀ x, x ≠ l + n →
        memRead (s.tcapByte t l n).mem x = memRead s.mem x ∧ (x ∈ (s.tcapByte t l n).poison ↔ x ∈ s.poison) := by
  obtain ⟨mem, safe, poison⟩ := State.wr_one hs (l + n) ((t.captureBytes 32).getD n 0)
  cases hp : t.pois with
  | false =>
    simp only [State.tcapByte, hp, Bool.false_eq_true, if_false]
    exact ⟨⟨(mem _).trans (if_pos rfl), by rw [poison]; simp⟩, safe, fun x hx =>
      ⟨(mem x).trans (if_neg hx), by rw [poison]; simp [hx]⟩⟩
  | true =>
    simp only [State.tcapByte, hp, if_true, mem_insertNat]
    exact ⟨⟨(mem _).trans (if_pos rfl), by simp⟩, safe, fun x hx => ⟨(mem x).trans (if_neg hx), by rw [poison]; simp [hx]⟩⟩

theorem State.tcapBytes_eq (s : State) (t : Temporal) (l : Nat) (e : Bool) {ns : List Nat} (hns : ∀ n ∈ ns, n < 64) :
    s.tcapBytes t [⟨l, 64, e⟩] ns = ns.foldl (fun s n => s.tcapByte t l n) s := by
  rw [State.tcapBytes]
  refine List.foldl_rel (r := Eq) rfl fun n hn s _ same => same ▸ ?_
  have place : (segLocs [⟨l, 64, e⟩])[n]? = some (l + n) := by simp [segLocs, hns n hn]
  simp only [place]
  rfl

/-- R330, R332: `tcap` writes some bytes of 64 at a place of memory, and no other. -/
theorem State.foldl_tcapByte (t : Temporal) (l : Nat) (ns : List Nat) {s : State} (hs : s.Safe) :
    (∀ n ∈ ns, memRead (ns.foldl (fun s n => s.tcapByte t l n) s).mem (l + n) = (t.captureBytes 32).getD n 0 ∧
      (l + n ∈ (ns.foldl (fun s n => s.tcapByte t l n) s).poison ↔ t.pois = true)) ∧
    ∀ x, (∀ n ∈ ns, x ≠ l + n) → memRead (ns.foldl (fun s n => s.tcapByte t l n) s).mem x = memRead s.mem x ∧
      (x ∈ (ns.foldl (fun s n => s.tcapByte t l n) s).poison ↔ x ∈ s.poison) := by
  induction ns generalizing s with
  | nil => simp
  | cons n ns ih =>
    obtain ⟨here, safe, there⟩ := State.tcapByte_spec hs t l n
    obtain ⟨written, kept⟩ := ih safe
    refine ⟨fun k hk => ?_, fun x hx => ?_⟩
    · by_cases hmem : k ∈ ns
      · exact written k hmem
      · obtain rfl : k = n := (List.mem_cons.1 hk).resolve_right hmem
        obtain ⟨h1, h2⟩ := kept (l + k) fun m hm heq => hmem (Nat.add_left_cancel heq ▸ hm)
        exact ⟨h1.trans here.1, h2.trans here.2⟩
    · obtain ⟨h1, h2⟩ := kept x fun m hm => hx m (List.mem_cons_of_mem _ hm)
      obtain ⟨h3, h4⟩ := there x (hx n List.mem_cons_self)
      exact ⟨h1.trans h3, h2.trans h4⟩
/-- R332: a write of `tcap` changes no core. -/
theorem State.tcapBytes_cores (s : State) (t : Temporal) (segs : List Seg) (ns : List Nat) : (s.tcapBytes t segs ns).cores = s.cores := by
  refine foldl_keeps State.cores _ (fun u n => ?_) ns s
  split
  · rfl
  · dsimp only
    split <;> rfl

/-- R330, R332: `tcap` writes its 64 bytes at one place of memory, and no other byte. -/
theorem State.tcapWrite_spec {s : State} (hs : s.Safe) (t : Temporal) {q : TempCmd} (hq : q.units = []) (l : Nat) (e : Bool) :
    (∀ i < 64, (memRead (s.tcapWrite t q [⟨l, 64, e⟩]).mem (l + i)).toNat = (t.capture (i / 2)).toNat / 256 ^ (i % 2) % 256 ∧
      (l + i ∈ (s.tcapWrite t q [⟨l, 64, e⟩]).poison ↔ t.pois = true)) ∧
    ∀ x, x < l ∨ l + 64 ≤ x → memRead (s.tcapWrite t q [⟨l, 64, e⟩]).mem x = memRead s.mem x := by
  have whole : ((List.range 64).filter fun n => (Tbl.find? q.units n).isNone) = List.range 64 := by rw [hq]; rfl
  rw [State.tcapWrite, whole, State.tcapBytes_eq s t l e fun n hn => List.mem_range.1 hn]
  obtain ⟨written, kept⟩ := State.foldl_tcapByte t l (List.range 64) hs
  refine ⟨fun i hi => ?_, fun x hx => (kept x fun n hn => ?_).1⟩
  · obtain ⟨byte, poison⟩ := written i (List.mem_range.2 hi)
    exact ⟨by rw [byte, t.captureBytes_getD (by omega)], poison⟩
  · have := List.mem_range.1 hn
    omega

/-- R329: the time of the command at the head has passed, or not. -/
theorem TempArray.headOver_eq {a : TempArray} {c now t : Nat} {q : TempCmd} {rest : List TempCmd} (hq : a.queue = q :: rest)
    (ht : q.start = some t) : a.headOver c now = decide (t + a.lasts c q.op ≤ now) := by
  simp only [TempArray.headOver, hq, ht]

@[simp] theorem State.core_offer (s : State) (d : Nat) (r : TraceRec) (c : Nat) : (s.offer d r).core c = s.core c := by
  rw [State.offer]
  split
  · rfl
  · exact State.core_modDie ..

@[simp] theorem State.core_tickRecord (s : State) (c k : Nat) : (s.tickRecord c).core k = s.core k := State.core_offer ..

theorem State.temp_modTemp (s : State) (c : Nat) (f : TempArray → TempArray) : ((s.modTemp c f).core c).temp = f (s.core c).temp := by
  rw [State.modTemp, State.core_modCore_self]

section
variable {s : State} {c : Nat} {q : TempCmd} {rest : List TempCmd} (hq : (s.core c).temp.queue = q :: rest)
include hq

/-- The array of a core whose head command leaves with a state. -/
theorem State.modTemp_pop {f : TempArray → TempArray} {st : Temporal}
    (hf : f (s.core c).temp = { ((s.core c).temp.pop s.clk) with st := st }) :
    s.modTemp c f = s.modTemp c fun y => { y with queue := rest, idleSince := s.clk, st := st } := by
  refine State.modTemp_congr ?_
  rw [hf, TempArray.pop, hq]
  rfl

variable {t : Nat} (ht : q.start = some t) (hdue : t + (s.core c).temp.lasts c q.op ≤ s.clk)
include ht hdue

theorem State.headOver_due : (s.core c).temp.headOver c s.clk = true :=
  (TempArray.headOver_eq hq ht).trans (decide_eq_true hdue)

/-- R329, R332: a command whose time has passed completes with its effect on the state. -/
theorem State.tempComplete_apply (hop : ∀ chain, q.op ≠ .tlaunch chain) (hcap : ∀ segs, q.op ≠ .tcap segs)
    (hval : ∀ j, q.op ≠ .tval j) :
    s.tempComplete c = s.modTemp c fun y =>
      { y with queue := rest, idleSince := s.clk, st := (s.core c).temp.st.apply (s.loadWords c q) q.op } := by
  rw [← State.modTemp_pop hq (f := fun a => { (a.pop s.clk) with st := a.st.apply (s.loadWords c q) q.op }) rfl, State.tempComplete, hq]
  simp only [State.headOver_due hq ht hdue, Bool.not_true, Bool.false_eq_true, if_false]

/-- R265, R330: `tcap` waits for the atomics at its bytes. -/
theorem State.tempComplete_tcap {segs : List Seg} (hop : q.op = .tcap segs) : s.tempComplete c =
    if s.atomicFirst segs then s else (s.tcapWrite (s.core c).temp.st q segs).modTemp c fun a => a.pop s.clk := by
  rw [State.tempComplete, hq]
  simp only [State.headOver_due hq ht hdue, Bool.not_true, Bool.false_eq_true, if_false, hop]

/-- R332: `tval` answers with a capture word. -/
theorem State.tempComplete_tval {j : Nat} (hop : q.op = .tval j) : s.tempComplete c =
    (s.modTemp c fun y => { y with queue := rest, idleSince := s.clk }).finishPort c ⟨q.slot, q.idx, .trst, q.t0, q.t1⟩ 0
      (dword (((s.core c).temp.st.capture j).toNat / 1024)) (dword (((s.core c).temp.st.capture j).toNat % 1024)) := by
  have popped : (s.modTemp c fun a => a.pop s.clk) = s.modTemp c fun y => { y with queue := rest, idleSince := s.clk } :=
    State.modTemp_congr (by rw [TempArray.pop, hq]; rfl)
  rw [State.tempComplete, hq, ← popped]
  simp only [State.headOver_due hq ht hdue, Bool.not_true, Bool.false_eq_true, if_false, hop]

end

/-- R329: a command whose time has not passed goes on. -/
theorem State.tempComplete_early {s : State} {c t : Nat} {q : TempCmd} {rest : List TempCmd} (hq : (s.core c).temp.queue = q :: rest)
    (ht : q.start = some t) (hlt : s.clk < t + (s.core c).temp.lasts c q.op) : s.tempComplete c = s := by
  have early : (s.core c).temp.headOver c s.clk = false :=
    (TempArray.headOver_eq hq ht).trans (decide_eq_false (Nat.not_le.2 hlt))
  rw [State.tempComplete, hq]
  simp only [early, Bool.not_false, if_true]

/-- R326: TICK_REPLAN in an idle window sets tick and margin. -/
theorem State.tickReplan_spec {s : State} {c tick m : Nat} (hempty : (s.core c).temp.queue = []) (hon : (s.core c).temp.tick ≠ 3)
    (hle : (s.core c).temp.idleSince + 100000 ≤ s.clk) :
    ((s.tickReplan c tick m).core c).temp = { (s.core c).temp with tick := BitVec.ofNat 2 tick, margin := BitVec.ofNat 8 m } ∧
      (s.tickReplan c tick m).mem = s.mem := by
  have idle : ((s.core c).temp.queue.isEmpty && decide ((s.core c).temp.idleSince + 100000 ≤ s.clk) &&
      !(s.core c).temp.offline) = true := by
    rw [TempArray.offline, beq_eq_false_iff_ne.2 hon]
    simp [hempty, hle]
  simp only [State.tickReplan, idle, if_true]
  split
  · exact ⟨State.temp_modTemp .., rfl⟩
  · exact ⟨by rw [State.core_tickRecord, State.temp_modTemp], State.offer_mem ..⟩

/-! The end of an attempt (R325, R326) -/

section
variable {s : State} {c t : Nat} {q : TempCmd} {rest : List TempCmd} {chain : Bool} (hq : (s.core c).temp.queue = q :: rest)
  (ht : q.start = some t) (hop : q.op = .tlaunch chain) (hon : (s.core c).temp.tick ≠ 3)
include hq ht hop hon

theorem State.tlaunchEnd_early (m : Bool) (hlt : s.clk < t + (s.core c).temp.lasts c q.op) : s.tlaunchEnd c m = s := by
  have early : (s.core c).temp.headOver c s.clk = false :=
    (TempArray.headOver_eq hq ht).trans (decide_eq_false (Nat.not_le.2 hlt))
  rw [State.tlaunchEnd, hq]
  simp only [ht, hop, TempArray.offline, beq_eq_false_iff_ne.2 hon, early, Option.isNone_some, Bool.false_eq_true, if_false, Bool.not_false,
    if_true]

/-- R323: a launch that matches. -/
theorem State.tlaunchEnd_match (hdue : t + (s.core c).temp.lasts c q.op ≤ s.clk) : s.tlaunchEnd c false =
    s.modTemp c fun y => { y with queue := rest, idleSince := s.clk, st := (s.core c).temp.st.launch chain } := by
  rw [← State.modTemp_pop hq (f := fun a => { (a.pop s.clk) with st := a.st.launch chain }) rfl, State.tlaunchEnd, hq]
  simp only [ht, hop, TempArray.offline, beq_eq_false_iff_ne.2 hon, State.headOver_due hq ht hdue, Option.isNone_some, Bool.false_eq_true,
    if_false, Bool.not_true, Bool.not_false, if_true]

/-- R325, R326: a launch that does not match slows the tick, and starts again or is lost. -/
theorem State.tlaunchEnd_mismatch (hdue : t + (s.core c).temp.lasts c q.op ≤ s.clk) :
    ((s.tlaunchEnd c true).core c).temp.tick = (s.core c).temp.tick + 1 ∧
    ((s.tlaunchEnd c true).core c).temp.retry = (s.core c).temp.retry + 1 ∧
    ((s.core c).temp.tick ≠ 2 → ((s.tlaunchEnd c true).core c).temp.queue = { q with start := some s.clk } :: rest ∧
      ((s.tlaunchEnd c true).core c).temp.st = (s.core c).temp.st) ∧
    ((s.core c).temp.tick = 2 → ((s.tlaunchEnd c true).core c).temp.queue = rest ∧
      ((s.tlaunchEnd c true).core c).temp.st = { (s.core c).temp.st with lost := true }) := by
  rw [State.tlaunchEnd, hq]
  simp only [ht, hop, TempArray.offline, beq_eq_false_iff_ne.2 hon, State.headOver_due hq ht hdue, Option.isNone_some, Bool.false_eq_true,
    if_false, Bool.not_true, State.core_tickRecord, State.temp_modTemp, beq_iff_eq]
  have slowest : (s.core c).temp.tick + 1 = 3 ↔ (s.core c).temp.tick = 2 := by
    generalize (s.core c).temp.tick = k
    revert k
    decide
  by_cases hk : (s.core c).temp.tick = 2
  · rw [if_pos (slowest.2 hk), State.temp_modTemp, State.temp_modTemp]
    exact ⟨rfl, rfl, fun h => absurd hk h, fun _ => ⟨rfl, rfl⟩⟩
  · rw [if_neg fun h => hk (slowest.1 h), State.temp_modTemp]
    exact ⟨rfl, rfl, fun _ => ⟨rfl, rfl⟩, fun h => absurd h hk⟩

end

end Sys2Proof.Machine

open Sys2Proof Sys2Proof.Machine

/-- Settles O45: the columns by the order of their terms, the commands by the equations of the array. -/
theorem temporalEvents : Obligations.TemporalEvents := by
  unfold Obligations.TemporalEvents
  refine ⟨?_, fun t j => ⟨Temporal.column_first, Temporal.column_last, fun chain hj => ?_⟩⟩
  · intro s c m q rest a sets
    have start : s.args = [c] → exec .temporalCommandStart s = .next (s.tempStart c) := fun h => by
      simp only [exec, execTemporalCommandStart, State.arg, h, List.getD_cons_zero]
    have complete : s.args = [c] → exec .temporalCommandComplete s = .next (s.tempComplete c) := fun h => by
      simp only [exec, execTemporalCommandComplete, State.arg, h, List.getD_cons_zero]
    have attempt : ∀ x, s.args = [c, x] → exec .tlaunchAttemptEnd s = .next (s.tlaunchEnd c (x != 0)) := fun x h => by
      simp only [exec, execTlaunchAttemptEnd, State.arg, h, List.getD_cons_zero, List.getD_cons_succ]
    refine ⟨fun hq hargs hstart => (start hargs).trans (congrArg _ ?_), fun t hq hargs ht hlt =>
      (complete hargs).trans (congrArg _ (State.tempComplete_early hq ht hlt)), fun t hq hargs ht hdue => ?_, ?_, ?_, ?_⟩
    · rw [State.tempStart, hq]
      simp only [hstart, Option.isSome_none, Bool.false_eq_true, if_false]
    · have applies : ∀ st, (s.core c).temp.st.apply (s.loadWords c q) q.op = st → (∀ chain, q.op ≠ .tlaunch chain) →
          (∀ segs, q.op ≠ .tcap segs) → (∀ j, q.op ≠ .tval j) → sets .temporalCommandComplete st := fun st hst h1 h2 h3 =>
        (complete hargs).trans (congrArg _ (by rw [State.tempComplete_apply hq ht hdue h1 h2 h3, hst]))
      refine ⟨fun w mode hop => applies _ (by rw [hop]; rfl) (by simp [hop]) (by simp [hop]) (by simp [hop]),
        fun sel segs row n hop => applies _ (by rw [State.loadWords, hop]; rfl) (by simp [hop]) (by simp [hop]) (by simp [hop]),
        fun hop => applies _ (by rw [hop]; rfl) (by simp [hop]) (by simp [hop]) (by simp [hop]),
        fun k j code hop => applies _ (by rw [hop]; rfl) (by simp [hop]) (by simp [hop]) (by simp [hop]),
        fun k j code hop => applies _ (by rw [hop]; rfl) (by simp [hop]) (by simp [hop]) (by simp [hop]),
        fun segs hop => ⟨fun hfirst => (complete hargs).trans (congrArg _ ?_), fun hfirst => ⟨_, complete hargs, ?_, ?_⟩⟩,
        fun j hop => (complete hargs).trans (congrArg _ (State.tempComplete_tval hq ht hdue hop))⟩
      · rw [State.tempComplete_tcap hq ht hdue hop, if_pos hfirst]
      · rw [State.tempComplete_tcap hq ht hdue hop, if_neg (ne_true_of_eq_false hfirst), State.temp_modTemp, TempArray.pop, State.core,
          State.tcapWrite, State.tcapBytes_cores]
        exact congrArg (List.drop 1) hq
      · rintro l e rfl hunits hs
        rw [State.tempComplete_tcap hq ht hdue hop, if_neg (ne_true_of_eq_false hfirst)]
        exact State.tcapWrite_spec hs _ hunits l e
    · intro chain t hq ht hop hon ends
      have hends : t + (s.core c).temp.lasts c q.op = ends := by rw [hop]; rfl
      refine ⟨fun x hargs hlt => (attempt x hargs).trans (congrArg _ (State.tlaunchEnd_early hq ht hop hon _ (hends ▸ hlt))),
        fun hargs hle => (attempt 0 hargs).trans (congrArg _ (State.tlaunchEnd_match hq ht hop hon (hends ▸ hle))),
        fun hargs hle => ⟨_, attempt 1 hargs, State.tlaunchEnd_mismatch hq ht hop hon (hends ▸ hle)⟩⟩
    · intro tick hargs hempty hon
      have hexec : exec .tickReplan s = .next (s.tickReplan c tick m) := by
        simp only [exec, execTickReplan, State.arg, hargs, List.getD_cons_zero, List.getD_cons_succ]
      refine ⟨fun hlt => hexec.trans (congrArg _ ?_), fun hle => ⟨_, hexec, State.tickReplan_spec hempty hon hle⟩⟩
      have early : decide ((s.core c).temp.idleSince + 100000 ≤ s.clk) = false := decide_eq_false (Nat.not_le.2 hlt)
      simp only [State.tickReplan, early, Bool.and_false, Bool.false_and, Bool.false_eq_true, if_false]
    · intro hargs
      have hexec : exec .temporalArrayReset s = .next (s.tempReset c) := by
        simp only [exec, execTemporalArrayReset, State.arg, hargs, List.getD_cons_zero]
      refine ⟨fun hon => hexec.trans (congrArg _ ?_), fun hoff => ⟨_, hexec, ?_⟩⟩
      · rw [State.tempReset, TempArray.offline, beq_eq_false_iff_ne.2 hon, if_neg (by simp)]
      · rw [State.tempReset, TempArray.offline, beq_iff_eq.2 hoff, if_pos rfl, State.core_tickRecord, State.temp_modTemp]
  · refine ⟨fun hnone => ?_, fun v k hsome => ?_, t.input_launch_false j, ?_⟩
    · rw [t.capture_launch chain hj, hnone]
      rfl
    · obtain ⟨hv, hk⟩ := Temporal.column_bounds hsome
      rw [t.capture_launch chain hj, hsome]
      exact captureWord_some hv hk
    · rw [t.input_launch_true hj]
      cases hcol : t.column j with
      | none => rfl
      | some r => exact BitVec.toNat_ofNat .. |>.trans (Nat.mod_eq_of_lt (Temporal.column_bounds hcol).1)

end

section
/-! The checks of a block (R76): the first failure, in the order of the header, the words and the graph. -/

namespace Sys2Proof.Machine

/-- The first index of a list of instructions where a test holds. -/
theorem firstIdx_eq {p : Nat → Instr → Bool} {is : List Instr} {k : Nat} {i : Instr} (hi : is[k]? = some i) {n : Nat}
    (hp : p (n + k) i = true) (hfirst : ∀ j v, j < k → is[j]? = some v → p (n + j) v = false) : firstIdx p n is = some (n + k) := by
  induction is generalizing n k with
  | nil => simp at hi
  | cons v is ih =>
    rw [firstIdx]
    cases k with
    | zero =>
      obtain rfl : v = i := by simpa using hi
      exact if_pos hp
    | succ k =>
      have head : p n v = false := hfirst 0 v (Nat.succ_pos k) rfl
      rw [if_neg (ne_true_of_eq_false head), ih (by simpa using hi) (by rwa [show n + 1 + k = n + (k + 1) by omega])]
      · rw [show n + 1 + k = n + (k + 1) by omega]
      · intro j w hj hw
        have := hfirst (j + 1) w (by omega) (by simpa using hw)
        rwa [show n + (j + 1) = n + 1 + j by omega] at this

theorem firstIdx_none {p : Nat → Instr → Bool} {is : List Instr} {n : Nat} (h : ∀ k i, is[k]? = some i → p (n + k) i = false) :
    firstIdx p n is = none := by
  induction is generalizing n with
  | nil => rfl
  | cons v is ih =>
    have head : p n v = false := h 0 v rfl
    rw [firstIdx, if_neg (ne_true_of_eq_false head)]
    refine ih fun k i hi => ?_
    have := h (k + 1) i (by simpa using hi)
    rwa [show n + (k + 1) = n + 1 + k by omega] at this

theorem leastFrom_none {p : Nat → Bool} (fuel : Nat) :
    ∀ k, (∀ d, k ≤ d → d < k + fuel → p d = false) → leastFrom p fuel k = none := by
  induction fuel with
  | zero => exact fun k _ => rfl
  | succ fuel ih =>
    intro k h
    rw [leastFrom, if_neg (ne_true_of_eq_false (h k (Nat.le_refl k) (by omega)))]
    exact ih (k + 1) fun d hd hd' => h d (by omega) (by omega)

theorem leastBelow_none {p : Nat → Bool} {n : Nat} (h : ∀ d, d < n → p d = false) : leastBelow n p = none :=
  leastFrom_none n 0 fun d _ hd => h d (by omega)

/-! Words -/

/-- R76: does a target name an instruction beyond the `n` of its block? -/
def targetBeyond (n : Nat) : Target → Bool
  | .port _ k => decide (n ≤ k.toNat)
  | _ => false

theorem targetBeyond_iff {n : Nat} {t : Target} : targetBeyond n t = true ↔ ∃ p k, t = .port p k ∧ n ≤ k.toNat := by
  cases t with
  | none => simp [targetBeyond]
  | port p k =>
    simp only [targetBeyond, decide_eq_true_eq, Target.port.injEq]
    exact ⟨fun h => ⟨p, k, ⟨rfl, rfl⟩, h⟩, fun ⟨_, _, ⟨_, same⟩, h⟩ => same ▸ h⟩
  | live _ => simp [targetBeyond]
  | pairLive _ => simp [targetBeyond]

section
variable {ar id : Bool} {n m lead : Nat}

/-- R76: the first word that fails its check. -/
theorem checkWords_eq {ws : List Nat} {k w code : Nat} (hw : ws[k]? = some w) (hc : checkWord ar id n m w = some code)
    (hfirst : ∀ j v, j < k → ws[j]? = some v → checkWord ar id n m v = none) (from_ : Nat) :
    checkWords ar id n m lead from_ ws = some (code, lead + (from_ + k)) := by
  induction ws generalizing k from_ with
  | nil => simp at hw
  | cons v ws ih =>
    rw [checkWords]
    cases k with
    | zero =>
      obtain rfl : v = w := by simpa using hw
      simp only [hc, Nat.add_zero]
    | succ k =>
      simp only [hfirst 0 v (Nat.succ_pos k) rfl]
      rw [ih (by simpa using hw) (fun j u hj hu => hfirst (j + 1) u (by omega) (by simpa using hu)), show from_ + 1 + k = from_ + (k + 1) by
        omega]

theorem checkWords_none {ws : List Nat} (h : ∀ w ∈ ws, checkWord ar id n m w = none) (from_ : Nat) :
    checkWords ar id n m lead from_ ws = none := by
  induction ws generalizing from_ with
  | nil => rfl
  | cons v ws ih =>
    rw [checkWords]
    simp only [h v List.mem_cons_self]
    exact ih (fun w hw => h w (List.mem_cons_of_mem _ hw)) _

/-- R76: a literal beyond those of the block. -/
theorem checkWord_lit {w : Nat} (hop : fOp w = 3) (hm : m ≤ fMod w) : checkWord ar id n m w = some 6 := by
  rw [checkWord, if_pos ⟨hop, hm⟩]

theorem checkWord_litD {w : Nat} (hop : fOp w = 4) (hm : m ≤ fMod w + 1) : checkWord ar id n m w = some 6 := by
  rw [checkWord, if_neg (by omega), if_pos ⟨hop, hm⟩]

/-- R75: a word of the opcode 0xff has no meaning. -/
theorem checkWord_unassigned {w : Nat} (hop : fOp w = 0xff) : checkWord ar id n m w = some 3 := by
  rw [checkWord, if_neg (by omega), if_neg (by omega), decodeNat, hop]
  rfl

section
variable {w : Nat} {i : Instr} (h3 : fOp w ≠ 3) (h4 : fOp w ≠ 4) (hd : decodeNat w = .ok i)
include h3 h4 hd

/-- R76: a target beyond the block, before what its mode forbids. -/
theorem checkWord_decoded : checkWord ar id n m w =
    if targetBeyond n (targetsOf i).1 || targetBeyond n (targetsOf i).2 then some 9
    else if opForbidden ar id (fOp w) then some 10 else none := by
  have far : ∀ t : Target, (match targetIdx? t with | some k => decide (n ≤ k) | none => false) = targetBeyond n t := fun t => by
    cases t <;> rfl
  rw [checkWord, if_neg (fun h => h3 h.1), if_neg (fun h => h4 h.1)]
  simp only [hd, ← far] <;> rfl

end

end

/-! The graph -/

/-- R76: the header's own check. -/
theorem headerOk_eq_false {h : Nat} :
    headerOk h = false ↔ h % 16 ≠ 0 ∨ (hdrGW h ≠ 0 ∧ hdrGO h = false) ∨ (hdrID h = true ∧ hdrAR h = true) := by
  rw [headerOk, Bool.and_eq_false_iff, Bool.and_eq_false_iff, or_assoc]
  simp

theorem checkBlock_header {h : Nat} (rest : List Nat) (hb : headerOk h = false) : checkBlock h rest = some (1, 0) := by
  rw [checkBlock, hb]
  rfl

section
variable {h : Nat} {rest : List Nat} (hok : headerOk h = true)
include hok

/-- R76: the first word that fails is the block's failure. -/
theorem checkBlock_word {k w code : Nat} (hw : ((rest.drop (hdrLead h - 1)).take (hdrN h))[k]? = some w)
    (hc : checkWord (hdrAR h) (hdrID h) (hdrN h) (hdrM h) w = some code)
    (hfirst : ∀ j v, j < k → ((rest.drop (hdrLead h - 1)).take (hdrN h))[j]? = some v →
      checkWord (hdrAR h) (hdrID h) (hdrN h) (hdrM h) v = none) : checkBlock h rest = some (code, hdrLead h + k) := by
  have words := checkWords_eq (lead := hdrLead h) hw hc hfirst 0
  simp only [checkBlock, hok, Bool.not_true, Bool.false_eq_true, if_false, words, Nat.zero_add]

/-- R76: a block whose words pass is judged by its graph. -/
theorem checkBlock_graph
    (hws : ∀ w ∈ (rest.drop (hdrLead h - 1)).take (hdrN h), checkWord (hdrAR h) (hdrID h) (hdrN h) (hdrM h) w = none) :
    checkBlock h rest = checkGraph (hdrLead h) (((rest.drop (hdrLead h - 1)).take (hdrN h)).map fOp)
      (decodeAll ((rest.drop (hdrLead h - 1)).take (hdrN h))) := by
  have words := checkWords_none (lead := hdrLead h) hws 0
  simp only [checkBlock, hok, Bool.not_true, Bool.false_eq_true, if_false, words]

end

section
variable {lead : Nat} {ops : List Nat} {is : List Instr}

/-- R76: a port that does not fit comes first. -/
theorem checkGraph_badPort {k : Nat} {i : Instr} (hi : is[k]? = some i) (hp : badPort is i = true)
    (hfirst : ∀ j v, j < k → is[j]? = some v → badPort is v = false) : checkGraph lead ops is = some (11, lead + k) := by
  have first := firstIdx_eq (p := fun _ i => badPort is i) hi (n := 0) hp hfirst
  simp only [checkGraph, first, Nat.zero_add]

variable (hports : ∀ i ∈ is, badPort is i = false) (hrepeat : firstRepeat portKeys [] 0 is = none)
include hports hrepeat

/-- R76: a port that nothing feeds. -/
theorem checkGraph_missing {k : Nat} {i : Instr} (hi : is[k]? = some i) (hp : missingPort (is.map portKeys).flatten k i = true)
    (hfirst : ∀ j v, j < k → is[j]? = some v → missingPort (is.map portKeys).flatten j v = false) :
    checkGraph lead ops is = some (13, lead + k) := by
  have first := firstIdx_eq (p := missingPort (is.map portKeys).flatten) hi (n := 0) (by rwa [Nat.zero_add]) (by simpa using hfirst)
  have none_bad : firstIdx (fun _ i => badPort is i) 0 is = none := firstIdx_none fun k i hi => hports i (List.mem_of_getElem? hi)
  simp only [checkGraph, none_bad, hrepeat, first, Nat.zero_add]

variable (hfed : ∀ k i, is[k]? = some i → missingPort (is.map portKeys).flatten k i = false)
include hfed

/-- R76: a cycle. -/
theorem checkGraph_cycle {k : Nat} (hc : cycleIdx ops is = some k) : checkGraph lead ops is = some (14, lead + k) := by
  have none_bad : firstIdx (fun _ i => badPort is i) 0 is = none := firstIdx_none fun k i hi => hports i (List.mem_of_getElem? hi)
  have none_missing : firstIdx (missingPort (is.map portKeys).flatten) 0 is = none := firstIdx_none (by simpa using hfed)
  simp only [checkGraph, none_bad, hrepeat, none_missing, hc]

/-- R76: the terminator is the last failure that is looked for. -/
theorem checkGraph_term (hc : cycleIdx ops is = none) (hl : liveRepeat [] 0 is = none) :
    checkGraph lead ops is = (termFail ops).map fun k => (16, lead + k) := by
  have none_bad : firstIdx (fun _ i => badPort is i) 0 is = none := firstIdx_none fun k i hi => hports i (List.mem_of_getElem? hi)
  have none_missing : firstIdx (missingPort (is.map portKeys).flatten) 0 is = none := firstIdx_none (by simpa using hfed)
  simp only [checkGraph, none_bad, hrepeat, none_missing, hc, hl]

end

/-- R76: a terminator before the last word. -/
theorem termFail_early {ops : List Nat} {k : Nat} (hk : k + 1 < ops.length) (ht : opIsTerminator (ops.getD k 0) = true)
    (hfirst : ∀ j, j < k → opIsTerminator (ops.getD j 0) = false) : termFail ops = some k := by
  have least : leastBelow (ops.length - 1) (fun k => opIsTerminator (ops.getD k 0)) = some k :=
    leastBelow_eq (by omega) ht hfirst
  simp only [termFail, least]

/-- R76: none before the last word. -/
theorem termFail_last {ops : List Nat} (h : ∀ k, k + 1 < ops.length → opIsTerminator (ops.getD k 0) = false) :
    termFail ops = if opIsTerminator (ops.getD (ops.length - 1) 0) then none else some (ops.length - 1) := by
  have least : leastBelow (ops.length - 1) (fun k => opIsTerminator (ops.getD k 0)) = none :=
    leastBelow_none fun k hk => h k (by omega)
  simp only [termFail, least]

end Sys2Proof.Machine
end

section
/-! The fetch of a block, and the rejection of one: every thread of its bin takes the fault (R78). -/

namespace Sys2Proof.Machine

/-! What a fetch leaves -/

/-- R212, R217: a fetch for a core changes memory's caches and TLBs only. -/
theorem State.fetched_accessOnly (s : State) (c : Nat) (f : Fetch) : AccessOnly s (s.fetched c f) := by
  unfold State.fetched
  refine (s.walked_accessOnly _ f.addr.toNat _).trans (AccessOnly.trans (.foldl _ (fun t l => .of_cacheOnly ?_) _ _)
    (.of_cacheOnly (State.cacheLines_cacheOnly ..)))
  split
  · split
    · exact .refl t
    · exact (t.touchOther_cacheOnly l).trans (State.dirGrant_cacheOnly ..)
  · exact State.takeLine_cacheOnly ..

section
variable {s t : State} (h : AccessOnly s t)
include h

theorem AccessOnly.bins (c : Nat) : (t.core c).bins = (s.core c).bins := (congrArg Core.bins (h.core c) :)
theorem AccessOnly.fifo (c : Nat) : (t.core c).fifo = (s.core c).fifo := (congrArg Core.fifo (h.core c) :)
theorem AccessOnly.fetch (c : Nat) : (t.core c).fetch = (s.core c).fetch := (congrArg Core.fetch (h.core c) :)

end

/-! The fetches and the FIFOs -/

/-- No fetch of a core changes, and its FIFO takes no thread. -/
structure KeepsFetch (s w : State) : Prop where
  fetch : ∀ c, (w.core c).fetch = (s.core c).fetch
  fifo : ∀ c, ∀ e ∈ (w.core c).fifo, e ∈ (s.core c).fifo

namespace KeepsFetch

variable {s t u : State}

theorem refl (s : State) : KeepsFetch s s := ⟨fun _ => rfl, fun _ _ h => h⟩

theorem trans (h : KeepsFetch s t) (h' : KeepsFetch t u) : KeepsFetch s u :=
  ⟨fun c => (h'.fetch c).trans (h.fetch c), fun c e he => h.fifo c e (h'.fifo c e he)⟩

theorem foldl {β : Type} (f : State → β → State) (h : ∀ s b, KeepsFetch s (f s b)) (l : List β) (s : State) :
    KeepsFetch s (l.foldl f s) :=
  foldl_invariant (KeepsFetch s) f l (fun a b _ ha => ha.trans (h a b)) (refl s)

theorem of_cores (h : ∀ c, t.core c = s.core c) : KeepsFetch s t := ⟨fun c => by rw [h], fun c e he => by rwa [h] at he⟩

theorem modCore (s : State) (c : Nat) {f : Core → Core} (hf : ∀ x, (f x).fetch = x.fetch ∧ ∀ e ∈ (f x).fifo, e ∈ x.fifo) :
    KeepsFetch s (s.modCore c f) := by
  refine ⟨fun c' => ?_, fun c' e he => ?_⟩
  all_goals by_cases hc : c' = c
  · rw [hc, State.core_modCore_self, (hf _).1]
  · rw [State.core_modCore_ne _ _ hc]
  · subst hc
    rw [State.core_modCore_self] at he
    exact (hf _).2 e he
  · rwa [State.core_modCore_ne _ _ hc] at he

theorem modThread (s : State) (c sl : Nat) (f : Thread → Thread) : KeepsFetch s (s.modThread c sl f) :=
  .modCore s c (f := fun x => x.modThread sl f) fun _ => ⟨rfl, fun _ he => he⟩

theorem modGrid (s : State) (g : Nat) (f : Grid → Grid) : KeepsFetch s (s.modGrid g f) := .of_cores fun _ => State.core_modGrid ..

theorem modDie (s : State) (d : Nat) (f : Die → Die) : KeepsFetch s (s.modDie d f) := .of_cores fun _ => State.core_modDie ..

end KeepsFetch

/-! Trapping -/

theorem Core.foldl_place (f : Nat → Thread → Thread) (l : List Nat) (y : Core) :
    (l.foldl (fun z n => z.modThread n (f n)) y).fetch = y.fetch ∧ (l.foldl (fun z n => z.modThread n (f n)) y).fifo = y.fifo ∧
      (l.foldl (fun z n => z.modThread n (f n)) y).contexts = y.contexts ∧
      ∀ m, m ∉ l → (l.foldl (fun z n => z.modThread n (f n)) y).thread m = y.thread m := by
  induction l generalizing y with
  | nil => exact ⟨rfl, rfl, rfl, fun _ _ => rfl⟩
  | cons n l ih =>
    obtain ⟨fetch, fifo, contexts, threads⟩ := ih (y.modThread n (f n))
    refine ⟨fetch, fifo, contexts, fun m hm => ?_⟩
    rw [List.foldl_cons, threads m fun h => hm (List.mem_cons_of_mem _ h)]
    exact Core.thread_modThread_ne _ _ fun h => hm (h ▸ List.mem_cons_self)

/-- R110: a bin that is released is given to threads of the FIFO, and to no others. -/
theorem Core.releaseBin_others (x : Core) (b : Nat) : (x.releaseBin b).fetch = x.fetch ∧ (∀ e ∈ (x.releaseBin b).fifo, e ∈ x.fifo) ∧
    (x.releaseBin b).contexts = x.contexts ∧ ∀ m, (∀ e ∈ x.fifo, e.1 ≠ m) → (x.releaseBin b).thread m = x.thread m := by
  unfold Core.releaseBin
  split
  · next h => exact ⟨rfl, fun _ he => he, rfl, fun _ _ => rfl⟩
  · dsimp only
    obtain ⟨fetch, fifo, contexts, threads⟩ := Core.foldl_place (fun _ t => { t with place := .binned b })
      ((x.fifo.filter fun e => e.2.1 == _ && e.2.2 == _).map (·.1)) _
    refine ⟨fetch, fun e he => ?_, contexts, fun m hm => (threads m fun h => ?_).trans rfl⟩
    · rw [fifo] at he
      exact (List.mem_filter.1 he).1
    · obtain ⟨e, he, rfl⟩ := List.mem_map.1 h
      exact hm e ((List.mem_filter.1 he).1) rfl

/-- R110: a thread that leaves its bin or the FIFO moves threads of the FIFO, and no others. -/
theorem Core.unfile_others (x : Core) (sl : Nat) : (x.unfile sl).fetch = x.fetch ∧ (∀ e ∈ (x.unfile sl).fifo, e ∈ x.fifo) ∧
    ∀ m, (∀ e ∈ x.fifo, e.1 ≠ m) → (x.unfile sl).thread m = x.thread m := by
  unfold Core.unfile
  split
  · dsimp only
    split
    · obtain ⟨fetch, fifo, -, threads⟩ := Core.releaseBin_others (x.modBin _ fun z => { z with vec := z.vec.filter (· != sl) }) _
      exact ⟨fetch, fifo, threads⟩
    · exact ⟨rfl, fun _ he => he, fun _ _ => rfl⟩
  · exact ⟨rfl, fun e he => (List.mem_filter.1 he).1, fun _ _ => rfl⟩
  · exact ⟨rfl, fun _ he => he, fun _ _ => rfl⟩

theorem State.unfile_keepsFetch (s : State) (c sl : Nat) : KeepsFetch s (s.modCore c fun x => x.unfile sl) :=
  .modCore s c fun x => ⟨(x.unfile_others sl).1, (x.unfile_others sl).2.1⟩

theorem Core.queueWrites_fetch (l : List Nat) (x : Core) (sl : Nat) :
    (x.queueWrites sl l).fetch = x.fetch ∧ (x.queueWrites sl l).fifo = x.fifo := by
  induction l generalizing x with
  | nil => exact ⟨rfl, rfl⟩
  | cons a l ih => exact ih (x.queueWrite sl a)

theorem Core.modRegion_fetch (x : Core) (k : Nat) (f : Region → Region) :
    (x.modRegion k f).fetch = x.fetch ∧ (x.modRegion k f).fifo = x.fifo := by
  unfold Core.modRegion
  split <;> exact ⟨rfl, rfl⟩

theorem State.rollback_keepsFetch (s : State) (c sl cause : Nat) : KeepsFetch s (s.rollback c sl cause) := by
  unfold State.rollback
  split
  · exact .refl s
  · split
    · exact .refl s
    · have unlocked (l : List (Nat × Nat × Nat)) : KeepsFetch s { s with locks := l } := .of_cores fun _ => rfl
      refine (unlocked _).trans ((KeepsFetch.modThread _ c sl _).trans (.modCore _ c fun x => ?_))
      obtain ⟨fetch, fifo⟩ := Core.queueWrites_fetch (List.range 64) x sl
      obtain ⟨fetch', fifo'⟩ := Core.modRegion_fetch (x.queueWrites sl (List.range 64)) _ _
      exact ⟨fetch'.trans fetch, fun e he => by rwa [fifo', fifo] at he⟩

theorem State.freeRegion_keepsFetch (s : State) (c sl : Nat) : KeepsFetch s (s.freeRegion c sl) := by
  have ends (s : State) : KeepsFetch s (s.endYield c sl) := by
    constructor <;> intro k
    all_goals
      simp only [State.endYield, State.core, Tbl.get, Tbl.find?_mapVals]
      cases Tbl.find? s.cores k
    · rfl
    · rfl
    · exact fun _ he => he
    · exact fun _ he => he
  unfold State.freeRegion
  split
  · exact .refl s
  · refine KeepsFetch.trans (t := (State.modThread _ c sl _).releaseToken c sl) ?_ (ends _)
    exact .trans (.modCore s c (f := fun x => { x with regions := Tbl.erase x.regions _ }) fun _ => ⟨rfl, fun _ he => he⟩)
      (.trans (.modThread _ c sl _) (.modDie _ _ _))

theorem State.trapThread_keepsFetch (s : State) (c sl : Nat) (tr : Trap) : KeepsFetch s (s.trapThread c sl tr) := by
  have unfiled := s.unfile_keepsFetch c sl
  unfold State.trapThread
  dsimp only
  split
  · refine KeepsFetch.trans ?_ (.modThread _ c sl _)
    refine KeepsFetch.trans ?_ (State.freeRegion_keepsFetch _ c sl)
    split
    · exact unfiled.trans (State.rollback_keepsFetch ..)
    · exact unfiled
  · exact unfiled.trans (.modThread _ c sl _)

theorem State.trapWaiter_keepsFetch (s : State) (c sl : Nat) (p : Place) (cause : Cause) (detail : DWord) :
    KeepsFetch s (s.trapWaiter c sl p cause detail) := by
  unfold State.trapWaiter
  dsimp only
  split
  · split
    · exact State.trapThread_keepsFetch ..
    · exact .modThread ..
  · exact State.trapThread_keepsFetch ..

theorem State.breakRope_keepsFetch (s : State) (gn rope : Nat) : KeepsFetch s (s.breakRope gn rope) := by
  unfold State.breakRope
  dsimp only
  refine KeepsFetch.trans ?_ (.modGrid _ gn _)
  refine KeepsFetch.trans (.modGrid s gn _) (.foldl _ (fun s m => ?_) _ _)
  exact .foldl _ (fun s n => s.trapWaiter_keepsFetch _ _ _ _ _) _ s

theorem State.takeTrap_keepsFetch (s : State) (c sl : Nat) (tr : Trap) : KeepsFetch s (s.takeTrap c sl tr) := by
  refine KeepsFetch.trans (s.trapThread_keepsFetch c sl tr) ?_
  unfold State.takeTrap State.ropeAfterFault
  dsimp only
  split
  · exact State.breakRope_keepsFetch ..
  · exact .refl _

/-! The threads of a bin that is rejected -/

/-- R404: the trap of a thread of no region and of no save. -/
theorem State.takeTrap_self {s : State} {c sl : Nat} (hr : (s.thread c sl).region = none) (hs : (s.thread c sl).save = none) (tr : Trap) :
    (s.takeTrap c sl tr).thread c sl = (s.thread c sl).takeRecord tr := by
  have trapped := State.trapThread_of_none hr tr
  have idle : ((s.trapThread c sl tr).thread c sl).waitsAt .rope = false := by
    rw [trapped]
    simp only [Thread.waitsAt, Thread.takeRecord, hs]
    rfl
  rw [State.takeTrap, (State.ropeAfterFault_keeps c sl idle).1, trapped]

/-- R404: the trap of a thread of no region leaves the others that wait neither in the FIFO nor at their rope. -/
theorem State.takeTrap_other {s : State} {c sl m : Nat} (hr : (s.thread c sl).region = none) (hm : m ≠ sl)
    (hfifo : ∀ e ∈ (s.core c).fifo, e.1 ≠ m) (hrope : (s.thread c m).waitsAt .rope = false) (tr : Trap) :
    (s.takeTrap c sl tr).thread c m = s.thread c m := by
  have trapped : (s.trapThread c sl tr).thread c m = s.thread c m := by
    unfold State.trapThread
    simp only [hr]
    rw [State.thread_modThread_ne _ _ hm, State.thread, State.core_modCore_self]
    exact ((s.core c).unfile_others sl).2.2 m hfifo
  rw [State.takeTrap, (State.ropeAfterFault_keeps c sl (by rwa [trapped])).1, trapped]

/-- R78: the trap of a thread whose block is rejected. -/
def Thread.rejected (t : Thread) (cause : Cause) (va : Nat) (detail : DWord) (addr next : VAddr) : Trap :=
  ⟨cause, t.priv, addr, next, false, false, BitVec.ofNat 64 va, detail, addr, ⟨.none, addr, t.waitIdx, t.hdoneArg⟩, false⟩

section
variable (c : Nat) (cause : Cause) (va : Nat) (detail : DWord) (addr next : VAddr)

/-- R78: a thread of a rejected block takes its fault. -/
def State.rejectThread (s : State) (sl : Nat) : State :=
  s.takeTrap c sl (s.trapOf c sl cause addr next false false (BitVec.ofNat 64 va) detail .none)

/-- R78: what a thread that stood as `t` is once its block is rejected. -/
def Thread.faulted (t : Thread) : Thread := t.takeRecord (t.rejected cause va detail addr next)

/-- R78: a thread takes the fault of its block once. -/
theorem State.rejectThread_self {s : State} {sl : Nat} {t : Thread} (hr : t.region = none) (hs : t.save = none)
    (ht : s.thread c sl = t ∨ s.thread c sl = t.faulted cause va detail addr next) :
    (s.rejectThread c cause va detail addr next sl).thread c sl = t.faulted cause va detail addr next := by
  rcases ht with ht | ht
  · rw [State.rejectThread, State.takeTrap_self (ht ▸ hr) (ht ▸ hs), State.trapOf, ht]
    rfl
  · rw [State.rejectThread, State.takeTrap_self (ht ▸ hr) (ht ▸ hs), State.trapOf, ht]
    cases hp : t.priv <;> simp only [Thread.faulted, Thread.takeRecord, Thread.rejected, hp] <;> rfl

/-- R78: every thread of a list takes the fault; one of the bin that is not in the list stands as it stood. -/
theorem State.foldl_rejectThread {vec : List Nat} {orig : Nat → Thread}
    (ho : ∀ sl ∈ vec, (orig sl).region = none ∧ (orig sl).save = none ∧ (orig sl).waitsAt .rope = false) (l : List Nat)
    (hl : ∀ sl ∈ l, sl ∈ vec) {u : State} (hfifo : ∀ e ∈ (u.core c).fifo, e.1 ∉ vec)
    (hu : ∀ sl ∈ vec, u.thread c sl = orig sl ∨ u.thread c sl = (orig sl).faulted cause va detail addr next) {m : Nat} (hm : m ∈ vec)
    (hdone : m ∈ l ∨ u.thread c m = (orig m).faulted cause va detail addr next) :
    (l.foldl (State.rejectThread c cause va detail addr next) u).thread c m = (orig m).faulted cause va detail addr next := by
  induction l generalizing u with
  | nil => exact hdone.resolve_left List.not_mem_nil
  | cons sl l ih =>
    obtain ⟨hr, hs, -⟩ := ho sl (hl sl List.mem_cons_self)
    have here := State.rejectThread_self c cause va detail addr next hr hs (hu sl (hl sl List.mem_cons_self))
    have others : ∀ k ∈ vec, k ≠ sl → (u.rejectThread c cause va detail addr next sl).thread c k = u.thread c k := fun k hk hne => by
      refine State.takeTrap_other ?_ hne (fun e he heq => hfifo e he (heq ▸ hk)) ?_ _
      · rcases hu sl (hl sl List.mem_cons_self) with h | h <;> rw [h] <;> exact hr
      · obtain ⟨-, hsave, hrope⟩ := ho k hk
        rcases hu k hk with h | h <;> rw [h]
        · exact hrope
        · simp only [Thread.waitsAt, Thread.faulted, Thread.takeRecord, hsave]
          rfl
    refine ih (fun k hk => hl k (List.mem_cons_of_mem _ hk)) (fun e he => hfifo e ((State.takeTrap_keepsFetch ..).fifo c e he))
      (fun k hk => ?_) ?_
    · by_cases hne : k = sl
      · exact .inr (hne ▸ here)
      · rw [others k hk hne]
        exact hu k hk
    · by_cases hne : m = sl
      · exact .inr (hne ▸ here)
      · rw [others m hm hne]
        exact hdone.imp_left fun h => (List.mem_cons.1 h).resolve_left hne

end

/-- R78: the context of a rejected block is free, and its bin goes where nothing is left in it. -/
def Core.freeRejected (x : Core) (k b : Nat) : Core :=
  let z := (x.modContext k fun _ => Context.reset).modBin b fun w => { w with ctx := none }
  if (z.bin b).vec.isEmpty then z.releaseBin b else z

theorem Core.freeRejected_spec (x : Core) (k b : Nat) : (x.freeRejected k b).fetch = x.fetch ∧
    (x.freeRejected k b).context k = Context.reset ∧ ∀ m, (∀ e ∈ x.fifo, e.1 ≠ m) → (x.freeRejected k b).thread m = x.thread m := by
  unfold Core.freeRejected
  dsimp only
  split
  · obtain ⟨fetch, -, contexts, threads⟩ :=
      Core.releaseBin_others ((x.modContext k fun _ => Context.reset).modBin b fun w => { w with ctx := none }) b
    exact ⟨fetch, by rw [Core.context, contexts]; exact Tbl.get_set_self .., threads⟩
  · exact ⟨rfl, Tbl.get_set_self .., fun _ _ => rfl⟩

theorem State.rejectBlock_eq (s : State) (c k b : Nat) (cause : Cause) (va : Nat) (detail : DWord) (addr next : VAddr) :
    s.rejectBlock c k b cause va detail addr next =
      (((s.core c).bin b).vec.foldl (State.rejectThread c cause va detail addr next) s).modCore c fun x => x.freeRejected k b := rfl

/-- R78: the rejection of a block: the threads of its bin fault, and its context is free. -/
theorem State.rejectBlock_spec {s : State} {c k b : Nat} {cause : Cause} {va : Nat} {detail : DWord} {addr next : VAddr}
    (ho : ∀ sl ∈ ((s.core c).bin b).vec, (s.thread c sl).region = none ∧ (s.thread c sl).place = .binned b ∧ (s.thread c sl).save = none)
    (hfifo : ∀ e ∈ (s.core c).fifo, e.1 ∉ ((s.core c).bin b).vec) :
    let w := s.rejectBlock c k b cause va detail addr next
    (w.core c).fetch = (s.core c).fetch ∧ ((w.core c).context k).state = .free ∧ w.mem = s.mem ∧
      ∀ sl ∈ ((s.core c).bin b).vec, w.thread c sl = (s.thread c sl).faulted cause va detail addr next := by
  have quiet : ∀ sl ∈ ((s.core c).bin b).vec, (s.thread c sl).region = none ∧ (s.thread c sl).save = none ∧
      (s.thread c sl).waitsAt .rope = false := fun sl hsl => by
    obtain ⟨hr, hp, hs⟩ := ho sl hsl
    refine ⟨hr, hs, ?_⟩
    simp only [Thread.waitsAt, hp, hs]
    rfl
  have kept : KeepsFetch s (((s.core c).bin b).vec.foldl (State.rejectThread c cause va detail addr next) s) :=
    .foldl _ (fun u sl => u.takeTrap_keepsFetch c sl _) _ s
  have faulted := fun m hm => State.foldl_rejectThread c cause va detail addr next quiet ((s.core c).bin b).vec (fun _ h => h) hfifo
    (fun sl _ => .inl rfl) (m := m) hm (.inl hm)
  dsimp only
  refine ⟨?_, ?_, State.rejectBlock_mem .., fun sl hsl => ?_⟩ <;> rw [State.rejectBlock_eq]
  · rw [State.core_modCore_self, (Core.freeRejected_spec _ k b).1, kept.fetch]
  · rw [State.core_modCore_self, (Core.freeRejected_spec _ k b).2.1]
    rfl
  · rw [State.thread, State.core_modCore_self, (Core.freeRejected_spec _ k b).2.2 sl fun e he heq => hfifo e (kept.fifo c e he) (heq ▸ hsl)]
    exact faulted sl hsl

end Sys2Proof.Machine
end

section
/-! Contexts (O40): configured, opened or rejected, quiescent, closed and freed. -/

namespace Sys2Proof.Machine

/-! Configuration (R105, R106) -/

/-- R106, R107: a context opens, with the candidates of its bin. -/
def State.openContext (s : State) (c k : Nat) (x : Context) : State :=
  let s2 := s.modCore c fun y => y.modContext k fun _ => x
  s2.modCore c fun y => y.modContext k fun w => { w with candidates := s2.candidatesOf c k }

theorem State.openContext_spec (s : State) (c k : Nat) (x : Context) :
    (∃ l, ((s.openContext c k x).core c).context k = { x with candidates := l }) ∧
    ((s.openContext c k x).core c).fetch = (s.core c).fetch ∧ (s.openContext c k x).mem = s.mem := by
  unfold State.openContext
  dsimp only
  generalize (s.modCore c fun y => y.modContext k fun _ => x).candidatesOf c k = l
  refine ⟨⟨l, ?_⟩, ?_, rfl⟩
  · rw [State.core_modCore_self, State.core_modCore_self, Core.context, Core.modContext, Tbl.get_set_self, Core.context, Core.modContext,
      Tbl.get_set_self]
  · rw [State.core_modCore_self, State.core_modCore_self]
    rfl

section
variable {s : State} {c : Nat} {f : Fetch} {b : Nat} (hf : (s.core c).fetch = some f) (hb : ((s.core c).context f.ctx).bin = some b)
include hf hb

theorem State.completeConfig_waits (h : s.clk < f.due ∨ s.lineHeld (s.fetchWords c f.need f).places c none = true) :
    s.completeConfig c = s := by
  by_cases hlt : s.clk < f.due
  · simp only [State.completeConfig, hf, hlt, if_true]
  · simp only [State.completeConfig, hf, hlt, hb, h.resolve_left hlt, if_true, if_false]

variable (hdue : f.due ≤ s.clk) (hfree : s.lineHeld (s.fetchWords c f.need f).places c none = false)
include hdue hfree

/-- R76, R78: a block that is rejected. -/
theorem State.completeConfig_reject {cause : Cause} {va : Nat} {detail : DWord} {next : VAddr}
    (hres : (s.fetchWords c f.need f).result = .reject cause va detail next) :
    s.completeConfig c = ((s.modCore c fun y => { y with fetch := none }).fetched c (s.fetchWords c f.need f)).rejectBlock c f.ctx b cause va
      detail f.addr next := by
  simp only [State.completeConfig, hf, Nat.not_lt.2 hdue, hb, hfree, hres, Bool.false_eq_true, if_false]

/-- R106: a block that passes its checks opens its context. -/
theorem State.completeConfig_block {blk : Block} {user : Bool} (hres : (s.fetchWords c f.need f).result = .block blk user) :
    s.completeConfig c = ((s.modCore c fun y => { y with fetch := none }).fetched c (s.fetchWords c f.need f)).openContext c f.ctx
      { Context.reset with state := .opened, block := blk, asp := f.asp, userOk := user, bin := some b, openAt := s.clk,
                           lastAdmit := s.clk } := by
  simp only [State.completeConfig, hf, Nat.not_lt.2 hdue, hb, hfree, hres, Bool.false_eq_true, if_false]
  rfl

end

/-! Folds that reach a goal -/

/-- A fold whose steps keep `q`, of which one reaches `p` and every one keeps it. -/
theorem foldl_reaches {α β : Type} (p q : α → Prop) (f : α → β → α) {l : List β} {b : β} (hb : b ∈ l) (hq : ∀ a b, q a → q (f a b))
    (hreach : ∀ a, q a → p (f a b)) (hp : ∀ a b, p a → p (f a b)) {a : α} (ha : q a) : p (l.foldl f a) := by
  induction l generalizing a with
  | nil => exact absurd hb List.not_mem_nil
  | cons x l ih =>
    rcases List.mem_cons.1 hb with rfl | hb
    · exact foldl_invariant p f l (fun a b _ => hp a b) (hreach a ha)
    · exact ih hb (hq a x ha)

/-! Closures (R136) -/

theorem Core.context_modContext (x : Core) (k j : Nat) (f : Context → Context) :
    (x.modContext k f).context j = if j = k then f (x.context k) else x.context j := by
  by_cases h : j = k
  · subst h
    rw [if_pos rfl]
    exact Tbl.get_set_self ..
  · rw [if_neg h]
    exact Tbl.get_set_ne _ _ _ h

/-- R136: what the closure of a context leaves of it. -/
def Context.closeWith (z : Context) (forced : Bool) : Context :=
  { z with state := if z.quiet then .free else .closed, bin := none, candidates := [], forced := forced && !z.quiet, closing := none }

/-- R110, R136: a bin that loses its context goes where nothing is left in it. -/
theorem Core.unbind_contexts (y : Core) (b : Nat) :
    (let z := y.modBin b fun w => { w with ctx := none }; if (z.bin b).vec.isEmpty then z.releaseBin b else z).contexts = y.contexts := by
  dsimp only
  split
  · exact (Core.releaseBin_others ..).2.2.1
  · rfl

theorem Core.closeContext_contexts (x : Core) (k : Nat) (forced : Bool) :
    (x.closeContext k forced).contexts = (x.modContext k fun z => z.closeWith forced).contexts := by
  have opened : (x.modContext k fun z => { z with
      state := if (x.context k).quiet then .free else .closed, bin := none, candidates := [], forced := forced && !(x.context k).quiet,
      closing := none }) = x.modContext k fun z => z.closeWith forced := rfl
  unfold Core.closeContext
  simp only [opened]
  split
  · rw [Core.unbind_contexts]
    split <;> rfl
  · split <;> rfl

/-- R136: the context whose closure takes effect, and no other. -/
theorem Core.context_closeContext (x : Core) (k j : Nat) (forced : Bool) :
    (x.closeContext k forced).context j = if j = k then (x.context k).closeWith forced else x.context j := by
  rw [Core.context, Core.closeContext_contexts, ← Core.context, Core.context_modContext]

@[simp] theorem State.core_lossRecord (s : State) (c k c' : Nat) : (s.lossRecord c k).core c' = s.core c' := by
  unfold State.lossRecord
  dsimp only
  split
  · rfl
  · exact State.core_offer ..

/-- R136: a closure that was decided takes effect. -/
def State.closeDecided (s : State) (c k : Nat) : State :=
  match ((s.core c).context k).state, ((s.core c).context k).closing with
  | .opened, some forced => (s.lossRecord c k).modCore c fun x => x.closeContext k forced
  | _, _ => s

theorem State.settleClosures_eq (s : State) :
    s.settleClosures = s.cores.foldl (fun s e => ctxNums.foldl (fun s k => s.closeDecided e.1 k) s) s := rfl

theorem State.closeDecided_id {s : State} {c k : Nat} (h : ((s.core c).context k).state ≠ .opened) : s.closeDecided c k = s := by
  unfold State.closeDecided
  split
  · next h' _ => exact absurd h' h
  · rfl

theorem State.closeDecided_ne (s : State) {c k c' k' : Nat} (h : c' ≠ c ∨ k' ≠ k) :
    ((s.closeDecided c k).core c').context k' = (s.core c').context k' := by
  unfold State.closeDecided
  split
  · by_cases hc : c' = c
    · subst hc
      rw [State.core_modCore_self, Core.context_closeContext, if_neg (h.resolve_left fun h => h rfl), State.core_lossRecord]
    · rw [State.core_modCore_ne _ _ hc, State.core_lossRecord]
  · rfl

/-- R136: the state of a context whose closure has taken effect. -/
def Context.ClosedOf (x y : Context) : Prop := y.state = (if x.quiet then .free else .closed) ∧ y.bin = none

theorem State.closeDecided_self {s : State} {c k : Nat} {forced : Bool} (h : ((s.core c).context k).state = .opened)
    (h' : ((s.core c).context k).closing = some forced) :
    ((s.core c).context k).ClosedOf (((s.closeDecided c k).core c).context k) := by
  unfold State.closeDecided
  simp only [h, h']
  rw [State.core_modCore_self, Core.context_closeContext, if_pos rfl, State.core_lossRecord]
  exact ⟨rfl, rfl⟩

theorem Context.ClosedOf.not_opened {x y : Context} (h : x.ClosedOf y) : y.state ≠ .opened := by
  rw [h.1]
  split <;> exact fun h => CtxState.noConfusion h

theorem Tbl.mem_of_find? {α : Type} {t : Tbl α} {n : Nat} {v : α} (h : Tbl.find? t n = some v) : (n, v) ∈ t := by
  induction t with
  | nil => simp [Tbl.find?] at h
  | cons e t ih =>
    obtain ⟨m, w⟩ := e
    rw [Tbl.find?] at h
    split at h
    · next hm =>
      obtain rfl : w = v := Option.some.inj h
      simp [hm]
    · split at h
      · simp at h
      · exact List.mem_cons_of_mem _ (ih h)

/-- R136: in `a` the closure of a context that stood as `y` has taken effect. -/
def HasClosed (c k : Nat) (y : Context) (a : State) : Prop := y.ClosedOf ((a.core c).context k)

/-- R136: in `a` a context stands as `y`, or its closure has taken effect. -/
def CloseStage (c k : Nat) (y : Context) (a : State) : Prop := (a.core c).context k = y ∨ HasClosed c k y a

section
variable {y : Context} {forced : Bool} (h : y.state = .opened) (h' : y.closing = some forced) {a : State} {c k : Nat} (c' k' : Nat)

theorem HasClosed.step (ha : HasClosed c k y a) : HasClosed c k y (a.closeDecided c' k') := by
  by_cases he : c = c' ∧ k = k'
  · obtain ⟨rfl, rfl⟩ := he
    rwa [State.closeDecided_id (Context.ClosedOf.not_opened ha)]
  · rwa [HasClosed, State.closeDecided_ne a (Decidable.not_and_iff_not_or_not.1 he)]

include h h'

theorem CloseStage.closes (ha : CloseStage c k y a) : HasClosed c k y (a.closeDecided c k) := by
  rcases ha with rfl | ha
  · exact State.closeDecided_self h h'
  · exact ha.step c k

theorem CloseStage.step (ha : CloseStage c k y a) : CloseStage c k y (a.closeDecided c' k') := by
  by_cases he : c = c' ∧ k = k'
  · obtain ⟨rfl, rfl⟩ := he
    exact .inr (ha.closes h h')
  · exact ha.imp (fun ha => (State.closeDecided_ne a (Decidable.not_and_iff_not_or_not.1 he)).trans ha) fun ha => ha.step c' k'

end

/-- R136: a closure that is decided takes effect at the end of the clk. -/
theorem State.settleClosures_spec {s : State} {c k : Nat} {forced : Bool} (hc : (Tbl.find? s.cores c).isSome) (hk : k ∈ ctxNums)
    (h : ((s.core c).context k).state = .opened) (h' : ((s.core c).context k).closing = some forced) :
    HasClosed c k ((s.core c).context k) s.settleClosures := by
  obtain ⟨x, hx⟩ := Option.isSome_iff_exists.1 hc
  rw [State.settleClosures_eq]
  refine foldl_reaches (HasClosed c k _) (CloseStage c k _) _ (Tbl.mem_of_find? hx) (fun a e ha => ?_) (fun a ha => ?_) (fun a e ha => ?_)
    (.inl rfl)
  · exact foldl_invariant (CloseStage c k _) _ _ (fun a k' _ ha => CloseStage.step h h' e.1 k' ha) ha
  · exact foldl_reaches (HasClosed c k _) (CloseStage c k _) _ hk (fun a k' ha => CloseStage.step h h' c k' ha)
      (fun a ha => CloseStage.closes h h' ha) (fun a k' ha => HasClosed.step c k' ha) ha
  · exact foldl_invariant (HasClosed c k _) _ _ (fun a k' _ ha => HasClosed.step e.1 k' ha) ha

end Sys2Proof.Machine
end

section
/-! The events of the contexts (O40). -/

namespace Sys2Proof.Machine

section
variable {s : State} {c b k : Nat}

/-- R101: the window of a bin, from its header. -/
theorem exec_binHeaderReturn {asp : Nat} {addr : VAddr} (hargs : s.args = [c, b]) (hkey : ((s.core c).bin b).key = some (asp, addr))
    (hw : ((s.core c).bin b).window = none) : exec .binHeaderReturn s = .next
      ((s.fetched c (s.fetchNext c ⟨0, s.clk, 0, ((s.core c).bin b).root, asp, addr, [], true, [], 1, none⟩)).modCore c fun y =>
        y.modBin b fun z => { z with window := some (s.binWindow ((s.core c).bin b)) }) := by
  simp only [exec, execBinHeaderReturn, State.arg, hargs, List.getD_cons_zero, List.getD_cons_succ, hw, hkey, Option.isSome_none,
    Bool.false_eq_true, if_false]

theorem State.fetchNext_header_ok {k root asp : Nat} {addr : VAddr} {h : Nat} {leaf : DWord}
    (hf : s.fetchWord root c asp addr.toNat = .ok (h, leaf)) :
    s.fetchNext c ⟨k, s.clk, 0, root, asp, addr, [], true, [], 1, none⟩ =
      ⟨k, s.clk, 0, root, asp, addr, [h], leafBit leaf 7, [(addr.toNat / 2 ^ 16, leaf)], hdrWords h, none⟩ := by
  have hva : (addr.toNat + 4 * 0) % 2 ^ 56 = addr.toNat := Nat.mod_eq_of_lt addr.isLt
  simp only [State.fetchNext, List.length_nil, hva, hf]
  rfl

theorem State.fetchNext_header_error {k root asp : Nat} {addr : VAddr} {cause : Cause} {detail : DWord}
    (hf : s.fetchWord root c asp addr.toNat = .error (cause, detail)) :
    s.fetchNext c ⟨k, s.clk, 0, root, asp, addr, [], true, [], 1, none⟩ =
      ⟨k, s.clk, 0, root, asp, addr, [], true, [], 1, some (cause, addr.toNat, detail)⟩ := by
  have hva : (addr.toNat + 4 * 0) % 2 ^ 56 = addr.toNat := Nat.mod_eq_of_lt addr.isLt
  simp only [State.fetchNext, List.length_nil, hva, hf]
  rfl

/-- R105: what the start of a configuration makes of a core whose chosen context is free. -/
def Core.configured (y : Core) (b k : Nat) (z : Context) (f : Fetch) (kept : Bool) : Core :=
  let w := ((y.clearExcess k).modContext k fun _ => z).modBin b fun u => { u with ctx := some k }
  { w with fetch := some f, forcing := w.forcing && kept }

theorem Core.configured_spec (y : Core) (b k : Nat) (z : Context) (f : Fetch) (kept : Bool) :
    (y.configured b k z f kept).context k = z ∧ ((y.configured b k z f kept).bin b).ctx = some k ∧
      (y.configured b k z f kept).fetch = some f := by
  refine ⟨Tbl.get_set_self .., ?_, rfl⟩
  exact congrArg Bin.ctx (Tbl.get_set_self ..)

/-- R105: the start of the configuration of a free context. -/
theorem exec_configStart {bin : Bin} {asp : Nat} {addr : VAddr} (hargs : s.args = [c]) (hfetch : (s.core c).fetch = none)
    (hbin : (s.core c).chosenBin s.clk = some (b, bin)) (hk : (s.core c).contextToTake = some k)
    (hfree : ((s.core c).context k).state = .free) (hnone : ((s.core c).context k).bin = none) (hkey : bin.key = some (asp, addr))
    {f : Fetch} (hf : s.fetchNext c ⟨k, s.clk, 0, bin.root, asp, addr, [], true, [], 1, none⟩ = f) :
    exec .configStart s = .next (s.modCore c fun y =>
      y.configured b k { Context.reset with state := .configuring, bin := some b, asp := asp } { f with due := s.clk + configTime f.need }
        (((s.core c).context k).closing != some true)) := by
  subst hf
  simp only [exec, execConfigStart, State.arg, hargs, List.getD_cons_zero, hfetch, hbin, hk, hkey, hfree, hnone]
  rfl

/-- R105: the configuration of a free context has started, with the fetch of its block under way. -/
theorem configStart_spec {bin : Bin} {asp : Nat} {addr : VAddr} (hargs : s.args = [c]) (hfetch : (s.core c).fetch = none)
    (hbin : (s.core c).chosenBin s.clk = some (b, bin)) (hk : (s.core c).contextToTake = some k)
    (hfree : ((s.core c).context k).state = .free) (hnone : ((s.core c).context k).bin = none) (hkey : bin.key = some (asp, addr))
    {f : Fetch} (hf : s.fetchNext c ⟨k, s.clk, 0, bin.root, asp, addr, [], true, [], 1, none⟩ = f) :
    ∃ w, exec .configStart s = .next w ∧
      (w.core c).context k = { Context.reset with state := .configuring, bin := some b, asp := asp } ∧
      ((w.core c).bin b).ctx = some k ∧ (w.core c).fetch = some { f with due := s.clk + configTime f.need } ∧ w.mem = s.mem := by
  obtain ⟨context, bins, fetch⟩ := Core.configured_spec (s.core c) b k
    { Context.reset with state := .configuring, bin := some b, asp := asp } { f with due := s.clk + configTime f.need }
    (((s.core c).context k).closing != some true)
  refine ⟨_, exec_configStart hargs hfetch hbin hk hfree hnone hkey hf, ?_, ?_, ?_, rfl⟩ <;> rw [State.core_modCore_self]
  · exact context
  · exact bins
  · exact fetch

/-- R108: quiescence, 3 clk after the last instance left. -/
theorem exec_quiescenceSet (hargs : s.args = [c, k]) (hq : ((s.core c).context k).quiet = false)
    (hf : ((s.core c).context k).forced = false) (hi : ((s.core c).inFlight.any fun e => e.2.ctx == k) = false) :
    exec .quiescenceSet s = .next (if s.clk < ((s.core c).context k).idleSince + 3 then s
      else s.modCore c fun y => y.modContext k fun w =>
        { w with quiet := true, state := if w.state = .closed then .free else w.state, forced := false }) := by
  simp only [exec, execQuiescenceSet, State.arg, hargs, List.getD_cons_zero, List.getD_cons_succ, hq, hf, hi, Bool.false_or,
    Bool.or_false, decide_eq_true_eq, Bool.false_eq_true, if_false]

theorem State.context_closeCtx (s : State) (c k : Nat) (forced : Bool) (c' k' : Nat) :
    ((s.closeCtx c k forced).core c').context k' =
      if c' = c ∧ k' = k then { (s.core c).context k with closing := some (forced || ((s.core c).context k).closing == some true) }
      else (s.core c').context k' := by
  unfold State.closeCtx
  by_cases hc : c' = c
  · subst hc
    rw [State.core_modCore_self, Core.context_modContext]
    simp only [true_and]
  · rw [State.core_modCore_ne _ _ hc, if_neg fun h => hc h.1]

/-- R109: the closure of a context for an aged bin. -/
theorem exec_forcedClosure {n : Nat} {bin : Bin} (hargs : s.args = [c]) (hfetch : (s.core c).fetch = none)
    (hforcing : (s.core c).forcing = false)
    (hfree : ∀ j ∈ [0, 1, 2, 3], ((s.core c).context j).state ≠ .free ∧ (s.core c).reclaimable j = false)
    (haged : (s.core c).agedBin s.clk = some (n, bin)) (hk : (s.core c).closureVictim s.clk ((s.core c).binPrio s.clk bin) = some k) :
    exec .forcedClosure s = .next ((s.closeCtx c k true).modCore c fun y => { y with forcing := true }) := by
  have none_free : (ctxNums.any fun k => ((s.core c).context k).state == .free || (s.core c).reclaimable k) = false := by
    refine List.any_eq_false.2 fun j hj => ?_
    obtain ⟨hstate, hrec⟩ := hfree j hj
    simp [hstate, hrec]
  simp only [exec, execForcedClosure, State.arg, hargs, List.getD_cons_zero, hfetch, hforcing, none_free, haged, hk, Option.isSome_none,
    Bool.or_self, Bool.false_eq_true, if_false]

/-- R110: the bin of the earliest configuration is sealed. -/
theorem exec_binSeal {sl : Nat} {a : Nat × VAddr} {rest : List (Nat × Nat × VAddr)} (hargs : s.args = [c])
    (hfifo : (s.core c).fifo = (sl, a) :: rest)
    (hsealed : ((s.core c).bins.any fun e => e.2.isSealed) = false)
    (hk : bestBy (fun i j => decide (((s.core c).context i).openAt < ((s.core c).context j).openAt))
      (ctxNums.filter fun k => ((s.core c).context k).state == .opened && ((s.core c).context k).bin.isSome) = some k)
    (hb : ((s.core c).context k).bin = some b) :
    exec .binSeal s = .next (if s.clk < ((s.core c).thread sl).filed + 256 then s
      else s.modCore c fun y => y.modBin b fun z => { z with isSealed := true }) := by
  simp only [exec, execBinSeal, State.arg, hargs, List.getD_cons_zero, hfifo, hsealed, hk, hb, Bool.or_false, decide_eq_true_eq]

end

/-! CFGINV_PERFORM (R428) -/

/-- R136: a step that decides closures, and does nothing else. -/
structure OnlyCloses (s w : State) : Prop where
  mem : w.mem = s.mem
  grids : w.grids = s.grids
  cfginvs : w.cfginvs = s.cfginvs
  thread : ∀ c sl, w.thread c sl = s.thread c sl
  group : ∀ c g, w.group c g = s.group c g
  closing : ∀ c k, ((s.core c).context k).closing ≠ none → ((w.core c).context k).closing ≠ none

namespace OnlyCloses

variable {s t u : State}

theorem refl (s : State) : OnlyCloses s s := ⟨rfl, rfl, rfl, fun _ _ => rfl, fun _ _ => rfl, fun _ _ h => h⟩

theorem trans (h : OnlyCloses s t) (h' : OnlyCloses t u) : OnlyCloses s u :=
  ⟨h'.mem.trans h.mem, h'.grids.trans h.grids, h'.cfginvs.trans h.cfginvs, fun c sl => (h'.thread c sl).trans (h.thread c sl),
    fun c g => (h'.group c g).trans (h.group c g), fun c k hk => h'.closing c k (h.closing c k hk)⟩

theorem foldl {β : Type} (f : State → β → State) (h : ∀ s b, OnlyCloses s (f s b)) (l : List β) (s : State) :
    OnlyCloses s (l.foldl f s) :=
  foldl_invariant (OnlyCloses s) f l (fun a b _ ha => ha.trans (h a b)) (refl s)

theorem aspOf (h : OnlyCloses s t) (c sl : Nat) : t.aspOf c sl = s.aspOf c sl := by
  simp only [State.aspOf, State.gridOf, State.groupOf, State.grid, h.thread, h.group, h.grids]

theorem closeCtx (s : State) (c k : Nat) (forced : Bool) : OnlyCloses s (s.closeCtx c k forced) where
  mem := rfl
  grids := rfl
  cfginvs := rfl
  thread c' sl := State.thread_modCore s c sl (fun x => Core.modContext_threads x k _) c'
  group c' g := State.group_modCore s c g (fun x => Core.modContext_groups x k _) c'
  closing c' k' h := by
    rw [State.context_closeCtx]
    split
    · exact Option.some_ne_none _
    · exact h

end OnlyCloses

/-- R428: on one core, closures of the contexts that overlap a range are decided. -/
def State.closeOverlapping (c sl a len : Nat) (s : State) (e : Nat × Core) : State :=
  (e.2.overlapping (s.aspOf c sl) a len).foldl (fun s k => s.closeCtx e.1 k false) s

theorem State.closeOverlapping_onlyCloses (c sl a len : Nat) (s : State) (e : Nat × Core) :
    OnlyCloses s (s.closeOverlapping c sl a len e) :=
  .foldl _ (fun s k => .closeCtx s e.1 k false) _ s

/-- R428: in `a` the closure of a context is decided. -/
def IsClosing (c k : Nat) (a : State) : Prop := ((a.core c).context k).closing ≠ none

theorem State.closeOverlapping_closes {c sl a len : Nat} {s : State} {e : Nat × Core} {k : Nat}
    (hk : k ∈ e.2.overlapping (s.aspOf c sl) a len) : IsClosing e.1 k (s.closeOverlapping c sl a len e) := by
  refine foldl_reaches (IsClosing e.1 k) (fun _ => True) _ hk (fun _ _ _ => trivial) (fun u _ => ?_)
    (fun u k' hu => (OnlyCloses.closeCtx u e.1 k' false).closing e.1 k hu) trivial
  rw [IsClosing, State.context_closeCtx, if_pos ⟨rfl, rfl⟩]
  exact Option.some_ne_none _

/-- R428: the closures of every context of the module that overlaps the range. -/
def State.closeAll (s : State) (c sl a len : Nat) : State := s.cores.foldl (State.closeOverlapping c sl a len) s

theorem State.closeAll_onlyCloses (s : State) (c sl a len : Nat) : OnlyCloses s (s.closeAll c sl a len) :=
  .foldl _ (State.closeOverlapping_onlyCloses c sl a len) _ s

theorem State.closeAll_closes {s : State} {c sl a len c' k' : Nat} {x' : Core} (hx : Tbl.find? s.cores c' = some x')
    (hk : k' ∈ x'.overlapping (s.aspOf c sl) a len) : IsClosing c' k' (s.closeAll c sl a len) := by
  refine foldl_reaches (IsClosing c' k') (OnlyCloses s) _ (Tbl.mem_of_find? hx)
    (fun u e hu => hu.trans (State.closeOverlapping_onlyCloses c sl a len u e)) (fun u hu => ?_)
    (fun u e hu => (State.closeOverlapping_onlyCloses c sl a len u e).closing c' k' hu) (OnlyCloses.refl s)
  exact State.closeOverlapping_closes (e := (c', x')) (by rwa [hu.aspOf])

section
variable {s : State} {c sl k due a len : Nat} (hargs : s.args = [c, sl, k])
  (hf : (s.cfginvs.find? fun e => e.1 == c && e.2.1 == sl && e.2.2.1 == k) = some (c, sl, k, due, a, len))
include hargs hf

theorem exec_cfginvPerform_waits (hdue : s.clk < due) : exec .cfginvPerform s = .next s := by
  simp only [exec, execCfginvPerform, State.arg, hargs, List.getD_cons_zero, List.getD_cons_succ, hf, hdue, if_true]

/-- R428: `cfginv` is performed, when its time has come. -/
theorem exec_cfginvPerform (hdue : due ≤ s.clk) : exec .cfginvPerform s = .next
    ((State.closeAll { s with cfginvs := s.cfginvs.filter fun e => !(e.1 == c && e.2.1 == sl && e.2.2.1 == k) } c sl a len).modInst c sl
      fun x => (((x.perform k).deliver s.clk k (s.t1Of c sl k) (if x.squash.isSome then nullTok else doneTok)).complete s.clk)) := by
  simp only [exec, execCfginvPerform, State.arg, hargs, List.getD_cons_zero, List.getD_cons_succ, hf, Nat.not_lt.2 hdue, if_false]
  rfl

theorem cfginvPerform_spec (hdue : due ≤ s.clk) {y : Inst} (hy : (s.thread c sl).inst = some y) (hsq : y.squash = none) :
    ∃ w, exec .cfginvPerform s = .next w ∧
      (w.thread c sl).inst = some (((y.perform k).deliver s.clk k (s.t1Of c sl k) doneTok).complete s.clk) ∧
      (∀ e ∈ w.cfginvs, ¬ (e.1 = c ∧ e.2.1 = sl ∧ e.2.2.1 = k)) ∧ w.mem = s.mem ∧
      ∀ c' x' k', Tbl.find? s.cores c' = some x' → k' ∈ x'.overlapping (s.aspOf c sl) a len →
        ((w.core c').context k').closing ≠ none := by
  refine ⟨_, exec_cfginvPerform hargs hf hdue, ?_⟩
  have closes := fun c' x' k' hx hk => State.closeAll_closes (c' := c') (x' := x') (k' := k')
    (s := { s with cfginvs := s.cfginvs.filter fun e => !(e.1 == c && e.2.1 == sl && e.2.2.1 == k) }) (c := c) (sl := sl) (a := a)
    (len := len) hx hk
  have kept := State.closeAll_onlyCloses
    { s with cfginvs := s.cfginvs.filter fun e => !(e.1 == c && e.2.1 == sl && e.2.2.1 == k) } c sl a len
  generalize State.closeAll { s with cfginvs := s.cfginvs.filter fun e => !(e.1 == c && e.2.1 == sl && e.2.2.1 == k) } c sl a len = u
    at closes kept
  have inst : (u.thread c sl).inst = some y := (congrArg Thread.inst (kept.thread c sl)).trans hy
  refine ⟨?_, fun e he => ?_, kept.mem, fun c' x' k' hx hk => ?_⟩
  · rw [State.modInst, State.thread_modThread_self]
    simp only [Thread.modInst, inst, hsq, Option.isSome_none, Bool.false_eq_true, if_false]
  · have he : e ∈ u.cfginvs := he
    rw [kept.cfginvs, List.mem_filter] at he
    rintro ⟨rfl, rfl, rfl⟩
    simp at he
  · have closing := closes c' x' k' hx hk
    rw [State.modInst, State.modThread]
    by_cases hc : c' = c
    · subst hc
      rw [State.core_modCore_self]
      exact closing
    · rw [State.core_modCore_ne _ _ hc]
      exact closing

end

end Sys2Proof.Machine
end

section
/-! The contexts, assembled (O40). -/

namespace Sys2Proof.Machine

section
variable {s : State} {c b : Nat} {f : Fetch} (hf : (s.core c).fetch = some f) (hb : ((s.core c).context f.ctx).bin = some b)
  (hdue : f.due ≤ s.clk) (hfree : s.lineHeld (s.fetchWords c f.need f).places c none = false)
include hf hb hdue hfree

/-- R106: the context that opens. -/
theorem completeConfig_block_spec {blk : Block} {user : Bool} (hres : (s.fetchWords c f.need f).result = .block blk user) :
    let w := s.completeConfig c
    (w.core c).fetch = none ∧ ((w.core c).context f.ctx).state = .opened ∧ ((w.core c).context f.ctx).block = blk ∧
      ((w.core c).context f.ctx).userOk = user ∧ ((w.core c).context f.ctx).bin = some b ∧
      ((w.core c).context f.ctx).openAt = s.clk ∧ w.mem = s.mem := by
  dsimp only
  rw [State.completeConfig_block hf hb hdue hfree hres]
  have access := State.fetched_accessOnly (s.modCore c fun y => { y with fetch := none }) c (s.fetchWords c f.need f)
  obtain ⟨⟨l, context⟩, fetch, mem⟩ := State.openContext_spec
    ((s.modCore c fun y => { y with fetch := none }).fetched c (s.fetchWords c f.need f)) c f.ctx
    { Context.reset with state := .opened, block := blk, asp := f.asp, userOk := user, bin := some b, openAt := s.clk,
                         lastAdmit := s.clk }
  rw [context, fetch, mem, access.fetch, State.core_modCore_self, State.fetched_mem]
  exact ⟨rfl, rfl, rfl, rfl, rfl, rfl, rfl⟩

/-- R78: the block that is rejected. -/
theorem completeConfig_reject_spec {cause : Cause} {va : Nat} {detail : DWord} {next : VAddr}
    (hres : (s.fetchWords c f.need f).result = .reject cause va detail next)
    (ho : ∀ sl ∈ ((s.core c).bin b).vec, ((s.core c).thread sl).region = none ∧ ((s.core c).thread sl).place = .binned b ∧
      ((s.core c).thread sl).save = none) (hfifo : ∀ e ∈ (s.core c).fifo, e.1 ∉ ((s.core c).bin b).vec) :
    let w := s.completeConfig c
    (w.core c).fetch = none ∧ ((w.core c).context f.ctx).state = .free ∧ w.mem = s.mem ∧
      ∀ sl ∈ ((s.core c).bin b).vec, w.thread c sl = ((s.core c).thread sl).faulted cause va detail f.addr next := by
  dsimp only
  rw [State.completeConfig_reject hf hb hdue hfree hres]
  have access := State.fetched_accessOnly (s.modCore c fun y => { y with fetch := none }) c (s.fetchWords c f.need f)
  have mem := State.fetched_mem (s.modCore c fun y => { y with fetch := none }) c (s.fetchWords c f.need f)
  generalize hu : (s.modCore c fun y => { y with fetch := none }).fetched c (s.fetchWords c f.need f) = u at access mem
  have thread : ∀ sl, u.thread c sl = (s.core c).thread sl := fun sl => by
    rw [access.thread, State.thread, State.core_modCore_self]
    rfl
  have bins : (u.core c).bin b = (s.core c).bin b := by
    rw [Core.bin, access.bins, State.core_modCore_self]
    rfl
  have fifo : (u.core c).fifo = (s.core c).fifo := by rw [access.fifo, State.core_modCore_self]
  obtain ⟨fetch, context, kept, threads⟩ := State.rejectBlock_spec (s := u) (c := c) (k := f.ctx) (b := b) (cause := cause) (va := va)
    (detail := detail) (addr := f.addr) (next := next) (by simpa only [bins, thread] using ho) (by rwa [bins, fifo])
  rw [bins] at threads
  refine ⟨?_, context, kept.trans mem, fun sl hsl => (threads sl hsl).trans (by rw [thread])⟩
  rw [fetch, access.fetch, State.core_modCore_self]

end

end Sys2Proof.Machine

open Sys2Proof Sys2Proof.Machine

/-- Settles O40: each event of the contexts by its equation, a rejected block's threads one by one, the closures of `cfginv` and those
of the end of the clk by the fold that reaches each, and the checks of a block by the first that fails. -/
theorem contextEvents : Obligations.ContextEvents := by
  unfold Obligations.ContextEvents
  refine ⟨fun s c b k => ⟨?header, ?start, ?block, ?reject, ?quiet⟩, fun s c => ⟨?forced, ?sealed, ?cfginv, ?checks, ?words, ?closed⟩⟩
  case header =>
    intro asp addr hargs hkey hw
    refine ⟨State.fetched_mem .., ?_⟩
    rw [exec_binHeaderReturn hargs hkey hw, State.binWindow, hkey] <;> rfl
  case start =>
    intro bin asp addr hargs hfetch hbin hk hfree hnone hkey
    refine ⟨fun h leaf hok => ?_, fun cause detail herr => ?_⟩
    · exact configStart_spec hargs hfetch hbin hk hfree hnone hkey (State.fetchNext_header_ok hok)
    · have nine : configTime 1 = 9 := rfl
      have started := configStart_spec hargs hfetch hbin hk hfree hnone hkey (State.fetchNext_header_error herr)
      simp only [nine] at started
      exact started
  case block =>
    intro f blk user hargs hf hb hres
    have arg : exec .configComplete s = .next (s.completeConfig c) := by simp only [exec, execConfigComplete, State.arg, hargs,
      List.getD_cons_zero]
    refine ⟨fun h => ?_, fun hdue hfree => ⟨_, arg, completeConfig_block_spec hf hb hdue hfree hres⟩⟩
    rw [arg, State.completeConfig_waits hf hb h]
  case reject =>
    intro f cause va detail next hargs hf hb hdue hres hfree ho hfifo
    have arg : exec .configComplete s = .next (s.completeConfig c) := by simp only [exec, execConfigComplete, State.arg, hargs,
      List.getD_cons_zero]
    obtain ⟨fetch, state, mem, threads⟩ := completeConfig_reject_spec hf hb hdue hfree hres ho hfifo
    refine ⟨_, arg, fetch, state, mem, fun sl hsl => ?_⟩
    rw [threads sl hsl]
    exact ⟨rfl, rfl⟩
  case quiet =>
    intro hargs hq hf hi
    rw [exec_quiescenceSet hargs hq hf hi]
    exact ⟨fun h => by rw [if_pos h], fun h => by rw [if_neg (Nat.not_lt.2 h)]⟩
  case forced =>
    intro n bin k hargs hfetch hforcing hfree haged hk
    refine ⟨_, exec_forcedClosure hargs hfetch hforcing hfree haged hk, ?_, ?_, rfl⟩ <;> rw [State.core_modCore_self]
    exact (State.context_closeCtx s c k true c k).trans (if_pos ⟨rfl, rfl⟩)
  case sealed =>
    intro sl a k b rest hargs hfifo hsealed hk hb
    rw [exec_binSeal hargs hfifo hsealed hk hb]
    exact ⟨fun h => by rw [if_pos h], fun h => by rw [if_neg (Nat.not_lt.2 h)]⟩
  case cfginv =>
    intro sl k y due a len hargs hy hsq hf
    exact ⟨exec_cfginvPerform_waits hargs hf, fun hdue => cfginvPerform_spec hargs hf hdue hy hsq⟩
  case checks =>
    intro h rest
    refine ⟨fun hbad => checkBlock_header rest (headerOk_eq_false.2 hbad), fun k w code hok hw hc hfirst => ?_, fun hok hws => ?_⟩
    · exact checkBlock_word (Decidable.byContradiction fun h => hok (headerOk_eq_false.1 (Bool.eq_false_iff.2 h))) hw hc hfirst
    · have graph := checkBlock_graph (Decidable.byContradiction fun h => hok (headerOk_eq_false.1 (Bool.eq_false_iff.2 h))) hws
      dsimp only
      rw [graph]
      refine ⟨fun k i hi hp hfirst => checkGraph_badPort hi hp hfirst, fun hports hrepeat => ⟨fun k i hi hp hfirst => ?_,
        fun hfed => ⟨fun k hc => checkGraph_cycle hports hrepeat hfed hc, fun hc hl _ => ?_⟩⟩⟩
      · exact checkGraph_missing hports hrepeat hi hp hfirst
      · rw [checkGraph_term hports hrepeat hfed hc hl]
        refine ⟨fun k hk ht hfirst => by rw [termFail_early hk ht hfirst]; rfl, fun hnone => ?_⟩
        rw [termFail_last hnone]
        split <;> rfl
  case words =>
    intro ar id n m w i
    refine ⟨checkWord_lit, checkWord_litD, checkWord_unassigned, fun h3 h4 hd => ?_⟩
    dsimp only
    rw [checkWord_decoded h3 h4 hd, ← targetBeyond_iff, ← targetBeyond_iff]
    refine ⟨fun h => if_pos (Bool.or_eq_true .. ▸ h), fun h h' => if_neg ?_⟩
    rw [Bool.or_eq_true]
    exact fun hor => hor.elim h h'
  case closed =>
    intro k forced hc hk hopened hclosing
    have mem : k ∈ ctxNums := by
      simp only [ctxNums, List.mem_cons, List.not_mem_nil, or_false]
      omega
    exact State.settleClosures_spec hc mem hopened hclosing
end

section
/-! The commit engine takes a region's commit and locks its lines; the serial token (O46). -/

namespace Sys2Proof.Machine

/-! Open regions -/

section
variable {s : State} {c sl k : Nat} {r : Region}

theorem State.openRegion_eq_some : s.openRegion c sl = some (k, r) ↔
    (s.thread c sl).region = some k ∧ Tbl.find? (s.core c).regions k = some r ∧ r.opened = true := by
  unfold State.openRegion
  cases hj : (s.thread c sl).region with
  | none => exact ⟨fun h => (by cases h), fun ⟨h, _⟩ => (by cases h)⟩
  | some j =>
    dsimp only
    cases hy : Tbl.find? (s.core c).regions j with
    | none =>
      refine ⟨fun h => (by cases h), fun ⟨h, h', _⟩ => ?_⟩
      cases h
      cases hy.symm.trans h'
    | some y =>
      dsimp only
      constructor
      · intro h
        split at h
        · next ho =>
          cases h
          exact ⟨rfl, hy, ho⟩
        · cases h
      · rintro ⟨h, h', ho⟩
        cases h
        cases hy.symm.trans h'
        exact if_pos ho

theorem Core.modRegion_eq {x : Core} (h : Tbl.find? x.regions k = some r) (f : Region → Region) :
    x.modRegion k f = { x with regions := Tbl.set x.regions k (f r) } := by
  unfold Core.modRegion
  simp only [h]

theorem Core.find?_modRegion {x : Core} (h : Tbl.find? x.regions k = some r) (f : Region → Region) :
    Tbl.find? (x.modRegion k f).regions k = some (f r) := by
  rw [Core.modRegion_eq h]
  exact Tbl.find?_set_self ..

end

/-! COMMIT_ENGINE_START (R343) -/

section
variable {s : State} {c sl k : Nat} {r : Region} {target : VAddr} {rest : List (Nat × VAddr)} (hr : s.openRegion c sl = some (k, r))
  (hargs : s.args = [c]) (hcommit : (s.core c).commit = none) (hq : (s.core c).commitQ = (sl, target) :: rest)
  (hy : s.commitYields c sl = false)
include hr hargs hcommit hq hy

/-- R343, R345: the commit that the engine takes. -/
theorem exec_commitEngineStart : exec .commitEngineStart s = .next (
    if !(s.thread c sl).buf.isEmpty || !(s.thread c sl).deferred.isEmpty then s
    else s.modCore c fun y => { y with
      commitQ := rest.filter (· != (sl, target))
      commit := some ⟨sl, target, r.lines.filter (fun l => !s.locks.contains (l, c, k)), [],
        if (r.lines.filter fun l => !s.locks.contains (l, c, k)).isEmpty then some (s.clk + s.commitTime r) else none⟩ }) := by
  have first : s.nextRegion c = some (sl, target) := by simp only [State.nextRegion, hq, hy, Bool.false_eq_true, if_false]
  have behind : ((sl, target) :: rest).filter (· != (sl, target)) = rest.filter (· != (sl, target)) :=
    List.filter_cons_of_neg (by simp)
  simp only [exec, execCommitEngineStart, State.arg, hargs, List.getD_cons_zero, State.commitStart, hcommit, first, hq, hr, behind]
  rfl

end

/-! SERIAL_TOKEN_GRANT (R348) -/

section
variable {s : State} {d c sl n : Nat} (hargs : s.args = [d]) (hn : (s.die d).nextSerial = some (c, sl, n))
include hargs

theorem exec_serialTokenGrant_held (h : (s.die d).serial ≠ none) : exec .serialTokenGrant s = .next s := by
  obtain ⟨v, hv⟩ := Option.ne_none_iff_exists'.1 h
  simp only [exec, execSerialTokenGrant, State.arg, hargs, List.getD_cons_zero, hv]

include hn

theorem exec_serialTokenGrant (h : (s.die d).serial = none) : exec .serialTokenGrant s = .next (s.modDie d fun y =>
    { y with serial := some (c, sl, s.tsc d), serialWait := y.serialWait.filter (· != (c, sl, n)) }) := by
  simp only [exec, execSerialTokenGrant, State.arg, hargs, List.getD_cons_zero, h, hn]

end

/-! LINE_LOCK_GRANTED of a free line (R344) -/

/-- R344: a lock changes no thread, no byte and no lock before it. -/
theorem State.addLock_spec (s : State) (c k l : Nat) :
    ∃ u, CacheOnly s u ∧ s.addLock c k l = { u with locks := s.locks ++ [(l, c, k)] } := by
  have cached := (s.dropL1_cacheOnly (dieOf c) l (some (s.l1Core c l))).trans (State.holdL1_cacheOnly _ c [l])
  exact ⟨_, cached, by rw [State.addLock, show ((s.dropL1 (dieOf c) l (some (s.l1Core c l))).holdL1 c [l]).locks = s.locks from
    (congrArg State.locks cached.rest :)]⟩

section
variable {s : State} {c sl k l : Nat} {r : Region} {target : VAddr} {todo held : List Nat} (hr : s.openRegion c sl = some (k, r))
  (hargs : s.args = [c]) (hown : s.engineOwns l = false) (hatomic : s.atomicFirst [lineSeg l] = false) (hfree : s.holder l = none)
include hr hargs hown hatomic hfree

/-- R344: the engine asks for its next line. -/
theorem exec_lineLockGranted_ask (hrun : (s.core c).commit = some ⟨sl, target, l :: todo, held, none⟩) :
    exec .lineLockGranted s = .next (s.modCore c fun y => { y with
      commit := some ⟨sl, target, l :: todo, held, some (s.clk + s.lockTime c l)⟩ }) := by
  obtain ⟨hk, -, -⟩ := State.openRegion_eq_some.1 hr
  simp only [exec, execLineLockGranted, State.arg, hargs, List.getD_cons_zero, State.engineLock, hrun, hk, hown, hatomic, hfree,
    Bool.or_self, Bool.false_eq_true, if_false]

/-- R344: the engine locks its next line. -/
theorem lineLockGranted_locks {t : Nat} (hrun : (s.core c).commit = some ⟨sl, target, l :: todo, held, some t⟩) (ht : t ≤ s.clk)
    (hob : (s.obtain c [lineSeg l] true).2 = true) :
    ∃ w due, exec .lineLockGranted s = .next w ∧ w.locks = s.locks ++ [(l, c, k)] ∧
      (w.core c).commit = some ⟨sl, target, todo, held ++ [l], due⟩ ∧ w.mem = s.mem ∧ (due = none ↔ todo ≠ []) := by
  obtain ⟨hk, -, -⟩ := State.openRegion_eq_some.1 hr
  have obtained := s.obtain_cacheOnly c [lineSeg l] true
  have locks : (s.obtain c [lineSeg l] true).1.locks = s.locks := (congrArg State.locks obtained.rest :)
  obtain ⟨u, cached, hu⟩ := (s.obtain c [lineSeg l] true).1.addLock_spec c k l
  refine ⟨((s.obtain c [lineSeg l] true).1.addLock c k l).modCore c fun x => { x with
      commit := some ⟨sl, target, todo, held ++ [l], if todo.isEmpty then
        some (match Tbl.find? (((s.obtain c [lineSeg l] true).1.addLock c k l).core c).regions k with
          | some r => s.clk + ((s.obtain c [lineSeg l] true).1.addLock c k l).commitTime r | none => s.clk) else none⟩ }, _, ?_, ?_,
    congrArg Core.commit (State.core_modCore_self ..), ?_, ?_⟩
  · simp only [exec, execLineLockGranted, State.arg, hargs, List.getD_cons_zero, State.engineLock, hrun, hk, hown, hatomic, hfree,
      Bool.or_self, Bool.false_eq_true, if_false, Nat.not_lt.2 ht, hob, Bool.not_true] <;> rfl
  · rw [hu, locks]
    rfl
  · rw [State.modCore_mem, hu]
    exact cached.mem.trans obtained.mem
  · cases todo <;> simp

end

end Sys2Proof.Machine
end

section
/-! The aborts of a region (R346), and the end of its commit (R343, R345). -/

namespace Sys2Proof.Machine

/-! Aborts -/

/-- R346: in `w` the region of a thread of `s` has aborted with a cause. -/
def RegionAborted (s w : State) (c sl k : Nat) (r : Region) (cause : Nat) : Prop :=
  (w.thread c sl).abortCause = cause ∧ (w.thread c sl).live = r.snapshot ∧ w.mem = s.mem ∧ (∀ e ∈ w.locks, ¬ (e.2.1 = c ∧ e.2.2 = k)) ∧
    (if cause = 6 then (w.thread c sl).region = none ∧ (w.thread c sl).aborts = 0 ∧ (w.thread c sl).next = r.abortPath
     else (w.thread c sl).aborts = min 255 ((s.thread c sl).aborts + 1) ∧ (w.thread c sl).next = r.entry ∧
       ∃ ser, Tbl.find? (w.core c).regions k = some ⟨r.slot, r.entry, r.abortPath, r.snapshot, [], [], [], [], [], [], 0, r.opened,
         ser, r.yieldTo⟩)

/-- R346: what an abort keeps of a region. -/
def Region.rolledBack (r : Region) : Region :=
  { r with inputs := [], constraints := [], stores := [], readLines := [], writeLines := [], tags := [], blocks := 0, ser := false }

theorem State.not_mem_unlocked {l : List (Nat × Nat × Nat)} {c k : Nat} :
    ∀ e ∈ l.filter (fun (_, x, y) => !(x == c && y == k)), ¬ (e.2.1 = c ∧ e.2.2 = k) := by
  intro e he
  have := (List.mem_filter.1 he).2
  rintro ⟨hc, hk⟩
  simp [hc, hk] at this

section
variable {s : State} {c sl k : Nat} {r : Region} (hr : s.openRegion c sl = some (k, r)) (cause : Nat)
include hr

theorem State.rollback_spec :
    let w := s.rollback c sl cause
    w.thread c sl = { (s.thread c sl).restore r with abortCause := cause } ∧
      Tbl.find? (w.core c).regions k = some r.rolledBack ∧ (∀ e ∈ w.locks, ¬ (e.2.1 = c ∧ e.2.2 = k)) := by
  obtain ⟨hk, hfind, -⟩ := State.openRegion_eq_some.1 hr
  simp only [State.rollback, hk, hfind]
  refine ⟨?_, ?_, State.not_mem_unlocked⟩
  · rw [State.thread_modCore, State.thread_modThread_self]
    · rfl
    · exact fun x => (Core.modRegion_same ..).1.trans (Core.queueWrites_rest ..).2.1
  · rw [State.core_modCore_self]
    refine Core.find?_modRegion ?_ Region.rolledBack
    rw [(Core.queueWrites_rest ..).2.2.1, State.core_modThread_regions]
    exact hfind

end

theorem State.freeRegion_locks (s : State) (c sl : Nat) : (s.freeRegion c sl).locks = s.locks := by
  unfold State.freeRegion
  split <;> rfl

/-- R348: a region that is replayed as a serialised one. -/
theorem State.rearmSerial_spec {s : State} {c sl k : Nat} {r : Region} (h : Tbl.find? (s.core c).regions k = some r) :
    let w := s.rearmSerial c sl k
    w.thread c sl = s.thread c sl ∧ (∃ ser, Tbl.find? (w.core c).regions k = some { r with ser := ser }) ∧ w.locks = s.locks := by
  unfold State.rearmSerial
  dsimp only
  split
  · refine ⟨?_, ⟨true, ?_⟩, rfl⟩
    · rw [State.queueSerial, State.thread_modDie, State.thread_modCore]
      exact fun x => (Core.modRegion_same ..).1
    · rw [State.queueSerial, State.core_modDie, State.core_modCore_self]
      exact Core.find?_modRegion h _
  · exact ⟨rfl, ⟨r.ser, h⟩, rfl⟩

/-- R346: what an abort leaves of the thread and its region. -/
theorem State.abortFrom_spec {s : State} {c sl k : Nat} {r : Region} (hr : s.openRegion c sl = some (k, r)) (from_ cause : Nat)
    (code : BitVec 8) :
    let w := s.abortFrom c sl from_ cause code
    RegionAborted s w c sl k r cause ∧ (w.thread c sl).filed = from_ ∧ (cause = 6 → (w.thread c sl).abortCode = code) ∧
      (w.thread c sl).group = (s.thread c sl).group := by
  obtain ⟨thread, region, locks⟩ := State.rollback_spec hr cause
  by_cases h6 : cause = 6
  · have ended : s.abortFrom c sl from_ cause code = (((s.rollback c sl cause).freeRegion c sl).modThread c sl fun t =>
        { t with aborts := 0, abortCode := code, place := .free }).fileFrom c sl from_ r.abortPath := by
      simp only [State.abortFrom, hr]
      rw [if_pos h6]
    dsimp only
    rw [RegionAborted, if_pos h6, ended, State.fileFrom, State.thread_modThread_self, State.thread_modThread_self,
      State.freeRegion_thread, thread]
    refine ⟨⟨rfl, rfl, ?_, fun e he => locks e ?_, rfl, rfl, rfl⟩, rfl, fun _ => rfl, rfl⟩
    · simp
    · rw [← (s.rollback c sl cause).freeRegion_locks c sl]
      exact he
  · have ended : s.abortFrom c sl from_ cause code = (((s.rollback c sl cause).modThread c sl fun t =>
        { t with aborts := min 255 (t.aborts + 1), place := .free }).rearmSerial c sl k).fileFrom c sl from_ r.entry := by
      simp only [State.abortFrom, hr]
      rw [if_neg h6]
    obtain ⟨same, ⟨ser, found⟩, locks'⟩ := State.rearmSerial_spec (c := c) (sl := sl) (k := k) (r := r.rolledBack)
      (s := (s.rollback c sl cause).modThread c sl fun t => { t with aborts := min 255 (t.aborts + 1), place := .free })
      (by rw [State.core_modThread_regions]; exact region)
    dsimp only
    rw [RegionAborted, if_neg h6, ended, State.fileFrom, State.thread_modThread_self, same, State.thread_modThread_self, thread]
    refine ⟨⟨rfl, rfl, ?_, fun e he => locks e ?_, rfl, rfl, ser, ?_⟩, rfl, fun h => absurd h h6, rfl⟩
    · simp
    · have he : e ∈ (State.rearmSerial _ c sl k).locks := he
      rwa [locks'] at he
    · rw [State.core_modThread_regions]
      exact found

end Sys2Proof.Machine
end

section
/-! The end of a region's commit (R343, R345). -/

namespace Sys2Proof.Machine

/-! What the stores of a region leave -/

/-- The threads of every core, and its commit engine, are those of another state. -/
def KeepsRun (s t : State) : Prop := ∀ c, (t.core c).threads = (s.core c).threads ∧ (t.core c).commit = (s.core c).commit

namespace KeepsRun

variable {s t u : State}

theorem refl (s : State) : KeepsRun s s := fun _ => ⟨rfl, rfl⟩

theorem trans (h : KeepsRun s t) (h' : KeepsRun t u) : KeepsRun s u :=
  fun c => ⟨(h' c).1.trans (h c).1, (h' c).2.trans (h c).2⟩

theorem foldl {β : Type} (f : State → β → State) (h : ∀ s b, KeepsRun s (f s b)) (l : List β) (s : State) : KeepsRun s (l.foldl f s) :=
  foldl_invariant (KeepsRun s) f l (fun a b _ ha => ha.trans (h a b)) (refl s)

theorem of_cacheOnly (h : CacheOnly s t) : KeepsRun s t := fun c => ⟨h.threads c, (congrArg Core.commit (h.core c) :)⟩

theorem modDie (s : State) (d : Nat) (f : Die → Die) : KeepsRun s (s.modDie d f) := fun c => by
  rw [State.core_modDie]
  exact ⟨rfl, rfl⟩

theorem thread (h : KeepsRun s t) (c sl : Nat) : t.thread c sl = s.thread c sl := by
  rw [State.thread, State.thread, Core.thread, Core.thread, (h c).1]

end KeepsRun

theorem State.markStale_keepsRun (s : State) (lines : List Nat) : KeepsRun s (s.markStale lines) := by
  unfold State.markStale
  split
  · intro c
    simp only [State.core, Tbl.get, Tbl.find?_mapVals]
    cases Tbl.find? s.cores c <;> exact ⟨rfl, rfl⟩
  · exact .refl s

theorem State.putBytes_keepsRun (d : Nat) (s : State) (ls : List (Nat × Bool)) (bs : List Byte) :
    KeepsRun s (State.putBytes d s ls bs) := by
  induction ls generalizing s bs with
  | nil => exact .refl s
  | cons e t ih =>
    obtain ⟨loc, nc⟩ := e
    cases bs with
    | nil => exact .refl s
    | cons b u =>
      rw [State.putBytes]
      refine KeepsRun.trans ?_ (ih _ _)
      split
      · exact (KeepsRun.of_cacheOnly (s.holdNc_cacheOnly d [⟨loc, 1, true⟩])).trans (.modDie _ _ _)
      · exact fun c => ⟨rfl, rfl⟩

theorem State.performCache_keepsRun (s : State) (d : Nat) (inv : Bool) (gs : List Seg) : KeepsRun s (s.performCache d inv gs) := by
  unfold State.performCache
  refine KeepsRun.foldl _ (fun u g => ?_) gs s
  dsimp only
  split
  · split
    · exact .modDie _ _ _
    · unfold State.writeBackNc
      split
      · exact fun c => ⟨rfl, rfl⟩
      · exact .refl u
  · split
    · exact fun c => KeepsRun.of_cacheOnly (u.leaveL1_cacheOnly (fun _ => true) (· == g.loc / 128)) c
    · exact .refl u

/-- R345: the stores and cache operations of a region change no thread and no commit engine. -/
theorem State.performEntries_keepsRun (s : State) (c : Nat) (ins : List RInput) (es : List RStore) :
    KeepsRun s (s.performEntries c ins es) :=
  (KeepsRun.foldl _ (fun u _ => (u.putBytes_keepsRun _ _ _).trans (State.markStale_keepsRun _ _)) _ s).trans
    (.foldl _ (fun u _ => u.performCache_keepsRun _ _ _) _ _)

/-! Tags and the end of a region -/

/-- R343, R144: the slots of a region's tags take their values. -/
theorem State.settleTags_thread (s : State) (c sl : Nat) (ins : List RInput) (tags : Tbl (Nat × DWord)) :
    (s.settleTags c sl ins tags).thread c sl =
      tags.foldl (fun (t : Thread) e => t.setPair e.1 (tagValue ins e.2)) (s.thread c sl) := by
  unfold State.settleTags
  induction tags generalizing s with
  | nil => rfl
  | cons e l ih =>
    rw [List.foldl_cons, List.foldl_cons, ih, State.thread_modCore, State.thread_modThread_self]
    exact fun x => (Core.queueWrites_rest ..).2.1

theorem Core.queueWrites_commit (x : Core) (sl : Nat) (l : List Nat) : (x.queueWrites sl l).commit = x.commit := by
  induction l generalizing x with
  | nil => rfl
  | cons a l ih => exact ih (x.queueWrite sl a)

theorem State.commit_modCore {c : Nat} {f : Core → Core} (hf : ∀ x, (f x).commit = x.commit) (s : State) (c' : Nat) :
    ((s.modCore c f).core c').commit = (s.core c').commit := by
  by_cases h : c' = c
  · rw [h, State.core_modCore_self, hf]
  · rw [State.core_modCore_ne _ _ h]

theorem State.settleTags_commit (s : State) (c sl : Nat) (ins : List RInput) (tags : Tbl (Nat × DWord)) (c' : Nat) :
    ((s.settleTags c sl ins tags).core c').commit = (s.core c').commit := by
  refine foldl_keeps (fun u : State => (u.core c').commit) _ (fun u e => ?_) tags s
  exact (State.commit_modCore (fun x => Core.queueWrites_commit ..) _ c').trans
    (State.commit_modCore (f := fun x => x.modThread sl _) (fun _ => rfl) _ c')

theorem State.settleTags_locks (s : State) (c sl : Nat) (ins : List RInput) (tags : Tbl (Nat × DWord)) :
    (s.settleTags c sl ins tags).locks = s.locks := by
  unfold State.settleTags
  induction tags generalizing s with
  | nil => rfl
  | cons e l ih => exact ih _

theorem State.endYield_keepsRun (s : State) (c sl : Nat) : KeepsRun s (s.endYield c sl) := by
  intro c'
  simp only [State.endYield, State.core, Tbl.get, Tbl.find?_mapVals]
  cases Tbl.find? s.cores c' <;> exact ⟨rfl, rfl⟩

theorem State.freeRegion_commit (s : State) (c sl c' : Nat) : ((s.freeRegion c sl).core c').commit = (s.core c').commit := by
  unfold State.freeRegion
  split
  · rfl
  · next k _ =>
    refine (State.endYield_keepsRun _ c sl c').2.trans ?_
    rw [State.releaseToken, State.core_modDie]
    exact (State.commit_modCore (f := fun x => x.modThread sl _) (fun _ => rfl) _ c').trans
      (State.commit_modCore (f := fun x => { x with regions := Tbl.erase x.regions k }) (fun _ => rfl) _ c')

theorem State.noteIdem_locks (s : State) (c sl : Nat) (b : Bool) (a : VAddr) : (s.noteIdem c sl b a).locks = s.locks := by
  unfold State.noteIdem
  split <;> rfl

theorem State.noteIdem_commit (s : State) (c sl : Nat) (b : Bool) (a : VAddr) (c' : Nat) :
    ((s.noteIdem c sl b a).core c').commit = (s.core c').commit := by
  unfold State.noteIdem
  split
  · exact State.commit_modCore (f := fun x => x.modThread sl _) (fun _ => rfl) _ c'
  · rfl

/-- R343: the region of a thread has ended, and the thread goes on at `target` from a clk on. -/
def State.endRegion (s : State) (c sl clk : Nat) (target : VAddr) : State :=
  (((s.freeRegion c sl).modThread c sl fun t => { t with aborts := 0, place := .free }).noteIdem c sl false target).fileFrom c sl clk target

theorem State.endRegion_spec (s : State) (c sl clk : Nat) (target : VAddr) :
    let w := s.endRegion c sl clk target
    ((w.thread c sl).live = (s.thread c sl).live ∧ (w.thread c sl).next = target ∧ (w.thread c sl).region = none ∧
      (w.thread c sl).aborts = 0 ∧ (w.thread c sl).filed = clk) ∧ (w.core c).commit = (s.core c).commit ∧ w.locks = s.locks ∧
      w.mem = s.mem := by
  obtain ⟨a, ha⟩ := ((s.freeRegion c sl).modThread c sl fun t => { t with aborts := 0, place := .free }).noteIdem_thread c sl false target
  rw [State.thread_modThread_self, State.freeRegion_thread] at ha
  dsimp only
  refine ⟨?_, ?_, ?_, by simp [State.endRegion]⟩ <;> rw [State.endRegion, State.fileFrom]
  · rw [State.thread_modThread_self, ha]
    exact ⟨rfl, rfl, rfl, rfl, rfl⟩
  · refine (State.commit_modCore (f := fun x => x.modThread sl _) (fun _ => rfl) _ c).trans ?_
    rw [State.noteIdem_commit]
    exact (State.commit_modCore (f := fun x => x.modThread sl _) (fun _ => rfl) _ c).trans (State.freeRegion_commit ..)
  · refine Eq.trans (State.noteIdem_locks ..) ?_
    exact s.freeRegion_locks c sl

section
variable {s : State} {c sl k due : Nat} {r : Region} {target : VAddr} {held : List Nat} (hr : s.openRegion c sl = some (k, r))

theorem RegionAborted.of_eq {t w : State} {cause : Nat} (h : RegionAborted t w c sl k r cause) (hm : t.mem = s.mem)
    (ht : (t.thread c sl).aborts = (s.thread c sl).aborts) : RegionAborted s w c sl k r cause := by
  rwa [RegionAborted, hm, ht] at h

include hr

/-- R344, R345: the engine of a core ends its run. -/
theorem exec_lineLockGranted_finish (hargs : s.args = [c]) (hrun : (s.core c).commit = some ⟨sl, target, [], held, some due⟩)
    (hdue : due ≤ s.clk) (htags : (s.core c).tagRoom r = true) (hroom : (s.core c).roomAll = true) :
    exec .lineLockGranted s = .next (s.finishCommit c ⟨sl, target, [], held, some due⟩) := by
  obtain ⟨hk, hfind, -⟩ := State.openRegion_eq_some.1 hr
  simp only [exec, execLineLockGranted, State.arg, hargs, List.getD_cons_zero, State.engineLock, hrun, hk, hfind, htags, hroom,
    Option.getD_some, decide_eq_false (Nat.not_lt.2 hdue), Bool.not_true, Bool.or_self, Bool.false_eq_true, if_false]

theorem State.openRegion_commitLess :
    ((s.modCore c fun x => { x with commit := none }).unlockAll c k).openRegion c sl = some (k, r) := by
  refine (State.openRegion_congr ?_ ?_).trans hr
  · exact congrArg Thread.region (State.thread_modCore s c sl (f := fun x => { x with commit := none }) (fun _ => rfl) c)
  · exact (congrArg Core.regions (State.core_modCore_self s c fun x => { x with commit := none }) :)

variable (htags : (s.core c).tagRoom r = true) (hroom : (s.core c).roomAll = true)
include htags hroom

/-- R340, R343: a region that may not commit. -/
theorem State.finishCommit_aborts {run : CommitRun} (hsl : run.slot = sl) {cause : Nat} (ha : s.commitAborts r = some cause) :
    RegionAborted s (s.finishCommit c run) c sl k r cause ∧ ((s.finishCommit c run).thread c sl).filed = s.clk + 1 := by
  obtain ⟨aborted, filed, -, -⟩ := State.abortFrom_spec (State.openRegion_commitLess hr) (s.clk + 1) cause 0
  have ended : s.finishCommit c run =
      ((s.modCore c fun x => { x with commit := none }).unlockAll c k).abortFrom c sl (s.clk + 1) cause 0 := by
    simp only [State.finishCommit, hsl, hr, htags, hroom, ha, Bool.not_true, Bool.or_self, Bool.false_eq_true, if_false]
  rw [ended]
  have same := State.thread_modCore s c sl (f := fun x => { x with commit := none }) (fun _ => rfl) c
  exact ⟨aborted.of_eq rfl (congrArg Thread.aborts same), filed⟩

/-- R343, R345: a region that commits. -/
theorem State.finishCommit_commits {run : CommitRun} (hsl : run.slot = sl) (ha : s.commitAborts r = none) :
    let ins := (s.rereadInputs r.inputs).1
    let w := s.finishCommit c run
    w.mem = ((s.modCore c fun x => { x with commit := none }).performEntries c ins r.stores).mem ∧
      (w.thread c sl).live = (r.tags.foldl (fun (t : Thread) e => t.setPair e.1 (tagValue ins e.2)) (s.thread c sl)).live ∧
      (w.thread c sl).next = run.target ∧ (w.thread c sl).region = none ∧ (w.thread c sl).aborts = 0 ∧
      (w.thread c sl).filed = s.clk + 1 ∧ (w.core c).commit = none ∧ ∀ e ∈ w.locks, ¬ (e.2.1 = c ∧ e.2.2 = k) := by
  dsimp only
  have kept := (s.modCore c fun x => { x with commit := none }).performEntries_keepsRun c (s.rereadInputs r.inputs).1 r.stores
  have ended : s.finishCommit c run = ((((s.modCore c fun x => { x with commit := none }).performEntries c (s.rereadInputs r.inputs).1
      r.stores).unlockAll c k).settleTags c sl (s.rereadInputs r.inputs).1 r.tags).endRegion c sl (s.clk + 1) run.target := by
    simp only [State.finishCommit, hsl, hr, htags, hroom, ha, Bool.not_true, Bool.or_self, Bool.false_eq_true, if_false]
    rfl
  generalize (s.modCore c fun x => { x with commit := none }).performEntries c (s.rereadInputs r.inputs).1 r.stores = u at kept ended ⊢
  obtain ⟨⟨live, next, region, aborts, filed⟩, commit, locks, mem⟩ :=
    ((u.unlockAll c k).settleTags c sl (s.rereadInputs r.inputs).1 r.tags).endRegion_spec c sl (s.clk + 1) run.target
  rw [ended]
  refine ⟨mem.trans (by simp), live.trans ?_, next, region, aborts, filed, commit.trans ?_, fun e he => ?_⟩
  · have same : (u.unlockAll c k).thread c sl = s.thread c sl :=
      (kept.thread c sl).trans (State.thread_modCore s c sl (f := fun x => { x with commit := none }) (fun _ => rfl) c)
    rw [State.settleTags_thread, same]
  · rw [State.settleTags_commit]
    exact (kept c).2.trans (congrArg Core.commit (State.core_modCore_self ..))
  · rw [locks, State.settleTags_locks] at he
    exact State.not_mem_unlocked e he

end

end Sys2Proof.Machine
end

section
/-! The loads of a region (R338), and a granule whose lines leave the L1s (R342). -/

namespace Sys2Proof.Machine

/-! Regions and caches -/

/-- R342: what the caches change of a region is the marks of its inputs. -/
theorem CacheOnly.region {s t : State} (h : CacheOnly s t) {c k : Nat} {r : Region} (hr : Tbl.find? (s.core c).regions k = some r) :
    ∃ y, Tbl.find? (t.core c).regions k = some y ∧ y.unmarked = r.unmarked := by
  have regions : Tbl.mapVals (fun _ r => r.unmarked) (t.core c).regions = Tbl.mapVals (fun _ r => r.unmarked) (s.core c).regions :=
    (congrArg Core.regions (h.core c) :)
  have found := congrArg (Tbl.find? · k) regions
  simp only [Tbl.find?_mapVals, hr, Option.map_some] at found
  obtain ⟨y, hy, heq⟩ := Option.map_eq_some_iff.1 found
  exact ⟨y, hy, heq⟩

/-- A region that stays open while the caches change. -/
theorem CacheOnly.openRegion {s t : State} (h : CacheOnly s t) {c sl k : Nat} {r : Region} (hr : s.openRegion c sl = some (k, r)) :
    ∃ y, t.openRegion c sl = some (k, y) ∧ y.unmarked = r.unmarked := by
  obtain ⟨hk, hfind, ho⟩ := State.openRegion_eq_some.1 hr
  obtain ⟨y, hy, heq⟩ := h.region hfind
  refine ⟨y, State.openRegion_eq_some.2 ⟨(congrArg Thread.region (h.thread c sl)).trans hk, hy, ?_⟩, heq⟩
  exact (congrArg Region.opened heq :).trans ho

theorem Inst.req?_idx {x : Inst} {n : Nat} {q : Req} (h : x.req? n = some q) : q.idx = n := by
  simpa using List.find?_some h

section
variable {s : State} {c sl k n : Nat} {r : Region} {q : Req}

/-- R338: LOAD_RETURN of a load of a region that is not serialised. -/
theorem exec_loadReturn_region {x : Inst} (hr : s.openRegion c sl = some (k, r)) (hargs : s.args = [c, sl, n])
    (hx : (s.thread c sl).inst = some x) (hq : x.req? n = some q) (hload : q.kind.isLoad = true) (hstage : q.stage = .ready)
    (hdue : q.due ≤ s.clk) (hsq : x.squash = none) (hmay : x.mayRead s.clk q = true) (hser : r.ser = false)
    (hfirst : (s.thread c sl).readsFirst (s.blockOf c sl) n q.kind.acquires q.segs = false)
    (hwait : s.mustWait q.segs c (some k) = false) : exec .loadReturn s = .next (s.regionLoad c sl k r q) := by
  have ready : (!q.kind.isLoad || q.stage != .ready || decide (s.clk < q.due)) = false := by
    simp [hload, hstage, Nat.not_lt.2 hdue]
  simp only [exec, execLoadReturn, State.arg, hargs, List.getD_cons_zero, List.getD_cons_succ, State.loadReturn, hx, hq, ready, hsq,
    Option.isSome_none, hmay, hfirst, Bool.not_true, Bool.or_self, hr, hwait, hser, Bool.false_eq_true, if_false]

/-! A load of the region's own bytes -/

section
variable {e : RStore} (he : r.stores.filter (fun e => e.meets q.segs) = [e]) (hsegs : e.segs = q.segs) (hbytes : e.bytes = q.bytes)
include he hsegs hbytes

theorem State.regionLoad_own (hrec : e.record = none) :
    s.regionLoad c sl k r q = s.finishLoad c sl q (e.data.toNat % 2 ^ (8 * e.bytes)) none := by
  simp only [State.regionLoad, he, hsegs, hbytes, and_self, if_true, hrec]

variable {i : Nat} {off : DWord} {inp : RInput} (hrec : e.record = some (i, off)) (hi : r.inputs[i]? = some inp)
include hrec hi

theorem State.regionLoad_record (h8 : q.bytes = 8) : s.regionLoad c sl k r q =
    s.finishLoad c sl q ((inp.v.setWidth 64 + off).toNat % 2 ^ (8 * e.bytes)) (some (i, off)) := by
  simp only [State.regionLoad, he, hsegs, hbytes, and_self, if_true, hrec, hi, h8]

/-- R338: a record that is read at less than its width has its input pinned. -/
theorem State.regionLoad_pins (h8 : q.bytes ≠ 8) (hr : Tbl.find? (s.core c).regions k = some r) :
    ∃ u, s.regionLoad c sl k r q = State.finishLoad u c sl q ((inp.v.setWidth 64 + off).toNat % 2 ^ (8 * e.bytes)) none ∧
      Tbl.find? (u.core c).regions k = some { r with inputs := replaceAt r.inputs i { inp with pin := true } } := by
  refine ⟨s.modCore c fun x => x.modRegion k fun y => { y with inputs := match y.inputs[i]? with
    | some inp => replaceAt y.inputs i { inp with pin := true }
    | none => y.inputs }, ?_, ?_⟩
  · simp only [State.regionLoad, he, hsegs, hbytes, and_self, if_true, hrec, hi, h8, if_false] <;> rfl
  · rw [State.core_modCore_self, Core.find?_modRegion hr]
    simp only [hi]

end

/-- R338: any other overlap aborts. -/
theorem State.regionLoad_overlap (hn : q.idx = n) (hmeets : ∃ e ∈ r.stores, e.meets q.segs = true)
    (hne : ∀ e, r.stores.filter (fun e => e.meets q.segs) = [e] → e.segs ≠ q.segs ∨ e.bytes ≠ q.bytes) :
    ∃ v, s.regionLoad c sl k r q = (s.modInst c sl fun y => y.abortWith s.clk n 5 0).finishLoad c sl q v none := by
  subst hn
  refine ⟨bytesToNat ((s.readBytes (dieOf c) true q.segs).getD []), ?_⟩
  unfold State.regionLoad
  split
  · next e he => rw [if_neg (fun h => (hne e he).elim (fun h' => h' h.1) fun h' => h' h.2)]
  · rfl
  · next he =>
    obtain ⟨e, hmem, hmeet⟩ := hmeets
    have : e ∈ r.stores.filter fun e => e.meets q.segs := List.mem_filter.2 ⟨hmem, hmeet⟩
    rw [he] at this
    exact absurd this List.not_mem_nil

/-! A load of memory -/

/-- R338: the input that a load takes. -/
def Req.input (q : Req) (bs : List Byte) : RInput := ⟨q.va, q.segs, q.bytes, BitVec.ofNat 128 (bytesToNat bs), false, q.bytes == 16⟩

/-- R338: the state of a load of a region whose lines it holds. -/
def State.loadHeld (s : State) (c : Nat) (q : Req) : State := (s.obtain c q.segs false).1.cacheLines c true q.segs

theorem State.loadHeld_cacheOnly (s : State) (c : Nat) (q : Req) : CacheOnly s (s.loadHeld c q) :=
  (s.obtain_cacheOnly c q.segs false).trans (State.cacheLines_cacheOnly ..)

section
variable {bs : List Byte} (hmeets : ∀ e ∈ r.stores, e.meets q.segs = false) (hfw : (s.thread c sl).forward q.segs = .memory)
  (hob : (s.obtain c q.segs false).2 = true) (hbs : s.readBytes (dieOf c) true q.segs = some bs)
include hmeets hfw hob hbs

theorem State.regionLoad_memory : s.regionLoad c sl k r q =
    if 16 ≤ r.inputs.length ∨ 64 < (r.watchLines q.segs).readLines.length then
      ((s.loadHeld c q).regionOverflow c sl q.idx).finishLoad c sl q (bytesToNat bs) none
    else ((s.loadHeld c q).modCore c fun x => x.modRegion k fun y =>
      { (y.watchLines q.segs) with inputs := y.inputs ++ [q.input bs] }).finishLoad c sl q (bytesToNat bs)
        (if q.bytes = 16 then none else some (r.inputs.length, 0)) := by
  have none_meets : r.stores.filter (fun e => e.meets q.segs) = [] :=
    List.filter_eq_nil_iff.2 fun e he => ne_true_of_eq_false (hmeets e he)
  simp only [State.regionLoad, none_meets, hfw, hob, hbs, Bool.not_true, Bool.false_eq_true, if_false, Bool.or_eq_true,
    decide_eq_true_eq, State.loadHeld, Req.input]

/-- R338: a 17th input, or a 65th line, is an abort for capacity. -/
theorem State.regionLoad_full {x : Inst} (hr : s.openRegion c sl = some (k, r)) (hser : r.ser = false)
    (hx : (s.thread c sl).inst = some x) (hn : q.idx = n)
    (hfull : 16 ≤ r.inputs.length ∨ 64 < (r.watchLines q.segs).readLines.length) :
    ∃ u, s.regionLoad c sl k r q = State.finishLoad u c sl q (bytesToNat bs) none ∧
      ∃ y, (u.thread c sl).inst = some y ∧ y.regionCause = (x.abortWith s.clk n 3 0).regionCause := by
  refine ⟨(s.loadHeld c q).regionOverflow c sl q.idx, ?_, x.abortWith s.clk n 3 0, ?_, rfl⟩
  · rw [State.regionLoad_memory hmeets hfw hob hbs, if_pos hfull]
  · have cached := s.loadHeld_cacheOnly c q
    obtain ⟨y, hy, heq⟩ := cached.openRegion hr
    have ser : y.ser = false := (congrArg Region.ser heq :).trans hser
    simp only [State.regionOverflow, hy, ser, Bool.false_eq_true, if_false, cached.clk, hn]
    rw [State.modInst, State.thread_modThread_self, Thread.modInst, cached.thread, hx]

/-- R338: the load takes the next input and watches its lines. -/
theorem State.regionLoad_input (hr : Tbl.find? (s.core c).regions k = some r) (hin : r.inputs.length < 16)
    (hlines : (r.watchLines q.segs).readLines.length ≤ 64) :
    ∃ u g, s.regionLoad c sl k r q =
        State.finishLoad u c sl q (bytesToNat bs) (if q.bytes = 16 then none else some (r.inputs.length, 0)) ∧
      Tbl.find? (u.core c).regions k = some g ∧ g.readLines = (r.watchLines q.segs).readLines ∧
      g.inputs.map (fun i => { i with stale := false }) = r.inputs.map (fun i => { i with stale := false }) ++ [q.input bs] := by
  obtain ⟨y, hy, heq⟩ := (s.loadHeld_cacheOnly c q).region hr
  have lines : y.readLines = r.readLines := (congrArg Region.readLines heq :)
  have inputs : y.inputs.map (fun i => { i with stale := false }) = r.inputs.map (fun i => { i with stale := false }) :=
    (congrArg Region.inputs heq :)
  refine ⟨(s.loadHeld c q).modCore c fun x => x.modRegion k fun y =>
    { (y.watchLines q.segs) with inputs := y.inputs ++ [q.input bs] }, { (y.watchLines q.segs) with inputs := y.inputs ++ [q.input bs] },
    ?_, ?_, ?_, ?_⟩
  · rw [State.regionLoad_memory hmeets hfw hob hbs, if_neg (by omega)]
  · rw [State.core_modCore_self]
    exact Core.find?_modRegion hy _
  · simp only [Region.watchLines, lines]
  · rw [List.map_append, inputs]
    rfl

end

end

/-! GRANULE_RECLASSIFY (R342) -/

theorem State.core_setGranule (s : State) (g : Nat) (v : BitVec 13) (c : Nat) : (s.setGranule g v).core c = s.core c := by
  rw [State.core, State.core, State.setGranule_cores]

/-- R342: a watched line that leaves its L1 marks the inputs that it holds. -/
theorem State.leaveL1_marks {s : State} {c k i : Nat} {r : Region} {inp : RInput} (hr : Tbl.find? (s.core c).regions k = some r)
    (hi : r.inputs[i]? = some inp) {p q : Nat → Bool} {l : Nat} (hl : l ∈ segLines inp.segs) (hq : q l = true)
    (hp : p (s.l1Core c l) = true) (hheld : l ∈ (s.core (s.l1Core c l)).l1) :
    ∃ r', Tbl.find? ((s.leaveL1 p q).core c).regions k = some r' ∧ r'.inputs[i]? = some { inp with stale := true } := by
  have gone : ((segLines inp.segs).any fun l => q l && p (s.l1Core c l) && (s.core (s.l1Core c l)).l1.contains l) = true :=
    List.any_eq_true.2 ⟨l, hl, by simp [hq, hp, hheld]⟩
  cases hx : Tbl.find? s.cores c with
  | none =>
    rw [State.core, Tbl.get, hx] at hr
    exact absurd hr (by simp [Core.reset, Tbl.find?])
  | some x =>
    have hcore : s.core c = x := by simp [State.core, Tbl.get, hx]
    rw [hcore] at hr
    refine ⟨r.staleAt fun l => q l && p (s.l1Core c l) && (s.core (s.l1Core c l)).l1.contains l, ?_, ?_⟩
    · simp only [State.leaveL1, State.core, Tbl.get, Tbl.find?_mapVals, hx, Option.map_some, Option.getD_some, hr]
    · simp only [Region.staleAt, List.getElem?_map, hi, Option.map_some]
      rw [if_pos gone]

theorem granuleReclassify_marks {s : State} {c k i g : Nat} {r : Region} {inp : RInput} (hargs : s.args = [g]) (hg : s.granule g = 2)
    (hr : Tbl.find? (s.core c).regions k = some r) (hi : r.inputs[i]? = some inp) {l : Nat} (hl : l ∈ segLines inp.segs)
    (hlg : l / 512 = g) (hheld : l ∈ (s.core (s.l1Core c l)).l1) :
    ∃ w r', exec .granuleReclassify s = .next w ∧ Tbl.find? (w.core c).regions k = some r' ∧
      r'.inputs[i]? = some ({ inp with stale := true } : RInput) := by
  obtain ⟨r', found, marked⟩ := State.leaveL1_marks (p := fun _ => true) (q := fun l => l / 512 == g) hr hi hl (by simp [hlg]) rfl hheld
  refine ⟨_, r', by simp only [exec, execGranuleReclassify, State.arg, hargs, List.getD_cons_zero, hg, if_true] <;> rfl, ?_, marked⟩
  rw [State.core_setGranule]
  exact found

end Sys2Proof.Machine
end

section
/-! Commits inside a region (R341, R346). -/

namespace Sys2Proof.Machine

/-! An abort at a commit -/

theorem State.rearmSerial_keepsGroups (s : State) (c sl k : Nat) : KeepsGroups s (s.rearmSerial c sl k) := by
  unfold State.rearmSerial
  split
  · exact .trans (.modCore s c (f := fun x => x.modRegion k fun r => { r with ser := true }) fun _ => Core.modRegion_groups ..)
      (.modDie _ _ _)
  · exact .refl s

theorem State.abortFrom_keepsGroups (s : State) (c sl from_ cause : Nat) (code : BitVec 8) :
    KeepsGroups s (s.abortFrom c sl from_ cause code) := by
  unfold State.abortFrom
  split
  · exact .refl s
  · dsimp only
    refine (s.rollback_keepsGroups c sl cause).trans ?_
    split
    · exact (State.freeRegion_keepsGroups _ c sl).trans (.trans (.modThread _ c sl _) (.modThread _ c sl _))
    · exact .trans (.modThread _ c sl _) ((State.rearmSerial_keepsGroups _ c sl _).trans (.modThread _ c sl _))

theorem KeepsGroups.groupOf {s t : State} (h : KeepsGroups s t) {c sl : Nat} (hg : (t.thread c sl).group = (s.thread c sl).group) :
    t.groupOf c sl = s.groupOf c sl := by
  rw [State.groupOf, State.groupOf, hg, h.group]

theorem State.leaveContext_keepsGroups (s : State) (c sl k : Nat) : KeepsGroups s (s.leaveContext c sl k) :=
  .trans (.modCore s c (f := fun x => x.modContext k fun y => { y with idleSince := s.clk }) fun _ => rfl) (.modThread _ c sl _)

theorem State.moveTo_keepsGroups (s : State) (c sl : Nat) (b : Block) (a : VAddr) : KeepsGroups s (s.moveTo c sl b a) := by
  refine KeepsGroups.trans (t := s.noteNext c sl b a) ?_ (.modThread _ c sl _)
  unfold State.noteNext State.noteIdem
  split
  · exact .modThread _ c sl _
  · exact .refl s

section
variable {s : State} {c sl k : Nat} {r : Region} {x : Inst} (hr : s.openRegion c sl = some (k, r)) (hargs : s.args = [c, sl])
  (hn : s.nextCommit c = some (sl, x)) (hg : (s.groupOf c sl).isSaving = false)
include hr hargs hn hg

/-- R346: an instance that aborts its region at its commit. -/
theorem blockCommit_aborts {rc : RegionCause} (ha : x.aborts = some rc) :
    ∃ w, exec .blockCommit s = .next w ∧ RegionAborted s w c sl k r rc.cause ∧
      (rc.cause = 6 → (w.thread c sl).abortCode = rc.code) := by
  have thread : ((s.leaveContext c sl x.ctx).modThread c sl Thread.dropOwn).thread c sl =
      ({ s.thread c sl with inst := none, place := .filing x.ctx } : Thread).dropOwn := by
    rw [State.thread_modThread_self, State.leaveContext_thread]
  have still : ((s.leaveContext c sl x.ctx).modThread c sl Thread.dropOwn).openRegion c sl = some (k, r) := by
    refine (State.openRegion_congr ?_ ?_).trans ((s.leaveContext_openRegion c sl x.ctx).trans hr)
    · rw [State.thread_modThread_self]
      rfl
    · rw [State.core_modThread_regions]
  have ended : s.commitInst c sl x = ((s.leaveContext c sl x.ctx).modThread c sl Thread.dropOwn).abortFrom c sl
      ((s.leaveContext c sl x.ctx).modThread c sl Thread.dropOwn).clk rc.cause rc.code := by
    simp only [State.commitInst, hr, ha, Option.isSome_some]
    rfl
  have kept : KeepsGroups s (s.commitInst c sl x) := by
    rw [ended]
    exact (s.leaveContext_keepsGroups c sl x.ctx).trans (.trans (.modThread _ c sl _) (State.abortFrom_keepsGroups ..))
  obtain ⟨aborted, -, code, group⟩ := State.abortFrom_spec still ((s.leaveContext c sl x.ctx).modThread c sl Thread.dropOwn).clk
    rc.cause rc.code
  rw [← ended] at aborted code group
  refine ⟨_, State.exec_blockCommit hargs hn hg (kept.groupOf (group.trans ?_)), aborted.of_eq (by simp) ?_, code⟩ <;> rw [thread] <;> rfl

end

/-! A commit that goes on -/

theorem Region.noteWrite_stores (r : Region) (ws : List LiveOut) : (ws.foldl Region.noteWrite r).stores = r.stores := by
  refine foldl_keeps Region.stores _ (fun y l => ?_) ws r
  unfold Region.noteWrite
  dsimp only
  split <;> rfl

/-- R341: what a commit leaves of its region. -/
def Region.committed (r : Region) (ws : List LiveOut) (own : List BufEntry) : Region :=
  let y := ws.foldl Region.noteWrite r
  { y with stores := y.stores ++ own.map BufEntry.rstore
           writeLines := (own.foldl (fun acc e => (segLines e.segs).foldl (fun a l => insertNat l a) acc) []).foldl
             (fun a l => insertNat l a) y.writeLines }

section
variable {s : State} {c sl k : Nat} {r : Region} (hr : s.openRegion c sl = some (k, r))
include hr

theorem State.writeLive_region (ws : List LiveOut) :
    (s.writeLive c sl ws).thread c sl = (s.thread c sl).written ws ∧
      Tbl.find? ((s.writeLive c sl ws).core c).regions k = some (ws.foldl Region.noteWrite r) ∧ KeepsGroups s (s.writeLive c sl ws) := by
  obtain ⟨-, hfind, -⟩ := State.openRegion_eq_some.1 hr
  have split : s.writeLive c sl ws = ((s.modThread c sl fun t => t.written ws).modCore c fun x =>
      x.modRegion k fun r => ws.foldl Region.noteWrite r).modCore c fun x => x.queueWrites sl (writtenSlots ws) := by
    simp only [State.writeLive, hr]
    rfl
  rw [split]
  refine ⟨?_, ?_, ?_⟩
  · rw [State.thread_modCore _ _ _ fun x => (Core.queueWrites_rest ..).2.1, State.thread_modCore _ _ _ fun x => (Core.modRegion_same ..).1,
      State.thread_modThread_self]
  · rw [State.core_modCore_self, (Core.queueWrites_rest ..).2.2.1, State.core_modCore_self]
    refine Core.find?_modRegion ?_ _
    rw [State.core_modThread_regions]
    exact hfind
  · exact .trans (.modThread _ c sl _) (.trans (.modCore _ c fun x => Core.modRegion_groups ..)
      (.modCore _ c fun x => (Core.queueWrites_rest ..).1))

/-- R341: the effects of a commit in a region. -/
theorem State.commitEffects_region (x : Inst) :
    let w := s.commitEffects c sl x
    (w.thread c sl).group = (s.thread c sl).group ∧ KeepsGroups s w ∧
      Tbl.find? (w.core c).regions k = some (r.committed (x.writes (s.thread c sl).deferred)
        ((s.thread c sl).buf.filter fun e => !e.committed)) := by
  obtain ⟨hk, -, ho⟩ := State.openRegion_eq_some.1 hr
  obtain ⟨thread, found, kept⟩ := s.writeLive_region hr (x.writes (s.thread c sl).deferred)
  have steady := Thread.unslotted_written (s.thread c sl) (x.writes (s.thread c sl).deferred)
  have opened : ((x.writes (s.thread c sl).deferred).foldl Region.noteWrite r).opened = true := by
    refine (foldl_keeps Region.opened _ (fun y l => ?_) _ r).trans ho
    unfold Region.noteWrite
    dsimp only
    split <;> rfl
  generalize hu : (s.writeLive c sl (x.writes (s.thread c sl).deferred)).modThread c sl (fun t =>
    { t with fpMode := x.fpNext.getD t.fpMode }) = u
  have uthread : u.thread c sl = { (s.thread c sl).written (x.writes (s.thread c sl).deferred) with
      fpMode := x.fpNext.getD ((s.thread c sl).written (x.writes (s.thread c sl).deferred)).fpMode } := by
    rw [← hu, State.thread_modThread_self, thread]
  have ufound : Tbl.find? (u.core c).regions k = some ((x.writes (s.thread c sl).deferred).foldl Region.noteWrite r) := by
    rw [← hu, State.core_modThread_regions]
    exact found
  have uopen : u.openRegion c sl = some (k, (x.writes (s.thread c sl).deferred).foldl Region.noteWrite r) := by
    refine State.openRegion_eq_some.2 ⟨?_, ufound, opened⟩
    rw [uthread]
    exact (congrArg Thread.region steady :).trans hk
  have buf : (u.thread c sl).buf = (s.thread c sl).buf := by
    rw [uthread]
    exact (congrArg Thread.buf steady :)
  have group : (u.thread c sl).group = (s.thread c sl).group := by
    rw [uthread]
    exact (congrArg Thread.group steady :)
  have effects : s.commitEffects c sl x = u.commitRegionBuf c sl k := by
    simp only [State.commitEffects, hu, uopen]
  dsimp only
  rw [effects, State.commitRegionBuf, buf]
  refine ⟨?_, ?_, ?_⟩
  · rw [State.thread_modThread_self, State.thread_modCore _ _ _ fun x => (Core.modRegion_same ..).1]
    exact group
  · refine kept.trans (.trans (t := u) (hu ▸ .modThread _ c sl _)
      (.trans (.modCore _ c fun x => Core.modRegion_groups ..) (.modThread _ c sl _)))
  · rw [State.core_modThread_regions, State.core_modCore_self]
    exact Core.find?_modRegion ufound _

/-- R341: a commit in a region that goes on to another block. -/
theorem blockCommit_region {x : Inst} (hargs : s.args = [c, sl]) (hn : s.nextCommit c = some (sl, x))
    (hg : (s.groupOf c sl).isSaving = false) (ha : x.aborts = none) (hf : s.commitFault c sl x = none) {a : VAddr}
    (ht : x.term = .goto a none) :
    ∃ w, exec .blockCommit s = .next w ∧ (w.thread c sl).next = a ∧ w.mem = s.mem ∧
      Tbl.find? (w.core c).regions k = some (r.committed (x.writes (s.thread c sl).deferred)
        ((s.thread c sl).buf.filter fun e => !e.committed)) := by
  obtain ⟨group, kept, found⟩ := State.commitEffects_region hr x
  have ended : s.commitInst c sl x =
      ((s.commitEffects c sl x).leaveContext c sl x.ctx).moveTo c sl ((s.core c).context x.ctx).block a := by
    simp only [State.commitInst, hr, ha, hf, State.terminate, ht, Option.isSome_some]
  have left := (s.commitEffects c sl x).leaveContext_thread c sl x.ctx
  obtain ⟨i, moved⟩ := State.moveTo_thread (s := (s.commitEffects c sl x).leaveContext c sl x.ctx) (k := x.ctx)
    (by rw [left]) ((s.core c).context x.ctx).block a
  rw [← ended, left] at moved
  have keeps : KeepsGroups s (s.commitInst c sl x) := by
    rw [ended]
    exact kept.trans ((State.leaveContext_keepsGroups ..).trans (State.moveTo_keepsGroups ..))
  refine ⟨_, State.exec_blockCommit hargs hn hg (keeps.groupOf ?_), ?_, ?_, ?_⟩
  · rw [moved]
    exact group
  · rw [moved]
  · rw [ended]
    simp
  · have regions : ((s.commitInst c sl x).core c).regions = ((s.commitEffects c sl x).core c).regions := by
      rw [ended, State.moveTo, State.fileTo, State.fileFrom, State.core_modThread_regions, State.noteNext, State.noteIdem]
      have gone : (((s.commitEffects c sl x).leaveContext c sl x.ctx).core c).regions = ((s.commitEffects c sl x).core c).regions := by
        rw [State.leaveContext, State.core_modThread_regions, State.core_modCore_self]
        rfl
      split
      · rw [State.core_modThread_regions, gone]
      · exact gone
    rw [regions, found]

end

end Sys2Proof.Machine
end

section
/-! Tagged operands (R339, R340) (O46). -/

namespace Sys2Proof.Machine

/-! What a firing leaves of the regions -/

theorem Core.chargeLoss_regions (x : Core) (k w cause clk idx : Nat) : (x.chargeLoss k w cause clk idx).regions = x.regions := by
  unfold Core.chargeLoss
  split <;> rfl

theorem State.fireWith_regions (s : State) (busy : Nat) (f : Inst → Inst) (c : Nat) :
    ((s.fireWith busy f).core c).regions = (s.core c).regions := by
  have taken : ((s.takePE busy).core c).regions = (s.core c).regions := by
    unfold State.takePE
    split
    · rfl
    · by_cases hc : c = s.cur.core
      · rw [hc, State.core_modCore_self, Core.chargeLoss_regions]
      · rw [State.core_modCore_ne _ _ hc]
  rw [State.fireWith, State.modInst, State.modThread]
  by_cases hc : c = s.cur.core
  · rw [← hc, State.core_modCore_self]
    exact taken
  · rw [State.core_modCore_ne _ _ hc, taken]

theorem State.emit_regions (s : State) (busy lat : Nat) (t1 t0 : Target) (v1 v0 : Token) (c : Nat) :
    ((s.emit busy lat t1 t0 v1 v0).core c).regions = (s.core c).regions :=
  State.fireWith_regions ..

/-! Pins and constraints -/

theorem State.pin_untagged {s : State} {v : Token} (h : v.tag = none) (ops : List Token) : s.pin (v :: ops) = s.pin ops := by
  simp only [State.pin, h]

theorem State.pin_tagged {s : State} {v : Token} {i : Nat} {off : DWord} (h : v.tag = some (i, off)) : s.pin [v] = s.pinInput i := by
  simp only [State.pin, h]

/-- R339: an operation that carries no tag on pins the inputs of its operands. -/
theorem State.compute_regions (s : State) (busy lat : Nat) (t1 t0 : Target) (ops : List Token) (v : Token) (c : Nat) :
    ((s.compute busy lat t1 t0 ops v).core c).regions = ((s.pin (s.opTok .c :: ops)).core c).regions := by
  unfold State.compute
  split <;> rw [State.emit_regions]

theorem State.immediate_regions (s : State) (t1 t0 : Target) (ops : List Token) (v1 v0 : Token) :
    ((s.immediate t1 t0 ops id v1 v0).core s.cur.core).regions = ((s.pin ops).core s.cur.core).regions := by
  unfold State.immediate
  split <;> rw [State.modInst, State.core_modThread_regions, State.emit_regions] <;> rfl

theorem sextNat_lo (a : Token) : sextNat 64 a.lo = (a.data.setWidth 64).toInt := by
  have lo : (a.data.setWidth 64).toNat = a.lo := BitVec.toNat_setWidth ..
  rw [BitVec.toInt_eq_toNat_cond, lo, sextNat, Nat.mod_eq_of_lt a.lo_lt]
  split <;> split <;> omega

section
variable {s : State} {x : Inst} {k i : Nat} {g : Region} (hx : s.live x) (hk : x.region = some k)
  (hg : Tbl.find? (s.core s.cur.core).regions k = some g)
include hx hk hg

/-- R339: pinning an input. -/
theorem State.pinInput_region {inp : RInput} (hi : g.inputs[i]? = some inp) : Tbl.find? ((s.pinInput i).core s.cur.core).regions k =
    some { g with inputs := replaceAt g.inputs i { inp with pin := true } } := by
  simp only [State.pinInput, hx.1, hk]
  rw [State.core_modCore_self, Core.find?_modRegion hg]
  simp only [hi]

theorem State.immediate_pins {a : Token} {off : DWord} {inp : RInput} (htag : a.tag = some (i, off)) (hi : g.inputs[i]? = some inp)
    (t1 t0 : Target) (v1 v0 : Token) :
    Tbl.find? ((s.immediate t1 t0 [a] id v1 v0).core s.cur.core).regions k =
      some { g with inputs := replaceAt g.inputs i { inp with pin := true } } := by
  rw [State.immediate_regions, State.pin_tagged htag]
  exact State.pinInput_region hx hk hg hi

/-- R340: what a constraint leaves of its region: it is recorded once, and where 32 stand its input is pinned instead. -/
theorem State.constrain_region {q : Constraint} {inp : RInput} (hi : g.inputs[q.input]? = some inp) :
    Tbl.find? ((s.constrain q).core s.cur.core).regions k = some (if q ∈ g.constraints then g
      else if 32 ≤ g.constraints.length then { g with inputs := replaceAt g.inputs q.input { inp with pin := true } }
      else { g with constraints := g.constraints ++ [q] }) := by
  simp only [State.constrain, hx.1, hk, hg, List.contains_iff_mem, ge_iff_le]
  split
  · exact hg
  · split
    · exact State.pinInput_region hx hk hg hi
    · rw [State.core_modCore_self]
      exact Core.find?_modRegion hg _

end

/-! What tagged operands send -/

/-- R339: the firing sends a token to both its targets in 1 clk, and leaves a region as `h`. -/
def State.SendsIn (s : State) (ins : Instr) (t1 t0 : Target) (v : Token) (k : Nat) (h : Region) : Prop :=
  ∃ t, exec ins s = .next t ∧ Emitted s t 1 1 t1 t0 v v ∧ Tbl.find? (t.core s.cur.core).regions k = some h

theorem State.sendsIn_emit {s : State} {x : Inst} (hx : s.live x) {k : Nat} {ins : Instr} {t1 t0 : Target} {v : Token} {h : Region}
    {u : State} (hu : PinnedOnly s u) (hi : exec ins s = .next (u.emit 1 1 t1 t0 v v))
    (hreg : Tbl.find? (u.core s.cur.core).regions k = some h) : s.SendsIn ins t1 t0 v k h :=
  ⟨_, hi, State.emit_emitted hu hx 1 1 t1 t0 v v, by rw [State.emit_regions]; exact hreg⟩

section
variable {s : State} {x : Inst} {k i : Nat} {g : Region} (hx : s.live x)
  (hg : Tbl.find? (s.core s.cur.core).regions k = some g) (hguard : s.guardTrue = true) (hc : (s.opTok .c).tag = none)
include hx hg hguard hc

/-- R339: a result that carries its tag on pins nothing. -/
theorem State.sendsIn_computeTag {ins : Instr} {t1 t0 : Target} {ops : List Token} {v : Token} {tag : Nat × DWord}
    (hops : ∀ w ∈ ops, w.null = false) (hi : exec ins s = .next (s.computeTag 1 1 t1 t0 ops v (some tag))) :
    s.SendsIn ins t1 t0 { v with tag := some tag } k g := by
  refine State.sendsIn_emit hx (.refl s) (hi.trans ?_) hg
  simp only [State.computeTag, State.runs_of hx hops, hguard, Bool.and_self, if_true, State.pin_untagged hc] <;> rfl

variable {a : Token} {off : DWord} {inp : RInput} (ha : s.has .a a)
include ha

/-- R339: a sum or a difference with an operand that has no tag. -/
theorem State.intOp2_sends {ins : Instr} {t1 t0 : Target} {b : Token} (hb : s.has .b b) {f : Int → Int → Nat → Int}
    {tag : Token → Token → Option (Nat × DWord)} {w : Nat × DWord} (hw : tag a b = some w)
    (hi : exec ins s = .next (s.intOp2 1 1 ⟨.i64, false, false, false⟩ t1 t0 f tag)) :
    ∃ v : Token, s.SendsIn ins t1 t0 { v with tag := some w } k g := by
  refine ⟨dword (laneOp ⟨.i64, false, false, false⟩ (fun x y _ n => f x y n) a.nat b.nat 0),
    State.sendsIn_computeTag hx hg hguard hc (ops := [a, b]) (by simp [ha.2, hb.2]) (hi.trans ?_)⟩
  rw [State.intOp2, ha.opTok, hb.opTok]
  exact congrArg Host.Outcome.next (by rw [← hw]; rfl)

variable (htag : a.tag = some (i, off))
include htag

theorem State.mov_sends (t1 t0 : Target) : s.SendsIn (.mov false t1 t0) t1 t0 a k g := by
  have carried : ({ a with tag := some (i, off) } : Token) = a := by rw [← htag]
  refine carried ▸ State.sendsIn_computeTag hx hg hguard hc ha.operands ?_
  rw [ha.opTok, ← htag]
  exact congrArg Host.Outcome.next (by rw [ha.opTok])

theorem State.addi_sends (imm : BitVec 15) (t0 : Target) : s.SendsIn (.addi imm t0) .none t0
    { dword (a.lo + (imm.signExtend 64).toNat) with tag := some (i, off + imm.signExtend 64) } k g := by
  refine State.sendsIn_computeTag hx hg hguard hc ha.operands ?_
  simp only [exec, execAddi, ha.opTok, htag, Option.map_some, immPat_eq_signExtend]
  rfl

variable (hk : x.region = some k) (hi : g.inputs[i]? = some inp)
include hk hi

theorem State.setpiLt_sends (imm : BitVec 15) (t0 : Target) :
    let p := decide ((a.data.setWidth 64).toInt < imm.toInt)
    let q : Constraint := ⟨i, off, .lt, true, imm.signExtend 64, true, p⟩
    s.SendsIn (.setpiLt imm t0) .none t0 (predTok p) k (if q ∈ g.constraints then g
      else if 32 ≤ g.constraints.length then { g with inputs := replaceAt g.inputs i { inp with pin := true } }
      else { g with constraints := g.constraints ++ [q] }) := by
  dsimp only
  refine State.sendsIn_emit hx (s.constrain_pinned _) ?_ (State.constrain_region hx hk hg hi)
  have hruns := State.runs_of hx ha.operands
  rw [ha.opTok] at hruns
  have outcome : relHolds .lt (sextNat 64 a.lo) (immVal imm) = decide ((a.data.setWidth 64).toInt < imm.toInt) := by
    rw [sextNat_lo]
    rfl
  simp only [exec, execSetpiLt, State.compareImm, ha.opTok, htag, hruns, hguard, Bool.and_self, if_true, State.pin_untagged hc, outcome]
  rfl

omit hguard in
/-- R339: what `apin` and an operation that carries no tag on leave of the region. -/
theorem State.tagged_pins (imm : BitVec 15) (t1 t0 : Target) :
    ∀ ins ∈ [Instr.apin t1 t0, .andi imm t0, .muli imm t0, .fneg ⟨.f64, false, false, false⟩ t1 t0],
      ∀ t, exec ins s = .next t → ∃ h, Tbl.find? (t.core s.cur.core).regions k = some h ∧
        h.inputs = replaceAt g.inputs i { inp with pin := true } := by
  have computed : ∀ busy lat u1 v, Tbl.find? ((s.compute busy lat u1 t0 [s.opTok .a] v).core s.cur.core).regions k =
      some { g with inputs := replaceAt g.inputs i { inp with pin := true } } := fun busy lat u1 v => by
    rw [State.compute_regions, State.pin_untagged hc, ha.opTok, State.pin_tagged htag]
    exact State.pinInput_region hx hk hg hi
  intro ins hins t ht
  simp only [List.mem_cons, List.not_mem_nil, or_false] at hins
  rcases hins with rfl | rfl | rfl | rfl <;> rw [← Host.Outcome.next.inj ht]
  · rw [ha.opTok]
    exact ⟨_, State.immediate_pins hx hk hg htag hi t1 t0 _ _, rfl⟩
  · exact ⟨_, computed _ _ _ _, rfl⟩
  · exact ⟨_, computed _ _ _ _, rfl⟩
  · exact ⟨_, computed _ _ _ _, rfl⟩

end

/-- R340: a constraint of a comparison with an immediate. -/
theorem Constraint.holds_lt {q : Constraint} (hr : q.rel = .lt) (hs : q.signed = true) (hl : q.tagLeft = true) (v : DWord) :
    q.holds v = true ↔ (((v + q.c).toInt < q.k.toInt) ↔ q.outcome = true) := by
  simp only [Constraint.holds, hr, hs, hl, readAs, relHolds, if_true]
  cases q.outcome <;> simp

end Sys2Proof.Machine
end

section
/-! Atomic regions, assembled (O46). -/

open Sys2Proof Sys2Proof.Machine

/-- Settles O46: the commit engine and the line locks by their equations, the end of a commit by `finishCommit`, an abort by what
`abortFrom` leaves, a load by the stores of the region that meet it, and a tagged operand by the pins and constraints of its firing. -/
theorem regionCommits : Obligations.RegionCommits := by
  unfold Obligations.RegionCommits
  refine ⟨?region, ?tagged, fun q v hr hs hl => Constraint.holds_lt hr hs hl v⟩
  case region =>
    intro s c sl k r target hr
    have hfind := (State.openRegion_eq_some.1 hr).2.1
    refine ⟨?start, ?lock, ?finish, ?token, ?load, ?stale, ?commit⟩
    case start =>
      intro rest hargs hcommit hq hy
      rw [exec_commitEngineStart hr hargs hcommit hq hy]
      refine ⟨fun h => congrArg _ (if_pos ?_), fun hbuf hdef todo htodo => congrArg _ ?_⟩
      · simpa using h
      · have htodo : (r.lines.filter fun l => !s.locks.contains (l, c, k)) = todo := htodo
        rw [if_neg (by simp [hbuf, hdef]), htodo]
        simp only [List.isEmpty_iff]
    case lock =>
      intro l todo held hargs hown hatomic hfree
      exact ⟨exec_lineLockGranted_ask hr hargs hown hatomic hfree,
        fun t hrun ht hob => lineLockGranted_locks hr hargs hown hatomic hfree hrun ht hob⟩
    case finish =>
      intro held due hargs hrun hdue htags hroom
      have ended := exec_lineLockGranted_finish hr hargs hrun hdue htags hroom
      have cause : s.commitAborts r = if (s.rereadInputs r.inputs).2 then some 1
        else if r.constraints.any (fun q => !q.holds (match (s.rereadInputs r.inputs).1[q.input]? with
          | some i => i.v.setWidth 64 | none => 0)) then some 2 else none := rfl
      refine ⟨fun hch => ?_, fun hch hf => ?_, fun hch hf => ?_⟩
      · exact ⟨_, ended, State.finishCommit_aborts hr htags hroom rfl (cause.trans (if_pos hch))⟩
      · exact ⟨_, ended, State.finishCommit_aborts hr htags hroom rfl
          (cause.trans ((if_neg (ne_true_of_eq_false hch)).trans (if_pos hf)))⟩
      · exact ⟨_, ended, State.finishCommit_commits hr htags hroom rfl
          (cause.trans ((if_neg (ne_true_of_eq_false hch)).trans (if_neg (ne_true_of_eq_false hf))))⟩
    case token =>
      intro d n hargs hn
      exact ⟨exec_serialTokenGrant_held hargs, exec_serialTokenGrant hargs hn⟩
    case load =>
      intro x q n hargs hx hq hload hstage hdue hsq hmay hser hfirst hwait
      have hidx := Inst.req?_idx hq
      rw [exec_loadReturn_region hr hargs hx hq hload hstage hdue hsq hmay hser hfirst hwait]
      refine ⟨fun e he hsegs hbytes => ⟨fun hrec => ?_, fun i off inp hrec hi => ⟨fun h8 => ?_, fun h8 => ?_⟩⟩, fun hmeets hne => ?_,
        fun bs hmeets hfw hob hbs => ⟨fun hfull => ?_, fun hin hlines => ?_⟩⟩
      · exact congrArg _ (State.regionLoad_own he hsegs hbytes hrec)
      · exact congrArg _ (State.regionLoad_record he hsegs hbytes hrec hi h8)
      · obtain ⟨u, hu, region⟩ := State.regionLoad_pins (s := s) (c := c) (sl := sl) he hsegs hbytes hrec hi h8 hfind
        exact ⟨u, congrArg _ hu, region⟩
      · obtain ⟨v, hv⟩ := State.regionLoad_overlap (s := s) (c := c) (sl := sl) (k := k) hidx hmeets hne
        exact ⟨v, congrArg _ hv⟩
      · obtain ⟨u, hu, capacity⟩ := State.regionLoad_full (k := k) hmeets hfw hob hbs hr hser hx hidx hfull
        exact ⟨u, _, congrArg _ hu, rfl, capacity⟩
      · obtain ⟨u, g, hu, region⟩ := State.regionLoad_input hmeets hfw hob hbs hfind hin hlines
        exact ⟨u, g, congrArg _ hu, region⟩
    case stale =>
      intro g i inp l hargs hg hi hl hlg hheld
      exact granuleReclassify_marks hargs hg hfind hi hl hlg hheld
    case commit =>
      intro x hargs hn hx hg
      refine ⟨fun rc ha => blockCommit_aborts hr hargs hn hg ha, fun a own ha hf ht hown => ?_⟩
      subst hown
      obtain ⟨w, hw, next, mem, region⟩ := blockCommit_region hr hargs hn hg ha hf ht
      refine ⟨w, _, hw, region, next, mem, ?_, fun l tag hl hwide htag => ?_⟩
      · simp only [Region.committed, Region.noteWrite_stores]
        rfl
      · simp only [Region.committed, hl, List.foldl_cons, List.foldl_nil, Region.noteWrite, hwide, htag]
        exact Tbl.find?_set_self ..
  case tagged =>
    intro s x t1 t0 a b k i g inp off imm hx ha hk hg htag hi hguard hc
    refine ⟨State.mov_sends hx hg hguard hc ha htag t1 t0, State.addi_sends hx hg hguard hc ha htag imm t0, fun hb hbt => ?_,
      State.setpiLt_sends hx hg hguard hc ha htag hk hi imm t0, State.tagged_pins hx hg hc ha htag hk hi imm t1 t0⟩
    obtain ⟨va, hva⟩ := State.intOp2_sends hx hg hguard hc ha (ins := .add ⟨.i64, false, false, false⟩ t1 t0) hb
      (tag := addTag ⟨.i64, false, false, false⟩) (w := (i, off + b.data.setWidth 64)) (by simp only [addTag, htag, hbt]; rfl) rfl
    obtain ⟨vb, hvb⟩ := State.intOp2_sends hx hg hguard hc ha (ins := .sub ⟨.i64, false, false, false⟩ t1 t0) hb
      (tag := subTag ⟨.i64, false, false, false⟩) (w := (i, off - b.data.setWidth 64)) (by simp only [subTag, htag, hbt]; rfl) rfl
    exact ⟨va, vb, hva, hvb⟩

end
